-- ==== Sys2Proof/Word.lean ====
section
/-! DEFINITION. The word types of the SG128 model: bytes, the binary32 word and the Izcel time count.
Nothing here is computed; byte order, checksums and arithmetic stand in files under Machine. -/

namespace Sys2Proof

/-- One byte of a payload, a block parameter, a tile or a log record (R7). -/
abbrev Byte := BitVec 8

/-- A string of bytes, the first at the lowest offset (R7: multi-byte values are little-endian). -/
abbrev Bytes := List Byte

/-- An IEEE 754 binary32 value as its 32 bits (R7, R371: the stored bytes are the written bytes). -/
abbrev F32 := BitVec 32

/-- Izcel time in whole nanoseconds (R33: the whole nanoseconds at or below the tick). A count, never a word:
the model lets it exceed 64 bits, which no module reaches (2^64 ns are 584 years). -/
abbrev IT := Nat

end Sys2Proof
end

