-- ==== Sys2Proof/Syntax.lean ====
section
/-! DEFINITION. The commands of the SG128: one constructor per row of the opcode table, with its operands.
The table gives no operand fields; each operand is what the rule of the row takes from outside the module: a channel,
bank or slot number, the Izcel time at which the event falls where the state does not fix it, a measured quantity, the
bytes a host or a receiver sends. A command whose instant the state fixes (a stamped edge, the next frame boundary)
carries no time. -/

namespace Sys2Proof

/-- The networks that carry Pagrim (R398), with the codes of P 0x1200.08. -/
inductive Net where
  | canB | canC | eth
  deriving DecidableEq, Repr

/-- What identifies a session (R401): network, session byte, and on ETH the sender's IPv4 address and UDP port. -/
structure SessionId where
  net  : Net
  byte : Nat
  addr : Nat
  port : Nat
  deriving DecidableEq, Repr

/-- The header facts of a received Pagrim request (R398, R402): who sent it, its sequence number, the CRC-32C it
carried and its hardware receive stamp. -/
structure Req where
  sid : SessionId
  seq : Nat
  crc : Nat
  rx  : IT
  deriving DecidableEq, Repr

/-- What a cold start meets outside the module (R38, R88, R160, R478): the AON count, the level of IGN, the result of the
inertial built-in test, whether the Ethernet link is already up, which hank headers fail their CRC, and which copies of the
epoch region do: the two alternating ones, the final one, the two of the discontinuity count (R37, R39). -/
structure BootIn where
  aon    : Nat
  ign    : Bool
  imuOk  : Bool
  linkUp : Bool
  badHdr : Vector Bool 16
  badEpoch : Vector Bool 5
  badRepair : Vector Bool 2
  deriving DecidableEq, Repr

/-- One inertial sample in sensor axes (R85, R87): gyro rates in binary angle per second, accelerations in mm/s²,
the sensor's own temperature in 0.1 °C. -/
structure ImuSample where
  gyro  : Vector Int 3
  accel : Vector Int 3
  temp  : Int
  deriving DecidableEq, Repr

/-- A tile fill that completes (R178): its key, the bit errors corrected, and whether the tile's CRC-32 was still found right. -/
structure FillIn where
  col       : Int
  row       : Int
  corrected : Nat
  crcOk     : Bool
  deriving DecidableEq, Repr

/-- The physical quantities the module measures over the frame that ends at a boundary (R18 step 1, R248, R253, R339,
R343, R355, R469). Voltages in mV, currents in mA, temperatures in 0.1 °C, mean squared coil currents in mA², the
charge through each channel's clamp in nC, deviations of the dies' local time in ps. `clampMj` holds the clamp energy of each load switch's turn-off in the
frame, 0 without one; `fills` are the tile fills that completed while the queries of step 4 ran (R179), in order; `railsOk` says that the logic rails lay within 5 %. -/
structure FrameIn where
  vKA        : Nat
  vA         : Nat
  vB         : Nat
  iA         : Nat
  iB         : Nat
  railMv     : Nat
  bobbinMa   : Int
  bankMa     : Vector Nat 16
  coilMa2    : Vector Nat 128
  clampNc    : Vector Nat 128
  linkMa     : Vector Int 2
  loadMa     : Vector Nat 16
  junction   : Vector Int 16
  svMa       : Vector Nat 2
  temps      : Vector Int 12
  tempSelfOk : Vector Bool 12
  switchMv   : Vector Nat 16
  imu        : Option ImuSample
  dieDevPs   : Vector Int 4
  fills      : List FillIn
  energy     : Vector Nat 4
  pullInUj   : Vector Nat 128
  clampMj    : Vector Nat 16
  railsOk    : Bool
  deriving DecidableEq, Repr

/-- What a loop step latches (R260 step 1): per analog input the ratiometric voltage in mV and the current in µA of the
latest conversion, and the last stretch, begin and end, for which that current stood above 30 mA (R526); and whether the step
completes later than 30 µs (R282). -/
structure LoopIn where
  milliVolt : Vector Nat 12
  microAmp  : Vector Nat 12
  above30   : Vector (Option (IT × IT)) 12
  late      : Bool
  deriving DecidableEq, Repr

/-- What a bridge or port measures in the spinner period that ends at a transfer (R308, R316): the mean current, whether
a pulse passed 12 A, and the link current. -/
structure StageIn where
  meanMa : Int
  over12 : Bool
  linkMa : Int
  deriving DecidableEq, Repr

/-- The rail fault causes of P 0x3090.0C (R251). -/
inductive RailCause where
  | overVoltage | underVoltage | converterOC
  deriving DecidableEq, Repr

/-- The causes that reset a drive die from the edge-word path (R239). -/
inductive EdgeCause where
  | parity | sequence | watchdog
  deriving DecidableEq, Repr

/-- An end of travel (R309): its instant, and the lowest current in mA of the 20 ms before it. -/
structure TravelIn where
  at_ : IT
  ma  : Nat
  deriving DecidableEq, Repr

/-- The trips of bridges and ports (R316): the bridge current in mA; the drain-to-source voltage in mV and the time in ns since the
gate's turn-on; the link current in mA; the gate supply in mV. -/
inductive TripKind where
  | overCurrent (ma : Nat) | desaturation (mv ns : Nat) | linkCurrent (ma : Nat) | gateSupply (mv : Nat)
  deriving DecidableEq, Repr

/-- The trips of a load switch (R327): since when it has regulated at its current limit; the junction temperature reached, in
0.1 °C. -/
inductive LoadTripKind where
  | limitTime (since : IT)
  | overTemperature (junction : Int)
  deriving DecidableEq, Repr

/-- The subjects of a supply fault (R339). -/
inductive SupplySubject where
  | ka | pwrA | pwrB | logicRails
  deriving DecidableEq, Repr

/-- The causes of a supply fault (R339). -/
inductive SupplyCause where
  | low | high | overCurrent | railOutOfRange
  deriving DecidableEq, Repr

/-- An input that can report STOPPED (R66, R75). -/
inductive SpeedInput where
  | pulse (i : Fin 8)
  | hall (h : Fin 2)
  deriving DecidableEq, Repr

/-- The wall-time sources of R41, with the status values of P 0x1100.04. -/
inductive WallSource where
  | host | gnss | gnssPps | gptp
  deriving DecidableEq, Repr

/-- The gPTP messages a follower receives (R419). Times are PTP ns; `rx` is the Izcel receive stamp. -/
inductive GptpMsg where
  | announce (utcOffset : Int) (utcValid : Bool)
  | sync (seq : Nat)
  | followUp (seq : Nat) (originNs : Nat) (correctionNs : Int)
  | pdelayReq (seq : Nat)
  | pdelayResp (seq : Nat) (requestReceiptNs : Nat)
  | pdelayRespFollowUp (seq : Nat) (responseOriginNs : Nat)
  deriving DecidableEq, Repr

/-- What the address claim sees on CAN-A (R422): the claim begins, another ECU claims the same address with a stronger
NAME, or the claim stands. -/
inductive ClaimEvent where
  | start
  | lost
  | stands
  deriving DecidableEq, Repr

/-- A process data message of the task controller (R426). -/
inductive TcMsg where
  | setpointWorkState (group : Fin 16) (word : BitVec 32)
  | sectionControlState (on : Bool)
  | intervalTrigger (ddi : Nat) (ms : Nat)
  | onChangeTrigger (ddi : Nat)
  | distanceTrigger (ddi : Nat)
  | thresholdTrigger (ddi : Nat)
  | requestValue (ddi : Nat)
  deriving DecidableEq, Repr

/-- What a CAN controller comes to on its way to bus-off (R416, R430): error-passive, back to error-active, bus-off; or a frame received
that it cannot keep. -/
inductive CanState where
  | passive | active | busOff | overrun
  deriving DecidableEq, Repr

/-- An event of a CAN controller, and when. -/
structure CanEvent where
  at_ : IT
  is_ : CanState
  deriving DecidableEq, Repr

/-- A message of the ISO 11783 transport protocols to the module (R423): a partner opens a connection for a message of a size and
PGN, announces one to all (BAM), sends the next bytes of one, is clear to take the module's own message, acknowledges it, or aborts. -/
inductive TpMsg where
  | rts (size pgn : Nat)
  | bam (size pgn : Nat)
  | data (n : Nat)
  | cts
  | ack
  | abort
  deriving DecidableEq, Repr

/-- What a task controller announces (R425), and transport messages from a partner's address (R423). -/
inductive TcStatus where
  | status (number : Nat)
  | version (number : Nat) (version : Nat)
  | poolStored
  | poolActivated
  | poolDeactivated
  | transport (partner : Nat) (m : TpMsg)
  deriving DecidableEq, Repr

/-- A loss of logic supply (R465): its instant, the tile whose write-back it finds begun (R164), and whether the always-on SRAM
keeps its content, as in a reset without SHUTDOWN that spares it (R38). -/
structure CollapseIn where
  at_  : IT
  torn : Option (Int × Int)
  sram : Bool
  deriving DecidableEq, Repr

/-- An over-current trip (R234, R235): the instant at which the switch opens, the current in mA that it crossed, and the instant
at which the channel's low-side switch was last switched on, at the pull-in start or in chopping. -/
structure TripIn where
  at_  : IT
  ma   : Nat
  onAt : IT
  deriving DecidableEq, Repr

/-- A rise of an index line: when, for how many ns the line was low before, and for how many it then stays high (R59, R64). -/
structure IndexIn where
  at_  : IT
  low  : Nat
  held : Nat
  deriving DecidableEq, Repr

/-- What the three lines of a Hall set change to, and for how many ns each of them holds its level from then on (R59, R74). -/
structure HallIn where
  code : BitVec 3
  held : Vector Nat 3
  deriving DecidableEq, Repr

/-- Why the management cores stop (R461). -/
inductive StopCause where
  | warmReset | imageSwitch
  deriving DecidableEq, Repr

/-- A frame as a Pagrim network delivers it (R398, R413, R417, R418): on CAN whether its identifier has 29 bits and its format is
FD, and its data field; on ETH the whole Ethernet frame from its destination address on. -/
inductive RxFrame where
  | can (ext fd : Bool) (data : Bytes)
  | eth (frame : Bytes)
  deriving DecidableEq, Repr

/-- The four engines of the image slots (R489 heading Image slots). -/
abbrev Engine := Fin 4

/-- What a Carding slice meets in its region (R500, R504): the response words in the order of application, the number
of patterns applied, and a failing row if the patterns found one. -/
structure SliceIn where
  responses : List (BitVec 32)
  patterns  : Nat
  badRow    : Option Nat
  deriving DecidableEq, Repr

/-- The commands of the SG128, one constructor per row of the opcode table. -/
inductive Instr where
  -- power, clocks and device states
  | powerOn (b : BootIn)
  | ignOn (t : IT) (b : BootIn)
  | ignOff (t : IT)
  | canAWake (b : BootIn)
  | wakeHoldExpiry
  | kaCollapse (x : CollapseIn)
  | bootComplete (t : IT)
  | crystalStartTimeout (t : IT)
  | crystalFailure (t : IT)
  | shutdownComplete (t : IT) (aon : Nat)
  | shutdownOvertime (t : IT) (aon : Nat)
  | cmdRun (r : Req)
  | cmdBare (r : Req)
  | cmdSafe (r : Req)
  | cmdReady (r : Req)
  | cmdService (r : Req)
  | stateCommandEffect
  -- the frame
  | frameBoundary (f : FrameIn)
  | frameOverrun
  | dieTimeStrobe (devPs : Vector Int 4)
  -- nozzle drive banks
  | pullInStart (n : Fin 128) (railMv supplyMv : Nat)
  | peakReached (n : Fin 128) (t : IT)
  | pullInWindowEnd (n : Fin 128) (endMa : Nat)
  | closingCommand (n : Fin 128)
  | decayEnd (n : Fin 128) (t : IT)
  | kinkWindowOpen (n : Fin 128)
  | kinkFound (n : Fin 128) (samples : List Int)
  | kinkWindowClose (n : Fin 128)
  | channelOverCurrent (n : Fin 128) (x : TripIn)
  | bankOverCurrent (b : Fin 16) (x : TripIn)
  | bankRetryExpiry (b : Fin 16)
  | channelStuckOn (n : Fin 128)
  | bankSwitchFault (b : Fin 16) (t : IT)
  | edgeWordError (d : Fin 4) (c : EdgeCause) (t : IT)
  | dieRestartDone (d : Fin 4) (t : IT)
  | clearChannelLatch (r : Req) (n : Fin 128)
  | clearBankLatch (r : Req) (b : Fin 16)
  -- Bobbin
  | railHigh (t : IT)
  | railHighClear (t : IT)
  | railFault (c : RailCause) (t : IT)
  | supplyHigh (t : IT)
  | prechargeComplete (t : IT) (chargeUc gainedMv : Nat)
  | railDischarged (t : IT)
  -- Whorl and Flyer
  | loopStep (w : Fin 8) (x : LoopIn)
  | loopModeCommand (r : Req) (w : Fin 8) (mode : Byte)
  | regionTableWrite (r : Req) (w j : Fin 8) (v : Bytes)
  | coefficientPatch (r : Req) (w j : Fin 8) (v : Bytes)
  | commitLoop (r : Req) (w : Fin 8)
  | spinnerTransfer (k : Fin 16) (x : StageIn)
  -- bridges and ports
  | valveDriveStart (h : Fin 4)
  | endOfTravel (h : Fin 4) (x : TravelIn)
  | travelTimeout (h : Fin 4)
  | valveDriveRetry (h : Fin 4)
  | motorStall (g : Fin 2) (t : IT)
  | outputTrip (o : Fin 6) (k : TripKind) (t : IT)
  | outputRetryExpiry (o : Fin 6)
  | clearOutputLatch (r : Req) (o : Fin 6)
  -- load switches
  | loadSwitchCommand (r : Req) (j : Fin 16) (v : Byte)
  | loadTrip (j : Fin 16) (k : LoadTripKind) (t : IT) (clampMj : Nat)
  | loadRestart (j : Fin 16) (t : IT) (junction : Int)
  | loadCounterReset (j : Fin 16)
  | loadShedRetry (j : Fin 16)
  | clearLoadLatches (r : Req) (j : Fin 16) (v : Byte)
  | openLoad (j : Fin 16) (t : IT)
  -- supply and thermal
  | budgetOverrun
  | supplyFault (x : SupplySubject) (c : SupplyCause) (value : Nat) (t : IT)
  | sensorSupplyOverload (i : Fin 2) (t : IT)
  | sensorSupplyRetry (i : Fin 2)
  | throttleHoldExpiry (d : Fin 6)
  | sensorUnavailableExpiry (d : Fin 4)
  -- motion inputs
  | pulseEdge (i : Fin 8) (t : IT) (level both : Bool) (held : Nat)
  | indexEdge (p : Fin 2) (x : IndexIn)
  | pulseStopTimeout (x : SpeedInput)
  | hallEdge (h : Fin 2) (t : IT) (x : HallIn)
  | resetUncertainty (r : Req) (i : Fin 8)
  | setCount (r : Req) (i : Fin 8) (v : Bytes)
  | nmeaSentence (u : Fin 2) (t : IT) (text : Bytes)
  | ppsEdge (t : IT)
  | canAMotionMessage (t : IT) (pgn src : Nat) (data : Bytes)
  | inertialSampleLate
  | standstillBias (t : IT)
  | biasStale (t : IT)
  -- Roving, Spindle
  | positionLossHoldExpiry
  | foldStateWrite (r : Req) (v : Byte)
  | externalTimeout
  -- Distaff
  | hankCreate (r : Req) (body : Bytes)
  | hankOpen (r : Req) (body : Bytes)
  | hankClose (r : Req) (body : Bytes)
  | hankDelete (r : Req) (body : Bytes)
  | closeSequenceDone (t : IT)
  | hankDeleteDone (slot : Fin 16) (t : IT)
  | tileStream (r : Req) (v : Bytes)
  | tileFillDone (col row : Int) (t : IT) (corrected : Nat) (crcOk : Bool)
  | tileWriteBack (col row : Int) (t : IT)
  | tileExportRead (r : Req)
  -- dictionary and Pagrim
  | parameterRead (r : Req) (idx sub : Nat)
  | parameterWrite (r : Req) (idx sub : Nat) (v : Bytes)
  | blockWriteSegment (r : Req) (idx sub off total : Nat) (data : Bytes)
  | blockWriteTimeout (sid : SessionId)
  | blockRead (r : Req) (idx sub off : Nat)
  | blockReadSnapshotExpiry (sid : SessionId)
  | commit (r : Req) (payload : Bytes)
  | commitBoundary
  | discardStaged (r : Req)
  | configurationImage (r : Req) (v : Bytes)
  | digestRecheck (t : IT) (found : Bytes)
  | descriptionBlockRead (r : Req)
  | pagrimFrameDiscard (net : Net) (f : RxFrame)
  | hostHeartbeat (sid : SessionId) (payload : Bytes) (t : IT)
  | deviceHeartbeat (net : Option Net) (t : IT)
  | sessionTimeout (sid : SessionId)
  | hostLoss
  | timeService (r : Req) (payload : Bytes)
  | challengeRead (r : Req)
  | responseWrite (r : Req) (v : Bytes)
  | relock (r : Req)
  | raisedLevelTimeout
  | challengeLockoutEnd
  -- networks
  | canBusOff (c : Fin 3) (x : CanEvent)
  | ethLinkUp (t : IT)
  | arpRequest (t : IT) (senderIp senderMac targetIp : Nat)
  | icmpEcho (t : IT) (srcIp dstIp : Nat) (data : Bytes)
  | gptpMessage (t : IT) (m : GptpMsg)
  | wallSourceTimeout (w : WallSource)
  | addressClaim (t : IT) (e : ClaimEvent)
  | addressRetry (t : IT)
  | tcMessage (t : IT) (m : TcMsg)
  | tcDisconnect (t : IT)
  | hitchPtoMessage (t : IT) (i : Fin 4) (data : Vector Byte 8)
  -- Skein
  | recordIngest
  | heldRecordRelease (src : Fin 16)
  | limitedSecondEnd
  | lossRecord
  | recordWrite
  | logRowFailure (t : IT) (row : Nat)
  | alarmWindowEnd (code : Nat)
  | exportBlockRead (r : Req) (b : Bool)
  | clearLastWord (r : Req)
  | epochCopyWrite (t : IT)
  | timeMark
  -- supervisor
  | faultDetected (t : IT) (ext : Option (Nat × Nat))
  | clearFaults (r : Req)
  | coresStop (t : IT) (c : StopCause)
  | coresReturn (t : IT)
  | coastWindowExpiry
  -- Carding, life-cycle, images
  | cardingSlice (t : IT) (x : SliceIn)
  | cardingRunAll (r : Req)
  | cardingRunCore (r : Req)
  | cardingRunRange (r : Req)
  | cardingStop (r : Req)
  | burnRepairs (r : Req)
  | lifecycleCommand (r : Req) (v : Bytes)
  | protectedKeyWrite (r : Req) (v : Bytes)
  | imageOpen (r : Req) (engine len : Nat)
  | imageChunk (r : Req) (v : Bytes)
  | imageVerify (r : Req) (engine : Nat)
  | imageSwitch (r : Req) (engine : Nat)
  | imageSwitchBoundary (dieReady : Vector Bool 4)
  | imageConfirm (r : Req)
  | imageAbandon (r : Req) (engine : Nat)
  -- rows the table adds at its end
  | barePullInRetry (n : Fin 128)
  | supplyHighClear (t : IT)
  | ethLinkDown (t : IT)
  | arpCacheExpiry (ip : Nat)
  | busOffRecovery (c : Fin 3) (t : IT)
  | taskControllerStatus (t : IT) (m : TcStatus)
  | timeIntervalTrigger (ddi : Nat) (t : IT)
  | peerDelayRequest (t : IT)
  deriving DecidableEq, Repr

end Sys2Proof
end

