-- ==== Sys2Proof/Decode.lean ====
section
/-! DEFINITION. The commands as table words. The opcode table gives none of its 168 rows any bits (every row's fields are
empty), so no word spells a command. -/

namespace Sys2Proof

/-- The command a word of `nbits` bits spells by the table's bits: none, since no row has bits (Assumption 2). -/
def decodeTableWord (_nbits _w : Nat) : Option Instr := none

end Sys2Proof
end

