-- ==== Sys2Proof/Config.lean ====
section
/-! DEFINITION. The free values of the model: what the manual leaves open and the machine nevertheless produces.
They have no body, so no proof and no evaluation can see a value of them. -/

namespace Sys2Proof.Config

/-- The stream of free values. The machine draws element `k` at its `k`-th open choice (State.freeCtr counts
the draws); nothing constrains any element. Assumption 4. -/
opaque free : Nat → Nat

/-- The factory values of the module (R2: "A host must not assume any identity value"): the serial number. Assumption 5. -/
opaque serialNumber : Nat

/-- The serial number's bytes as the identity range reports them and as they enter a signed message (R2, R421, R486); the
manual gives neither their number nor their order. Assumption 5. -/
opaque serialBytes : List (BitVec 8)

/-- The hardware MAC address of the ETH port, P 0x1220.09, a factory value of 48 bits. Assumption 5. -/
opaque macAddress : Nat

/-- The offset in z (DDI 136) of a section in the device description, in mm (R425): R101 derives x and y alone; of the section's
number. Assumption 120. -/
opaque sectionHeight : Nat → Int

/-- The manufacturer code registered for Tasalen, used in the ISO 11783 NAME (R422); the manual gives no number. Assumption 5. -/
opaque manufacturerCode : Nat

/-- The expected 32-bit signature and the full pattern count of a Carding slice (R504: "fixed by the slice's
descriptor in the Carding engine"); the manual gives neither. Assumption 6. -/
opaque cardingExpected : Nat → Nat
/-- The full pattern count of a Carding slice; see `cardingExpected`. Assumption 6. -/
opaque cardingPatterns : Nat → Nat

/-- The IMAGE public key (R488: fused at die test), x and y; the manual gives no number. Assumption 5. -/
opaque imageKeyX : Nat
/-- See `imageKeyX`. Assumption 5. -/
opaque imageKeyY : Nat
/-- The SERVICE public key (R488: fused in MANUFACTURE), x and y. Assumption 5. -/
opaque serviceKeyX : Nat
/-- See `serviceKeyX`. Assumption 5. -/
opaque serviceKeyY : Nat

/-- The cell that the rate computer finds where the tile under a footprint centre is not resident (R185 names resident and
not allocated tiles only); of the cell's coordinates. Assumption 88. -/
opaque missingCell : Int → Int → BitVec 8

/-- The required spray duty, in 10^-18, of a nozzle whose reference flow is 0 (R187 divides by it); of the nozzle's number.
Assumption 88. -/
opaque dutyWithoutFlow : Nat → Nat

/-- What the header of an engine's factory image holds beside its format and its engine (R490): of the engine and of the field, 0 the
security version, 1 the version, 2 the state format, 3 the body length but 1, 4 the body hash, 5 the signature. Assumption 7. -/
opaque factoryField : Nat → Nat → Nat

/-- The process noise of Roving's gyro bias per frame while R87's estimate is VALID (R104); the manual gives no number.
Assumption 112. -/
opaque biasNoise : Nat

/-- The part of a heading innovation that Roving's gyro bias takes over at a bias variance, and what it leaves of that variance
(R104). Assumption 112. -/
opaque biasPart : Nat → Int → Int
/-- See `biasPart`. Assumption 112. -/
opaque biasLeft : Nat → Nat

/-- The duty word that the inner current loop of a bridge sets (R307: its gains follow from resistance, inductance and bandwidth);
of a draw, the current aimed at, the parameters P 0x3500+h.09 to .0B, the period and the current measured. The manual gives no
control law. Assumption 4. -/
opaque currentDuty : Nat → Int → Nat → Nat → Nat → Nat → Int → Nat

end Sys2Proof.Config
end

