-- ==== Sys2Proof/Machine/State.lean ====
section
/-! DEFINITION. The state of the SG128 as plain data: everything the manual gives the module, group by group, and the
module right after reset. Counts, times and unsigned quantities are Nat, signed quantities Int, words that the manual
numbers bit by bit are bit vectors. The parameters a host writes live in one store (Dict), as their little-endian bytes;
a parameter not listed there holds its default (Sys2Proof/Machine/Table.lean). -/

namespace Sys2Proof.Machine

/-- No event of the manual stops the module outside its own device states, so the model never faults; the one
constructor exists because an outcome needs the type. Raised by nobody; safe. -/
inductive Fault where
  /-- Never raised. Safe: nothing is claimed of it. -/
  | unused
  deriving DecidableEq, Repr

/-- Why a command has no outcome. -/
inductive Refusal where
  /-- Raised by exec for a command that has no meaning yet, by its mnemonic. Safe: a refusal proves nothing. -/
  | notModelled (mnemonic : String)
  deriving DecidableEq, Repr

/-- The device states of R474, with the state "No supply" of its table. -/
inductive DevState where
  | noSupply | standby | boot | unconfigured | ready | run | bare | safe | shutdown | service
  deriving DecidableEq, Repr

/-! ### Records and faults on their way -/

/-- A record as its source hands it to Skein: the fields of R433 that the source fills. -/
structure Rec where
  code : Nat
  it   : IT
  boot : Nat
  subj : Nat
  det  : Bytes
  deriving DecidableEq, Repr

/-- A fault that a detecting rule has reported to the supervisor and that R455 has not yet handled, with the device state and the
response at its detection (R458, R471). -/
structure Report where
  code : Nat
  it   : IT
  subj : Nat
  det  : Bytes
  dev  : Nat
  resp : Nat
  deriving DecidableEq, Repr

/-! ### Time (R33 to R50) -/

/-- One of the two alternating epoch copies (R37): IT, boot number and whether its CRC-32 checks. -/
structure EpochCopy where
  it    : IT
  boot  : Nat
  valid : Bool
  deriving DecidableEq, Repr

/-- The final epoch copy (R37): IT, boot number, latched AON count, wall-time offset, whether wall time was set. -/
structure FinalCopy where
  it      : IT
  boot    : Nat
  aon     : Nat
  offset  : Int
  wallSet : Bool
  valid   : Bool
  deriving DecidableEq, Repr

/-- The Izcel time base and wall time. `copies` and `final` are the epoch region of R37, `next` the copy written next;
`frame` is the last frame boundary processed, `mark` the last whole multiple of 60 s that had its TIME-MARK;
`edges`
holds the accepted PPS edges and the UTC seconds they mark (R46, R81), `utc` the UTC time last named with its date;
`discA` and `discB` are the two copies of the lifetime discontinuity count (R39), none where the copy fails its CRC-32. -/
structure TimeBase where
  boot     : Nat
  copyA    : EpochCopy
  copyB    : EpochCopy
  nextB    : Bool
  final    : FinalCopy
  discA    : Option Nat
  discB    : Option Nat
  aon      : Nat
  marker   : Bool
  offset   : Int
  slewRest : Int
  slewAt   : IT
  wallSet  : Bool
  selected : Option WallSource
  steps    : Nat
  ppsLast  : IT
  ppsSeen  : Bool
  ppsPend  : Option IT
  ppsBad   : Nat
  named    : Option (IT × Nat)
  deviation : Int
  refPair  : Option (IT × Nat)
  hostOk   : Bool
  lastGnss : Option IT
  lastPps  : Option IT
  lastGptp : Option IT
  rc       : Bool
  strobeOk : Vector Bool 4
  frame    : IT
  mark     : IT
  edges    : List (IT × Nat)
  utc      : Option Nat
  deriving DecidableEq, Repr

/-! ### Power, clocks, device state (R12 to R15, R338, R474 to R484) -/

/-- A state command accepted and waiting for its boundary (R475). -/
structure StateCmd where
  target   : Nat
  boundary : IT
  deriving DecidableEq, Repr

/-- The state machine and the clock domains of R12 that start and stop. `wakeAgain` holds what the wake that follows an
IGN on during SHUTDOWN meets (R481). -/
structure Power where
  dev       : DevState
  entered   : IT
  ign       : Bool
  wakeSrc   : Nat
  wakeHold  : Option IT
  stage     : Nat
  downAt    : IT
  downRes   : Nat
  wakeAgain : Option BootIn
  cmd       : Option StateCmd
  cmdResult : Nat
  geo       : Bool
  geoFlush  : Bool
  ctl       : Bool
  eth       : Bool
  listening : Bool
  crystalOk : Bool
  supplyLow : Vector Bool 4
  deriving DecidableEq, Repr

/-! ### Skein (R433 to R450) -/

/-- A listed value of a snapshot set (R444): none for a value of the management cores, read when the parent is written. -/
structure SnapVal where
  idx : Nat
  sub : Nat
  val : Option Bytes
  deriving DecidableEq, Repr

/-- A triggered snapshot set (R444): how many of its SNAPSHOT records the queue took, and its listed values. -/
structure SnapSet where
  taken : Nat
  vals  : List SnapVal
  deriving DecidableEq, Repr

/-- An entry of the ingest queue or of a holding slot (R433, R439, R440). `snaps` holds the snapshot sets it triggered; `spare` says
that it stands in one of the entries 8,129 to 8,192. -/
structure Entry where
  r       : Rec
  wall    : Nat
  wallSt  : Nat
  cls     : Nat
  reps    : Nat
  flags   : Nat
  lastRep : Nat
  snaps   : List SnapSet
  spare   : Bool
  deriving DecidableEq, Repr

/-- The count of one privileged code in the running limited second (R441). -/
structure PrivCount where
  code  : Nat
  taken : Nat
  supp  : Nat
  first : IT
  deriving DecidableEq, Repr

/-- An open coalescing window of one alarm code (R445). -/
structure AlarmWin where
  code  : Nat
  ends  : IT
  first : Rec
  cls   : Nat
  count : Nat
  deriving DecidableEq, Repr

/-- The event recorder. `arriving` holds the records written by other steps and not yet ingested, first in first out. -/
structure Skein where
  arriving  : List Rec
  holding   : Vector (Option Entry) 16
  limited   : List PrivCount
  second    : Nat
  queue     : List Entry
  high      : Nat
  lossNow   : Vector Nat 4
  lossFirst : Option (IT × Nat)
  lossTotal : Vector Nat 4
  nextSeq   : Nat
  slotPtr   : Nat
  held      : Nat
  sram      : List (Nat × Bytes)
  sramOnly  : Bool
  relocated : Bool
  remap     : List (Nat × Nat)
  lastWord  : Bytes
  cursorA   : Nat
  cursorB   : Nat
  windows   : List AlarmWin
  counters  : Vector Nat 6
  deriving DecidableEq, Repr

/-! ### Supervisor (R452 to R473) -/

/-- A fault that is active under R458, since the detection that was handled last. -/
structure ActiveFault where
  it   : IT
  code : Nat
  subj : Nat
  resp : Nat
  deriving DecidableEq, Repr

/-- One entry of the fault list P 0x4101.02. -/
structure FaultEntry where
  it     : IT
  code   : Nat
  resp   : Nat
  active : Bool
  cold   : Bool
  subj   : Nat
  deriving DecidableEq, Repr

/-- One cab switch input (R469, R527): accepted state, the last sampled level, for how many samples it has held, and the
polarity bit it was read with. -/
structure Switch where
  on   : Bool
  raw  : Bool
  held : Nat
  pol  : Bool
  deriving DecidableEq, Repr

/-- The bare state P 0x4102.09. -/
inductive BareState where
  | inactive | waiting | armed
  deriving DecidableEq, Repr

/-- A stop of the management cores (R461), with the device state, configuration state and digest that they last wrote for
the heartbeat (R412). -/
structure CoreStop where
  since : IT
  cause : StopCause
  coast : Bool
  dev   : Nat
  cfg   : Nat
  dig   : Bytes
  deriving DecidableEq, Repr

/-- The supervisor: reported and active faults, the cores' stop, the switch inputs, the bare mode. -/
structure Super where
  reported  : List Report
  active    : List ActiveFault
  list      : List FaultEntry
  counts    : Vector Nat 20
  warm      : Nat
  lastStop  : IT
  lastSafe  : IT
  stop      : Option CoreStop
  lockLast  : Option IT
  bare      : BareState
  sawOff    : Bool
  bareNext  : Option Nat
  switches  : Vector Switch 16
  overruns  : Nat
  thermal   : Bool
  hostGone  : Bool
  deriving DecidableEq, Repr

/-! ### The object dictionary (R369 to R397) -/

/-- A stream's running state (R391, R397). -/
structure Stream where
  count   : Nat
  sent    : Nat
  skipped : Nat
  owed    : Bool
  held    : Option (IT × Bool × Bytes)
  deriving DecidableEq, Repr

/-- A COMMIT on its way to its boundary (R381): who asked, the device digest, the boundary. -/
structure CommitWait where
  who      : Option (SessionId × Nat × Nat)
  digest   : Bytes
  boundary : IT
  deriving DecidableEq, Repr

/-- The dictionary. Keys are index × 256 + sub-index. `store` holds the values in the store, `staged` the staged RWS
values, `old` the value still in use of a class F write and the boundary at which it ends (R373). -/
structure Dict where
  store    : List (Nat × Bytes)
  staged   : List (Nat × Bytes)
  old      : List (Nat × Bytes × IT)
  commit   : Option CommitWait
  ever     : Bool
  digest   : Bytes
  lastRes  : Nat
  lastFail : Bytes
  lastAt   : IT
  commits  : Nat
  recheck  : Nat
  storeBad : Bool
  accepted : Nat
  refused  : Nat
  lastRef  : Bytes
  imgRes   : Bytes
  descCur  : Nat
  streams  : Vector Stream 16
  deriving DecidableEq, Repr

/-! ### Pagrim, sessions and the networks (R398 to R432) -/

/-- One request a session has executed (R402): its sequence number, CRC and stored reply. -/
structure Done where
  seq   : Nat
  crc   : Nat
  reply : Bytes
  deriving DecidableEq, Repr

/-- A BLOCK-WRITE in progress (R407): the bytes so far, its segments, those of them not acknowledged. -/
structure BlockWrite where
  idx   : Nat
  sub   : Nat
  total : Nat
  data  : Bytes
  segs  : Nat
  open_ : Nat
  last  : IT
  deriving DecidableEq, Repr

/-- A BLOCK-READ snapshot (R408). -/
structure BlockSnap where
  idx   : Nat
  sub   : Nat
  status : Nat
  data  : Bytes
  last  : IT
  deriving DecidableEq, Repr

/-- A session (R401 to R408). -/
structure Session where
  id    : SessionId
  level : Nat
  beat  : IT
  done  : List Done
  bw    : Option BlockWrite
  bs    : Option BlockSnap
  deriving DecidableEq, Repr

/-- A section element of the device description (R101, R425): offsets in x, y and z (DDIs 134, 135, 136) and the actual working
width (DDI 67), in mm. -/
structure SectionDesc where
  x     : Int
  y     : Int
  z     : Int
  width : Nat
  deriving DecidableEq, Repr

/-- The device description (R425): the structure label; the device element 0, the boom's function element 1 and the section elements
from 2 on, each as (element, parent); the sections in order; the DDIs on the boom; the turn-on and turn-off times in ms. -/
structure PoolDesc where
  label    : Bytes
  elements : List (Nat × Nat)
  sections : List SectionDesc
  boomDdis : List Nat
  onMs     : Nat
  offMs    : Nat
  deriving DecidableEq, Repr

/-- A frame that the module has handed to a network. The list of them is the model's own record of what it sent. -/
inductive Sent where
  /-- A Pagrim reply or an unasked Pagrim frame: network, on ETH the IPv4 address and UDP port it goes to (0 on CAN), on
  CAN the identifier and the data rate of P 0x1210+c.02, every frame in FD format with bit-rate switching (0 and 0 on ETH);
  session, sequence, service byte, index, sub-index, payload; and what stands on the wire: the frame with its CRC-32C, on
  CAN the data field with its padding, on ETH the UDP datagram (R398, R413, R414, R417). -/
  | pagrim (net : Net) (addr port : Nat) (id : BitVec 29) (rate session seq service idx sub : Nat) (payload wire : Bytes)
  /-- A CAN-A message: priority, PGN, source and destination addresses, data. -/
  | canA (prio pgn src dest : Nat) (data : Bytes)
  /-- An ARP reply or gratuitous ARP: hardware and IPv4 addresses of the sender and of the target; a gratuitous one goes to the
  broadcast address. -/
  | arp (reply : Bool) (senderMac senderIp targetMac targetIp : Nat)
  /-- An ICMP echo reply. -/
  | echo (dstIp : Nat) (data : Bytes)
  /-- A gPTP message the follower sends: 0 Pdelay_Req, 1 Pdelay_Resp, 2 Pdelay_Resp_Follow_Up; sequence; time. -/
  | gptp (kind seq : Nat) (ns : Nat)
  /-- What the client announces of itself to the task controller: section control alone, the booms and sections it has at most. -/
  | announce (booms sections : Nat)
  /-- The client's object pool, uploaded by the transport protocols (R425). -/
  | pool (p : PoolDesc)
  deriving DecidableEq, Repr

/-- A CAN network (R413, R416, R430). -/
structure CanNet where
  bus      : Nat
  counters : Vector Nat 4
  deriving DecidableEq, Repr

/-- The Ethernet port (R418, R419, R431). -/
structure Eth where
  up        : Bool
  arp       : List (Nat × Nat × IT)
  counters  : Vector Nat 6
  gptp      : Nat
  gOffset   : Int
  linkDelay : Nat
  utcOff    : Int
  utcOk     : Bool
  syncSeq   : Nat
  syncRx    : Option IT
  reqSeq    : Nat
  reqTx     : IT
  respT2    : Option (Nat × IT)
  deriving DecidableEq, Repr

/-- An incoming connection of the transport protocols (R423): the partner, whether it is a broadcast, the message's PGN and size, the
bytes so far, and when its last message came. -/
structure TpConn where
  partner : Nat
  bam     : Bool
  pgn     : Nat
  size    : Nat
  got     : Nat
  last    : IT
  deriving DecidableEq, Repr

/-- CAN-A: address claim, task controller client, hitch and PTO messages, fast-packet reassembly (R83, R422 to R427). `out` is the
module's own transport connection, with the time of its last message; `desc` the device description of the last commit boundary. -/
structure CanA where
  claimed  : Nat
  trying   : Nat
  tried    : Nat
  noAddr   : Bool
  retryAt  : Option IT
  tcSeen   : Option IT
  tcOn     : Bool
  pool     : Nat
  label    : Bytes
  ignored  : Nat
  section_ : Bool
  triggers : List (Nat × Nat × IT)
  lastSent : List (Nat × IT × BitVec 32)
  onChange : List Nat
  hitch    : Vector (Nat × Vector Byte 8) 4
  fast     : List (Nat × Nat × Nat × Nat × Bytes)
  conns    : List TpConn
  out      : Option (IT × PoolDesc)
  desc     : PoolDesc
  deriving DecidableEq, Repr

/-- Pagrim: sessions, control, challenge-response, heartbeats, frame counters; the networks; the frames sent. -/
structure Nets where
  sessions  : List Session
  ctrl      : Option SessionId
  raisedAt  : IT
  challenge : Option (Bytes × IT)
  badRow    : Nat
  bad       : Nat
  lockUntil : Option IT
  frames    : Vector Nat 8
  beats     : Nat
  beatAt    : Vector (Option IT) 4
  lastEth   : Option SessionId
  can       : Vector CanNet 3
  eth       : Eth
  canA      : CanA
  tx        : List Sent
  deriving DecidableEq, Repr

/-! ### Carding, life-cycle and image slots (R485 to R512) -/

/-- An image slot (R491): its state, and while a load runs its announced and received lengths. -/
structure Slot where
  state   : Nat
  total   : Nat
  got     : Nat
  deriving DecidableEq, Repr

/-- An engine: its two slots, which one runs, the trial boots, and the version words of the image running. The flag
`factory` says that the slot still holds its factory image, whose bytes the manual does not give (Assumption 7). -/
structure EngineSt where
  slotA    : Slot
  slotB    : Slot
  runB     : Bool
  trials   : Nat
  factoryA : Bool
  factoryB : Bool
  deriving DecidableEq, Repr

/-- A SWITCH waiting for its boundary (R496, R497). -/
structure SwitchWait where
  engine   : Nat
  boundary : IT
  tries    : Nat
  deriving DecidableEq, Repr

/-- The last result of a slice (R500, P 0x4201.07) with its signature, 0 for an INCOMPLETE one (R31); `fail` says that a FAIL of it
stands (R509). -/
structure SliceRes where
  slice  : Nat
  result : Nat
  repair : Nat
  boot   : Nat
  fail   : Bool
  sig    : Nat
  deriving DecidableEq, Repr

/-- An entry of the repair table (R506). -/
structure Repair where
  memory : Nat
  fuse   : Bool
  row    : Nat
  spare  : Nat
  boot   : Nat
  deriving DecidableEq, Repr

/-- A copy of the repair table (R506): its age as a count of the writes, its entries, and whether its CRC-32 is right. -/
structure RepairCopy where
  gen     : Nat
  entries : List Repair
  valid   : Bool
  deriving DecidableEq, Repr

/-- A Carding run: at SHUTDOWN or on demand. -/
structure CardRun where
  todo      : List (Nat × Nat)
  current   : Nat
  shutdown  : Bool
  aborting  : Option Nat
  requested : Nat
  run       : Nat
  pass      : Nat
  fail      : Nat
  inc       : Nat
  skipped   : Nat
  log       : Bytes
  budget    : Nat
  deriving DecidableEq, Repr

/-- Carding, the life-cycle unit and the image loader. -/
structure Carding where
  life     : Nat
  pendLife : Nat
  key      : Option (Nat × Nat)
  rollback : Nat
  engines  : Vector EngineSt 4
  cmdRes   : Nat
  cmdEng   : Nat
  cmdSlot  : Nat
  cmdCause : Nat
  cmdGot   : Nat
  cmdAt    : IT
  switch   : Option SwitchWait
  run      : Option CardRun
  lastRun  : Vector Nat 6
  skipped  : Nat
  cursor   : Nat
  resCur   : Nat
  results  : List SliceRes
  repairs  : List Repair
  repA    : RepairCopy
  repB    : RepairCopy
  marker   : Option Nat
  badSpares : List (Nat × Nat)
  retired  : List (Nat × Nat)
  lifeLog  : List (Nat × IT × Nat × Nat)
  deriving DecidableEq, Repr

/-! ### Motion inputs (R54 to R90) -/

/-- A measurement with its validity IT (R54). Sources: 0 UART0, 1 UART1, 2 NMEA 2000, 3 ISO 11783. Latitude and
longitude are in 10^-10 minutes, altitude in mm, course and heading in binary angle, speed in mm/s. -/
inductive Meas where
  | pos (src : Nat) (it : IT) (lat lon : Int) (alt : Option Int) (quality : Nat)
  | cog (src : Nat) (it : IT) (course : Nat) (speed : Int)
  | heading (src : Nat) (it : IT) (angle : Nat)
  | sigma (src : Nat) (it : IT) (lat lon alt : Nat)
  | isoSpeed (it : IT) (speed : Int)
  | wheel (input : Nat) (it : IT) (speed : Int)
  deriving DecidableEq, Repr

/-- A pulse input (R58 to R72). `edges` holds (stamp, count) of the edges in one direction, newest first; `jump` is a
count jump that waits for the next boundary (R71); `lastLine` is the last passed edge of the line (R60), `level` the line's
filtered level, none before its first passed edge (R59). -/
structure Pulse where
  count    : Int
  status   : Nat
  rev      : Bool
  edges    : List (IT × Int)
  last     : IT
  lastLine : Option IT
  level    : Option Bool
  illegal  : Nat
  uncert   : Nat
  glitches : Nat
  overruns : Nat
  limLow   : Bool
  limHigh  : Bool
  overRate : Bool
  idxSeen  : Bool
  jump     : Option Int
  crossed  : Nat
  crossIt  : IT
  crossEnt : Nat
  deriving DecidableEq, Repr

/-- A Hall set (R73 to R76). `code` is its last filtered code since it was enabled; `slowAt` the instant since which its status has
been STOPPED or STARTING, while it is. -/
structure Hall where
  sector  : Nat
  status  : Nat
  rev     : Bool
  count   : Int
  edges   : List IT
  last    : IT
  illegal : Nat
  invalid : Nat
  badCode : Bool
  slowAt  : IT
  code    : Option (BitVec 3)
  deriving DecidableEq, Repr

/-- A GNSS UART (R77 to R82). `gga` is the last GGA (completion, quality), `stamp` the last GGA or RMC (completion,
validity IT). -/
structure Uart where
  accepted : Nat
  csFail   : Nat
  other    : Nat
  quality  : Nat
  valid    : IT
  lat      : Int
  lon      : Int
  basis    : Nat
  gga      : Option (IT × Nat)
  stamp    : Option (IT × IT)
  deriving DecidableEq, Repr

/-- What the measurement set keeps of a pulse input or Hall set (R55): count, speed, status, last edge. -/
structure CountMeas where
  count  : Int
  speed  : Int
  status : Nat
  last   : IT
  deriving DecidableEq, Repr

/-- The inertial sensor (R85 to R89). `still` is the start of the present standstill, `sum` and `n` the gyro sums over
it, `stillAt` the last boundary at which one held, `window` the raw accelerations of the last 500 ms and the one before them,
newest first, `it` the validity IT
of the published sample (R85). -/
structure Inertial where
  bias    : Vector Int 3
  status  : Nat
  estIt   : Option IT
  estTemp : Int
  still   : Option IT
  stillAt : IT
  sum     : Vector Int 3
  n       : Nat
  window  : List (IT × Vector Int 3)
  lastRaw : Option (Vector Int 3 × Vector Int 3)
  same    : Nat
  clean   : Nat
  faults  : Nat
  clamped : Bool
  hard    : Bool
  soft    : Bool
  temp    : Int
  gyro    : Vector Int 3
  accel   : Vector Int 3
  fresh   : Bool
  it      : IT
  deriving DecidableEq, Repr

/-- The motion input unit. `gather` collects the measurements since the last boundary, `set` is the closed set. -/
structure Motion where
  pulses  : Vector Pulse 8
  halls   : Vector Hall 2
  uarts   : Vector Uart 2
  n2kOk   : Nat
  isoOk   : Nat
  isoRev  : Bool
  isoSpeed : Option (IT × Int)
  sog      : Vector (Option (IT × Int)) 3
  n2kQual : List (Nat × IT × Nat)
  gather  : List Meas
  set     : List Meas
  setP    : Vector CountMeas 8
  setH    : Vector CountMeas 2
  inert   : Inertial
  deriving DecidableEq, Repr

/-! ### Nozzle drive banks (R210 to R247) -/

/-- An edge handed over to a drive die (R132, R139): open or close, its stamped IT, the granted percentage of the peak
(100, or p of a LIMITED outcome), and for a closing the closing delay that Spindle held when it was fixed (R226). -/
structure DieEdge where
  opens : Bool
  it    : IT
  pct   : Nat
  c     : Nat
  deriving DecidableEq, Repr

/-- The pull-in a channel is making, or made last (R214). `full` is the configured peak and `pct` the granted share of it;
`full`, `dwell`, `guard`, `hold` and `chop` are the class F values taken at its start (R243). `model` is the instant of the
opening modelled for it (R217), `opened` the opening for marking once known (R221), `atSrc` whether the common stood at the
pull-in source (R222). -/
structure PullIn where
  start   : IT
  ends    : IT
  full    : Nat
  pct     : Nat
  dwell   : Nat
  guard   : Nat
  hold    : Nat
  chop    : Nat
  reach   : Option IT
  tPred   : Nat
  model   : IT
  atSrc   : Bool
  opened  : Option IT
  deriving DecidableEq, Repr

/-- A closing on its way (R216): its command, the closing delay held for it, the end of its decay, its kink window and how
it counts. -/
structure Closing where
  cmd     : IT
  c       : Nat
  held    : Nat
  decayed : Option IT
  opensAt : IT
  endsAt  : IT
  window  : Bool
  convOn  : Bool
  clamped : Bool
  learn   : Bool
  kink    : Option IT
  deriving DecidableEq, Repr

/-- A nozzle channel. `state` is 0 OFF, 1 PULL-IN, 2 HOLD, 3 DECAY; the latches stand beside it. `closings` are those whose
kink window has not ended, oldest first; `sample` the learnable samples with the instants their converters are released
(R216 step 4). Temperatures are in 10^-9 °C, the rise factor g in 10^-9, delays in ns. -/
structure Channel where
  state    : Nat
  pull     : PullIn
  closings : List Closing
  edges    : List DieEdge
  c        : Nat
  s        : Nat
  accepted : Bool
  rejects  : List Nat
  sample   : List (IT × Nat)
  g        : Nat
  decays   : List Nat
  misses   : Nat
  tw       : Int
  tb       : Int
  twCopy   : Int
  tbCopy   : Int
  warn     : Bool
  cap      : Bool
  tripped  : Bool
  ocCount  : Nat
  ocLatch  : Bool
  stuck    : Bool
  peakShort : Bool
  kinkMiss : Bool
  lastClamp : Bool
  lastUnobs : Bool
  lastKink : IT
  counters : Vector Nat 10
  opening  : Nat
  pullTime : Nat
  recovery : Nat
  lastUj   : Option Nat
  dieClosed : Option IT
  lastCmd  : Option IT
  retryAt  : Option IT
  deriving DecidableEq, Repr

/-- A reserved pull-in window of a bank slot table (R136). -/
structure SlotRes where
  ch    : Nat
  start : IT
  ends  : IT
  deriving DecidableEq, Repr

/-- A bank (R211, R235 to R237). `common` is 0 OPEN, 1 SUPPLY, 2 BOOST; `freeAt` is when its switch became available last. -/
structure Bank where
  common   : Nat
  tripTill : Option IT
  trips    : List IT
  ocLatch  : Bool
  stuck    : Bool
  swFault  : Bool
  freeAt   : IT
  limit    : Nat
  current  : Nat
  slots    : List SlotRes
  counters : Vector Nat 4
  deriving DecidableEq, Repr

/-- A drive die (R240, R247).  -/
structure Die where
  state   : Nat
  peak    : Nat
  taken   : Nat
  unobs   : Nat
  resets  : Nat
  last    : IT
  cause   : Nat
  recent  : List IT
  deriving DecidableEq, Repr

/-! ### Bobbin (R248 to R258) -/

/-- Bobbin. `target` is the slewed set point (R249), `ret` whether the converter returns energy while regulating (R248), `gave` whether it
returned from the last boundary on,
`limit` the input limit in force (R254), `capUf` the latest measured capacitance. -/
structure Bobbin where
  state    : Nat
  railHigh : Bool
  supHigh  : Bool
  mismatch : Bool
  limited  : Bool
  cause    : Nat
  capUf    : Option Nat
  energy   : Vector Nat 4
  headroom : Nat
  rail     : Nat
  inMa     : Int
  supply   : Nat
  target   : Nat
  ret      : Bool
  gave     : Bool
  limit    : Nat
  rate     : Nat
  atIt     : IT
  discharging : Bool
  deriving DecidableEq, Repr

/-! ### Whorl (R259 to R287) -/

/-- A blend in progress (R278): its start and the output it left. -/
structure Blend where
  start : IT
  out   : Vector F32 4
  deriving DecidableEq, Repr

/-- A loop. Coefficients are kept sparsely under region × 200 + offset, an absent one being 0 (its default). -/
structure Loop where
  state   : Nat
  mode    : Nat
  auto2   : Bool
  region  : Nat
  xc      : Vector F32 8
  xp      : Vector F32 8
  z       : Vector F32 4
  rl      : Vector F32 2
  vr      : Vector F32 2
  lag     : Vector F32 2
  granted : Vector F32 2
  inForce : F32
  coming  : List (IT × F32)
  meas    : Vector F32 4
  filt    : Vector F32 4
  okMeas  : Vector Bool 4
  rejects : Vector Nat 4
  lastRej : Vector Bool 4
  out     : Vector F32 4
  limits  : Vector F32 8
  limNext : List (IT × Vector F32 8)
  blend   : Option Blend
  handOver : Bool
  leaving : Bool
  setLim  : Bool
  clamped : Bool
  held    : Bool
  inRej   : Bool
  mixed   : Bool
  shed    : Vector Bool 4
  waitTill : Vector (Option IT) 4
  episode : Bool
  table   : List (Nat × F32)
  staged  : List (Nat × F32)
  live    : List (List (Nat × F32))
  commit  : Bool
  posted  : Vector F32 2
  postNext : Option (IT × Vector F32 2)
  request : F32
  grantFor : F32
  reqNext : Option (IT × F32)
  last    : IT
  cost    : Nat
  counters : Vector Nat 8
  deriving DecidableEq, Repr

/-- The Whorl engine. -/
structure Whorl where
  loops : Vector Loop 8
  shunt : Vector (Option IT) 12
  late  : Nat
  load  : Nat
  deriving DecidableEq, Repr

/-! ### Flyer (R288 to R304) -/

/-- The values of a spinner's shadow set or set in use (R299): duty word, period, dead time and minimum pulse in
ticks, minimum-pulse rule (true STRETCH). -/
structure SpinSet where
  duty   : Nat
  period : Nat
  dead   : Nat
  minp   : Nat
  stretch : Bool
  deriving DecidableEq, Repr

/-- An edge of a spinner's high or low side, on or off, in phase steps of 1/8 tick since Izcel tick 0 (R296). -/
structure SideEdge where
  at_  : Nat
  high : Bool
  on   : Bool
  deriving DecidableEq, Repr

/-- A spinner. `lead` is the period of its leader that a follower's running period belongs to; `edges` are those of the
running period, `hiOn` and `loOn` the sides as it leaves them (R296, R297); `gated` says that the device state lets no signal act,
and `stretchLast` and `dropLast` stand for the period before (R302, R304). `start` and `ends` are the ticks at which the running period starts and ends; `late` holds a set whose write came at or after the transfer's sampling tick (R300). -/
structure Spinner where
  cur     : SpinSet
  shadow  : SpinSet
  late    : Option SpinSet
  lateFlag : Bool
  fresh   : Bool
  start   : Nat
  ends    : Nat
  anchor  : Option Nat
  lead    : Nat
  edges   : List SideEdge
  hiOn    : Bool
  loOn    : Bool
  m       : Nat
  taken   : IT
  high    : Nat
  low     : Nat
  fullOn  : Bool
  fullOff : Bool
  stretching : Bool
  dropping : Bool
  stretchLast : Bool
  dropLast : Bool
  gated   : Bool
  live    : Bool
  counters : Vector Nat 5
  deriving DecidableEq, Repr

/-! ### Motor bridges and gate drivers (R305 to R320) -/

/-- An H-bridge. `state` is the code of P 0x3500+h.18 without trips; `valve` the code of .1A; `drive` the running
valve drive: opening, its start, its duty in 0.01 %; `edges` the edges Spindle handed over. `turning` is 1 while a new
direction waits for its full-off period and 2 in it (R306); `cmdAt` the instant at which the command last changed; `aim` the current
that the inner loop has set the next duty word for, command and ripple, `aimLast` that of the running period, `cut` whether the
1 s mean limit cuts the duty word; `rippleN` the periods since the ripple turned (R307); `again` the drive that a trip has kept off, opening or closing, and
whether its spray is marked already (R316). -/
structure Bridge where
  state    : Nat
  current  : Int
  valve    : Nat
  overload : Bool
  notReach : Bool
  timeout  : Bool
  endTrav  : Bool
  cmd      : F32
  sign     : Bool
  turning  : Nat
  drive    : Option (Bool × IT × Nat)
  asked    : Option (IT × IT)
  edges    : List DieEdge
  hist     : List (IT × Int)
  fullSince : Option IT
  rippleUp : Bool
  rippleN  : Nat
  aim      : Int
  aimLast  : Int
  cmdAt    : IT
  cut      : Bool
  trips    : List IT
  tripTill : Option IT
  latch    : Bool
  counters : Vector Nat 4
  again    : Option (Bool × Bool)
  shedNote : Option IT
  deriving DecidableEq, Repr

/-- A gate-driver port. `phases` is (switched, low) with 0 U, 1 V, 2 W; `stallAt` is since when the command exceeds
the stall share. -/
structure Port where
  driving  : Bool
  link     : Int
  phases   : Option (Nat × Nat)
  hallBad  : Bool
  stall    : Bool
  stallAt  : Option IT
  gateLow  : Bool
  cmd      : F32
  trips    : List IT
  tripTill : Option IT
  latch    : Bool
  counters : Vector Nat 4
  deriving DecidableEq, Repr

/-! ### Load switches (R321 to R335) -/

/-- A load switch. `pct` is the granted percentage (R326), `resv` the reservation in nJ. -/
structure Load where
  on       : Bool
  locked   : Bool
  shed     : Bool
  waitTill : Option IT
  pct      : Nat
  tripAt   : Option IT
  retries  : Nat
  therm    : Bool
  retryL   : Bool
  exceeded : Bool
  measured : Option Nat
  resv     : Nat
  openLoad : Bool
  limiting : Bool
  current  : Nat
  junction : Int
  onSince  : IT
  lowAt    : Option IT
  held     : Bool
  counters : Vector Nat 5
  deriving DecidableEq, Repr

/-- The sixteen switches and the clamp reservoir (R324): `avail` in nJ as of `at_`, refilled by 5 nJ per ns. -/
structure Loads where
  sw    : Vector Load 16
  avail : Nat
  at_   : IT
  locks : Nat
  deriving DecidableEq, Repr

/-! ### Power entry and the supply current budget (R336 to R353) -/

/-- An open reservation (R343): requester number, its input (0 PWR-A, 1 PWR-B, 2 none), its current, the IT at which
it closes, and whether it is a SUPPLY pull-in, which closes when its channel reaches HOLD. -/
structure Resv where
  who   : Nat
  input : Nat
  ma    : Int
  till  : IT
  pull  : Bool
  deriving DecidableEq, Repr

/-- What the budget reports between two boundaries (R353): committed demand, headroom, flags, outcome counters and last
refusals as they stood at the last boundary. -/
structure BudgetView where
  commit   : Nat
  room     : Int
  flags    : Nat
  counters : Vector Nat 16
  lastRef  : Vector (IT × Nat × Nat) 4
  deriving DecidableEq, Repr

/-- The arbiter and the supply monitor. `back` is the current Bobbin returned, which no requester is credited with
(R253). `pending` holds the energy (µJ) and start of each granted BOOST pull-in. -/
structure Budget where
  measA    : Nat
  measB    : Nat
  back     : Nat
  shared   : Nat
  resvs    : List Resv
  pending  : List (IT × Nat)
  allot    : Nat
  isOver   : Bool
  overAt   : Option IT
  okAt     : Option IT
  shedC2   : Bool
  counters : Vector Nat 16
  lastRef  : Vector (IT × Nat × Nat) 4
  volts    : Vector Nat 3
  svMa     : Vector Nat 2
  svOff    : Vector (Option IT) 2
  shown    : BudgetView
  deriving DecidableEq, Repr

/-! ### Thermal manager (R354 to R368) -/

/-- What P 0x1501 shows: the values of the last sample (R368). -/
structure ThermalView where
  value    : Vector Int 12
  status   : Vector Nat 12
  level    : Vector Nat 6
  most     : Int
  hottest  : Nat
  maxima   : Vector Int 6
  flags    : Nat
  latchBy  : Nat
  counters : Vector Nat 6
  holdEnd  : IT
  deriving DecidableEq, Repr

/-- The thermal manager. `owed` marks a failed sensor whose first substitution begins a hold (R358). Status codes as P 0x1501.02; `acting` is the level that acts, `notices` the level changes on
their way (die, level, boundary); `unavail` is when a drive die's sensors became UNAVAILABLE. -/
structure Thermal where
  value    : Vector Int 12
  status   : Vector Nat 12
  lastOk   : Vector (Option Int) 12
  subst    : Vector Bool 12
  owed     : Vector Bool 12
  shutN    : Vector Nat 12
  diffAt   : Vector (Option IT) 6
  level    : Vector Nat 6
  since    : Vector IT 6
  acting   : Vector Nat 6
  plan     : Vector Nat 6
  notices  : List (Nat × Nat × Nat)
  hold     : Vector (Option IT) 6
  blind    : Vector Bool 6
  fast     : Bool
  coolAt   : Option IT
  latchBy  : Nat
  keepOff  : Bool
  counters : Vector Nat 6
  holdEnd  : IT
  unavail  : Vector (Option IT) 4
  shown    : ThermalView
  deriving DecidableEq, Repr

/-! ### Geometry and Roving (R91 to R119) -/

/-- A pose in the units of R113. -/
structure Pose where
  e   : Int
  n   : Int
  psi : Nat
  vx  : Int
  vy  : Int
  w   : Int
  deriving DecidableEq, Repr

/-- A field-frame origin: latitude and longitude in 10^-9 degree, ellipsoidal height in mm (R92, R156). -/
structure Origin where
  lat : Int
  lon : Int
  h   : Int
  deriving DecidableEq, Repr

/-- Roving's state (R102) and a pose on its way through the path model (R111): positions in 10^-18 mm, heading in 2^-64 turns,
speeds in 10^-18 mm/s, yaw rate in 10^-18 binary angle per second. -/
structure Fine where
  e   : Int
  n   : Int
  psi : Int
  vx  : Int
  vy  : Int
  w   : Int
  deriving DecidableEq, Repr

/-- The Roving path predictor. `cur` is the filter's state at the last boundary, `hist` its states at the last 500 boundaries,
newest first (R102), `resid` the gyro bias it tracks, `biasVar` its variance and `biasOk` whether R87's estimate was VALID (R104),
`fix` the antenna's position and its time before a heading is known. `tow` is the towing vehicle's heading, `reinit` says that the
next qualifying position is the first in LOST (R110).
`p0` is the pose published last, `past` the P0 poses of the last 4,096 boundaries, newest first (R173); `path` is P1 to
P2048. `foldIt` says when each segment folded last, `foldAt` when the fold state changed last. -/
structure Roving where
  state    : Nat
  cur      : Fine
  hist     : List (IT × Fine)
  resid    : Int
  biasVar  : Nat
  biasOk   : Bool
  fix      : Option (IT × Int × Int)
  p0       : Pose
  roll     : Int
  pitch    : Int
  path     : List Pose
  past     : List (IT × Pose)
  stateLog : List (IT × Nat)
  poseIt   : IT
  uncert   : Nat
  noQual   : Nat
  quality  : Nat
  rev      : Bool
  rejected : Nat
  late     : Nat
  inferred : Bool
  implaus  : Bool
  outFrame : Bool
  provis   : Bool
  hdgCourse : Bool
  overSpeed : Bool
  origin   : Option Origin
  heights  : Vector (Option (IT × Int)) 3
  hasPos   : Bool
  hasHdg   : Bool
  courseAt : Option IT
  course   : Option (IT × Nat × Int)
  tow      : Option Nat
  courses  : List (IT × Nat)
  sigma    : Vector (Option (IT × Nat × Nat)) 2
  lastHdg  : Option (IT × Nat)
  three    : Nat
  reinit   : Bool
  gateRej  : Nat
  bad      : Vector Nat 3
  good     : Nat
  waiting  : List Meas
  local_   : Vector Int 128
  fold     : BitVec 8
  foldIt   : Vector IT 8
  foldAt   : IT
  first    : Option Origin
  deriving DecidableEq, Repr

/-! ### Spindle (R120 to R154) -/

/-- The pending edge of an output (R132) in the fields of P 0x2203.05, with its planned time and, for an opening
deferred or moved, the reference time of its cumulative deferral. -/
structure PendEdge where
  it      : IT
  opens   : Bool
  flags   : Nat
  moved   : Int
  planned : IT
  refIt   : IT
  deriving DecidableEq, Repr

/-- An output of Spindle: N0 to N127 are 0 to 127, H0 to H3 are 128 to 131. `shown` is the code of P 0x2203.04; `unobs`,
`learned` and `clamped` are the flags of P 0x2203.03. -/
structure Output where
  ext      : Option (Bool × IT)
  extOut   : Bool
  unobs    : Bool
  learned  : Bool
  on       : Bool
  edge     : Option PendEdge
  bridged  : IT
  shown    : Nat
  late     : Nat
  lateRec  : Bool
  clampRec : Bool
  clamped  : Bool
  onDelay  : Nat
  offDelay : Nat
  wait     : Bool
  deriving DecidableEq, Repr

/-- A section state from the task controller not yet applied (R149): section, on, receive stamp. -/
structure SecCmd where
  sec : Nat
  on  : Bool
  rx  : IT
  deriving DecidableEq, Repr

/-- A pull-in to be placed (R137): its channel, planned time, the reference of its cumulative deferral, whether it opens a
run, the closing of its pulse, and of its pulse the period, the required duty in 10^-18, the least on-time and the on-time. -/
structure PulsePlan where
  ch      : Nat
  planned : IT
  refIt   : IT
  run     : Bool
  close   : Option IT
  period  : Nat
  duty    : Int
  tMin    : Nat
  onTime  : Nat
  deriving DecidableEq, Repr

/-- The Spindle scheduler. `waiting` holds the PWM pulses whose placed start
lies beyond the reservation span (R137 step 4). `counters` are P 0x2202.02 to .0B in order. -/
structure Spindle where
  state    : Nat
  outs     : Vector Output 132
  counters : Vector Nat 10
  holdIt   : IT
  holding  : Bool
  secs     : List SecCmd
  secSeen  : Vector (Option IT) 256
  secOn    : Vector Bool 256
  waiting  : List PulsePlan
  noHank   : Bool
  work     : Vector Bool 256
  deriving DecidableEq, Repr

/-! ### Distaff (R155 to R182) -/

/-- A hank slot: the fields of its header (R160). State codes 0 FREE, 1 CLOSED, 2 OPEN, 3 DELETING, 4
DAMAGED-HEADER. Its header bytes are computed from these fields (Assumption 8). -/
structure Hank where
  state   : Nat
  cell    : Nat
  bg      : Byte
  job     : Nat
  name    : Bytes
  origin  : Origin
  presc   : Bool
  layers  : Nat
  created : Nat × IT
  wall    : Nat
  wallSt  : Nat
  opened  : Nat × IT
  closed  : Nat × IT
  marked  : Nat
  overlap : Nat
  unobs   : Nat
  unmarked : Nat
  damaged : Nat
  deriving DecidableEq, Repr

/-- The descriptor of a pool frame in use (R163). Its tile index entry is the pair (key, frame) itself. `since` holds
the layers streamed by REPLACE or FILL since DAMAGED was set (R178). -/
structure Frame where
  frame : Nat
  slot  : Nat
  col   : Int
  row   : Int
  damaged : Bool
  streamed : Bool
  marked : Bool
  unobs : Nat
  crc   : Nat
  since : Nat
  deriving DecidableEq, Repr

/-- A tile in the lap cache (R178, R180): its cells, its dirty and last change times, its last use, whether it could
not be allocated, and the unobserved closings that its descriptor still has to take (R171). -/
structure CTile where
  col    : Int
  row    : Int
  cells  : Bytes
  dirty  : Option IT
  changed : IT
  used   : Nat
  noAlloc : Bool
  marked : Bool
  streamed : Bool
  unobs  : Nat
  deriving DecidableEq, Repr

/-- A cell of the sweep accumulator (R173): its cell coordinates in the field, its sub-squares, the last instant a
footprint overlapped it. Oldest entries stand first. -/
structure Acc where
  x    : Int
  y    : Int
  bits : BitVec 16
  last : IT
  deriving DecidableEq, Repr

/-- An observed spray interval of an output (R171): the pull-in or drive it belongs to, its start, its closing command, its
observed end and the instant from which that end is delivered (R174), whether unobserved, up to where it is swept, and
whether its end has been counted. -/
structure Spray where
  pull  : IT
  start : IT
  cmd   : Option IT
  stop  : Option IT
  since : IT
  unobs : Bool
  swept : IT
  counted : Bool
  deriving DecidableEq, Repr

/-- A tile layer record waiting for the boundary that applies it (R168). -/
structure LayerRec where
  slot : Nat
  layer : Nat
  op   : Nat
  fill : Nat
  col  : Int
  row  : Int
  payload : Bytes
  deriving DecidableEq, Repr

/-- A hank command that waits for its boundary (R156). -/
structure HankWait where
  cmd  : Nat
  slot : Nat
  body : Bytes
  deriving DecidableEq, Repr

/-- A close sequence (R158): slot, close boundary, whether the hank stays OPEN (SAFE, BARE). -/
structure CloseSeq where
  slot : Nat
  at_  : IT
  keep : Bool
  deriving DecidableEq, Repr

/-- The coverage store. `marking` says that the open hank is marking; `opens` and `runs` hold
the instants at which marking, and the device state RUN, began (true) or ended, newest first (R172); `fills` is the fill queue
(column, row), `walked` the tiles that the frame's walks use (R180) and `backs` its write-backs (R179). -/
structure Distaff where
  hanks    : Vector Hank 16
  result   : Nat
  wait     : Option HankWait
  close    : Option CloseSeq
  marking  : Bool
  opens    : List (IT × Bool)
  runs     : List (IT × Bool)
  frames   : List Frame
  cache    : List CTile
  fills    : List (Int × Int)
  walked   : List (Int × Int)
  backs    : Nat
  tick     : Nat
  acc      : List Acc
  sprays   : Vector (List Spray) 132
  layers   : List LayerRec
  horizon  : IT
  noMarks  : Nat
  found    : Nat
  overflow : Nat
  unmarked : Nat
  unmarkedNs : Nat
  episode  : Option (IT × IT × Nat)
  misses   : Nat
  bitErrs  : Nat
  poolLow  : Bool
  exhaust  : Bool
  late     : Bool
  applied  : Nat
  reject   : Nat
  cursor   : Nat
  foldSpray : List (Nat × IT)
  deriving DecidableEq, Repr

/-! ### Rate and dose (R183 to R209) -/

/-- Rate state of one nozzle. Times in ns; `ends` holds (end, wanted spray, achieved spray) of the periods of the last
second (R204); `planned` the pulses placed and not yet observed (opening edge, period, wanted spray). -/
structure RateNz where
  carry   : Nat
  dry     : Bool
  next    : Option IT
  last    : IT
  div     : Nat
  freq    : Nat
  target  : F32
  duty    : Nat
  eff     : Nat
  onTime  : Nat
  ach     : Nat
  err     : Int
  flags   : Nat
  ends    : List (IT × Nat × Nat)
  planned : List (IT × Nat × Nat)
  deriving DecidableEq, Repr

/-- The rate and dose computer. `counters` are P 0x2402.08 to .0B. -/
structure RateDose where
  nz       : Vector RateNz 128
  active   : Bool
  capped   : Bool
  noPress  : Bool
  mismatch : Bool
  stale    : Bool
  saturated : Bool
  request  : F32
  granted  : F32
  press    : F32
  predFlow : F32
  measFlow : F32
  deviation : Int
  counters : Vector Nat 4
  below    : Option IT
  misAt    : Option IT
  okAt     : Option IT
  flowAt   : IT
  flowCnt  : Int
  flowDose : Nat × Nat
  sprayed  : Vector Nat 128
  dose     : Nat
  dosePart : Nat
  doseMark : Nat
  belt     : Int
  beltMark : Int
  meter    : Vector Int 2
  thruAt   : Option IT
  deriving DecidableEq, Repr

/-- What is posted to a loop (R266): the references and the headroom request taken, and those on their way. -/
structure Posts where
  posted   : Vector F32 2
  postNext : Option (IT × Vector F32 2)
  request  : F32
  reqNext  : Option (IT × F32)
  deriving DecidableEq, Repr

/-- What Spindle, the rate computer, the drive sequencers, the arbiter and the posts to Whorl held before a frame's decisions,
for a frame overrun (R20). `closed` and `shed` are the closings by a die and by the budget that the frame took note of. -/
structure Undo where
  outs    : Vector Output 132
  rate    : RateDose
  waiting : List PulsePlan
  secs    : List SecCmd
  edges   : Vector (List DieEdge) 128
  closed  : Vector (Option IT) 128
  slots   : Vector (List SlotRes) 16
  valves  : Vector (List DieEdge) 4
  shed    : Vector (Option IT) 4
  resvs   : List Resv
  boosts  : List (IT × Nat)
  posts   : Vector Posts 8
  deriving DecidableEq, Repr

/-! ### The module -/

/-- The state of the SG128 and the queue of commands that wait for it. `freeCtr` counts the free values drawn
(Assumption 4) and is the model's own. -/
structure State where
  it      : IT
  time    : TimeBase
  power   : Power
  motion  : Motion
  rov     : Roving
  spd     : Spindle
  dis     : Distaff
  rate    : RateDose
  chan    : Vector Channel 128
  banks   : Vector Bank 16
  dies    : Vector Die 4
  bob     : Bobbin
  whorl   : Whorl
  spin    : Vector Spinner 16
  bridges : Vector Bridge 4
  ports   : Vector Port 2
  loads   : Loads
  budget  : Budget
  therm   : Thermal
  dict    : Dict
  nets    : Nets
  skein   : Skein
  sup     : Super
  card    : Carding
  mram    : List Host.Cell
  undo    : Option Undo
  freeCtr : Nat
  pending : List Instr
  deriving DecidableEq, Repr

/-! ### The module right after reset

A factory-fresh module just after the power-on steps of R478 up to BOOT complete: every parameter at its default
(nothing stored), an empty log and no valid epoch copy found, so that by R39 the boot number is 1 and Izcel time
61,000,000,000 ns, with the discontinuity record of R38 on its way; the new boot number stands in the first copy (R35). Values the manual does not state are those of
Assumptions 7 and 9. -/

def TimeBase.reset : TimeBase :=
  { boot := 1, copyA := ⟨61000000000, 1, true⟩, copyB := ⟨0, 0, false⟩, nextB := true,
    final := ⟨0, 0, 0, 0, false, false⟩, discA := some 1, discB := some 1, aon := 0, marker := true,
    offset := 0, slewRest := 0, slewAt := 0, wallSet := false, selected := none, steps := 0,
    ppsLast := 0, ppsSeen := false, ppsPend := none, ppsBad := 0, named := none, deviation := 0, refPair := none,
    hostOk := false, lastGnss := none, lastPps := none, lastGptp := none, rc := false,
    strobeOk := Vector.replicate 4 true,
    frame := 61000000000, mark := 60000000000, edges := [], utc := none }

def Power.reset : Power :=
  { dev := .boot, entered := 0, ign := false, wakeSrc := 0, wakeHold := none, stage := 0, downAt := 0, downRes := 0,
    wakeAgain := none, cmd := none, cmdResult := 0, geo := false, geoFlush := false, ctl := false, eth := false,
    listening := false, crystalOk := true, supplyLow := Vector.replicate 4 false }

def Skein.reset : Skein :=
  { arriving := [], holding := Vector.replicate 16 none, limited := [], second := 0, queue := [], high := 0,
    lossNow := Vector.replicate 4 0, lossFirst := none, lossTotal := Vector.replicate 4 0, nextSeq := 0, slotPtr := 0,
    held := 0, sram := [], sramOnly := false, relocated := false, remap := [], lastWord := [], cursorA := 0,
    cursorB := 0, windows := [], counters := Vector.replicate 6 0 }

def Super.reset : Super :=
  { reported := [], active := [], list := [], counts := Vector.replicate 20 0, warm := 0, lastStop := 0, lastSafe := 0,
    stop := none, lockLast := none, bare := .inactive, sawOff := false, bareNext := none,
    switches := Vector.replicate 16 ⟨false, false, 0, false⟩, overruns := 0, thermal := false, hostGone := false }

def Dict.reset : Dict :=
  { store := [], staged := [], old := [], commit := none, ever := false, digest := List.replicate 32 0,
    lastRes := 0, lastFail := List.replicate 4 0, lastAt := 0, commits := 0, recheck := 0, storeBad := false,
    accepted := 0, refused := 0, lastRef := List.replicate 16 0, imgRes := List.replicate 16 0, descCur := 0,
    streams := Vector.replicate 16 ⟨0, 0, 0, false, none⟩ }

def Eth.reset : Eth :=
  { up := false, arp := [], counters := Vector.replicate 6 0, gptp := 0, gOffset := 0, linkDelay := 0, utcOff := 0,
    utcOk := false, syncSeq := 0, syncRx := none, reqSeq := 0, reqTx := 0, respT2 := none }

def CanA.reset : CanA :=
  { claimed := 0xFE, trying := 0xFE, tried := 0, noAddr := false, retryAt := none, tcSeen := none, tcOn := false,
    pool := 0, label := List.replicate 7 0, ignored := 0, section_ := false, triggers := [], lastSent := [],
    onChange := [], hitch := Vector.replicate 4 (0, Vector.replicate 8 0), fast := [], conns := [], out := none, desc := ⟨List.replicate 7 0, [], [], [], 0, 0⟩ }

def Nets.reset : Nets :=
  { sessions := [], ctrl := none, raisedAt := 0, challenge := none, badRow := 0, bad := 0, lockUntil := none,
    frames := Vector.replicate 8 0, beats := 0, beatAt := Vector.replicate 4 none, lastEth := none,
    can := Vector.replicate 3 ⟨0, Vector.replicate 4 0⟩, eth := Eth.reset, canA := CanA.reset, tx := [] }

def Carding.reset : Carding :=
  { life := 2, pendLife := 0xFF, key := none, rollback := 0,
    engines := Vector.replicate 4 ⟨⟨4, 0, 0⟩, ⟨0, 0, 0⟩, false, 0, true, false⟩,
    cmdRes := 0, cmdEng := 0, cmdSlot := 0, cmdCause := 0, cmdGot := 0, cmdAt := 0, switch := none, run := none,
    lastRun := Vector.replicate 6 0, skipped := 0, cursor := 36, resCur := 0, results := [], repairs := [],
    repA := ⟨0, [], true⟩, repB := ⟨0, [], true⟩, marker := none,
    badSpares := [], retired := [], lifeLog := [] }

def Pulse.reset : Pulse :=
  { count := 0, status := 1, rev := false, edges := [], last := 0, lastLine := none, level := none, illegal := 0,
    uncert := 0, glitches := 0, overruns := 0, limLow := false, limHigh := false, overRate := false, idxSeen := false,
    jump := none, crossed := 0, crossIt := 0, crossEnt := 0 }

def Hall.reset : Hall :=
  { sector := 0, status := 1, rev := false, count := 0, edges := [], last := 0, illegal := 0, invalid := 0,
    badCode := false, slowAt := 0, code := none }

def Uart.reset : Uart :=
  { accepted := 0, csFail := 0, other := 0, quality := 0, valid := 0, lat := 0, lon := 0, basis := 0, gga := none,
    stamp := none }

def Inertial.reset : Inertial :=
  { bias := Vector.replicate 3 0, status := 0, estIt := none, estTemp := 0, still := none, stillAt := 0, sum := Vector.replicate 3 0,
    n := 0, window := [], lastRaw := none, same := 0, clean := 0, faults := 0, clamped := false, hard := false,
    soft := false, temp := 0, gyro := Vector.replicate 3 0, accel := Vector.replicate 3 0, fresh := false, it := 0 }

def Motion.reset : Motion :=
  { pulses := Vector.replicate 8 Pulse.reset, halls := Vector.replicate 2 Hall.reset,
    uarts := Vector.replicate 2 Uart.reset, n2kOk := 0, isoOk := 0, isoRev := false, isoSpeed := none, sog := Vector.replicate 3 none, n2kQual := [],
    gather := [], set := [], setP := Vector.replicate 8 ⟨0, 0, 1, 0⟩, setH := Vector.replicate 2 ⟨0, 0, 1, 0⟩,
    inert := Inertial.reset }

def Pose.reset : Pose := ⟨0, 0, 0, 0, 0, 0⟩

def Fine.reset : Fine := ⟨0, 0, 0, 0, 0, 0⟩

def Roving.reset : Roving :=
  { state := 0, cur := Fine.reset, hist := [], resid := 0, biasVar := 0, biasOk := false, fix := none, p0 := Pose.reset, roll := 0, pitch := 0, path := [], past := [], stateLog := [], poseIt := 0,
    uncert := 0, noQual := 0, quality := 0, rev := false, rejected := 0, late := 0, inferred := false,
    implaus := false, outFrame := false, provis := false, hdgCourse := false, overSpeed := false, origin := none,
    heights := Vector.replicate 3 none, hasPos := false, hasHdg := false, courseAt := none, course := none, tow := none,
    courses := [], sigma := Vector.replicate 2 none, lastHdg := none, three := 0, reinit := false, gateRej := 0,
    bad := Vector.replicate 3 0, good := 0, waiting := [], local_ := Vector.replicate 128 0, fold := 0, foldIt := Vector.replicate 8 0,
    foldAt := 0, first := none }

def Output.reset : Output :=
  { ext := none, extOut := false, unobs := false, learned := false, on := false, edge := none, bridged := 0, shown := 0, late := 0, lateRec := false, clampRec := false,
    clamped := false, onDelay := 0, offDelay := 0, wait := false }

def Spindle.reset : Spindle :=
  { state := 0, outs := Vector.replicate 132 Output.reset, counters := Vector.replicate 10 0, holdIt := 0,
    holding := false, secs := [], secSeen := Vector.replicate 256 none, secOn := Vector.replicate 256 false,
    waiting := [], noHank := false, work := Vector.replicate 256 false }

def Hank.reset : Hank :=
  { state := 0, cell := 0, bg := 0, job := 0, name := List.replicate 32 0, origin := ⟨0, 0, 0⟩, presc := false,
    layers := 0, created := (0, 0), wall := 0, wallSt := 0, opened := (0, 0), closed := (0, 0), marked := 0,
    overlap := 0, unobs := 0, unmarked := 0, damaged := 0 }

def Distaff.reset : Distaff :=
  { hanks := Vector.replicate 16 Hank.reset, result := 0, wait := none, close := none, marking := false, opens := [], runs := [],
    frames := [], cache := [], fills := [], walked := [], backs := 0, tick := 0, acc := [], sprays := Vector.replicate 132 [],
    layers := [], horizon := 0, noMarks := 0, found := 0, overflow := 0, unmarked := 0, unmarkedNs := 0,
    episode := none, misses := 0, bitErrs := 0, poolLow := false, exhaust := false, late := false, applied := 0,
    reject := 0, cursor := 0, foldSpray := [] }

def RateNz.reset : RateNz :=
  { carry := 0, dry := false, next := none, last := 0, div := 1, freq := 10, target := 0, duty := 0, eff := 0, onTime := 0,
    ach := 0, err := 0, flags := 0, ends := [], planned := [] }

def RateDose.reset : RateDose :=
  { nz := Vector.replicate 128 RateNz.reset, active := false, capped := false, noPress := false, mismatch := false,
    stale := false, saturated := false, request := 0, granted := 0, press := 0, predFlow := 0, measFlow := 0,
    deviation := 0, counters := Vector.replicate 4 0, below := none, misAt := none, okAt := none, flowAt := 0,
    flowCnt := 0, flowDose := (0, 0), sprayed := Vector.replicate 128 0, dose := 0, dosePart := 0, doseMark := 0,
    belt := 0, beltMark := 0,
    meter := Vector.replicate 2 0, thruAt := none }

def PullIn.reset : PullIn :=
  { start := 0, ends := 0, full := 2000, pct := 100, dwell := 0, guard := 60, hold := 450, chop := 25, reach := none, tPred := 0,
    model := 0, atSrc := false, opened := none }

def Channel.reset : Channel :=
  { state := 0, pull := PullIn.reset, closings := [], edges := [], c := 30000000, s := 1000000, accepted := false,
    rejects := [], sample := [], g := 1000000000, decays := [], misses := 0, tw := 40000000000, tb := 40000000000,
    twCopy := 40000000000, tbCopy := 40000000000, warn := false, cap := false, tripped := false, ocCount := 0,
    ocLatch := false, stuck := false, peakShort := false, kinkMiss := false,
    lastClamp := false, lastUnobs := false, lastKink := 0, counters := Vector.replicate 10 0, opening := 0,
    pullTime := 0, recovery := 0, lastUj := none, dieClosed := none, lastCmd := none, retryAt := none }

def Bank.reset : Bank :=
  { common := 0, tripTill := none, trips := [], ocLatch := false, stuck := false, swFault := false, freeAt := 0,
    limit := 16000, current := 0, slots := [], counters := Vector.replicate 4 0 }

def Die.reset : Die :=
  { state := 0, peak := 0, taken := 0, unobs := 0, resets := 0, last := 0, cause := 0, recent := [] }

def Bobbin.reset : Bobbin :=
  { state := 0, railHigh := false, supHigh := false, mismatch := false, limited := false, cause := 0, capUf := none,
    energy := Vector.replicate 4 0, headroom := 0, rail := 0, inMa := 0, supply := 0, target := 0, ret := false, gave := false, limit := 0,
    rate := 0, atIt := 0, discharging := false }

def Loop.reset : Loop :=
  { state := 0, mode := 0, auto2 := false, region := 0, xc := Vector.replicate 8 0, xp := Vector.replicate 8 0,
    z := Vector.replicate 4 0, rl := Vector.replicate 2 0, vr := Vector.replicate 2 0, lag := Vector.replicate 2 0,
    granted := Vector.replicate 2 0, inForce := 0, coming := [], meas := Vector.replicate 4 0, filt := Vector.replicate 4 0,
    okMeas := Vector.replicate 4 false, rejects := Vector.replicate 4 0, lastRej := Vector.replicate 4 false,
    out := Vector.replicate 4 0, limits := Vector.replicate 8 0, limNext := [], blend := none, handOver := false,
    leaving := false, setLim := false, clamped := false, held := false, inRej := false,
    mixed := false, shed := Vector.replicate 4 false, waitTill := Vector.replicate 4 none,
    episode := false, table := [], staged := [], live := [], commit := false, posted := Vector.replicate 2 0,
    postNext := none, request := 0, grantFor := 0, reqNext := none, last := 0, cost := 0, counters := Vector.replicate 8 0 }

def Whorl.reset : Whorl := { loops := Vector.replicate 8 Loop.reset, shunt := Vector.replicate 12 none, late := 0, load := 0 }

def SpinSet.reset : SpinSet := { duty := 0, period := 8000, dead := 80, minp := 40, stretch := false }

def Spinner.reset : Spinner :=
  { cur := SpinSet.reset, shadow := SpinSet.reset, late := none, lateFlag := false, fresh := false, start := 0, ends := 0, anchor := none,
    lead := 0, edges := [], hiOn := false, loOn := false, m := 0,
    taken := 0, high := 0, low := 0, fullOn := false, fullOff := false, stretching := false, dropping := false,
    stretchLast := false, dropLast := false, gated := true, live := false, counters := Vector.replicate 5 0 }

def Bridge.reset : Bridge :=
  { state := 0, current := 0, valve := 0, overload := false, notReach := false, timeout := false, endTrav := false,
    cmd := 0, sign := false, turning := 0, drive := none, asked := none, edges := [], hist := [],
    fullSince := none, rippleUp := false, rippleN := 0, aim := 0, aimLast := 0, cmdAt := 0, cut := false, trips := [], tripTill := none, latch := false,
    counters := Vector.replicate 4 0, again := none, shedNote := none }

def Port.reset : Port :=
  { driving := false, link := 0, phases := none, hallBad := false, stall := false, stallAt := none, gateLow := false,
    cmd := 0, trips := [], tripTill := none, latch := false, counters := Vector.replicate 4 0 }

def Load.reset : Load :=
  { on := false, locked := false, shed := false, waitTill := none, pct := 100, tripAt := none, retries := 0,
    therm := false, retryL := false, exceeded := false, measured := none, resv := 0, openLoad := false,
    limiting := false, current := 0, junction := 0, onSince := 0, lowAt := none, held := false, counters := Vector.replicate 5 0 }

def Loads.reset : Loads := { sw := Vector.replicate 16 Load.reset, avail := 1500000000, at_ := 0, locks := 0 }

def Budget.reset : Budget :=
  { measA := 0, measB := 0, back := 0, shared := 0, resvs := [], pending := [], allot := 0, isOver := false, overAt := none,
    okAt := none, shedC2 := false, counters := Vector.replicate 16 0, lastRef := Vector.replicate 4 (0, 0, 0),
    volts := Vector.replicate 3 0, svMa := Vector.replicate 2 0, svOff := Vector.replicate 2 none,
    shown := ⟨0, 0, 0, Vector.replicate 16 0, Vector.replicate 4 (0, 0, 0)⟩ }

def Thermal.reset : Thermal :=
  { value := Vector.replicate 12 0, status := Vector.replicate 12 0, lastOk := Vector.replicate 12 none,
    owed := Vector.replicate 12 false, shutN := Vector.replicate 12 0, diffAt := Vector.replicate 6 none, level := Vector.replicate 6 0,
    since := Vector.replicate 6 0, acting := Vector.replicate 6 0, plan := Vector.replicate 6 0, notices := [],
    hold := Vector.replicate 6 none, blind := Vector.replicate 6 false, fast := false, coolAt := none,
    latchBy := 0xFF, keepOff := false, subst := Vector.replicate 12 false, counters := Vector.replicate 6 0, holdEnd := 0,
    unavail := Vector.replicate 4 none,
    shown := ⟨Vector.replicate 12 0, Vector.replicate 12 0, Vector.replicate 6 0, 0, 0, Vector.replicate 6 0, 0, 0xFF,
      Vector.replicate 6 0, 0⟩ }

/-- The module right after reset; see the heading above. -/
def State.reset : State :=
  { it := 61000000000, time := TimeBase.reset, power := Power.reset, motion := Motion.reset, rov := Roving.reset,
    spd := Spindle.reset, dis := Distaff.reset, rate := RateDose.reset, chan := Vector.replicate 128 Channel.reset,
    banks := Vector.replicate 16 Bank.reset, dies := Vector.replicate 4 Die.reset, bob := Bobbin.reset,
    whorl := Whorl.reset, spin := Vector.replicate 16 Spinner.reset, bridges := Vector.replicate 4 Bridge.reset,
    ports := Vector.replicate 2 Port.reset, loads := Loads.reset, budget := Budget.reset, therm := Thermal.reset,
    dict := Dict.reset, nets := Nets.reset,
    skein := { Skein.reset with arriving :=
      [{ code := 0x1002, it := 61000000000, boot := 1, subj := 0, det := [0, 0, 0, 0, 0, 0, 0, 0, 2] }] },
    sup := Super.reset, card := Carding.reset, mram := [], undo := none, freeCtr := 0, pending := [] }
end Sys2Proof.Machine
end

