-- ==== Sys2Proof/Machine/Ops.lean ====
section
/-! DEFINITION. The operations every family shares: vectors and byte strings, Izcel time and ticks (R33), saturating
counters, the free-value draw (Assumption 4), the record hand-over to Skein, the fault report to the supervisor, and
MRAM as a list of cells in one canonical form. -/

namespace Sys2Proof.Machine

/-! ### Vectors -/

/-- Element `i` of a vector, `d` past its end. -/
def vget {α : Type} {n : Nat} (v : Vector α n) (i : Nat) (d : α) : α :=
  if h : i < n then v[i] else d

/-- Element `i` replaced by `f` of it; a vector unchanged past its end. -/
def vmod {α : Type} {n : Nat} (v : Vector α n) (i : Nat) (f : α → α) : Vector α n :=
  if h : i < n then v.set i (f v[i]) else v

/-- Element `i` set. -/
def vset {α : Type} {n : Nat} (v : Vector α n) (i : Nat) (x : α) : Vector α n :=
  vmod v i (fun _ => x)

/-- A vector built from a function of the index. -/
def vgen {α : Type} (n : Nat) (f : Nat → α) : Vector α n := Vector.ofFn (fun i => f i.val)

/-- A vector filled from a list, `d` where the list is short. -/
def vlist {α : Type} (n : Nat) (l : List α) (d : α) : Vector α n := vgen n (fun i => (l[i]?).getD d)

/-- Every element mapped with its index. -/
def vmapi {α β : Type} {n : Nat} (v : Vector α n) (f : Nat → α → β) : Vector β n :=
  Vector.ofFn (fun i => f i.val v[i])

/-! ### Byte strings, little-endian (R7) -/

/-- The `n` low bytes of a count, lowest first. -/
def le : Nat → Nat → Bytes
  | 0, _ => []
  | n + 1, v => BitVec.ofNat 8 v :: le n (v / 256)

/-- The `n` bytes of a signed value in two's complement, lowest first. -/
def leI (n : Nat) (v : Int) : Bytes := le n (v % (256 ^ n : Nat)).toNat

/-- The count that bytes spell, lowest first. -/
def leNat : Bytes → Nat
  | [] => 0
  | b :: bs => b.toNat + 256 * leNat bs

/-- A count of `bits` bits read as two's complement. -/
def sgn (bits v : Nat) : Int := if v < 2 ^ (bits - 1) then (v : Int) else (v : Int) - (2 ^ bits : Nat)

/-- The signed value that bytes spell. -/
def leInt (b : Bytes) : Int := sgn (8 * b.length) (leNat b)

/-- `n` bytes of `b` from offset `o`, zeros past its end. -/
def bytesAt (b : Bytes) (o n : Nat) : Bytes :=
  let c := (b.drop o).take n
  c ++ List.replicate (n - c.length) 0

/-- The count in `n` bytes of `b` at offset `o`. -/
def natAt (b : Bytes) (o n : Nat) : Nat := leNat (bytesAt b o n)

/-- The signed value in `n` bytes of `b` at offset `o`. -/
def intAt (b : Bytes) (o n : Nat) : Int := leInt (bytesAt b o n)

/-- Bytes of `b` from offset `o` replaced by `p`, as far as `b` reaches. -/
def putAt (b : Bytes) (o : Nat) (p : Bytes) : Bytes :=
  b.take o ++ (p.take (b.length - o)) ++ b.drop (o + p.length)

/-- `b` cut or zero-filled to `n` bytes. -/
def padTo (n : Nat) (b : Bytes) : Bytes := b.take n ++ List.replicate (n - b.length) 0

/-- Bit `i` of a count. -/
def bit (v i : Nat) : Bool := v / 2 ^ i % 2 == 1

/-- Whether the Carding slice in progress covers some of the `n` bytes of the store from `a` on: every user of that region waits
(R503). -/
def State.sliceAt (s : State) (a n : Nat) : Bool :=
  match s.card.run with
  | none => false
  | some r =>
    let base := (r.current - 36) * 262144
    decide (36 ≤ r.current) && decide (r.current < 16420) && decide (a < base + 262144) && decide (base < a + n)

/-- The MRAM slice whose region the save area holds (R500, R501): one that a loss of the supply left there, or the one in progress. The
slices that cover the save area itself are saved elsewhere. -/
def State.savedSlice (s : State) : Option Nat :=
  match s.card.marker, s.card.run with
  | some k, _ => some k
  | none, some r => if 36 ≤ r.current ∧ r.current < 16420 ∧ r.current ≠ 16408 ∧ r.current ≠ 16409 then some r.current else none
  | none, none => none

/-- Whether the row of M7 that holds the byte at offset `a` of the store is retired (R508). -/
def State.rowRetired (s : State) (a : Nat) : Bool := s.card.retired.contains (7, (a - 0xE0000000) / 0x2000)

/-- A Bool as 0 or 1. -/
def b2n (b : Bool) : Nat := if b then 1 else 0

/-- A count whose bit `i` is the `i`-th Bool. -/
def bits : List Bool → Nat
  | [] => 0
  | b :: bs => b2n b + 2 * bits bs

/-- Bytes whose bit `i` mod 8 of byte `i` / 8 is the `i`-th Bool. -/
def bitBytes (n : Nat) (l : List Bool) : Bytes := le n (bits l)

/-! ### Integers -/

/-- Integer division rounded to nearest, ties away from zero (Assumption 10), for a positive divisor. -/
def rdiv (a : Int) (d : Nat) : Int :=
  if d = 0 then 0 else if 0 ≤ a then (2 * a + d) / (2 * d) else -((2 * (-a) + d) / (2 * d))

/-- Nearest natural quotient, ties up. -/
def ndiv (a d : Nat) : Nat := if d = 0 then 0 else (2 * a + d) / (2 * d)

/-- Quotient rounded up. -/
def cdiv (a d : Nat) : Nat := if d = 0 then 0 else (a + d - 1) / d

/-- A value held to [lo, hi]. -/
def clampI (lo hi v : Int) : Int := if v < lo then lo else if hi < v then hi else v

/-- A count held to [lo, hi]. -/
def clampN (lo hi v : Nat) : Nat := if v < lo then lo else if hi < v then hi else v

/-- A 32-bit counter that saturates. -/
def sat32 (v : Nat) : Nat := min v 0xFFFFFFFF

/-- A 16-bit counter that saturates. -/
def sat16 (v : Nat) : Nat := min v 0xFFFF

/-- A signed value saturated to 16 bits. -/
def satI16 (v : Int) : Int := clampI (-32768) 32767 v

/-- A signed value saturated to 32 bits. -/
def satI32 (v : Int) : Int := clampI (-2147483648) 2147483647 v

/-- A signed 32-bit count that wraps (R59). -/
def wrapI32 (v : Int) : Int := sgn 32 (v % 4294967296).toNat

/-- Integer square root, by bits from the top (`fuel` bits). -/
def isqrtGo : Nat → Nat → Nat → Nat
  | 0, _, r => r
  | fuel + 1, n, r =>
    let r' := r + 2 ^ fuel
    isqrtGo fuel n (if r' * r' ≤ n then r' else r)

/-- The integer square root of a count below 2^256. -/
def isqrt (n : Nat) : Nat := isqrtGo (n.log2 / 2 + 1) n 0

/-- The median of a list of counts, the lower of the two middle ones for an even length. -/
def medianN (l : List Nat) : Nat := ((l.mergeSort (· ≤ ·))[(l.length - 1) / 2]?).getD 0

/-- The median of a list of signed values; see `medianN`. -/
def medianI (l : List Int) : Int := ((l.mergeSort (· ≤ ·))[(l.length - 1) / 2]?).getD 0

/-! ### Izcel time and ticks (R33) -/

/-- A time of `n` ns in ticks of 6.25 ns at or below it, for whole ns from a tick: the last tick whose whole-ns time is
at or below `n`. -/
def tickDown (n : Nat) : Nat := (4 * n + 3) / 25

/-- The whole nanoseconds of a tick (R33). -/
def tickNs (k : Nat) : Nat := k * 25 / 4

/-- The first tick at or after `n` ns. -/
def tickUp (n : Nat) : Nat := (4 * n + 24) / 25

/-- The next frame boundary after `t` (R17: every 1,000,000 ns). -/
def nextBoundary (t : IT) : IT := (t / 1000000 + 1) * 1000000

/-- The first frame boundary at or after `t`. -/
def boundaryAtOrAfter (t : IT) : IT := (t + 999999) / 1000000 * 1000000

/-- Izcel time moved to `t`; it never decreases (R34). -/
def State.at (s : State) (t : IT) : State := { s with it := max s.it t }

/-! ### Device states (R474) -/

/-- Whether Izcel time and the module's units run: every state but No supply and STANDBY. -/
def DevState.awake : DevState → Bool
  | .noSupply | .standby => false
  | _ => true

/-- The code of P 0x4400.01 of a device state (STANDBY and No supply 0). -/
def DevState.code : DevState → Nat
  | .noSupply => 0 | .standby => 0 | .boot => 1 | .unconfigured => 2 | .ready => 3 | .run => 4 | .bare => 5
  | .safe => 6 | .shutdown => 7 | .service => 8

/-- A state kept where the module sleeps, otherwise changed. -/
def State.whenAwake (s : State) (f : State → State) : State := if s.power.dev.awake then f s else s

/-! ### Free values (Assumption 4) -/

/-- The next free value. -/
def State.drawn (s : State) : Nat := Config.free s.freeCtr

/-- The state after one draw. -/
def State.draw (s : State) : State := { s with freeCtr := s.freeCtr + 1 }

/-! ### Records and faults -/

/-- The record handed to Skein (R433): code, subject and detail, at time `t`. RECORD_INGEST takes the oldest. -/
def State.recordAt (s : State) (code subj : Nat) (det : Bytes) (t : IT) : State :=
  { s with skein := { s.skein with arriving := s.skein.arriving ++ [⟨code, t, s.time.boot, subj, det⟩] } }

/-- The record handed to Skein at the present time. -/
def State.record (s : State) (code subj : Nat) (det : Bytes) : State := s.recordAt code subj det s.it

/-- A record handed over if a condition holds. -/
def State.recordIf (s : State) (c : Bool) (code subj : Nat) (det : Bytes) : State :=
  if c then s.record code subj det else s

/-- A fault that no longer lasts (R458): its entries leave the active faults; the fault list keeps it as not active. -/
def State.faultEnds (s : State) (code subj : Nat) : State :=
  { s with sup := { s.sup with
      active := s.sup.active.filter (fun a => !(a.code == code && a.subj == subj)),
      list := s.sup.list.map (fun e => if e.code == code && e.subj == subj then { e with active := false } else e) } }

/-- Whether a fault of this code and subject is active. -/
def State.faultActive (s : State) (code subj : Nat) : Bool :=
  s.sup.active.any (fun a => a.code == code && a.subj == subj)

/-- Whether a fault of this code is active with any subject. -/
def State.faultAny (s : State) (code : Nat) : Bool := s.sup.active.any (fun a => a.code == code)

/-! ### MRAM: cells in canonical form -/

/-- An unlisted MRAM byte reads as 0 (Assumption 7: a factory-fresh array). -/
def Memory.default : Byte := 0

/-- The canonical form: addresses strictly rise, and no cell holds what an unlisted address reads as. -/
abbrev Memory.wf (m : List Host.Cell) : Prop :=
  m.Pairwise (fun a b => a.1 < b.1) ∧ ∀ c ∈ m, c.2 ≠ Memory.default

/-- The byte at an address. -/
def Memory.read (m : List Host.Cell) (a : Nat) : Byte :=
  match m with
  | [] => Memory.default
  | c :: cs => if c.1 = a then c.2 else Memory.read cs a

/-- `n` bytes from an address. The cells below and above are passed over once. -/
def Memory.readBlock (m : List Host.Cell) (a n : Nat) : Bytes :=
  let near := m.filter (fun c => decide (a ≤ c.1 ∧ c.1 < a + n))
  (List.range n).map (fun k => Memory.read near (a + k))

/-- The cells that hold a byte string from an address. -/
def Memory.cells (a : Nat) : Bytes → List Host.Cell
  | [] => []
  | b :: bs => if b = Memory.default then Memory.cells (a + 1) bs else (a, b) :: Memory.cells (a + 1) bs

/-- The array after a byte string is written from an address. -/
def Memory.write (m : List Host.Cell) (a : Nat) (bs : Bytes) : List Host.Cell :=
  m.filter (fun c => decide (c.1 < a)) ++ Memory.cells a bs ++ m.filter (fun c => decide (a + bs.length ≤ c.1))

end Sys2Proof.Machine
end

