-- ==== Sys2Proof/Machine/Num.lean ====
section
/-! DEFINITION. Real functions of the manual's formulas in fixed point with 10^-18 as the unit ("one" is 10^18).
The manual gives the formulas, not the arithmetic that computes them: the last digits are the model's
(Assumption 10). -/

namespace Sys2Proof.Machine

/-- One, in units of 10^-18. -/
def one18 : Int := 1000000000000000000

/-- Product of two fixed-point values. -/
def fxMul (a b : Int) : Int := a * b / one18

/-- Quotient of two fixed-point values; 0 for a zero divisor, which no formula reaches. -/
def fxDiv (a b : Int) : Int := if b = 0 then 0 else a * one18 / b

/-- A fixed-point value rounded to a whole number, ties away from zero. -/
def fxRound (a : Int) : Int := rdiv a 1000000000000000000

/-- The square root of a non-negative fixed-point value. -/
def fxSqrt (a : Int) : Int := (isqrt (a.toNat * 1000000000000000000) : Nat)

/-- π. -/
def fxPi : Int := 3141592653589793238

/-- ln 2. -/
def fxLn2 : Int := 693147180559945309

/-- The sum of `t / (2k+1)` with `t` multiplied by `z2` at each term: the series of atanh, and with a negative `z2` of
atan. -/
def fxOddSum : Nat → Int → Int → Nat → Int
  | 0, _, _, _ => 0
  | fuel + 1, t, z2, k => t / (2 * k + 1 : Nat) + fxOddSum fuel (fxMul t z2) z2 (k + 1)

/-- Halve a value above 1.5 until it is not, counting. -/
def fxNormDown : Nat → Int → Int → Int × Int
  | 0, x, k => (x, k)
  | fuel + 1, x, k => if x > one18 * 3 / 2 then fxNormDown fuel (x / 2) (k + 1) else (x, k)

/-- Double a value below 0.75 until it is not, counting. -/
def fxNormUp : Nat → Int → Int → Int × Int
  | 0, x, k => (x, k)
  | fuel + 1, x, k => if x < one18 * 3 / 4 then fxNormUp fuel (x * 2) (k - 1) else (x, k)

/-- The natural logarithm of a positive fixed-point value; 0 for others, which no formula reaches. -/
def fxLn (x : Int) : Int :=
  if x ≤ 0 then 0
  else
    let (m, k) := fxNormDown 200 x 0
    let (m, k) := fxNormUp 100 m k
    let z := fxDiv (m - one18) (m + one18)
    2 * fxOddSum 24 z (fxMul z z) 0 + k * fxLn2

/-- The series of exp from term `k`. -/
def fxExpSum : Nat → Int → Int → Nat → Int
  | 0, _, _, _ => 0
  | fuel + 1, t, x, k => t + fxExpSum fuel (fxMul t x / (k : Nat)) x (k + 1)

/-- e to a fixed-point power. -/
def fxExp (x : Int) : Int :=
  let k := x / fxLn2
  let y := fxExpSum 26 one18 (x - k * fxLn2) 1
  if 0 ≤ k then y * 2 ^ (min k.toNat 200) else y / 2 ^ (min (-k).toNat 200)

/-- A positive fixed-point value to a fixed-point power, 0 for others. -/
def fxPow (x e : Int) : Int := if x ≤ 0 then 0 else fxExp (fxMul e (fxLn x))

/-- Sum of the series whose next term is the last times `f` / (k (k+1)). -/
def fxAltSum : Nat → Int → Int → Nat → Int
  | 0, _, _, _ => 0
  | fuel + 1, t, f, k => t + fxAltSum fuel (fxMul t f / (k * (k + 1) : Nat)) f (k + 2)

/-- The sine of an angle in radians of at most π/2. -/
def fxSinRad (x : Int) : Int := fxAltSum 14 x (-(fxMul x x)) 2

/-- The cosine of an angle in radians of at most π/2. -/
def fxCosRad (x : Int) : Int := fxAltSum 14 one18 (-(fxMul x x)) 1

/-- The sine of an angle given as a fraction `a` / `turn` of a full turn. -/
def fxSinTurn (a : Int) (turn : Nat) : Int :=
  let a := (a % turn).toNat
  let q := 4 * a / turn
  let r : Int := ((4 * a % turn : Nat) : Int) * (fxPi / 2) / turn
  match q with
  | 0 => fxSinRad r
  | 1 => fxCosRad r
  | 2 => -(fxSinRad r)
  | _ => -(fxCosRad r)

/-- The cosine of an angle given as a fraction of a full turn. -/
def fxCosTurn (a : Int) (turn : Nat) : Int := fxSinTurn (4 * a + turn) (4 * turn)

/-- The sine of a binary angle (R95: 2^32 to the turn). -/
def bamSin (a : Nat) : Int := fxSinTurn a 4294967296

/-- The cosine of a binary angle. -/
def bamCos (a : Nat) : Int := fxSinTurn (a + 1073741824) 4294967296

/-- The arc tangent of a value of 0 to 1, halved twice before the series. -/
def fxAtan (z : Int) : Int :=
  let h := fun z : Int => fxDiv z (one18 + fxSqrt (one18 + fxMul z z))
  let w := h (h z)
  4 * fxOddSum 26 w (-(fxMul w w)) 0

/-- The angle of (`x`, `y`) from the x axis towards the y axis, in radians in (-π, π]; 0 at the origin. -/
def fxAtan2 (y x : Int) : Int :=
  if x = 0 ∧ y = 0 then 0
  else
    let ax := if x < 0 then -x else x
    let ay := if y < 0 then -y else y
    let base := if ay ≤ ax then fxAtan (fxDiv ay ax) else fxPi / 2 - fxAtan (fxDiv ax ay)
    let b := if x < 0 then fxPi - base else base
    if y < 0 then -b else b

/-- Radians as a signed binary angle, rounded to nearest. -/
def radToBam (r : Int) : Int := rdiv (r * 4294967296) (2 * 3141592653589793238)

/-- A signed binary angle as the unsigned angle of the same direction. -/
def bamN (a : Int) : Nat := (a % 4294967296).toNat

/-- A binary angle as the signed difference in [-2^31, 2^31). -/
def bamS (a : Int) : Int := sgn 32 (a % 4294967296).toNat

end Sys2Proof.Machine
end

