-- ==== Sys2Proof/Machine/Table.lean ====
section
/-! DEFINITION. The dictionary's parameter table: one row per parameter of the manual's parameter tables (R2, R50, R72 to
R90, R118, R119, R152 to R154, R181, R182, R206 to R209, R244 to R247, R258, R285 to R287, R304, R319, R320, R334, R335,
R352, R353, R367, R368, R396, R397, R429 to R432, R449, R450, R471 to R473, R484, R511, R512), as numbers. A row stands for
`count` indices from `base` on (one per channel, bank, loop ...). -/

namespace Sys2Proof.Machine

/-- A parameter's description (R371, R372, R373, R395). `ty` is the type code of R371; `size` the bytes of the value, for
a variable block the largest length, of which every length is a multiple of `unit`; `acc` 0 RO, 1 RW, 2 WO, 3 RWS; `cls`
0 none, 1 A, 2 F, 3 I, 4 C; `el` the type code of a block's elements where it is a plain array; `lo` and `hi` the range of
the value or element (for F32 the sign-magnitude order of its bits); `mask` the ENUM values or unreserved BITS; the
default is `dn` times the `dw`-byte value `dv`. -/
structure Desc where
  base  : Nat
  count : Nat
  sub   : Nat
  ty    : Nat
  size  : Nat
  var   : Bool
  unit  : Nat
  acc   : Nat
  cls   : Nat
  el    : Nat
  lo    : Int
  hi    : Int
  mask  : Nat
  dn    : Nat
  dw    : Nat
  dv    : Nat
  deriving DecidableEq, Repr

/-- Part 0 of the parameter rows of band Low. -/
def tableLow0 : List Desc :=
  [⟨0x1000, 1, 0x01, 12, 9, false, 1, 0, 0, 0, 0, 0, 0x0, 0, 1, 0x0⟩,
   ⟨0x1000, 1, 0x02, 12, 16, true, 1, 0, 0, 0, 0, 0, 0x0, 0, 1, 0x0⟩,
   ⟨0x1000, 1, 0x03, 2, 2, false, 1, 0, 0, 0, 0, 65535, 0x0, 1, 2, 0x0⟩,
   ⟨0x1000, 1, 0x04, 3, 4, false, 1, 0, 0, 0, 0, 4294967295, 0x0, 1, 4, 0x0⟩,
   ⟨0x1000, 1, 0x05, 3, 4, false, 1, 0, 0, 0, 0, 4294967295, 0x0, 1, 4, 0x0⟩,
   ⟨0x1000, 1, 0x06, 3, 4, false, 1, 0, 0, 0, 0, 4294967295, 0x0, 1, 4, 0x0⟩,
   ⟨0x1000, 1, 0x07, 3, 4, false, 1, 0, 0, 0, 0, 4294967295, 0x0, 1, 4, 0x0⟩,
   ⟨0x1100, 1, 0x01, 11, 8, false, 1, 0, 0, 0, 0, 18446744073709551615, 0x0, 1, 8, 0x0⟩,
   ⟨0x1100, 1, 0x02, 3, 4, false, 1, 0, 0, 0, 0, 4294967295, 0x0, 1, 4, 0x0⟩,
   ⟨0x1100, 1, 0x03, 11, 8, false, 1, 0, 0, 0, 0, 18446744073709551615, 0x0, 1, 8, 0x0⟩,
   ⟨0x1100, 1, 0x04, 9, 1, false, 1, 0, 0, 0, 0, 0, 0x3F, 1, 1, 0x0⟩,
   ⟨0x1100, 1, 0x05, 3, 4, false, 1, 0, 0, 0, 0, 4294967295, 0x0, 1, 4, 0x0⟩,
   ⟨0x1100, 1, 0x06, 3, 4, false, 1, 0, 0, 0, 0, 4294967295, 0x0, 1, 4, 0x0⟩,
   ⟨0x1100, 1, 0x07, 11, 8, false, 1, 0, 0, 0, 0, 18446744073709551615, 0x0, 1, 8, 0x0⟩,
   ⟨0x1100, 1, 0x08, 3, 4, false, 1, 0, 0, 0, 0, 4294967295, 0x0, 1, 4, 0x0⟩,
   ⟨0x1100, 1, 0x09, 6, 4, false, 1, 0, 0, 0, (-2147483648), 2147483647, 0x0, 1, 4, 0x0⟩,
   ⟨0x1101, 1, 0x01, 9, 1, false, 1, 1, 1, 0, 0, 0, 0x3D, 1, 1, 0x4⟩,
   ⟨0x1101, 1, 0x02, 9, 1, false, 1, 1, 1, 0, 0, 0, 0x3D, 1, 1, 0x5⟩,
   ⟨0x1101, 1, 0x03, 9, 1, false, 1, 1, 1, 0, 0, 0, 0x3D, 1, 1, 0x3⟩,
   ⟨0x1101, 1, 0x04, 9, 1, false, 1, 1, 1, 0, 0, 0, 0x3D, 1, 1, 0x2⟩]

/-- Part 1 of the parameter rows of band Low. -/
def tableLow1 : List Desc :=
  [⟨0x1101, 1, 0x05, 3, 4, false, 1, 1, 1, 0, 10000, 1000000000, 0x0, 1, 4, 0xF4240⟩,
   ⟨0x1101, 1, 0x06, 3, 4, false, 1, 1, 1, 0, 0, 500000, 0x0, 1, 4, 0x7A120⟩,
   ⟨0x1101, 1, 0x07, 9, 1, false, 1, 1, 1, 0, 0, 0, 0x3, 1, 1, 0x0⟩,
   ⟨0x1101, 1, 0x08, 6, 4, false, 1, 1, 1, 0, (-10000), 10000, 0x0, 1, 4, 0x0⟩,
   ⟨0x1101, 1, 0x09, 3, 4, false, 1, 1, 1, 0, 1100, 60000, 0x0, 1, 4, 0xBB8⟩,
   ⟨0x1101, 1, 0x0A, 3, 4, false, 1, 1, 1, 0, 0, 500000000, 0x0, 1, 4, 0x0⟩,
   ⟨0x1200, 1, 0x01, 2, 2, false, 1, 1, 1, 0, 10, 1000, 0x0, 1, 2, 0x64⟩,
   ⟨0x1200, 1, 0x02, 2, 2, false, 1, 1, 1, 0, 10, 1000, 0x0, 1, 2, 0x64⟩,
   ⟨0x1200, 1, 0x03, 10, 1, false, 1, 1, 1, 0, 0, 0, 0x7, 1, 1, 0x7⟩,
   ⟨0x1200, 1, 0x08, 12, 4, false, 1, 0, 0, 0, 0, 0, 0x0, 0, 1, 0x0⟩,
   ⟨0x1200, 1, 0x09, 12, 64, true, 8, 0, 0, 0, 0, 0, 0x0, 0, 1, 0x0⟩,
   ⟨0x1200, 1, 0x0A, 12, 32, false, 1, 0, 0, 0, 0, 0, 0x0, 0, 1, 0x0⟩,
   ⟨0x1201, 1, 0x01, 12, 16, false, 1, 0, 0, 0, 0, 0, 0x0, 0, 1, 0x0⟩,
   ⟨0x1201, 1, 0x02, 12, 68, false, 1, 2, 1, 0, 0, 0, 0x0, 0, 1, 0x0⟩,
   ⟨0x1201, 1, 0x03, 9, 1, false, 1, 0, 0, 0, 0, 0, 0xF, 1, 1, 0x0⟩,
   ⟨0x1201, 1, 0x04, 3, 4, false, 1, 0, 0, 0, 0, 4294967295, 0x0, 1, 4, 0x0⟩,
   ⟨0x1201, 1, 0x05, 1, 1, false, 1, 2, 1, 0, 1, 1, 0x0, 1, 1, 0x0⟩,
   ⟨0x1210, 2, 0x02, 9, 1, false, 1, 3, 4, 0, 0, 0, 0xF, 1, 1, 0x1⟩,
   ⟨0x1210, 2, 0x08, 9, 1, false, 1, 0, 0, 0, 0, 0, 0x7, 1, 1, 0x0⟩,
   ⟨0x1210, 2, 0x09, 12, 16, false, 1, 0, 0, 0, 0, 0, 0x0, 0, 1, 0x0⟩]

/-- Part 2 of the parameter rows of band Low. -/
def tableLow2 : List Desc :=
  [⟨0x1220, 1, 0x01, 3, 4, false, 1, 3, 4, 0, 0, 4294967295, 0x0, 1, 4, 0xA9FE4740⟩,
   ⟨0x1220, 1, 0x02, 1, 1, false, 1, 3, 4, 0, 8, 30, 0x0, 1, 1, 0x10⟩,
   ⟨0x1220, 1, 0x04, 9, 1, false, 1, 3, 4, 0, 0, 0, 0x3, 1, 1, 0x1⟩,
   ⟨0x1220, 1, 0x05, 8, 1, false, 1, 1, 1, 0, 0, 0, 0x0, 1, 1, 0x1⟩,
   ⟨0x1220, 1, 0x08, 9, 1, false, 1, 0, 0, 0, 0, 0, 0x3, 1, 1, 0x0⟩,
   ⟨0x1220, 1, 0x09, 12, 6, false, 1, 0, 0, 0, 0, 0, 0x0, 0, 1, 0x0⟩,
   ⟨0x1220, 1, 0x0A, 9, 1, false, 1, 0, 0, 0, 0, 0, 0x7, 1, 1, 0x0⟩,
   ⟨0x1220, 1, 0x0B, 6, 4, false, 1, 0, 0, 0, (-2147483648), 2147483647, 0x0, 1, 4, 0x0⟩,
   ⟨0x1220, 1, 0x0C, 3, 4, false, 1, 0, 0, 0, 0, 4294967295, 0x0, 1, 4, 0x0⟩,
   ⟨0x1220, 1, 0x0D, 12, 24, false, 1, 0, 0, 0, 0, 0, 0x0, 0, 1, 0x0⟩,
   ⟨0x1230, 1, 0x01, 8, 1, false, 1, 1, 1, 0, 0, 0, 0x0, 1, 1, 0x0⟩,
   ⟨0x1230, 1, 0x02, 1, 1, false, 1, 3, 4, 0, 128, 247, 0x0, 1, 1, 0x80⟩,
   ⟨0x1230, 1, 0x03, 1, 1, false, 1, 3, 4, 0, 0, 127, 0x0, 1, 1, 0x0⟩,
   ⟨0x1230, 1, 0x04, 1, 1, false, 1, 3, 4, 0, 0, 255, 0x0, 1, 1, 0x0⟩,
   ⟨0x1230, 1, 0x05, 1, 1, false, 1, 3, 4, 0, 0, 31, 0x0, 1, 1, 0x0⟩,
   ⟨0x1230, 1, 0x06, 1, 1, false, 1, 3, 4, 0, 0, 7, 0x0, 1, 1, 0x0⟩,
   ⟨0x1230, 1, 0x07, 1, 1, false, 1, 3, 4, 0, 0, 15, 0x0, 1, 1, 0x0⟩,
   ⟨0x1230, 1, 0x08, 12, 8, false, 1, 0, 0, 0, 0, 0, 0x0, 0, 1, 0x0⟩,
   ⟨0x1230, 1, 0x09, 1, 1, false, 1, 0, 0, 0, 128, 247, 0x0, 1, 1, 0xFE⟩,
   ⟨0x1230, 1, 0x0A, 10, 1, false, 1, 0, 0, 0, 0, 0, 0x0, 0, 1, 0x0⟩]

/-- Part 3 of the parameter rows of band Low. -/
def tableLow3 : List Desc :=
  [⟨0x1230, 1, 0x0B, 8, 1, false, 1, 1, 1, 0, 0, 0, 0x0, 1, 1, 0x1⟩,
   ⟨0x1231, 1, 0x01, 1, 1, false, 1, 1, 1, 0, 0, 31, 0x0, 1, 1, 0x0⟩,
   ⟨0x1231, 1, 0x02, 9, 1, false, 1, 0, 0, 0, 0, 0, 0xF, 1, 1, 0x0⟩,
   ⟨0x1231, 1, 0x03, 12, 7, false, 1, 0, 0, 0, 0, 0, 0x0, 0, 1, 0x0⟩,
   ⟨0x1231, 1, 0x04, 3, 4, false, 1, 0, 0, 0, 0, 4294967295, 0x0, 1, 4, 0x0⟩,
   ⟨0x1232, 1, 0x01, 12, 48, false, 1, 0, 0, 0, 0, 0, 0x0, 0, 1, 0x0⟩,
   ⟨0x1400, 1, 0x01, 3, 4, false, 1, 1, 1, 0, 10000, 120000, 0x0, 1, 4, 0x186A0⟩,
   ⟨0x1400, 1, 0x02, 3, 4, false, 1, 1, 1, 0, 5000, 60000, 0x0, 1, 4, 0xEA60⟩,
   ⟨0x1400, 1, 0x03, 3, 4, false, 1, 1, 1, 0, 5000, 60000, 0x0, 1, 4, 0xEA60⟩,
   ⟨0x1400, 1, 0x04, 2, 2, false, 1, 1, 1, 0, 0, 5000, 0x0, 1, 2, 0x7D0⟩,
   ⟨0x1400, 1, 0x05, 1, 1, false, 1, 1, 1, 0, 5, 100, 0x0, 1, 1, 0x14⟩,
   ⟨0x1400, 1, 0x06, 1, 1, false, 1, 1, 1, 0, 10, 100, 0x0, 1, 1, 0x32⟩,
   ⟨0x1400, 1, 0x07, 2, 2, false, 1, 1, 1, 0, 1, 100, 0x0, 1, 2, 0x14⟩,
   ⟨0x1400, 1, 0x08, 12, 24, false, 1, 3, 4, 3, 0, 200000, 0x0, 0, 1, 0x0⟩,
   ⟨0x1400, 1, 0x09, 2, 2, false, 1, 1, 1, 0, 1000, 32000, 0x0, 1, 2, 0x2710⟩,
   ⟨0x1400, 1, 0x0A, 2, 2, false, 1, 1, 1, 0, 10, 10000, 0x0, 1, 2, 0x1F4⟩,
   ⟨0x1401, 1, 0x01, 3, 4, false, 1, 0, 0, 0, 0, 4294967295, 0x0, 1, 4, 0x0⟩,
   ⟨0x1401, 1, 0x02, 3, 4, false, 1, 0, 0, 0, 0, 4294967295, 0x0, 1, 4, 0x0⟩,
   ⟨0x1401, 1, 0x03, 3, 4, false, 1, 0, 0, 0, 0, 4294967295, 0x0, 1, 4, 0x0⟩,
   ⟨0x1401, 1, 0x04, 3, 4, false, 1, 0, 0, 0, 0, 4294967295, 0x0, 1, 4, 0x0⟩]

/-- Part 4 of the parameter rows of band Low. -/
def tableLow4 : List Desc :=
  [⟨0x1401, 1, 0x05, 3, 4, false, 1, 0, 0, 0, 0, 4294967295, 0x0, 1, 4, 0x0⟩,
   ⟨0x1401, 1, 0x06, 6, 4, false, 1, 0, 0, 0, (-2147483648), 2147483647, 0x0, 1, 4, 0x0⟩,
   ⟨0x1401, 1, 0x07, 3, 4, false, 1, 0, 0, 0, 0, 4294967295, 0x0, 1, 4, 0x0⟩,
   ⟨0x1401, 1, 0x08, 10, 1, false, 1, 0, 0, 0, 0, 0, 0x0, 0, 1, 0x0⟩,
   ⟨0x1401, 1, 0x09, 12, 6, false, 1, 0, 0, 0, 0, 0, 0x0, 0, 1, 0x0⟩,
   ⟨0x1401, 1, 0x0A, 12, 4, false, 1, 0, 0, 0, 0, 0, 0x0, 0, 1, 0x0⟩,
   ⟨0x1401, 1, 0x0B, 12, 64, false, 1, 0, 0, 0, 0, 0, 0x0, 0, 1, 0x0⟩,
   ⟨0x1401, 1, 0x0C, 12, 64, false, 1, 0, 0, 0, 0, 0, 0x0, 0, 1, 0x0⟩,
   ⟨0x1402, 1, 0x01, 9, 1, false, 1, 3, 4, 0, 0, 0, 0x3, 1, 1, 0x0⟩,
   ⟨0x1402, 1, 0x02, 2, 2, false, 1, 1, 1, 0, 6000, 24000, 0x0, 1, 2, 0x2328⟩,
   ⟨0x1402, 1, 0x03, 2, 2, false, 1, 1, 1, 0, 14000, 40000, 0x0, 1, 2, 0x4650⟩,
   ⟨0x1500, 1, 0x01, 5, 2, false, 1, 1, 1, 0, 600, 1700, 0x0, 1, 2, 0x4E2⟩,
   ⟨0x1500, 1, 0x02, 5, 2, false, 1, 1, 1, 0, 600, 1700, 0x0, 1, 2, 0x546⟩,
   ⟨0x1500, 1, 0x03, 5, 2, false, 1, 1, 1, 0, 600, 1700, 0x0, 1, 2, 0x5AA⟩,
   ⟨0x1500, 1, 0x04, 5, 2, false, 1, 1, 1, 0, 600, 1700, 0x0, 1, 2, 0x640⟩,
   ⟨0x1500, 1, 0x05, 5, 2, false, 1, 1, 1, 0, 600, 1700, 0x0, 1, 2, 0x4E2⟩,
   ⟨0x1500, 1, 0x06, 5, 2, false, 1, 1, 1, 0, 600, 1700, 0x0, 1, 2, 0x546⟩,
   ⟨0x1500, 1, 0x07, 5, 2, false, 1, 1, 1, 0, 600, 1700, 0x0, 1, 2, 0x5AA⟩,
   ⟨0x1500, 1, 0x08, 5, 2, false, 1, 1, 1, 0, 600, 1700, 0x0, 1, 2, 0x640⟩,
   ⟨0x1500, 1, 0x09, 5, 2, false, 1, 1, 1, 0, 600, 1400, 0x0, 1, 2, 0x41A⟩]

/-- Part 5 of the parameter rows of band Low. -/
def tableLow5 : List Desc :=
  [⟨0x1500, 1, 0x0A, 5, 2, false, 1, 1, 1, 0, 600, 1400, 0x0, 1, 2, 0x47E⟩,
   ⟨0x1500, 1, 0x0B, 5, 2, false, 1, 1, 1, 0, 600, 1400, 0x0, 1, 2, 0x4E2⟩,
   ⟨0x1500, 1, 0x0C, 5, 2, false, 1, 1, 1, 0, 600, 1400, 0x0, 1, 2, 0x546⟩,
   ⟨0x1500, 1, 0x0D, 5, 2, false, 1, 1, 1, 0, 20, 200, 0x0, 1, 2, 0x32⟩,
   ⟨0x1500, 1, 0x0E, 2, 2, false, 1, 1, 1, 0, 100, 10000, 0x0, 1, 2, 0x3E8⟩,
   ⟨0x1500, 1, 0x0F, 5, 2, false, 1, 1, 1, 0, 50, 300, 0x0, 1, 2, 0x64⟩,
   ⟨0x1500, 1, 0x10, 5, 2, false, 1, 1, 1, 0, 50, 300, 0x0, 1, 2, 0x78⟩,
   ⟨0x1500, 1, 0x11, 2, 2, false, 1, 1, 1, 0, 200, 2000, 0x0, 1, 2, 0xC8⟩,
   ⟨0x1500, 1, 0x12, 1, 1, false, 1, 1, 1, 0, 2, 4, 0x0, 1, 1, 0x2⟩,
   ⟨0x1500, 1, 0x13, 1, 1, false, 1, 1, 1, 0, 0, 16, 0x0, 1, 1, 0x8⟩,
   ⟨0x1500, 1, 0x14, 1, 1, false, 1, 1, 1, 0, 10, 100, 0x0, 1, 1, 0x32⟩,
   ⟨0x1500, 1, 0x15, 1, 1, false, 1, 1, 1, 0, 10, 100, 0x0, 1, 1, 0x19⟩,
   ⟨0x1501, 1, 0x01, 12, 24, false, 1, 0, 0, 0, 0, 0, 0x0, 0, 1, 0x0⟩,
   ⟨0x1501, 1, 0x02, 12, 12, false, 1, 0, 0, 0, 0, 0, 0x0, 0, 1, 0x0⟩,
   ⟨0x1501, 1, 0x03, 12, 6, false, 1, 0, 0, 0, 0, 0, 0x0, 0, 1, 0x0⟩,
   ⟨0x1501, 1, 0x04, 5, 2, false, 1, 0, 0, 0, (-32768), 32767, 0x0, 1, 2, 0x0⟩,
   ⟨0x1501, 1, 0x05, 1, 1, false, 1, 0, 0, 0, 0, 11, 0x0, 1, 1, 0x0⟩,
   ⟨0x1501, 1, 0x06, 12, 12, false, 1, 0, 0, 0, 0, 0, 0x0, 0, 1, 0x0⟩,
   ⟨0x1501, 1, 0x07, 10, 1, false, 1, 0, 0, 0, 0, 0, 0x0, 0, 1, 0x0⟩,
   ⟨0x1501, 1, 0x08, 1, 1, false, 1, 0, 0, 0, 0, 11, 0x0, 1, 1, 0xFF⟩]

/-- Part 6 of the parameter rows of band Low. -/
def tableLow6 : List Desc :=
  [⟨0x1501, 1, 0x09, 12, 24, false, 1, 0, 0, 0, 0, 0, 0x0, 0, 1, 0x0⟩,
   ⟨0x1501, 1, 0x0A, 11, 8, false, 1, 0, 0, 0, 0, 18446744073709551615, 0x0, 1, 8, 0x0⟩]

/-- The parameter rows from 0x1000 to 0x1FFF. -/
def tableLow : List Desc :=
  tableLow0 ++ tableLow1 ++ tableLow2 ++ tableLow3 ++ tableLow4 ++ tableLow5 ++ tableLow6

/-- Part 0 of the parameter rows of band Motion. -/
def tableMotion0 : List Desc :=
  [⟨0x2010, 8, 0x01, 9, 1, false, 1, 1, 3, 0, 0, 0, 0x3F, 1, 1, 0x0⟩,
   ⟨0x2010, 8, 0x02, 9, 1, false, 1, 1, 3, 0, 0, 0, 0x7, 1, 1, 0x0⟩,
   ⟨0x2010, 8, 0x03, 3, 4, false, 1, 1, 2, 0, 100, 100000, 0x0, 1, 4, 0x3E8⟩,
   ⟨0x2010, 8, 0x04, 3, 4, false, 1, 3, 4, 0, 1, 1000000000, 0x0, 1, 4, 0xF4240⟩,
   ⟨0x2010, 8, 0x05, 7, 4, false, 1, 3, 4, 0, 897988541, 1148846080, 0x0, 1, 4, 0x3F800000⟩,
   ⟨0x2010, 8, 0x06, 9, 1, false, 1, 1, 3, 0, 0, 0, 0x7, 1, 1, 0x0⟩,
   ⟨0x2010, 8, 0x07, 3, 4, false, 1, 1, 1, 0, 10, 10000, 0x0, 1, 4, 0x3E8⟩,
   ⟨0x2010, 8, 0x08, 3, 4, false, 1, 1, 1, 0, 0, 200000, 0x0, 1, 4, 0x4E20⟩,
   ⟨0x2010, 8, 0x09, 6, 4, false, 1, 1, 2, 0, (-2147483648), 2147483647, 0x0, 1, 4, 0x80000000⟩,
   ⟨0x2010, 8, 0x0A, 6, 4, false, 1, 1, 2, 0, (-2147483648), 2147483647, 0x0, 1, 4, 0x7FFFFFFF⟩,
   ⟨0x2010, 8, 0x0B, 9, 1, false, 1, 1, 3, 0, 0, 0, 0x3, 1, 1, 0x0⟩,
   ⟨0x2010, 8, 0x0C, 6, 4, false, 1, 1, 1, 0, (-2147483648), 2147483647, 0x0, 1, 4, 0x0⟩,
   ⟨0x2010, 8, 0x0D, 9, 1, false, 1, 1, 3, 0, 0, 0, 0x3, 1, 1, 0x0⟩,
   ⟨0x2020, 8, 0x01, 6, 4, false, 1, 0, 0, 0, (-2147483648), 2147483647, 0x0, 1, 4, 0x0⟩,
   ⟨0x2020, 8, 0x02, 6, 4, false, 1, 0, 0, 0, (-2147483648), 2147483647, 0x0, 1, 4, 0x0⟩,
   ⟨0x2020, 8, 0x03, 9, 1, false, 1, 0, 0, 0, 0, 0, 0x1F, 1, 1, 0x1⟩,
   ⟨0x2020, 8, 0x04, 9, 1, false, 1, 0, 0, 0, 0, 0, 0x3, 1, 1, 0x0⟩,
   ⟨0x2020, 8, 0x05, 11, 8, false, 1, 0, 0, 0, 0, 18446744073709551615, 0x0, 1, 8, 0x0⟩,
   ⟨0x2020, 8, 0x06, 3, 4, false, 1, 0, 0, 0, 0, 4294967295, 0x0, 1, 4, 0x0⟩,
   ⟨0x2020, 8, 0x07, 3, 4, false, 1, 0, 0, 0, 0, 4294967295, 0x0, 1, 4, 0x0⟩]

/-- Part 1 of the parameter rows of band Motion. -/
def tableMotion1 : List Desc :=
  [⟨0x2020, 8, 0x08, 3, 4, false, 1, 0, 0, 0, 0, 4294967295, 0x0, 1, 4, 0x0⟩,
   ⟨0x2020, 8, 0x09, 3, 4, false, 1, 0, 0, 0, 0, 4294967295, 0x0, 1, 4, 0x0⟩,
   ⟨0x2020, 8, 0x0A, 10, 1, false, 1, 0, 0, 0, 0, 0, 0x0, 0, 1, 0x0⟩,
   ⟨0x2020, 8, 0x0B, 1, 1, false, 1, 2, 1, 0, 1, 1, 0x0, 1, 1, 0x0⟩,
   ⟨0x2020, 8, 0x0C, 6, 4, false, 1, 2, 1, 0, (-2147483648), 2147483647, 0x0, 1, 4, 0x0⟩,
   ⟨0x2030, 8, 0x01, 12, 512, true, 8, 1, 2, 0, 0, 0, 0x0, 0, 1, 0x0⟩,
   ⟨0x2030, 8, 0x02, 3, 4, false, 1, 0, 0, 0, 0, 4294967295, 0x0, 1, 4, 0x0⟩,
   ⟨0x2030, 8, 0x03, 11, 8, false, 1, 0, 0, 0, 0, 18446744073709551615, 0x0, 1, 8, 0x0⟩,
   ⟨0x2030, 8, 0x04, 1, 1, false, 1, 0, 0, 0, 0, 63, 0x0, 1, 1, 0x0⟩,
   ⟨0x2030, 8, 0x05, 10, 1, false, 1, 0, 0, 0, 0, 0, 0x0, 0, 1, 0x0⟩,
   ⟨0x2040, 2, 0x01, 8, 1, false, 1, 1, 3, 0, 0, 0, 0x0, 1, 1, 0x0⟩,
   ⟨0x2040, 2, 0x02, 9, 1, false, 1, 1, 3, 0, 0, 0, 0x3, 1, 1, 0x0⟩,
   ⟨0x2040, 2, 0x03, 1, 1, false, 1, 3, 4, 0, 1, 32, 0x0, 1, 1, 0x4⟩,
   ⟨0x2040, 2, 0x04, 3, 4, false, 1, 1, 2, 0, 100, 100000, 0x0, 1, 4, 0x3E8⟩,
   ⟨0x2040, 2, 0x05, 3, 4, false, 1, 1, 1, 0, 10, 10000, 0x0, 1, 4, 0xC8⟩,
   ⟨0x2040, 2, 0x08, 1, 1, false, 1, 0, 0, 0, 1, 6, 0x0, 1, 1, 0x0⟩,
   ⟨0x2040, 2, 0x09, 6, 4, false, 1, 0, 0, 0, (-2147483648), 2147483647, 0x0, 1, 4, 0x0⟩,
   ⟨0x2040, 2, 0x0A, 9, 1, false, 1, 0, 0, 0, 0, 0, 0x1F, 1, 1, 0x1⟩,
   ⟨0x2040, 2, 0x0B, 9, 1, false, 1, 0, 0, 0, 0, 0, 0x3, 1, 1, 0x0⟩,
   ⟨0x2040, 2, 0x0C, 6, 4, false, 1, 0, 0, 0, (-2147483648), 2147483647, 0x0, 1, 4, 0x0⟩]

/-- Part 2 of the parameter rows of band Motion. -/
def tableMotion2 : List Desc :=
  [⟨0x2040, 2, 0x0D, 3, 4, false, 1, 0, 0, 0, 0, 4294967295, 0x0, 1, 4, 0x0⟩,
   ⟨0x2040, 2, 0x0E, 3, 4, false, 1, 0, 0, 0, 0, 4294967295, 0x0, 1, 4, 0x0⟩,
   ⟨0x2040, 2, 0x0F, 10, 1, false, 1, 0, 0, 0, 0, 0, 0x0, 0, 1, 0x0⟩,
   ⟨0x2050, 2, 0x01, 9, 1, false, 1, 1, 3, 0, 0, 0, 0xF, 1, 1, 0x0⟩,
   ⟨0x2050, 2, 0x02, 3, 4, false, 1, 1, 3, 0, 0, 4294967295, 0x0, 1, 4, 0x1C200⟩,
   ⟨0x2050, 2, 0x03, 10, 1, false, 1, 1, 1, 0, 0, 0, 0x1F, 1, 1, 0x1F⟩,
   ⟨0x2050, 2, 0x04, 8, 1, false, 1, 1, 1, 0, 0, 0, 0x0, 1, 1, 0x1⟩,
   ⟨0x2050, 2, 0x08, 3, 4, false, 1, 0, 0, 0, 0, 4294967295, 0x0, 1, 4, 0x0⟩,
   ⟨0x2050, 2, 0x09, 3, 4, false, 1, 0, 0, 0, 0, 4294967295, 0x0, 1, 4, 0x0⟩,
   ⟨0x2050, 2, 0x0A, 3, 4, false, 1, 0, 0, 0, 0, 4294967295, 0x0, 1, 4, 0x0⟩,
   ⟨0x2050, 2, 0x0B, 9, 1, false, 1, 0, 0, 0, 0, 0, 0x1F, 1, 1, 0x0⟩,
   ⟨0x2050, 2, 0x0C, 11, 8, false, 1, 0, 0, 0, 0, 18446744073709551615, 0x0, 1, 8, 0x0⟩,
   ⟨0x2050, 2, 0x0D, 6, 4, false, 1, 0, 0, 0, (-2147483648), 2147483647, 0x0, 1, 4, 0x0⟩,
   ⟨0x2050, 2, 0x0E, 6, 4, false, 1, 0, 0, 0, (-2147483648), 2147483647, 0x0, 1, 4, 0x0⟩,
   ⟨0x2050, 2, 0x0F, 9, 1, false, 1, 0, 0, 0, 0, 0, 0x7, 1, 1, 0x0⟩,
   ⟨0x2058, 1, 0x01, 10, 1, false, 1, 1, 1, 0, 0, 0, 0xF, 1, 1, 0x0⟩,
   ⟨0x2058, 1, 0x02, 1, 1, false, 1, 1, 1, 0, 0, 255, 0x0, 1, 1, 0xFF⟩,
   ⟨0x2058, 1, 0x03, 3, 4, false, 1, 1, 1, 0, 0, 500000000, 0x0, 1, 4, 0x0⟩,
   ⟨0x2058, 1, 0x08, 3, 4, false, 1, 0, 0, 0, 0, 4294967295, 0x0, 1, 4, 0x0⟩,
   ⟨0x2059, 1, 0x01, 10, 1, false, 1, 1, 1, 0, 0, 0, 0x7, 1, 1, 0x0⟩]

/-- Part 3 of the parameter rows of band Motion. -/
def tableMotion3 : List Desc :=
  [⟨0x2059, 1, 0x02, 3, 4, false, 1, 1, 1, 0, 0, 500000000, 0x0, 1, 4, 0x0⟩,
   ⟨0x2059, 1, 0x08, 3, 4, false, 1, 0, 0, 0, 0, 4294967295, 0x0, 1, 4, 0x0⟩,
   ⟨0x2060, 1, 0x01, 8, 1, false, 1, 1, 3, 0, 0, 0, 0x0, 1, 1, 0x1⟩,
   ⟨0x2060, 1, 0x02, 9, 1, false, 1, 1, 3, 0, 0, 0, 0x3F, 1, 1, 0x0⟩,
   ⟨0x2060, 1, 0x03, 9, 1, false, 1, 1, 3, 0, 0, 0, 0x3F, 1, 1, 0x2⟩,
   ⟨0x2060, 1, 0x04, 9, 1, false, 1, 1, 3, 0, 0, 0, 0x3F, 1, 1, 0x4⟩,
   ⟨0x2060, 1, 0x05, 3, 4, false, 1, 1, 1, 0, 500, 60000, 0x0, 1, 4, 0x7D0⟩,
   ⟨0x2060, 1, 0x06, 3, 4, false, 1, 1, 1, 0, 5, 2000, 0x0, 1, 4, 0xC8⟩,
   ⟨0x2060, 1, 0x07, 3, 4, false, 1, 1, 1, 0, 60, 86400, 0x0, 1, 4, 0xE10⟩,
   ⟨0x2060, 1, 0x08, 6, 4, false, 1, 0, 0, 0, (-2147483648), 2147483647, 0x0, 1, 4, 0x0⟩,
   ⟨0x2060, 1, 0x09, 6, 4, false, 1, 0, 0, 0, (-2147483648), 2147483647, 0x0, 1, 4, 0x0⟩,
   ⟨0x2060, 1, 0x0A, 6, 4, false, 1, 0, 0, 0, (-2147483648), 2147483647, 0x0, 1, 4, 0x0⟩,
   ⟨0x2060, 1, 0x0B, 9, 1, false, 1, 0, 0, 0, 0, 0, 0xF, 1, 1, 0x0⟩,
   ⟨0x2060, 1, 0x0C, 3, 4, false, 1, 0, 0, 0, 0, 4294967295, 0x0, 1, 4, 0x0⟩,
   ⟨0x2060, 1, 0x0D, 3, 4, false, 1, 0, 0, 0, 0, 4294967295, 0x0, 1, 4, 0x0⟩,
   ⟨0x2060, 1, 0x0E, 10, 1, false, 1, 0, 0, 0, 0, 0, 0x0, 0, 1, 0x0⟩,
   ⟨0x2060, 1, 0x0F, 5, 2, false, 1, 0, 0, 0, (-32768), 32767, 0x0, 1, 2, 0x0⟩,
   ⟨0x2070, 1, 0x01, 8, 1, false, 1, 1, 3, 0, 0, 0, 0x0, 1, 1, 0x0⟩,
   ⟨0x2070, 1, 0x02, 9, 1, false, 1, 1, 3, 0, 0, 0, 0x3, 1, 1, 0x0⟩,
   ⟨0x2100, 1, 0x01, 9, 1, false, 1, 3, 4, 0, 0, 0, 0x3, 1, 1, 0x0⟩]

/-- Part 4 of the parameter rows of band Motion. -/
def tableMotion4 : List Desc :=
  [⟨0x2100, 1, 0x02, 6, 4, false, 1, 3, 4, 0, (-100000), 100000, 0x0, 1, 4, 0x0⟩,
   ⟨0x2100, 1, 0x03, 6, 4, false, 1, 3, 4, 0, (-100000), 100000, 0x0, 1, 4, 0x0⟩,
   ⟨0x2100, 1, 0x04, 6, 4, false, 1, 3, 4, 0, 0, 10000, 0x0, 1, 4, 0xBB8⟩,
   ⟨0x2100, 1, 0x05, 3, 4, false, 1, 3, 4, 0, 500, 20000, 0x0, 1, 4, 0x1770⟩,
   ⟨0x2100, 1, 0x06, 3, 4, false, 1, 3, 4, 0, 0, 4294967295, 0x0, 1, 4, 0x0⟩,
   ⟨0x2100, 1, 0x07, 9, 1, false, 1, 1, 3, 0, 0, 0, 0x7, 1, 1, 0x0⟩,
   ⟨0x2100, 1, 0x08, 9, 1, false, 1, 1, 3, 0, 0, 0, 0xF, 1, 1, 0x0⟩,
   ⟨0x2100, 1, 0x09, 10, 2, false, 1, 1, 3, 0, 0, 0, 0x1FF, 1, 2, 0x0⟩,
   ⟨0x2100, 1, 0x0A, 8, 1, false, 1, 1, 1, 0, 0, 0, 0x0, 1, 1, 0x1⟩,
   ⟨0x2101, 1, 0x01, 9, 1, false, 1, 1, 1, 0, 0, 0, 0x1E, 1, 1, 0x3⟩,
   ⟨0x2101, 1, 0x02, 3, 4, false, 1, 1, 1, 0, 20, 5000, 0x0, 1, 4, 0x96⟩,
   ⟨0x2101, 1, 0x03, 3, 4, false, 1, 1, 1, 0, 0, 30000, 0x0, 1, 4, 0xBB8⟩,
   ⟨0x2101, 1, 0x04, 2, 2, false, 1, 1, 1, 0, 20, 200, 0x0, 1, 2, 0x32⟩,
   ⟨0x2101, 1, 0x07, 2, 2, false, 1, 1, 1, 0, 5, 100, 0x0, 1, 2, 0x14⟩,
   ⟨0x2101, 1, 0x08, 3, 4, false, 1, 1, 1, 0, 0, 5000, 0x0, 1, 4, 0x12C⟩,
   ⟨0x2101, 1, 0x09, 3, 4, false, 1, 1, 1, 0, 300, 5000, 0x0, 1, 4, 0x3E8⟩,
   ⟨0x2101, 1, 0x0A, 3, 4, false, 1, 1, 1, 0, 0, 100000, 0x0, 1, 4, 0xBB8⟩,
   ⟨0x2101, 1, 0x0B, 3, 4, false, 1, 1, 1, 0, 0, 2048, 0x0, 1, 4, 0x1F4⟩,
   ⟨0x2101, 1, 0x0C, 3, 4, false, 1, 1, 1, 0, 0, 2048, 0x0, 1, 4, 0x12C⟩,
   ⟨0x2102, 1, 0x01, 9, 1, false, 1, 0, 0, 0, 0, 0, 0x3F, 1, 1, 0x0⟩]

/-- Part 5 of the parameter rows of band Motion. -/
def tableMotion5 : List Desc :=
  [⟨0x2102, 1, 0x02, 11, 8, false, 1, 0, 0, 0, 0, 18446744073709551615, 0x0, 1, 8, 0x0⟩,
   ⟨0x2102, 1, 0x03, 6, 4, false, 1, 0, 0, 0, (-2147483648), 2147483647, 0x0, 1, 4, 0x0⟩,
   ⟨0x2102, 1, 0x04, 6, 4, false, 1, 0, 0, 0, (-2147483648), 2147483647, 0x0, 1, 4, 0x0⟩,
   ⟨0x2102, 1, 0x05, 3, 4, false, 1, 0, 0, 0, 0, 4294967295, 0x0, 1, 4, 0x0⟩,
   ⟨0x2102, 1, 0x06, 6, 4, false, 1, 0, 0, 0, (-2147483648), 2147483647, 0x0, 1, 4, 0x0⟩,
   ⟨0x2102, 1, 0x07, 6, 4, false, 1, 0, 0, 0, (-2147483648), 2147483647, 0x0, 1, 4, 0x0⟩,
   ⟨0x2102, 1, 0x08, 6, 4, false, 1, 0, 0, 0, (-2147483648), 2147483647, 0x0, 1, 4, 0x0⟩,
   ⟨0x2102, 1, 0x09, 3, 4, false, 1, 0, 0, 0, 0, 4294967295, 0x0, 1, 4, 0x0⟩,
   ⟨0x2102, 1, 0x0A, 6, 4, false, 1, 0, 0, 0, (-2147483648), 2147483647, 0x0, 1, 4, 0x0⟩,
   ⟨0x2102, 1, 0x0B, 6, 4, false, 1, 0, 0, 0, (-2147483648), 2147483647, 0x0, 1, 4, 0x0⟩,
   ⟨0x2102, 1, 0x0C, 3, 4, false, 1, 0, 0, 0, 0, 4294967295, 0x0, 1, 4, 0x0⟩,
   ⟨0x2102, 1, 0x0D, 9, 1, false, 1, 0, 0, 0, 0, 0, 0x1F, 1, 1, 0x0⟩,
   ⟨0x2102, 1, 0x0E, 9, 1, false, 1, 0, 0, 0, 0, 0, 0x3, 1, 1, 0x0⟩,
   ⟨0x2102, 1, 0x0F, 3, 4, false, 1, 0, 0, 0, 0, 4294967295, 0x0, 1, 4, 0x0⟩,
   ⟨0x2102, 1, 0x10, 3, 4, false, 1, 0, 0, 0, 0, 4294967295, 0x0, 1, 4, 0x0⟩,
   ⟨0x2102, 1, 0x11, 10, 1, false, 1, 0, 0, 0, 0, 0, 0x0, 0, 1, 0x0⟩,
   ⟨0x2103, 1, 0x01, 6, 4, false, 1, 3, 4, 0, (-100000), 100000, 0x0, 1, 4, 0x0⟩,
   ⟨0x2103, 1, 0x02, 6, 4, false, 1, 3, 4, 0, (-100000), 100000, 0x0, 1, 4, 0x0⟩,
   ⟨0x2103, 1, 0x03, 6, 4, false, 1, 3, 4, 0, (-100000), 100000, 0x0, 1, 4, 0x0⟩,
   ⟨0x2103, 1, 0x04, 6, 4, false, 1, 3, 4, 0, (-100000), 100000, 0x0, 1, 4, 0x0⟩]

/-- Part 6 of the parameter rows of band Motion. -/
def tableMotion6 : List Desc :=
  [⟨0x2103, 1, 0x05, 6, 4, false, 1, 3, 4, 0, (-100000), 100000, 0x0, 1, 4, 0x0⟩,
   ⟨0x2103, 1, 0x06, 6, 4, false, 1, 3, 4, 0, (-100000), 100000, 0x0, 1, 4, 0x0⟩,
   ⟨0x2103, 1, 0x07, 6, 4, false, 1, 3, 4, 0, (-100000), 100000, 0x0, 1, 4, 0x0⟩,
   ⟨0x2103, 1, 0x08, 6, 4, false, 1, 3, 4, 0, (-100000), 100000, 0x0, 1, 4, 0x0⟩,
   ⟨0x2110, 1, 0x01, 12, 2560, false, 1, 3, 4, 0, 0, 0, 0x0, 2560, 1, 0x0⟩,
   ⟨0x2110, 1, 0x02, 2, 2, false, 1, 3, 4, 0, 1, 256, 0x0, 1, 2, 0x1⟩,
   ⟨0x2110, 1, 0x03, 10, 1, false, 1, 1, 2, 0, 0, 0, 0xFF, 1, 1, 0x0⟩,
   ⟨0x2110, 1, 0x04, 11, 8, false, 1, 0, 0, 0, 0, 18446744073709551615, 0x0, 1, 8, 0x0⟩,
   ⟨0x2111, 1, 0x01, 12, 512, false, 1, 0, 0, 6, 0, 0, 0x0, 0, 1, 0x0⟩,
   ⟨0x2120, 1, 0x01, 12, 49176, false, 1, 0, 0, 0, 0, 0, 0x0, 0, 1, 0x0⟩]

/-- The parameter rows from 0x2000 to 0x21FF. -/
def tableMotion : List Desc :=
  tableMotion0 ++ tableMotion1 ++ tableMotion2 ++ tableMotion3 ++ tableMotion4 ++ tableMotion5 ++ tableMotion6

/-- Part 0 of the parameter rows of band Plan. -/
def tablePlan0 : List Desc :=
  [⟨0x2200, 1, 0x01, 8, 1, false, 1, 1, 2, 0, 0, 0, 0x0, 1, 1, 0x0⟩,
   ⟨0x2200, 1, 0x02, 9, 1, false, 1, 1, 3, 0, 0, 0, 0x3, 1, 1, 0x0⟩,
   ⟨0x2200, 1, 0x03, 1, 1, false, 1, 1, 2, 0, 1, 100, 0x0, 1, 1, 0x37⟩,
   ⟨0x2200, 1, 0x04, 1, 1, false, 1, 1, 2, 0, 0, 99, 0x0, 1, 1, 0x2D⟩,
   ⟨0x2200, 1, 0x05, 10, 1, false, 1, 1, 2, 0, 0, 0, 0xF, 1, 1, 0xF⟩,
   ⟨0x2200, 1, 0x06, 2, 2, false, 1, 1, 2, 0, 0, 5000, 0x0, 1, 2, 0xC8⟩,
   ⟨0x2200, 1, 0x07, 2, 2, false, 1, 1, 2, 0, 0, 5000, 0x0, 1, 2, 0xC8⟩,
   ⟨0x2200, 1, 0x08, 3, 4, false, 1, 1, 1, 0, 28, 2000, 0x0, 1, 4, 0x8B⟩,
   ⟨0x2200, 1, 0x09, 3, 4, false, 1, 1, 1, 0, 0, 1000, 0x0, 1, 4, 0x38⟩,
   ⟨0x2200, 1, 0x0A, 9, 1, false, 1, 1, 1, 0, 0, 0, 0x3, 1, 1, 0x0⟩,
   ⟨0x2200, 1, 0x0B, 3, 4, false, 1, 1, 1, 0, 0, 2000, 0x0, 1, 4, 0x12C⟩,
   ⟨0x2200, 1, 0x0C, 9, 1, false, 1, 1, 1, 0, 0, 0, 0x3, 1, 1, 0x1⟩,
   ⟨0x2200, 1, 0x0D, 3, 4, false, 1, 1, 2, 0, 0, 5000, 0x0, 1, 4, 0x7D0⟩,
   ⟨0x2200, 1, 0x0E, 1, 1, false, 1, 1, 1, 0, 1, 100, 0x0, 1, 1, 0x14⟩,
   ⟨0x2200, 1, 0x0F, 9, 1, false, 1, 1, 3, 0, 0, 0, 0x3, 1, 1, 0x0⟩,
   ⟨0x2200, 1, 0x10, 3, 4, false, 1, 1, 3, 0, 0, 2000, 0x0, 1, 4, 0x1F4⟩,
   ⟨0x2200, 1, 0x11, 3, 4, false, 1, 1, 3, 0, 0, 2000, 0x0, 1, 4, 0x1F4⟩,
   ⟨0x2200, 1, 0x12, 3, 4, false, 1, 1, 1, 0, 0, 60000, 0x0, 1, 4, 0x0⟩,
   ⟨0x2201, 1, 0x01, 12, 32, false, 1, 1, 2, 1, 0, 255, 0x0, 32, 1, 0xFF⟩,
   ⟨0x2201, 1, 0x02, 12, 16, false, 1, 1, 2, 1, 0, 255, 0x0, 16, 1, 0xFF⟩]

/-- Part 1 of the parameter rows of band Plan. -/
def tablePlan1 : List Desc :=
  [⟨0x2201, 1, 0x03, 12, 256, false, 1, 1, 2, 2, 0, 50000, 0x0, 256, 1, 0x0⟩,
   ⟨0x2201, 1, 0x04, 12, 256, false, 1, 1, 2, 2, 0, 50000, 0x0, 256, 1, 0x0⟩,
   ⟨0x2202, 1, 0x01, 9, 1, false, 1, 0, 0, 0, 0, 0, 0x1FF, 1, 1, 0x0⟩,
   ⟨0x2202, 1, 0x02, 3, 4, false, 1, 0, 0, 0, 0, 4294967295, 0x0, 1, 4, 0x0⟩,
   ⟨0x2202, 1, 0x03, 3, 4, false, 1, 0, 0, 0, 0, 4294967295, 0x0, 1, 4, 0x0⟩,
   ⟨0x2202, 1, 0x04, 3, 4, false, 1, 0, 0, 0, 0, 4294967295, 0x0, 1, 4, 0x0⟩,
   ⟨0x2202, 1, 0x05, 3, 4, false, 1, 0, 0, 0, 0, 4294967295, 0x0, 1, 4, 0x0⟩,
   ⟨0x2202, 1, 0x06, 3, 4, false, 1, 0, 0, 0, 0, 4294967295, 0x0, 1, 4, 0x0⟩,
   ⟨0x2202, 1, 0x07, 3, 4, false, 1, 0, 0, 0, 0, 4294967295, 0x0, 1, 4, 0x0⟩,
   ⟨0x2202, 1, 0x08, 3, 4, false, 1, 0, 0, 0, 0, 4294967295, 0x0, 1, 4, 0x0⟩,
   ⟨0x2202, 1, 0x09, 3, 4, false, 1, 0, 0, 0, 0, 4294967295, 0x0, 1, 4, 0x0⟩,
   ⟨0x2202, 1, 0x0A, 3, 4, false, 1, 0, 0, 0, 0, 4294967295, 0x0, 1, 4, 0x0⟩,
   ⟨0x2202, 1, 0x0B, 3, 4, false, 1, 0, 0, 0, 0, 4294967295, 0x0, 1, 4, 0x0⟩,
   ⟨0x2202, 1, 0x0C, 11, 8, false, 1, 0, 0, 0, 0, 18446744073709551615, 0x0, 1, 8, 0x0⟩,
   ⟨0x2203, 1, 0x01, 12, 512, false, 1, 0, 0, 0, 0, 0, 0x0, 0, 1, 0x0⟩,
   ⟨0x2203, 1, 0x02, 12, 512, false, 1, 0, 0, 0, 0, 0, 0x0, 0, 1, 0x0⟩,
   ⟨0x2203, 1, 0x03, 12, 128, false, 1, 0, 0, 0, 0, 0, 0x0, 0, 1, 0x0⟩,
   ⟨0x2203, 1, 0x04, 12, 128, false, 1, 0, 0, 0, 0, 0, 0x0, 0, 1, 0x0⟩,
   ⟨0x2203, 1, 0x05, 12, 2112, false, 1, 0, 0, 0, 0, 0, 0x0, 0, 1, 0x0⟩,
   ⟨0x2203, 1, 0x06, 12, 4, false, 1, 0, 0, 0, 0, 0, 0x0, 0, 1, 0x0⟩]

/-- Part 2 of the parameter rows of band Plan. -/
def tablePlan2 : List Desc :=
  [⟨0x2300, 1, 0x01, 1, 1, false, 1, 1, 2, 0, 1, 16, 0x0, 1, 1, 0x8⟩,
   ⟨0x2300, 1, 0x02, 3, 4, false, 1, 1, 1, 0, 10, 1000, 0x0, 1, 4, 0x64⟩,
   ⟨0x2300, 1, 0x03, 3, 4, false, 1, 1, 1, 0, 100, 10000, 0x0, 1, 4, 0x3E8⟩,
   ⟨0x2300, 1, 0x04, 3, 4, false, 1, 1, 1, 0, 0, 131072, 0x0, 1, 4, 0x1000⟩,
   ⟨0x2300, 1, 0x05, 8, 1, false, 1, 1, 1, 0, 0, 0, 0x0, 1, 1, 0x1⟩,
   ⟨0x2301, 1, 0x01, 1, 1, false, 1, 0, 0, 0, 0, 15, 0x0, 1, 1, 0xFF⟩,
   ⟨0x2301, 1, 0x02, 3, 4, false, 1, 0, 0, 0, 0, 917504, 0x0, 1, 4, 0x0⟩,
   ⟨0x2301, 1, 0x03, 2, 2, false, 1, 0, 0, 0, 0, 1024, 0x0, 1, 2, 0x0⟩,
   ⟨0x2301, 1, 0x04, 2, 2, false, 1, 0, 0, 0, 0, 1024, 0x0, 1, 2, 0x0⟩,
   ⟨0x2301, 1, 0x05, 3, 4, false, 1, 0, 0, 0, 0, 4294967295, 0x0, 1, 4, 0x0⟩,
   ⟨0x2301, 1, 0x06, 3, 4, false, 1, 0, 0, 0, 0, 4294967295, 0x0, 1, 4, 0x0⟩,
   ⟨0x2301, 1, 0x07, 3, 4, false, 1, 0, 0, 0, 0, 65536, 0x0, 1, 4, 0x0⟩,
   ⟨0x2301, 1, 0x08, 3, 4, false, 1, 0, 0, 0, 0, 4294967295, 0x0, 1, 4, 0x0⟩,
   ⟨0x2301, 1, 0x09, 3, 4, false, 1, 0, 0, 0, 0, 4294967295, 0x0, 1, 4, 0x0⟩,
   ⟨0x2301, 1, 0x0A, 3, 4, false, 1, 0, 0, 0, 0, 4294967295, 0x0, 1, 4, 0x0⟩,
   ⟨0x2301, 1, 0x0B, 3, 4, false, 1, 0, 0, 0, 0, 4294967295, 0x0, 1, 4, 0x0⟩,
   ⟨0x2301, 1, 0x0C, 10, 1, false, 1, 0, 0, 0, 0, 0, 0x0, 0, 1, 0x0⟩,
   ⟨0x2301, 1, 0x0D, 11, 8, false, 1, 0, 0, 0, 0, 18446744073709551615, 0x0, 1, 8, 0x0⟩,
   ⟨0x2302, 1, 0x01, 12, 64, false, 1, 2, 1, 0, 0, 0, 0x0, 0, 1, 0x0⟩,
   ⟨0x2302, 1, 0x02, 9, 1, false, 1, 0, 0, 0, 0, 0, 0x1FF, 1, 1, 0x0⟩]

/-- Part 3 of the parameter rows of band Plan. -/
def tablePlan3 : List Desc :=
  [⟨0x2303, 1, 0x01, 12, 256, false, 1, 0, 0, 0, 0, 0, 0x0, 0, 1, 0x0⟩,
   ⟨0x2303, 1, 0x02, 12, 256, false, 1, 0, 0, 0, 0, 0, 0x0, 0, 1, 0x0⟩,
   ⟨0x2303, 1, 0x03, 12, 256, false, 1, 0, 0, 0, 0, 0, 0x0, 0, 1, 0x0⟩,
   ⟨0x2303, 1, 0x04, 12, 256, false, 1, 0, 0, 0, 0, 0, 0x0, 0, 1, 0x0⟩,
   ⟨0x2303, 1, 0x05, 12, 256, false, 1, 0, 0, 0, 0, 0, 0x0, 0, 1, 0x0⟩,
   ⟨0x2303, 1, 0x06, 12, 256, false, 1, 0, 0, 0, 0, 0, 0x0, 0, 1, 0x0⟩,
   ⟨0x2303, 1, 0x07, 12, 256, false, 1, 0, 0, 0, 0, 0, 0x0, 0, 1, 0x0⟩,
   ⟨0x2303, 1, 0x08, 12, 256, false, 1, 0, 0, 0, 0, 0, 0x0, 0, 1, 0x0⟩,
   ⟨0x2303, 1, 0x09, 12, 256, false, 1, 0, 0, 0, 0, 0, 0x0, 0, 1, 0x0⟩,
   ⟨0x2303, 1, 0x0A, 12, 256, false, 1, 0, 0, 0, 0, 0, 0x0, 0, 1, 0x0⟩,
   ⟨0x2303, 1, 0x0B, 12, 256, false, 1, 0, 0, 0, 0, 0, 0x0, 0, 1, 0x0⟩,
   ⟨0x2303, 1, 0x0C, 12, 256, false, 1, 0, 0, 0, 0, 0, 0x0, 0, 1, 0x0⟩,
   ⟨0x2303, 1, 0x0D, 12, 256, false, 1, 0, 0, 0, 0, 0, 0x0, 0, 1, 0x0⟩,
   ⟨0x2303, 1, 0x0E, 12, 256, false, 1, 0, 0, 0, 0, 0, 0x0, 0, 1, 0x0⟩,
   ⟨0x2303, 1, 0x0F, 12, 256, false, 1, 0, 0, 0, 0, 0, 0x0, 0, 1, 0x0⟩,
   ⟨0x2303, 1, 0x10, 12, 256, false, 1, 0, 0, 0, 0, 0, 0x0, 0, 1, 0x0⟩,
   ⟨0x2310, 1, 0x01, 12, 65536, true, 1, 2, 1, 0, 0, 0, 0x0, 0, 1, 0x0⟩,
   ⟨0x2310, 1, 0x02, 3, 4, false, 1, 0, 0, 0, 0, 4294967295, 0x0, 1, 4, 0x0⟩,
   ⟨0x2310, 1, 0x03, 9, 1, false, 1, 0, 0, 0, 0, 0, 0xFF, 1, 1, 0x0⟩,
   ⟨0x2311, 1, 0x01, 12, 8, false, 1, 1, 1, 0, 0, 0, 0x0, 8, 1, 0x0⟩]

/-- Part 4 of the parameter rows of band Plan. -/
def tablePlan4 : List Desc :=
  [⟨0x2311, 1, 0x02, 12, 4112, false, 1, 0, 0, 0, 0, 0, 0x0, 0, 1, 0x0⟩,
   ⟨0x2312, 1, 0x01, 1, 1, false, 1, 1, 1, 0, 0, 15, 0x0, 1, 1, 0x0⟩,
   ⟨0x2312, 1, 0x02, 3, 4, false, 1, 1, 1, 0, 0, 917504, 0x0, 1, 4, 0x0⟩,
   ⟨0x2312, 1, 0x03, 12, 61680, true, 4112, 0, 0, 0, 0, 0, 0x0, 0, 1, 0x0⟩,
   ⟨0x2400, 1, 0x01, 9, 1, false, 1, 1, 3, 0, 0, 0, 0x1F, 1, 1, 0x0⟩,
   ⟨0x2400, 1, 0x02, 9, 1, false, 1, 1, 3, 0, 0, 0, 0x3F, 1, 1, 0x0⟩,
   ⟨0x2400, 1, 0x03, 7, 4, false, 1, 1, 1, 0, 0, 1315859240, 0x0, 1, 4, 0x0⟩,
   ⟨0x2400, 1, 0x04, 12, 60, false, 1, 1, 1, 7, (-2139095039), 2139095039, 0x0, 60, 1, 0x0⟩,
   ⟨0x2400, 1, 0x05, 7, 4, false, 1, 3, 4, 0, 1050253722, 1060320051, 0x0, 1, 4, 0x3F000000⟩,
   ⟨0x2400, 1, 0x06, 9, 1, false, 1, 1, 3, 0, 0, 0, 0x1FF, 1, 1, 0x0⟩,
   ⟨0x2400, 1, 0x07, 7, 4, false, 1, 1, 1, 0, 1092616192, 1148846080, 0x0, 1, 4, 0x43960000⟩,
   ⟨0x2400, 1, 0x08, 1, 1, false, 1, 1, 2, 0, 50, 100, 0x0, 1, 1, 0x5F⟩,
   ⟨0x2400, 1, 0x09, 1, 1, false, 1, 1, 1, 0, 50, 99, 0x0, 1, 1, 0x55⟩,
   ⟨0x2400, 1, 0x0A, 1, 1, false, 1, 1, 1, 0, 10, 98, 0x0, 1, 1, 0x46⟩,
   ⟨0x2400, 1, 0x0B, 3, 4, false, 1, 1, 1, 0, 0, 30000, 0x0, 1, 4, 0x7D0⟩,
   ⟨0x2400, 1, 0x0C, 7, 4, false, 1, 1, 1, 0, 1092616192, 1148846080, 0x0, 1, 4, 0x44160000⟩,
   ⟨0x2400, 1, 0x0D, 9, 1, false, 1, 1, 3, 0, 0, 0, 0x1FF, 1, 1, 0x0⟩,
   ⟨0x2400, 1, 0x0E, 1, 1, false, 1, 1, 1, 0, 1, 50, 0x0, 1, 1, 0xA⟩,
   ⟨0x2400, 1, 0x0F, 3, 4, false, 1, 1, 1, 0, 1000, 60000, 0x0, 1, 4, 0x1388⟩,
   ⟨0x2400, 1, 0x10, 9, 1, false, 1, 1, 3, 0, 0, 0, 0x7, 1, 1, 0x0⟩]

/-- Part 5 of the parameter rows of band Plan. -/
def tablePlan5 : List Desc :=
  [⟨0x2400, 1, 0x11, 9, 1, false, 1, 1, 3, 0, 0, 0, 0x1FF, 1, 1, 0x0⟩,
   ⟨0x2401, 1, 0x01, 12, 128, false, 1, 1, 3, 9, 0, 1, 0x0, 128, 1, 0x0⟩,
   ⟨0x2401, 1, 0x02, 12, 128, false, 1, 1, 2, 1, 5, 100, 0x0, 128, 1, 0xA⟩,
   ⟨0x2401, 1, 0x03, 12, 512, false, 1, 3, 4, 7, 0, 1203982336, 0x0, 512, 1, 0x0⟩,
   ⟨0x2401, 1, 0x04, 12, 512, false, 1, 3, 4, 7, 1092616192, 1148846080, 0x0, 128, 4, 0x43960000⟩,
   ⟨0x2401, 1, 0x05, 12, 128, false, 1, 1, 2, 9, 0, 1, 0x0, 128, 1, 0x0⟩,
   ⟨0x2401, 1, 0x06, 12, 256, false, 1, 1, 2, 2, 0, 10000, 0x0, 128, 2, 0x64⟩,
   ⟨0x2401, 1, 0x07, 12, 256, false, 1, 1, 3, 2, 0, 65535, 0x0, 256, 1, 0x0⟩,
   ⟨0x2402, 1, 0x01, 10, 1, false, 1, 0, 0, 0, 0, 0, 0x0, 0, 1, 0x0⟩,
   ⟨0x2402, 1, 0x02, 7, 4, false, 1, 0, 0, 0, (-2139095039), 2139095039, 0x0, 1, 4, 0x0⟩,
   ⟨0x2402, 1, 0x03, 7, 4, false, 1, 0, 0, 0, (-2139095039), 2139095039, 0x0, 1, 4, 0x0⟩,
   ⟨0x2402, 1, 0x04, 7, 4, false, 1, 0, 0, 0, (-2139095039), 2139095039, 0x0, 1, 4, 0x0⟩,
   ⟨0x2402, 1, 0x05, 7, 4, false, 1, 0, 0, 0, (-2139095039), 2139095039, 0x0, 1, 4, 0x0⟩,
   ⟨0x2402, 1, 0x06, 7, 4, false, 1, 0, 0, 0, (-2139095039), 2139095039, 0x0, 1, 4, 0x0⟩,
   ⟨0x2402, 1, 0x07, 5, 2, false, 1, 0, 0, 0, (-32768), 32767, 0x0, 1, 2, 0x0⟩,
   ⟨0x2402, 1, 0x08, 3, 4, false, 1, 0, 0, 0, 0, 4294967295, 0x0, 1, 4, 0x0⟩,
   ⟨0x2402, 1, 0x09, 3, 4, false, 1, 0, 0, 0, 0, 4294967295, 0x0, 1, 4, 0x0⟩,
   ⟨0x2402, 1, 0x0A, 3, 4, false, 1, 0, 0, 0, 0, 4294967295, 0x0, 1, 4, 0x0⟩,
   ⟨0x2402, 1, 0x0B, 3, 4, false, 1, 0, 0, 0, 0, 4294967295, 0x0, 1, 4, 0x0⟩,
   ⟨0x2403, 1, 0x01, 12, 512, false, 1, 0, 0, 0, 0, 0, 0x0, 0, 1, 0x0⟩]

/-- Part 6 of the parameter rows of band Plan. -/
def tablePlan6 : List Desc :=
  [⟨0x2403, 1, 0x02, 12, 256, false, 1, 0, 0, 0, 0, 0, 0x0, 0, 1, 0x0⟩,
   ⟨0x2403, 1, 0x03, 12, 256, false, 1, 0, 0, 0, 0, 0, 0x0, 0, 1, 0x0⟩,
   ⟨0x2403, 1, 0x04, 12, 512, false, 1, 0, 0, 0, 0, 0, 0x0, 0, 1, 0x0⟩,
   ⟨0x2403, 1, 0x05, 12, 256, false, 1, 0, 0, 0, 0, 0, 0x0, 0, 1, 0x0⟩,
   ⟨0x2403, 1, 0x06, 12, 256, false, 1, 0, 0, 0, 0, 0, 0x0, 0, 1, 0x0⟩,
   ⟨0x2403, 1, 0x07, 12, 128, false, 1, 0, 0, 0, 0, 0, 0x0, 0, 1, 0x0⟩,
   ⟨0x2408, 2, 0x01, 8, 1, false, 1, 1, 3, 0, 0, 0, 0x0, 1, 1, 0x0⟩,
   ⟨0x2408, 2, 0x02, 9, 1, false, 1, 1, 3, 0, 0, 0, 0xFF, 1, 1, 0x0⟩,
   ⟨0x2408, 2, 0x03, 12, 16, false, 1, 1, 3, 1, 0, 255, 0x0, 16, 1, 0x0⟩,
   ⟨0x2408, 2, 0x04, 9, 1, false, 1, 1, 2, 0, 0, 0, 0x3, 1, 1, 0x0⟩,
   ⟨0x2408, 2, 0x05, 7, 4, false, 1, 3, 4, 0, 981668463, 1203982336, 0x0, 1, 4, 0x3F800000⟩,
   ⟨0x2408, 2, 0x06, 7, 4, false, 1, 3, 4, 0, 1008981770, 1148846080, 0x0, 1, 4, 0x3F800000⟩,
   ⟨0x2408, 2, 0x07, 6, 4, false, 1, 0, 0, 0, (-2147483648), 2147483647, 0x0, 1, 4, 0x0⟩,
   ⟨0x240A, 1, 0x01, 9, 1, false, 1, 1, 3, 0, 0, 0, 0x3, 1, 1, 0x0⟩,
   ⟨0x240A, 1, 0x02, 7, 4, false, 1, 1, 1, 0, 0, 1176256512, 0x0, 1, 4, 0x0⟩,
   ⟨0x240A, 1, 0x03, 7, 4, false, 1, 1, 1, 0, 0, 1232348160, 0x0, 1, 4, 0x0⟩,
   ⟨0x240A, 1, 0x04, 7, 4, false, 1, 3, 4, 0, 1036831949, 1084227584, 0x0, 1, 4, 0x3F800000⟩,
   ⟨0x240A, 1, 0x05, 4, 8, false, 1, 0, 0, 0, 0, 18446744073709551615, 0x0, 1, 8, 0x0⟩,
   ⟨0x240A, 1, 0x06, 3, 4, false, 1, 1, 1, 0, 100, 60000, 0x0, 1, 4, 0x7D0⟩]

/-- The parameter rows from 0x2200 to 0x2FFF. -/
def tablePlan : List Desc :=
  tablePlan0 ++ tablePlan1 ++ tablePlan2 ++ tablePlan3 ++ tablePlan4 ++ tablePlan5 ++ tablePlan6

/-- Part 0 of the parameter rows of band Bank. -/
def tableBank0 : List Desc :=
  [⟨0x3000, 128, 0x01, 8, 1, false, 1, 1, 3, 0, 0, 0, 0x0, 1, 1, 0x0⟩,
   ⟨0x3000, 128, 0x02, 8, 1, false, 1, 1, 3, 0, 0, 0, 0x0, 1, 1, 0x0⟩,
   ⟨0x3000, 128, 0x03, 1, 1, false, 1, 1, 3, 0, 0, 7, 0x0, 1, 1, 0x0⟩,
   ⟨0x3000, 128, 0x04, 2, 2, false, 1, 1, 2, 0, 500, 6000, 0x0, 1, 2, 0x7D0⟩,
   ⟨0x3000, 128, 0x05, 1, 1, false, 1, 1, 1, 0, 50, 100, 0x0, 1, 1, 0x50⟩,
   ⟨0x3000, 128, 0x06, 2, 2, false, 1, 1, 2, 0, 0, 5000, 0x0, 1, 2, 0x0⟩,
   ⟨0x3000, 128, 0x07, 1, 1, false, 1, 1, 2, 0, 16, 40, 0x0, 1, 1, 0x19⟩,
   ⟨0x3000, 128, 0x08, 3, 4, false, 1, 1, 1, 0, 1000, 200000, 0x0, 1, 4, 0x4E20⟩,
   ⟨0x3000, 128, 0x09, 3, 4, false, 1, 1, 1, 0, 200, 20000, 0x0, 1, 4, 0xBB8⟩,
   ⟨0x3000, 128, 0x0A, 3, 4, false, 1, 1, 1, 0, 50, 20000, 0x0, 1, 4, 0x3E8⟩,
   ⟨0x3000, 128, 0x0B, 2, 2, false, 1, 1, 1, 0, 5, 2000, 0x0, 1, 2, 0x28⟩,
   ⟨0x3000, 128, 0x0C, 1, 1, false, 1, 1, 1, 0, 0, 15, 0x0, 1, 1, 0x3⟩,
   ⟨0x3000, 128, 0x0D, 2, 2, false, 1, 1, 2, 0, 100, 3000, 0x0, 1, 2, 0x1C2⟩,
   ⟨0x3000, 128, 0x0E, 1, 1, false, 1, 2, 1, 0, 1, 1, 0x0, 1, 1, 0x0⟩,
   ⟨0x3000, 128, 0x0F, 3, 4, false, 1, 1, 1, 0, 0, 2000000000, 0x0, 1, 4, 0x1C9C380⟩,
   ⟨0x3000, 128, 0x10, 3, 4, false, 1, 0, 0, 0, 0, 4294967295, 0x0, 1, 4, 0x0⟩,
   ⟨0x3000, 128, 0x11, 3, 4, false, 1, 0, 0, 0, 0, 4294967295, 0x0, 1, 4, 0x0⟩,
   ⟨0x3000, 128, 0x12, 3, 4, false, 1, 0, 0, 0, 0, 4294967295, 0x0, 1, 4, 0x0⟩,
   ⟨0x3000, 128, 0x13, 3, 4, false, 1, 0, 0, 0, 0, 4294967295, 0x0, 1, 4, 0x0⟩,
   ⟨0x3000, 128, 0x14, 3, 4, false, 1, 0, 0, 0, 0, 4294967295, 0x0, 1, 4, 0x0⟩]

/-- Part 1 of the parameter rows of band Bank. -/
def tableBank1 : List Desc :=
  [⟨0x3000, 128, 0x15, 7, 4, false, 1, 0, 0, 0, 1056964608, 1073741824, 0x0, 1, 4, 0x3F800000⟩,
   ⟨0x3000, 128, 0x16, 5, 2, false, 1, 0, 0, 0, (-32768), 32767, 0x0, 1, 2, 0x0⟩,
   ⟨0x3000, 128, 0x17, 5, 2, false, 1, 0, 0, 0, (-32768), 32767, 0x0, 1, 2, 0x0⟩,
   ⟨0x3000, 128, 0x18, 9, 1, false, 1, 0, 0, 0, 0, 0, 0x1FF, 1, 1, 0x0⟩,
   ⟨0x3000, 128, 0x19, 10, 1, false, 1, 0, 0, 0, 0, 0, 0x0, 0, 1, 0x0⟩,
   ⟨0x3000, 128, 0x1A, 11, 8, false, 1, 0, 0, 0, 0, 18446744073709551615, 0x0, 1, 8, 0x0⟩,
   ⟨0x3000, 128, 0x1B, 12, 40, false, 1, 0, 0, 0, 0, 0, 0x0, 0, 1, 0x0⟩,
   ⟨0x3080, 16, 0x01, 9, 1, false, 1, 1, 3, 0, 0, 0, 0x3, 1, 1, 0x0⟩,
   ⟨0x3080, 16, 0x02, 2, 2, false, 1, 1, 2, 0, 2000, 16000, 0x0, 1, 2, 0x3E80⟩,
   ⟨0x3080, 16, 0x03, 1, 1, false, 1, 1, 1, 0, 0, 3, 0x0, 1, 1, 0x1⟩,
   ⟨0x3080, 16, 0x04, 2, 2, false, 1, 1, 1, 0, 10, 1000, 0x0, 1, 2, 0x64⟩,
   ⟨0x3080, 16, 0x05, 1, 1, false, 1, 2, 1, 0, 1, 1, 0x0, 1, 1, 0x0⟩,
   ⟨0x3080, 16, 0x08, 9, 1, false, 1, 0, 0, 0, 0, 0, 0x7F, 1, 1, 0x0⟩,
   ⟨0x3080, 16, 0x09, 2, 2, false, 1, 0, 0, 0, 0, 65535, 0x0, 1, 2, 0x0⟩,
   ⟨0x3080, 16, 0x0A, 12, 16, false, 1, 0, 0, 0, 0, 0, 0x0, 0, 1, 0x0⟩,
   ⟨0x3090, 1, 0x01, 8, 1, false, 1, 1, 3, 0, 0, 0, 0x0, 1, 1, 0x1⟩,
   ⟨0x3090, 1, 0x02, 2, 2, false, 1, 1, 1, 0, 36000, 60000, 0x0, 1, 2, 0xD6D8⟩,
   ⟨0x3090, 1, 0x03, 2, 2, false, 1, 3, 4, 0, 0, 4700, 0x0, 1, 2, 0x0⟩,
   ⟨0x3090, 1, 0x04, 2, 2, false, 1, 1, 1, 0, 1000, 32000, 0x0, 1, 2, 0x4E20⟩,
   ⟨0x3090, 1, 0x05, 2, 2, false, 1, 1, 1, 0, 0, 20000, 0x0, 1, 2, 0x2710⟩]

/-- Part 2 of the parameter rows of band Bank. -/
def tableBank2 : List Desc :=
  [⟨0x3090, 1, 0x06, 2, 2, false, 1, 1, 1, 0, 500, 5000, 0x0, 1, 2, 0x5DC⟩,
   ⟨0x3090, 1, 0x07, 2, 2, false, 1, 1, 1, 0, 1000, 50000, 0x0, 1, 2, 0x2710⟩,
   ⟨0x3090, 1, 0x08, 2, 2, false, 1, 0, 0, 0, 0, 65535, 0x0, 1, 2, 0x0⟩,
   ⟨0x3090, 1, 0x09, 6, 4, false, 1, 0, 0, 0, (-2147483648), 2147483647, 0x0, 1, 4, 0x0⟩,
   ⟨0x3090, 1, 0x0A, 9, 1, false, 1, 0, 0, 0, 0, 0, 0x3F, 1, 1, 0x0⟩,
   ⟨0x3090, 1, 0x0B, 10, 1, false, 1, 0, 0, 0, 0, 0, 0x0, 0, 1, 0x0⟩,
   ⟨0x3090, 1, 0x0C, 9, 1, false, 1, 0, 0, 0, 0, 0, 0xF, 1, 1, 0x0⟩,
   ⟨0x3090, 1, 0x0D, 2, 2, false, 1, 0, 0, 0, 0, 65535, 0x0, 1, 2, 0x1D6⟩,
   ⟨0x3090, 1, 0x0E, 12, 32, false, 1, 0, 0, 0, 0, 0, 0x0, 0, 1, 0x0⟩,
   ⟨0x3090, 1, 0x0F, 3, 4, false, 1, 0, 0, 0, 0, 4294967295, 0x0, 1, 4, 0x0⟩,
   ⟨0x3098, 4, 0x01, 9, 1, false, 1, 0, 0, 0, 0, 0, 0x7, 1, 1, 0x0⟩,
   ⟨0x3098, 4, 0x02, 1, 1, false, 1, 0, 0, 0, 0, 4, 0x0, 1, 1, 0x0⟩,
   ⟨0x3098, 4, 0x03, 1, 1, false, 1, 0, 0, 0, 0, 32, 0x0, 1, 1, 0x0⟩,
   ⟨0x3098, 4, 0x04, 3, 4, false, 1, 0, 0, 0, 0, 4294967295, 0x0, 1, 4, 0x0⟩,
   ⟨0x3098, 4, 0x05, 3, 4, false, 1, 0, 0, 0, 0, 4294967295, 0x0, 1, 4, 0x0⟩,
   ⟨0x3098, 4, 0x06, 3, 4, false, 1, 0, 0, 0, 0, 4294967295, 0x0, 1, 4, 0x0⟩,
   ⟨0x3098, 4, 0x07, 11, 8, false, 1, 0, 0, 0, 0, 18446744073709551615, 0x0, 1, 8, 0x0⟩,
   ⟨0x3098, 4, 0x08, 9, 1, false, 1, 0, 0, 0, 0, 0, 0x1F, 1, 1, 0x0⟩,
   ⟨0x309F, 1, 0x01, 12, 256, false, 1, 3, 4, 0, 0, 0, 0x0, 256, 1, 0x0⟩,
   ⟨0x309F, 1, 0x02, 5, 2, false, 1, 1, 1, 0, (-400), 850, 0x0, 1, 2, 0x190⟩]

/-- Part 3 of the parameter rows of band Bank. -/
def tableBank3 : List Desc :=
  [⟨0x309F, 1, 0x03, 2, 2, false, 1, 1, 2, 0, 0, 500, 0x0, 1, 2, 0x3C⟩]

/-- The parameter rows from 0x3000 to 0x30FF. -/
def tableBank : List Desc :=
  tableBank0 ++ tableBank1 ++ tableBank2 ++ tableBank3

/-- Part 0 of the parameter rows of band Whorl. -/
def tableWhorl0 : List Desc :=
  [⟨0x3100, 8, 0x01, 8, 1, false, 1, 1, 3, 0, 0, 0, 0x0, 1, 1, 0x0⟩,
   ⟨0x3100, 8, 0x02, 3, 4, false, 1, 1, 3, 0, 100000, 10000000, 0x0, 1, 4, 0xF4240⟩,
   ⟨0x3100, 8, 0x03, 3, 4, false, 1, 1, 3, 0, 0, 4294967295, 0x0, 1, 4, 0x0⟩,
   ⟨0x3100, 8, 0x04, 10, 2, false, 1, 1, 3, 0, 0, 0, 0xFFFF, 1, 2, 0x1111⟩,
   ⟨0x3100, 8, 0x05, 12, 96, false, 1, 1, 3, 0, 0, 0, 0x0, 96, 1, 0x0⟩,
   ⟨0x3100, 8, 0x06, 12, 8, false, 1, 1, 3, 0, 0, 0, 0x0, 8, 1, 0x0⟩,
   ⟨0x3100, 8, 0x07, 12, 4, false, 1, 1, 3, 0, 0, 0, 0x0, 4, 1, 0x0⟩,
   ⟨0x3100, 8, 0x08, 12, 4, false, 1, 1, 3, 0, 0, 0, 0x0, 4, 1, 0x0⟩,
   ⟨0x3100, 8, 0x09, 1, 1, false, 1, 1, 3, 0, 1, 8, 0x0, 1, 1, 0x8⟩,
   ⟨0x3100, 8, 0x0A, 8, 1, false, 1, 1, 3, 0, 0, 0, 0x0, 1, 1, 0x1⟩,
   ⟨0x3100, 8, 0x0B, 9, 1, false, 1, 1, 3, 0, 0, 0, 0x3F, 1, 1, 0x4⟩,
   ⟨0x3100, 8, 0x0C, 12, 28, false, 1, 1, 1, 7, (-2139095039), 2139095039, 0x0, 28, 1, 0x0⟩,
   ⟨0x3100, 8, 0x0D, 7, 4, false, 1, 1, 1, 0, 0, 2139095039, 0x0, 1, 4, 0x0⟩,
   ⟨0x3100, 8, 0x0E, 12, 256, false, 1, 1, 1, 7, (-2139095039), 2139095039, 0x0, 256, 1, 0x0⟩,
   ⟨0x3100, 8, 0x0F, 9, 1, false, 1, 1, 1, 0, 0, 0, 0x7, 1, 1, 0x0⟩,
   ⟨0x3100, 8, 0x10, 12, 16, false, 1, 1, 1, 7, (-2139095039), 2139095039, 0x0, 16, 1, 0x0⟩,
   ⟨0x3100, 8, 0x11, 12, 8, false, 1, 1, 1, 7, (-2139095039), 2139095039, 0x0, 8, 1, 0x0⟩,
   ⟨0x3100, 8, 0x12, 12, 8, false, 1, 1, 1, 7, (-2139095039), 2139095039, 0x0, 2, 4, 0xCE6E6B28⟩,
   ⟨0x3100, 8, 0x13, 12, 8, false, 1, 1, 1, 7, (-2139095039), 2139095039, 0x0, 2, 4, 0x4E6E6B28⟩,
   ⟨0x3100, 8, 0x14, 12, 8, false, 1, 1, 1, 7, (-2139095039), 2139095039, 0x0, 8, 1, 0x0⟩]

/-- Part 1 of the parameter rows of band Whorl. -/
def tableWhorl1 : List Desc :=
  [⟨0x3100, 8, 0x15, 12, 8, false, 1, 1, 1, 7, (-2139095039), 2139095039, 0x0, 8, 1, 0x0⟩,
   ⟨0x3100, 8, 0x16, 12, 16, false, 1, 1, 1, 7, (-2139095039), 2139095039, 0x0, 16, 1, 0x0⟩,
   ⟨0x3100, 8, 0x17, 3, 4, false, 1, 1, 1, 0, 0, 10000, 0x0, 1, 4, 0x1F4⟩,
   ⟨0x3100, 8, 0x18, 9, 1, false, 1, 1, 3, 0, 0, 0, 0x3, 1, 1, 0x0⟩,
   ⟨0x3100, 8, 0x19, 9, 1, false, 1, 1, 1, 0, 0, 0, 0x3, 1, 1, 0x0⟩,
   ⟨0x3100, 8, 0x1A, 9, 1, false, 1, 1, 1, 0, 0, 0, 0x3, 1, 1, 0x1⟩,
   ⟨0x3100, 8, 0x1B, 12, 16, false, 1, 1, 1, 7, (-2139095039), 2139095039, 0x0, 16, 1, 0x0⟩,
   ⟨0x3100, 8, 0x1C, 1, 1, false, 1, 1, 1, 0, 1, 100, 0x0, 1, 1, 0xA⟩,
   ⟨0x3100, 8, 0x1D, 1, 1, false, 1, 2, 1, 0, 1, 1, 0x0, 1, 1, 0x0⟩,
   ⟨0x3100, 8, 0x20, 9, 1, false, 1, 0, 0, 0, 0, 0, 0xFF, 1, 1, 0x0⟩,
   ⟨0x3100, 8, 0x21, 1, 1, false, 1, 0, 0, 0, 0, 7, 0x0, 1, 1, 0x0⟩,
   ⟨0x3100, 8, 0x22, 10, 1, false, 1, 0, 0, 0, 0, 0, 0x0, 0, 1, 0x0⟩,
   ⟨0x3100, 8, 0x23, 12, 8, false, 1, 0, 0, 0, 0, 0, 0x0, 0, 1, 0x0⟩,
   ⟨0x3100, 8, 0x24, 12, 8, false, 1, 0, 0, 0, 0, 0, 0x0, 0, 1, 0x0⟩,
   ⟨0x3100, 8, 0x25, 12, 8, false, 1, 0, 0, 0, 0, 0, 0x0, 0, 1, 0x0⟩,
   ⟨0x3100, 8, 0x26, 12, 16, false, 1, 0, 0, 0, 0, 0, 0x0, 0, 1, 0x0⟩,
   ⟨0x3100, 8, 0x27, 12, 16, false, 1, 0, 0, 0, 0, 0, 0x0, 0, 1, 0x0⟩,
   ⟨0x3100, 8, 0x28, 12, 16, false, 1, 0, 0, 0, 0, 0, 0x0, 0, 1, 0x0⟩,
   ⟨0x3100, 8, 0x29, 12, 32, false, 1, 0, 0, 0, 0, 0, 0x0, 0, 1, 0x0⟩,
   ⟨0x3100, 8, 0x2A, 12, 16, false, 1, 0, 0, 0, 0, 0, 0x0, 0, 1, 0x0⟩]

/-- Part 2 of the parameter rows of band Whorl. -/
def tableWhorl2 : List Desc :=
  [⟨0x3100, 8, 0x2B, 12, 32, false, 1, 0, 0, 0, 0, 0, 0x0, 0, 1, 0x0⟩,
   ⟨0x3100, 8, 0x2C, 11, 8, false, 1, 0, 0, 0, 0, 18446744073709551615, 0x0, 1, 8, 0x0⟩,
   ⟨0x3100, 8, 0x2D, 2, 2, false, 1, 0, 0, 0, 0, 65535, 0x0, 1, 2, 0x0⟩,
   ⟨0x3100, 8, 0x2E, 12, 32, false, 1, 0, 0, 0, 0, 0, 0x0, 0, 1, 0x0⟩,
   ⟨0x3200, 1, 0x01, 2, 2, false, 1, 0, 0, 0, 0, 1000, 0x0, 1, 2, 0x0⟩,
   ⟨0x3200, 1, 0x02, 3, 4, false, 1, 0, 0, 0, 0, 4294967295, 0x0, 1, 4, 0x0⟩,
   ⟨0x3210, 64, 0x01, 12, 800, false, 1, 1, 1, 7, (-2139095039), 2139095039, 0x0, 800, 1, 0x0⟩,
   ⟨0x3210, 64, 0x02, 12, 804, true, 4, 2, 1, 0, 0, 0, 0x0, 0, 1, 0x0⟩,
   ⟨0x3210, 64, 0x03, 12, 800, false, 1, 0, 0, 0, 0, 0, 0x0, 0, 1, 0x0⟩,
   ⟨0x3210, 64, 0x04, 1, 1, false, 1, 0, 0, 0, 0, 200, 0x0, 1, 1, 0x0⟩]

/-- The parameter rows from 0x3100 to 0x33FF. -/
def tableWhorl : List Desc :=
  tableWhorl0 ++ tableWhorl1 ++ tableWhorl2

/-- Part 0 of the parameter rows of band Out. -/
def tableOut0 : List Desc :=
  [⟨0x3400, 16, 0x01, 9, 1, false, 1, 1, 3, 0, 0, 0, 0x7FFFFF, 1, 1, 0x0⟩,
   ⟨0x3400, 16, 0x02, 9, 1, false, 1, 1, 3, 0, 0, 0, 0x3, 1, 1, 0x0⟩,
   ⟨0x3400, 16, 0x03, 3, 4, false, 1, 1, 2, 0, 1600, 16000000, 0x0, 1, 4, 0x1F40⟩,
   ⟨0x3400, 16, 0x04, 2, 2, false, 1, 1, 2, 0, 0, 10000, 0x0, 1, 2, 0x1F4⟩,
   ⟨0x3400, 16, 0x05, 2, 2, false, 1, 1, 2, 0, 0, 60000, 0x0, 1, 2, 0xFA⟩,
   ⟨0x3400, 16, 0x06, 9, 1, false, 1, 1, 2, 0, 0, 0, 0x3, 1, 1, 0x0⟩,
   ⟨0x3400, 16, 0x07, 9, 1, false, 1, 1, 3, 0, 0, 0, 0x1FFFF, 1, 1, 0x0⟩,
   ⟨0x3400, 16, 0x08, 2, 2, false, 1, 1, 3, 0, 0, 65535, 0x0, 1, 2, 0x0⟩,
   ⟨0x3400, 16, 0x09, 3, 4, false, 1, 1, 3, 0, 0, 4294967295, 0x0, 1, 4, 0x0⟩,
   ⟨0x3400, 16, 0x0A, 3, 4, false, 1, 1, 2, 0, 0, 4294967295, 0x0, 1, 4, 0x0⟩,
   ⟨0x3400, 16, 0x10, 3, 4, false, 1, 0, 0, 0, 0, 4294967295, 0x0, 1, 4, 0x0⟩,
   ⟨0x3400, 16, 0x11, 3, 4, false, 1, 0, 0, 0, 0, 4294967295, 0x0, 1, 4, 0x0⟩,
   ⟨0x3400, 16, 0x12, 11, 8, false, 1, 0, 0, 0, 0, 18446744073709551615, 0x0, 1, 8, 0x0⟩,
   ⟨0x3400, 16, 0x13, 11, 8, false, 1, 0, 0, 0, 0, 18446744073709551615, 0x0, 1, 8, 0x0⟩,
   ⟨0x3400, 16, 0x14, 4, 8, false, 1, 0, 0, 0, 0, 18446744073709551615, 0x0, 1, 8, 0x0⟩,
   ⟨0x3400, 16, 0x15, 12, 20, false, 1, 0, 0, 0, 0, 0, 0x0, 0, 1, 0x0⟩,
   ⟨0x3400, 16, 0x16, 10, 1, false, 1, 0, 0, 0, 0, 0, 0x0, 0, 1, 0x0⟩,
   ⟨0x3400, 16, 0x17, 9, 1, false, 1, 0, 0, 0, 0, 0, 0x7, 1, 1, 0x0⟩,
   ⟨0x3500, 4, 0x01, 8, 1, false, 1, 1, 3, 0, 0, 0, 0x0, 1, 1, 0x0⟩,
   ⟨0x3500, 4, 0x02, 9, 1, false, 1, 1, 3, 0, 0, 0, 0x7, 1, 1, 0x0⟩]

/-- Part 1 of the parameter rows of band Out. -/
def tableOut1 : List Desc :=
  [⟨0x3500, 4, 0x03, 9, 1, false, 1, 1, 3, 0, 0, 0, 0x7, 1, 1, 0x0⟩,
   ⟨0x3500, 4, 0x04, 3, 4, false, 1, 1, 2, 0, 0, 2000000, 0x0, 1, 4, 0x16E360⟩,
   ⟨0x3500, 4, 0x05, 3, 4, false, 1, 1, 2, 0, 0, 2000000, 0x0, 1, 4, 0x16E360⟩,
   ⟨0x3500, 4, 0x06, 1, 1, false, 1, 1, 2, 0, 10, 100, 0x0, 1, 1, 0x64⟩,
   ⟨0x3500, 4, 0x07, 2, 2, false, 1, 1, 1, 0, 500, 12000, 0x0, 1, 2, 0xFA0⟩,
   ⟨0x3500, 4, 0x08, 2, 2, false, 1, 1, 1, 0, 100, 20000, 0x0, 1, 2, 0x1770⟩,
   ⟨0x3500, 4, 0x09, 2, 2, false, 1, 3, 4, 0, 500, 60000, 0x0, 1, 2, 0x1388⟩,
   ⟨0x3500, 4, 0x0A, 2, 2, false, 1, 3, 4, 0, 10, 60000, 0x0, 1, 2, 0x7D0⟩,
   ⟨0x3500, 4, 0x0B, 2, 2, false, 1, 1, 3, 0, 100, 2000, 0x0, 1, 2, 0x1F4⟩,
   ⟨0x3500, 4, 0x0C, 2, 2, false, 1, 1, 1, 0, 0, 1000, 0x0, 1, 2, 0x0⟩,
   ⟨0x3500, 4, 0x0D, 2, 2, false, 1, 1, 1, 0, 1000, 50000, 0x0, 1, 2, 0x1388⟩,
   ⟨0x3500, 4, 0x0E, 9, 1, false, 1, 1, 1, 0, 0, 0, 0x3, 1, 1, 0x0⟩,
   ⟨0x3500, 4, 0x0F, 1, 1, false, 1, 1, 1, 0, 0, 15, 0x0, 1, 1, 0x0⟩,
   ⟨0x3500, 4, 0x10, 1, 1, false, 1, 1, 1, 0, 0, 15, 0x0, 1, 1, 0x3⟩,
   ⟨0x3500, 4, 0x11, 2, 2, false, 1, 1, 1, 0, 10, 1000, 0x0, 1, 2, 0x64⟩,
   ⟨0x3500, 4, 0x12, 1, 1, false, 1, 2, 1, 0, 1, 1, 0x0, 1, 1, 0x0⟩,
   ⟨0x3500, 4, 0x18, 9, 1, false, 1, 0, 0, 0, 0, 0, 0x7F, 1, 1, 0x0⟩,
   ⟨0x3500, 4, 0x19, 6, 4, false, 1, 0, 0, 0, (-2147483648), 2147483647, 0x0, 1, 4, 0x0⟩,
   ⟨0x3500, 4, 0x1A, 9, 1, false, 1, 0, 0, 0, 0, 0, 0x1F, 1, 1, 0x0⟩,
   ⟨0x3500, 4, 0x1B, 10, 1, false, 1, 0, 0, 0, 0, 0, 0x0, 0, 1, 0x0⟩]

/-- Part 2 of the parameter rows of band Out. -/
def tableOut2 : List Desc :=
  [⟨0x3500, 4, 0x1C, 12, 16, false, 1, 0, 0, 0, 0, 0, 0x0, 0, 1, 0x0⟩,
   ⟨0x3508, 2, 0x01, 8, 1, false, 1, 1, 3, 0, 0, 0, 0x0, 1, 1, 0x0⟩,
   ⟨0x3508, 2, 0x02, 9, 1, false, 1, 1, 3, 0, 0, 0, 0x3, 1, 1, 0x0⟩,
   ⟨0x3508, 2, 0x03, 1, 1, false, 1, 1, 3, 0, 0, 5, 0x0, 1, 1, 0x0⟩,
   ⟨0x3508, 2, 0x04, 2, 2, false, 1, 1, 3, 0, 100, 5000, 0x0, 1, 2, 0x1F4⟩,
   ⟨0x3508, 2, 0x05, 2, 2, false, 1, 1, 1, 0, 500, 5000, 0x0, 1, 2, 0x7D0⟩,
   ⟨0x3508, 2, 0x06, 2, 2, false, 1, 1, 1, 0, 500, 5000, 0x0, 1, 2, 0x7D0⟩,
   ⟨0x3508, 2, 0x07, 2, 2, false, 1, 3, 4, 0, 100, 10000, 0x0, 1, 2, 0x3E8⟩,
   ⟨0x3508, 2, 0x08, 3, 4, false, 1, 1, 1, 0, 1000, 200000, 0x0, 1, 4, 0x249F0⟩,
   ⟨0x3508, 2, 0x09, 8, 1, false, 1, 1, 3, 0, 0, 0, 0x0, 1, 1, 0x1⟩,
   ⟨0x3508, 2, 0x0A, 1, 1, false, 1, 1, 1, 0, 5, 100, 0x0, 1, 1, 0x14⟩,
   ⟨0x3508, 2, 0x0B, 2, 2, false, 1, 1, 1, 0, 50, 5000, 0x0, 1, 2, 0x1F4⟩,
   ⟨0x3508, 2, 0x0C, 1, 1, false, 1, 1, 1, 0, 0, 15, 0x0, 1, 1, 0x3⟩,
   ⟨0x3508, 2, 0x0D, 2, 2, false, 1, 1, 1, 0, 10, 1000, 0x0, 1, 2, 0x64⟩,
   ⟨0x3508, 2, 0x0E, 1, 1, false, 1, 2, 1, 0, 1, 1, 0x0, 1, 1, 0x0⟩,
   ⟨0x3508, 2, 0x18, 9, 1, false, 1, 0, 0, 0, 0, 0, 0x1F, 1, 1, 0x0⟩,
   ⟨0x3508, 2, 0x19, 6, 4, false, 1, 0, 0, 0, (-2147483648), 2147483647, 0x0, 1, 4, 0x0⟩,
   ⟨0x3508, 2, 0x1A, 10, 1, false, 1, 0, 0, 0, 0, 0, 0x0, 0, 1, 0x0⟩,
   ⟨0x3508, 2, 0x1B, 12, 16, false, 1, 0, 0, 0, 0, 0, 0x0, 0, 1, 0x0⟩,
   ⟨0x3600, 16, 0x01, 8, 1, false, 1, 1, 3, 0, 0, 0, 0x0, 1, 1, 0x0⟩]

/-- Part 3 of the parameter rows of band Out. -/
def tableOut3 : List Desc :=
  [⟨0x3600, 16, 0x02, 9, 1, false, 1, 1, 3, 0, 0, 0, 0x3, 1, 1, 0x0⟩,
   ⟨0x3600, 16, 0x03, 8, 1, false, 1, 1, 3, 0, 0, 0, 0x0, 1, 1, 0x0⟩,
   ⟨0x3600, 16, 0x04, 2, 2, false, 1, 1, 2, 0, 2000, 50000, 0x0, 1, 2, 0x4E20⟩,
   ⟨0x3600, 16, 0x05, 2, 2, false, 1, 1, 1, 0, 1, 1000, 0x0, 1, 2, 0x32⟩,
   ⟨0x3600, 16, 0x06, 2, 2, false, 1, 3, 4, 0, 0, 20000, 0x0, 1, 2, 0x2710⟩,
   ⟨0x3600, 16, 0x07, 1, 1, false, 1, 1, 1, 0, 0, 15, 0x0, 1, 1, 0x8⟩,
   ⟨0x3600, 16, 0x08, 9, 1, false, 1, 1, 1, 0, 0, 0, 0x7, 1, 1, 0x0⟩,
   ⟨0x3600, 16, 0x09, 9, 1, false, 1, 1, 1, 0, 0, 0, 0x3, 1, 1, 0x0⟩,
   ⟨0x3600, 16, 0x0A, 1, 1, false, 1, 1, 1, 0, 10, 40, 0x0, 1, 1, 0x14⟩,
   ⟨0x3600, 16, 0x0B, 1, 1, false, 1, 1, 1, 0, 0, 15, 0x0, 1, 1, 0x3⟩,
   ⟨0x3600, 16, 0x0C, 2, 2, false, 1, 1, 1, 0, 10, 10000, 0x0, 1, 2, 0x64⟩,
   ⟨0x3600, 16, 0x0D, 2, 2, false, 1, 1, 1, 0, 1000, 60000, 0x0, 1, 2, 0x2710⟩,
   ⟨0x3600, 16, 0x0E, 2, 2, false, 1, 1, 1, 0, 100, 60000, 0x0, 1, 2, 0x3E8⟩,
   ⟨0x3600, 16, 0x0F, 2, 2, false, 1, 3, 4, 0, 0, 800, 0x0, 1, 2, 0x0⟩,
   ⟨0x3600, 16, 0x10, 9, 1, false, 1, 1, 1, 0, 0, 0, 0x3, 1, 1, 0x0⟩,
   ⟨0x3600, 16, 0x11, 10, 1, false, 1, 2, 1, 0, 0, 0, 0x3, 1, 1, 0x0⟩,
   ⟨0x3600, 16, 0x12, 2, 2, false, 1, 1, 1, 0, 0, 2000, 0x0, 1, 2, 0x32⟩,
   ⟨0x3600, 16, 0x18, 9, 1, false, 1, 0, 0, 0, 0, 0, 0x1FF, 1, 1, 0x0⟩,
   ⟨0x3600, 16, 0x19, 2, 2, false, 1, 0, 0, 0, 0, 65535, 0x0, 1, 2, 0x0⟩,
   ⟨0x3600, 16, 0x1A, 5, 2, false, 1, 0, 0, 0, (-32768), 32767, 0x0, 1, 2, 0x0⟩]

/-- Part 4 of the parameter rows of band Out. -/
def tableOut4 : List Desc :=
  [⟨0x3600, 16, 0x1B, 1, 1, false, 1, 0, 0, 0, 0, 16, 0x0, 1, 1, 0x0⟩,
   ⟨0x3600, 16, 0x1C, 10, 1, false, 1, 0, 0, 0, 0, 0, 0x0, 0, 1, 0x0⟩,
   ⟨0x3600, 16, 0x1D, 12, 20, false, 1, 0, 0, 0, 0, 0, 0x0, 0, 1, 0x0⟩,
   ⟨0x3600, 16, 0x1E, 2, 2, false, 1, 0, 0, 0, 0, 65535, 0x0, 1, 2, 0x0⟩,
   ⟨0x3610, 1, 0x01, 2, 2, false, 1, 0, 0, 0, 0, 1500, 0x0, 1, 2, 0x5DC⟩,
   ⟨0x3610, 1, 0x02, 2, 2, false, 1, 0, 0, 0, 0, 1500, 0x0, 1, 2, 0x0⟩,
   ⟨0x3610, 1, 0x03, 3, 4, false, 1, 0, 0, 0, 0, 4294967295, 0x0, 1, 4, 0x0⟩]

/-- The parameter rows from 0x3400 to 0x3FFF. -/
def tableOut : List Desc :=
  tableOut0 ++ tableOut1 ++ tableOut2 ++ tableOut3 ++ tableOut4

/-- Part 0 of the parameter rows of band High. -/
def tableHigh0 : List Desc :=
  [⟨0x4000, 1, 0x01, 2, 2, false, 1, 1, 1, 0, 10, 1000, 0x0, 1, 2, 0x64⟩,
   ⟨0x4000, 1, 0x02, 2, 2, false, 1, 1, 1, 0, 10, 60000, 0x0, 1, 2, 0x3E8⟩,
   ⟨0x4001, 1, 0x01, 10, 1, false, 1, 1, 1, 0, 0, 0, 0xF, 1, 1, 0x8⟩,
   ⟨0x4001, 1, 0x02, 12, 64, true, 2, 1, 1, 0, 0, 0, 0x0, 0, 1, 0x0⟩,
   ⟨0x4001, 1, 0x03, 10, 1, false, 1, 1, 1, 0, 0, 0, 0x7, 1, 1, 0x7⟩,
   ⟨0x4002, 1, 0x01, 3, 4, false, 1, 1, 1, 0, 0, 4294967295, 0x0, 1, 4, 0x0⟩,
   ⟨0x4002, 1, 0x02, 3, 4, false, 1, 1, 1, 0, 0, 4294967295, 0x0, 1, 4, 0x0⟩,
   ⟨0x4002, 1, 0x03, 12, 65488, true, 1, 0, 0, 0, 0, 0, 0x0, 0, 1, 0x0⟩,
   ⟨0x4002, 1, 0x04, 12, 65488, true, 1, 0, 0, 0, 0, 0, 0x0, 0, 1, 0x0⟩,
   ⟨0x4002, 1, 0x05, 9, 1, false, 1, 1, 1, 0, 0, 0, 0xF, 1, 1, 0x0⟩,
   ⟨0x4003, 1, 0x01, 12, 64, false, 1, 0, 0, 0, 0, 0, 0x0, 0, 1, 0x0⟩,
   ⟨0x4003, 1, 0x02, 1, 1, false, 1, 2, 1, 0, 1, 1, 0x0, 1, 1, 0x0⟩,
   ⟨0x4004, 1, 0x01, 9, 1, false, 1, 0, 0, 0, 0, 0, 0x7, 1, 1, 0x0⟩,
   ⟨0x4004, 1, 0x02, 1, 1, false, 1, 0, 0, 0, 0, 128, 0x0, 1, 1, 0x0⟩,
   ⟨0x4004, 1, 0x03, 3, 4, false, 1, 0, 0, 0, 0, 4294967295, 0x0, 1, 4, 0x0⟩,
   ⟨0x4004, 1, 0x04, 3, 4, false, 1, 0, 0, 0, 0, 4294967295, 0x0, 1, 4, 0x0⟩,
   ⟨0x4004, 1, 0x05, 2, 2, false, 1, 0, 0, 0, 0, 8192, 0x0, 1, 2, 0x0⟩,
   ⟨0x4004, 1, 0x06, 2, 2, false, 1, 0, 0, 0, 0, 8192, 0x0, 1, 2, 0x0⟩,
   ⟨0x4004, 1, 0x07, 12, 16, false, 1, 0, 0, 0, 0, 0, 0x0, 0, 1, 0x0⟩,
   ⟨0x4004, 1, 0x08, 12, 24, false, 1, 0, 0, 0, 0, 0, 0x0, 0, 1, 0x0⟩]

/-- Part 1 of the parameter rows of band High. -/
def tableHigh1 : List Desc :=
  [⟨0x4010, 8, 0x01, 12, 128, true, 4, 1, 2, 0, 0, 0, 0x0, 0, 1, 0x0⟩,
   ⟨0x4010, 8, 0x02, 12, 32, true, 2, 1, 2, 0, 0, 0, 0x0, 0, 1, 0x0⟩,
   ⟨0x4100, 1, 0x01, 2, 2, false, 1, 1, 1, 0, 0, 200, 0x0, 1, 2, 0x64⟩,
   ⟨0x4100, 1, 0x02, 9, 1, false, 1, 1, 1, 0, 0, 0, 0x3, 1, 1, 0x1⟩,
   ⟨0x4100, 1, 0x03, 9, 1, false, 1, 1, 1, 0, 0, 0, 0x3, 1, 1, 0x1⟩,
   ⟨0x4100, 1, 0x04, 9, 1, false, 1, 1, 1, 0, 0, 0, 0x3, 1, 1, 0x0⟩,
   ⟨0x4100, 1, 0x05, 9, 1, false, 1, 1, 1, 0, 0, 0, 0x3, 1, 1, 0x0⟩,
   ⟨0x4100, 1, 0x06, 9, 1, false, 1, 1, 1, 0, 0, 0, 0x3, 1, 1, 0x0⟩,
   ⟨0x4100, 1, 0x08, 1, 1, false, 1, 2, 1, 0, 1, 1, 0x0, 1, 1, 0x0⟩,
   ⟨0x4101, 1, 0x01, 10, 4, false, 1, 0, 0, 0, 0, 0, 0x0, 0, 1, 0x0⟩,
   ⟨0x4101, 1, 0x02, 12, 512, true, 16, 0, 0, 0, 0, 0, 0x0, 0, 1, 0x0⟩,
   ⟨0x4101, 1, 0x03, 12, 80, false, 1, 0, 0, 0, 0, 0, 0x0, 0, 1, 0x0⟩,
   ⟨0x4101, 1, 0x04, 3, 4, false, 1, 0, 0, 0, 0, 4294967295, 0x0, 1, 4, 0x0⟩,
   ⟨0x4101, 1, 0x05, 11, 8, false, 1, 0, 0, 0, 0, 18446744073709551615, 0x0, 1, 8, 0x0⟩,
   ⟨0x4101, 1, 0x06, 11, 8, false, 1, 0, 0, 0, 0, 18446744073709551615, 0x0, 1, 8, 0x0⟩,
   ⟨0x4102, 1, 0x01, 10, 2, false, 1, 1, 1, 0, 0, 0, 0xFFFF, 1, 2, 0x0⟩,
   ⟨0x4102, 1, 0x02, 2, 2, false, 1, 1, 1, 0, 5, 200, 0x0, 1, 2, 0x14⟩,
   ⟨0x4102, 1, 0x03, 8, 1, false, 1, 1, 1, 0, 0, 0, 0x0, 1, 1, 0x1⟩,
   ⟨0x4102, 1, 0x08, 10, 2, false, 1, 0, 0, 0, 0, 0, 0x0, 0, 1, 0x0⟩,
   ⟨0x4102, 1, 0x09, 9, 1, false, 1, 0, 0, 0, 0, 0, 0x7, 1, 1, 0x0⟩]

/-- Part 2 of the parameter rows of band High. -/
def tableHigh2 : List Desc :=
  [⟨0x4200, 1, 0x01, 9, 1, false, 1, 2, 1, 0, 0, 0, 0x3E, 1, 1, 0x0⟩,
   ⟨0x4200, 1, 0x02, 2, 2, false, 1, 1, 1, 0, 0, 16547, 0x0, 1, 2, 0x0⟩,
   ⟨0x4200, 1, 0x03, 2, 2, false, 1, 1, 1, 0, 1, 16548, 0x0, 1, 2, 0x1⟩,
   ⟨0x4201, 1, 0x01, 9, 1, false, 1, 0, 0, 0, 0, 0, 0x7, 1, 1, 0x0⟩,
   ⟨0x4201, 1, 0x02, 2, 2, false, 1, 0, 0, 0, 0, 16547, 0x0, 1, 2, 0x0⟩,
   ⟨0x4201, 1, 0x03, 12, 24, false, 1, 0, 0, 0, 0, 0, 0x0, 0, 1, 0x0⟩,
   ⟨0x4201, 1, 0x04, 2, 2, false, 1, 0, 0, 0, 36, 16547, 0x0, 1, 2, 0x0⟩,
   ⟨0x4201, 1, 0x05, 2, 2, false, 1, 0, 0, 0, 0, 65535, 0x0, 1, 2, 0x0⟩,
   ⟨0x4201, 1, 0x06, 2, 2, false, 1, 1, 1, 0, 0, 16547, 0x0, 1, 2, 0x0⟩,
   ⟨0x4201, 1, 0x07, 12, 32768, true, 8, 0, 0, 0, 0, 0, 0x0, 0, 1, 0x0⟩,
   ⟨0x4201, 1, 0x08, 12, 96, false, 1, 0, 0, 0, 0, 0, 0x0, 0, 1, 0x0⟩,
   ⟨0x4202, 1, 0x01, 9, 1, false, 1, 0, 0, 0, 0, 0, 0x1F, 1, 1, 0x0⟩,
   ⟨0x4202, 1, 0x02, 12, 68, false, 1, 2, 1, 0, 0, 0, 0x0, 0, 1, 0x0⟩,
   ⟨0x4202, 1, 0x03, 10, 1, false, 1, 0, 0, 0, 0, 0, 0x0, 0, 1, 0x0⟩,
   ⟨0x4202, 1, 0x04, 12, 64, false, 1, 2, 1, 0, 0, 0, 0x0, 0, 1, 0x0⟩,
   ⟨0x4202, 1, 0x05, 1, 1, false, 1, 0, 0, 0, 0, 128, 0x0, 1, 1, 0x0⟩,
   ⟨0x4202, 1, 0x06, 9, 1, false, 1, 0, 0, 0, 0, 0, 0x8000000000000000000000000000000000000000000000000000000000000014, 1, 1, 0xFF⟩,
   ⟨0x4300, 4, 0x01, 9, 1, false, 1, 0, 0, 0, 0, 0, 0x7F, 1, 1, 0x0⟩,
   ⟨0x4300, 4, 0x02, 9, 1, false, 1, 0, 0, 0, 0, 0, 0x7F, 1, 1, 0x0⟩,
   ⟨0x4300, 4, 0x03, 9, 1, false, 1, 0, 0, 0, 0, 0, 0x3, 1, 1, 0x0⟩]

/-- Part 3 of the parameter rows of band High. -/
def tableHigh3 : List Desc :=
  [⟨0x4300, 4, 0x04, 12, 256, false, 1, 0, 0, 0, 0, 0, 0x0, 0, 1, 0x0⟩,
   ⟨0x4300, 4, 0x05, 12, 256, false, 1, 0, 0, 0, 0, 0, 0x0, 0, 1, 0x0⟩,
   ⟨0x4300, 4, 0x06, 3, 4, false, 1, 0, 0, 0, 0, 4294967295, 0x0, 1, 4, 0x0⟩,
   ⟨0x4300, 4, 0x07, 2, 2, false, 1, 0, 0, 0, 0, 128, 0x0, 1, 2, 0x0⟩,
   ⟨0x4300, 4, 0x08, 1, 1, false, 1, 0, 0, 0, 0, 2, 0x0, 1, 1, 0x0⟩,
   ⟨0x4310, 1, 0x01, 12, 8, false, 1, 2, 1, 0, 0, 0, 0x0, 0, 1, 0x0⟩,
   ⟨0x4310, 1, 0x02, 12, 65536, true, 1, 2, 1, 0, 0, 0, 0x0, 0, 1, 0x0⟩,
   ⟨0x4310, 1, 0x03, 12, 24, false, 1, 0, 0, 0, 0, 0, 0x0, 0, 1, 0x0⟩,
   ⟨0x4400, 1, 0x01, 9, 1, false, 1, 0, 0, 0, 0, 0, 0x1FF, 1, 1, 0x1⟩,
   ⟨0x4400, 1, 0x02, 9, 1, false, 1, 2, 1, 0, 0, 0, 0x3E, 1, 1, 0x0⟩,
   ⟨0x4400, 1, 0x03, 9, 1, false, 1, 0, 0, 0, 0, 0, 0x1FF, 1, 1, 0x0⟩,
   ⟨0x4400, 1, 0x04, 11, 8, false, 1, 0, 0, 0, 0, 18446744073709551615, 0x0, 1, 8, 0x0⟩,
   ⟨0x4400, 1, 0x05, 9, 1, false, 1, 0, 0, 0, 0, 0, 0xF, 1, 1, 0x0⟩,
   ⟨0x4400, 1, 0x06, 1, 1, false, 1, 0, 0, 0, 0, 7, 0x0, 1, 1, 0x0⟩,
   ⟨0x4400, 1, 0x08, 2, 2, false, 1, 1, 1, 0, 0, 30000, 0x0, 1, 2, 0xBB8⟩,
   ⟨0x4400, 1, 0x09, 8, 1, false, 1, 1, 1, 0, 0, 0, 0x0, 1, 1, 0x0⟩,
   ⟨0x4400, 1, 0x0A, 2, 2, false, 1, 1, 1, 0, 1000, 60000, 0x0, 1, 2, 0x2710⟩,
   ⟨0x4401, 1, 0x01, 9, 1, false, 1, 0, 0, 0, 0, 0, 0xF, 1, 1, 0x0⟩,
   ⟨0x4401, 1, 0x02, 12, 32, false, 1, 0, 0, 0, 0, 0, 0x0, 0, 1, 0x0⟩,
   ⟨0x4401, 1, 0x03, 12, 32, false, 1, 0, 0, 0, 0, 0, 0x0, 0, 1, 0x0⟩]

/-- Part 4 of the parameter rows of band High. -/
def tableHigh4 : List Desc :=
  [⟨0x4401, 1, 0x04, 2, 2, false, 1, 0, 0, 0, 0, 512, 0x0, 1, 2, 0x0⟩,
   ⟨0x4401, 1, 0x05, 12, 2048, true, 4, 0, 0, 0, 0, 0, 0x0, 0, 1, 0x0⟩,
   ⟨0x4401, 1, 0x06, 1, 1, false, 1, 2, 1, 0, 1, 1, 0x0, 1, 1, 0x0⟩,
   ⟨0x4401, 1, 0x07, 9, 1, false, 1, 0, 0, 0, 0, 0, 0x3F, 1, 1, 0x0⟩,
   ⟨0x4401, 1, 0x08, 12, 4, false, 1, 0, 0, 0, 0, 0, 0x0, 0, 1, 0x0⟩,
   ⟨0x4401, 1, 0x09, 11, 8, false, 1, 0, 0, 0, 0, 18446744073709551615, 0x0, 1, 8, 0x0⟩,
   ⟨0x4401, 1, 0x0A, 3, 4, false, 1, 0, 0, 0, 0, 4294967295, 0x0, 1, 4, 0x0⟩,
   ⟨0x4401, 1, 0x0B, 3, 4, false, 1, 0, 0, 0, 0, 4294967295, 0x0, 1, 4, 0x0⟩,
   ⟨0x4401, 1, 0x0C, 12, 8, false, 1, 0, 0, 0, 0, 0, 0x0, 0, 1, 0x0⟩,
   ⟨0x4401, 1, 0x0D, 12, 16, false, 1, 0, 0, 0, 0, 0, 0x0, 0, 1, 0x0⟩,
   ⟨0x4402, 1, 0x01, 12, 262144, true, 1, 2, 1, 0, 0, 0, 0x0, 0, 1, 0x0⟩,
   ⟨0x4402, 1, 0x02, 12, 16, false, 1, 0, 0, 0, 0, 0, 0x0, 0, 1, 0x0⟩,
   ⟨0x4403, 1, 0x01, 2, 2, false, 1, 1, 1, 0, 0, 65535, 0x0, 1, 2, 0x0⟩,
   ⟨0x4403, 1, 0x02, 12, 1280, true, 40, 0, 0, 0, 0, 0, 0x0, 0, 1, 0x0⟩,
   ⟨0x4403, 1, 0x03, 2, 2, false, 1, 0, 0, 0, 0, 65535, 0x0, 1, 2, 0x0⟩,
   ⟨0x4410, 16, 0x01, 8, 1, false, 1, 1, 2, 0, 0, 0, 0x0, 1, 1, 0x0⟩,
   ⟨0x4410, 16, 0x02, 9, 1, false, 1, 1, 2, 0, 0, 0, 0x7, 1, 1, 0x0⟩,
   ⟨0x4410, 16, 0x03, 2, 2, false, 1, 1, 2, 0, 1, 60000, 0x0, 1, 2, 0x64⟩,
   ⟨0x4410, 16, 0x04, 2, 2, false, 1, 1, 2, 0, 0, 65535, 0x0, 1, 2, 0x0⟩,
   ⟨0x4410, 16, 0x05, 12, 128, true, 4, 1, 2, 0, 0, 0, 0x0, 0, 1, 0x0⟩]

/-- Part 5 of the parameter rows of band High. -/
def tableHigh5 : List Desc :=
  [⟨0x4410, 16, 0x08, 3, 4, false, 1, 0, 0, 0, 0, 4294967295, 0x0, 1, 4, 0x0⟩,
   ⟨0x4410, 16, 0x09, 3, 4, false, 1, 0, 0, 0, 0, 4294967295, 0x0, 1, 4, 0x0⟩]

/-- The parameter rows from 0x4000 to 0x4FFF. -/
def tableHigh : List Desc :=
  tableHigh0 ++ tableHigh1 ++ tableHigh2 ++ tableHigh3 ++ tableHigh4 ++ tableHigh5

/-- The rows of the band that holds an index (R370). -/
def tableOf (idx : Nat) : List Desc :=
  if idx < 0x2000 then tableLow else if idx < 0x2200 then tableMotion else if idx < 0x3000 then tablePlan
  else if idx < 0x3100 then tableBank else if idx < 0x3400 then tableWhorl else if idx < 0x4000 then tableOut
  else tableHigh

/-- The whole table. -/
def tableAll : List Desc :=
  tableLow ++ tableMotion ++ tablePlan ++ tableBank ++ tableWhorl ++ tableOut ++ tableHigh

end Sys2Proof.Machine
end

