-- ==== Sys2Proof/Machine/Param.lean ====
section
/-! DEFINITION. Parameters by number (R369, R370): their description, their default bytes, and the value in use, image
value and store of R372, R373 and R379. -/

namespace Sys2Proof.Machine

/-- The value of a key in an association list. -/
def alookup {α : Type} (k : Nat) : List (Nat × α) → Option α
  | [] => none
  | p :: ps => if p.1 = k then some p.2 else alookup k ps

/-- An association list with a key's value put in; the list stays free of repeats. -/
def aput {α : Type} (k : Nat) (v : α) (l : List (Nat × α)) : List (Nat × α) :=
  (k, v) :: l.filter (fun p => p.1 != k)

/-- The key of a parameter. -/
def pkey (idx sub : Nat) : Nat := idx * 256 + sub

/-- Whether a row describes this index and sub-index. -/
def Desc.covers (d : Desc) (idx sub : Nat) : Bool :=
  decide (d.base ≤ idx) && decide (idx < d.base + d.count) && d.sub == sub

/-- The description of a parameter, if a chapter defines it. -/
def findDesc (idx sub : Nat) : Option Desc := (tableOf idx).find? (fun d => d.covers idx sub)

/-- Whether an index is in use (R370). -/
def indexInUse (idx : Nat) : Bool :=
  (tableOf idx).any (fun d => decide (d.base ≤ idx) && decide (idx < d.base + d.count))

/-- The highest sub-index in use at an index (R369). -/
def highestSub (idx : Nat) : Nat :=
  (tableOf idx).foldl (fun m d => if d.base ≤ idx ∧ idx < d.base + d.count then max m d.sub else m) 0

/-- The alarm codes that P 0x4001.02 lists by default (R449). -/
def defaultAlarms : Bytes :=
  [0x3009, 0x4004, 0x4007, 0x6002, 0x6003, 0x6005, 0x9001, 0x9003, 0xA002].flatMap (le 2)

/-- The default bytes of a described parameter: the row's repeated value, but for the parameters whose default the
manual gives as a list (P 0x1400.08, P 0x4001.02) or per index (P 0x205u.04). -/
def Desc.default (d : Desc) (idx : Nat) : Bytes :=
  if d.base = 0x1400 ∧ d.sub = 8 then [8000, 8000, 8000, 8000, 100000, 100000].flatMap (le 4)
  else if d.base = 0x4001 ∧ d.sub = 2 then defaultAlarms
  else if d.base = 0x2050 ∧ d.sub = 4 then [if idx = 0x2050 then 1 else 0]
  else (List.replicate d.dn (le d.dw d.dv)).flatten

/-- The default bytes of a parameter; empty where no chapter defines it. -/
def pDefault (idx sub : Nat) : Bytes :=
  match findDesc idx sub with
  | some d => d.default idx
  | none => []

/-- The default of a parameter, given the system voltage P 0x1402.01 that goes with it: P 0x1402.02 and .03 follow it
(R353). -/
def defaultFor (idx sub : Nat) (sys : Bytes) : Bytes :=
  if idx = 0x1402 ∧ sub = 2 ∧ leNat sys = 1 then le 2 18000
  else if idx = 0x1402 ∧ sub = 3 ∧ leNat sys = 1 then le 2 36000
  else pDefault idx sub

/-- The parameters of the blocks that run from BOOT, which act on their defaults until the host commits (R351, R366, R389, R449):
networks, supply and budget, thermal manager, Skein, supervisor, states. The time base follows every write (R50;
Assumption 29). -/
def untilCommit (idx : Nat) : Bool :=
  [0x12, 0x14, 0x15, 0x40, 0x41].contains (idx / 256) || idx == 0x4400

/-- The value in use: the value a class F write replaces until its boundary, else the stored value, else the default
(R373, R375); the default alone before the first COMMIT where R389 says so. -/
def Dict.inUse (d : Dict) (idx sub : Nat) : Bytes :=
  if !d.ever && untilCommit idx then defaultFor idx sub [0]
  else match alookup (pkey idx sub) d.old with
  | some p => p.1
  | none => (alookup (pkey idx sub) d.store).getD
      (defaultFor idx sub ((alookup (pkey 0x1402 1) d.store).getD [0]))

/-- The image value (R372): the staged value, else the stored value, else the default. -/
def Dict.image (d : Dict) (idx sub : Nat) : Bytes :=
  match alookup (pkey idx sub) d.staged with
  | some b => b
  | none => (alookup (pkey idx sub) d.store).getD
      (defaultFor idx sub ((alookup (pkey 0x1402 1) (d.staged ++ d.store)).getD [0]))

/-- Bytes of the value in use. -/
def State.pBytes (s : State) (idx sub : Nat) : Bytes := s.dict.inUse idx sub

/-- The value in use as a count. -/
def State.pN (s : State) (idx sub : Nat) : Nat := leNat (s.dict.inUse idx sub)

/-- The value in use as a signed value. -/
def State.pI (s : State) (idx sub : Nat) : Int := leInt (s.dict.inUse idx sub)

/-- The value in use as a Bool. -/
def State.pB (s : State) (idx sub : Nat) : Bool := s.pN idx sub == 1

/-- The value in use as a binary32 word. -/
def State.pF (s : State) (idx sub : Nat) : F32 := BitVec.ofNat 32 (s.pN idx sub)

/-- Element `i` of a block in use, of `w` bytes each. -/
def State.pEl (s : State) (idx sub w i : Nat) : Nat := natAt (s.dict.inUse idx sub) (w * i) w

/-- Element `i` of a block in use, signed. -/
def State.pElI (s : State) (idx sub w i : Nat) : Int := intAt (s.dict.inUse idx sub) (w * i) w

/-- Element `i` of a block in use as a binary32 word. -/
def State.pElF (s : State) (idx sub i : Nat) : F32 := BitVec.ofNat 32 (s.pEl idx sub 4 i)

/-! ### Faults (R452, R455, R458) -/

/-- The response of a fault detected now (R455, R471): 0 RECORD, 1 CONTAIN, 2 BARE, 3 SAFE. A warm reset of the management cores counts as
CONTAIN (Assumption 24). -/
def State.faultResponse (s : State) (code subj : Nat) : Nat :=
  match code with
  | 0xE001 => if subj = 0 then 1 else 3
  | 0xE002 => if subj = 255 then 3 else 1
  | 0xE003 => 1
  | 0xE004 => 1
  | 0xE005 => 1
  | 0xE006 => if s.pN 0x4100 5 = 1 then 3 else 1
  | 0xE007 => if s.pN 0x4100 4 = 1 then 3 else 1
  | 0xE00A => 0
  | 0xE00B => if s.pN 0x2200 0xC = 1 then 3 else 2
  | 0xE00C => if s.pN 0x4100 3 = 1 then 3 else 2
  | 0xE00F => if s.power.dev ≠ .run then 0 else if s.pN 0x4100 2 = 1 then 3 else 2
  | 0xE010 => 0
  | 0xE012 => if s.pN 0x4100 6 = 1 then 3 else 0
  | 0xE015 => 0
  | _ => 3

/-- A fault of the subject as it is detected at `t`. -/
def State.faultNow (s : State) (code subj : Nat) (det : Bytes) (t : IT) : Report :=
  ⟨code, t, subj, det, s.power.dev.code, s.faultResponse code subj⟩

/-- The fault reported to the supervisor (R452, R455), at time `t`. FAULT_DETECTED takes the oldest. -/
def State.reportAt (s : State) (code subj : Nat) (det : Bytes) (t : IT) : State :=
  { s with sup := { s.sup with reported := s.sup.reported ++ [s.faultNow code subj det t] } }

/-- The fault reported at the present time. -/
def State.report (s : State) (code subj : Nat) (det : Bytes) : State := s.reportAt code subj det s.it

/-- Whether a fault keeps its output out of service (R455): detected, and not yet cleared. -/
def State.contained (s : State) (code subj : Nat) : Bool :=
  s.faultActive code subj || s.sup.reported.any (fun r => r.code == code && r.subj == subj)

end Sys2Proof.Machine
end

