-- ==== Sys2Proof/Machine/Banks.lean ====
section
/-! DEFINITION. The nozzle drive banks (R210 to R247): pull-ins, closings, kink windows, delay learning, the opening model,
the coil thermal model, trips and latches, and drive-die resets. -/

namespace Sys2Proof.Machine

/-! ### Reading and changing a channel, bank or die -/

/-- Channel `n`. -/
def State.ch (s : State) (n : Nat) : Channel := vget s.chan n Channel.reset

/-- Channel `n` changed. -/
def State.modCh (s : State) (n : Nat) (f : Channel → Channel) : State := { s with chan := vmod s.chan n f }

/-- The edges handed over for channel `n` are discarded, also for a frame overrun that would put them back (R20). -/
def State.dropEdgesOf (s : State) (n : Nat) : State :=
  { s.modCh n (fun c => { c with edges := [] }) with undo := s.undo.map (fun u => { u with edges := vset u.edges n [] }) }

/-- Bank `b`. -/
def State.bank (s : State) (b : Nat) : Bank := vget s.banks b Bank.reset

/-- Bank `b` changed. -/
def State.modBank (s : State) (b : Nat) (f : Bank → Bank) : State := { s with banks := vmod s.banks b f }

/-- Drive die `d`. -/
def State.die (s : State) (d : Nat) : Die := vget s.dies d Die.reset

/-- Drive die `d` changed. -/
def State.modDie (s : State) (d : Nat) (f : Die → Die) : State := { s with dies := vmod s.dies d f }

/-- Counter `i` of a channel raised, saturating (P 0x3000+n.1B). -/
def Channel.count (c : Channel) (i : Nat) : Channel := { c with counters := vmod c.counters i (fun k => sat32 (k + 1)) }

/-- Counter `i` of a bank raised (P 0x3080+b.0A). -/
def Bank.count (b : Bank) (i : Nat) : Bank := { b with counters := vmod b.counters i (fun k => sat32 (k + 1)) }

/-- The channels of bank `b` (R210). -/
def bankChannels (b : Nat) : List Nat := (List.range 8).map (fun i => 8 * b + i)

/-- The channels of die `d`. -/
def dieChannels (d : Nat) : List Nat := (List.range 32).map (fun i => 32 * d + i)

/-- Whether channel `n` is the partner of a ply (R219). -/
def State.plyPartner (s : State) (n : Nat) : Bool := n % 2 == 1 && s.pB (0x3000 + (n - 1)) 2

/-- Whether channel `n` is enabled (P 0x3000+n.01); the configuration of a ply's partner has no effect (R219). -/
def State.chEnabled (s : State) (n : Nat) : Bool := s.pB (0x3000 + n) 1 && !(s.plyPartner n)

/-- The closing delay c of channel `n`: learned, or the one configured until the first accepted kink (R127, R230). -/
def State.closingDelay (s : State) (n : Nat) : Nat := if (s.ch n).accepted then (s.ch n).c else s.pN (0x3000 + n) 0xF

/-- Whether bank `b` pulls in from BOOST (R213). -/
def State.bankBoost (s : State) (b : Nat) : Bool := s.pN (0x3080 + b) 1 == 0

/-- Whether Bobbin is enabled: P 0x3090.01 and an enabled bank with source BOOST (R255). A bank counts as enabled while
one of its channels is. -/
def State.bobbinEnabled (s : State) : Bool :=
  s.pB 0x3090 1 && (List.range 16).any (fun b => s.bankBoost b && (bankChannels b).any (fun n => s.chEnabled n))

/-! ### The coil type (R245) -/

/-- Field of `w` bytes at offset `o` of the coil type of channel `n`. -/
def State.coil (s : State) (n o w : Nat) : Nat := natAt (s.pBytes 0x309F 1) (32 * s.pN (0x3000 + n) 3 + o) w

/-- A signed field of the coil type. -/
def State.coilI (s : State) (n o w : Nat) : Int := intAt (s.pBytes 0x309F 1) (32 * s.pN (0x3000 + n) 3 + o) w

/-- The coil's resistance at its winding temperature, in 10^-18 Ω (R220). -/
def State.coilRes (s : State) (n : Nat) : Int :=
  let f := one18 + 3930000000000000 * ((s.ch n).tw - 20000000000) / 1000000000
  (s.coil n 0 2 : Int) * f / 1000

/-- τ = l / res in ns. -/
def State.coilTau (s : State) (n : Nat) : Int :=
  let r := s.coilRes n
  if r ≤ 0 then 0 else (s.coil n 2 2 : Int) * 10000 * one18 / r

/-- t_pred of R220 in ns, for a source of `mv` and a peak of `ipk` mA. -/
def State.tPred (s : State) (n mv ipk : Nat) : Nat :=
  let drop := s.coilRes n * ipk
  let v : Int := (mv : Int) * one18
  if v ≤ drop then 10000000
  else min 10000000 (fxMul (s.coilTau n) (fxLn (fxDiv v (v - drop)))).toNat

/-- Travel time at a current of `i` mA: t_travel × (i_ref / i)² in ns (R220, R221). -/
def State.travel (s : State) (n i : Nat) : Nat :=
  let r := s.coil n 4 2
  if i = 0 then 0 else s.coil n 6 2 * 10000 * r * r / (i * i)

/-- The on-offset of nozzle `n` in ns (R127). -/
def State.onOffset (s : State) (n : Nat) : Nat := s.pEl 0x2201 3 2 n * 10000

/-- The off-offset of nozzle `n` in ns. -/
def State.offOffset (s : State) (n : Nat) : Nat := s.pEl 0x2201 4 2 n * 10000

/-! ### Observed spray intervals (R171) -/

/-- The spray intervals of an output changed. -/
def State.modSpray (s : State) (o : Nat) (f : List Spray → List Spray) : State :=
  { s with dis := { s.dis with sprays := vmod s.dis.sprays o f } }

/-- The interval of the pull-in or drive that began at `pull` begins at `t`; the newest stands last. Nothing but its closing
ends it: an armature that drops out in HOLD is not detected (R242). -/
def State.sprayStart (s : State) (o : Nat) (pull t : IT) : State :=
  s.modSpray o (fun l => l ++ [⟨pull, t, none, none, 0, false, t, false⟩])

/-- The closing command of the interval that runs. -/
def State.sprayCmd (s : State) (o : Nat) (t : IT) : State :=
  s.modSpray o (fun l => l.map (fun x => if x.cmd.isNone then { x with cmd := some t } else x))

/-- The observed end of the interval whose closing command was `c`, delivered from `since` on (R216 step 4, R174). -/
def State.sprayEnd (s : State) (o : Nat) (c t since : IT) (unobs : Bool) : State :=
  s.modSpray o (fun l => l.map (fun x =>
    if x.cmd = some c ∧ x.stop = none then { x with stop := some t, since := since, unobs := unobs } else x))

/-- An interval that never began, because its pull-in was stopped before its opening, is removed. -/
def State.sprayVoid (s : State) (o : Nat) (t : IT) : State :=
  s.modSpray o (fun l => l.filter (fun x => !(decide (t < x.start) && x.cmd.isNone)))

/-! ### The bank common (R211, R212) -/

/-- Whether bank `b` may not be driven: TRIPPED, OC-LATCHED or STUCK-OPEN. -/
def Bank.blocked (b : Bank) : Bool := b.tripTill.isSome || b.ocLatch || b.stuck

/-- Whether bank `b` is out of service: it may not be driven, or its fault has not been cleared (R455). -/
def State.bankOut (s : State) (b : Nat) : Bool := (s.bank b).blocked || s.contained 0xE004 b

/-- The common of bank `b` set as R212 lays down; while its die is RESETTING the switch stays as it stood (R240). -/
def State.setCommon (s : State) (b : Nat) : State :=
  if (s.die (b / 4)).state = 2 then s
  else
    let chs := bankChannels b
    let c := if s.bankOut b then 0
      else if s.bankBoost b && chs.any (fun n => (s.ch n).state == 1) then 2
      else if chs.any (fun n => (s.ch n).state != 0) then 1
      else 0
    s.modBank b (fun x => { x with common := c })

/-! ### Pull-in (R214, R221 to R224) -/

/-- The first handed-over opening edge of a channel. -/
def Channel.nextOpen (c : Channel) : Option DieEdge := c.edges.find? (·.opens)

/-- The first handed-over closing edge of a channel. -/
def Channel.nextClose (c : Channel) : Option DieEdge := c.edges.find? (fun e => !e.opens)

/-- Whether a pull-in due on channel `n` is NOT-OPENED (R224), for a granted percentage (R223). -/
def State.pullRefused (s : State) (n pct : Nat) : Bool :=
  let c := s.ch n
  c.ocLatch || c.stuck || c.tripped || s.contained 0xE003 n || s.bankOut (n / 8) || (s.die (n / 32)).state == 2 ||
    decide (pct < s.pN (0x3000 + n) 5 ∧ pct < 100)

/-- Whether the bank switch has begun its move for channel `m`'s next pull-in at `t`, from 5 µs before its start on (R211). A
pull-in that is not made moves nothing. -/
def State.moveDue (s : State) (m t : Nat) : Bool :=
  match (s.ch m).nextOpen with
  | none => false
  | some e => decide (t ≤ e.it) && decide (e.it ≤ t + 5000) && s.chEnabled m && (s.ch m).state != 1 && (s.ch m).state != 2 &&
      !(s.pullRefused m e.pct)

/-- The state of bank `b`'s common at `t` (R211, R240): OPEN from 5 ms after a reset of its die, BOOST from the start of the
move for a pull-in, else as its switch was set last. -/
def State.commonAt (s : State) (b t : Nat) : Nat :=
  let d := s.die (b / 4)
  if d.state = 2 then (if d.last + 5000000 ≤ t then 0 else (s.bank b).common)
  else if !(s.bankOut b) && s.bankBoost b && (bankChannels b).any (fun m => s.moveDue m t) then 2
  else (s.bank b).common

/-- Whether the common of channel `n`'s bank counts as BOOST for its closing at `t` (R211, R218). -/
def State.boostAt (s : State) (n t : Nat) : Bool := s.commonAt (n / 8) t == 2

/-- The class F values of a channel in force: those of its pull-in from its start to its closing, else the ones its next
pull-in will take (R243). Peak, dwell, guard, hold, chopping frequency and granted share. -/
structure Drive where
  full  : Nat
  dwell : Nat
  guard : Nat
  hold  : Nat
  chop  : Nat
  pct   : Nat
  deriving DecidableEq, Repr

/-- The class F values that the next pull-in of channel `n` takes, with the share granted to it (R223, R243). -/
def State.nextDrive (s : State) (n pct : Nat) : Drive :=
  ⟨s.pN (0x3000 + n) 4, s.pN (0x3000 + n) 6, s.pN 0x309F 3, s.pN (0x3000 + n) 0xD, s.pN (0x3000 + n) 7, pct⟩

/-- The values in force for channel `n`. -/
def State.drive (s : State) (n : Nat) : Drive :=
  let c := s.ch n
  if c.state = 1 ∨ c.state = 2 then ⟨c.pull.full, c.pull.dwell, c.pull.guard, c.pull.hold, c.pull.chop, c.pull.pct⟩
  else s.nextDrive n (match c.nextOpen with | some e => e.pct | none => 100)

/-- The effective peak in mA (R223). -/
def Drive.ipk (d : Drive) : Nat := d.full * d.pct / 100

/-- The effective peak of a pull-in. -/
def PullIn.ipk (p : PullIn) : Nat := p.full * p.pct / 100

/-- The reach time modelled for a peak from a source of `mv` (R220). -/
def State.reachOf (s : State) (n mv ipk : Nat) : Nat := (s.ch n).g * s.tPred n mv ipk / 1000000000

/-- A closing of channel `n` that gets no kink window any more: its end is unobserved, with the closing delay that was in force at
its command (R171). -/
def State.loseWindow (s : State) (n : Nat) (cl : Closing) (t : IT) : State :=
  if !cl.window || cl.kink.isSome then s
  else (s.sprayEnd n cl.cmd (cl.cmd + cl.held + s.offOffset n) t true).modCh n (fun c => { c with
    closings := c.closings.map (fun x => if x.cmd = cl.cmd then { x with window := false, convOn := false } else x) })

/-- The pull-in of channel `n` at the stamped time of edge `e`, with the rail and the supply as measured at its start. One
that falls into a decay ends it: the kink window of that closing, which waits for the decay end, does not come. -/
def State.pullIn (s : State) (n : Nat) (e : DieEdge) (railMv supplyMv : Nat) : State :=
  let s := (s.at e.it).modCh n (fun c => { c with edges := c.edges.erase e })
  let c := s.ch n
  if c.state == 1 || c.state == 2 || !(s.chEnabled n) then s
  else if s.pullRefused n e.pct then s.modCh n (·.count 1)
  else
    let b := n / 8
    let d := s.nextDrive n e.pct
    let mv := if s.bankBoost b then railMv else supplyMv
    let ends := match (s.bank b).slots.find? (fun r => r.ch == n && r.start == e.it) with
      | some r => if e.it < r.ends then r.ends else e.it + c.pullTime
      | none => e.it + c.pullTime
    let p : PullIn := { start := e.it, ends := ends, full := d.full, pct := e.pct, dwell := d.dwell, guard := d.guard, hold := d.hold,
                        chop := d.chop, reach := none, tPred := s.tPred n mv d.ipk,
                        model := e.it + s.reachOf n mv d.ipk + s.travel n d.ipk,
                        atSrc := decide ((s.bank b).freeAt + 3000 ≤ e.it), opened := none }
    let s := (c.closings.filter (fun x => x.decayed.isNone)).foldl (fun s x => s.loseWindow n x e.it) s
    let s := s.modCh n (fun c => ({ c with
      state := 1, pull := p, closings := c.closings.filter (·.window), peakShort := false }).count 0)
    (s.modBank b (fun k => { k.count 0 with limit := s.pN (0x3080 + b) 2 })).setCommon b

/-- PULL_IN_START: the channel's first handed-over opening edge falls due. -/
def execPullInStart (n : Fin 128) (railMv supplyMv : Nat) (s : State) : Host.Outcome State Fault Refusal :=
  .next (match (s.ch n).nextOpen with
    | none => s
    | some e => s.pullIn n e railMv supplyMv)

/-- The rise factor after a pull-in (R222), in 10^-9. -/
def riseAfter (g : Nat) (reach tPred : Nat) : Nat :=
  if tPred = 0 then g
  else clampN 500000000 2000000000 ((g : Int) + rdiv ((reach * 1000000000 / tPred : Nat) - (g : Int)) 16).toNat

/-- PEAK_REACHED: the current reaches the effective peak at `t`; the opening for marking follows (R221), and g learns
(R222). -/
def execPeakReached (n : Fin 128) (t : IT) (s : State) : Host.Outcome State Fault Refusal :=
  .next (
    let c := s.ch n
    if c.state != 1 || c.pull.reach.isSome then s
    else
      let s := s.at t
      let reach := t - c.pull.start
      let o := t + s.travel n c.pull.ipk
      let g := if c.pull.atSrc && decide (100 ≤ c.pull.pct) then riseAfter c.g reach c.pull.tPred else c.g
      let s := s.modCh n (fun c => { c with g := g, pull := { c.pull with reach := some t, opened := some o } })
      s.sprayStart n c.pull.start (o + s.onOffset n))

/-- The arbiter's reservation for channel `n`'s pull-in given up (R328, R343): that of a pull-in that has begun; one granted for later
keeps its own. -/
def State.endReserve (s : State) (n : Nat) : State :=
  { s with budget := { s.budget with resvs := s.budget.resvs.filter (fun r => !(r.pull && r.who == n && decide (r.till ≤ s.it + 10000000))) } }

/-- PULL_IN_WINDOW_END: the window closes, the channel holds; a peak not reached by then is PEAK-SHORT (R214, R221). A
window that ends without current has no stated opening: it is a free value (Assumption 4). -/
def execPullInWindowEnd (n : Fin 128) (endMa : Nat) (s : State) : Host.Outcome State Fault Refusal :=
  .next (
    let c := s.ch n
    if c.state != 1 then s
    else
      let s := (s.at c.pull.ends).endReserve n
      let s := match c.pull.reach with
        | some _ => s.modCh n (fun c => { c with state := 2 })
        | none =>
          let o := c.pull.ends + (if endMa = 0 then s.drawn else s.travel n endMa)
          let s := if endMa = 0 then s.draw else s
          let s := s.modCh n (fun c =>
            ({ c with state := 2, peakShort := true, pull := { c.pull with opened := some o } }).count 8)
          s.sprayStart n c.pull.start (o + s.onOffset n)
      s.setCommon (n / 8))

/-! ### Closing (R216 to R218, R226 to R231) -/

/-- The kink window half-width of channel `n` in ns (R226). -/
def State.kinkHalf (s : State) (n : Nat) : Nat := s.pN (0x3000 + n) (if (s.ch n).accepted then 9 else 8) * 1000

/-- Whether a closing at SUPPLY recovers into the rail: the rail at least 4 V above the supply and not being discharged
(R216, R255). -/
def State.recovers (s : State) : Bool := decide (s.bob.supply + 4000 ≤ s.bob.rail) && !s.bob.discharging

/-- Whether a closing ends at the active clamp: its common at BOOST, the rail too high to take it, or no recovery while
Bobbin is enabled (R216, R218, R251). -/
def State.clamps (s : State) (boost : Bool) : Bool := boost || s.bob.railHigh || (s.bobbinEnabled && !s.recovers)

/-- What closes a channel: an edge command, the supervisor's switch command in BARE, another order of the supervisor (SAFE,
SHUTDOWN, a fault), a trip of the drive die, an over-current trip. -/
inductive CloseBy where
  | edge | switched | ordered | tripped | overCurrent
  deriving DecidableEq, Repr

/-- Whether a closing can be learned from, by what commanded it (R229). -/
def CloseBy.learns : CloseBy → Bool
  | .edge | .switched => true
  | .ordered | .tripped | .overCurrent => false

/-- Whether the drive die closed the channel by itself (R238). -/
def CloseBy.byDie : CloseBy → Bool
  | .tripped | .overCurrent => true
  | .edge | .switched | .ordered => false

/-- Channel `n` closes at `t` with the closing delay `c` held for it; `boost` tells whether its common counts as BOOST. A
closing before the opening modelled for a pull-in under way, or an over-current trip before its opening for marking, makes it
NOT-OPENED (R217, R224). Only one with its common at SUPPLY is learned (R229). -/
def State.closeWith (s : State) (n : Nat) (t : IT) (how : CloseBy) (c : Nat) (boost : Bool) : State :=
  let s := s.at t
  let x := s.ch n
  if x.state != 1 && x.state != 2 then s
  else
    let b := n / 8
    let clamp := s.clamps boost
    let opens := x.pull.opened.getD x.pull.model
    let early := decide (t < opens) && (x.state == 1 || how == .overCurrent)
    let w := s.kinkHalf n
    let cl : Closing :=
      { cmd := t, c := c, held := s.closingDelay n, decayed := none, opensAt := t + (c - w), endsAt := t + c + w, window := !early, convOn := false,
        clamped := clamp, learn := how.learns && x.state == 2 && !clamp && s.commonAt b t == 1, kink := none }
    let s := if early then s.sprayVoid n t
      else if x.pull.opened.isNone then (s.sprayStart n x.pull.start (opens + s.onOffset n)).sprayCmd n t
      else s.sprayCmd n t
    let s := s.modCh n (fun x =>
      let x := { x with state := 3, closings := x.closings ++ [cl], lastClamp := clamp, lastCmd := some t,
                        ocCount := if how.byDie then x.ocCount else 0,
                        dieClosed := if how.byDie then some t else x.dieClosed }
      let x := if early then x.count 1 else x
      if clamp then x.count 6 else x)
    let s := if clamp then s.modBank b (·.count 1) else s
    (s.endReserve n).setCommon b

/-- Channel `n` closes at `t` with the closing delay in force. -/
def State.closeCh (s : State) (n : Nat) (t : IT) (how : CloseBy) : State :=
  s.closeWith n t how (s.closingDelay n) (s.boostAt n t)

/-- Several channels close at one instant: the commons count as they stood before (R235, R241). -/
def State.closeTogether (s : State) (l : List Nat) (t : IT) (how : CloseBy) : State :=
  l.foldl (fun s' n => s'.closeWith n t how (s.closingDelay n) (s.boostAt n t)) s

/-- CLOSING_COMMAND: the channel's first handed-over closing edge falls due, with the closing delay of the frame that fixed it
(R226). -/
def execClosingCommand (n : Fin 128) (s : State) : Host.Outcome State Fault Refusal :=
  .next (match (s.ch n).nextClose with
    | none => s
    | some e =>
      let s := (s.at e.it).modCh n (fun c => { c with edges := c.edges.erase e })
      s.closeWith n e.it .edge e.c (s.boostAt n e.it))

/-- The recovery time of R225: the longest of the last 16 decays plus 20 µs, or the model before the first. -/
def State.recoveryNs (s : State) (n : Nat) : Nat :=
  let c := s.ch n
  if c.decays.isEmpty then
    let hold : Int := ((s.drive n).hold : Nat)
    let vd : Int := if s.bobbinEnabled && s.recovers then (s.bob.rail : Int) - s.bob.supply else 70000 - s.bob.supply
    if vd ≤ 0 then 20000
    else (fxMul (s.coilTau n) (fxLn (one18 + hold * s.coilRes n / vd))).toNat + 20000
  else c.decays.foldl max 0 + 20000

/-- A closing of channel `n`, named by its command, changed. -/
def State.modClosing (s : State) (n : Nat) (cmd : IT) (f : Closing → Closing) : State :=
  s.modCh n (fun c => { c with closings := c.closings.map (fun x => if x.cmd = cmd then f x else x) })

/-- The closing of a channel whose current still decays. -/
def Channel.decaying (c : Channel) : Option Closing :=
  if c.state = 3 then c.closings.find? (fun x => x.decayed.isNone) else none

/-- DECAY_END: the current falls below 20 mA at `t` (R216 step 2). A closing whose window has already closed is done with. -/
def execDecayEnd (n : Fin 128) (t : IT) (s : State) : Host.Outcome State Fault Refusal :=
  .next (match (s.ch n).decaying with
    | none => s
    | some cl =>
      let s := (s.at t).modClosing n cl.cmd (fun x => { x with decayed := some t, opensAt := max x.opensAt (t + 50000) })
      let s := s.modCh n (fun c => { c with
        state := 0, closings := c.closings.filter (fun x => x.window || x.decayed.isNone), decays := if cl.clamped then c.decays else ((t - cl.cmd) :: c.decays).take 16 })
      (s.modCh n (fun c => { c with recovery := s.recoveryNs n })).setCommon (n / 8))

/-- Whether a kink window lasts at `t`: until 100 µs after its kink, or its end (R227). -/
def Closing.lasts (cl : Closing) (t : IT) : Bool :=
  match cl.kink with
  | some k => decide (t < k + 100000)
  | none => decide (t < cl.endsAt)

/-- The converters of die `d` in use at `t`. -/
def State.convUsed (s : State) (d : Nat) (t : IT) : Nat :=
  ((dieChannels d).flatMap (fun n => (s.ch n).closings.filter (fun cl => cl.convOn && cl.lasts t))).length

/-- The kink windows of die `d` open or wanted at `t`. -/
def State.convWanted (s : State) (d : Nat) (t : IT) : Nat :=
  ((dieChannels d).flatMap (fun n => (s.ch n).closings.filter (fun cl =>
    cl.window && cl.decayed.isSome && decide (cl.opensAt ≤ t) && cl.lasts t))).length

/-- Whether a closing's kink window still waits to open: its decay is over and it has no converter. -/
def Closing.waits (cl : Closing) : Bool := cl.window && cl.decayed.isSome && !cl.convOn

/-- The kink windows of die `d` that open at or before `t`, a tie up to channel `n`: by opening time, then by channel (R227). -/
def State.windowsDue (s : State) (d : Nat) (t : IT) (n : Nat) : List (Nat × Closing) :=
  (((dieChannels d).flatMap (fun m => ((s.ch m).closings.filter (·.waits)).map (fun x => (m, x)))).filter (fun p =>
    decide (p.2.opensAt < t) || (p.2.opensAt == t && decide (p.1 ≤ n)))).mergeSort (fun p q =>
    decide (p.2.opensAt < q.2.opensAt) || (p.2.opensAt == q.2.opensAt && decide (p.1 ≤ q.1)))

/-- A kink window opens on a free converter of its die, or its closing is unobserved (R227). -/
def State.openWindow (s : State) (n : Nat) (cl : Closing) : State :=
  let d := n / 32
  let s := s.at cl.opensAt
  let free := decide (s.convUsed d cl.opensAt < 4)
  let want := s.convWanted d cl.opensAt
  let s := s.modDie d (fun x => { x with
    peak := max x.peak want, taken := if free then sat32 (x.taken + 1) else x.taken,
    unobs := if free then x.unobs else sat32 (x.unobs + 1) })
  if free then (s.modClosing n cl.cmd (fun x => { x with convOn := true })).modCh n (fun c => { c with lastUnobs := false })
  else (s.loseWindow n cl cl.opensAt).modCh n (fun c => ({ c with lastUnobs := true }).count 5)

/-- KINK_WINDOW_OPEN: the channel's next kink window opens, after those of its die that open before it. -/
def execKinkWindowOpen (n : Fin 128) (s : State) : Host.Outcome State Fault Refusal :=
  .next (match (s.ch n).closings.find? (·.waits) with
    | none => s
    | some cl => (s.windowsDue (n / 32) cl.opensAt n).foldl (fun s p => s.openWindow p.1 p.2) s)

/-- The index of the first kink in the 10 µs averages: the second difference reaches the threshold at i, and the kink is
at i - 1 (R228). -/
def kinkIndex (threshold : Nat) : List Int → Nat → Option Nat
  | a :: b :: c :: r, i =>
    if decide (threshold ≤ (c - 2 * b + a).natAbs) then some (i + 1) else kinkIndex threshold (b :: c :: r) (i + 1)
  | _, _ => none

/-- KINK_FOUND: the converter's averages from the window opening hold a kink (R228 to R231). Average i stands for
`opensAt` + 10 µs × i. The converter is released 100 µs after the kink, and the sample with it (R216 step 4). -/
def execKinkFound (n : Fin 128) (samples : List Int) (s : State) : Host.Outcome State Fault Refusal :=
  .next (match (s.ch n).closings.find? (fun cl => cl.convOn && cl.kink.isNone) with
    | none => s
    | some cl =>
      match kinkIndex (s.pN (0x3000 + n.val) 0xB) samples 0 with
      | none => s
      | some i =>
        let k := cl.opensAt + 10000 * i
        let s := (s.at k).modClosing n cl.cmd (fun x => { x with kink := some k })
        let s := s.modCh n (fun c => { c with
          misses := 0, kinkMiss := false, lastKink := k,
          sample := if cl.learn then c.sample ++ [(k + 100000, k - cl.cmd)] else c.sample })
        s.sprayEnd n cl.cmd (k + s.offOffset n) (k + 100000) false)

/-- KINK_WINDOW_CLOSE: a window that found no kink is MISSED; three in a row set KINK-MISSING and report ARMATURE (R231). A coil
that still decays goes on to its decay end (R216). -/
def execKinkWindowClose (n : Fin 128) (s : State) : Host.Outcome State Fault Refusal :=
  .next (match (s.ch n).closings.find? (·.window) with
    | none => s.modCh n (fun c => { c with closings := c.closings.filter (fun x => x.decayed.isNone) })
    | some cl =>
      let s := s.at cl.endsAt
      let found := cl.kink.isSome
      let s := s.loseWindow n cl cl.endsAt
      let m := (s.ch n).misses + 1
      let s := (s.modClosing n cl.cmd (fun x => { x with window := false, convOn := false })).modCh n (fun c => { c with
        closings := c.closings.filter (fun x => x.cmd != cl.cmd || x.decayed.isNone) })
      if found then s
      else
        let s := s.modCh n (fun c => ({ c with misses := m, kinkMiss := c.kinkMiss || decide (3 ≤ m) }).count 4)
        if 3 ≤ m then s.report 0xE007 n [] else s)

/-! ### Over-current, stuck outputs, trips (R234 to R238) -/

/-- The over-current threshold of channel `n` in mA: 1.5 times its peak, within the comparator's span (R234, R219). -/
def State.ocThreshold (s : State) (n : Nat) : Nat :=
  let i := (s.ch n).pull.full * 3 / 2
  if s.pB (0x3000 + n) 2 then clampN 2000 9000 i else clampN 1000 4500 i

/-- CHANNEL_OVER_CURRENT: the low-side switch of channel `n` opens after its current crossed `x.ma` (R234). A current up to
the threshold, or in the first microsecond from a switch-on, trips nothing. -/
def execChannelOverCurrent (n : Fin 128) (x : TripIn) (s : State) : Host.Outcome State Fault Refusal :=
  .next (
    let c := s.ch n
    if (c.state != 1 && c.state != 2) || decide (x.ma ≤ s.ocThreshold n) || decide (x.at_ < max c.pull.start x.onAt + 1000) then s
    else
      let s := s.closeCh n x.at_ .overCurrent
      let k := c.ocCount + 1
      let latch := decide (s.pN (0x3000 + n.val) 0xC < k)
      let s := s.modCh n (fun c => ({ c with ocCount := k, ocLatch := c.ocLatch || latch }).count 7)
      if latch then (s.record 0x6003 n []).report 0xE003 n [] else s)

/-- BANK_OVER_CURRENT: the bank switch trips, its current above the limit that the bank's last pull-in took from P 0x3080+b.02
(R243), and every driven channel of the bank closes (R235). -/
def execBankOverCurrent (b : Fin 16) (x : TripIn) (s : State) : Host.Outcome State Fault Refusal :=
  .next (
    if s.bankOut b || decide (x.ma ≤ (s.bank b).limit) then s
    else
      let t := x.at_
      let s := (s.at t).closeTogether (bankChannels b) t .overCurrent
      let trips := ((s.bank b).trips ++ [t]).filter (fun x => decide (t ≤ x + 10000000000))
      let latch := decide (s.pN (0x3080 + b.val) 3 < trips.length)
      let till := t + s.pN (0x3080 + b.val) 4 * 1000000
      let s := s.modBank b (fun x =>
        ({ x with trips := trips, ocLatch := x.ocLatch || latch, tripTill := some till }).count 2)
      (if latch then s.report 0xE004 b [] else s).setCommon b)

/-- BANK_RETRY_EXPIRY: the retry delay of a TRIPPED bank ends and the bank is available again (R235). -/
def execBankRetryExpiry (b : Fin 16) (s : State) : Host.Outcome State Fault Refusal :=
  .next (match (s.bank b).tripTill with
    | none => s
    | some t => ((s.at t).modBank b (fun x => { x with tripTill := none, freeAt := t })).setCommon b)

/-- CHANNEL_STUCK_ON: 1 ms after the last closing command of a channel it still conducts (R236). One that is driven again is
not judged. -/
def execChannelStuckOn (n : Fin 128) (s : State) : Host.Outcome State Fault Refusal :=
  .next (match (s.ch n).lastCmd with
    | none => s
    | some cmd =>
      if (s.ch n).state == 1 || (s.ch n).state == 2 then s
      else
        let b := n.val / 8
        let s := s.at (cmd + 1000000)
        let s := s.modCh n (fun c => { c with stuck := true })
        let s := (s.modBank b (fun x => ({ x with stuck := true }).count 3)).setCommon b
        s.report 0xE006 n [])

/-- BANK_SWITCH_FAULT: a bank commanded OPEN keeps its common above 2 V for 1 ms (R237). -/
def execBankSwitchFault (b : Fin 16) (t : IT) (s : State) : Host.Outcome State Fault Refusal :=
  .next (s.whenAwake fun s =>
    if s.commonAt b t != 0 then s
    else ((s.at t).modBank b (fun x => { x with swFault := true })).report 0xE006 (128 + b.val) [])

/-- Clears OC-LATCHED of channel `n` (P 0x3000+n.0E, R234). -/
def State.clearChannel (s : State) (n : Nat) : State := s.modCh n (fun c => { c with ocLatch := false, ocCount := 0 })

/-- Clears OC-LATCHED of bank `b` (P 0x3080+b.05, R235); STUCK-OPEN stays. -/
def State.clearBank (s : State) (b : Nat) : State :=
  (s.modBank b (fun x => { x with ocLatch := false, trips := [], freeAt := if x.ocLatch then s.it else x.freeAt })).setCommon b

/-- Bank `b` is available again from now on: its fault has been cleared (R455). -/
def State.bankBack (s : State) (b : Nat) : State := (s.modBank b (fun x => { x with freeAt := s.it })).setCommon b

/-! ### Drive-die reset (R239, R240) -/

/-- What a drive-die reset at `t` does to one channel: its low-side switch opens, its closings in progress lose their
windows, and a spray in progress ends unobserved with the reset IT as its command (R171). The edges handed over stay: a pull-in
that falls due while the die resets is NOT-OPENED (R224, R240). -/
def State.resetChannel (s : State) (t : IT) (n : Nat) : State :=
  let c := s.ch n
  let driven := c.state == 1 || c.state == 2
  let early := c.state == 1 && decide (t < c.pull.opened.getD c.pull.model)
  let clamp := driven && s.clamps false
  let delay := s.closingDelay n
  let s := c.closings.foldl (fun s x => s.loseWindow n x t) s
  let s := if !driven then s
    else if early then s.sprayVoid n t
    else
      let s := if c.pull.opened.isSome then s else s.sprayStart n c.pull.start (c.pull.model + s.onOffset n)
      (s.sprayCmd n t).sprayEnd n t (t + delay + s.offOffset n) t true
  let s := s.modCh n (fun c =>
    let c := { c with
      state := if driven then 3 else c.state,
      counters := vmod c.counters 1 (fun k => sat32 (k + b2n early)),
      closings := c.closings ++ (if driven then [⟨t, delay, delay, none, t, t, false, false, clamp, false, none⟩] else []),
      lastCmd := if driven then some t else c.lastCmd, dieClosed := some t }
    if driven then (let c := { c with lastClamp := clamp }
                    if clamp then c.count 6 else c) else c)
  let s := if clamp then s.modBank (n / 8) (·.count 1) else s
  if driven then s.endReserve n else s

/-- Drive die `d` resets at `t` with a cause of P 0x3098+d.08; more than two resets within 10 s raise DIE-UNSTABLE
(R464), and its temperature sensors are UNAVAILABLE from now (R359). Its bank switches open 5 ms later (`commonAt`). -/
def State.dieReset (s : State) (d : Nat) (cause : Nat) (t : IT) : State :=
  if (s.die d).state == 2 then s
  else
    let s := (dieChannels d).foldl (fun s n => s.resetChannel t n) (s.at t)
    let recent := ((s.die d).recent ++ [t]).filter (fun x => decide (t ≤ x + 10000000000))
    let s := s.modDie d (fun x => { x with
      state := 2, resets := sat32 (x.resets + 1), last := t, cause := cause, recent := recent })
    let s := { s with therm := { s.therm with unavail := vset s.therm.unavail d (some t) } }
    let s := s.recordAt 0x6005 d (le 1 cause) t
    if recent.length > 2 then s.report 0xE013 d [] else s

/-- EDGE_WORD_ERROR: a parity error, a sequence error or a watchdog expiry resets the die (R239). -/
def execEdgeWordError (d : Fin 4) (c : EdgeCause) (t : IT) (s : State) : Host.Outcome State Fault Refusal :=
  .next (if (s.die d).state == 1 then
      s.dieReset d (match c with | .parity => 1 | .sequence => 2 | .watchdog => 3) t
    else s)

/-- The pull-ins of channel `n` that fell due while its die was RESETTING are NOT-OPENED; what was handed over up to now is gone,
also for a frame overrun (R224, R240). -/
def State.missDue (s : State) (t : IT) (n : Nat) : State :=
  let late := fun (e : DieEdge) => decide (t < e.it)
  let s := s.modCh n (fun c => { c with
    edges := c.edges.filter late,
    counters := vmod c.counters 1 (fun k => sat32 (k + (c.edges.filter (fun e => e.opens && !late e)).length)) })
  { s with undo := s.undo.map (fun u => { u with edges := vmod u.edges n (·.filter late) }) }

/-- DIE_RESTART_DONE: the die runs again from its active slot, on the committed configuration and the copied thermal
nodes; its channels are off, and so are their decisions (R232, R238, R240). -/
def execDieRestartDone (d : Fin 4) (t : IT) (s : State) : Host.Outcome State Fault Refusal :=
  .next (if (s.die d).state != 2 then s
    else
      let s := (s.at t).modDie d (fun x => { x with state := 1 })
      let s := (dieChannels d).foldl (fun s n => (s.missDue t n).modCh n (fun c => { c with
        state := 0, closings := [], dieClosed := some t, tw := c.twCopy, tb := c.tbCopy })) s
      let s := (List.range 4).foldl (fun s i => (s.modBank (4 * d.val + i) (fun x => { x with freeAt := t })).setCommon (4 * d.val + i)) s
      { s with therm := { s.therm with unavail := vset s.therm.unavail d none } })

/-! ### The drive dies' part of a frame (R18 step 2) -/

/-- One learnable sample applied to the delay and spread of a channel (R230); the Bool says that a reseed happened. -/
def Channel.learn (c : Channel) (s0 x : Nat) : Channel × Bool :=
  if !c.accepted then
    (({ c with c := x, s := s0, accepted := true, rejects := [] }).count 2, false)
  else
    let d : Int := (x : Int) - c.c
    if decide (d.natAbs ≤ 3 * max c.s 50000) then
      (({ c with s := isqrt ((15 * c.s * c.s + d.natAbs * d.natAbs) / 16), c := ((c.c : Int) + rdiv d 16).toNat,
                 rejects := [] }).count 2, false)
    else
      let kept := c.rejects ++ [x]
      if kept.length < 8 then (({ c with rejects := kept }).count 3, false)
      else ((({ c with c := kept.foldl (· + ·) 0 / 8, s := s0, rejects := [] }).count 3).count 9, true)

/-- DELAY_LEARNING: the samples of channel `n` whose converters were released by now applied, with a DELAY-RESEED record for
a reseed (R230, R216 step 4). -/
def State.learnCh (s : State) (n : Nat) : State :=
  let s0 := s.pN (0x3000 + n) 0xA * 1000
  let due := fun (p : IT × Nat) => decide (p.1 ≤ s.it)
  (((s.ch n).sample.filter due).foldl (fun s x =>
    let (c, re) := (s.ch n).learn s0 x.2
    (s.modCh n (fun _ => c)).recordIf re 0x6004 n []) s).modCh n (fun c => { c with sample := c.sample.filter (fun p => !(due p)) })

/-- The predicted opening and pull-in time of an enabled channel (R220) for the rail and the supply of the boundary, at its
effective peak. -/
def State.predictCh (s : State) (n railMv supplyMv : Nat) : State :=
  if !(s.chEnabled n) then s
  else
    let d := s.drive n
    let reach := s.reachOf n (if s.bankBoost (n / 8) then railMv else supplyMv) d.ipk
    let pt := cdiv (reach + (d.guard + d.dwell) * 1000) 10000 * 10000
    s.modCh n (fun c => { c with opening := reach + s.travel n d.ipk, pullTime := pt, recovery := s.recoveryNs n })

/-- The power into the winding of channel `n` over a frame in µW: the mean of i² (mA²) times the modelled resistance, and the
clamp energy of 70 V times the charge (nC) that went through the clamp (R218, R232). -/
def State.coilPower (s : State) (n ma2 clampNc : Nat) : Int := (ma2 : Int) * s.coilRes n / one18 + 70 * clampNc

/-- One step of the two-node coil model (R232). Temperatures in 10^-9 °C. -/
def State.coilStep (s : State) (n ma2 clampNc : Nat) : State :=
  let cw := s.coil n 8 2
  let wb := s.coil n 10 2
  let cb := s.coil n 12 2
  let ba := s.coil n 14 2
  if !(s.chEnabled n) || cw = 0 || wb = 0 || cb = 0 || ba = 0 then s
  else
    let amb : Int := s.pI 0x309F 2 * 100000000
    let uw := s.coilPower n ma2 clampNc
    s.modCh n (fun c =>
      let tw := c.tw + rdiv (uw * 1000) cw - rdiv ((c.tw - c.tb) * 100) (wb * cw)
      let tb := c.tb + rdiv ((tw - c.tb) * 100 * ba - (c.tb - amb) * 100 * wb) (wb * ba * cb * 100)
      { c with tw := tw, tb := tb, twCopy := tw, tbCopy := tb })

/-- COIL_THRESHOLD: warn, cap and trip of an enabled channel's winding node at time `t` (R233). -/
def State.coilThreshold (s : State) (n : Nat) (t : IT) : State :=
  if !(s.chEnabled n) || s.coil n 0 2 = 0 then s
  else
    let c := s.ch n
    let warn : Int := s.coilI n 16 2 * 100000000
    let cap : Int := s.coilI n 18 2 * 100000000
    let trip : Int := s.coilI n 20 2 * 100000000
    let w := if decide (warn ≤ c.tw) then true else c.warn && decide (warn - 5000000000 ≤ c.tw)
    let p := if decide (cap ≤ c.tw) then true else c.cap && decide (cap - 5000000000 ≤ c.tw)
    let r := if decide (trip ≤ c.tw) then true else c.tripped && decide (warn ≤ c.tw)
    let s := s.modCh n (fun c => { c with warn := w, cap := p, tripped := r })
    let s := s.recordIf (w && !c.warn) 0x6001 n []
    if r && !c.tripped then (s.closeCh n t .tripped).record 0x6002 n [] else s

/-- The hold current of channel `n` in mA: 0.8 of it under COIL-CAP, never below 100 mA (R233). -/
def State.holdMa (s : State) (n : Nat) : Nat :=
  let i := (s.drive n).hold
  if (s.ch n).cap then max 100 (i * 8 / 10) else i

/-- What the sequencer drives a channel with in HOLD (R215): the current in mA and the band kept about it, the chopping period
and the channel's phase in it in ns, and whether the channel stays fully on because its common lies below hold current times
modelled resistance. -/
structure HoldDrive where
  ma     : Nat
  band   : Nat
  period : Nat
  phase  : Nat
  fullOn : Bool
  deriving DecidableEq, Repr

/-- The hold of channel `n`, none in another state. The common's voltage is the one measured at the last boundary. -/
def State.holdDrive (s : State) (n : Nat) : Option HoldDrive :=
  if (s.ch n).state ≠ 2 then none
  else
    let i := s.holdMa n
    let p := 1000000 / max 1 (s.drive n).chop
    let mv := if s.commonAt (n / 8) s.it = 2 then s.bob.rail else s.bob.supply
    some ⟨i, max (i / 20) 20, p, n % 8 * p / 8, decide ((mv : Int) * one18 < (i : Int) * s.coilRes n)⟩

/-- HOLD-SHORT of channel `n` (R215). -/
def State.holdShort (s : State) (n : Nat) : Bool := match s.holdDrive n with | some h => h.fullOn | none => false

/-- The state code of P 0x3000+n.18. -/
def State.chCode (s : State) (n : Nat) : Nat :=
  let c := s.ch n
  if s.plyPartner n then 4 else if c.stuck then 6 else if c.ocLatch then 5 else if c.tripped then 7
  else if !(s.chEnabled n) then 8 else c.state

/-- The state code of P 0x3080+b.08 at the present time. -/
def State.bankCode (s : State) (b : Nat) : Nat :=
  let x := s.bank b
  if x.stuck then 5 else if x.ocLatch then 4 else if x.tripTill.isSome then 3 else if x.swFault then 6 else s.commonAt b s.it

end Sys2Proof.Machine
end

