-- ==== Sys2Proof/Machine/Budget.lean ====
section
/-! DEFINITION. The supply current budget (R341 to R351) with the part of the load switches it acts on: turning off and
being shed (R324, R326, R346). Energies in µJ, charge rate in µW, currents in mA. -/

namespace Sys2Proof.Machine

/-! ### The clamp reservoir and turning a switch off (R324) -/

/-- Load switch `j`. -/
def State.ld (s : State) (j : Nat) : Load := vget s.loads.sw j Load.reset

/-- Load switch `j` changed. -/
def State.modLd (s : State) (j : Nat) (f : Load → Load) : State :=
  { s with loads := { s.loads with sw := vmod s.loads.sw j f } }

/-- Counter `i` of a load switch raised (P 0x3600+j.1D). -/
def Load.count (l : Load) (i : Nat) : Load := { l with counters := vmod l.counters i (fun k => sat32 (k + 1)) }

/-- The energy all switches have reserved, in nJ. -/
def Loads.reserved (l : Loads) : Nat := l.sw.toList.foldl (fun a x => a + x.resv) 0

/-- The reservoir brought to `t`: 5 nJ per ns up to 1,500 mJ less what is reserved. -/
def State.refill (s : State) (t : IT) : State :=
  { s with loads := { s.loads with
      avail := min (1500000000 - s.loads.reserved) (s.loads.avail + 5 * (t - s.loads.at_)), at_ := max t s.loads.at_ } }

/-- The clamp reservation of switch `j` released: the reservoir regains it at the refill rate. -/
def State.releaseClamp (s : State) (j : Nat) : State := (s.refill s.it).modLd j (fun l => { l with resv := 0 })

/-- Switch `j` goes off through its clamp, or gives up waiting to go on. -/
def State.loadOff (s : State) (j : Nat) : State :=
  (s.releaseClamp j).modLd j (fun l => { l with
    on := false, locked := false, shed := false, waitTill := none, held := false, openLoad := false, limiting := false })

/-! ### The arbiter (R342 to R346) -/

/-- The arbiter's answer (R342). A delay is in ns. -/
inductive Verdict where
  | granted
  | deferred (ns : Nat)
  | limited (pct : Nat)
  | shed
  deriving DecidableEq, Repr

/-- The outcome code of an answer. -/
def Verdict.code : Verdict → Nat
  | .granted => 0 | .deferred _ => 1 | .limited _ => 2 | .shed => 3

/-- The outcome word of R342. -/
def Verdict.word (v : Verdict) (cls : Nat) : Nat :=
  v.code + 4 * cls + (match v with
    | .limited p => p * 256
    | .deferred d => min 0xFFFF (d / 10000) * 65536
    | _ => 0)

/-- A request for supply current (R343, R345): its class, requester number, input (0 PWR-A, 1 PWR-B), ΔI, shed rank of
a C3 switch, minimum share and deferral ceiling in ns. -/
structure Ask where
  cls   : Nat
  who   : Nat
  input : Nat
  ma    : Nat
  rank  : Nat
  share : Nat
  ceil  : Nat
  deriving DecidableEq, Repr

/-- The second frame boundary after a change at `t` (R343). -/
def secondBoundary (t : IT) : IT := nextBoundary t + 1000000

/-- Reservations whose time has come are closed. -/
def State.dropResvs (s : State) : State :=
  { s with budget := { s.budget with resvs := s.budget.resvs.filter (fun r => decide (s.it < r.till)) } }

/-- A reservation opened. -/
def State.addResv (s : State) (r : Resv) : State := { s with budget := { s.budget with resvs := s.budget.resvs ++ [r] } }

/-- The measured current of the module (R343). -/
def Budget.measured (b : Budget) : Nat := b.measA + b.measB + b.shared

/-- The open reservations of an input; of the module for an input above 1. -/
def Budget.reserved (b : Budget) (input : Nat) : Int :=
  b.resvs.foldl (fun a r => if input > 1 ∨ r.input = input then a + r.ma else a) 0

/-- The measured current the module's demand counts: what Bobbin returns is credited to nobody (R253). -/
def Budget.counted (b : Budget) : Nat := b.measured + b.back

/-- The committed demand of the module. -/
def Budget.committed (b : Budget) : Int := b.counted + b.reserved 2

/-- The module's headroom (P 0x1401.06). -/
def State.moduleRoom (s : State) : Int := s.pN 0x1400 1 - s.budget.committed

/-- The headroom of an input alone. -/
def State.inputRoom (s : State) (input : Nat) : Int :=
  (s.pN 0x1400 (if input = 0 then 2 else 3) : Int) -
    ((if input = 0 then s.budget.measA + s.budget.back else s.budget.measB : Nat) + s.budget.reserved input)

/-- The headroom H of a request (R343). -/
def State.room (s : State) (input : Nat) : Int := min s.moduleRoom (s.inputRoom input)

/-- The C3 switches that may be shed for a request, in the order of R346: rising shed rank, higher number first. `below`
limits them to lower ranks. -/
def State.shedOrder (s : State) (below : Nat) : List Nat :=
  (((List.range 16).filter (fun j => (s.ld j).on && decide (s.pN (0x3600 + j) 7 < below))).mergeSort (fun a b =>
    let ra := s.pN (0x3600 + a) 7
    let rb := s.pN (0x3600 + b) 7
    decide (ra < rb ∨ (ra = rb ∧ b ≤ a))))

/-- The arbiter sheds switch `j`: off, waiting for its shed retry, its current counted as freed (R326, R343, R346). -/
def State.shedLoad (s : State) (j : Nat) : State :=
  let ma : Int := (s.ld j).current
  let s := s.releaseClamp j
  let s := s.modLd j (fun l => ({ l with
    on := false, shed := true, waitTill := some (s.it + s.pN (0x3600 + j) 0xE * 1000000), held := true,
    openLoad := false, limiting := false }).count 3)
  (s.addResv ⟨4 * 4096 + j, 1, -ma, secondBoundary s.it, false⟩).record 0xA003 j []

/-- Switches shed in order until a headroom of `ma` stands. -/
def State.shedUntil (s : State) (input ma : Nat) : List Nat → State
  | [] => s
  | j :: js => if (ma : Int) ≤ s.room input then s else (s.shedLoad j).shedUntil input ma js

/-- The answer noted: the outcome counter, and the last refusal of its class (P 0x1401.0B, .0C). -/
def State.noteVerdict (s : State) (a : Ask) (v : Verdict) : State :=
  { s with budget := { s.budget with
      counters := vmod s.budget.counters (4 * a.cls + v.code) (fun k => sat32 (k + 1)),
      lastRef := if v.code = 0 then s.budget.lastRef else vset s.budget.lastRef a.cls (s.it, a.who, v.word a.cls) } }

/-- The answer by current headroom (R345), with the switches it sheds. -/
def State.judge (s : State) (a : Ask) : State × Verdict :=
  let s := s.dropResvs
  let h := s.room a.input
  let order := s.shedOrder (if a.cls = 3 then a.rank else 17)
  let freed : Int := order.foldl (fun t j => t + ((s.ld j).current : Int)) 0
  let h2 := min (s.moduleRoom + freed) (s.inputRoom a.input + (if a.input = 1 then freed else 0))
  let soon := s.budget.resvs.filter (fun r => decide (r.till ≤ s.it + a.ceil))
  let back := fun (i : Nat) => soon.foldl (fun t r => if i > 1 ∨ r.input = i then t + r.ma else t) (0 : Int)
  let h4 := min (s.moduleRoom + back 2) (s.inputRoom a.input + back a.input)
  let first := soon.foldl (fun t r => min t r.till) (s.it + a.ceil)
  if a.cls = 2 ∧ s.budget.shedC2 then (s, .shed)
  else if (a.ma : Int) ≤ h then (s, .granted)
  else if (a.ma : Int) ≤ h2 then (s.shedUntil a.input a.ma order, .granted)
  else if (a.share * a.ma : Int) ≤ 100 * h ∧ 0 < h then (s, .limited (min 99 (100 * h.toNat / a.ma)))
  else if (a.ma : Int) ≤ h4 ∧ !soon.isEmpty then (s, .deferred (cdiv (first - s.it) 10000 * 10000))
  else if a.cls = 2 ∧ 0 < h then (s, .deferred 1000000)
  else (s, .shed)

/-- A request judged by current headroom: the answer, its counters and the reservation of the admitted current, which
closes at `till` (R343). -/
def State.request (s : State) (a : Ask) (till : IT) (pull : Bool) : State × Verdict :=
  let (s, v) := s.judge a
  let s := s.noteVerdict a v
  match v with
  | .granted => (s.addResv ⟨a.who, a.input, a.ma, till, pull⟩, v)
  | .limited p => (s.addResv ⟨a.who, a.input, a.ma * p / 100, till, pull⟩, v)
  | _ => (s, v)

/-- The energy of a BOOST pull-in of channel `n` in µJ: its last one, or l × ipk² before the first (R344). -/
def State.pullEnergy (s : State) (n : Nat) : Nat :=
  let ipk := s.pN (0x3000 + n) 4
  (s.ch n).lastUj.getD (s.coil n 2 2 * ipk * ipk / 100000)

/-- Bobbin's capacitance in use in µF (R250). -/
def State.bobCap (s : State) : Nat := s.bob.capUf.getD (470 + s.pN 0x3090 3)

/-- Energy in µJ between the rail at `mv` and the floor, the set point minus 12 V (R253). -/
def State.railEnergy (s : State) (mv : Nat) : Nat :=
  let f := s.pN 0x3090 2 - 12000
  s.bobCap * (mv * mv - f * f) / 2000000

/-- The pending BOOST energy: of pull-ins granted or limited with start at or after the last boundary (R344). -/
def State.pendingUj (s : State) : Nat :=
  s.budget.pending.foldl (fun a p => if s.bob.atIt ≤ p.1 then a + p.2 else a) 0

/-- The largest multiple of 5 below 100 whose share of the energy is available, 0 where none is (R344). -/
def limitPct (e : Nat) (avail : Int) : Nat → Nat
  | 0 => 0
  | k + 1 => if ((e * (5 * (k + 1)) * (5 * (k + 1)) : Nat) : Int) ≤ avail * 10000 then 5 * (k + 1)
    else limitPct e avail k

/-- The answer to a BOOST pull-in of channel `n` that starts at `t` (R344). -/
def State.judgeBoost (s : State) (n : Nat) (t : IT) : Verdict :=
  let e := s.pullEnergy n
  let have_ := min (s.railEnergy (s.pN 0x3090 2)) (s.bob.headroom + s.bob.rate * (t - s.bob.atIt) / 1000000000)
  let avail : Int := (have_ : Int) - s.pendingUj
  if (e : Int) ≤ avail then .granted
  else
    let short := ((e : Int) - avail).toNat
    let d := cdiv (cdiv (short * 1000000000) s.bob.rate) 10000 * 10000
    if s.bob.rate ≠ 0 ∧ d ≤ s.pN 0x1400 4 * 1000 then .deferred d
    else
      let p := limitPct e avail 19
      if 50 ≤ p then .limited p else .shed

/-- A C1 request for the pull-in of channel `n` at `t` (R341): by Bobbin's energy from BOOST, else by headroom. -/
def State.requestPull (s : State) (n : Nat) (t : IT) : State × Verdict :=
  if s.bankBoost (n / 8) then
    let v := s.judgeBoost n t
    let e := s.pullEnergy n
    let used := match v with
      | .granted => e
      | .limited p => e * p * p / 10000
      | _ => 0
    let s := s.noteVerdict ⟨1, n, 0, 0, 0, 50, 0⟩ v
    (if used = 0 then s else { s with budget := { s.budget with pending := s.budget.pending ++ [(t, used)] } }, v)
  else
    s.request ⟨1, n, 0, s.pN (0x3000 + n) 4, 0, 50, s.pN 0x1400 4 * 1000⟩ (t + 10000000) true

/-- A C2 raise of a bridge (0 to 3) or port (4, 5) by `ma` mA (R345); its reservation closes at `till`, the second boundary after
the change takes effect (R343). -/
def State.requestTorque (s : State) (o ma : Nat) (till : IT) : State × Verdict :=
  let who := if o < 4 then 2 * 4096 + o else 3 * 4096 + (o - 4)
  s.request ⟨2, who, 1, ma, 0, s.pN 0x1400 5, s.pN 0x1400 7 * 1000000⟩ till false

/-- A C3 switch-on of load switch `j` (R326). -/
def State.requestLoad (s : State) (j : Nat) : State × Verdict :=
  s.request ⟨3, 4 * 4096 + j, 1, s.pN (0x3600 + j) 6, s.pN (0x3600 + j) 7, s.pN 0x1400 6, 100000000⟩
    (secondBoundary s.it) false

/-! ### The boundary (R343, R347, R348) -/

/-- The link current of the ports with shared supply (R315). -/
def State.sharedLink (s : State) (link : Vector Int 2) : Nat :=
  (List.range 2).foldl (fun a g => if s.pB (0x3508 + g) 9 then a + (vget link g 0).toNat else a) 0

/-- The measured currents of the boundary, with closed reservations dropped and past BOOST energy forgotten. Runs after
Bobbin's own measurement. -/
def State.measureBudget (s : State) (f : FrameIn) : State :=
  let s := s.dropResvs
  { s with budget := { s.budget with
      measA := f.iA, measB := f.iB, back := (-s.bob.inMa).toNat, shared := s.sharedLink f.linkMa,
      volts := #v[f.vKA, f.vA, f.vB], svMa := f.svMa,
      pending := s.budget.pending.filter (fun p => decide (s.it ≤ p.1)) } }

/-- The input limit Bobbin may be allotted at most: P 0x3090.04, capped by the power die's level (R362). -/
def State.bobbinCap (s : State) : Nat :=
  let lim := s.pN 0x3090 4
  let l := vget s.therm.acting 4 0
  if l ≥ 3 then lim * s.pN 0x1500 0x15 / 100 else if l ≥ 2 then lim * s.pN 0x1500 0x14 / 100 else lim

/-- Headroom of Bobbin with its own measured current left out (R347). -/
def State.bobbinRoom (s : State) : Int :=
  s.room 0 + (if 0 < s.bob.inMa then s.bob.inMa else 0)

/-- Switches shed one by one until Bobbin's allotment reaches `want`. -/
def State.shedForBobbin (s : State) (want : Nat) : List Nat → State
  | [] => s
  | j :: js => if (want : Int) ≤ s.bobbinRoom then s else (s.shedLoad j).shedForBobbin want js

/-- Whether Bobbin is served an allotment: from its precharge to the end of its return (R351). -/
def Bobbin.asks (b : Bobbin) : Bool := b.state == 1 || b.state == 2 || b.state == 3

/-- Bobbin's allotment of the boundary (R347), counted as a C1 outcome: the room without its own current, capped by the
power die's level, never below 1 A. Switches are shed where that brings it up to the Bobbin minimum. It is Bobbin's input
limit from the next boundary (R254). A Bobbin that is not served has none. -/
def State.allotBobbin (s : State) : State :=
  if !s.bob.asks then { s with budget := { s.budget with allot := 0 } }
  else
    let lim := s.pN 0x3090 4
    let need := min s.bobbinCap (s.pN 0x1400 9)
    let s := if s.bobbinRoom < need then s.shedForBobbin need (s.shedOrder 17) else s
    let a := max 1000 (min s.bobbinCap s.bobbinRoom.toNat)
    let v : Verdict := if a ≥ lim then .granted else .limited (100 * a / lim)
    { s with budget := { (s.noteVerdict ⟨1, 4096, 0, lim, 0, 0, 0⟩ v).budget with allot := a } }

/-- OVER-BUDGET, the shedding of one switch per boundary, and the overrun (R348). -/
def State.overBudget (s : State) : State :=
  let isOv := decide (s.pN 0x1400 1 < s.budget.counted)
  if isOv then
    let s := { s with budget := { s.budget with isOver := true, okAt := none } }
    match s.shedOrder 17 with
    | j :: _ => { s.shedLoad j with budget := { (s.shedLoad j).budget with overAt := none } }
    | [] => { s with budget := { s.budget with overAt := some (s.budget.overAt.getD s.it) } }
  else
    let ok := s.budget.okAt.getD s.it
    { s with budget := { s.budget with
        isOver := false, overAt := none, okAt := some ok,
        shedC2 := s.budget.shedC2 && decide (s.it < ok + 100000000) } }

/-- What the budget reports until the next boundary (R353). -/
def State.showBudget (s : State) : State :=
  { s with budget := { s.budget with shown :=
      { commit := s.budget.committed.toNat, room := s.moduleRoom,
        flags := bits [s.budget.isOver, s.budget.shedC2, s.budget.svOff.toList.any (·.isSome)],
        counters := s.budget.counters, lastRef := s.budget.lastRef } } }

/-- BUDGET_OVERRUN: the module has stayed over the budget for P 0x1400.0A with no C3 switch on (R348). -/
def execBudgetOverrun (s : State) : Host.Outcome State Fault Refusal :=
  .next (match s.budget.overAt with
    | none => s
    | some t =>
      if s.budget.shedC2 then s
      else
        let s := s.at (t + s.pN 0x1400 0xA * 1000000)
        ({ s with budget := { s.budget with shedC2 := true } }).record 0xB003 0 [])

/-! ### Supply monitoring (R339) -/

/-- The subject number of a supply fault. -/
def supplyCode : SupplySubject → Nat
  | .ka => 0 | .pwrA => 1 | .pwrB => 2 | .logicRails => 3

/-- The cause number of a supply fault. -/
def causeCode : SupplyCause → Nat
  | .low => 0 | .high => 1 | .overCurrent => 2 | .railOutOfRange => 3

/-- Whether a measured value meets the threshold of a supply condition (R339). Which logic rail a value belongs to is not
told, so any value stands for one. -/
def State.supplyMeets (s : State) (x : SupplySubject) (c : SupplyCause) (value : Nat) : Bool :=
  match x, c with
  | .ka, .low => decide (value < 6000)
  | .pwrA, .low | .pwrB, .low => decide (value < s.pN 0x1402 2)
  | .pwrA, .high | .pwrB, .high => decide (s.pN 0x1402 3 < value)
  | .pwrA, .overCurrent | .pwrB, .overCurrent => decide (72000 < value)
  | .logicRails, .railOutOfRange => true
  | _, _ => false

/-- SUPPLY_FAULT: a condition of R339 has stood its time at `value`: the SUPPLY-FAULT record and the report to the
supervisor. A subject without that condition, or a value that does not meet its threshold, is no supply fault. -/
def execSupplyFault (x : SupplySubject) (c : SupplyCause) (value : Nat) (t : IT) (s : State) :
    Host.Outcome State Fault Refusal :=
  .next (s.whenAwake fun s =>
    let s := s.at t
    if !(s.supplyMeets x c value) then s
    else
    let d := le 1 (causeCode c) ++ le 4 value
    let s := { s with power := { s.power with supplyLow := vset s.power.supplyLow (supplyCode x) true } }
    (s.record 0xB001 (supplyCode x) d).report 0xE008 (supplyCode x) d)

/-- SENSOR_SUPPLY_OVERLOAD: a sensor supply is switched off (R339). -/
def execSensorSupplyOverload (i : Fin 2) (t : IT) (s : State) : Host.Outcome State Fault Refusal :=
  .next (s.whenAwake fun s =>
    let s := s.at t
    ({ s with budget := { s.budget with svOff := vset s.budget.svOff i (some s.it) } }).record 0xB002 i [])

/-- SENSOR_SUPPLY_RETRY: 1 s after it was switched off the sensor supply is tried again (R339). -/
def execSensorSupplyRetry (i : Fin 2) (s : State) : Host.Outcome State Fault Refusal :=
  .next (match vget s.budget.svOff i none with
    | none => s
    | some t =>
      let s := s.at (t + 1000000000)
      { s with budget := { s.budget with svOff := vset s.budget.svOff i none } })

end Sys2Proof.Machine
end

