-- ==== Sys2Proof/Machine/Bobbin.lean ====
section
/-! DEFINITION. Bobbin, the boost rail (R248 to R258): its thresholds, precharge and capacitance, its state in each device
state, and what it publishes at a boundary. -/

namespace Sys2Proof.Machine

/-- Bobbin changed. -/
def State.modBob (s : State) (f : Bobbin → Bobbin) : State := { s with bob := f s.bob }

/-- A decaying closing ends at the clamp once RAIL-HIGH is set: it counts as a clamp closing and is not learned (R251). -/
def State.railHighCh (s : State) (n : Nat) : State :=
  match (s.ch n).decaying with
  | none => s
  | some cl =>
    let s := (s.modClosing n cl.cmd (fun x => { x with clamped := true, learn := false })).modCh n (fun c =>
      let c := { c with lastClamp := true }
      if cl.clamped then c else c.count 6)
    if cl.clamped then s else s.modBank (n / 8) (·.count 1)

/-- RAIL_HIGH (R251). -/
def execRailHigh (t : IT) (s : State) : Host.Outcome State Fault Refusal :=
  .next (s.whenAwake fun s =>
    if s.bob.railHigh then s
    else (List.range 128).foldl (fun s n => s.railHighCh n) ((s.at t).modBob (fun b => { b with railHigh := true })))

/-- RAIL_HIGH_CLEAR: the rail has stayed below 61.0 V for 100 µs. -/
def execRailHighClear (t : IT) (s : State) : Host.Outcome State Fault Refusal :=
  .next (s.whenAwake fun s => (s.at t).modBob (fun b => { b with railHigh := false }))

/-- The code of P 0x3090.0C. -/
def railCauseCode : RailCause → Nat
  | .overVoltage => 1 | .underVoltage => 2 | .converterOC => 3

/-- RAIL_FAULT: Bobbin is FAULT for the rest of the boot, its converter stopped, and the supervisor has the fault, also
one that comes later (R251, R255); a disabled Bobbin stays OFF. Under-voltage is watched in RUN and BARE alone. -/
def execRailFault (c : RailCause) (t : IT) (s : State) : Host.Outcome State Fault Refusal :=
  .next (s.whenAwake fun s =>
    if c = .underVoltage ∧ s.power.dev ≠ .run ∧ s.power.dev ≠ .bare then s
    else
      let s := (s.at t).modBob (fun b => { b with
        state := if s.bobbinEnabled then 5 else b.state, ret := false, limited := false, cause := railCauseCode c })
      s.report 0xE009 (railCauseCode c) [])

/-- SUPPLY_HIGH: return stops (R251). -/
def execSupplyHigh (t : IT) (s : State) : Host.Outcome State Fault Refusal :=
  .next (s.whenAwake fun s => (s.at t).modBob (fun b => { b with supHigh := true, ret := false }))

/-- SUPPLY_HIGH_CLEAR: the supply lies below the set point less 6 V again (R251). -/
def execSupplyHighClear (t : IT) (s : State) : Host.Outcome State Fault Refusal :=
  .next (s.whenAwake fun s => (s.at t).modBob (fun b => { b with supHigh := false }))

/-- PRECHARGE_COMPLETE: the rail stands at the set point; a precharge of at least 10 V has measured the capacitance,
charge delivered over voltage gained, and a difference of more than 30 % is CAP-MISMATCH (R250, R255). -/
def execPrechargeComplete (t : IT) (chargeUc gainedMv : Nat) (s : State) : Host.Outcome State Fault Refusal :=
  .next (
    if s.bob.state ≠ 1 then s
    else
      let s := (s.at t).modBob (fun b => { b with state := 2, target := s.pN 0x3090 2 })
      if gainedMv < 10000 then s
      else
        let c := chargeUc * 1000 / gainedMv
        let decl := 470 + s.pN 0x3090 3
        let bad := decide (10 * decl * 3 < 100 * ((c : Int) - decl).natAbs)
        let s := s.modBob (fun b => { b with capUf := some c, mismatch := bad })
        s.recordIf bad 0x7001 0 [])

/-- The active discharge begins: Bobbin accepts no recovery from now on (R255). -/
def State.startDischarge (s : State) : State :=
  s.modBob (fun b => { b with state := if b.state = 5 then 5 else 4, discharging := true })

/-- Bobbin's state at entry to a device state (R255). One that has had a rail fault in this boot is FAULT; a discharge that runs
goes on through SHUTDOWN and the boot after it. A disabled one is OFF. -/
def State.bobbinEnter (s : State) (d : DevState) : State :=
  if s.bob.state = 5 then s
  else if !s.bobbinEnabled then
    s.modBob (fun b => { b with state := if b.discharging && d.code < 3 then 4 else 0, ret := false })
  else if s.bob.cause ≠ 0 then s.modBob (fun b => { b with state := 5, ret := false })
  else match d with
    | .ready => s.modBob (fun b => { b with state := 1, discharging := false })
    | .run | .bare => s.modBob (fun b => { b with state := 2, discharging := false })
    | .safe | .shutdown => s.modBob (fun b => { b with state := if b.discharging then 4 else 3 })
    | .service => s.startDischarge
    | _ => s.modBob (fun b => { b with state := if b.discharging then 4 else 0 })

/-- Bobbin's state where a write or a COMMIT has enabled or disabled it in the device state that holds (R255). -/
def State.bobbinFollow (s : State) : State :=
  if s.bobbinEnabled then
    if s.bob.state = 0 ∧ 3 ≤ s.power.dev.code ∧ s.power.dev ≠ .service then s.bobbinEnter s.power.dev else s
  else if s.bob.state = 0 then s else s.bobbinEnter s.power.dev

/-! ### The converter (R248, R252, R255) -/

/-- What the converter does: nothing, precharge through the switch, charge, return. -/
inductive Converter where
  | idle | precharge | charge | giveBack
  deriving DecidableEq, Repr

/-- Whether return stands at a boundary while regulating: it starts above the set point plus the return band, and for a
falling set point at once, and stops at the set point; with P 0x3090.05 at 0, or SUPPLY-HIGH, there is none. -/
def State.returnStands (s : State) (rail target : Nat) : Bool :=
  !s.bob.supHigh && s.pN 0x3090 5 != 0 && decide (target < rail) &&
    (s.bob.ret || decide (target + s.pN 0x3090 6 < rail) || decide (s.pN 0x3090 2 < target))

/-- What the converter does between this boundary and the next (R248, R255): in RETURN-ONLY it returns down to the supply
voltage. -/
def State.converter (s : State) : Converter :=
  match s.bob.state with
  | 1 => if s.bob.rail < s.bob.supply then .precharge else .charge
  | 2 => if s.bob.ret then .giveBack else .charge
  | 3 => if !s.bob.supHigh && s.pN 0x3090 5 != 0 && decide (s.bob.supply < s.bob.rail) then .giveBack else .idle
  | _ => .idle

/-- What the converter regulates to (R248): the rail it aims at and the band of ±2 % that the mean of a frame keeps about it, in mV,
and the current limit of its direction in mA. -/
structure RailDrive where
  does : Converter
  aim  : Nat
  low  : Nat
  high : Nat
  ma   : Nat
  deriving DecidableEq, Repr

/-- The converter's drive between this boundary and the next; none while it is stopped. In RETURN-ONLY it aims at the supply. -/
def State.railDrive (s : State) : Option RailDrive :=
  let aim := if s.bob.state = 3 then s.bob.supply else s.bob.target
  let drive := fun ma => some ⟨s.converter, aim, aim * 98 / 100, aim * 102 / 100, ma⟩
  match s.converter with
  | .idle => none
  | .precharge => drive 2000
  | .charge => drive s.bob.limit
  | .giveBack => drive (s.pN 0x3090 5)

/-- The mean converter current of the last frame, held to what the converter can have carried in it (R248, R252, R255):
drawn, the input limit in force, or 2 A through the precharge switch; returned, P 0x3090.05 where the converter returned in that
frame. A converter stopped since before the last boundary carries nothing. -/
def State.carried (s : State) (ma : Int) : Int :=
  let b := s.bob
  let charges := b.state == 1 || b.state == 2
  let drawn := if b.limit ≠ 0 then b.limit else if charges then s.pN 0x3090 4 else 0
  let drawn := if b.state = 1 then max 2000 drawn else drawn
  let back := if b.gave || s.converter == .giveBack then s.pN 0x3090 5 else 0
  clampI (-(back : Nat)) drawn ma

/-- The set point slewed at P 0x3090.07 for one frame (R249). -/
def State.slewTarget (s : State) : Nat :=
  let sp := s.pN 0x3090 2
  let step := s.pN 0x3090 7 / 1000
  if s.bob.target = 0 then sp
  else if s.bob.target + step ≤ sp then s.bob.target + step
  else if sp + step ≤ s.bob.target then s.bob.target - step
  else sp

/-- What Bobbin measures and publishes at a boundary: the rail, its input current as the converter could carry it, its
headroom energy and charge rate (R253); the energy counters as measured. The allotment of the last boundary comes into
force (R254), the set point moves on, and return starts or stops. -/
def State.bobbinFrame (s : State) (f : FrameIn) : State :=
  let s := s.bobbinFollow
  let inMa := s.carried f.bobbinMa
  let target := s.slewTarget
  let cap := s.pN 0x3090 4
  let lim := if s.budget.allot = 0 then cap else min cap s.budget.allot
  let s := s.modBob (fun b => { b with
    rail := f.railMv, supply := f.vA, inMa := inMa, target := target,
    limit := if b.state = 1 ∨ b.state = 2 then lim else 0,
    limited := b.asks && decide (lim < cap), ret := b.state == 2 && s.returnStands f.railMv target,
    energy := b.energy.zipWith (· + ·) f.energy, atIt := s.it })
  s.modBob (fun b => { b with
    headroom := s.railEnergy f.railMv, rate := lim * f.vA * 94 / 100, gave := s.converter == .giveBack })

/-- The flags of P 0x3090.0B. -/
def Bobbin.flags (b : Bobbin) : Nat := bits [b.railHigh, b.supHigh, b.mismatch, b.limited]

end Sys2Proof.Machine
end

