-- ==== Sys2Proof/Machine/Float.lean ====
section
/-! DEFINITION. IEEE 754 binary32 (R7, R259): exact results rounded to nearest, ties to even. The manual names the format
and no rounding mode; the default mode of the standard is taken, and every NaN result is 0x7FC00000 (Assumption 10). -/

namespace Sys2Proof.Machine

/-- Sign bit. -/
def f32Neg (x : F32) : Bool := x.toNat / 2147483648 == 1

/-- Biased exponent. -/
def f32Exp (x : F32) : Nat := x.toNat / 8388608 % 256

/-- Fraction field. -/
def f32Frac (x : F32) : Nat := x.toNat % 8388608

/-- Whether a word is a NaN. -/
def f32IsNan (x : F32) : Bool := f32Exp x == 255 && f32Frac x != 0

/-- Whether a word is an infinity. -/
def f32IsInf (x : F32) : Bool := f32Exp x == 255 && f32Frac x == 0

/-- Whether a word is a finite number (R371: the range of an F32 admits only these). -/
def f32Finite (x : F32) : Bool := f32Exp x != 255

/-- Whether a word is a zero of either sign. -/
def f32IsZero (x : F32) : Bool := x.toNat % 2147483648 == 0

/-- The quiet NaN every invalid operation gives. -/
def f32Nan : F32 := 0x7FC00000

/-- The infinity of a sign. -/
def f32Inf (neg : Bool) : F32 := if neg then 0xFF800000 else 0x7F800000

/-- The zero of a sign. -/
def f32Zero (neg : Bool) : F32 := if neg then 0x80000000 else 0

/-- A finite word as mantissa and exponent: its magnitude is `m * 2 ^ (e - 149)`. -/
def f32Parts (x : F32) : Nat × Nat :=
  if f32Exp x = 0 then (f32Frac x, 0) else (f32Frac x + 8388608, f32Exp x - 1)

/-- The signed integer that a finite word is in units of 2^-149. -/
def f32Fixed (x : F32) : Int :=
  let (m, e) := f32Parts x
  let v : Int := ((m * 2 ^ e : Nat) : Int)
  if f32Neg x then -v else v

/-- The word nearest to the positive quotient `a / b` in units of 2^-149, ties to even. -/
def f32Round (neg : Bool) (a b : Nat) : F32 :=
  if a = 0 ∨ b = 0 then f32Zero neg
  else
    -- the exponent e at which the rounded mantissa has 24 bits, 0 for a subnormal
    let q := a / b
    let e := (if q = 0 then 0 else q.log2) - 23
    let d := b * 2 ^ e
    let m := a / d
    let r := a % d
    let up := 2 * r > d || (2 * r == d && m % 2 == 1)
    let m := if up then m + 1 else m
    let (m, e) := if m = 16777216 then (8388608, e + 1) else (m, e)
    let w := if m < 8388608 then m else (e + 1) * 8388608 + (m - 8388608)
    if w ≥ 0x7F800000 then f32Inf neg else BitVec.ofNat 32 ((if neg then 2147483648 else 0) + w)

/-- The word nearest to a rational `a / b`. -/
def f32OfRat (a : Int) (b : Nat) : F32 :=
  if a < 0 then f32Round true ((-a).toNat * 2 ^ 149) b else f32Round false (a.toNat * 2 ^ 149) b

/-- The word nearest to an integer. -/
def f32OfInt (a : Int) : F32 := f32OfRat a 1

/-- Negation. -/
def f32Negate (x : F32) : F32 := x ^^^ 0x80000000

/-- Magnitude. -/
def f32Abs (x : F32) : F32 := x &&& 0x7FFFFFFF

/-- Sum. -/
def f32Add (x y : F32) : F32 :=
  if f32IsNan x || f32IsNan y then f32Nan
  else if f32IsInf x then (if f32IsInf y && (f32Neg x != f32Neg y) then f32Nan else x)
  else if f32IsInf y then y
  else
    let v := f32Fixed x + f32Fixed y
    if v = 0 then f32Zero (f32Neg x && f32Neg y)
    else if v < 0 then f32Round true (-v).toNat 1 else f32Round false v.toNat 1

/-- Difference. -/
def f32Sub (x y : F32) : F32 := f32Add x (f32Negate y)

/-- Product. -/
def f32Mul (x y : F32) : F32 :=
  let neg := f32Neg x != f32Neg y
  if f32IsNan x || f32IsNan y then f32Nan
  else if f32IsInf x || f32IsInf y then (if f32IsZero x || f32IsZero y then f32Nan else f32Inf neg)
  else
    let (m, e) := f32Parts x
    let (m', e') := f32Parts y
    f32Round neg (m * m' * 2 ^ (e + e')) (2 ^ 149)

/-- Quotient. -/
def f32Div (x y : F32) : F32 :=
  let neg := f32Neg x != f32Neg y
  if f32IsNan x || f32IsNan y then f32Nan
  else if f32IsInf x then (if f32IsInf y then f32Nan else f32Inf neg)
  else if f32IsInf y then f32Zero neg
  else if f32IsZero y then (if f32IsZero x then f32Nan else f32Inf neg)
  else
    let (m, e) := f32Parts x
    let (m', e') := f32Parts y
    f32Round neg (m * 2 ^ (e + 149)) (m' * 2 ^ e')

/-- Square root. -/
def f32Sqrt (x : F32) : F32 :=
  if f32IsNan x then f32Nan
  else if f32IsZero x then x
  else if f32Neg x then f32Nan
  else if f32IsInf x then x
  else
    -- the root in units of 2^-149 is sqrt(v * 2^149); 2^65 more keeps a sticky tail
    let (m, e) := f32Parts x
    let v := m * 2 ^ (e + 149 + 64)
    let r := isqrt v
    let sticky := if r * r = v then 0 else 1
    f32Round false (2 * r + sticky) (2 * 2 ^ 32)

/-- The order of two words, neither a NaN: whether `x` is below `y`. -/
def f32Lt (x y : F32) : Bool :=
  if f32IsNan x || f32IsNan y then false
  else
    let k := fun (z : F32) => if f32Neg z then -((z.toNat % 2147483648 : Nat) : Int) else (z.toNat : Int)
    decide (k x < k y)

/-- Whether `x` is at or below `y`. -/
def f32Le (x y : F32) : Bool := !(f32IsNan x || f32IsNan y) && !(f32Lt y x)

/-- The greater of two words. -/
def f32Max (x y : F32) : F32 := if f32Lt x y then y else x

/-- The smaller of two words. -/
def f32Min (x y : F32) : F32 := if f32Lt y x then y else x

/-- A word held to [lo, hi]. -/
def f32Clamp (lo hi x : F32) : F32 := f32Max lo (f32Min hi x)

/-- A finite word times `k`, rounded to the nearest integer, ties away from zero; 0 for other words. -/
def f32ToInt (x : F32) (k : Nat) : Int :=
  if f32Finite x then rdiv (f32Fixed x * k) (2 ^ 149) else 0

/-- A finite word times `k`, rounded toward minus infinity. -/
def f32Floor (x : F32) (k : Nat) : Int :=
  if f32Finite x then f32Fixed x * k / (2 ^ 149 : Nat) else 0

end Sys2Proof.Machine
end

