-- ==== Sys2Proof/Machine/Loads.lean ====
section
/-! DEFINITION. The load switches L0 to L15 (R321 to R335): switching on past the clamp reservation and the budget, trips,
restarts, latches, and what each device state allows. -/

namespace Sys2Proof.Machine

/-- Whether switch `j` is the partner of a ply (R323): L1 of L0, L3 of L2. -/
def State.ldPartner (s : State) (j : Nat) : Bool := (j == 1 || j == 3) && s.pB (0x3600 + (j - 1)) 3

/-- Whether switch `j` leads a ply (R323). -/
def State.ldPlied (s : State) (j : Nat) : Bool := (j == 0 || j == 2) && s.pB (0x3600 + j) 3

/-- The junction temperature that governs switch `j`: the higher of a ply's two (R323). -/
def State.ldJunction (s : State) (j : Nat) (own : Int) : Int :=
  if s.ldPlied j then max own (s.ld (j + 1)).junction else own

/-- Whether a power-die throttle level holds switch `j` off (R362). -/
def State.ldThermHold (s : State) (j : Nat) : Bool :=
  decide (2 ≤ vget s.therm.acting 4 0) && decide (s.pN (0x3600 + j) 7 < s.pN 0x1500 0x13)

/-- Whether the host duty of the spinner that drives a PWM switch is above 0 (R331): the spinner whose destination names
it (P 0x3400+k.01, codes 7 to 22 for L0 to L15). -/
def State.ldDuty (s : State) (j : Nat) : Bool :=
  (List.range 16).any (fun k => s.pN (0x3400 + k) 1 == 7 + j && decide (0 < s.pN (0x3400 + k) 0xA))

/-- Whether the device state and the safe class want switch `j` on (R331, R364). -/
def State.ldWant (s : State) (j : Nat) : Bool :=
  let cmd := s.pN (0x3600 + j) 0x10 == 1
  let cls := s.pN (0x3600 + j) 8
  s.pB (0x3600 + j) 1 && !(s.ldPartner j) &&
    (match s.power.dev with
      | .run => cmd
      | .bare => if cls = 1 then (vget s.sup.switches 0 ⟨false, false, 0, false⟩).on else cls == 2 && cmd
      | .safe => cls == 2 && cmd && !(s.sup.thermal && s.therm.keepOff) &&
          (s.pN (0x3600 + j) 2 == 0 || s.ldDuty j)
      | _ => false)

/-- The clamp energy switch `j` reserves, in nJ: the declared one, or the measured one once it was exceeded (R325). -/
def State.ldClamp (s : State) (j : Nat) : Nat :=
  ((if (s.ld j).exceeded then (s.ld j).measured.getD 0 else s.pN (0x3600 + j) 0xF)) * 1000000

/-- The clamp reservation of a switch-on (R324): whether it stands now. -/
def State.reserveClamp (s : State) (j : Nat) : State × Bool :=
  let s := s.refill s.it
  let e := s.ldClamp j
  if (s.ld j).resv ≠ 0 ∨ e = 0 then (s.modLd j (fun l => { l with locked := false }), true)
  else if s.loads.avail < e then
    let new := !(s.ld j).locked
    let s := s.modLd j (fun l => { l with locked := true })
    ({ s with loads := { s.loads with locks := if new then sat32 (s.loads.locks + 1) else s.loads.locks } }, false)
  else
    let s := s.modLd j (fun l => { l with locked := false, resv := e })
    ({ s with loads := { s.loads with avail := s.loads.avail - e } }, true)

/-- A switch-on of `j` at the present time: the clamp reservation, then the budget, and the outcome applied (R324,
R326). -/
def State.ldTry (s : State) (j : Nat) : State :=
  let l := s.ld j
  if l.on || !(s.ldWant j) || l.therm || l.retryL || s.contained 0xE005 (7 + j) || s.ldThermHold j || l.tripAt.isSome then s
  else
    let (s, ok) := s.reserveClamp j
    if !ok then s
    else
      let (s, v) := s.requestLoad j
      match v with
      | .granted => s.modLd j (fun l => { l with
          on := true, pct := 100, shed := false, waitTill := none, held := false, onSince := s.it })
      | .limited p => s.modLd j (fun l => { l with
          on := true, pct := p, shed := false, waitTill := none, held := true, onSince := s.it })
      | .deferred d => s.modLd j (fun l => { l with shed := false, waitTill := some (s.it + d), held := true })
      | .shed => s.modLd j (fun l => ({ l with
          shed := true, waitTill := some (s.it + s.pN (0x3600 + j) 0xE * 1000000), held := true }).count 3)

/-- Switch `j` brought to what its command, its class and the device state want: off at once, or on past the gates. A
switch that waits submits again at its own time. -/
def State.ldFollow (s : State) (j : Nat) : State :=
  let l := s.ld j
  if !(s.ldWant j) then (if l.on || l.waitTill.isSome || l.locked || l.held || l.shed then s.loadOff j else s)
  else if l.on then (if decide (3 ≤ vget s.therm.acting 4 0) && s.ldThermHold j then s.loadOff j else s)
  else if l.waitTill.isSome then s
  else s.ldTry j

/-- The measured clamp energy `mj` of a turn-off against the declared one (R325): more than 25 % above it sets
CLAMP-EXCEEDED, writes a record with both values and is the reservation from then on. -/
def State.clampMeasured (s : State) (j mj : Nat) : State :=
  let decl := s.pN (0x3600 + j) 0xF
  if 4 * mj ≤ 5 * decl then s
  else
    let s := s.modLd j (fun l => { l with exceeded := true, measured := some mj })
    s.record 0xA004 j (le 4 decl ++ le 4 mj)

/-- LOAD_SWITCH_COMMAND's effect once the command is stored: the switch follows it (R326, R331). -/
def State.ldCommand (s : State) (j : Nat) : State := s.ldFollow j

/-- Whether a switch that is on meets a trip condition at `t` (R327): it has regulated at its limit for longer than the limit time
P 0x3600+j.05, all of it since it went on; or its junction has reached 175 °C. -/
def State.tripMet (s : State) (j : Nat) (k : LoadTripKind) (t : IT) : Bool :=
  (s.ld j).on && (match k with
    | .limitTime since => decide ((s.ld j).onSince ≤ since ∧ since + s.pN (0x3600 + j) 5 * 1000000 < t)
    | .overTemperature junction => decide (1750 ≤ junction))

/-- Whether a trip is by temperature. -/
def hotTrip : LoadTripKind → Bool
  | .limitTime _ => false
  | .overTemperature _ => true

/-- LOAD_TRIP: limit time or over-temperature (R327, R329). The retry counter is frozen while THERMAL-LATCHED. A trip that
reaches no latch raises no fault (R454). -/
def execLoadTrip (j : Fin 16) (k : LoadTripKind) (t : IT) (clampMj : Nat) (s : State) :
    Host.Outcome State Fault Refusal :=
  .next (
    let l := s.ld j
    if !(s.tripMet j k t) then s
    else
      let s := (s.at t).loadOff j
      let s := s.clampMeasured j clampMj
      let r := if l.therm then l.retries else min 16 (l.retries + 1)
      let latchR := !l.retryL && decide (s.pN (0x3600 + j.val) 0xB < r)
      let latchT := hotTrip k && s.pN (0x3600 + j.val) 9 == 1 && !l.therm
      let cause := b2n (hotTrip k)
      let s := s.modLd j (fun l =>
        let l := ({ l with retries := r, tripAt := some t, retryL := l.retryL || latchR,
                           therm := l.therm || latchT }).count cause
        let l := if latchR then l.count 2 else l
        if latchT then l.count 2 else l)
      let s := s.record 0xA001 j (le 1 cause)
      let s := s.recordIf latchR 0xA002 j []
      if latchR || latchT then s.report 0xE005 (7 + j.val) (le 1 cause) else s)

/-- LOAD_COUNTER_RESET: on for P 0x3600+j.0D without a trip, and not THERMAL-LATCHED (R329). -/
def execLoadCounterReset (j : Fin 16) (s : State) : Host.Outcome State Fault Refusal :=
  .next (
    let l := s.ld j
    if !l.on || l.therm then s
    else (s.at (l.onSince + s.pN (0x3600 + j.val) 0xD * 1000000)).modLd j (fun l => { l with retries := 0 }))

/-- The latches cleared by the bits of P 0x3600+j.11 (R329). -/
def State.clearLoad (s : State) (j v : Nat) : State :=
  s.modLd j (fun l => { l with
    therm := l.therm && !(bit v 0), retryL := l.retryL && !(bit v 1),
    retries := if bit v 1 then 0 else l.retries })

/-- Since when the current of switch `j`, on all the time, has been below P 0x3600+j.12: measured as the mean over each frame
(R330; Assumption 140). -/
def State.lowSince (s : State) (j : Nat) : Option IT :=
  if (s.ld j).on && decide ((s.ld j).current < s.pN (0x3600 + j) 0x12) then (s.ld j).lowAt.map (max (s.ld j).onSince) else none

/-- OPEN_LOAD: a STATIC switch has been on with its current below P 0x3600+j.12 for 100 ms (R330). -/
def execOpenLoad (j : Fin 16) (t : IT) (s : State) : Host.Outcome State Fault Refusal :=
  .next (match s.lowSince j with
    | none => s
    | some a =>
      if s.pN (0x3600 + j.val) 2 = 0 ∧ a + 100000000 ≤ t then (s.at t).modLd j (fun l => { l with openLoad := true }) else s)

/-- What a boundary measures of switch `j`: its mean current and the clamp energy of a turn-off, a ply's being the sums of both
(R323), and its junction. A LIMITED outcome lowers the current limit of a STATIC switch alone (R326). -/
def State.loadMeasure (s : State) (f : FrameIn) (j : Nat) : State :=
  let both := fun (v : Vector Nat 16) => vget v j 0 + (if s.ldPlied j then vget v (j + 1) 0 else 0)
  let ma := both f.loadMa
  let mj := both f.clampMj
  let pct := if s.pN (0x3600 + j) 2 = 0 then (s.ld j).pct else 100
  let s := s.modLd j (fun l => { l with
    current := ma, lowAt := if l.on && decide (ma < s.pN (0x3600 + j) 0x12) then some (l.lowAt.getD (s.it - 1000000)) else none,
    junction := vget f.junction j 0, limiting := l.on && decide (s.pN (0x3600 + j) 4 * pct ≤ 100 * ma),
    openLoad := l.openLoad && decide (ma < s.pN (0x3600 + j) 0x12) })
  if mj = 0 ∨ s.ldPartner j then s else s.clampMeasured j mj

/-- What a boundary decides for switch `j`: it follows what is wanted of it, and a locked frame is counted (R324, R331). -/
def State.loadFrame (s : State) (j : Nat) : State :=
  let s := s.ldFollow j
  if (s.ld j).locked then s.modLd j (·.count 4) else s

/-- Every load switch brought to what the device state wants. -/
def State.loadsFollow (s : State) : State := (List.range 16).foldl State.ldFollow s

/-- The load switches that are no longer wanted on go off; a switch-on waits for its class's turn at the boundary (R342). -/
def State.loadsOff (s : State) : State :=
  (List.range 16).foldl (fun s j => if s.ldWant j then s else s.ldFollow j) s

/-- The state code of P 0x3600+j.18. -/
def State.ldCode (s : State) (j : Nat) : Nat :=
  let l := s.ld j
  if s.ldPartner j then 7 else if !(s.pB (0x3600 + j) 1) then 8 else if l.therm then 6 else if l.retryL then 5
  else if l.on then 1 else if l.tripAt.isSome then 4 else if l.locked then 2 else if l.shed then 3 else 0

/-- The flags of P 0x3600+j.1C. -/
def Load.flags (l : Load) : Nat := bits [l.locked, l.exceeded, l.held, l.openLoad, l.limiting]

end Sys2Proof.Machine
end

