-- ==== Sys2Proof/Machine/Thermal.lean ====
section
/-! DEFINITION. The thermal manager (R354 to R368): the twelve sensors, failures and substitution, throttle levels with
their notices, holds and the thermal shutdown. Temperatures in 0.1 °C; dies 0 to 3 are the drive dies, 4 power, 5
processor. -/

namespace Sys2Proof.Machine

/-- The second designated neighbour of a sensor; the first is its partner, the other sensor of the pair (R354). -/
def secondNeighbour (i : Nat) : Nat :=
  ([2, 10, 0, 4, 3, 6, 5, 8, 7, 11, 1, 9][i]?).getD 0

/-- The partner of a sensor. -/
def partner (i : Nat) : Nat := if i % 2 = 0 then i + 1 else i - 1

/-- The thermal manager changed. -/
def State.modTherm (s : State) (f : Thermal → Thermal) : State := { s with therm := f s.therm }

/-- Limit `k` (0 warning to 3 shutdown) of the class of die `d` (P 0x1500.01 to .0C; Assumption 14). -/
def State.limit (s : State) (d k : Nat) : Int := s.pI 0x1500 ((if d < 4 then 1 else if d = 4 then 5 else 9) + k)

/-- Whether sensor `i` has failed, electrically or by cross-check: until a cold start (R356). -/
def State.sensorFailed (s : State) (i : Nat) : Bool := vget s.therm.status i 0 == 1 || vget s.therm.status i 0 == 2

/-- Whether sensor `i` is UNAVAILABLE, its drive die in reset (R359). -/
def State.sensorGone (s : State) (i : Nat) : Bool := decide (i < 8) && (vget s.therm.unavail (i / 2) none).isSome

/-- Whether sensor `i` is valid: it stands in for others and takes part in cross-checks. -/
def State.sensorOk (s : State) (i : Nat) : Bool := !s.sensorFailed i && !s.sensorGone i

/-- The value of sensor `i`, its reading or its substitute. -/
def State.sensor (s : State) (i : Nat) : Int := vget s.therm.value i 0

/-- The die maximum (R354). -/
def State.dieMax (s : State) (d : Nat) : Int := max (s.sensor (2 * d)) (s.sensor (2 * d + 1))

/-- The last valid reading of sensor `i` as record bytes, 0 when it had none. -/
def State.lastReading (s : State) (i : Nat) : Bytes := leI 2 ((vget s.therm.lastOk i none).getD 0)

/-- The substituted value of sensor `i`, none when no designated neighbour is valid (R357). -/
def State.substitute (s : State) (i : Nat) : Option Int :=
  match ([partner i, secondNeighbour i].filter (fun k => s.sensorOk k)).map (fun k => s.sensor k) with
  | [] => none
  | x :: xs => some (xs.foldl max x + s.pI 0x1500 0xF)

/-- A thermal counter raised (P 0x1501.09). -/
def Thermal.count (t : Thermal) (i : Nat) : Thermal := { t with counters := vmod t.counters i (fun k => sat32 (k + 1)) }

/-- Sensor `i` counts as failed from now on, electrically or by cross-check (R356). -/
def State.markFailed (s : State) (i cause : Nat) : State :=
  s.modTherm (fun t => ({ t with
    status := vset t.status i (if cause = 1 then 2 else 1), shutN := vset t.shutN i 0 }).count 3)

/-- The hold of a die whose hottest sensor has failed at level 1 or higher: 10 s from the substitution (R358). -/
def State.throttleHold (s : State) (d : Nat) : State :=
  let e := s.it + 10000000000
  let s := s.modTherm (fun t => ({ t with hold := vset t.hold d (some e), holdEnd := e }).count 5)
  s.record 0xC004 d []

/-- The substituted value of a failed sensor, kept up with its neighbours. The first one is counted and recorded, also where the
sensor finds its first valid neighbour later (R357), and begins the hold that the failure calls for (R358). -/
def State.resubstitute (s : State) (i : Nat) : State :=
  match s.substitute i with
  | none => s
  | some v =>
    let first := !(vget s.therm.subst i false)
    let s := s.modTherm (fun t =>
      let t := { t with value := vset t.value i v, subst := vset t.subst i true }
      if first then t.count 4 else t)
    let s := s.recordIf first 0xC003 i (s.lastReading i ++ leI 2 v)
    if first && vget s.therm.owed i false then s.throttleHold (i / 2) else s

/-- What a failure of sensor `i` leads to: its record, the substitution or the blind die, and the hold where it was its die's hottest
sensor at level 1 or higher (R356 to R358). With both designated neighbours valid the failure is masked and raises no fault
(R454, Assumption 141). -/
def State.noteFailure (s : State) (i cause : Nat) (hottest : Bool) : State :=
  let d := i / 2
  let det := le 1 cause ++ s.lastReading i
  let masked := s.sensorOk (partner i) && s.sensorOk (secondNeighbour i)
  let s := s.record 0xC002 i det
  let s := if masked then s else s.report 0xE010 i det
  let s := s.modTherm (fun t => { t with owed := vset t.owed i (hottest && decide (1 ≤ vget t.level d 0)) })
  match s.substitute i with
  | none => (s.modTherm (fun t => { t with blind := vset t.blind d true })).report 0xE010 i det
  | some _ => s.resubstitute i

/-- Whether sensor `i` gives its die's maximum. -/
def State.hottestOf (s : State) (i : Nat) : Bool := decide (s.sensor (partner i) ≤ s.sensor i)

/-- SENSOR_UNAVAILABLE_EXPIRY: a drive die has been in reset for 50 ms, and its two sensors count as electrically failed
(R359). -/
def execSensorUnavailableExpiry (d : Fin 4) (s : State) : Host.Outcome State Fault Refusal :=
  .next (match vget s.therm.unavail d none with
    | none => s
    | some t =>
      let s := s.at (t + 50000000)
      let s := s.modTherm (fun x => { x with unavail := vset x.unavail d none })
      let lost := ([2 * d.val, 2 * d.val + 1].filter (fun i => !s.sensorFailed i)).map (fun i => (i, s.hottestOf i))
      let s := lost.foldl (fun s p => s.markFailed p.1 2) s
      lost.foldl (fun s p => s.noteFailure p.1 2 p.2) s)

/-- THROTTLE_HOLD_EXPIRY: the hold of R358 ends; the next sample decides the level. -/
def execThrottleHoldExpiry (d : Fin 6) (s : State) : Host.Outcome State Fault Refusal :=
  .next (match vget s.therm.hold d none with
    | none => s
    | some t => (s.at t).modTherm (fun x => { x with hold := vset x.hold d none }))

/-- The reading of sensor `i` taken at a sample: kept by a sensor that has not failed and does not fail now; the sensors of
a die in reset keep their last valid reading (R356, R359). -/
def State.readSensor (s : State) (f : FrameIn) (failing : List Nat) (i : Nat) : State :=
  if s.sensorFailed i || failing.contains i then s
  else if s.sensorGone i then s.modTherm (fun t => { t with
    status := vset t.status i 3, value := vset t.value i ((vget t.lastOk i none).getD 0) })
  else
    let r := vget f.temps i 0
    s.modTherm (fun t => { t with status := vset t.status i 0, value := vset t.value i r, lastOk := vset t.lastOk i (some r) })

/-- The sensors that fail electrically at a sample: outside −60 °C to +210 °C, or the converter's self-check fails. -/
def State.failing (s : State) (f : FrameIn) : List Nat :=
  (List.range 12).filter (fun i =>
    let r := vget f.temps i 0
    s.sensorOk i && (decide (r < -600) || decide (2100 < r) || !(vget f.tempSelfOk i true)))

/-- Die `d` is blind while one of its failed sensors has no valid neighbour; the supervisor hears of it (R357). -/
def State.blindCheck (s : State) (d : Nat) : State :=
  let lost := [2 * d, 2 * d + 1].filter (fun i =>
    s.sensorFailed i && (s.substitute i).isNone)
  let was := vget s.therm.blind d false
  let s := s.modTherm (fun t => { t with blind := vset t.blind d (!lost.isEmpty) })
  match lost with
  | i :: _ => if was then s else s.report 0xE010 i (le 1 (if vget s.therm.status i 0 = 2 then 1 else 0) ++ s.lastReading i)
  | [] => s

/-- The cross-check of the pair of die `d` (R356): a difference above P 0x1500.10 in every sample for 300 ms fails the
partner that differs more from its second neighbour, or both: the sensors that fail, marked so, their records still to come. -/
def State.crossCheck (s : State) (d : Nat) : State × List Nat :=
  let fails := fun (s : State) (l : List Nat) => (l.foldl (fun s i => s.markFailed i 1) s, l)
  let a := 2 * d
  let b := 2 * d + 1
  let differs := s.sensorOk a && s.sensorOk b &&
    decide (s.pI 0x1500 0x10 < ((s.sensor a - s.sensor b).natAbs : Int))
  if !differs then (s.modTherm (fun t => { t with diffAt := vset t.diffAt d none }), [])
  else
    let since := (vget s.therm.diffAt d none).getD s.it
    if s.it < since + 300000000 then (s.modTherm (fun t => { t with diffAt := vset t.diffAt d (some since) }), [])
    else
      let na := secondNeighbour a
      let nb := secondNeighbour b
      let ra := if s.sensorOk na then some na else if s.sensorOk nb then some nb else none
      let rb := if s.sensorOk nb then some nb else if s.sensorOk na then some na else none
      let s := s.modTherm (fun t => { t with diffAt := vset t.diffAt d none })
      match ra, rb with
      | some x, some y =>
        let da := (s.sensor a - s.sensor x).natAbs
        let db := (s.sensor b - s.sensor y).natAbs
        fails s (if da = db then [a, b] else if db < da then [a] else [b])
      | _, _ => fails s [a, b]

/-- The level the die maximum asks for (R360): the highest threshold reached, or the lowest level consistent with lying
below each higher threshold less the hysteresis. -/
def State.levelFor (s : State) (d cur : Nat) : Nat :=
  let m := s.dieMax d
  let reach := fun (x : Int) => if s.limit d 2 ≤ x then 3 else if s.limit d 1 ≤ x then 2 else if s.limit d 0 ≤ x then 1 else 0
  let up := reach m
  let up := if (vget s.therm.blind d false) then 3 else up
  if cur ≤ up then up else min cur (max up (reach (m + s.pI 0x1500 0xD)))

/-- The throttle level of die `d` decided at a sample, its record and its notice for two boundaries on (R360, R361). -/
def State.setLevel (s : State) (d : Nat) : State :=
  let cur := vget s.therm.level d 0
  let want := s.levelFor d cur
  let heldLong := decide (vget s.therm.since d 0 + s.pN 0x1500 0xE * 1000000 ≤ s.it)
  let hold : Bool := match vget s.therm.hold d none with | some e => decide (s.it < e) | none => false
  if want = cur ∨ (want < cur ∧ (!heldLong ∨ hold)) then s
  else
    let s := s.modTherm (fun t =>
      let t := { t with level := vset t.level d want, since := vset t.since d s.it,
                        notices := t.notices ++ [(d, want, s.it + 2000000)] }
      if want = 0 then t else t.count (want - 1))
    s.record 0xC001 d ([BitVec.ofNat 8 cur, BitVec.ofNat 8 want] ++ leI 2 (s.dieMax d))

/-- A valid reading at or above its die's shutdown limit in two consecutive samples sets THERMAL-LATCH, and every sensor that comes
to it is reported (R363); a latching sensor on the power die turns the KEEP switches off for good (R364). Of several
sensors P 0x1501.08 names the last (Assumption 117). -/
def State.shutdownCheck (s : State) (i : Nat) : State :=
  if s.sensorOk i && decide (s.limit (i / 2) 3 ≤ s.sensor i) then
    let n := vget s.therm.shutN i 0 + 1
    let s := s.modTherm (fun t => { t with shutN := vset t.shutN i n })
    if n = 2 then
      let s : State := { s with
        sup := { s.sup with thermal := true }, therm := { s.therm with latchBy := i, keepOff := s.therm.keepOff || i == 8 || i == 9 } }
      (s.record 0xC005 i []).report 0xE011 i []
    else s
  else s.modTherm (fun t => { t with shutN := vset t.shutN i 0 })

/-- Slow or fast period for the next boundary (R355). -/
def State.samplePeriod (s : State) : State :=
  let near := (List.range 12).any (fun i => decide (s.limit (i / 2) 0 - 150 ≤ s.sensor i))
  if near then s.modTherm (fun t => { t with fast := true, coolAt := none })
  else
    let c := s.therm.coolAt.getD s.it
    s.modTherm (fun t => { t with coolAt := some c, fast := t.fast && decide (s.it < c + 1000000000) })

/-- The sensor that gives the module maximum, the lowest number on a tie (P 0x1501.05). -/
def State.hottest (s : State) : Nat :=
  (List.range 12).foldl (fun m i => if s.sensor m < s.sensor i then i else m) 0

/-- The entries of R368 renewed at a sample. -/
def State.thermalShow (s : State) : State :=
  let f := [s.therm.latchBy != 0xFF, s.therm.fast, s.therm.hold.toList.any (·.isSome), s.therm.blind.toList.any (·)]
  let maxima := Vector.ofFn (fun (d : Fin 6) => s.dieMax d)
  s.modTherm (fun t => { t with shown :=
    ⟨t.value, t.status, t.level, s.sensor s.hottest, s.hottest, maxima, bits f, t.latchBy, t.counters, t.holdEnd⟩ })

/-- THERMAL_SAMPLE at the boundary `s.it`: every sensor in slow period at every 100th boundary, in fast period at every
one, evaluated in the same frame. Every failure of the sample is found before a value is substituted: no sensor that fails at it
stands in for another. -/
def State.thermalSample (s : State) (f : FrameIn) : State :=
  if !s.therm.fast && s.it / 1000000 % 100 != 0 then s
  else
    let ids := List.range 12
    let bad := s.failing f
    let hot := bad.filter (fun i => s.hottestOf i)
    let s := bad.foldl (fun s i => s.markFailed i 0) s
    let s := ids.foldl (fun s i => s.readSensor f bad i) s
    let warm := ids.filter (fun i => s.hottestOf i)
    let (s, worse) := (List.range 6).foldl (fun (p : State × List Nat) d =>
      let r := p.1.crossCheck d
      (r.1, p.2 ++ r.2)) (s, [])
    let s := bad.foldl (fun s i => s.noteFailure i 0 (hot.contains i)) s
    let s := worse.foldl (fun s i => s.noteFailure i 1 (warm.contains i)) s
    let s := (ids.filter (fun i => s.sensorFailed i)).foldl (fun s i => s.resubstitute i) s
    let s := (List.range 6).foldl (fun s d => s.blindCheck d) s
    let s := ids.foldl (fun s i => s.shutdownCheck i) s
    let s := (List.range 6).foldl (fun s d => s.setLevel d) s
    s.samplePeriod.thermalShow

/-- The notices of R361 at a boundary: a change decided in frame k is planned with from frame k + 1 and acts from
boundary k + 2. -/
def State.thermalNotices (s : State) : State :=
  s.modTherm (fun t =>
    let due := t.notices.filter (fun n => decide (n.2.2 ≤ s.it))
    { t with
      plan := t.notices.foldl (fun v n => if n.2.2 ≤ s.it + 1000000 then vset v n.1 n.2.1 else v) t.plan,
      acting := due.foldl (fun v n => vset v n.1 n.2.1) t.acting,
      notices := t.notices.filter (fun n => decide (s.it < n.2.2)) })

end Sys2Proof.Machine
end

