-- ==== Sys2Proof/Machine/Flyer.lean ====
section
/-! DEFINITION. Flyer's spinners (R288 to R304): the shadow set, the transfer, the period lattice and the pulse a period
makes. Ticks of 6.25 ns count from Izcel tick 0. -/

namespace Sys2Proof.Machine

/-- Spinner `k`. -/
def State.sp (s : State) (k : Nat) : Spinner := vget s.spin k Spinner.reset

/-- Spinner `k` changed. -/
def State.modSp (s : State) (k : Nat) (f : Spinner → Spinner) : State := { s with spin := vmod s.spin k f }

/-- A spinner counter raised (P 0x3400+k.15). -/
def Spinner.count (x : Spinner) (i : Nat) : Spinner := { x with counters := vmod x.counters i (fun n => sat32 (n + 1)) }

/-- The spinner whose destination is code `d` of P 0x3400+k.01, the lowest number first. -/
def State.spinnerOf (s : State) (d : Nat) : Option Nat := (List.range 16).find? (fun k => s.pN (0x3400 + k) 1 == d)

/-- Whether spinner `k` is in COMPLEMENTARY mode. -/
def State.complementary (s : State) (k : Nat) : Bool := s.pN (0x3400 + k) 2 == 0

/-- A write to the shadow set at the present time (R299, R300): from 4 ticks before the period end on it is late and
takes effect one transfer later. -/
def State.spinWrite (s : State) (k : Nat) (f : SpinSet → SpinSet) : State :=
  s.modSp k (fun x =>
    if x.live && decide (x.ends ≤ tickUp s.it + 4) then
      { x with late := some (f (x.late.getD x.shadow)), lateFlag := true,
               counters := vmod x.counters 4 (fun n => sat32 (n + 1)) }
    else { x with shadow := f x.shadow, fresh := true })

/-- The leader of spinner `k`, if it follows one (R293). One that a COMMIT would be refused for, a follower or itself, leads
nothing. -/
def State.leader (s : State) (k : Nat) : Option Nat :=
  let l := s.pN (0x3400 + k) 7
  if l = 0 ∨ l = k + 1 ∨ s.pN (0x33FF + l) 7 ≠ 0 then none else some (l - 1)

/-- The host duty of spinner `k` as its destination takes it: a load switch that the budget has limited caps it at its percentage
(R289, R326). -/
def State.hostDuty (s : State) (k : Nat) : Nat :=
  let d := s.pN (0x3400 + k) 1
  if 7 ≤ d then s.pN (0x3400 + k) 0xA * (s.ld (d - 7)).pct / 100 else s.pN (0x3400 + k) 0xA

/-- The set the parameters of spinner `k` give, with a duty word: dead time and minimum pulse rounded up to a tick
(R290, R295). A follower runs on its leader's period instead (R293). -/
def State.spinConfig (s : State) (k duty : Nat) : SpinSet :=
  { duty := duty, period := s.pN (0x3400 + k) 3,
    dead := if s.complementary k then tickUp (s.pN (0x3400 + k) 4) else 0,
    minp := tickUp (s.pN (0x3400 + k) 5), stretch := s.pN (0x3400 + k) 6 == 1 }

/-- A class F write of P 0x3400+k.`sub` goes to the shadow set of spinner `k` (R299, R300). The host duty acts for a load switch
alone (R289), a period for a spinner without a leader alone (R293). -/
def State.spinParam (s : State) (k sub : Nat) : State :=
  if sub = 3 ∧ (s.leader k).isSome then s
  else s.spinWrite k (fun x => s.spinConfig k (if 7 ≤ s.pN (0x3400 + k) 1 then s.hostDuty k else x.duty))

/-- The budget has changed the percentage of the load switch of spinner `k`: the duty it takes goes to the shadow set (R299, R326). -/
def State.spinCap (s : State) (k : Nat) : State :=
  let x := s.sp k
  if !x.live || s.pN (0x3400 + k) 1 < 7 || (x.late.getD x.shadow).duty == s.hostDuty k then s
  else s.spinWrite k (fun y => { y with duty := s.hostDuty k })

/-- The first tick above `a` of the lattice φ + m × P. -/
def latticeAfter (phi p a : Nat) : Nat :=
  if p = 0 then a + 1 else if a < phi then phi else phi + ((a - phi) / p + 1) * p

/-- The start of period `j` of a leader, as it stands (R293). -/
def Spinner.startOf (y : Spinner) (j : Nat) : Nat :=
  if j ≤ y.m then y.start - (y.m - j) * y.cur.period else y.ends + (j - y.m - 1) * y.shadow.period

/-- The period of a leader in force at tick `b`. -/
def Spinner.periodAt (y : Spinner) (b : Nat) : Nat := if y.ends ≤ b then y.shadow.period else y.cur.period

/-- The period with its count and start that tick `a` lies in on the lattice of spinner `k` at `p` ticks (R291). -/
def State.latticeAt (s : State) (k p a : Nat) : Nat × Nat :=
  let phi := s.pN (0x3400 + k) 9
  let m := if a < phi ∨ p = 0 then 0 else (a - phi) / p
  (m, phi + m * p)

/-- Leader `l` as its followers see it: its periods as they run. One that no COMMIT has given a destination leads on its lattice
(R291, R293; Assumption 138). -/
def State.leading (s : State) (l : Nat) : Spinner :=
  let y := s.sp l
  if y.live then y
  else
    let p := s.pN (0x3400 + l) 3
    let r := s.latticeAt l p (tickDown s.it)
    { y with m := r.1, start := r.2, ends := r.2 + p, cur := { y.cur with period := p }, shadow := { y.shadow with period := p } }

/-- The period that spinner `k` takes at its next transfer: a follower's is its leader's then (R293). -/
def State.nextPeriod (s : State) (k : Nat) : Nat :=
  match s.leader k with
  | some l => (s.leading l).periodAt (s.sp k).ends
  | none => (s.sp k).shadow.period

/-- The offset of follower `k` on period `p`, in ticks. -/
def State.followOff (s : State) (k p : Nat) : Nat := s.pN (0x3400 + k) 8 * p / 65536

/-- Where the period of spinner `k` that starts at tick `b` on period `p` ends (R291 to R293): on its own lattice, on the
lattice anchored at its last period change, or with its leader's next start plus the offset of the running period. -/
def State.periodEnd (s : State) (k b p : Nat) : Nat :=
  match s.leader k with
  | some l =>
    let o := s.followOff k p
    if (s.sp l).live then max (b + 1) ((s.sp l).startOf ((s.sp k).lead + 1) + o)
    else latticeAfter (s.pN (0x3400 + l) 9) (s.pN (0x3400 + l) 3) (b - o) + o
  | none =>
    match (s.sp k).anchor with
    | some _ => b + max p 1
    | none => latticeAfter (s.pN (0x3400 + k) 9) p b

/-- Whether the device state lets spinner signals act (R302). -/
def State.spinActive (s : State) : Bool := s.power.dev == .run || s.power.dev == .bare

/-- The host duty for a load switch, else the duty the destination has passed on (R289): none outside RUN and BARE, where no owner
commands it and its destination may be another from one commit to the next. -/
def State.ownDuty (s : State) (k : Nat) : Nat :=
  if 7 ≤ s.pN (0x3400 + k) 1 then s.hostDuty k else if s.spinActive then (s.sp k).shadow.duty else 0

/-- A new destination of spinner `k`: the duty word passed on for the old one has no owner any more (R289). -/
def State.spinDest (s : State) (k : Nat) : State :=
  if (s.sp k).live then s.spinWrite k (fun x => { x with duty := s.ownDuty k }) else s

/-- When what is written now for the spinner of destination code `d` takes effect: at its next transfer, at the one after where the
write is late (R299, R300); at once without a spinner. -/
def State.takesAt (s : State) (d : Nat) : IT :=
  match s.spinnerOf d with
  | none => s.it
  | some k =>
    let e := (s.sp k).ends
    if !(s.sp k).live then s.it
    else if e ≤ tickUp s.it + 4 then tickNs (s.periodEnd k e (s.nextPeriod k)) else tickNs e

/-- A spinner without a leader that the commit boundary finds with a destination: its period count starts at the lattice at
the first such commit, and later commits put it back on φ (R291, R292, R302). -/
def State.spinCommit (s : State) (k : Nat) : State :=
  if s.pN (0x3400 + k) 1 = 0 ∨ (s.leader k).isSome then s
  else
    let c := s.spinConfig k (s.ownDuty k)
    if (s.sp k).live then
      let s := if c = (s.sp k).shadow then s else s.spinWrite k (fun _ => c)
      s.modSp k (fun x => { x with anchor := none })
    else
      let r := s.latticeAt k c.period (tickDown s.it)
      let s := s.modSp k (fun x => { x with
        live := true, cur := c, shadow := c, start := r.2, m := r.1, anchor := none, fresh := false })
      s.modSp k (fun x => { x with ends := s.periodEnd k r.2 c.period })

/-- Follower `k` joins the periods of its leader `l`, its count with the leader's where it begins (R293). -/
def State.followJoin (s : State) (k l : Nat) : State :=
  let c := s.spinConfig k (s.ownDuty k)
  let y := s.leading l
  let p := y.cur.period
  let st := y.start + s.followOff k p
  let back := decide (tickDown s.it < st)
  let lead := if back then y.m - 1 else y.m
  let st := if back then st - p else st
  let s := if (s.sp k).live then (if c = (s.sp k).shadow then s else s.spinWrite k (fun _ => c))
    else s.modSp k (fun x => { x with
      live := true, cur := { c with period := p }, shadow := c, start := st, m := lead, fresh := false })
  let s := s.modSp k (fun x => { x with lead := lead, anchor := none })
  s.modSp k (fun x => { x with ends := s.periodEnd k st p })

/-- A follower that the commit boundary finds with a destination joins its leader. -/
def State.followCommit (s : State) (k : Nat) : State :=
  match s.leader k with
  | none => s
  | some l => if s.pN (0x3400 + k) 1 = 0 then s else s.followJoin k l

/-- A write of P 0x3400+k.07 acts on a spinner whose periods run: it joins its new leader, or runs on a lattice of its own from the
end of the running period (R293). -/
def State.spinLead (s : State) (k : Nat) : State :=
  if !(s.sp k).live then s
  else match s.leader k with
    | some l => s.followJoin k l
    | none => (s.spinWrite k (fun x => s.spinConfig k x.duty)).modSp k (fun x => { x with anchor := none })

/-- Every spinner at a commit boundary, leaders before their followers. -/
def State.spinsCommit (s : State) : State :=
  (List.range 16).foldl State.followCommit ((List.range 16).foldl State.spinCommit s)

/-- Bit reversal of 4 bits (R295). -/
def rev4 (m : Nat) : Nat := (m % 2) * 8 + (m / 2 % 2) * 4 + (m / 4 % 2) * 2 + m / 8 % 2

/-- What a period makes (R295): the high and low times in phase steps and the counter of ZERO, HIGH-DROPPED,
HIGH-STRETCHED that it raises, and whether it drops the low pulse. -/
structure PulseMade where
  high    : Nat
  low     : Nat
  counted : Option Nat
  lowDrop : Bool
  deriving DecidableEq, Repr

/-- The pulse of period `m` with the set `c`, in COMPLEMENTARY mode or not (R295). -/
def pulseOf (c : SpinSet) (m : Nat) (compl : Bool) : PulseMade :=
  let r := c.duty / 16 + (if rev4 (m % 16) < c.duty % 16 then 1 else 0)
  let low := fun (h : Nat) =>
    let l : Int := 8 * (c.period : Int) - h - 16 * c.dead
    if !compl then (0, false) else if l < 8 * c.minp then (0, true) else (l.toNat, false)
  if r ≤ 8 * c.dead then ⟨0, if compl then 8 * c.period else 0, some 0, false⟩
  else
    let h := r - 8 * c.dead
    if h < 8 * c.minp then
      if c.stretch then
        let l := low (8 * c.minp)
        ⟨8 * c.minp, l.1, some 2, l.2⟩
      else ⟨0, if compl then 8 * c.period else 0, some 1, false⟩
    else
      let l := low h
      ⟨h, l.1, none, l.2⟩

/-- Whether spinner `k` drives its destination: it has one, and the device state lets it; in BARE a load switch is driven where
R331 lets it run (R302). -/
def State.spinDrives (s : State) (k : Nat) : Bool :=
  let d := s.pN (0x3400 + k) 1
  s.spinActive && d != 0 && (s.power.dev == .run || d < 7 || s.ldWant (d - 7))

/-- The period laid out: the sides' times, its edges, what it counts, its flags. A period is full off, full on, or makes a
pulse (R295 to R297). A pulse starts a dead time after the period start also where the high side stood on before it
(Assumption 139). -/
def Spinner.layOut (x : Spinner) (compl : Bool) : Spinner :=
  let at0 := 8 * x.start
  let dt := 8 * x.cur.dead
  let lowOff : List SideEdge := if x.loOn then [⟨at0, false, false⟩] else []
  let highOff : List SideEdge := if x.hiOn then [⟨at0, true, false⟩] else []
  let lowStays : List SideEdge :=
    if !compl || x.loOn then [] else [⟨if x.hiOn then at0 + dt else at0, false, true⟩]
  let highOn : List SideEdge :=
    if !x.hiOn then [⟨at0 + dt, true, true⟩] else if dt = 0 then [] else [⟨at0, true, false⟩, ⟨at0 + dt, true, true⟩]
  let idle := { x with
    high := 0, low := if compl then 8 * x.cur.period else 0, edges := highOff ++ lowStays, hiOn := false, loOn := compl,
    fullOn := false, fullOff := false, stretching := false, dropping := false }
  if x.cur.duty = 0 then { idle with fullOff := true }
  else if 128 * x.cur.period ≤ x.cur.duty then { x with
    high := 8 * x.cur.period, low := 0,
    edges := lowOff ++ (if x.hiOn then [] else [⟨if x.loOn then at0 + dt else at0, true, true⟩]), hiOn := true, loOn := false,
    fullOn := true, fullOff := false, stretching := false, dropping := false }
  else
    let p := pulseOf x.cur x.m compl
    let y := if p.high = 0 then { idle with dropping := p.counted == some 1 }
      else { x with
        high := p.high, low := p.low,
        edges := lowOff ++ highOn ++ [⟨at0 + dt + p.high, true, false⟩] ++
          (if p.low = 0 then [] else [⟨at0 + 2 * dt + p.high, false, true⟩]),
        hiOn := false, loOn := p.low != 0, fullOn := false, fullOff := false, stretching := p.counted == some 2,
        dropping := false }
    let y := match p.counted with
      | some i => y.count i
      | none => y
    if p.lowDrop then y.count 3 else y

/-- Whether a side of a spinner is on at phase step `a` of the running period: as its last edge up to then left it, else as it
stood before its first edge. -/
def Spinner.sideAt (x : Spinner) (hi : Bool) (a : Nat) : Bool :=
  let mine := x.edges.filter (fun e => e.high == hi)
  match (mine.filter (fun e => decide (e.at_ ≤ a))).getLast?, mine.head? with
  | some e, _ => e.on
  | none, some e => !e.on
  | none, none => if hi then x.hiOn else x.loOn

/-- Both sides off from phase step `a` on (R302). -/
def Spinner.gateOff (x : Spinner) (a : Nat) : Spinner :=
  { x with
    edges := x.edges.filter (fun e => decide (e.at_ < a)) ++ (if x.sideAt true a then [⟨a, true, false⟩] else []) ++
      (if x.sideAt false a then [⟨a, false, false⟩] else []),
    high := 0, low := 0, hiOn := false, loOn := false, fullOn := false, fullOff := false, stretching := false, dropping := false,
    gated := true }

/-- The running period's signals act from phase step `a` on, with the sides off until then (R302). -/
def Spinner.gateOn (x : Spinner) (a : Nat) (compl : Bool) : Spinner :=
  let y := { x with hiOn := false, loOn := false, edges := [], gated := false }.layOut compl
  { y with edges := (if y.sideAt false a then [⟨a, false, true⟩] else []) ++ (if y.sideAt true a then [⟨a, true, true⟩] else []) ++
      y.edges.filter (fun e => decide (a < e.at_)) }

/-- The signals of spinner `k` gated as the device state asks now (R302). -/
def State.spinFollow (s : State) (k : Nat) : State :=
  let a := 8 * tickUp s.it
  if !(s.sp k).live || s.spinDrives k == !(s.sp k).gated then s
  else if s.spinDrives k then s.modSp k (fun x => x.gateOn a (s.complementary k))
  else s.modSp k (fun x => x.gateOff a)

/-- Every spinner brought to the percentage of its load switch and gated as the device state asks now. -/
def State.spinsFollow (s : State) : State := (List.range 16).foldl (fun s k => (s.spinCap k).spinFollow k) s

/-- The period that begins on the set in use; both sides are off while the spinner does not drive (R302). -/
def State.spinPeriod (s : State) (k : Nat) : State :=
  if s.spinDrives k then s.modSp k (fun x => { x with gated := false }.layOut (s.complementary k))
  else s.modSp k (fun x => { x with edges := [] }.gateOff (8 * x.start))

/-- The transfer of spinner `k` at the end of its period (R299 to R301): the shadow set comes into use, late values
become the shadow set, and the next period is laid out. -/
def State.spinTransfer (s : State) (k : Nat) : State :=
  let b := (s.sp k).ends
  let s := s.at (tickNs b)
  let p := s.nextPeriod k
  let s := s.modSp k (fun x => { x with
    anchor := if x.shadow.period ≠ x.cur.period then some b else x.anchor,
    cur := { x.shadow with period := p }, taken := if x.fresh then tickNs b else x.taken,
    shadow := x.late.getD x.shadow, fresh := x.late.isSome, lateFlag := x.late.isSome, late := none,
    start := b, m := x.m + 1, lead := x.lead + 1, stretchLast := x.stretching, dropLast := x.dropping })
  s.modSp k (fun x => { x with ends := s.periodEnd k b p })

/-- The flags of P 0x3400+k.16; STRETCHING and DROPPING stand for the last period, which has ended (R304). -/
def State.spinFlags (s : State) (k : Nat) : Nat :=
  let x := s.sp k
  bits [x.fullOn, x.fullOff, x.stretchLast, x.dropLast, x.lateFlag, x.live && !(s.spinDrives k)]

/-- The state code of P 0x3400+k.17. -/
def State.spinCode (s : State) (k : Nat) : Nat :=
  if s.pN (0x3400 + k) 1 = 0 then 0 else if s.spinDrives k then 2 else 1

/-! ### Load switches that go on again, with the duty of their spinners (R326, R328) -/

/-- LOAD_RESTART: after a trip every condition of R328 holds, and the switch goes through the gates again. One whose latch was
reported waits for its fault to be cleared (R455). -/
def execLoadRestart (j : Fin 16) (t : IT) (junction : Int) (s : State) : Host.Outcome State Fault Refusal :=
  .next (
    let l := s.ld j
    match l.tripAt with
    | none => s
    | some x =>
      let s := (s.at t).modLd j (fun l => { l with junction := junction })
      let cool := s.pN (0x3600 + j.val) 9 == 1 || decide (s.ldJunction j junction < 1750 - 10 * s.pN (0x3600 + j.val) 0xA)
      if decide (x + s.pN (0x3600 + j.val) 0xC * 1000000 ≤ t) && decide (l.retries ≤ s.pN (0x3600 + j.val) 0xB) &&
          cool && !l.therm && !l.retryL && !(s.contained 0xE005 (7 + j.val)) && !(s.ldThermHold j) && s.ldWant j then
        ((s.modLd j (fun l => { l with tripAt := none })).ldTry j).spinsFollow
      else s)

/-- LOAD_SHED_RETRY: a switch that waits after DEFERRED or SHED submits again (R326). -/
def execLoadShedRetry (j : Fin 16) (s : State) : Host.Outcome State Fault Refusal :=
  .next (
    match (s.ld j).waitTill with
    | none => s
    | some t => (((s.at t).modLd j (fun l => { l with waitTill := none })).ldTry j).spinsFollow)

end Sys2Proof.Machine
end

