-- ==== Sys2Proof/Machine/Bridges.lean ====
section
/-! DEFINITION. The H-bridges and gate-driver ports (R305 to R320): duty words from commands, valve drives, commutation,
stall, trips, and what each device state does to them. -/

namespace Sys2Proof.Machine

/-- Bridge `h`. -/
def State.br (s : State) (h : Nat) : Bridge := vget s.bridges h Bridge.reset

/-- Bridge `h` changed. -/
def State.modBr (s : State) (h : Nat) (f : Bridge → Bridge) : State := { s with bridges := vmod s.bridges h f }

/-- A bridge counter raised (P 0x3500+h.1C). -/
def Bridge.count (x : Bridge) (i : Nat) : Bridge := { x with counters := vmod x.counters i (fun n => sat32 (n + 1)) }

/-- Port `g`. -/
def State.pt (s : State) (g : Nat) : Port := vget s.ports g Port.reset

/-- Port `g` changed. -/
def State.modPt (s : State) (g : Nat) (f : Port → Port) : State := { s with ports := vmod s.ports g f }

/-- A port counter raised (P 0x3508+g.1B). -/
def Port.count (x : Port) (i : Nat) : Port := { x with counters := vmod x.counters i (fun n => sat32 (n + 1)) }

/-- The drive mode of bridge `h`: 0 VOLTAGE, 1 CURRENT, 2 VALVE. -/
def State.brMode (s : State) (h : Nat) : Nat := s.pN (0x3500 + h) 3

/-- The duty word of a command: |u| × 128 × P rounded (R306, R312). -/
def dutyWord (u : F32) (p : Nat) : Nat := (f32ToInt (f32Abs u) (128 * p)).toNat

/-- A duty word for the spinner of destination code `d` written to its shadow set. -/
def State.writeDuty (s : State) (d w : Nat) : State :=
  match s.spinnerOf d with
  | none => s
  | some k => s.spinWrite k (fun x => { x with duty := w })

/-- The spinner period in ticks of destination code `d`, as a duty word written now will find it. -/
def State.periodOf (s : State) (d : Nat) : Nat :=
  match s.spinnerOf d with
  | none => 0
  | some k => s.nextPeriod k

/-- Whether bridge `h` may drive: not TRIPPED, not OC-LATCHED, and its fault cleared (R316, R455). -/
def State.brFree (s : State) (h : Nat) : Bool :=
  (s.br h).tripTill.isNone && !(s.br h).latch && !(s.contained 0xE005 (1 + h))

/-- Whether port `g` may drive: not TRIPPED, not OC-LATCHED, its fault cleared, and not stalled (R314, R316, R455). -/
def State.ptFree (s : State) (g : Nat) : Bool :=
  (s.pt g).tripTill.isNone && !(s.pt g).latch && !(s.contained 0xE005 (5 + g)) && !(s.pt g).stall

/-- The state code of a driven bridge: its direction, or both low sides on in the full-off period of a turn (R306). -/
def Bridge.drives (x : Bridge) : Nat := if x.turning = 2 then 3 else if x.sign then 2 else 1

/-- Whether bridge `h` is in use and has an owner (R305). -/
def State.brOwned (s : State) (h : Nat) : Bool := s.pB (0x3500 + h) 1 && s.pN (0x3500 + h) 2 != 0

/-- A duty word passed on by the stage of bridge `h`: while the 1 s mean limit cuts it, how far below is a free value (R316,
Assumption 4). -/
def State.passDuty (s : State) (h w : Nat) : State :=
  if (s.br h).cut then s.draw.writeDuty (1 + h) (s.drawn % max 1 w) else s.writeDuty (1 + h) w

/-- A command of Whorl for bridge `h` (R306, R307): the duty word for the spinner, full off until the direction may turn.
In CURRENT mode a command is held to 0 to 8,000 mA (R305) and the inner loop sets the duty word at each transfer. -/
def State.bridgeCmd (s : State) (h : Nat) (u : F32) : State :=
  let cur := s.brMode h == 1
  let u := if !cur then u else if f32Neg u then 0 else f32Min u (f32OfInt 8000)
  let neg := f32Neg u && !(f32IsZero u)
  let turn := !cur && !(f32IsZero u) && neg != (s.br h).sign
  let free := s.brFree h
  let s := s.modBr h (fun x =>
    let x := { x with cmd := u, cmdAt := if u = x.cmd then x.cmdAt else s.it,
                      sign := x.sign && !cur, turning := if turn then max 1 x.turning else 0 }
    { x with state := if !(s.brOwned h) then 0 else if free then x.drives else x.state })
  if cur then s
  else s.passDuty h (if (s.br h).turning = 1 then 0 else dutyWord u (s.periodOf (1 + h)))

/-- The phases port `g` drives: the switched phase and the low one, by Hall sector, offset and direction (R312, R313). -/
def State.portPhases (s : State) (g : Nat) : Option (Nat × Nat) :=
  let hs := s.pN (0x3508 + g) 2
  let x := vget s.motion.halls hs Hall.reset
  if x.sector = 0 || x.badCode || !(s.pB (0x2040 + hs) 1) then none
  else
    let e := (x.sector - 1 + s.pN (0x3508 + g) 3) % 6
    let rev := f32Neg (s.pt g).cmd
    let t := if rev then [(1, 0), (2, 0), (2, 1), (0, 1), (0, 2), (1, 2)]
      else [(0, 1), (0, 2), (1, 2), (1, 0), (2, 0), (2, 1)]
    t[e]?

/-- Port `g` brought to its Hall code, command and trips: phases, HALL-INVALID and whether it drives. -/
def State.commutate (s : State) (g : Nat) : State :=
  let ph := s.portPhases g
  let on := s.pB (0x3508 + g) 1 && s.spinActive && s.ptFree g
  s.modPt g (fun x => { x with
    hallBad := ph.isNone, phases := if on then ph else none, driving := on && ph.isSome })

/-- Whether the command of port `g` exceeds its stall share (R314). -/
def State.overShare (s : State) (g : Nat) (u : F32) : Bool := f32Lt (f32OfRat (s.pN (0x3508 + g) 0xA) 100) (f32Abs u)

/-- A command of Whorl for port `g` (R312, R314): one that reaches or passes through 0 ends a stall and begins a new stall time. -/
def State.portCmd (s : State) (g : Nat) (u : F32) : State :=
  let s := s.modPt g (fun x => { x with
    cmd := u, stall := x.stall && !(f32IsZero u) && f32Neg u == f32Neg x.cmd,
    stallAt := if s.overShare g u then some (if f32Neg u == f32Neg x.cmd then x.stallAt.getD s.it else s.it) else none })
  (s.commutate g).writeDuty (5 + g) (dutyWord u (s.periodOf (5 + g)))

/-! ### Valve drives (R309 to R311) -/

/-- The duty word of a valve drive at a share in 0.01 %. -/
def State.driveDuty (s : State) (h share : Nat) : Nat := 128 * s.periodOf (1 + h) * share / 10000

/-- The drive of bridge `h` begins now at `pct` % of its duty share. -/
def State.valveStart (s : State) (h : Nat) (opens : Bool) (pct : Nat) : State :=
  let share := s.pN (0x3500 + h) 6 * pct
  let s := s.modBr h (fun x => { x with
    drive := some (opens, s.it, share), asked := none, again := none, valve := if opens then 3 else 4, state := if opens then 1 else 2,
    sign := !opens, timeout := false, endTrav := false })
  s.passDuty h (s.driveDuty h share)

/-- An opening drive judged by the budget at the present time, `first` the time of its first request (R310). -/
def State.valveAsk (s : State) (h : Nat) (first : IT) : State :=
  let ma := s.pEl 0x1400 8 4 h * s.pN (0x3500 + h) 6 / 100
  let (s, v) := s.requestTorque h ma (secondBoundary (s.takesAt (1 + h)))
  let opened := fun (s : State) (pct : Nat) =>
    (s.valveStart h true pct).sprayStart (128 + h) s.it (s.it + s.pN (0x3500 + h) 4 * 1000 * 100 / pct)
  let refuse := fun (s : State) =>
    (s.modBr h (fun x => ({ x with asked := none, shedNote := some s.it }).count 3)).record 0x9002 h []
  match v with
  | .granted => opened s 100
  | .limited p => opened s (max p 1)
  | .deferred d =>
    if first + 100000000 < s.it + d then refuse s
    else s.modBr h (fun x => { x with asked := some (first, s.it + d) })
  | .shed => refuse s

/-- A closing drive of bridge `h` at its edge time: class C0, never delayed; the spray ends the closing time later
(R309 to R311). One that stops a running opening first has 2 ms with both low sides on, which the stage holds by itself. -/
def State.valveClose (s : State) (h : Nat) : State :=
  let t := s.it
  let opening := match (s.br h).drive with
    | some (o, _, _) => o
    | none => false
  let s := s.noteVerdict ⟨0, 2 * 4096 + h, 1, 0, 0, 0, 0⟩ .granted
  let s := (s.sprayCmd (128 + h) t).sprayEnd (128 + h) t (t + s.pN (0x3500 + h) 5 * 1000) t false
  let s := s.valveStart h false 100
  if opening then s.modBr h (fun x => { x with state := 3 }) else s

/-- An edge of bridge `h` at the present time; one that finds the bridge tripped waits for its resumption (R316). -/
def State.valveEdge (s : State) (h : Nat) (opens : Bool) : State :=
  if !(s.brFree h) then s.modBr h (fun x => { x with again := some (opens, false) })
  else if opens then s.valveAsk h s.it else s.valveClose h

/-- VALVE_DRIVE_START: the first edge Spindle handed to bridge `h` falls due. -/
def execValveDriveStart (h : Fin 4) (s : State) : Host.Outcome State Fault Refusal :=
  .next (match (s.br h).edges with
    | [] => s
    | e :: es =>
      ((s.at e.it).modBr h (fun x => { x with edges := es })).valveEdge h e.opens)

/-- VALVE_DRIVE_RETRY: a deferred opening submits again (R310). -/
def execValveDriveRetry (h : Fin 4) (s : State) : Host.Outcome State Fault Refusal :=
  .next (match (s.br h).asked with
    | none => s
    | some (first, t) => (s.at t).valveAsk h first)

/-- END_OF_TRAVEL: the stage coasts and the position is the one commanded (R309 step 3). The current is not judged in the
first 100 ms and must then exceed the stall current P 0x3500+h.07 for 20 ms. -/
def execEndOfTravel (h : Fin 4) (x : TravelIn) (s : State) : Host.Outcome State Fault Refusal :=
  .next (match (s.br h).drive with
    | none => s
    | some (opens, t0, _) =>
      if x.at_ < t0 + 120000000 ∨ x.ma ≤ s.pN (0x3500 + h.val) 7 then s
      else
        let s := (s.at x.at_).modBr h (fun x => { x with
          drive := none, valve := if opens then 1 else 2, endTrav := true, state := 4 })
        s.writeDuty (1 + h.val) 0)

/-- TRAVEL_TIMEOUT: the drive time limit ends a drive without END-OF-TRAVEL (R309 step 4). -/
def execTravelTimeout (h : Fin 4) (s : State) : Host.Outcome State Fault Refusal :=
  .next (match (s.br h).drive with
    | none => s
    | some (opens, t0, _) =>
      let s := (s.at (t0 + s.pN (0x3500 + h.val) 8 * 1000000)).modBr h (fun x => ({ x with
        drive := none, valve := if opens then 1 else 2, timeout := true, state := 4 }).count 2)
      (s.writeDuty (1 + h.val) 0).record 0x9001 h [])

/-! ### Stall, trips and latches (R314, R316) -/

/-- Whether a stall of port `g` can stand at `t`: it may drive, its command has exceeded the stall share for the stall time,
and its Hall set has been STOPPED or STARTING for as long (R314). -/
def State.stallDue (s : State) (g : Nat) (t : IT) : Bool :=
  let x := s.pt g
  let hs := vget s.motion.halls (s.pN (0x3508 + g) 2) Hall.reset
  s.pB (0x3508 + g) 1 && s.spinActive && s.ptFree g && (hs.status == 1 || hs.status == 2) &&
    (match x.stallAt with
      | some a => decide (max a hs.slowAt + s.pN (0x3508 + g) 0xB * 1000000 ≤ t)
      | none => false)

/-- MOTOR_STALL: the gates go off, STALL and its record (R314). -/
def execMotorStall (g : Fin 2) (t : IT) (s : State) : Host.Outcome State Fault Refusal :=
  .next (
    if !(s.stallDue g t) then s
    else
      let s := (s.at t).modPt g (fun x => ({ x with stall := true }).count 2)
      (s.commutate g).record 0x9003 g [])

/-- A trip of a bridge at `t` (R316); one that reaches no latch raises no fault (R454). A valve drive under way is made again once the bridge resumes; an opening so cut off
sprays from its second drive on. An opening that waits for the budget is asked for again then. -/
def State.bridgeTrip (s : State) (h : Nat) (t : IT) : State :=
  let trips := ((s.br h).trips ++ [t]).filter (fun x => decide (t ≤ x + 10000000000))
  let latch := decide (s.pN (0x3500 + h) 0x10 < trips.length)
  let s := match (s.br h).drive with
    | some (true, _, _) => s.sprayVoid (128 + h) t
    | _ => s
  let s := s.modBr h (fun x =>
    let x := match x.drive with
      | some (o, _, _) => { x with again := some (o, !o), valve := 0 }
      | none => if x.asked.isSome then { x with again := some (true, false) } else x
    let x := ({ x with trips := trips, tripTill := some (t + s.pN (0x3500 + h) 0x11 * 1000000), drive := none,
                       asked := none, turning := 0, latch := x.latch || latch, state := 0 }).count 0
    if latch then x.count 1 else x)
  if latch then (s.record 0x9004 (1 + h) []).report 0xE005 (1 + h) [] else s

/-- What a trip of a port does to its flags and counters (R316, R320). -/
def Port.tripped (x : Port) : TripKind → Port
  | .desaturation _ _ => x.count 0
  | .linkCurrent _ => x.count 1
  | .gateSupply _ => { x with gateLow := true }
  | .overCurrent _ => x

/-- A trip of a port at `t` (R316); one that reaches no latch raises no fault (R454). -/
def State.portTrip (s : State) (g : Nat) (k : TripKind) (t : IT) : State :=
  let trips := ((s.pt g).trips ++ [t]).filter (fun x => decide (t ≤ x + 10000000000))
  let latch := decide (s.pN (0x3508 + g) 0xC < trips.length)
  let s := s.modPt g (fun x =>
    let x := { x with trips := trips, tripTill := some (t + s.pN (0x3508 + g) 0xD * 1000000), latch := x.latch || latch }.tripped k
    if latch then x.count 3 else x)
  let s := if latch then (s.record 0x9004 (5 + g) []).report 0xE005 (5 + g) [] else s
  s.commutate g

/-- Whether a measurement trips output `o`, 0 to 3 for H0 to H3, 4 and 5 for G0 and G1 (R316): a bridge current above 16 A; a
drain-to-source voltage above the desaturation threshold once the blanking time has passed since the gate's turn-on; a link current
above the link trip; a gate supply below 9.0 V. A kind the output does not have trips nothing. -/
def State.tripsOutput (s : State) (o : Nat) : TripKind → Bool
  | .overCurrent ma => decide (o < 4 ∧ 16000 < ma)
  | .desaturation mv ns => decide (4 ≤ o ∧ s.pN (0x3504 + o) 5 < mv ∧ s.pN (0x3504 + o) 6 ≤ ns)
  | .linkCurrent ma => decide (4 ≤ o ∧ s.pN (0x3504 + o) 8 < ma)
  | .gateSupply mv => decide (4 ≤ o ∧ mv < 9000)

/-- OUTPUT_TRIP: output `o` measures what trips it (R316). -/
def execOutputTrip (o : Fin 6) (k : TripKind) (t : IT) (s : State) : Host.Outcome State Fault Refusal :=
  .next (s.whenAwake fun s =>
    if !(s.tripsOutput o k) then s
    else if o.val < 4 then (s.at t).bridgeTrip o t
    else (s.at t).portTrip (o.val - 4) k t)

/-- The state of bridge `h` in SAFE: its safe action, off while it is not in use, tripped, latched or contained (R316, R317, R455). -/
def State.safeState (s : State) (h : Nat) : Nat :=
  if !(s.pB (0x3500 + h) 1) || !(s.brFree h) then 0 else if s.pN (0x3500 + h) 0xE = 0 then 3 else 4

/-- The command of bridge `h` resumes, in VALVE mode the drive kept off, in SAFE its safe action (R316, R317). A bridge without an
owner has no command (R305). -/
def State.bridgeResume (s : State) (h : Nat) : State :=
  if !(s.brFree h) then s
  else if s.power.dev = .safe then s.modBr h (fun x => { x with state := s.safeState h })
  else if !s.spinActive then s
  else if !(s.brOwned h) then s.modBr h (fun x => { x with state := 0 })
  else if s.brMode h != 2 then s.bridgeCmd h (s.br h).cmd
  else match (s.br h).again with
    | none => if (s.br h).drive.isSome then s else s.passDuty h 0
    | some (true, _) => (s.modBr h (fun x => { x with again := none })).valveAsk h s.it
    | some (false, true) => s.valveStart h false 100
    | some (false, false) => s.valveClose h

/-- OUTPUT_RETRY_EXPIRY: the retry delay of a tripped output ends and it resumes its command (R316). -/
def execOutputRetryExpiry (o : Fin 6) (s : State) : Host.Outcome State Fault Refusal :=
  .next (
    if o.val < 4 then match (s.br o).tripTill with
      | none => s
      | some t => ((s.at t).modBr o (fun x => { x with tripTill := none })).bridgeResume o
    else match (s.pt (o.val - 4)).tripTill with
      | none => s
      | some t => ((s.at t).modPt (o.val - 4) (fun x => { x with tripTill := none, gateLow := false })).commutate
          (o.val - 4))

/-- Clears OC-LATCHED of an output (P 0x3500+h.12, P 0x3508+g.0E). -/
def State.clearOutput (s : State) (o : Nat) : State :=
  if o < 4 then (s.modBr o (fun x => { x with latch := false, trips := [] })).bridgeResume o
  else (s.modPt (o - 4) (fun x => { x with latch := false, trips := [] })).commutate (o - 4)

/-! ### The transfer (R306 to R308, R316) -/

/-- The mean of a bridge's current over the last second, in mA. -/
def Bridge.mean (x : Bridge) : Nat :=
  if x.hist.isEmpty then 0 else (x.hist.foldl (fun a p => a + p.2.natAbs) 0) / x.hist.length

/-- The turn of a direction at a transfer (R306): a period that begins full off is the full-off period, and the new direction
starts at the transfer after it. -/
def State.bridgeTurn (s : State) (h k : Nat) : State :=
  let b := s.br h
  let free := s.brFree h
  if b.turning = 2 then
    s.modBr h (fun b => let b := { b with turning := 0, sign := !b.sign }; { b with state := if free then b.drives else b.state })
  else if b.turning = 1 ∧ (s.sp k).cur.duty = 0 then
    let s := s.modBr h (fun b => let b := { b with turning := 2 }; { b with state := if free then b.drives else b.state })
    s.passDuty h (dutyWord b.cmd (s.nextPeriod k))
  else s

/-- The current that the inner loop of bridge `h` sets the next duty word for: the command with its ripple, a square wave
whose half period is rounded to whole spinner periods (R307). -/
def State.rippleStep (s : State) (h k : Nat) : State :=
  let p := 25 * (s.sp k).cur.period
  let half := max 1 ((s.pN (0x3500 + h) 0xD * 8000 + p) / (2 * p))
  let amp := s.pN (0x3500 + h) 0xC
  s.modBr h (fun b =>
    let b := if half ≤ b.rippleN + 1 then { b with rippleUp := !b.rippleUp, rippleN := 0 } else { b with rippleN := b.rippleN + 1 }
    { b with aim := f32ToInt b.cmd 1 + (if b.rippleUp then (amp : Int) else -amp), aimLast := b.aim })

/-- The mean current of the period that ended. Once the command has been constant for 5 / (2π × bandwidth), the inner loop holds it
within ±2 % or ±20 mA of what it aimed at in that period, of 0 where the ripple takes it below, unless its duty word is full on or
cut (R307, Assumption 116). -/
def State.heldMa (s : State) (h : Nat) (ma : Int) : Int :=
  let b := s.br h
  let settled := decide (b.cmdAt + cdiv 795774716 (max 1 (s.pN (0x3500 + h) 0xB)) ≤ s.it)
  if s.brMode h = 1 ∧ s.spinActive ∧ s.brOwned h ∧ s.brFree h ∧ settled ∧ b.fullSince = none ∧ !b.cut then
    let aim := max 0 b.aimLast
    let tol : Int := max ((aim.natAbs / 50 : Nat) : Int) 20
    clampI (aim - tol) (aim + tol) ma
  else ma

/-- The duty word that the stage of a bridge outside CURRENT mode passes on: of its command, or of its valve drive. -/
def State.stageDuty (s : State) (h k : Nat) : Nat :=
  let b := s.br h
  if s.brMode h = 2 then (match b.drive with | some (_, _, share) => s.driveDuty h share | none => 0)
  else if b.turning = 1 then 0 else dutyWord b.cmd (s.nextPeriod k)

/-- The inner current loop of bridge `h` at a transfer: the duty word for its next aim, none where that is not above 0, and
CURRENT-NOT-REACHED where it has been full on for 50 ms with the current more than 5 % below the command (R307). -/
def State.currentLoop (s : State) (h k : Nat) (ma : Int) : State :=
  let s := s.rippleStep h k
  let p := s.nextPeriod k
  let aim := (s.br h).aim
  let w := Config.currentDuty s.freeCtr aim (s.pN (0x3500 + h) 9) (s.pN (0x3500 + h) 0xA) (s.pN (0x3500 + h) 0xB) p ma % (128 * p + 1)
  let w := if aim ≤ 0 then 0 else w
  let s := s.draw.passDuty h w
  s.modBr h (fun b =>
    let since := if 128 * p ≤ w then some (b.fullSince.getD s.it) else none
    let low := match since with
      | none => false
      | some t => decide (t + 50000000 ≤ s.it) && decide (100 * ma < f32ToInt b.cmd 95)
    { b with fullSince := since, notReach := low })

/-- What the stage of bridge `h` does at its spinner's transfer (R306, R307, R316): the mean current of the period that
ended; a turn of direction; the brake of a closing drive over; and the duty word for the shadow set, in CURRENT mode the inner
loop's, under the 1 s mean limit a cut one (free values, Assumption 4). -/
def State.bridgeTransfer (s : State) (h k : Nat) (x : StageIn) : State :=
  let ma := s.heldMa h x.meanMa
  let s := s.modBr h (fun b => { b with
    current := ma, hist := (b.hist ++ [(s.it, ma)]).filter (fun p => decide (s.it < p.1 + 1000000000)) })
  let lim := if 3 ≤ vget s.therm.acting 4 0 then 6000 else 8000
  let hot := decide (lim < (s.br h).mean)
  let was := (s.br h).cut
  let s := s.modBr h (fun b => { b with overload := x.over12 || hot, cut := hot && s.spinActive })
  let s := s.bridgeTurn h k
  let s := match (s.br h).drive with
    | some (false, t0, _) =>
      if (s.br h).state = 3 ∧ t0 + 2000000 ≤ s.it then s.modBr h (fun b => { b with state := 2 }) else s
    | _ => s
  if !s.spinActive then s
  else if s.brMode h = 1 then s.currentLoop h k ma
  else if was || (s.br h).cut then s.passDuty h (s.stageDuty h k)
  else s

/-- SPINNER_TRANSFER: spinner `k` ends its period; the measurements of its stage over that period come with it. -/
def execSpinnerTransfer (k : Fin 16) (x : StageIn) (s : State) : Host.Outcome State Fault Refusal :=
  .next (
    if !(s.sp k).live then s
    else
      let s := s.spinTransfer k
      let dst := s.pN (0x3400 + k.val) 1
      let s := if 1 ≤ dst ∧ dst ≤ 4 then s.bridgeTransfer (dst - 1) k x
        else if dst = 5 ∨ dst = 6 then s.modPt (dst - 5) (fun p => { p with link := x.linkMa })
        else s
      s.spinPeriod k)

/-! ### Device states (R317) -/

/-- Bridge `h` without a command, in state `st`: its drive and edges end, a valve stopped on its way stands nobody knows
where, and the spinner's duty word goes to 0. -/
def State.bridgeStop (s : State) (h st : Nat) : State :=
  (s.modBr h (fun x => { x with
    state := st, drive := none, asked := none, edges := [], again := none, turning := 0, cmd := 0, shedNote := none,
    fullSince := none, notReach := false, cut := false, valve := if x.drive.isSome then 0 else x.valve })).writeDuty (1 + h) 0

/-- The bridges and ports at entry to a device state: off, braked or coasted outside RUN and BARE. -/
def State.bridgesEnter (s : State) (d : DevState) : State :=
  let s := (List.range 4).foldl (fun s h =>
    match d with
    | .run | .bare => s.bridgeResume h
    | .safe =>
      let s := s.bridgeStop h (s.safeState h)
      if s.safeState h = 3 then s.noteVerdict ⟨0, 2 * 4096 + h, 1, 0, 0, 0, 0⟩ .granted else s
    | _ => s.bridgeStop h 0) s
  (List.range 2).foldl (fun s g => match d with
    | .run | .bare => (s.commutate g).writeDuty (5 + g) (dutyWord (s.pt g).cmd (s.periodOf (5 + g)))
    | _ => ((s.modPt g (fun x => { x with cmd := 0, stall := false, stallAt := none })).commutate g).writeDuty (5 + g) 0) s

/-- A write of Enable, Owner or Safe action of bridge `h`: in SAFE it acts at once (R317). -/
def State.bridgeWritten (s : State) (h : Nat) : State :=
  if s.power.dev = .safe then s.modBr h (fun x => { x with state := s.safeState h }) else s

/-- The state code of P 0x3500+h.18 at the present time: the brake before a closing drive lasts 2 ms (R311). -/
def State.bridgeCode (s : State) (h : Nat) : Nat :=
  let x := s.br h
  let braked := match x.drive with
    | some (false, t0, _) => x.state == 3 && decide (t0 + 2000000 ≤ s.it)
    | _ => false
  if x.latch then 6 else if x.tripTill.isSome then 5 else if braked then 2 else x.state

/-- The flags of P 0x3500+h.1B. -/
def Bridge.flags (x : Bridge) : Nat := bits [x.overload, x.notReach, x.timeout, x.endTrav]

/-- The state code of P 0x3508+g.18. -/
def Port.code (x : Port) : Nat :=
  if x.latch then 3 else if x.tripTill.isSome then 2 else if x.stall then 4 else if x.driving then 1 else 0

/-- The flags of P 0x3508+g.1A. -/
def Port.flags (x : Port) : Nat := bits [x.hallBad, x.stall, x.gateLow]

end Sys2Proof.Machine
end

