-- ==== Sys2Proof/Machine/Crypto.lean ====
section
/-! DEFINITION. The checksums and the signature scheme the manual names: CRC-32 and CRC-32C (R37, R399), SHA-256 (R383)
and ECDSA on the curve P-256 (R404, R490). The algorithms behind the names are those of the public standards
(Assumption 11). -/

namespace Sys2Proof.Machine

/-! ### Cyclic redundancy checks -/

/-- `fuel` bit steps of a reflected CRC. -/
def crcBits (poly : Nat) : Nat → Nat → Nat
  | 0, r => r
  | fuel + 1, r => crcBits poly fuel (if r % 2 = 1 then (r / 2) ^^^ poly else r / 2)

/-- A reflected 32-bit CRC with all-ones start and final inversion. -/
def crc (poly : Nat) (b : Bytes) : Nat :=
  (b.foldl (fun r x => crcBits poly 8 (r ^^^ x.toNat)) 0xFFFFFFFF) ^^^ 0xFFFFFFFF

/-- CRC-32 (polynomial 0x04C11DB7). -/
def crc32 (b : Bytes) : Nat := crc 0xEDB88320 b

/-- CRC-32C (polynomial 0x1EDC6F41). -/
def crc32c (b : Bytes) : Nat := crc 0x82F63B78 b

/-! ### SHA-256 -/

/-- The first 64 primes: what below 312 no prime below 18 divides but itself. -/
def smallPrimes : List Nat :=
  (List.range 312).filter (fun n => decide (2 ≤ n) && [2, 3, 5, 7, 11, 13, 17].all (fun d => n == d || n % d != 0))

/-- Integer cube root, by `fuel` bits from the top. -/
def cubeRootGo : Nat → Nat → Nat → Nat
  | 0, _, r => r
  | fuel + 1, n, r => cubeRootGo fuel n (if (r + 2 ^ fuel) ^ 3 ≤ n then r + 2 ^ fuel else r)

/-- The round constants, as the standard defines them: the first 32 bits of the fraction of each prime's cube root. -/
def shaK : List (BitVec 32) := smallPrimes.map (fun p => BitVec.ofNat 32 (cubeRootGo 35 (p * 2 ^ 96) 0))

/-- The eight working words. -/
structure ShaWords where
  a : BitVec 32
  b : BitVec 32
  c : BitVec 32
  d : BitVec 32
  e : BitVec 32
  f : BitVec 32
  g : BitVec 32
  h : BitVec 32
  deriving DecidableEq, Repr

/-- The first 32 bits of the fraction of a number's square root. -/
def rootBits (p : Nat) : BitVec 32 := BitVec.ofNat 32 (isqrt (p * 2 ^ 64))

/-- The first hash value, as the standard defines it: the square roots of the first eight primes. -/
def shaInit : ShaWords :=
  ⟨rootBits 2, rootBits 3, rootBits 5, rootBits 7, rootBits 11, rootBits 13, rootBits 17, rootBits 19⟩

/-- The 32-bit words of a block, highest byte first. -/
def shaBlockWords : Bytes → List (BitVec 32)
  | a :: b :: c :: d :: r => (a ++ b ++ c ++ d) :: shaBlockWords r
  | _ => []

/-- The message schedule, latest word first: `fuel` words more. -/
def shaSchedule : Nat → List (BitVec 32) → List (BitVec 32)
  | 0, w => w
  | fuel + 1, w =>
    let at_ : Nat → BitVec 32 := fun i => (w[i]?).getD 0
    let x := at_ 14
    let y := at_ 1
    let s0 := x.rotateRight 7 ^^^ x.rotateRight 18 ^^^ (x >>> 3)
    let s1 := y.rotateRight 17 ^^^ y.rotateRight 19 ^^^ (y >>> 10)
    shaSchedule fuel ((at_ 15 + s0 + at_ 6 + s1) :: w)

/-- One round. -/
def shaRound (v : ShaWords) (k w : BitVec 32) : ShaWords :=
  let s1 := v.e.rotateRight 6 ^^^ v.e.rotateRight 11 ^^^ v.e.rotateRight 25
  let ch := (v.e &&& v.f) ^^^ (~~~v.e &&& v.g)
  let t1 := v.h + s1 + ch + k + w
  let s0 := v.a.rotateRight 2 ^^^ v.a.rotateRight 13 ^^^ v.a.rotateRight 22
  let maj := (v.a &&& v.b) ^^^ (v.a &&& v.c) ^^^ (v.b &&& v.c)
  ⟨t1 + (s0 + maj), v.a, v.b, v.c, v.d + t1, v.e, v.f, v.g⟩

/-- One block taken into the hash value. -/
def shaBlock (v : ShaWords) (b : Bytes) : ShaWords :=
  let w := (shaSchedule 48 (shaBlockWords b).reverse).reverse
  let u := (shaK.zip w).foldl (fun v p => shaRound v p.1 p.2) v
  ⟨v.a + u.a, v.b + u.b, v.c + u.c, v.d + u.d, v.e + u.e, v.f + u.f, v.g + u.g, v.h + u.h⟩

/-- Whole blocks of 64 bytes taken in one by one (`fuel` blocks at most). -/
def shaBlocks : Nat → ShaWords → Bytes → ShaWords
  | 0, v, _ => v
  | fuel + 1, v, b => if b.isEmpty then v else shaBlocks fuel (shaBlock v (b.take 64)) (b.drop 64)

/-- A word as four bytes, highest first. -/
def be4 (w : BitVec 32) : Bytes := (le 4 w.toNat).reverse

/-- SHA-256 of a byte string: 32 bytes. -/
def sha256 (b : Bytes) : Bytes :=
  let n := b.length
  let pad := (119 - n % 64) % 64
  let m := b ++ [0x80] ++ List.replicate pad 0 ++ (le 8 (8 * n)).reverse
  let v := shaBlocks (m.length / 64) shaInit m
  be4 v.a ++ be4 v.b ++ be4 v.c ++ be4 v.d ++ be4 v.e ++ be4 v.f ++ be4 v.g ++ be4 v.h

/-! ### ECDSA on P-256 -/

/-- The field prime. -/
def p256P : Nat := 0xffffffff00000001000000000000000000000000ffffffffffffffffffffffff
/-- The group order. -/
def p256N : Nat := 0xffffffff00000000ffffffffffffffffbce6faada7179e84f3b9cac2fc632551
/-- The curve constant b. -/
def p256B : Nat := 0x5ac635d8aa3a93e7b3ebbd55769886bc651d06b0cc53b0f63bce3c3e27d2604b
/-- The base point. -/
def p256G : Option (Nat × Nat) :=
  some (0x6b17d1f2e12c4247f8bce6e563a440f277037d812deb33a0f4a13945d898c296,
        0x4fe342e2fe1a7f9b8ee7eb4a7c0f9e162bce33576b315ececbb6406837bf51f5)

/-- `b ^ e` modulo `m`, by the low `fuel` bits of `e`. -/
def powMod : Nat → Nat → Nat → Nat → Nat
  | 0, _, _, m => 1 % m
  | fuel + 1, b, e, m =>
    let r := powMod fuel (b * b % m) (e / 2) m
    if e % 2 = 1 then b * r % m else r

/-- The inverse modulo a prime. -/
def invMod (a m : Nat) : Nat := powMod 256 (a % m) (m - 2) m

/-- Sum of two points; `none` is the point at infinity. -/
def p256Add (p q : Option (Nat × Nat)) : Option (Nat × Nat) :=
  match p, q with
  | none, q => q
  | p, none => p
  | some (x1, y1), some (x2, y2) =>
    if x1 = x2 ∧ (y1 + y2) % p256P = 0 then none
    else
      let l := if x1 = x2 then (3 * x1 * x1 + (p256P - 3)) * invMod (2 * y1) p256P % p256P
        else (y2 + (p256P - y1)) * invMod (x2 + (p256P - x1)) p256P % p256P
      let x3 := (l * l + 2 * p256P - x1 - x2) % p256P
      some (x3, (l * (x1 + p256P - x3) + (p256P - y1)) % p256P)

/-- `k` times a point, by the low `fuel` bits of `k`. -/
def p256Mul : Nat → Nat → Option (Nat × Nat) → Option (Nat × Nat)
  | 0, _, _ => none
  | fuel + 1, k, p =>
    let r := p256Mul fuel (k / 2) (p256Add p p)
    if k % 2 = 1 then p256Add p r else r

/-- Whether a pair of coordinates is a point of the curve. -/
def p256OnCurve (x y : Nat) : Bool :=
  decide (x < p256P) && decide (y < p256P) && (y * y) % p256P == (x * x * x + (p256P - 3) * x + p256B) % p256P

/-- The number that bytes spell, highest first. -/
def beNat (b : Bytes) : Nat := leNat b.reverse

/-- Whether (r, s) is a signature of the 32-byte hash under the public key (x, y). -/
def ecdsaVerify (x y : Nat) (hash : Bytes) (r s : Nat) : Bool :=
  if r = 0 ∨ s = 0 ∨ p256N ≤ r ∨ p256N ≤ s then false
  else if !p256OnCurve x y then false
  else
    let w := invMod s p256N
    let e := beNat hash
    let pt := p256Add (p256Mul 256 (e * w % p256N) p256G) (p256Mul 256 (r * w % p256N) (some (x, y)))
    match pt with
    | none => false
    | some (x1, _) => x1 % p256N == r

end Sys2Proof.Machine
end

