-- ==== Sys2Proof/Machine/Digest.lean ====
section
/-! DEFINITION. The dictionary as a whole: every parameter in ascending order, the configuration digest (R384) and the
configuration state (R383), the marks of R385 and R547, and the description entries of R395. -/

namespace Sys2Proof.Machine

/-- Every parameter a chapter defines, as (key, description), ascending by index and sub-index. -/
def allParams : List (Nat × Desc) :=
  (tableAll.flatMap (fun d => (List.range d.count).map (fun i => (pkey (d.base + i) d.sub, d)))).mergeSort
    (fun a b => decide (a.1 ≤ b.1))

/-- The parameters marked DIGEST-EXCLUDED (R385, R446, R511): writable parameters that the module changes by itself. -/
def digestExcluded (idx sub : Nat) : Bool :=
  [pkey 0x2312 2, pkey 0x4403 1, pkey 0x4002 1, pkey 0x4002 2, pkey 0x4201 6].contains (pkey idx sub)

/-- The parameters marked PROTECTED (R547). -/
def protectedParam (idx sub : Nat) : Bool :=
  let r := fun (i a b : Nat) => idx == i && decide (a ≤ sub) && decide (sub ≤ b)
  r 0x1200 1 1 || r 0x1400 1 0xA || r 0x1402 1 3 || r 0x1500 1 0x15 || r 0x2200 0xB 0xC ||
  (decide (0x3100 ≤ idx) && decide (idx < 0x3108) && decide (0x19 ≤ sub) && decide (sub ≤ 0x1B)) ||
  (decide (0x3500 ≤ idx) && decide (idx < 0x3504) && sub == 0xE) ||
  (decide (0x3600 ≤ idx) && decide (idx < 0x3610) && sub == 8) || r 0x4100 1 6 || r 0x4102 1 3

/-- One entry of the configuration digest (R384). -/
def digestEntry (key ty : Nat) (v : Bytes) : Bytes :=
  le 2 (key / 256) ++ le 1 (key % 256) ++ le 1 ty ++ le 4 v.length ++ v

/-- The configuration digest of a store's values (R384): SHA-256 over the entries of the writable parameters that are not
DIGEST-EXCLUDED, each at its image value. -/
def Dict.imageDigest (d : Dict) : Bytes :=
  sha256 ((allParams.filter (fun p => (p.2.acc == 1 || p.2.acc == 3) && !digestExcluded (p.1 / 256) p.2.sub)).flatMap
    (fun p => digestEntry p.1 p.2.ty (d.image (p.1 / 256) p.2.sub)))

/-- The configuration state P 0x4401.01 (R383): 0 UNCOMMITTED, 1 COMMITTED, 2 DIRTY, 3 COMMITTING. -/
def Dict.state (d : Dict) : Nat :=
  if d.commit.isSome then 3 else if !d.ever then 0 else if d.imageDigest == d.digest then 1 else 2

/-- The staged keys, ascending (P 0x4401.05). -/
def Dict.stagedList (d : Dict) : Bytes :=
  ((d.staged.map (·.1)).mergeSort (· ≤ ·)).flatMap (fun k => le 2 (k / 256) ++ le 1 (k % 256) ++ [0])

/-! ### The description (R395) -/

/-- The lowest set bit of an ENUM's values. -/
def lowBit (m : Nat) : Nat := ((List.range 256).find? (fun i => bit m i)).getD 0

/-- The minimum of a description entry in the type's encoding, zero-extended; 0 for BLOCK. -/
def Desc.minBytes (d : Desc) : Bytes :=
  match d.ty with
  | 5 => padTo 8 (leI 2 d.lo)
  | 6 => padTo 8 (leI 4 d.lo)
  | 7 => padTo 8 (le 4 (if d.lo < 0 then (2147483648 - d.lo).toNat else d.lo.toNat))
  | 8 => le 8 0
  | 9 => le 8 (lowBit d.mask)
  | 10 => le 8 0
  | 12 => le 8 0
  | _ => le 8 d.lo.toNat

/-- The maximum of a description entry: for bits the defined ones; an RO parameter has the full range of its type
(Assumption 76). -/
def Desc.maxBytes (d : Desc) : Bytes :=
  match d.ty with
  | 5 => padTo 8 (leI 2 d.hi)
  | 6 => padTo 8 (leI 4 d.hi)
  | 7 => padTo 8 (le 4 (if d.hi < 0 then (2147483648 - d.hi).toNat else d.hi.toNat))
  | 8 => le 8 1
  | 9 => le 8 d.mask.log2
  | 10 => le 8 (if d.acc = 0 then 256 ^ d.size - 1 else d.mask)
  | 12 => le 8 0
  | _ => le 8 d.hi.toNat

/-- The 40-byte description entry of a parameter (R395). -/
def Desc.entry (d : Desc) (idx : Nat) : Bytes :=
  le 2 idx ++ le 1 d.sub ++ le 1 d.ty ++ le 1 d.acc ++ le 1 d.cls ++
  le 1 (bits [digestExcluded idx d.sub, protectedParam idx d.sub, d.var, d.ty == 10 && d.size == 2,
    d.ty == 10 && d.size == 4]) ++ [0] ++ le 4 d.size ++ d.minBytes ++ d.maxBytes ++
  padTo 8 (if d.ty = 12 then [] else d.default idx) ++ le 4 0

/-- The description entry of sub-index 0x00 (R369): an RO U8. -/
def subZeroEntry (idx : Nat) : Bytes :=
  le 2 idx ++ [0, 1, 0, 0, 0, 0] ++ le 4 1 ++ le 8 0 ++ le 8 255 ++ le 8 (highestSub idx) ++ le 4 0

/-- The description entries in order, sub-index 0x00 of each index in use among them. -/
def describeAll : List Bytes :=
  (allParams.foldl (fun (acc : Nat × List Bytes) p =>
    let idx := p.1 / 256
    (idx, (if acc.1 = idx then [p.2.entry idx] else [p.2.entry idx, subZeroEntry idx]) ++ acc.2)) (0, [])).2.reverse

/-- The description block from a cursor (P 0x4403.02): up to 32 entries. -/
def describeFrom (c : Nat) : Bytes := ((describeAll.drop c).take 32).flatten

end Sys2Proof.Machine
end

