-- ==== Sys2Proof/Machine/Log.lean ====
section
/-! DEFINITION. The event log's records and its ring: the 64-byte layout (R433), classes of codes (R437), sequence and slot
arithmetic (R435), the SRAM ring of R448, and the export block (R446). -/

namespace Sys2Proof.Machine

/-- The class of a code (R437): 0 TRACE, 1 ACTIVITY, 2 OPERATION, 3 PRIVILEGED. -/
def classOf (code : Nat) : Nat :=
  let src := code / 4096
  if src == 0 || src == 0xB || src == 0xC || src == 0xE then 3
  else if code == 0x2001 || code == 0x5003 then 0
  else if [0x3002, 0x3003, 0x3004, 0x3005, 0x3008, 0x4005, 0x4006, 0x5001, 0x5002, 0x5004, 0x6004, 0x8001].contains code
    then 1
  else 2

/-- Whether a code's source is privileged (R437). -/
def privileged (code : Nat) : Bool :=
  let src := code / 4096
  src == 0 || src == 0xB || src == 0xC || src == 0xE

/-- The low 32 bits of an Izcel time in units of 1,024 ns: the short stamp (R51). -/
def shortStamp (t : IT) : Nat := t / 1024 % 4294967296

/-- The 64 bytes of a record (R433): bytes 0 to 59 and their CRC-32. -/
def recordBytes (boot : Nat) (it : IT) (wall wallSt cls code seq reps flags lastRep subj : Nat) (det : Bytes) : Bytes :=
  let b := le 4 boot ++ le 8 it ++ le 8 wall ++ le 1 wallSt ++ le 1 cls ++ le 2 code ++ le 4 seq ++ le 2 reps ++
    le 1 flags ++ [0] ++ le 4 lastRep ++ le 4 subj ++ padTo 20 det
  b ++ le 4 (crc32 b)

/-- An entry as a record with its sequence. -/
def Entry.bytes (e : Entry) (seq flags : Nat) : Bytes :=
  recordBytes e.r.boot e.r.it e.wall e.wallSt e.cls e.r.code seq e.reps flags e.lastRep e.r.subj e.r.det

/-- Whether a stored record's CRC-32 checks. -/
def recordOk (b : Bytes) : Bool := natAt b 60 4 == crc32 (b.take 60)

/-- A DAMAGED-RECORD record: the expected sequence, its other fields 0 (R446). -/
def damagedRecord (seq : Nat) : Bytes := recordBytes 0 0 0 0 0 7 seq 0 0 0 0 []

/-- The event log region of R31. -/
def logBase : Nat := 0xE0000000
/-- The slots of the ring (R435). -/
def logSlots : Nat := 6291456
/-- A difference of two sequences, modulo 2^32. -/
def seqSub (a b : Nat) : Nat := (a + 4294967296 - b % 4294967296) % 4294967296

/-- The records the log holds now: those of the SRAM ring under R448, otherwise those of the ring. -/
def Skein.holds (k : Skein) : Nat := if k.sramOnly then k.sram.length else k.held

/-- The oldest sequence (R435, R448). -/
def Skein.oldest (k : Skein) : Nat := seqSub k.nextSeq k.holds

/-- Whether a sequence is in the log (R435). -/
def Skein.inLog (k : Skein) (q : Nat) : Bool :=
  let d := seqSub k.nextSeq q
  decide (1 ≤ d) && decide (d ≤ k.holds)

/-- The bytes of the record of a sequence in the log. -/
def State.logRecord (s : State) (q : Nat) : Bytes :=
  let k := s.skein
  if k.sramOnly then (alookup q k.sram).getD (damagedRecord q)
  else
    let slot := (k.slotPtr + logSlots - seqSub k.nextSeq q) % logSlots
    Memory.readBlock s.mram (logBase + 64 * slot) 64

/-- One record stored under the next sequence (R435): in the event log, or in the SRAM ring of 4,096 (R448). -/
def State.storeRecord (s : State) (b : Bytes) : State :=
  let k := s.skein
  let k' := { k with nextSeq := (k.nextSeq + 1) % 4294967296,
                     counters := vmod k.counters 0 (fun c => sat32 (c + 1)) }
  if k.sramOnly then
    let r := k.sram ++ [(k.nextSeq, b)]
    { s with skein := { k' with sram := r.drop (r.length - 4096) } }
  else
    { s with skein := { k' with slotPtr := (k.slotPtr + 1) % logSlots, held := min logSlots (k.held + 1) },
             mram := Memory.write s.mram (logBase + 64 * k.slotPtr) b }

/-- The record `i` slots before the slot pointer. -/
def State.recordBack (s : State) (i : Nat) : Bytes :=
  Memory.readBlock s.mram (logBase + 64 * ((s.skein.slotPtr + logSlots - 1 - i) % logSlots)) 64

/-- How many of the newest records fail their CRC-32, before the newest one that is valid: `i` counted so far, `n` still to look at. -/
def State.badNewest (s : State) : Nat → Nat → Nat
  | 0, i => i
  | n + 1, i => if recordOk (s.recordBack i) then i else s.badNewest n (i + 1)

/-- Where a cold start resumes (R435, R436): after the newest record with a valid CRC-32, whose following slot does not go on with
its sequence. The records of an SRAM ring are gone (R448). -/
def State.logResume (s : State) : State :=
  let k := s.skein
  let bad := s.badNewest k.held 0
  let next := if k.held = bad then 0 else (natAt (s.recordBack bad) 24 4 + 1) % 4294967296
  let k' := { k with
    nextSeq := next, slotPtr := (k.slotPtr + logSlots - bad % logSlots) % logSlots, held := k.held - bad, sram := [], sramOnly := false }
  { s with skein := { k' with cursorA := k'.oldest, cursorB := k'.oldest } }

/-- The record keys of the last 64 records with a valid CRC, newest first: what R38 and R39 resume from when the epoch
copies are lost. -/
def State.logKeys (s : State) : List (Nat × Nat) :=
  let k := s.skein
  (List.range (min 64 k.held)).filterMap (fun i =>
    let b := Memory.readBlock s.mram (logBase + 64 * ((k.slotPtr + logSlots - 1 - i) % logSlots)) 64
    if recordOk b then some (natAt b 0 4, natAt b 4 8) else none)

/-- The entries of the queue that an entry takes. -/
def Entry.size (e : Entry) : Nat := 1 + (e.snaps.map (·.taken)).foldl (· + ·) 0

/-- How many of the entries 1 to 8,128 are taken (R439). -/
def Skein.general (k : Skein) : Nat :=
  (k.queue.map (fun e => if e.spare then e.size - 1 else e.size)).foldl (· + ·) 0

/-- How many of the entries 8,129 to 8,192 are taken: by records alone, never by SNAPSHOT records (R439). -/
def Skein.spares (k : Skein) : Nat := (k.queue.filter (·.spare)).length

/-- The entries taken (P 0x4004.05). -/
def Skein.used (k : Skein) : Nat := (k.queue.map Entry.size).foldl (· + ·) 0

/-! ### Export (R446) -/

/-- The records examined from `q`: those delivered (at most `room`), and the sequence after the last one examined. -/
def State.exportGo (s : State) (minCls : Nat) : Nat → Nat → Nat → List (Nat × Bytes) → List (Nat × Bytes) × Nat
  | 0, q, _, acc => (acc, q)
  | fuel + 1, q, room, acc =>
    if !s.skein.inLog q || room = 0 then (acc, q)
    else
      let b := s.logRecord q
      let q' := (q + 1) % 4294967296
      if !recordOk b then s.exportGo minCls fuel q' (room - 1) (acc ++ [(q, damagedRecord q)])
      else if natAt b 21 1 < minCls then s.exportGo minCls fuel q' room acc
      else s.exportGo minCls fuel q' (room - 1) (acc ++ [(q, b)])

/-- An export read from a cursor (R446): the block and the cursor after it. The first sequence of a read that delivers no
record is a free value (Assumption 4). -/
def State.exportRead (s : State) (c : Nat) : Bytes × Nat :=
  let k := s.skein
  let only := b2n k.sramOnly * 2
  let past := decide (seqSub c k.nextSeq < 2147483648)
  let none4 := s.drawn % 4294967296
  if past then (le 4 none4 ++ le 2 0 ++ le 1 (only + 4) ++ [0] ++ le 4 0 ++ le 4 c, c)
  else
    let start := if k.inLog c then c else k.oldest
    let skipped := seqSub start c
    let r := s.exportGo (s.pN 0x4002 5) k.holds start 1023 []
    let first := match r.1 with
      | p :: _ => p.1
      | [] => none4
    (le 4 first ++ le 2 r.1.length ++ le 1 (b2n (skipped != 0) + only) ++ [0] ++ le 4 skipped ++ le 4 r.2 ++
      r.1.flatMap (·.2), r.2)

/-- How many of the records an export read delivers fail their CRC-32. -/
def State.exportDamaged (b : Bytes) : Nat :=
  ((List.range (natAt b 4 2)).filter (fun i => natAt b (16 + 64 * i + 22) 2 == 7)).length

end Sys2Proof.Machine
end

