-- ==== Sys2Proof/Machine/Wall.lean ====
section
/-! DEFINITION. The Izcel time base's own work and wall time (R33 to R50): epoch copies, the wall-time offset with slewing
and steps, the choice among sources, PPS edges and the TIME service. -/

namespace Sys2Proof.Machine

/-! ### Wall time (R40, R42) -/

/-- The part of the outstanding slew that has been applied at `x`, at no more than P 0x1101.06 parts per 10^9 (R42). -/
def State.slewed (s : State) (x : IT) : Int :=
  let room : Int := ((x - s.time.slewAt) * s.pN 0x1101 6 / 1000000000 : Nat)
  clampI (-room) room s.time.slewRest

/-- Wall time at Izcel time `x`: `x` plus the offset in force, 0 while unset (R40, P 0x1100.03). -/
def State.wallAt (s : State) (x : IT) : Nat :=
  if s.time.wallSet then ((x : Int) + s.time.offset + s.slewed x).toNat else 0

/-- The offset with the slew up to now folded in, so that a later rate or target acts from now on. -/
def State.foldSlew (s : State) : State :=
  let d := s.slewed s.it
  { s with time := { s.time with offset := s.time.offset + d, slewRest := s.time.slewRest - d, slewAt := s.it } }

/-! ### Sources (R41) -/

/-- The status value of a source. -/
def sourceCode : WallSource → Nat
  | .host => 2 | .gnss => 3 | .gnssPps => 4 | .gptp => 5

/-- The source a priority entry names, none for NONE. -/
def sourceOf : Nat → Option WallSource
  | 2 => some .host | 3 => some .gnss | 4 => some .gnssPps | 5 => some .gptp | _ => none

/-- When a source last delivered a usable time. -/
def State.lastFrom (s : State) : WallSource → Option IT
  | .host => none | .gnss => s.time.lastGnss | .gnssPps => s.time.lastPps | .gptp => s.time.lastGptp

/-- Whether a UART has PPS pairing set (R46). -/
def State.ppsPaired (s : State) : Bool := s.pB 0x2050 4 || s.pB 0x2051 4

/-- Whether the gPTP follower is synchronised (P 0x1220.0A reads 2). -/
def State.gptpSynced (s : State) : Bool := s.pB 0x1220 5 && s.nets.eth.gptp == 2

/-- Whether a source is valid now: HOST from its first set in the boot, another while its last usable time is younger
than P 0x1101.09; GNSS-PPS only while a UART is paired, and gPTP only while the port is synchronised to a grandmaster whose
Announce message states currentUtcOffsetValid (R41, R46, R47). -/
def State.sourceValid (s : State) (w : WallSource) : Bool :=
  let young := match s.lastFrom w with
    | none => false
    | some t => decide (s.it < t + s.pN 0x1101 9 * 1000000)
  match w with
  | .host => s.time.hostOk
  | .gptp => young && s.gptpSynced && s.nets.eth.utcOk
  | .gnssPps => young && s.ppsPaired
  | .gnss => young

/-- The sources in the order of P 0x1101.01 to .04. -/
def State.priorities (s : State) : List WallSource :=
  [1, 2, 3, 4].filterMap (fun k => sourceOf (s.pN 0x1101 k))

/-- The source that governs: the valid one of highest priority (R41). -/
def State.governing (s : State) : Option WallSource := s.priorities.find? (fun w => s.sourceValid w)

/-- Wall status, P 0x1100.04: UNSET while no wall time was set, the governing source, or HOLDOVER where none is valid
(R41). -/
def State.wallCode (s : State) : Nat :=
  if s.time.wallSet then (match s.governing with
    | some w => sourceCode w
    | none => 1)
  else 0

/-- The crystal deviation, P 0x1100.09: against a governing source other than HOST. With none (HOLDOVER) the manual gives no
value; the model reads 0 there too (Assumption 12). -/
def State.crystalDev (s : State) : Int := if 2 < s.wallCode then s.time.deviation else 0

/-- A source that governs while the wall time still follows another: the next time it delivers, and the next one the other
delivers, is of a changed source (R42). In HOLDOVER none is selected, and nothing changes: a source that returns from it is
the selected one still, unless the module has started since (Assumption 103). -/
def State.noteGoverning (s : State) : State :=
  match s.governing with
  | none => s
  | some w => if s.time.selected = some w then s else { s with time := { s.time with selected := none } }

/-- A step of wall time to `w` at Izcel time `x`, with its TIME-STEP record (R42): old and new wall time now, source. -/
def State.wallStep (s : State) (src : WallSource) (x : IT) (w : Nat) : State :=
  let old := s.wallAt s.it
  let s : State := { s with time := { s.time with
    offset := (w : Int) - x, slewRest := 0, slewAt := s.it, wallSet := true, selected := some src,
    steps := sat32 (s.time.steps + 1), refPair := none, deviation := 0 } }
  s.record 0x1001 0 (le 8 old ++ le 8 (s.wallAt s.it) ++ [BitVec.ofNat 8 (sourceCode src)])

/-- The rate of Izcel time against the governing source between two of its times, in ppb (P 0x1100.09; the interval is
the model's, Assumption 12). -/
def State.rateAgainst (s : State) (x : IT) (w : Nat) : State :=
  match s.time.refPair with
  | none => { s with time := { s.time with refPair := some (x, w) } }
  | some (x0, w0) =>
    if w ≤ w0 then { s with time := { s.time with refPair := some (x, w) } }
    else
      let dev := rdiv ((((x : Int) - x0) - ((w : Int) - w0)) * 1000000000) (w - w0)
      { s with time := { s.time with refPair := some (x, w), deviation := satI32 dev } }

/-- A usable time from a source other than HOST: at Izcel time `x` it is `w` (R41, R42). The source becomes valid; if it
governs, a difference is removed by slewing where it is below P 0x1101.05, the slew limit is not 0 and the source has not
changed, and otherwise by a step. -/
def State.timeFrom (s : State) (src : WallSource) (x : IT) (w : Nat) : State :=
  let s := s.noteGoverning
  let t := s.time
  let s := { s with time := match src with
    | .host => t
    | .gnss => { t with lastGnss := some s.it }
    | .gnssPps => { t with lastPps := some s.it }
    | .gptp => { t with lastGptp := some s.it } }
  if s.governing = some src then
    let f := s.foldSlew
    let diff : Int := (w : Int) - x - f.time.offset
    let same := s.time.selected == some src && decide (diff.natAbs < s.pN 0x1101 5) && decide (0 < s.pN 0x1101 6)
    if s.time.wallSet && (diff == 0 || same) then
      ({ f with time := { f.time with selected := some src, slewRest := diff } }).rateAgainst x w
    else (s.wallStep src x w).rateAgainst x w
  else s

/-! ### PPS (R46) -/

/-- An accepted edge captured at `x` marks UTC second `sec` at `x` less P 0x1101.08 (R46); with a date it gives wall time.
The last three are kept. -/
def State.markEdge (s : State) (x : IT) (sec : Nat) (dated : Bool) : State :=
  let e := ((x : Int) - s.pI 0x1101 8).toNat
  let s := { s with time := { s.time with edges := ((e, sec) :: s.time.edges).take 3 } }
  if dated then s.timeFrom .gnssPps e sec else s

/-- A PPS edge captured at `x`: rejected and counted if it falls more than 200 µs from 1 s after the last accepted edge,
unless none was accepted in the last 3 s; else paired under P 0x1101.07. -/
def State.ppsEdge (s : State) (x : IT) : State :=
  if !s.ppsPaired then s
  else
    let t := s.time
    let recent := t.ppsSeen && decide (x ≤ t.ppsLast + 3000000000)
    let near := decide (t.ppsLast + 1000000000 ≤ x + 200000) && decide (x ≤ t.ppsLast + 1000000000 + 200000)
    if recent && !near then { s with time := { t with ppsBad := sat32 (t.ppsBad + 1) } }
    else
      let s := { s with time := { t with ppsLast := x, ppsSeen := true } }
      if s.pN 0x1101 7 = 0 then { s with time := { s.time with ppsPend := some x } }
      else match s.time.named with
        | none => s
        | some (done, sec) =>
          if x ≤ done + 900000000 then s.markEdge x (sec + 1000000000) (decide (86400000000000 ≤ sec)) else s

/-- PPS_EDGE. -/
def execPpsEdge (t : IT) (s : State) : Host.Outcome State Fault Refusal :=
  .next (s.whenAwake fun s => (s.at t).ppsEdge t)

/-- The day of 86,400 s in ns. -/
def dayNs : Nat := 86400000000000

/-- The UTC time of a time of day `tod` alone: the one nearest to the UTC time last named with its date, and `tod` itself,
a time of the first day of 1970, while none has been named (R41; Assumption 15). -/
def State.dated (s : State) (tod : Nat) : Nat :=
  match s.time.utc with
  | none => tod
  | some u =>
    let d := u / dayNs
    let near := fun (a b : Nat) => if ((a : Int) - u).natAbs < ((b : Int) - u).natAbs then a else b
    near (near ((d - 1) * dayNs + tod) (d * dayNs + tod)) ((d + 1) * dayNs + tod)

/-- An RMC or GGA sentence with a checked checksum that names UTC time `utc` in ns, completed at `done` on a UART with or
without PPS pairing (R41, R46). A time without its date (`dated`) marks an edge and gives no wall time. Both windows of 900 ms
count from the captured edge, before P 0x1101.08 is subtracted (Assumption 80). -/
def State.namedSecond (s : State) (paired : Bool) (done : IT) (utc : Nat) : State :=
  let sec := utc / 1000000000 * 1000000000
  let dated := decide (dayNs ≤ utc)
  let s := if paired then
      let s1 := { s with time := { s.time with named := some (done, sec) } }
      match s1.time.ppsPend with
      | none => s1
      | some x =>
        let s2 : State := { s1 with time := { s1.time with ppsPend := none } }
        if done ≤ x + 900000000 then s2.markEdge x sec dated else s2
    else s
  if dated then
    ({ s with time := { s.time with utc := some utc } }).timeFrom .gnss done (utc + s.pN 0x1101 0xA)
  else s

/-! ### Timeouts (R41) -/

/-- A source's silence has lasted P 0x1101.09: the source is no longer valid and the status follows (`State.wallCode`). -/
def execWallSourceTimeout (w : WallSource) (s : State) : Host.Outcome State Fault Refusal :=
  .next (s.whenAwake fun s =>
    match s.lastFrom w with
    | none => s
    | some l =>
      let s := s.at (l + s.pN 0x1101 9 * 1000000)
      let t := s.time
      let s := { s with time := match w with
        | .host => t
        | .gnss => { t with lastGnss := none }
        | .gnssPps => { t with lastPps := none }
        | .gptp => { t with lastGptp := none } }
      let s := if w = .gptp then { s with nets := { s.nets with eth := { s.nets.eth with gptp := min 1 s.nets.eth.gptp } } } else s
      s.noteGoverning)

/-! ### The TIME service (R49) -/

/-- The reply of the TIME service with a result code, for the receive stamp `rx`. -/
def State.timeReply (s : State) (rx : IT) (result : Nat) : Bytes :=
  le 4 s.time.boot ++ le 8 rx ++ le 8 (s.wallAt rx) ++ [BitVec.ofNat 8 s.wallCode, BitVec.ofNat 8 result, 0, 0]

/-- 2024-01-01 00:00:00 UTC in ns. -/
def wallFloor : Nat := 1704067200000000000

/-- A TIME request received at `rx`: the state after it and the reply payload. `control` says that the session has at
least level CONTROL. An operation code that is neither READ nor SET is served as READ, and the floor is held against the
request's wall time plus its host latency, the wall time the set would give (Assumption 81). Where several refusals apply, the
order in which they answer is the model's: access level, priority, range (Assumption 104). -/
def State.timeServe (s : State) (control : Bool) (rx : IT) (p : Bytes) : State × Bytes :=
  if natAt p 12 1 ≠ 1 then (s, s.timeReply rx 1)
  else if !control then (s, s.timeReply rx 4)
  else
    let wall : Int := (natAt p 0 8 : Int) + intAt p 8 4
    let above := s.priorities.takeWhile (fun w => w != .host)
    if !(s.priorities.contains .host) || above.any (fun w => s.sourceValid w) then (s, s.timeReply rx 2)
    else if wall < wallFloor then (s, s.timeReply rx 3)
    else
      let s := { s with time := { s.time with hostOk := true } }
      let s := s.wallStep .host rx wall.toNat
      (s, s.timeReply rx 0)

/-! ### Epoch copies and marks (R37) -/

/-- The older of the two alternating copies takes the present time and boot number (R37). Where a copy's row is retired, the other one
serves (R508). -/
def State.writeCopy (s : State) : State :=
  let lostA := s.rowRetired 0xFFC00000
  let lostB := s.rowRetired 0xFFC40000
  let b := if lostA then true else if lostB then false else s.time.nextB
  let c : EpochCopy := ⟨s.it, s.time.boot, if b then !lostB else true⟩
  { s with time := { s.time with
      copyA := if b then s.time.copyA else c, copyB := if b then c else s.time.copyB, nextB := !b } }

/-- EPOCH_COPY_WRITE: it waits while a Carding slice holds the region of the copies (R503). -/
def execEpochCopyWrite (t : IT) (s : State) : Host.Outcome State Fault Refusal :=
  .next (s.whenAwake fun s => if s.sliceAt 0xFFC00000 0x100000 then s else (s.at t).writeCopy)

/-- The instant of the next TIME-MARK: the multiple of 60 s after the last one marked, or the first one not passed. -/
def State.markAt (s : State) : IT :=
  if s.it ≤ s.time.mark + 60000000000 then s.time.mark + 60000000000
  else (s.it + 59999999999) / 60000000000 * 60000000000

/-- TIME_MARK: record 0x0008 at a whole multiple of 60 s. -/
def execTimeMark (s : State) : Host.Outcome State Fault Refusal :=
  .next (s.whenAwake fun s =>
    let m := s.markAt
    let s := s.at m
    ({ s with time := { s.time with mark := m } }).recordAt 0x0008 0 [] m)

/-- The final copy of R37, at the end of SHUTDOWN. -/
def State.writeFinal (s : State) (aon : Nat) : State :=
  let s := s.foldSlew
  { s with time := { s.time with
      aon := max aon s.time.aon,
      final := ⟨s.it, s.time.boot, max aon s.time.aon, s.time.offset, s.time.wallSet, !(s.rowRetired 0xFFC80000)⟩ } }

/-- The copy of the epoch whose row at byte offset `a` is retired is lost (R508). -/
def State.epochLost (s : State) (a : Nat) : State :=
  { s with time := { s.time with
      copyA := { s.time.copyA with valid := s.time.copyA.valid && a != 0xFFC00000 },
      copyB := { s.time.copyB with valid := s.time.copyB.valid && a != 0xFFC40000 },
      final := { s.time.final with valid := s.time.final.valid && a != 0xFFC80000 } } }

/-! ### The resume at a cold start (R35, R38, R39) -/

/-- Whether the newest valid alternating copy is the second one. -/
def TimeBase.newestB (t : TimeBase) : Bool :=
  t.copyB.valid && (!t.copyA.valid || decide (t.copyA.boot < t.copyB.boot) ||
    (t.copyA.boot == t.copyB.boot && decide (t.copyA.it ≤ t.copyB.it)))

/-- The newest valid alternating copy. -/
def TimeBase.newest (t : TimeBase) : Option EpochCopy :=
  if t.newestB then some t.copyB else if t.copyA.valid then some t.copyA else none

/-- The epoch region as a cold start finds it: the copies that fail their CRC-32 count as absent. -/
def TimeBase.found (t : TimeBase) (bad : Vector Bool 5) : TimeBase :=
  let ok := fun (i : Nat) => !(vget bad i false)
  { t with
    copyA := { t.copyA with valid := t.copyA.valid && ok 0 }, copyB := { t.copyB with valid := t.copyB.valid && ok 1 },
    final := { t.final with valid := t.final.valid && ok 2 },
    discA := if ok 3 then t.discA else none, discB := if ok 4 then t.discB else none }

/-- The next boot number (R35, R36). -/
def bootAfter (b : Nat) : Nat := if b ≥ 0xFFFFFFFF then 0xFFFFFFFF else b + 1

/-- What a cold start resumes: Izcel time, boot number, wall state, and the reason and stored IT of a discontinuity. -/
structure Resume where
  it      : IT
  boot    : Nat
  sat     : Bool
  offset  : Int
  wallSet : Bool
  disc    : Option (Nat × Nat)
  deriving DecidableEq, Repr

/-- The resume of R38. `log` lists the (boot number, IT) of the valid ones among the 64 records written last (R39). -/
def TimeBase.resume (t : TimeBase) (aon : Nat) (log : List (Nat × Nat)) : Resume :=
  match t.newest with
  | none =>
    if log.isEmpty then ⟨61000000000, 1, false, 0, false, some (2, 0)⟩
    else
      let b := log.foldl (fun m p => max m p.1) 0
      let x := log.foldl (fun m p => if p.1 = b then max m p.2 else m) 0
      ⟨x + 61000000000, bootAfter b, decide (b ≥ 0xFFFFFFFF), 0, false, some (2, 0)⟩
  | some c =>
    let f := t.final
    let boot := bootAfter c.boot
    let sat := decide (c.boot ≥ 0xFFFFFFFF)
    if !t.marker then ⟨c.it + 1000000000, boot, sat, 0, false, some (1, c.it)⟩
    else if f.valid && f.boot == c.boot && decide (c.it ≤ f.it) then
      ⟨f.it + (aon - f.aon) * 30517578125 / 1000000, boot, sat, if f.wallSet then f.offset else 0, f.wallSet, none⟩
    else ⟨c.it + 1000000000, boot, sat, 0, false, some (0, c.it)⟩

/-- The lifetime discontinuity count (R39): the copy that is valid, 0 where none is. -/
def TimeBase.discontinuities (t : TimeBase) : Nat :=
  match t.discA, t.discB with
  | some n, _ => n
  | none, some n => n
  | none, none => 0

/-- What the time base resumes from (R38): its copies but the bad ones, the AON counter and the log. -/
def State.resumed (s : State) (aon : Nat) (log : List (Nat × Nat)) (bad : Vector Bool 5) : Resume := (s.time.found bad).resume aon log

/-- The time base after the resume. Izcel time takes the resumed value and never falls
(R34; Assumption 13). The new boot number goes at once, before any record, into the alternating copy that is not the
newest (R35; Assumption 79). A whole multiple of 60 s at which the time resumes has its TIME-MARK already: the next one is due 60 s
later (R37; Assumption 123). -/
def State.resumeTime (s : State) (r : Resume) (bad : Vector Bool 5) : State :=
  let t := s.time.found bad
  let it := max s.it r.it
  let d' := sat32 (t.discontinuities + 1)
  let t : TimeBase := { t with
    boot := r.boot, marker := true, offset := r.offset, slewRest := 0, nextB := !t.newestB && t.copyA.valid,
    slewAt := it, wallSet := r.wallSet, selected := none, steps := 0, ppsLast := 0, ppsSeen := false, ppsPend := none,
    ppsBad := 0, named := none, deviation := 0, refPair := none, hostOk := false, lastGnss := none, lastPps := none,
    lastGptp := none, rc := false, strobeOk := Vector.replicate 4 true, edges := [], utc := none,
    frame := it / 1000000 * 1000000,
    mark := it / 60000000000 * 60000000000,
    discA := if r.disc.isSome then some d' else t.discA,
    discB := if r.disc.isSome then some d' else t.discB }
  ({ s with it := it, time := t } : State).writeCopy

/-- The records of a resume (R35, R38). -/
def State.resumeNote (s : State) (r : Resume) : State :=
  let s := match r.disc with
    | none => s
    | some (reason, stored) => s.record 0x1002 0 (le 8 stored ++ le 1 reason)
  s.recordIf r.sat 0x1003 0 []

end Sys2Proof.Machine
end

