-- ==== Sys2Proof/Machine/Motion.lean ====
section
/-! DEFINITION. The motion input unit (R54 to R90) but for what it does at a frame boundary: pulse inputs with quadrature,
index and compare lists, Hall sets, GNSS sentences and CAN-A intake. -/

namespace Sys2Proof.Machine

/-- Pulse input `i`. -/
def State.pulse (s : State) (i : Nat) : Pulse := vget s.motion.pulses i Pulse.reset

/-- Pulse input `i` changed. -/
def State.modPulse (s : State) (i : Nat) (f : Pulse → Pulse) : State :=
  { s with motion := { s.motion with pulses := vmod s.motion.pulses i f } }

/-- Hall set `h`. -/
def State.hall (s : State) (h : Nat) : Hall := vget s.motion.halls h Hall.reset

/-- Hall set `h` changed. -/
def State.modHall (s : State) (h : Nat) (f : Hall → Hall) : State :=
  { s with motion := { s.motion with halls := vmod s.motion.halls h f } }

/-- The mode of pulse input `i` (R58): 0 OFF, 1 SPEED, 2 FREQUENCY, 3 QUADRATURE, 4 PARTNER, 5 INDEX. -/
def State.pulseMode (s : State) (i : Nat) : Nat := s.pN (0x2010 + i) 1

/-- The counting input a line belongs to: the lead of a pair for a PARTNER, itself otherwise. -/
def State.leadOf (s : State) (i : Nat) : Nat := if s.pulseMode i = 4 then i - 1 else i

/-- Whether pulse input `i` counts. -/
def State.counting (s : State) (i : Nat) : Bool := 1 ≤ s.pulseMode i && s.pulseMode i ≤ 3

/-! ### Speed (R66 to R68, R75) -/

/-- The oldest edge of the window of R67: every edge of the run within `avg` ns before the newest, the one before it where
that is the newest alone. -/
def windowOldest (avg : Nat) : List (IT × Int) → Option (IT × Int)
  | [] => none
  | n :: rest =>
    match rest.takeWhile (fun e => decide (n.1 ≤ e.1 + avg)) with
    | [] => rest.head?
    | w => w.getLast?

/-- The speed pulse input `i` reports at `now`: mm/s, mHz in FREQUENCY (R66 to R68). -/
def State.pulseSpeed (s : State) (i : Nat) (now : IT) : Int :=
  let p := s.pulse i
  if !(s.counting i) || p.status != 3 then 0
  else
    let freq := s.pulseMode i == 2
    let unit : Int := if freq then 1000000000000 else (s.pN (0x2010 + i) 4 : Nat) * 1000
    match p.edges with
    | n :: prev :: _ =>
      if n.1 - prev.1 < now - n.1 then
        satI32 (rdiv (if p.rev && !freq then -unit else unit) (now - n.1))
      else match windowOldest (s.pN (0x2010 + i) 8 * 1000) p.edges with
        | some o => satI32 (rdiv ((n.2 - o.2) * unit) (n.1 - o.1))
        | none => 0
    | _ => 0

/-- The speed Hall set `h` reports at `now` in 0.1 rev/min (R75). -/
def State.hallSpeed (s : State) (h : Nat) (now : IT) : Int :=
  let x := s.hall h
  if !(s.pB (0x2040 + h) 1) || x.status != 3 then 0
  else
    let pp := s.pN (0x2040 + h) 3
    let v := fun (k span : Nat) => satI32 (rdiv ((if x.rev then -1 else 1) * ((600 * k * 1000000000 : Nat) : Int)) (6 * pp * span))
    match x.edges with
    | n :: prev :: _ =>
      if n - prev < now - n then v 1 (now - n)
      else v (x.edges.length - 1) (n - x.edges.getLast?.getD n)
    | _ => 0

/-- The mode of pulse input `i` written: an input that now counts is STOPPED, one that does not is OFF (Assumption 82). -/
def State.modeSet (s : State) (i : Nat) : State :=
  s.modPulse i (fun p => { p with status := b2n (s.counting i), edges := [] })

/-- Hall set `h` enabled or disabled: STOPPED without a code yet, or OFF (Assumption 82). -/
def State.hallSet (s : State) (h : Nat) : State :=
  let s := s.modHall h (fun x => { x with
    status := b2n (s.pB (0x2040 + h) 1), slowAt := s.it, edges := [], code := none, sector := 0, badCode := false })
  (s.commutate 0).commutate 1

/-! ### Edges (R60 to R66, R70) -/

/-- The status after an edge in direction `r` (R66). -/
def nextStatus (st : Nat) (rev r : Bool) : Nat := if st ≤ 1 then 2 else if r == rev then 3 else 4

/-- An edge at `t` in direction `r` taken into the run of edges; the run index stands for the count, so that edges beyond
a soft limit are timed as well (R65). Edges older than the longest window are dropped, but for one. -/
def Pulse.edge (p : Pulse) (t : IT) (r : Bool) : Pulse :=
  let st := nextStatus p.status p.rev r
  let k : Int := match p.edges with
    | e :: _ => if st = 3 then (if r then e.2 - 1 else e.2 + 1) else 0
    | [] => 0
  let keep := match (if st = 3 then p.edges else []) with
    | [] => []
    | e :: es => e :: es.takeWhile (fun x => decide (t ≤ x.1 + 200000000))
  { p with status := st, rev := r, last := t, edges := (t, k) :: keep }

/-- The lead input of the belt encoder (P 0x2070.02). -/
def State.beltInput (s : State) : Nat := if s.pN 0x2070 2 = 0 then 0 else 2

/-- A counted edge of input `i` as belt travel: each edge of the belt encoder moves the belt by one count, whatever count jumps
and soft limits do to the count itself (R203). -/
def State.beltStep (s : State) (i : Nat) (r : Bool) : State :=
  if i ≠ s.beltInput then s
  else { s with rate := { s.rate with belt := if r then s.rate.belt - 1 else s.rate.belt + 1 } }

/-- A dose mark at a compare entry (R203): the dose and the belt travel since the previous mark. -/
def State.doseMark (s : State) (entry : Nat) (t : IT) : State :=
  let mm := rdiv ((s.rate.belt - s.rate.beltMark) * (s.pN (0x2010 + s.beltInput) 4 : Nat)) 1000000
  let dose := s.rate.dose - s.rate.doseMark
  let s := { s with rate := { s.rate with doseMark := s.rate.dose, beltMark := s.rate.belt } }
  s.recordAt 0x5003 entry (le 4 (sat32 dose) ++ leI 4 (satI32 mm)) t

/-- The compare entry of input `i` that a step onto `count` in direction `r` crosses (R70). -/
def State.crossedEntry (s : State) (i : Nat) (count : Int) (r : Bool) : Option (Nat × Nat) :=
  let b := s.pBytes (0x2030 + i) 1
  let hits := (List.range (b.length / 8)).filterMap (fun k =>
    let act := natAt b (8 * k + 4) 1
    let q := act / 4 % 4
    if intAt b (8 * k) 4 = count ∧ (q = 0 ∨ (q = 1 ∧ !r) ∨ (q = 2 ∧ r)) then some (k, act) else none)
  hits.head?

/-- COMPARE_CROSSING: the stamp, the counter and the entry's actions. The manual lists no detail for its record; the model
gives it the input number (Assumption 83). -/
def State.compareCross (s : State) (i : Nat) (r : Bool) (t : IT) : State :=
  match s.crossedEntry i (s.pulse i).count r with
  | none => s
  | some (k, act) =>
    let s := s.modPulse i (fun p => { p with crossed := sat32 (p.crossed + 1), crossIt := t, crossEnt := k })
    let s := if bit act 0 then s.recordAt 0x2001 k (le 1 i) t else s
    if bit act 1 then s.doseMark k t else s

/-- The filter time of line `i` (R59): a PARTNER's is its lead's (R72). -/
def State.filterTime (s : State) (i : Nat) : Nat := s.pN (0x2010 + s.leadOf i) 3

/-- A glitch to `level` rejected on line `i`: the filtered level is the other one, known from now on. -/
def State.lineGlitch (s : State) (i : Nat) (level : Bool) : State :=
  s.modPulse i (fun p => { p with glitches := sat32 (p.glitches + 1), level := some (!level) })

/-- The soft limits of input `i` (R65): those of a PARTNER have no effect (R72). -/
def State.softLimits (s : State) (i : Nat) : Int × Int :=
  if s.pulseMode i = 4 then (-2147483648, 2147483647) else (s.pI (0x2010 + i) 9, s.pI (0x2010 + i) 0xA)

/-- One count of input `i` at `t`, falling where `r`: the count saturates at the soft limits (R65). -/
def State.countStep (s : State) (i : Nat) (r : Bool) (t : IT) : State :=
  let s := s.beltStep i r
  let p := s.pulse i
  let (lo, hi) := s.softLimits i
  let want := if r then p.count - 1 else p.count + 1
  let new := clampI lo hi want
  let beyond := decide (new ≠ want)
  let s := s.modPulse i (fun p => { (p.edge t r) with
    count := new,
    overruns := if beyond then sat32 (p.overruns + 1) else p.overruns,
    limLow := if beyond then p.limLow || r else p.limLow && r,
    limHigh := if beyond then p.limHigh || !r else p.limHigh && !r })
  if beyond then s else s.compareCross i r t

/-- OVER-RATE of R60 and the line's last edge: two passed edges on one line less than 5 µs apart. -/
def State.lineEdge (s : State) (i : Nat) (t : IT) (level : Bool) : State :=
  let fast := match (s.pulse i).lastLine with
    | some l => decide (t < l + 5000)
    | none => false
  let s := s.modPulse i (fun p => { p with lastLine := some t, level := some level })
  s.modPulse (s.leadOf i) (fun p => { p with overRate := p.overRate || fast })

/-- A passed edge of a QUADRATURE pair with lead `p`: `a` and `b` are the levels after it, `onA` says that line A moved
(R62). A leads while the count rises, unless the polarity says B. A line that has not passed an edge yet counts as low
(Assumption 9). -/
def State.quadEdge (s : State) (p : Nat) (onA : Bool) (t : IT) : State :=
  let a := (s.pulse p).level.getD false
  let b := (s.pulse (p + 1)).level.getD false
  let up := if onA then a != b else a == b
  let up := if s.pN (0x2010 + p) 0xD = 1 then !up else up
  s.countStep p (!up) t

/-- The direction of a counted edge in SPEED mode (R61). -/
def State.sourceRev (s : State) (i : Nat) : Bool :=
  match s.pN (0x2010 + i) 6 with
  | 1 => s.rov.rev
  | 2 => s.motion.isoRev
  | _ => false

/-- A passed edge of line `i` stamped `t` (R59 to R63): counted, or decoded with its pair. -/
def State.passedEdge (s : State) (i : Nat) (t : IT) (level both : Bool) : State :=
  let s := s.lineEdge i t level
  let p := s.leadOf i
  match s.pulseMode p with
  | 3 =>
    if both then
      let o := if i = p then p + 1 else p
      let s := s.lineEdge o t (!((s.pulse o).level.getD false))
      s.modPulse p (fun x => { x with illegal := sat32 (x.illegal + 1), uncert := sat32 (x.uncert + 2) })
    else s.quadEdge p (i == p) t
  | 1 | 2 =>
    let e := s.pN (0x2010 + i) 2
    if e = 2 ∨ (e = 0 ∧ level) ∨ (e = 1 ∧ !level) then
      s.countStep i (s.pulseMode i == 1 && s.sourceRev i) t
    else s
  | _ => s

/-- PULSE_EDGE: line `i` changes to `level`, first sampled at `t`, and holds it for `held` ns; `both` says that the other
line of its pair changed in the same filtered sample (R63). A change held for the filter time passes one
filter time after its stamp; a shorter one is a rejected glitch, and the return from it is no edge (R59). The changes of an INDEX line
come as INDEX_EDGE. -/
def execPulseEdge (i : Fin 8) (t : IT) (level both : Bool) (held : Nat) (s : State) :
    Host.Outcome State Fault Refusal :=
  .next (s.whenAwake fun s =>
    let f := s.filterTime i
    if s.pulseMode i = 5 ∨ (s.pulse i).level = some level then s
    else if f ≤ held then (s.at (t + f)).passedEdge i t level both
    else (s.at (t + held)).lineGlitch i level)

/-- An accepted index edge of the pair with lead `l` (R64). A LOAD jumps the count at the next boundary (R71). INDEX-SEEN stays
set from then on (Assumption 83). -/
def State.indexSeen (s : State) (l : Nat) : State :=
  let s := s.modPulse l (fun x => { x with uncert := 0, idxSeen := true })
  if s.pN (0x2010 + l) 0xB = 1 then s.modPulse l (fun x => { x with jump := some (s.pI (0x2010 + l) 0xC) }) else s

/-- INDEX_EDGE: the index line of pair `p` rises and stays high (R59, R64). Where the filtered level is high, a low before the rise
that was shorter than the filter time was a glitch, and the rise no edge. -/
def execIndexEdge (p : Fin 2) (x : IndexIn) (s : State) : Host.Outcome State Fault Refusal :=
  .next (s.whenAwake fun s =>
    let l := 2 * p.val
    let i := 4 + p.val
    let f := s.filterTime i
    if s.pulseMode i ≠ 5 ∨ s.pulseMode l ≠ 3 then s
    else if (s.pulse i).level = some true ∧ x.low < f then (s.at x.at_).lineGlitch i false
    else if f ≤ x.held then ((s.at (x.at_ + f)).modPulse i (fun y => { y with level := some true })).indexSeen l
    else (s.at (x.at_ + x.held)).lineGlitch i true)

/-- PULSE_STOP_TIMEOUT: no edge for the stop timeout (R66, R75). -/
def execPulseStopTimeout (x : SpeedInput) (s : State) : Host.Outcome State Fault Refusal :=
  .next (s.whenAwake fun s =>
    match x with
    | .pulse i =>
      let p := s.pulse i
      if p.status ≤ 1 then s
      else (s.at (p.last + s.pN (0x2010 + i.val) 7 * 1000000)).modPulse i (fun p => { p with status := 1, edges := [] })
    | .hall h =>
      let p := s.hall h
      if p.status ≤ 1 then s
      else 
        let s := s.at (p.last + s.pN (0x2040 + h.val) 5 * 1000000)
        s.modHall h (fun p => { p with status := 1, slowAt := if p.status = 2 then p.slowAt else s.it, edges := [] }))

/-- RESET_UNCERTAINTY's effect (R63). -/
def State.resetUncert (s : State) (i : Nat) : State := s.modPulse i (fun p => { p with uncert := 0 })

/-- SET_COUNT's effect: the count jumps at the next frame boundary (R71). -/
def State.setCount (s : State) (i : Nat) (v : Int) : State := s.modPulse i (fun p => { p with jump := some v })

/-! ### Hall sets (R73 to R75) -/

/-- The sector of a Hall code, 0 for an invalid one (R73). -/
def hallSector (c : BitVec 3) : Nat := ([0, 1, 3, 2, 5, 6, 4, 0][c.toNat]?).getD 0

/-- Lines that differ between two codes. -/
def linesMoved (a b : BitVec 3) : Nat :=
  let d := (a ^^^ b).toNat
  d % 2 + d / 2 % 2 + d / 4

/-- An accepted Hall edge at `t` in direction `r`. -/
def Hall.edge (x : Hall) (t : IT) (r : Bool) (sector : Nat) : Hall :=
  let st := nextStatus x.status x.rev r
  { x with sector := sector, status := st, slowAt := if x.status = 3 then t else x.slowAt, rev := r, last := t,
           count := satI32 (if r then x.count - 1 else x.count + 1),
           edges := (t :: (if st = 3 then x.edges else [])).take 7 }

/-- The Hall state after a code change (R74). A legal move to a sector that is neither the one held nor adjacent to it,
which only follows an illegal or invalid code, takes the new sector without an edge (Assumption 16). Before the first valid
code no sector is held: that code gives the sector, also where it is reached by an illegal move, which is counted (Assumption
106). -/
def Hall.move (x : Hall) (t : IT) (c : BitVec 3) (acb : Bool) : Hall :=
  let jump : Bool := match x.code with
    | some old => decide (2 ≤ linesMoved old c)
    | none => false
  let sec := hallSector c
  let x := { x with code := some c }
  let x := if jump then { x with illegal := sat32 (x.illegal + 1) } else x
  if sec = 0 then { x with invalid := sat32 (x.invalid + 1), badCode := true }
  else
    let x := { x with badCode := false }
    if x.sector = 0 then { x with sector := sec }
    else if jump ∨ sec = x.sector then x
    else if sec = x.sector % 6 + 1 then x.edge t acb sec
    else if x.sector = sec % 6 + 1 then x.edge t (!acb) sec
    else { x with sector := sec }

/-- The code that the filter P 0x204h.04 passes: each line changes for itself where its new level holds for the filter time (R59). Before
the first code all three lines have to. -/
def hallPassed (x : HallIn) (old : Option (BitVec 3)) (f : Nat) : Option (BitVec 3) :=
  let keeps : Nat → Bool := fun k => decide (f ≤ vget x.held k 0)
  match old with
  | none => if (List.range 3).all keeps then some x.code else none
  | some c => some (BitVec.ofNat 3 (bits ((List.range 3).map (fun k => if keeps k then x.code.getLsbD k else c.getLsbD k))))

/-- HALL_EDGE: the lines change at `t`; the code that the filter passes is decoded where it is not the one held, and the ports on the
set commutate (R59, R74, R313). -/
def execHallEdge (h : Fin 2) (t : IT) (x : HallIn) (s : State) : Host.Outcome State Fault Refusal :=
  .next (s.whenAwake fun s =>
    let f := s.pN (0x2040 + h.val) 4
    match hallPassed x (s.hall h).code f with
    | none => s
    | some c =>
      if !(s.pB (0x2040 + h.val) 1) || (s.hall h).code == some c then s
      else
      let s := (s.at (t + f)).modHall h (fun y => y.move t c (s.pN (0x2040 + h.val) 2 == 1))
      (List.range 2).foldl (fun s g => if s.pB (0x3508 + g) 1 && s.pN (0x3508 + g) 2 == h.val then s.commutate g else s) s)

/-! ### GNSS sentences (R78 to R81) -/

/-- The fields of a byte string between commas. -/
def splitComma : Bytes → List Bytes
  | [] => [[]]
  | b :: bs =>
    if b = 0x2C then [] :: splitComma bs
    else match splitComma bs with
      | [] => [[b]]
      | f :: fs => (b :: f) :: fs

/-- A digit's value. -/
def digitOf (b : Byte) : Option Nat := if 0x30 ≤ b.toNat ∧ b.toNat ≤ 0x39 then some (b.toNat - 0x30) else none

/-- Digits read as a number; none where a character is no digit. -/
def digitsOf (b : Bytes) : Option Nat :=
  b.foldl (fun a c => match a, digitOf c with
    | some n, some d => some (10 * n + d)
    | _, _ => none) (some 0)

/-- A decimal of a field scaled by 10^`k`, digits past the k-th place dropped (R79); none for an empty or malformed
field. -/
def decimalOf (b : Bytes) (k : Nat) : Option Int :=
  let neg := b.head? == some 0x2D
  let b := if neg || b.head? == some 0x2B then b.tail else b
  let w := b.takeWhile (· != 0x2E)
  let f := ((b.dropWhile (· != 0x2E)).drop 1).take k
  if w.isEmpty then none
  else match digitsOf w, digitsOf f with
    | some n, some m =>
      let v : Int := ((n * 10 ^ k + m * 10 ^ (k - f.length) : Nat) : Int)
      some (if neg then -v else v)
    | _, _ => none

/-- UTC time of day in ns of hhmmss.s. -/
def timeOf (b : Bytes) : Option Nat :=
  match digitsOf (b.take 2), digitsOf ((b.drop 2).take 2), decimalOf (b.drop 4) 9 with
  | some h, some m, some n =>
    if b.length < 6 ∨ 23 < h ∨ 59 < m ∨ n < 0 ∨ 61000000000 ≤ n then none else some ((h * 3600 + m * 60) * 1000000000 + n.toNat)
  | _, _, _ => none

/-- Days from 1970-01-01 to a date of 2000 to 2099. -/
def daysOf (y m d : Nat) : Nat :=
  let leap := y % 4 == 0
  let mo := [0, 31, 59, 90, 120, 151, 181, 212, 243, 273, 304, 334]
  10957 + 365 * y + (y + 3) / 4 + (mo[m - 1]?).getD 0 + (if leap && decide (2 < m) then 1 else 0) + (d - 1)

/-- The UTC midnight in ns of ddmmyy. -/
def dateOf (b : Bytes) : Option Nat :=
  match digitsOf (b.take 2), digitsOf ((b.drop 2).take 2), digitsOf ((b.drop 4).take 2) with
  | some d, some m, some y =>
    if b.length ≠ 6 ∨ d = 0 ∨ 31 < d ∨ m = 0 ∨ 12 < m then none else some (daysOf y m d * dayNs)
  | _, _, _ => none

/-- Latitude or longitude in 10^-10 minutes from (d)ddmm.m and its hemisphere. -/
def angleOf (b hemi : Bytes) : Option Int :=
  match decimalOf b 10 with
  | none => none
  | some v =>
    let deg := v / 1000000000000
    let x := deg * 600000000000 + v % 1000000000000
    if hemi = [0x4E] ∨ hemi = [0x45] then some x
    else if hemi = [0x53] ∨ hemi = [0x57] then some (-x)
    else none

/-- Degrees scaled by 10^9 as a binary angle. -/
def degToBam (v : Int) : Nat := bamN (rdiv (v * 4294967296) 360000000000)

/-- The fix quality of a GGA digit (R80): 0 NONE, 1 AUTONOMOUS, 2 DIFFERENTIAL, 3 RTK-FLOAT, 4 RTK-FIXED. -/
def ggaQuality (n : Int) : Nat := if n = 1 then 1 else if n = 2 then 2 else if n = 5 then 3 else if n = 4 then 4 else 0

/-- The fix quality of an RMC mode indicator (R80). -/
def rmcQuality (b : Bytes) : Nat :=
  if b = [0x41] then 1 else if b = [0x44] then 2 else if b = [0x46] then 3 else if b = [0x52] then 4 else 0

/-- UART `u`. -/
def State.uart (s : State) (u : Nat) : Uart := vget s.motion.uarts u Uart.reset

/-- UART `u` changed. -/
def State.modUart (s : State) (u : Nat) (f : Uart → Uart) : State :=
  { s with motion := { s.motion with uarts := vmod s.motion.uarts u f } }

/-- A measurement put into the set that the next boundary closes (R55). -/
def State.gather (s : State) (m : Meas) : State :=
  { s with motion := { s.motion with gather := s.motion.gather ++ [m] } }

/-- The speed over ground a source reports, for the standstill tests of R87 and R106. -/
def State.sogFrom (s : State) (src : Nat) (it : IT) (v : Int) : State :=
  { s with motion := { s.motion with sog := vset s.motion.sog src (some (it, v)) } }

/-- The accepted edge nearest in its marked second to a sentence's, at most 2 s apart (R81), and the signed difference to its second.
A sentence that names its date compares whole times; the second of a time of day alone is the one nearest to where the edge's second
and the time since put it. Of several such edges the manual names none; the model takes the nearest (Assumption 84). -/
def State.nearEdge (s : State) (date : Option Nat) (tod : Nat) (done : IT) : Option (IT × Int) :=
  let day : Int := dayNs
  let sec : Int := ((tod / 1000000000 * 1000000000 : Nat) : Int)
  let off := fun (e : IT × Nat) => match date with
    | some d => (d : Int) + sec - e.2
    | none =>
      let gap : Int := sec - ((e.2 % dayNs : Nat) : Int)
      gap + ((done : Int) - e.1 - gap + day / 2) / day * day
  let ok := s.time.edges.filter (fun e => decide ((off e).natAbs ≤ 2000000000))
  match ok with
  | [] => none
  | e :: es =>
    let b := es.foldl (fun b x => if (off x).natAbs < (off b).natAbs then x else b) e
    some (b.1, off b + ((tod % 1000000000 : Nat) : Int))

/-- The validity IT of a sentence that names time of day `tod`, of `date` where it names one, and completes at `done`, with the
timing basis (R81). -/
def State.validity (s : State) (date : Option Nat) (tod : Nat) (done : IT) : IT × Nat :=
  match s.nearEdge date tod done with
  | some (e, d) => (((e : Int) + d).toNat, 1)
  | none => (done - s.pN 0x1101 0xA, 2)

/-- The validity IT of a VTG or HDT sentence of UART `u` that completes at `done` (R81). -/
def State.validityUntimed (s : State) (u : Nat) (done : IT) : IT :=
  match (s.uart u).stamp with
  | some (c, v) => if done ≤ c + 200000000 then v else done - s.pN 0x1101 0xA
  | none => done - s.pN 0x1101 0xA

/-- Field `k` of a sentence, empty past its end. -/
def fieldOf (f : List Bytes) (k : Nat) : Bytes := (f[k]?).getD []

/-- Whether UART `u` passes positions, and headings, to Roving (R82). -/
def State.roleHas (s : State) (u role : Nat) : Bool := s.pN (0x2050 + u) 1 == role || s.pN (0x2050 + u) 1 == 3

/-- A position put into the set; one of quality NONE does not reach Roving (R80). -/
def State.gatherPos (s : State) (src : Nat) (it : IT) (lat lon : Int) (alt : Option Int) (q : Nat) : State :=
  if q = 0 then s else s.gather (.pos src it lat lon alt q)

/-- A position of UART `u`: the diagnostic read-out, and the measurement where the role passes positions. -/
def State.uartPos (s : State) (u : Nat) (it : IT) (lat lon : Int) (alt : Option Int) (q : Nat) : State :=
  let s := s.modUart u (fun x => { x with
    quality := q, valid := it, lat := rdiv lat 60000, lon := rdiv lon 60000 })
  if s.roleHas u 1 then s.gatherPos u it lat lon alt q else s

/-- Course and speed of UART `u`, in binary angle and mm/s. -/
def State.uartCog (s : State) (u : Nat) (it : IT) (course : Nat) (speed : Int) : State :=
  if s.roleHas u 1 then (s.sogFrom u it speed).gather (.cog u it course speed) else s

/-- The time of a GGA, RMC or GST sentence taken as timing basis; a GGA or RMC also names its second and stamps what
follows it. -/
def State.uartTime (s : State) (u : Nat) (done : IT) (date : Option Nat) (tod : Nat) (utc : Option Nat) : State × IT :=
  let s := match utc with
    | some x => s.namedSecond (s.pB (0x2050 + u) 4) done x
    | none => s
  let (v, basis) := s.validity date tod done
  let s := s.modUart u (fun x => { x with basis := basis, stamp := if utc.isSome then some (done, v) else x.stamp })
  (s, v)

/-- GGA (R79). Every accepted one counts as the last GGA of R80. -/
def State.nmeaGga (s : State) (u : Nat) (done : IT) (f : List Bytes) : State :=
  let q := match decimalOf (fieldOf f 6) 0 with
    | some q => ggaQuality q
    | none => 0
  let s := s.modUart u (fun x => { x with gga := some (done, q) })
  match timeOf (fieldOf f 1) with
  | none => s
  | some tod =>
    let (s, v) := s.uartTime u done none tod (some (s.dated tod))
    match angleOf (fieldOf f 2) (fieldOf f 3), angleOf (fieldOf f 4) (fieldOf f 5), decimalOf (fieldOf f 9) 3,
      decimalOf (fieldOf f 11) 3 with
    | some lat, some lon, some alt, some sep =>
      if (fieldOf f 6).isEmpty then s else s.uartPos u v lat lon (some (alt + sep)) q
    | _, _, _, _ => s

/-- The quality of an RMC of UART `u` completed at `done` (R80). -/
def State.qualityRmc (s : State) (u : Nat) (done : IT) (f : List Bytes) : Nat :=
  if !(fieldOf f 12).isEmpty then rmcQuality (fieldOf f 12)
  else match (s.uart u).gga with
    | some (c, q) => if done ≤ c + 2000000000 then q else 0
    | none => 0

/-- RMC (R79): a position unless its status is V, and course and speed; nothing where a field needed for them is empty. -/
def State.nmeaRmc (s : State) (u : Nat) (done : IT) (f : List Bytes) : State :=
  match timeOf (fieldOf f 1) with
  | none => s
  | some tod =>
    let utc := match dateOf (fieldOf f 9) with
      | some d => d + tod
      | none => s.dated tod
    let (s, v) := s.uartTime u done (dateOf (fieldOf f 9)) tod (some utc)
    match decimalOf (fieldOf f 8) 9, decimalOf (fieldOf f 7) 9 with
    | some c, some k =>
      let cog := fun (s : State) => s.uartCog u v (degToBam c) (rdiv (k * 1852) 3600000000)
      if fieldOf f 2 = [0x56] then cog s
      else match angleOf (fieldOf f 3) (fieldOf f 4), angleOf (fieldOf f 5) (fieldOf f 6) with
        | some lat, some lon =>
          if fieldOf f 2 = [] then s else cog (s.uartPos u v lat lon none (s.qualityRmc u done f))
        | _, _ => s
    | _, _ => s

/-- VTG (R79). -/
def State.nmeaVtg (s : State) (u : Nat) (done : IT) (f : List Bytes) : State :=
  match decimalOf (fieldOf f 1) 9, decimalOf (fieldOf f 7) 9 with
  | some c, some k => s.uartCog u (s.validityUntimed u done) (degToBam c) (rdiv k 3600000)
  | _, _ => s

/-- HDT (R79): under the HEADING and BOTH roles only. -/
def State.nmeaHdt (s : State) (u : Nat) (done : IT) (f : List Bytes) : State :=
  match decimalOf (fieldOf f 1) 9 with
  | some a => if s.roleHas u 2 then s.gather (.heading u (s.validityUntimed u done) (degToBam a)) else s
  | none => s

/-- GST (R79). -/
def State.nmeaGst (s : State) (u : Nat) (done : IT) (f : List Bytes) : State :=
  match timeOf (fieldOf f 1), decimalOf (fieldOf f 6) 3, decimalOf (fieldOf f 7) 3, decimalOf (fieldOf f 8) 3 with
  | some tod, some a, some b, some c =>
    let (s, v) := s.uartTime u done none tod none
    if s.roleHas u 1 then s.gather (.sigma u v a.toNat b.toNat c.toNat) else s
  | _, _, _, _ => s

/-- A hexadecimal digit's value, in either case: R78 names no case for hh (Assumption 124). -/
def hexOf (b : Byte) : Option Nat :=
  let n := b.toNat
  if 0x30 ≤ n ∧ n ≤ 0x39 then some (n - 0x30) else if 0x41 ≤ n ∧ n ≤ 0x46 then some (n - 0x37)
  else if 0x61 ≤ n ∧ n ≤ 0x66 then some (n - 0x57) else none

/-- Whether a byte is a letter. -/
def isLetter (b : Byte) : Bool := (0x41 ≤ b.toNat && b.toNat ≤ 0x5A) || (0x61 ≤ b.toNat && b.toNat ≤ 0x7A)

/-- The characters between $ and * of a sentence that ends in *hh, CR, LF with hh their XOR; none otherwise. -/
def checkedBody (text : Bytes) : Option Bytes :=
  match text.reverse with
  | 0x0A :: 0x0D :: l :: h :: 0x2A :: rest =>
    let body := rest.reverse.drop 1
    match hexOf h, hexOf l with
    | some x, some y => if (body.foldl (· ^^^ ·) 0).toNat = 16 * x + y then some body else none
    | _, _ => none
  | _ => none

/-- The sentence types of R78 with their bits in P 0x205u.03. -/
def sentenceBit (t : Bytes) : Option Nat :=
  if t = [0x47, 0x47, 0x41] then some 0 else if t = [0x52, 0x4D, 0x43] then some 1
  else if t = [0x56, 0x54, 0x47] then some 2 else if t = [0x48, 0x44, 0x54] then some 3
  else if t = [0x47, 0x53, 0x54] then some 4 else none

/-- NMEA_SENTENCE: judged in the order of R78, counted once, and turned into measurements (R79). -/
def execNmeaSentence (u : Fin 2) (t : IT) (text : Bytes) (s : State) : Host.Outcome State Fault Refusal :=
  .next (s.whenAwake fun s =>
    let u := u.val
    let s := s.at t
    if text.head? ≠ some 0x24 ∨ 82 < text.length then s.modUart u (fun x => { x with other := sat32 (x.other + 1) })
    else match checkedBody text with
      | none => s.modUart u (fun x => { x with csFail := sat32 (x.csFail + 1) })
      | some body =>
        let f := splitComma body
        let id := fieldOf f 0
        let kind := if id.length = 5 && (id.take 2).all isLetter then sentenceBit (id.drop 2) else none
        match kind with
        | none => s.modUart u (fun x => { x with other := sat32 (x.other + 1) })
        | some k =>
          if !(bit (s.pN (0x2050 + u) 3) k) then s.modUart u (fun x => { x with other := sat32 (x.other + 1) })
          else
            let s := s.modUart u (fun x => { x with accepted := sat32 (x.accepted + 1) })
            match k with
            | 0 => s.nmeaGga u t f
            | 1 => s.nmeaRmc u t f
            | 2 => s.nmeaVtg u t f
            | 3 => s.nmeaHdt u t f
            | _ => s.nmeaGst u t f)

/-! ### CAN-A intake (R83) -/

/-- An NMEA 2000 message counted as accepted. -/
def State.n2kAccept (s : State) : State :=
  { s with motion := { s.motion with n2kOk := sat32 (s.motion.n2kOk + 1) } }

/-- Fix quality of source address `src` at `t`: of its last 129029 within 2 s. -/
def State.n2kQuality (s : State) (src : Nat) (t : IT) : Nat :=
  match s.motion.n2kQual.find? (fun q => q.1 == src) with
  | some (_, c, q) => if t ≤ c + 2000000000 then q else 0
  | none => 0

/-- 10^-4 rad as a binary angle. -/
def radToAngle (n : Nat) : Nat := bamN (radToBam ((n : Int) * 100000000000000))

/-- A complete PGN 129029: the fix quality by its method, and the position with its altitude (R83). -/
def State.gnssData (s : State) (t : IT) (src : Nat) (b : Bytes) : State :=
  let m := natAt b 31 1 / 16
  let q := if m = 1 then 1 else if m = 2 then 2 else if m = 4 then 4 else if m = 5 then 3 else 0
  let s := s.n2kAccept
  let s := { s with motion := { s.motion with
    n2kQual := (src, t, q) :: s.motion.n2kQual.filter (fun x => x.1 != src) } }
  let lat := intAt b 7 8
  let lon := intAt b 15 8
  let alt := intAt b 23 8
  let na : Int := 9223372036854775807
  if b.length < 32 ∨ lat = na ∨ lon = na then s
  else s.gatherPos 2 (t - s.pN 0x2058 3) (rdiv (lat * 60) 1000000) (rdiv (lon * 60) 1000000)
    (if alt = na then none else some (rdiv alt 1000)) q

/-- One frame of the fast-packet transfer of PGN 129029: the first starts a transfer, each later one must come in order. -/
def State.fastFrame (s : State) (t : IT) (src : Nat) (d : Bytes) : State :=
  let c := natAt d 0 1
  let seq := c / 32
  let k := c % 32
  let rest := s.nets.canA.fast.filter (fun x => x.1 != src)
  let put := fun (s : State) (l : List (Nat × Nat × Nat × Nat × Bytes)) =>
    { s with nets := { s.nets with canA := { s.nets.canA with fast := l } } }
  if k = 0 then put s ((src, seq, 1, natAt d 1 1, d.drop 2) :: rest)
  else match s.nets.canA.fast.find? (fun x => x.1 == src) with
    | none => s
    | some (_, q, n, total, data) =>
      if q ≠ seq ∨ n ≠ k then put s rest
      else
        let data := data ++ d.drop 1
        if data.length < total then put s ((src, seq, k + 1, total, data) :: rest)
        else (put s rest).gnssData t src (data.take total)

/-- An ISO 11783 speed message (R83): speed in mm/s, direction in byte 8. The layouts, a direction field in error or not
available (the last direction stays) and a speed in error (accepted, no measurement) are those of the public standard
(Assumption 19). -/
def State.isoSpeedMsg (s : State) (t : IT) (d : Bytes) : State :=
  let v := natAt d 0 2
  let dir := natAt d 7 1 % 4
  let it := t - s.pN 0x2059 2
  let rev := if dir = 0 then true else if dir = 1 then false else s.motion.isoRev
  let s := { s with motion := { s.motion with isoOk := sat32 (s.motion.isoOk + 1), isoRev := rev } }
  if 0xFB00 ≤ v then s
  else
    let x : Int := if rev then -(v : Int) else v
    ({ s with motion := { s.motion with isoSpeed := some (it, x) } }).gather (.isoSpeed it x)

/-- CAN_A_MOTION_MESSAGE: one frame that the receive filters pass (R83). A frame of a message not enabled is no event. -/
def execCanAMotionMessage (t : IT) (pgn src : Nat) (data : Bytes) (s : State) : Host.Outcome State Fault Refusal :=
  .next (s.whenAwake fun s =>
    let n2k := fun k => bit (s.pN 0x2058 1) k && (s.pN 0x2058 2 == 255 || s.pN 0x2058 2 == src)
    let iso := fun k => bit (s.pN 0x2059 1) k
    let it := t - s.pN 0x2058 3
    let s := s.at t
    if pgn = 129025 ∧ n2k 0 then
      let s := s.n2kAccept
      let lat := intAt data 0 4
      let lon := intAt data 4 4
      if lat = 2147483647 ∨ lon = 2147483647 then s
      else s.gatherPos 2 it (lat * 60000) (lon * 60000) none (s.n2kQuality src t)
    else if pgn = 129026 ∧ n2k 1 then
      let s := s.n2kAccept
      let c := natAt data 2 2
      let v := natAt data 4 2
      if natAt data 1 1 % 4 ≠ 0 ∨ 0xFFFC < c ∨ 0xFFFC < v then s
      else (s.sogFrom 2 it (10 * v)).gather (.cog 2 it (radToAngle c) (10 * v))
    else if pgn = 127250 ∧ n2k 2 then
      let s := s.n2kAccept
      let a := natAt data 1 2
      if natAt data 7 1 % 4 ≠ 0 ∨ 0xFFFC < a then s else s.gather (.heading 2 it (radToAngle a))
    else if pgn = 129029 ∧ n2k 3 then s.fastFrame t src data
    else if (pgn = 65096 ∧ iso 0) ∨ (pgn = 65097 ∧ iso 1) ∨ (pgn = 61474 ∧ iso 2) then s.isoSpeedMsg t data
    else s)

/-! ### The boundary (R55, R71, R85 to R88) -/

/-- The count of input `i` at a boundary: a jump takes effect, and the count is held to the soft limits now in use (R65, R71).
The manual gives the flags after a jump or after limits drawn in under the count no value: LIMIT-LOW and LIMIT-HIGH then say
which limit holds the count (Assumption 83). Limits widened while a flag is set leave it until a step the other way (R65;
Assumption 105). -/
def State.applyJump (s : State) (i : Nat) : State :=
  let (lo, hi) := s.softLimits i
  let want := (s.pulse i).jump.getD (s.pulse i).count
  if (s.pulse i).jump.isNone && decide (lo ≤ want) && decide (want ≤ hi) then s
  else
    let new := clampI lo hi want
    let by_ := if s.pN 0x2400 13 = i + 1 then new - (s.pulse i).count else 0
    { s.modPulse i (fun p => { p with
        count := new, jump := none, limLow := decide (want < lo), limHigh := decide (hi < want) }) with
      rate := { s.rate with flowCnt := s.rate.flowCnt + by_ } }

/-- MEASUREMENT_SET_CLOSE at the boundary `s.it` (R55): the gathered measurements and the state of every input. OVER-RATE
stands for one frame (R60). -/
def State.closeSet (s : State) : State :=
  let s := (List.range 8).foldl (fun s i => s.applyJump i) s
  let m := s.motion
  { s with motion := { m with
      set := m.gather, gather := [],
      setP := vgen 8 (fun i => ⟨(s.pulse i).count, s.pulseSpeed i s.it, (s.pulse i).status, (s.pulse i).last⟩),
      setH := vgen 2 (fun h => ⟨(s.hall h).count, s.hallSpeed h s.it, (s.hall h).status, (s.hall h).last⟩),
      pulses := vmapi m.pulses (fun _ p => { p with overRate := false }) } }

/-- The inertial sensor changed. -/
def State.modInert (s : State) (f : Inertial → Inertial) : State :=
  { s with motion := { s.motion with inert := f s.motion.inert } }

/-- A sensor vector in the implement frame under the axis mapping of P 0x2060.02 to .04 (R85). -/
def State.rotateImu (s : State) (v : Vector Int 3) : Vector Int 3 :=
  vgen 3 (fun k =>
    let c := s.pN 0x2060 (2 + k)
    let x := vget v (c / 2) 0
    if c % 2 = 1 then -x else x)

/-- Whether every speed source enabled in P 0x2100.09 reports standstill, or with none enabled the speed over ground of
the position source lies below 50 mm/s (R87, R106); the last one received counts, however old (Assumption 85). An ISO 11783
speed or a position source that has never reported is not at standstill (Assumption 107). -/
def State.sourcesStill (s : State) : Bool :=
  let src := s.pN 0x2100 9
  if src = 0 then
    match vget s.motion.sog (s.pN 0x2100 7) none with
    | some (_, v) => decide (v.natAbs < 50)
    | none => false
  else
    (List.range 8).all (fun i =>
      let p := vget s.motion.setP i ⟨0, 0, 1, 0⟩
      !(bit src i) || p.status == 1 || p.speed == 0) &&
    (!(bit src 8) || (match s.motion.isoSpeed with
      | some (_, v) => v == 0
      | none => false))

/-- Whether the standard deviation of each acceleration axis over the samples of the last 500 ms lies below P 0x2060.06; 500 ms of
samples must have passed. -/
def State.vibrationLow (s : State) : Bool :=
  let w := (s.motion.inert.window.filter (fun v => decide (s.it < v.1 + 500000000))).map (·.2)
  let n := w.length
  let lim : Int := s.pN 0x2060 6
  n != 0 && s.motion.inert.window.any (fun v => decide (v.1 + 499000000 ≤ s.it)) && [0, 1, 2].all (fun k =>
    let sx := w.foldl (fun a v => a + vget v k 0) 0
    let sxx := w.foldl (fun a v => a + vget v k 0 * vget v k 0) 0
    decide (n * sxx - sx * sx < n * n * lim * lim))

/-- The mean gyro rate over the standstill. -/
def Inertial.mean (x : Inertial) : Vector Int 3 := x.sum.map (fun v => rdiv v x.n)

/-- SENSOR-FAULT (R88). -/
def Inertial.fault (x : Inertial) : Bool := x.hard || x.soft

/-- The health checks of R88 on a sample that arrived. A run of identical samples counts one fault, however long it lasts
(Assumption 108); its last 99 samples may stand among the 1,000 that clear SENSOR-FAULT. -/
def Inertial.check (x : Inertial) (q : ImuSample) : Inertial :=
  let same := if x.lastRaw = some (q.gyro, q.accel) then x.same + 1 else 1
  let stuck := decide (100 ≤ same)
  let x := { x with lastRaw := some (q.gyro, q.accel), same := same, temp := q.temp,
                    faults := if same = 100 then sat32 (x.faults + 1) else x.faults }
  if stuck then { x with soft := true, clean := if x.soft then min (x.clean + 1) 99 else 99 }
  else
    let c := x.clean + 1
    if x.soft then (if 1000 ≤ c then { x with soft := false, clean := 0 } else { x with clean := c }) else x

/-- Standstill estimation at the boundary on its rotated gyro sample, if one came (R87). Once an estimate has been made in this
standstill it follows the running mean; a temperature more than 10 °C from the estimate's makes it STALE. The manual gives no
rule for ESTIMATING: the model reports it while a standstill renews a STALE estimate, and never before the first one
(Assumption 85). -/
def State.standstill (s : State) (g : Option (Vector Int 3)) : State :=
  let now := s.it
  let s := if s.sourcesStill && s.vibrationLow then
    s.modInert (fun x =>
      let t0 := x.still.getD now
      let x := { x with still := some t0, stillAt := now, status := if x.status = 3 then 1 else x.status }
      let x := match g with
        | some g => { x with sum := x.sum.zipWith (· + ·) g, n := x.n + 1 }
        | none => x
      match x.estIt with
      | some e => if t0 ≤ e ∧ x.status = 2 ∧ x.n ≠ 0 then { x with bias := x.mean, estIt := some now, estTemp := x.temp } else x
      | none => x)
  else
    s.modInert (fun x => { x with
      still := none, sum := Vector.replicate 3 0, n := 0, status := if x.status = 1 then 3 else x.status })
  s.modInert (fun x => if x.status = 2 ∧ 100 < (x.temp - x.estTemp).natAbs then { x with status := 3 } else x)

/-- The largest acceleration published, in mm/s² (R86). -/
def accelMax : Int := 78453

/-- INERTIAL_SAMPLE at a boundary (R85, R86): rotated, bias-corrected, clamped and published with its validity IT; none where
the sample has not come. -/
def State.inertialSample (s : State) (f : FrameIn) : State :=
  match f.imu with
  | none => (s.standstill none).modInert (fun x => { x with fresh := false })
  | some q =>
    let s := s.modInert (fun x => x.check q)
    let g := s.rotateImu q.gyro
    let a := s.rotateImu q.accel
    let s := s.modInert (fun x =>
      let young := x.window.takeWhile (fun v => decide (s.it < v.1 + 500000000))
      { x with window := (s.it, q.accel) :: (young ++ (x.window.drop young.length).take 1) })
    let s := s.standstill (some g)
    let pub := g.zipWith (fun u b => u - b) s.motion.inert.bias
    let lim : Int := 2147483647
    s.modInert (fun x => { x with
      gyro := pub.map (clampI (-lim) lim), accel := a.map (clampI (-accelMax) accelMax),
      clamped := pub.toList.any (fun v => decide (lim < v ∨ v < -lim)), fresh := true, it := s.it - 900000 })

/-- INERTIAL_SAMPLE_LATE: no sample within 500 µs of the trigger (R88). -/
def execInertialSampleLate (s : State) : Host.Outcome State Fault Refusal :=
  .next (s.whenAwake fun s =>
    (s.at (s.time.frame + 500000)).modInert (fun x => { x with soft := true, clean := 0, faults := sat32 (x.faults + 1), fresh := false }))

/-- STANDSTILL_BIAS: standstill has held for P 0x2060.05; the estimate is the mean gyro rate over it (R87). -/
def execStandstillBias (t : IT) (s : State) : Host.Outcome State Fault Refusal :=
  .next (s.whenAwake fun s =>
    match s.motion.inert.still with
    | none => s
    | some t0 =>
      if s.motion.inert.n = 0 ∨ t < t0 + s.pN 0x2060 5 * 1000000 then s
      else
        let s := s.at t
        s.modInert (fun x => { x with bias := x.mean, status := 2, estIt := some s.it, estTemp := x.temp }))

/-- BIAS_STALE: P 0x2060.07 has passed without standstill since the last one ended (R87). -/
def execBiasStale (t : IT) (s : State) : Host.Outcome State Fault Refusal :=
  .next (s.whenAwake fun s =>
    let x := s.motion.inert
    if x.still.isSome ∨ x.status ≠ 2 ∨ t < x.stillAt + s.pN 0x2060 7 * 1000000000 then s
    else (s.at t).modInert (fun x => { x with status := 3 }))

end Sys2Proof.Machine
end

