-- ==== Sys2Proof/Machine/Whorl.lean ====
section
/-! DEFINITION. Whorl (R259 to R287): the step of a loop, hand-overs and blends, limits and budget, coefficient writes, and
what each device state does to a loop. Sums of products run in ascending index order (Assumption 10). -/

namespace Sys2Proof.Machine

/-- Loop `w`. -/
def State.lp (s : State) (w : Nat) : Loop := vget s.whorl.loops w Loop.reset

/-- Loop `w` changed. -/
def State.modLp (s : State) (w : Nat) (f : Loop → Loop) : State :=
  { s with whorl := { s.whorl with loops := vmod s.whorl.loops w f } }

/-- A loop counter raised (P 0x3100+w.2E). -/
def Loop.count (l : Loop) (i : Nat) : Loop := { l with counters := vmod l.counters i (fun k => sat32 (k + 1)) }

/-- Whether loop `w` is in use. -/
def State.lpOn (s : State) (w : Nat) : Bool := s.pB (0x3100 + w) 1

/-- A size of loop `w` (R259): 0 states, 1 measurements, 2 outputs, 3 references. -/
def State.lpSize (s : State) (w k : Nat) : Nat := s.pN (0x3100 + w) 4 / 16 ^ k % 16

/-- Whether loop `w` steps: RUN, and a state of MANUAL, AUTO-1, AUTO-2 or INPUT-FAULT. -/
def State.stepping (s : State) (w : Nat) : Bool :=
  let t := (s.lp w).state
  s.power.dev == .run && (t == 2 || t == 3 || t == 4 || t == 7)

/-- The cost of a step in engine cycles (R282). -/
def State.stepCost (s : State) (w : Nat) : Nat :=
  let n := s.lpSize w 0
  let p := s.lpSize w 1
  let m := s.lpSize w 2
  112 + n * n + 2 * n * p + 2 * n * m + m * s.lpSize w 3

/-- The engine load in 0.1 % of 100 MHz, rounded up: the sum of R282 over the loops in use, kept as a fraction until the end. -/
def State.engineLoad (s : State) : Nat :=
  let f := (List.range 8).foldl (fun (f : Nat × Nat) w =>
    let p := s.pN (0x3100 + w) 2
    if s.lpOn w && decide (0 < p) then (f.1 * p + s.stepCost w * 10000 * f.2, f.2 * p) else f) (0, 1)
  cdiv f.1 f.2

/-- The committed sum reported in P 0x3200.01 (R282). -/
def State.noteLoad (s : State) : State := { s with whorl := { s.whorl with load := s.engineLoad } }

/-! ### Coefficients (R262, R273 to R275) -/

/-- Coefficient at offset `o` of region `j`, in use. -/
def Loop.coef (l : Loop) (j o : Nat) : F32 := (alookup (j * 200 + o) l.table).getD 0

/-- A row of a matrix times a vector: `base` is the row's first offset. -/
def Loop.rowTimes (l : Loop) (j base n : Nat) (x : Nat → F32) : F32 :=
  (List.range n).foldl (fun a k => f32Add a (f32Mul (l.coef j (base + k)) (x k))) 0

/-- A coefficient list put over another. -/
def putAll (w l : List (Nat × F32)) : List (Nat × F32) := w.foldl (fun t p => aput p.1 p.2 t) l

/-- The staged content of region `j` moved into use, counted when there is any (R274). -/
def Loop.applyStaged (l : Loop) (j : Nat) : Loop :=
  let (mine, rest) := l.staged.partition (fun p => p.1 / 200 == j)
  if mine.isEmpty then l
  else { l with table := putAll mine l.table, staged := rest }.count 7

/-- A write of coefficients (offset, value in ascending order) to region `j` of loop `w` (R273 to R275). -/
def State.coefWrite (s : State) (w j : Nat) (cs : List (Nat × F32)) : State :=
  let ks := cs.map (fun c => (j * 200 + c.1, c.2))
  let active := s.stepping w && (s.lp w).region == j
  let unstaged := fun (l : Loop) => { l with staged := l.staged.filter (fun p => !(ks.any (fun k => k.1 == p.1))) }
  if !active then s.modLp w (fun l => { unstaged l with table := putAll ks l.table })
  else if s.pN (0x3100 + w) 0x18 = 0 then s.modLp w (fun l => { l with staged := putAll ks l.staged })
  else if ks.isEmpty then s
  else s.modLp w (fun l => { (unstaged l).count 6 with live := l.live ++ [ks] })

/-- The next coefficient of a live write (R260 step 1, R275). -/
def Loop.liveStep (l : Loop) : Loop :=
  match l.live with
  | [] => { l with mixed := false }
  | [] :: rest => { l with live := rest, mixed := false }
  | (c :: cs) :: rest =>
    { l with table := aput c.1 c.2 l.table, live := if cs.isEmpty then rest else cs :: rest, mixed := !cs.isEmpty }

/-- The coefficients of live writes not yet applied go into the region left (R275). -/
def Loop.liveFlush (l : Loop) : Loop :=
  { l with table := l.live.foldl (fun t ws => putAll ws t) l.table, live := [], mixed := false }

/-! ### Measurements (R264, R265) -/

/-- A field of measurement entry `i` as binary32. -/
def State.msrF (s : State) (w i o : Nat) : F32 := BitVec.ofNat 32 (natAt (s.pBytes (0x3100 + w) 5) (24 * i + o) 4)

/-- When the shunt of an analog input opened last: `above` is the last stretch for which its current stood above 30 mA, and 10 ms of it
with the shunt closed open the shunt for 1 s (R526). -/
def shuntOpened (was : Option IT) (above : Option (IT × IT)) : Option IT :=
  match above with
  | none => was
  | some (a, b) =>
    let since := match was with
      | some o => max a (o + 1000000000)
      | none => a
    if since + 10000000 ≤ b then some (since + 10000000) else was

/-- Whether the shunt of analog input `k` is open now. -/
def State.shuntOpen (s : State) (k : Nat) : Bool :=
  match vget s.whorl.shunt k none with
  | some o => decide (o ≤ s.it ∧ s.it < o + 1000000000)
  | none => false

/-- The shunts of the analog inputs that loop `w` measures in the CURRENT range, as the stretches above 30 mA up to its step have left
them (R526). -/
def State.shunts (s : State) (w : Nat) (x : LoopIn) : State :=
  (List.range (s.lpSize w 1)).foldl (fun s i =>
    let e := bytesAt (s.pBytes (0x3100 + w) 5) (24 * i) 24
    let k := natAt e 1 1
    if natAt e 0 1 = 1 ∧ natAt e 2 1 = 1 then { s with whorl := { s.whorl with
      shunt := vset s.whorl.shunt k (shuntOpened (vget s.whorl.shunt k none)
        ((vget x.above30 k none).map (fun p => (p.1, min p.2 s.it)))) } }
    else s) s

/-- The raw value of measurement `i` of loop `w`, none while its shunt is open; a voltage reads 0 to 5,000 mV, a current 0 to 25 mA
(R526). -/
def State.rawMeas (s : State) (w i : Nat) (x : LoopIn) : Option F32 :=
  let e := s.pBytes (0x3100 + w) 5
  let kind := natAt e (24 * i) 1
  let k := natAt e (24 * i + 1) 1
  match kind with
  | 1 =>
    if natAt e (24 * i + 2) 1 = 0 then some (f32OfInt (min 5000 (vget x.milliVolt k 0) : Nat))
    else if s.shuntOpen k then none else some (f32OfInt (min 25000 (vget x.microAmp k 0) : Nat))
  | 2 => some (f32OfInt (s.pulseSpeed k s.it))
  | 3 => some (f32OfInt (s.hallSpeed k s.it))
  | 4 => some (f32OfInt (s.br k).current)
  | _ => none

/-- A sample of measurement `i` in engineering units, with whether it is accepted (R264). -/
def State.sampleMeas (s : State) (w i : Nat) (x : LoopIn) : F32 × Bool :=
  match s.rawMeas w i x with
  | none => (0, false)
  | some r =>
    let v := f32Add (f32Mul (s.msrF w i 4) r) (s.msrF w i 8)
    let l := s.lp w
    let inside := f32Le (s.msrF w i 12) v && f32Le v (s.msrF w i 16)
    let step := s.msrF w i 20
    let calm := f32IsZero step || !(vget l.okMeas i false) || f32Le (f32Abs (f32Sub v (vget l.meas i 0))) step
    (v, inside && calm)

/-- Steps 1 and 2 on the measurements: accepted samples kept, rejections counted. -/
def State.latch (s : State) (w : Nat) (x : LoopIn) : State :=
  let p := s.lpSize w 1
  let s := s.shunts w x
  let got := (List.range p).map (fun i => s.sampleMeas w i x)
  s.modLp w (fun l =>
    let l := { l with inRej := got.any (fun g => !g.2), lastRej := vlist 4 (got.map (fun g => !g.2)) false }
    (List.range p).foldl (fun l i =>
      match got[i]? with
      | some (v, true) => { l with meas := vset l.meas i v, okMeas := vset l.okMeas i true, rejects := vset l.rejects i 0 }
      | _ => { l with rejects := vmod l.rejects i (· + 1) }.count 1) l)

/-- The tracking word of reference `r`: its source and its tracked measurement, of the automatic mode in use (R266). -/
def State.tracking (s : State) (w r : Nat) : Nat × Nat :=
  let v := s.pEl (0x3100 + w) (if (s.lp w).auto2 then 8 else 7) 2 r
  (v / 256, v % 256)

/-- Whether MEASUREMENT-INVALID stands (R265). -/
def State.measInvalid (s : State) (w : Nat) : Bool :=
  let l := s.lp w
  !(s.stepping w) || l.state == 7 || vget l.lastRej (s.tracking w 0).2 false

/-! ### References (R266 to R268) -/

/-- The values posted to a loop that have come due (R266). -/
def Loop.takePosts (l : Loop) (t : IT) : Loop :=
  let l := match l.postNext with
    | some (at_, v) => if at_ ≤ t then { l with posted := v, postNext := none } else l
    | none => l
  match l.reqNext with
  | some (at_, v) => if at_ ≤ t then { l with request := v, reqNext := none } else l
  | none => l

/-- The granted set-point of reference `r` (R266). -/
def State.grantedRef (s : State) (w r : Nat) : F32 :=
  let l := s.lp w
  let host := s.pElF (0x3100 + w) 0x11 r
  let t := match (s.tracking w r).1 with
    | 0 => host
    | 1 => if s.power.dev = .run then vget l.posted r 0 else 0
    | _ => if s.power.dev = .run then f32Max host l.request else host
  f32Clamp (s.pElF (0x3100 + w) 0x12 r) (s.pElF (0x3100 + w) 0x13 r) t

/-- A quantity with the sign of `d`. -/
def withSign (d x : F32) : F32 := if f32IsZero d then 0 else if f32Neg d then f32Negate x else x

/-- One step of a limited reference towards its target (R267): position and speed. -/
def shapeRef (target rl vr vmax amax ts : F32) : F32 × F32 :=
  let d := f32Sub target rl
  let ad := f32Abs d
  let vw := if f32Lt 0 vmax then withSign d (f32Min vmax (f32Sqrt (f32Mul (f32Mul 0x40000000 amax) ad))) else f32Div d ts
  let vr := if f32IsZero amax then
      let v := f32Div ad ts
      withSign d (if f32Lt 0 vmax then f32Min v vmax else v)
    else
      let a := f32Mul amax ts
      f32Add vr (f32Clamp (f32Negate a) a (f32Sub vw vr))
  let rl := f32Add rl (f32Mul vr ts)
  let a := f32Mul amax ts
  if f32Le (f32Abs (f32Sub target rl)) (f32Mul a ts) && f32Le (f32Abs vr) a then (target, 0) else (rl, vr)

/-- The step period of loop `w` in seconds. -/
def State.lpTs (s : State) (w : Nat) : F32 := f32OfRat (s.pN (0x3100 + w) 2) 1000000000

/-- Whether reference 1 of loop `w` is the pressure that the rate and dose computer plans with (P 0x2400.06). -/
def State.pressureRef (s : State) (w : Nat) : Bool := s.pN 0x2400 6 == w + 1

/-- The granted pressure set-point in force: a change granted in frame k is a notice, and acts from boundary k + 2 (R21). A loop
that was not stepping has none in force: until the first one acts it holds `from_`, where its limited reference starts
(Assumption 94). -/
def State.noticeRef (s : State) (w : Nat) (g : F32) (from_ : Option F32) : State :=
  s.modLp w (fun l =>
    match from_ with
    | some v => { l with inForce := v, coming := [((s.it / 1000000 + 2) * 1000000, g)] }
    | none =>
      let l := if g = vget l.granted 0 0 then l
        else { l with coming := l.coming ++ [((s.it / 1000000 + 2) * 1000000, g)] }
      { l with inForce := (l.coming.filter (fun c => decide (c.1 ≤ s.it))).foldl (fun _ c => c.2) l.inForce,
               coming := l.coming.filter (fun c => decide (s.it < c.1)) })

/-- Step 3: granted set-points published, and the limited references shaped under R267, or started at their tracked
measurements where `start` (R269). `idle` says that the loop was not stepping. -/
def State.references (s : State) (w : Nat) (start idle : Bool) : State :=
  let q := s.lpSize w 3
  let g := fun r => if r < q then s.grantedRef w r else 0
  let s := s.noticeRef w (g 0) (if idle then some (vget (s.lp w).meas (s.tracking w 0).2 0) else none)
  let l := s.lp w
  let ts := s.lpTs w
  let aim := fun r => if r = 0 ∧ s.pressureRef w then l.inForce else g r
  let new := fun r =>
    if q ≤ r then ((0 : F32), (0 : F32))
    else if start then (vget l.meas (s.tracking w r).2 0, 0)
    else shapeRef (aim r) (vget l.rl r 0) (vget l.vr r 0) (s.pElF (0x3100 + w) 0x14 r) (s.pElF (0x3100 + w) 0x15 r) ts
  s.modLp w (fun l =>
    let rl := vgen 2 (fun r => (new r).1)
    let lag := vgen 2 (fun r => if r < q then f32Sub (g r) (vget rl r 0) else 0)
    { l with granted := vgen 2 g, grantFor := l.request, rl := rl, vr := vgen 2 (fun r => (new r).2), lag := lag,
             setLim := lag.toList.any (fun d => !(f32IsZero d)) })

/-! ### Regions (R270 to R272) -/

/-- The first and last region of the automatic mode in use (R270). -/
def State.regionSpan (s : State) (w : Nat) : Nat × Nat :=
  let f := s.pN (0x3100 + w) 9
  if (s.lp w).auto2 then (min f 7, 7) else (0, min (f - 1) 7)

/-- The scheduling variable (R271); a rejected sample counts with its estimate. -/
def State.schedVar (s : State) (w : Nat) : F32 :=
  let l := s.lp w
  let v := s.pN (0x3100 + w) 0xB
  if v < 4 then (if vget l.lastRej v false then vget l.filt v 0 else vget l.meas v 0) else vget l.rl (v - 4) 0

/-- Upward from region `j` to at most `hi` while the variable reaches the threshold plus `h`. -/
def climb (th : Nat → F32) (x h : F32) (hi : Nat) : Nat → Nat → Nat
  | 0, j => j
  | fuel + 1, j => if j < hi && f32Le (f32Add (th j) h) x then climb th x h hi fuel (j + 1) else j

/-- Downward from region `j` to at least `lo` while the variable lies below the threshold less `h`. -/
def descend (th : Nat → F32) (x h : F32) (lo : Nat) : Nat → Nat → Nat
  | 0, j => j
  | fuel + 1, j => if lo < j && f32Lt x (f32Sub (th (j - 1)) h) then descend th x h lo fuel (j - 1) else j

/-- The region step 4 selects: with hysteresis from the active one, without from the first of the mode (R271). -/
def State.selectRegion (s : State) (w : Nat) (fresh : Bool) : Nat :=
  let (lo, hi) := s.regionSpan w
  let th := fun j => s.pElF (0x3100 + w) 0xC j
  let x := s.schedVar w
  let j := (s.lp w).region
  if fresh || j < lo || hi < j then climb th x 0 hi 8 lo
  else
    let h := f32Mul 0x3F000000 (s.pF (0x3100 + w) 0xD)
    descend th x h lo 8 (climb th x h hi 8 j)

/-- The output limits of region `j` (P 0x3100+w.0E): minimum and maximum of each output in turn. -/
def State.regionLimits (s : State) (w j : Nat) : Vector F32 8 := vgen 8 (fun k => s.pElF (0x3100 + w) 0xE (8 * j + k))

/-- The notice of R272 step 3: limits of the active region that differ from those in force, or from the last on their way, take
effect at boundary k + 2; earlier notices on their way stay. -/
def State.limitNotice (s : State) (w : Nat) : State :=
  let want := s.regionLimits w (s.lp w).region
  s.modLp w (fun l =>
    let coming := l.limNext.foldl (fun _ n => n.2) l.limits
    if want = coming then l else { l with limNext := l.limNext ++ [((s.it / 1000000 + 2) * 1000000, want)] })

/-- The integrators that make the unclamped output equal to `u` in region `j` (R272 step 2, R277). -/
def State.reinit (s : State) (w j : Nat) (u : Vector F32 4) : State :=
  let n := s.lpSize w 0
  let m := s.lpSize w 2
  s.modLp w (fun l => { l with
    z := vgen 4 (fun i => if i < m then
      f32Add (vget u i 0) (l.rowTimes j (160 + 8 * i) n (fun k => vget l.xc k 0)) else 0) })

/-- A region change within a mode (R272). -/
def State.regionChange (s : State) (w j : Nat) : State :=
  let s := s.modLp w (fun l => { (l.liveFlush.applyStaged j).count 2 with region := j })
  (s.reinit w j (s.lp w).out).limitNotice w

/-- COMMIT-LOOP taken at a step: staged content of the active region moves into use, the integrators start anew (R274). -/
def State.takeCommit (s : State) (w : Nat) : State :=
  if (s.lp w).commit then
    (s.modLp w (fun l => { l.applyStaged l.region with commit := false })).reinit w (s.lp w).region (s.lp w).out
  else s

/-- Limits on their way come into force at a step at or after their boundary (R272). -/
def Loop.takeLimits (l : Loop) (t : IT) : Loop :=
  { l with limits := (l.limNext.filter (fun n => decide (n.1 ≤ t))).foldl (fun _ n => n.2) l.limits,
           limNext := l.limNext.filter (fun n => decide (t < n.1)) }

/-- A write of P 0x3100+w.0E: new limits of the active region are a notice too (R272). -/
def State.limitsWritten (s : State) (w : Nat) : State := if s.stepping w then s.limitNotice w else s

/-- Step 4 for a loop that goes on in its mode. -/
def State.stepRegion (s : State) (w : Nat) : State :=
  let j := s.selectRegion w false
  (if j = (s.lp w).region then s else s.regionChange w j).takeCommit w

/-! ### The control law (R261) -/

/-- Innovation and correction with region `j`: the observer's corrected state and the filtered measurements. -/
def State.correct (s : State) (w j : Nat) : State :=
  let n := s.lpSize w 0
  let p := s.lpSize w 1
  s.modLp w (fun l =>
    let xp := fun k => vget l.xp k 0
    let v := fun i => if vget l.lastRej i false then (0 : F32)
      else f32Sub (vget l.meas i 0) (l.rowTimes j (96 + 8 * i) n xp)
    let xc : Vector F32 8 := vgen 8 (fun r =>
      if r < n then f32Add (xp r) (l.rowTimes j (128 + 4 * r) p v) else 0)
    { l with xc := xc })

/-- The filtered measurements of region `j` (R265). -/
def State.filter (s : State) (w j : Nat) : State :=
  let n := s.lpSize w 0
  let p := s.lpSize w 1
  s.modLp w (fun l => { l with
    filt := vgen 4 (fun i => if i < p then l.rowTimes j (96 + 8 * i) n (fun k => vget l.xc k 0) else 0) })

/-- The integrators advanced by the errors of the limited references (R261). -/
def State.integrate (s : State) (w j : Nat) : State :=
  let l := s.lp w
  let q := s.lpSize w 3
  let ts := s.lpTs w
  let e := fun r =>
    let k := (s.tracking w r).2
    f32Sub (vget l.rl r 0) (if vget l.lastRej k false then vget l.filt k 0 else vget l.meas k 0)
  s.modLp w (fun l => { l with
    z := vmapi l.z (fun i z => if i < s.lpSize w 2 then f32Add z (f32Mul ts (l.rowTimes j (192 + 2 * i) q e)) else z) })

/-- The unlimited output u = -K xc + z. -/
def State.rawOut (s : State) (w j : Nat) : Vector F32 4 :=
  let l := s.lp w
  let n := s.lpSize w 0
  let m := s.lpSize w 2
  vgen 4 (fun i => if i < m then
    f32Sub (vget l.z i 0) (l.rowTimes j (160 + 8 * i) n (fun k => vget l.xc k 0)) else 0)

/-- The first `m` outputs held to the limits in force (R279). -/
def Loop.clampOut (l : Loop) (m : Nat) (u : Vector F32 4) : Vector F32 4 :=
  vmapi u (fun i x => if i < m then f32Clamp (vget l.limits (2 * i) 0) (vget l.limits (2 * i + 1) 0) x else x)

/-- The prediction for the next step from the outputs applied. -/
def State.predictLp (s : State) (w j : Nat) : State :=
  let n := s.lpSize w 0
  let m := s.lpSize w 2
  s.modLp w (fun l => { l with
    xp := vgen 8 (fun r => if r < n then
      f32Add (l.rowTimes j (8 * r) n (fun k => vget l.xc k 0)) (l.rowTimes j (64 + 4 * r) m (fun k => vget l.out k 0))
    else 0) })

/-- The blended output: from the output left towards `u` (R278); the blend ends after its time. -/
def State.blendOut (s : State) (w : Nat) (u : Vector F32 4) : State × Vector F32 4 :=
  match (s.lp w).blend with
  | none => (s, u)
  | some b =>
    let t := s.pN (0x3100 + w) 0x17 * 1000000
    let d := s.it - b.start
    if t ≤ d then (s.modLp w (fun l => { l with blend := none }), u)
    else
      let k := f32OfRat d t
      (s, vmapi u (fun i x => f32Add (vget b.out i 0) (f32Mul (f32Sub x (vget b.out i 0)) k)))

/-! ### The budget and the destinations (R280, R281) -/

/-- The destination word of output `i`: kind 1 bridge, 2 port, and index. -/
def State.lpDest (s : State) (w i : Nat) : Nat × Nat :=
  let v := s.pEl (0x3100 + w) 6 2 i
  (v / 256, v % 256)

/-- The magnitude of an output at a destination: a negative command of a bridge in CURRENT mode counts as 0 (R305, R345). -/
def State.magnitude (s : State) (kind k : Nat) (u : F32) : F32 :=
  if kind = 1 ∧ s.brMode k = 1 ∧ f32Neg u then 0 else f32Abs u

/-- The current of a raise from `old` to `new` at a destination in mA (R345). -/
def State.raiseMa (s : State) (kind k : Nat) (old new : F32) : Nat :=
  let full := s.pEl 0x1400 8 4 (if kind = 1 then k else 4 + k)
  let d := f32Sub (s.magnitude kind k new) (s.magnitude kind k old)
  let d := if kind = 1 ∧ s.brMode k = 1 then f32Div d (f32OfInt 8000) else d
  (f32ToInt d full).toNat

/-- The place of an output's destination in the order of requester numbers (R342): bridges, then ports, then what asks nothing. -/
def State.destNo (s : State) (w i : Nat) : Nat :=
  match s.lpDest w i with
  | (1, k) => k
  | (2, k) => 4 + k
  | _ => 6

/-- Whether output `i` at `u` is a raise that the budget has to grant (R281, R315). -/
def State.asksRaise (s : State) (w i : Nat) (u : F32) : Bool :=
  let (kind, k) := s.lpDest w i
  !(kind = 0 ∨ (kind = 2 ∧ !(s.pB (0x3508 + k) 9)) ∨ f32Le (s.magnitude kind k u) (s.magnitude kind k (vget (s.lp w).out i 0)))

/-- Output `i` wanted at `u`, granted by the budget: the output applied and whether it is held (R281). A port whose link is fed
outside the module's supply asks for nothing (R315). -/
def State.grantOut (s : State) (w i : Nat) (u : F32) : State × F32 × Bool :=
  let l := s.lp w
  let old := vget l.out i 0
  let (kind, k) := s.lpDest w i
  let o := if kind = 1 then k else 4 + k
  let sh := vget l.shed i false
  if !(s.asksRaise w i u) then
    (s.modLp w (fun l => { l with waitTill := vset l.waitTill i none }), u, false)
  else if (match vget l.waitTill i none with | some t => decide (s.it < t) | none => false) then (s, old, true)
  else
    let (s, v) := s.requestTorque o (s.raiseMa kind k old u) (secondBoundary (s.takesAt (1 + o)))
    let set := fun (s : State) (t : Option IT) (b : Bool) =>
      s.modLp w (fun l => { l with waitTill := vset l.waitTill i t, shed := vset l.shed i b })
    match v with
    | .granted => (set s none false, u, false)
    | .deferred d => (set s (some (s.it + d)) sh, old, true)
    | .limited p =>
      if sh then (s, old, true)
      else
        let a := s.magnitude kind k old
        (set s none false, withSign u (f32Add a (f32Mul (f32Sub (s.magnitude kind k u) a) (f32OfRat p 100))), true)
    | .shed =>
      let s := set s none true
      let s := if (s.lp w).episode then s else
        (s.modLp w (fun l => { l with episode := true })).record 0x8002 w []
      (s, 0, true)

/-- Output `i` granted at `u` and delivered to its destination (R260 step 7, R281). -/
def State.deliver (s : State) (w i : Nat) (u : F32) : State :=
  let (s, x, h) := s.grantOut w i u
  let s := s.modLp w (fun l => { l with out := vset l.out i x, held := l.held || h })
  match s.lpDest w i with
  | (1, k) => s.bridgeCmd k x
  | (2, k) => s.portCmd k x
  | _ => s

/-- The end of a loop's delivery: the episode of a shed output, and the count of BUDGET-HELD. -/
def Loop.delivered (l : Loop) : Loop :=
  let l := { l with episode := l.episode && l.shed.toList.any (fun b => b) }
  if l.held then l.count 5 else l

/-- Every output granted and delivered, in ascending requester number (R342); BUDGET-HELD and its count (R260 step 7, R281). -/
def State.applyOut (s : State) (w : Nat) (u : Vector F32 4) : State :=
  let s := s.modLp w (fun l => { l with held := false })
  let order := (List.range (s.lpSize w 2)).mergeSort (fun i j => decide (s.destNo w i ≤ s.destNo w j))
  (order.foldl (fun s i => s.deliver w i (vget u i 0)) s).modLp w Loop.delivered

/-! ### Modes and hand-over (R270, R276 to R278) -/

/-- The mode commanded: AUTO-2 of a loop without regions for it leaves the mode in force (Assumption 17). -/
def State.modeWanted (s : State) (w : Nat) : Nat :=
  let c := s.pN (0x3100 + w) 0xF
  if c = 2 ∧ s.pN (0x3100 + w) 9 = 8 then (s.lp w).mode else c

/-- The manual outputs (P 0x3100+w.10). -/
def State.manualOut (s : State) (w : Nat) : Vector F32 4 :=
  vgen 4 (fun i => if i < s.lpSize w 2 then s.pElF (0x3100 + w) 0x10 i else 0)

/-- Whether `a` and `b` differ by more than the hand-over band in some output (R278). -/
def State.beyondBand (s : State) (w : Nat) (a b : Vector F32 4) : Bool :=
  (List.range 4).any (fun i =>
    f32Lt (s.pElF (0x3100 + w) 0x16 i) (f32Abs (f32Sub (vget a i 0) (vget b i 0))))

/-- A blend from `out` begins where the incoming output differs by more than the band and the blend time is not 0. -/
def State.startBlend (s : State) (w : Nat) (uIn uOut : Vector F32 4) : State :=
  if s.beyondBand w uIn uOut && decide (0 < s.pN (0x3100 + w) 0x17) then
    s.modLp w (fun l => { l with blend := some ⟨s.it, uOut⟩ }.count 4)
  else s.modLp w (fun l => { l with blend := none })

/-- The rest of a step in an automatic mode on the unlimited output `u` (R261, R278): limits, blend, budget, back-calculation and
prediction. -/
def State.finishAuto (s : State) (w j : Nat) (u : Vector F32 4) : State :=
  let lim := (s.lp w).clampOut (s.lpSize w 2) u
  let s := s.modLp w (fun l => { l with clamped := decide (lim ≠ u) })
  let (s, a) := s.blendOut w lim
  let blending := (s.lp w).blend.isSome
  let s := s.applyOut w a
  let back := if blending then lim else (s.lp w).out
  let s := s.modLp w (fun l => { l with
    z := vgen 4 (fun i => f32Add (vget l.z i 0) (f32Sub (vget back i 0) (vget u i 0))) })
  s.predictLp w j

/-- The rest of a step in MANUAL (R270). -/
def State.finishManual (s : State) (w j : Nat) : State :=
  let u := s.manualOut w
  let lim := (s.lp w).clampOut (s.lpSize w 2) u
  let s := s.modLp w (fun l => { l with clamped := decide (lim ≠ u) })
  let (s, a) := s.blendOut w lim
  let s := s.applyOut w a
  (s.reinit w j (s.lp w).out).predictLp w j

/-- The incoming region of a hand-over: its staged content where it is entered, and its limits in force (R274, R277). -/
def State.enterRegion (s : State) (w j : Nat) (idle : Bool) : State :=
  let change := idle || j != (s.lp w).region
  let lim := s.regionLimits w j
  s.modLp w (fun l =>
    let l := if change then l.liveFlush.applyStaged j else if l.commit then l.applyStaged j else l
    { l with region := j, limits := lim, limNext := [], commit := false })

/-- A hand-over at this step into mode `m` (R277, R278). `idle` says that the loop was not stepping. -/
def State.handOverStep (s : State) (w m : Nat) (idle : Bool) : State :=
  let l0 := s.lp w
  let uOut := l0.out
  let same := l0.mode == m
  let s := s.modLp w (fun l => { l with
    mode := m, auto2 := if m = 0 then l.auto2 else m == 2, handOver := false, leaving := false, state := 2 + m }.count 3)
  if m = 0 then
    let s := s.references w false idle
    let s := if idle then s.enterRegion w (s.selectRegion w false) true else s.stepRegion w
    let j := (s.lp w).region
    let s := (s.correct w j).filter w j
    (s.startBlend w (s.manualOut w) uOut).finishManual w j
  else
    let s := s.references w true idle
    let j := s.selectRegion w true
    let s := s.enterRegion w j idle
    let keep := same || s.pB (0x3100 + w) 0xA
    let s := if keep then s.correct w j else s.modLp w (fun l => { l with xc := Vector.replicate 8 0 })
    let s := (s.filter w j).reinit w j uOut
    let u := s.rawOut w j
    (s.startBlend w ((s.lp w).clampOut (s.lpSize w 2) u) uOut).finishAuto w j u

/-- A step in the mode in force. -/
def State.plainStep (s : State) (w : Nat) : State :=
  let m := (s.lp w).mode
  let s := (s.references w false false).stepRegion w
  let j := (s.lp w).region
  let s := (s.correct w j).filter w j
  if m = 0 then s.finishManual w j
  else
    let s := s.integrate w j
    s.finishAuto w j (s.rawOut w j)

/-- The safe outputs (P 0x3100+w.1B). -/
def State.safeVec (s : State) (w : Nat) : Vector F32 4 :=
  vgen 4 (fun i => if i < s.lpSize w 2 then s.pElF (0x3100 + w) 0x1B i else 0)

/-- The safe outputs applied, a raise through the budget (R283, R285). -/
def State.safeOut (s : State) (w : Nat) : State := s.applyOut w (s.safeVec w)

/-- A step in INPUT-FAULT: references, region and filtered measurements (R265) as in every step, then the output of the fault action held to the limits in
force (R260, R264, R279). -/
def State.faultStep (s : State) (w : Nat) : State :=
  let s := (s.references w false false).stepRegion w
  let s := s.filter w (s.lp w).region
  let u := if s.pN (0x3100 + w) 0x1A = 1 then s.safeVec w else (s.lp w).out
  let lim := (s.lp w).clampOut (s.lpSize w 2) u
  (s.modLp w (fun l => { l with leaving := false, clamped := decide (lim ≠ u) })).applyOut w lim

/-- INPUT-FAULT entered: the step with the fault action, and the report (R264). -/
def State.inputFault (s : State) (w : Nat) : State :=
  ((s.modLp w (fun l => { l with state := 7, blend := none })).faultStep w).report 0xE012 w []

/-- The first step instant of loop `w` (R259) at or after the present time and after its last step. -/
def State.stepIt (s : State) (w : Nat) : IT :=
  let p := s.pN (0x3100 + w) 2
  let ph := s.pN (0x3100 + w) 3
  let a := max s.it ((s.lp w).last + 1)
  if a ≤ ph then ph else if p = 0 then a else ph + cdiv (a - ph) p * p

/-- A step that does not complete within 30 µs: counted and recorded (R282). -/
def State.lateStep (s : State) (w : Nat) (late : Bool) : State :=
  if late then ({ s with whorl := { s.whorl with late := sat32 (s.whorl.late + 1) } }).record 0x8001 w [] else s

/-- LOOP_STEP of loop `w` in RUN (R260). -/
def State.loopStep (s : State) (w : Nat) (x : LoopIn) : State :=
  let t := s.stepIt w
  let s := s.at t
  let idle := !(s.stepping w)
  let s := s.modLp w (fun l => ({ (l.liveStep.takePosts t).takeLimits t with last := t }).count 0)
  let s := (s.lateStep w x.late).latch w x
  let s := s.modLp w (fun l => { l with cost := s.stepCost w })
  let l := s.lp w
  let bad := (List.range (s.lpSize w 1)).any (fun i => decide (s.pN (0x3100 + w) 0x1C ≤ vget l.rejects i 0))
  if l.state = 7 then
    if l.leaving && !l.inRej then s.handOverStep w (s.modeWanted w) false
    else s.faultStep w
  else if bad then s.inputFault w
  else if idle || l.handOver then s.handOverStep w (s.modeWanted w) idle
  else s.plainStep w

/-- LOOP_STEP: the next step of loop `w`; a loop not in use or a state in which it does not step is no event (R283). -/
def execLoopStep (w : Fin 8) (x : LoopIn) (s : State) : Host.Outcome State Fault Refusal :=
  .next (if s.power.dev = .run ∧ s.lpOn w then s.loopStep w x else s)

/-! ### Effects of host writes -/

/-- A mode command written (R276): a change asks for a hand-over; any write lets a loop leave INPUT-FAULT (R264). -/
def State.modeWritten (s : State) (w : Nat) (changed : Bool) : State :=
  s.modLp w (fun l => { l with handOver := l.handOver || changed, leaving := l.leaving || l.state == 7 })

/-- COMMIT-LOOP (R274). -/
def State.commitLoop (s : State) (w : Nat) : State := s.modLp w (fun l => { l with commit := true })

/-- The coefficients of a whole table write, 200 of them. -/
def tableCoefs (v : Bytes) : List (Nat × F32) :=
  (List.range 200).map (fun o => (o, BitVec.ofNat 32 (natAt v (4 * o) 4)))

/-- A region table's bytes `t` with those of a patch in their place (R287). -/
def patchInto (t v : Bytes) : Bytes :=
  let first := 4 * natAt v 0 2
  let n := 4 * natAt v 2 2
  t.take first ++ (v.drop 4).take n ++ t.drop (first + n)

/-- The coefficients of a patch: first offset, count, values. -/
def patchCoefs (v : Bytes) : List (Nat × F32) :=
  (List.range (natAt v 2 2)).map (fun i => (natAt v 0 2 + i, BitVec.ofNat 32 (natAt v (4 + 4 * i) 4)))

/-- Values posted at the boundary `s.it` for loop `w`, used from 700 µs on (R266). -/
def State.postRefs (s : State) (w : Nat) (v : Vector F32 2) : State :=
  s.modLp w (fun l => { l.takePosts s.it with postNext := some (s.it + 700000, v) })

/-- The headroom request posted at the boundary `s.it`. -/
def State.postRequest (s : State) (w : Nat) (v : F32) : State :=
  s.modLp w (fun l => { l.takePosts s.it with reqNext := some (s.it + 700000, v) })

/-! ### Device states (R283) -/

/-- The safe outputs of a loop at entry to BARE, but for raises: those are asked for with the boundary's requests of their class
(R342, `whorlBare`). -/
def State.safeStart (s : State) (w : Nat) : State :=
  (List.range (s.lpSize w 2)).foldl (fun s i =>
    let u := vget (s.safeVec w) i 0
    if s.asksRaise w i u then s else s.deliver w i u) s

/-- The loops at entry to a device state. What the rate and dose computer posted in an earlier RUN is gone (R199, R266). -/
def State.whorlEnter (s : State) (d : DevState) : State :=
  (List.range 8).foldl (fun s w =>
    let s := if d = .run then s else s.modLp w Loop.liveFlush
    if !(s.lpOn w) then s.modLp w (fun l => { l with state := 1 })
    else match d with
      | .run => s.modLp w (fun l => { l with
          handOver := true, posted := Vector.replicate 2 0, postNext := none, request := 0, reqNext := none })
      | .bare =>
        if s.pN (0x3100 + w) 0x19 = 0 then s.modLp w (fun l => { l with state := 5, blend := none })
        else (s.modLp w (fun l => { l with state := 6, blend := none })).safeStart w
      | _ => s.modLp w (fun l => { l with
          state := 1, out := Vector.replicate 4 0, blend := none, clamped := false, held := false,
          shed := Vector.replicate 4 false, waitTill := Vector.replicate 4 none, episode := false })) s

/-- The loop and output that command output `o` of R342's numbering: 0 to 3 the bridges, 4 and 5 the ports. -/
def State.outputLoop (s : State) (o : Nat) : Option (Nat × Nat) :=
  ((List.range 8).flatMap (fun w => (List.range (s.lpSize w 2)).map (fun i => (w, i)))).find? (fun p =>
    s.lpOn p.1 && s.lpDest p.1 p.2 == (if o < 4 then (1, o) else (2, o - 4)))

/-- In BARE the loop in SAFE-OUTPUT that commands output `o` submits again what the budget has not yet granted. -/
def State.whorlBare (s : State) (o : Nat) : State :=
  match s.outputLoop o with
  | none => s
  | some (w, i) => if (s.lp w).state = 6 then s.deliver w i (vget (s.safeVec w) i 0) else s

/-- What the loops in SAFE-OUTPUT are told before and after a boundary's deliveries in BARE. -/
def State.whorlBareMark (s : State) (f : Loop → Loop) : State :=
  { s with whorl := { s.whorl with loops := s.whorl.loops.map (fun l => if l.state = 6 then f l else l) } }

/-- The flags of P 0x3100+w.22. -/
def State.lpFlags (s : State) (w : Nat) : Nat :=
  let l := s.lp w
  bits [l.setLim, l.clamped, l.blend.isSome, !l.staged.isEmpty, l.mixed, l.inRej, l.held, s.measInvalid w]

end Sys2Proof.Machine
end

