-- ==== Sys2Proof/Machine/Roving.lean ====
section
/-! DEFINITION. Implement geometry and the Roving path predictor (R91 to R119). What the manual states is computed: the field
frame, the innovations and their gate, fusion at the validity IT, the states and their limits, the plausibility checks, the
path model and local speeds. What the manual leaves to the filter are free values (Assumption 4): its own 1σ before a
measurement, the share of an innovation it takes over, its position uncertainty. -/

namespace Sys2Proof.Machine

/-- Roving changed. -/
def State.modRov (s : State) (f : Roving → Roving) : State := { s with rov := f s.rov }

/-! ### Poses -/

/-- The pose published for a filter state. -/
def Fine.pose (p : Fine) : Pose :=
  { e := satI32 (fxRound p.e), n := satI32 (fxRound p.n),
    psi := bamN (rdiv p.psi 4294967296), vx := satI32 (fxRound p.vx), vy := satI32 (fxRound p.vy), w := satI32 (fxRound p.w) }

/-- A pose in the filter's units. -/
def Pose.fine (p : Pose) : Fine :=
  { e := p.e * one18, n := p.n * one18, psi := (p.psi : Int) * 4294967296, vx := p.vx * one18, vy := p.vy * one18, w := p.w * one18 }

/-- A heading in 2^-64 turns: its sine and cosine. -/
def sinCos (psi : Int) : Int × Int := (fxSinTurn psi 18446744073709551616, fxCosTurn psi 18446744073709551616)

/-- East and north of a displacement forward and to the left at heading `psi`. -/
def bodyToField (psi x y : Int) : Int × Int :=
  let (sn, cs) := sinCos psi
  (fxMul x sn - fxMul y cs, fxMul x cs + fxMul y sn)

/-- The motion `ns` nanoseconds on at constant speeds and yaw rate. -/
def Fine.advance (p : Fine) (ns : Nat) : Fine :=
  let psi := p.psi - p.w * 4294967296 * ns / (1000000000 * one18)
  let d := bodyToField psi (p.vx * ns / 1000000000) (p.vy * ns / 1000000000)
  { p with e := p.e + d.1, n := p.n + d.2, psi := psi }

/-- The state `q`, `ns` nanoseconds after `p`, re-propagated from `p'` in place of `p` (R102 step 3): the motion between them
turned by the change of heading, with the change of speed. -/
def Fine.carry (p p' q : Fine) (ns : Nat) : Fine :=
  let turn := p'.psi - p.psi
  let (sn, cs) := sinCos turn
  let de := q.e - p.e
  let dn := q.n - p.n
  let v := bodyToField (q.psi + turn) ((p'.vx - p.vx) * ns / 1000000000) ((p'.vy - p.vy) * ns / 1000000000)
  { e := p'.e + fxMul de cs + fxMul dn sn + v.1, n := p'.n + fxMul dn cs - fxMul de sn + v.2, psi := q.psi + turn,
    vx := q.vx + (p'.vx - p.vx), vy := q.vy + (p'.vy - p.vy), w := q.w + (p'.w - p.w) }

/-- A yaw rate in binary angle per second times a lever in mm, in mm/s. -/
def leverSpeed (w y : Int) : Int := rdiv (w * y * 6283185307179586477) (4294967296 * 1000000000000000000)

/-- A part of `v` along an angle in binary angle: its cosine and its sine share. -/
def along (v : Int) (a : Int) : Int × Int := (fxRound (v * bamCos (bamN a)), fxRound (v * bamSin (bamN a)))

/-! ### The field frame (R91 to R93) -/

/-- Point on WGS 84 in Earth-centred coordinates, 10^-18 mm: angles in units of a `turn`, height in mm. -/
def ecef (lat lon : Int) (turn : Nat) (h : Int) : Int × Int × Int :=
  let sp := fxSinTurn lat turn
  let cp := fxCosTurn lat turn
  let n := fxDiv (6378137000 * one18) (fxSqrt (one18 - fxMul 6694379990141317 (fxMul sp sp)))
  let r := n + h * one18
  (fxMul (fxMul r cp) (fxCosTurn lon turn), fxMul (fxMul r cp) (fxSinTurn lon turn),
    fxMul (fxMul n (one18 - 6694379990141317) + h * one18) sp)

/-- Units of 10^-10 minutes to a turn. -/
def minuteTurn : Nat := 216000000000000

/-- Units of 10^-9 degrees to a turn. -/
def degTurn : Nat := 360000000000

/-- East and north, at an origin, of an Earth-centred difference from it. -/
def toEnu (o : Origin) (d : Int × Int × Int) : Int × Int :=
  let sp := fxSinTurn o.lat degTurn
  let cp := fxCosTurn o.lat degTurn
  let sl := fxSinTurn o.lon degTurn
  let cl := fxCosTurn o.lon degTurn
  let east := fxMul cl d.2.1 - fxMul sl d.1
  let north := fxMul cp d.2.2 - fxMul sp (fxMul cl d.1 + fxMul sl d.2.1)
  (east, north)

/-- Sum of an Earth-centred point and an offset. -/
def ecefAdd (a b : Int × Int × Int) : Int × Int × Int := (a.1 + b.1, a.2.1 + b.2.1, a.2.2 + b.2.2)

/-- Difference of two Earth-centred points. -/
def ecefSub (a b : Int × Int × Int) : Int × Int × Int := (a.1 - b.1, a.2.1 - b.2.1, a.2.2 - b.2.2)

/-- The Earth-centred point of an origin. -/
def Origin.point (o : Origin) : Int × Int × Int := ecef o.lat o.lon degTurn o.h

/-- East and north of a GNSS position in mm from an origin (R91). -/
def Origin.field (o : Origin) (lat lon h : Int) : Int × Int :=
  let p := toEnu o (ecefSub (ecef lat lon minuteTurn h) o.point)
  (fxRound p.1, fxRound p.2)

/-- The Earth-centred offset of east and north (10^-18 mm) at an origin. -/
def fromEnu (o : Origin) (e n : Int) : Int × Int × Int :=
  let sp := fxSinTurn o.lat degTurn
  let cp := fxCosTurn o.lat degTurn
  let sl := fxSinTurn o.lon degTurn
  let cl := fxCosTurn o.lon degTurn
  (-(fxMul sl e) - fxMul (fxMul sp cl) n, fxMul cl e - fxMul (fxMul sp sl) n, fxMul cp n)

/-- A state in one field frame taken to another (R92). The motion is the same; only the coordinates change. -/
def Fine.reframe (a b : Origin) (p : Fine) : Fine :=
  let q := toEnu b (ecefSub (ecefAdd a.point (fromEnu a p.e p.n)) b.point)
  let (sn, cs) := sinCos p.psi
  let d := toEnu b (fromEnu a sn cs)
  { p with e := q.1, n := q.2, psi := radToBam (fxAtan2 d.1 d.2 * 4294967296) }

/-- A pose in one field frame taken to another. -/
def Pose.reframe (a b : Origin) (p : Pose) : Pose := (p.fine.reframe a b).pose

/-- Everything Roving keeps in the field frame, taken from one origin to another (R92, R173): its state and the stored ones, the
published poses, and the antenna's position before a heading. -/
def Roving.reframe (r : Roving) (a b : Origin) : Roving :=
  let point := fun (e n : Int) =>
    let q := toEnu b (ecefSub (ecefAdd a.point (fromEnu a (e * one18) (n * one18))) b.point)
    (fxRound q.1, fxRound q.2)
  { r with fix := r.fix.map (fun f => (f.1, point f.2.1 f.2.2)),
           cur := r.cur.reframe a b, hist := r.hist.map (fun h => (h.1, h.2.reframe a b)),
           p0 := r.p0.reframe a b, past := r.past.map (fun h => (h.1, h.2.reframe a b)) }

/-- The open hank's slot. -/
def State.openHank (s : State) : Option Nat :=
  (List.range 16).find? (fun k => (vget s.dis.hanks k Hank.reset).state == 2)

/-- The origin the open hank's header gives. -/
def State.hankOrigin (s : State) : Option Origin := s.openHank.map (fun k => (vget s.dis.hanks k Hank.reset).origin)

/-- The origin in use brought to the open hank's, or to the provisional one, with the poses re-expressed (R92). Where a hank closes
and no provisional origin exists, Roving is without an origin and fuses no position; state and coordinates go on as they are
(Assumption 109). -/
def State.updateOrigin (s : State) : State :=
  let want := match s.hankOrigin with
    | some o => some o
    | none => s.rov.first
  let s := s.modRov (fun r => { r with provis := s.hankOrigin.isNone && r.first.isSome })
  if want = s.rov.origin then s
  else match s.rov.origin, want with
    | some a, some b => s.modRov (fun r => { r.reframe a b with origin := want })
    | _, _ => s.modRov (fun r => { r with origin := want })

/-- The height a position counts with (R93): its own, the last from the same source within 60 s, or the origin's. -/
def State.posHeight (s : State) (src : Nat) (it : IT) (alt : Option Int) (o : Origin) : Int :=
  match alt with
  | some h => h
  | none => match vget s.rov.heights src none with
    | some (t, h) => if it ≤ t + 60000000000 then h else o.h
    | none => o.h

/-! ### Mount and tilt (R95, R96) -/

/-- The antenna position, rotated by the present roll and pitch where tilt correction is enabled, in 10^-18 mm. -/
def State.antenna (s : State) : Int × Int :=
  let ax := s.pI 0x2100 2 * one18
  let ay := s.pI 0x2100 3 * one18
  let az := s.pI 0x2100 4 * one18
  if !(s.pB 0x2100 0xA) then (ax, ay)
  else
    let sr := bamSin (bamN s.rov.roll)
    let cr := bamCos (bamN s.rov.roll)
    let sp := bamSin (bamN s.rov.pitch)
    let cp := bamCos (bamN s.rov.pitch)
    let y := fxMul ay cr - fxMul az sr
    let z := fxMul ay sr + fxMul az cr
    (fxMul ax cp - fxMul z sp, y)

/-- The towing vehicle's heading less an implement heading, in binary angle (R95): that of the last course that R103 does not
ignore, turned round in REVERSE; 0 while there is none. -/
def State.towOff (s : State) (psi : Int) : Int :=
  match s.rov.tow with
  | some c => bamS ((c : Int) - rdiv psi 4294967296)
  | none => 0

/-- The reference point under an antenna at (`e`, `n`) mm while the implement heads along `psi` (R95): rigid, or the drawbar
length behind the hitch of the towing vehicle. -/
def State.fromAntenna (s : State) (psi e n : Int) : Int × Int :=
  let (ax, ay) := s.antenna
  if s.pN 0x2100 1 = 0 then
    let o := bodyToField psi ax ay
    (e * one18 - o.1, n * one18 - o.2)
  else
    let o := bodyToField (psi + s.towOff psi * 4294967296) ax ay
    let d := bodyToField psi (s.pI 0x2100 5 * one18) 0
    (e * one18 - o.1 - d.1, n * one18 - o.2 - d.2)

/-! ### Measurements (R102, R103) -/

/-- The validity IT of a measurement. -/
def Meas.it : Meas → IT
  | .pos _ t _ _ _ _ => t
  | .cog _ t _ _ => t
  | .heading _ t _ => t
  | .sigma _ t _ _ _ => t
  | .isoSpeed t _ => t
  | .wheel _ t _ => t

/-- The noise of a position of source `src` valid at `it` (R103), east and north in mm. -/
def State.posNoise (s : State) (src q : Nat) (it : IT) : Nat × Nat :=
  let by_ := if q = 1 then 2500 else if q = 2 then 600 else if q = 3 then 200 else 15
  match (if src < 2 then vget s.rov.sigma src none else none) with
  | some (t, lat, lon) => if it ≤ t + 1000000000 ∧ t ≤ it + 1000000000 then (lon, lat) else (by_, by_)
  | none => (by_, by_)

/-- A rejected measurement counted. -/
def State.rovReject (s : State) : State := s.modRov (fun r => { r with rejected := sat32 (r.rejected + 1) })

/-- The state a measurement valid at `it` is fused at (R102): the stored one of its time where it lies before the previous
boundary, otherwise the present one. With its time. -/
def State.baseAt (s : State) (it : IT) : IT × Fine :=
  if s.it ≤ it + 1000000 then (s.it, s.rov.cur)
  else match s.rov.hist.find? (fun h => decide (h.1 ≤ it)) with
    | some h => (it, h.2.advance (it - h.1))
    | none => (s.it, s.rov.cur)

/-- The state at `t` corrected from `p` to `p'` and stored, so that a further measurement of that time finds it, and the stored states
after it re-propagated to the present boundary (R102). -/
def State.refit (s : State) (t : IT) (p p' : Fine) : State :=
  s.modRov (fun r => { r with
    cur := p.carry p' r.cur (s.it - t),
    hist := (r.hist.filter (fun h => decide (t < h.1))).map (fun h => (h.1, p.carry p' h.2 (h.1 - t))) ++
      (t, p') :: r.hist.filter (fun h => decide (h.1 < t)) })

/-- What the filter makes of an innovation with 1σ noise `noise`: whether the gate P 0x2101.04 passes it, in units of the
innovation's standard deviation, and the part of it taken over. The filter's own 1σ and that part are free (Assumption 4). -/
def State.innovate (s : State) (innov : Int) (noise : Nat) : Bool × Int × State :=
  let prior := s.drawn % 4294967296
  let s := s.draw
  let part := s.drawn % 4294967297
  (decide (100 * innov.natAbs ^ 2 ≤ s.pN 0x2101 4 ^ 2 * (prior ^ 2 + noise ^ 2)), rdiv (innov * part) 4294967296, s.draw)

/-- An innovation times a free factor: what it does to a quantity that it does not measure itself (Assumption 4). -/
def State.leak (s : State) (innov : Int) : Int × State := (innov * (s.drawn % 4294967296 : Nat), s.draw)

/-- The yaw rate or, while the gyro drives it, the gyro bias corrected as a heading that ran ahead by `i` asks (R104): the rate by
`k`, the bias by a free part of `i` that depends on the variance of the bias (Assumption 112). -/
def State.yawCorrect (s : State) (gyro : Bool) (i k : Int) : State :=
  s.modRov (fun r => if gyro then { r with resid := satI32 (r.resid + Config.biasPart r.biasVar i), biasVar := Config.biasLeft r.biasVar }
    else { r with cur := { r.cur with w := clampI (-2147483647) 2147483647 (fxRound r.cur.w - k) * one18 } })

/-- Whether the gyro drives yaw (R104). -/
def State.gyroUsed (s : State) : Bool := s.pB 0x2060 1 && !s.motion.inert.fault

/-- Whether a position is taken as it is: the first one of the filter, and the first qualifying one in LOST (R110). -/
def State.posAsIs (s : State) : Bool := !s.rov.hasPos || (s.rov.state == 4 && s.rov.reinit)

/-- The antenna's place at `it` from its fix, while no heading is known: moved on along the last course at its speed (R102). -/
def State.fixAt (s : State) (f : IT × Int × Int) (it : IT) : Int × Int :=
  match s.rov.course with
  | some (_, c, v) =>
    let way : Int := if 500 ≤ v then v * ((it : Int) - f.1) else 0
    (f.2.1 + rdiv (fxMul way (bamSin c)) 1000000000, f.2.2 + rdiv (fxMul way (bamCos c)) 1000000000)
  | none => (f.2.1, f.2.2)

/-- Where a position (`e`, `n`) of the antenna lies from what the filter expects, in mm: by the reference point, or by the antenna
itself while no heading is known. -/
def State.posInnov (s : State) (it : IT) (e n : Int) : Int × Int :=
  match s.rov.fix with
  | some f =>
    let x := s.fixAt f it
    (e - x.1, n - x.2)
  | none =>
    let (_, p) := s.baseAt it
    let (x, y) := s.fromAntenna p.psi e n
    (fxRound (x - p.e), fxRound (y - p.n))

/-- A position taken as it is, with the noise of R103. -/
def State.setPos (s : State) (it : IT) (e n : Int) (noise : Nat) : State :=
  let s := s.modRov (fun r => { r with uncert := cdiv (245 * noise) 100 })
  if !s.rov.hasHdg then s.modRov (fun r => { r with fix := some (it, e, n) })
  else
    let (t, p) := s.baseAt it
    let (x, y) := s.fromAntenna p.psi e n
    s.refit t p { p with e := x, n := y }

/-- A position fused by the filter. -/
def State.filterPos (s : State) (it : IT) (e n : Int) (noise : Nat × Nat) : State :=
  let d := s.posInnov it e n
  let (_, de, s) := s.innovate d.1 noise.1
  let (_, dn, s) := s.innovate d.2 noise.2
  let u := s.drawn % 4294967296
  let s := s.draw.modRov (fun r => { r with uncert := u })
  match s.rov.fix with
  | some f =>
    let x := s.fixAt f it
    s.modRov (fun r => { r with fix := some (it, x.1 + de, x.2 + dn) })
  | none =>
    let (t, p) := s.baseAt it
    s.refit t p { p with e := p.e + de * one18, n := p.n + dn * one18 }

/-- A qualifying position fused (R103, R108, R110). -/
def State.fusePos (s : State) (src : Nat) (it : IT) (e n : Int) (q : Nat) : State :=
  let noise := s.posNoise src q it
  let s := if s.posAsIs then s.setPos it e n (max noise.1 noise.2) else s.filterPos it e n noise
  s.modRov (fun r => { r with
    hasPos := true, reinit := false, noQual := 0, quality := q, three := r.three + 1, gateRej := 0 })

/-- Whether the gate passes a position on both axes (R103; Assumption 86). -/
def State.posPasses (s : State) (src : Nat) (it : IT) (e n : Int) (q : Nat) : Bool :=
  let d := s.posInnov it e n
  let (se, sn) := s.posNoise src q it
  let (a, _, s) := s.innovate d.1 se
  a && (s.innovate d.2 sn).1

/-- A position of the position source that the gate did not see: the five of R109 and the three of R110 begin anew. -/
def State.posUnused (s : State) : State := s.modRov (fun r => { r with gateRej := 0, three := 0 })

/-- A position of the position source (R91 to R93, R103, R110). -/
def State.takePos (s : State) (src : Nat) (it : IT) (lat lon : Int) (alt : Option Int) (q : Nat) : State :=
  if q = 0 ∨ src ≠ s.pN 0x2100 7 then s
  else
    let s := match alt with
      | some h =>
        let s := s.modRov (fun r => { r with
          heights := vset r.heights src (some (it, h)),
          first := if r.first.isSome then r.first else some ⟨rdiv lat 600, rdiv lon 600, h⟩ })
        s.updateOrigin
      | none => s
    match s.rov.origin with
    | none => s
    | some o =>
      let (e, n) := o.field lat lon (s.posHeight src it alt o)
      if 50000000 * 50000000 < e * e + n * n then
        s.posUnused.rovReject.modRov (fun r => { r with outFrame := true })
      else if q < s.pN 0x2101 1 then s.posUnused
      else if s.rov.state = 4 ∨ s.posAsIs ∨ s.posPasses src it e n q then s.fusePos src it e n q
      else s.draw.draw.draw.draw.rovReject.modRov (fun r => { r with gateRej := r.gateRej + 1, three := 0 })

/-- Whether Roving is at standstill at this boundary (R106). -/
def State.atStandstill (s : State) : Bool := s.sourcesStill

/-- A stored state where the present one, `old`, becomes `new` and all headings turn by `turn`. -/
def Fine.turned (h old new : Fine) (turn : Int) : Fine :=
  let (sn, cs) := sinCos turn
  let de := h.e - old.e
  let dn := h.n - old.n
  { h with psi := h.psi + turn, e := new.e + fxMul de cs + fxMul dn sn, n := new.n - fxMul de sn + fxMul dn cs }

/-- The first heading (R107), as of its validity IT: what the gyro has turned since goes on top, and the stored states turn with it
(R102). The antenna's position so far then gives the reference point, moved on at the fused speed. -/
def State.firstHeading (s : State) (it : IT) (a : Nat) (byCourse : Bool) : State :=
  let turn := (a : Int) * 4294967296 - (s.baseAt it).2.psi
  let old := s.rov.cur
  let cur : Fine := { old with psi := old.psi + turn }
  let new : Fine := match s.rov.fix with
    | none => cur
    | some (t, e, n) =>
      let (x, y) := s.fromAntenna cur.psi e n
      { ({ cur with e := x, n := y } : Fine).advance (s.it - t) with psi := cur.psi }
  s.modRov (fun r => { r with
    hasHdg := true, hdgCourse := byCourse, cur := new, fix := none, hist := r.hist.map (fun h => (h.1, h.2.turned old new turn)) })

/-- The course as a heading: turned round while the direction is REVERSE. -/
def State.courseHeading (s : State) (course : Nat) : Nat := if s.rov.rev then (course + 2147483648) % 4294967296 else course

/-- The heading at which the reference point of a trailed implement moves along its x axis (R95): the hitch moves along
`course` at `speed`, and the drawbar turns with the yaw rate. -/
def State.trailHeading (s : State) (p : Fine) (course : Nat) (speed : Int) : Int :=
  let v := if s.rov.rev then -speed else speed
  let x := clampI (-one18) one18 (fxDiv (leverSpeed (fxRound p.w) (s.pI 0x2100 5)) v)
  s.courseHeading course + radToBam (fxAtan2 x (fxSqrt (one18 - fxMul x x)))

/-- A course and speed fused on a RIGID mount: the velocity at the antenna, along and across the measured course (R103;
Assumption 86), and the heading where no gyro drives it (R104). -/
def State.fuseCourse (s : State) (it : IT) (course : Nat) (speed : Int) : State :=
  let (t, p) := s.baseAt it
  let d := bamS ((course : Int) - rdiv p.psi 4294967296)
  let w := fxRound p.w
  let px := fxRound p.vx - leverSpeed w (s.pI 0x2100 3)
  let py := fxRound p.vy + leverSpeed w (s.pI 0x2100 2)
  let ia := speed - ((along px d).1 - (along py d).2)
  let ic := -((along px d).2 + (along py d).1)
  let (okA, ka, s) := s.innovate ia 50
  let (okC, kc, s) := s.innovate ic (ndiv (speed.natAbs * 8727) 1000000)
  if !(okA && okC) then s.rovReject
  else
    let p' := { p with vx := p.vx + ((along ka d).1 + (along kc d).2) * one18,
                       vy := p.vy + ((along kc d).1 - (along ka d).2) * one18 }
    if s.gyroUsed then s.refit t p p'
    else
      let i := bamS ((s.courseHeading course : Int) - rdiv p.psi 4294967296)
      let (_, k, s) := s.innovate i 5965232
      let (y, s) := s.leak i
      (s.refit t p { p' with psi := p.psi + k * 4294967296 }).yawCorrect false i y

/-- A course and speed fused on a TRAILED mount: the hitch's speed along the implement, no lateral speed, and the heading of
the kinematic constraint (R95). The velocity at the antenna is taken as that of the hitch: the antenna's lever on the towing vehicle
counts for the position alone (Assumption 126). -/
def State.fuseTrailed (s : State) (it : IT) (course : Nat) (speed : Int) : State :=
  let (t, p) := s.baseAt it
  let d := bamS ((course : Int) - rdiv p.psi 4294967296)
  let i := bamS (s.trailHeading p course speed - rdiv p.psi 4294967296)
  let (okV, kv, s) := s.innovate ((along speed d).1 - fxRound p.vx) 50
  let (okH, kh, s) := s.innovate i 5965232
  if !(okV && okH) then s.rovReject
  else
    let (y, s) := s.leak i
    (s.refit t p { p with vx := p.vx + kv * one18, vy := 0, psi := p.psi + kh * 4294967296 }).yawCorrect s.gyroUsed i y

/-- Course and speed over ground of the position source (R103, R107). A course held above P 0x2101.09 for 1,000 ms gives
the first heading, turned round while the direction is REVERSE, also while the enabled speed sources say standstill (Assumption 127). -/
def State.takeCog (s : State) (src : Nat) (it : IT) (course : Nat) (speed : Int) : State :=
  if src ≠ s.pN 0x2100 7 then s
  else
    let fast := decide ((s.pN 0x2101 9 : Int) < speed)
    let s := s.modRov (fun r => { r with
      course := some (it, course, speed), courses := ((it, course) :: r.courses).take 64,
      courseAt := if fast then some (r.courseAt.getD it) else none })
    let held := match s.rov.courseAt with
      | some t => decide (t + 1000000000 ≤ it)
      | none => false
    let s := if held && !s.rov.hasHdg then s.firstHeading it (s.courseHeading course) true else s
    if speed < 500 ∨ s.atStandstill then s
    else
      let s := s.modRov (fun r => { r with tow := some (s.courseHeading course) })
      if s.pN 0x2100 1 = 0 then s.fuseCourse it course speed else s.fuseTrailed it course speed

/-- A heading of the heading source, with P 0x2100.06 added (R97, R103). The first one fused after a course clears
HEADING-FROM-COURSE (R107). -/
def State.takeHeading (s : State) (src : Nat) (it : IT) (angle : Nat) : State :=
  if src + 1 ≠ s.pN 0x2100 8 then s
  else
    let a := (angle + s.pN 0x2100 6) % 4294967296
    let s := s.modRov (fun r => { r with lastHdg := some (it, a) })
    if !s.rov.hasHdg then s.firstHeading it a false
    else
      let (t, p) := s.baseAt it
      let i := bamS ((a : Int) - rdiv p.psi 4294967296)
      let (ok, k, s) := s.innovate i 2386093
      if !ok then s.rovReject
      else
        let (y, s) := s.leak i
        let s := s.modRov (fun r => { r with hdgCourse := false })
        (s.refit t p { p with psi := p.psi + k * 4294967296 }).yawCorrect s.gyroUsed i y

/-- A forward speed measured `y` mm to the left of the reference point with 1σ noise `noise` (R103): vx − ω × y. Without a gyro
it also corrects the yaw rate (R104). -/
def State.takeSpeed (s : State) (it : IT) (v y : Int) (noise : Nat) : State :=
  let (t, p) := s.baseAt it
  let i := v - (fxRound p.vx - leverSpeed (fxRound p.w) y)
  let (ok, k, s) := s.innovate i noise
  if !ok then s.rovReject
  else
    let s := s.refit t p { p with vx := p.vx + k * one18 }
    if s.gyroUsed then s
    else
      let (c, s) := s.leak (i * y.sign)
      s.yawCorrect false i c

/-- A speed of the hitch as a speed along the implement: in TRAILED mount the towing vehicle's, on its course (R103). -/
def State.isoForward (s : State) (psi v : Int) : Int :=
  if s.pN 0x2100 1 = 0 then v
  else (along v (s.towOff psi)).1

/-- One measurement fused in its turn (R102). -/
def State.fuse (s : State) (m : Meas) : State :=
  match m with
  | .pos src it lat lon alt q => s.takePos src it lat lon alt q
  | .cog src it c v => s.takeCog src it c v
  | .heading src it a => s.takeHeading src it a
  | .sigma src it lat lon _ => s.modRov (fun r => { r with sigma := vset r.sigma src (some (it, lat, lon)) })
  | .isoSpeed it v =>
    if bit (s.pN 0x2100 9) 8 then
      s.takeSpeed it (s.isoForward s.rov.cur.psi v) 0 (ndiv (3 * v.natAbs + 3000) 100)
    else s
  | .wheel i it v => s.takeSpeed it v (s.pI 0x2103 (1 + i)) (ndiv (2 * v.natAbs + 2000) 100)

/-- The wheel and radar speeds of the set (R103). A speed whose newest edge lies in the frame just ended holds at that edge,
any other at the boundary (Assumption 86). -/
def State.wheelSpeeds (s : State) : List Meas :=
  (List.range 8).filterMap (fun i =>
    let x := vget s.motion.setP i ⟨0, 0, 1, 0⟩
    let m := s.pulseMode i
    if bit (s.pN 0x2100 9) i && (m == 1 || m == 3) && (x.status == 1 || x.status == 2 || x.status == 3) then
      some (.wheel i (if x.status = 3 ∧ s.it ≤ x.last + 1000000 then x.last else s.it) x.speed)
    else none)

/-- The measurements of the closed set and those that waited, in rising validity IT; older than 500 ms they are late, after
the boundary they wait (R102). -/
def State.fuseAll (s : State) : State :=
  let all := (s.rov.waiting ++ s.motion.set ++ s.wheelSpeeds).mergeSort (fun a b => decide (a.it ≤ b.it))
  let late := all.filter (fun m => decide (m.it + 500000000 < s.it))
  let now := all.filter (fun m => decide (s.it ≤ m.it + 500000000 ∧ m.it ≤ s.it))
  let s := s.modRov (fun r => { r with
    waiting := all.filter (fun m => decide (s.it < m.it)), late := sat32 (r.late + late.length) })
  now.foldl (fun s m => s.fuse m) s

/-! ### Direction (R105) -/

/-- The direction of travel: reverse or not, and whether it is inferred. Source 2 is available where P 0x2100.09 [8] and a message of
P 0x2059.01 are enabled and a speed has come, however old; source 3 compares the last heading and the last course, however old each is
(Assumption 110). -/
def State.rovDirection (s : State) : Bool × Bool :=
  let src := s.pN 0x2100 9
  match (List.range 8).find? (fun i => bit src i && s.pulseMode i == 3) with
  | some i => ((s.pulse i).rev, false)
  | none =>
    if bit src 8 && decide (s.pN 0x2059 1 ≠ 0) && s.motion.isoSpeed.isSome then (s.motion.isoRev, false)
    else match s.rov.lastHdg, s.rov.course with
      | some (_, h), some (_, c, v) =>
        (decide (500 ≤ v) && decide (1610612736 < (bamS ((h : Int) - c)).natAbs), true)
      | _, _ => (false, true)

/-! ### Plausibility (R109) -/

/-- The speeds in use brought to the reference point as R103 does, each measured within the last 100 ms, in mm/s. -/
def State.speedsInUse (s : State) : List Int :=
  let src := s.pN 0x2100 9
  let p := s.rov.cur
  let w := fxRound p.w
  let young := fun (t : IT) => decide (s.it ≤ t + 100000000)
  let pulses := (List.range 8).filterMap (fun i =>
    let x := vget s.motion.setP i ⟨0, 0, 1, 0⟩
    let m := s.pulseMode i
    if bit src i && (m == 1 || m == 3) && x.status == 3 && young x.last then some (x.speed + leverSpeed w (s.pI 0x2103 (1 + i))) else none)
  let iso := match s.motion.isoSpeed with
    | some (t, v) => if bit src 8 && young t then [s.isoForward p.psi v] else []
    | none => []
  let sog := match s.rov.course with
    | some (t, c, v) => if young t && decide (500 ≤ v) then
        [(along v (bamS ((c : Int) - rdiv p.psi 4294967296))).1 + (if s.pN 0x2100 1 = 0 then leverSpeed w (s.pI 0x2100 3) else 0)] else []
    | none => []
  pulses ++ iso ++ sog

/-- The speed agreement check fails. -/
def State.speedsDiffer (s : State) : Bool :=
  let l := s.speedsInUse
  let share : Int := s.pN 0x2101 7
  let off : Int := s.pN 0x2101 8
  l.any (fun a => l.any (fun b =>
    decide (max a.natAbs b.natAbs * share + 100 * off < 100 * ((a - b).natAbs : Int))))

/-- The yaw agreement check fails (R109): 5 °/s are 59,652,324 binary angle per second. The rate of change of course is that between the
newest course and the newest one at least 100 ms older, over their distance (Assumption 125). -/
def State.yawDiffers (s : State) : Bool :=
  match s.rov.course, s.rov.courses with
  | some (_, _, v), n :: rest =>
    match rest.find? (fun c => decide (c.1 + 100000000 ≤ n.1)) with
    | some o =>
      if s.gyroUsed && decide (2000 ≤ v) && decide (s.it ≤ n.1 + 100000000) && decide (o.1 < n.1) then
        let rate := rdiv (bamS ((n.2 : Int) - o.2) * 1000000000) (n.1 - o.1)
        decide (59652324 < (vget s.motion.inert.gyro 2 0 + rate).natAbs)
      else false
    | none => false
  | _, _ => false

/-- The checks of R109 in this frame, with the report at the 30th consecutive failing frame; while MOTION-IMPLAUSIBLE is set no check
reports again (Assumption 125). -/
def State.plausibleBy (s : State) (fails : List Bool) : State :=
  let bad := vmapi s.rov.bad (fun i n => if (fails[i]?).getD false then n + 1 else 0)
  let good := if fails.any (fun b => b) then 0 else s.rov.good + 1
  let hit := bad.toList.any (fun n => n == 30) && !s.rov.implaus
  let s := s.modRov (fun r => { r with
    bad := bad, good := good, implaus := (r.implaus || hit) && decide (good < 1000) })
  if hit then s.report 0xE00A 0 [] else s

/-- The three checks of R109. -/
def State.plausible (s : State) : State :=
  s.plausibleBy [s.speedsDiffer, decide (5 ≤ s.rov.gateRej), s.yawDiffers]

/-! ### The state (R107, R108, R110) -/

/-- The dead-reckoning limit in ms as R104 reduces it. -/
def State.drLimit (s : State) : Nat :=
  let l := s.pN 0x2101 3
  if !s.gyroUsed then min l 300 else if s.motion.inert.status = 2 then l else l / 2

/-- LOST conditions (R108). -/
def State.lostNow (s : State) : Bool :=
  decide (s.pN 0x2101 2 < s.rov.uncert) || decide (0 < s.rov.noQual ∧ s.drLimit ≤ s.rov.noQual) || s.rov.implaus

/-- The state after this boundary's fusion. A LOST that ends more than 250 ms after the last qualifying position goes to
DEAD-RECKONING: R110 says TRACKING, which R108 enters with a younger one only (Assumption 111). -/
def State.rovState (s : State) : Nat :=
  let r := s.rov
  let young := decide (r.noQual ≤ 250)
  match r.state with
  | 1 => if !(r.hasPos && r.hasHdg) then 1 else if s.lostNow then 4 else if young then 2 else 3
  | 2 | 3 => if s.lostNow then 4 else if young then 2 else 3
  | 4 =>
    if decide (3 ≤ r.three) && decide (2 * r.uncert ≤ s.pN 0x2101 2) && !r.implaus then (if young then 2 else 3) else 4
  | n => n

/-! ### The path (R111, R112) -/

/-- What the path model takes from state and parameters: accelerations per second, holds in steps, smallest radius. -/
structure PathIn where
  a    : Int
  dw   : Int
  hold : Nat
  yaw  : Nat
  rad  : Nat
  deriving DecidableEq, Repr

/-- The yaw rate held to the smallest turning radius. -/
def PathIn.clampYaw (c : PathIn) (vx w : Int) : Int :=
  if c.rad = 0 then w
  else
    let av := if vx < 0 then -vx else vx
    let m := fxDiv (av * 4294967296) (c.rad * 6283185307179586477)
    clampI (-m) m w

/-- One step of R111 at step number `i`. -/
def PathIn.step (c : PathIn) (i : Nat) (p : Fine) : Fine :=
  let v := if i ≤ c.hold then p.vx + c.a / 1000 else p.vx
  let v := if (v < 0 ∧ 0 < p.vx) ∨ (0 < v ∧ p.vx < 0) then 0 else v
  let w := if i ≤ c.yaw then p.w + c.dw / 1000 else p.w
  let w := c.clampYaw v w
  let psi := p.psi - w * 4294967296 / (1000 * one18)
  let sn := fxSinTurn psi 18446744073709551616
  let cs := fxCosTurn psi 18446744073709551616
  { e := p.e + (fxMul v sn - fxMul p.vy cs) / 1000, n := p.n + (fxMul v cs + fxMul p.vy sn) / 1000,
    psi := psi, vx := v, vy := p.vy, w := w }

/-- The remaining `fuel` poses from step `i` on; a path that stops holds its stopping point (R112). The manual gives the yaw rate
of the held poses no value where no smallest radius clamps it: it is 0 there too (Assumption 113). -/
def PathIn.run (c : PathIn) : Nat → Nat → Fine → List Pose
  | 0, _, _ => []
  | fuel + 1, i, p =>
    let q := c.step i p
    if q.vx = 0 ∧ p.vx ≠ 0 then List.replicate (fuel + 1) { q.pose with w := 0 }
    else q.pose :: c.run fuel (i + 1) q

/-- The mean of an acceleration over the last 100 ms, per second: the present value less that of the oldest stored state of those
100 ms (Assumption 18). -/
def State.accelOver (s : State) (f : Fine → Int) : Int :=
  match (s.rov.hist.takeWhile (fun h => decide (s.it ≤ h.1 + 100000000))).getLast? with
  | none => 0
  | some (t, p) => rdiv ((f s.rov.cur - f p) * 1000000000) (s.it - t)

/-- The path P1 to P2048 from the present state (R111, R112). -/
def State.predictPath (s : State) (still : Bool) : List Pose :=
  if still then List.replicate 2048 s.rov.cur.pose
  else
    let c : PathIn := { a := s.accelOver (·.vx), dw := s.accelOver (·.w), hold := s.pN 0x2101 0xB, yaw := s.pN 0x2101 0xC,
                        rad := s.pN 0x2101 0xA }
    c.run 2048 1 s.rov.cur

/-- Pose `i` of the path published last, P0 for 0. -/
def State.poseAt (s : State) (i : Nat) : Pose := if i = 0 then s.rov.p0 else (s.rov.path[i - 1]?).getD s.rov.p0

/-! ### Nozzles and footprints (R98, R99, R115) -/

/-- A nozzle-table entry (R98). -/
structure NozzleEntry where
  x       : Int
  y       : Int
  width   : Nat
  length  : Nat
  offset  : Int
  segment : Nat
  section_ : Nat
  feed    : Nat
  bare    : Nat
  deriving DecidableEq, Repr

/-- The entry in 20 bytes. -/
def nozzleEntry (b : Bytes) (n : Nat) : NozzleEntry :=
  let o := 20 * n
  { x := intAt b o 4, y := intAt b (o + 4) 4, width := natAt b (o + 8) 2, length := natAt b (o + 10) 2,
    offset := intAt b (o + 12) 2, segment := natAt b (o + 14) 1, section_ := natAt b (o + 15) 1,
    feed := natAt b (o + 16) 1, bare := natAt b (o + 17) 1 }

/-- The nozzle table in use. -/
def State.nozzles (s : State) : List NozzleEntry :=
  let b := s.pBytes 0x2110 1
  (List.range 128).map (fun n => nozzleEntry b n)

/-- Nozzle `n` of the table in use. -/
def State.nozzle (s : State) (n : Nat) : NozzleEntry := nozzleEntry (s.pBytes 0x2110 1) n

/-- Whether a nozzle is present. -/
def NozzleEntry.present (z : NozzleEntry) : Bool := z.width != 0

/-- Whether segment `g` is folded now (R100). -/
def State.folded (s : State) (g : Nat) : Bool := bit (s.pN 0x2110 3) g

/-- Whether a nozzle is present and unfolded. -/
def State.nzActive (s : State) (z : NozzleEntry) : Bool := z.present && !(s.folded z.segment)

/-- A footprint in the implement frame: bounds in half millimetres. -/
structure Foot where
  x0 : Int
  x1 : Int
  y0 : Int
  y1 : Int
  deriving DecidableEq, Repr

/-- The footprint of a nozzle (R99). -/
def NozzleEntry.foot (z : NozzleEntry) : Foot :=
  let cx := 2 * (z.x + z.offset)
  ⟨cx - z.length, cx + z.length, 2 * z.y - z.width, 2 * z.y + z.width⟩

/-- The smallest footprint that contains two. -/
def Foot.join (a b : Foot) : Foot := ⟨min a.x0 b.x0, max a.x1 b.x1, min a.y0 b.y0, max a.y1 b.y1⟩

/-- The footprint of output `o` (R99): a nozzle's own, or for valve 128 + h the smallest that contains those of the present,
unfolded nozzles it feeds; none where there is no such nozzle. -/
def State.footOf (s : State) (o : Nat) : Option Foot :=
  if o < 128 then
    let z := s.nozzle o
    if z.present then some z.foot else none
  else
    (s.nozzles.filter (fun z => s.nzActive z && z.feed == o - 127)).foldl (fun a z =>
      match a with
      | none => some z.foot
      | some f => some (f.join z.foot)) none

/-- The local speed of lateral position `y` at a pose (R115). -/
def Pose.localSpeed (p : Pose) (y : Int) : Int :=
  p.vx - leverSpeed p.w y

/-- The local speeds published (R115). -/
def State.localSpeeds (s : State) : Vector Int 128 :=
  let p := s.poseAt 1
  let b := s.pBytes 0x2110 1
  vgen 128 (fun n =>
    let z := nozzleEntry b n
    if s.nzActive z then satI32 (p.localSpeed z.y) else 0)

/-! ### The boundary -/

/-- Propagation over one frame (R102 step 1): with the gyro's yaw rate less the bias tracked, where the gyro is used, and with the
fused speed. A trailed implement has no lateral speed (R95). The position uncertainty then is the filter's (free). -/
def State.rovPropagate (s : State) : State :=
  let w := if s.gyroUsed then (vget s.motion.inert.gyro 2 0 - s.rov.resid) * one18 else s.rov.cur.w
  let vy := if s.pN 0x2100 1 = 0 then s.rov.cur.vy else 0
  let u := s.drawn % 4294967296
  s.draw.modRov (fun r => { r with cur := ({ r.cur with w := w, vy := vy }).advance 1000000, uncert := u })

/-- The bias that Roving tracks over one frame (R104): its variance grows by the process noise, ten times it while R87's estimate is
not VALID; when that estimate becomes VALID the residual starts at 0 (Assumption 112). -/
def State.biasGrow (s : State) : State :=
  let ok := s.motion.inert.status == 2
  s.modRov (fun r => { r with
    biasOk := ok, resid := if ok && !r.biasOk then 0 else r.resid,
    biasVar := (if ok && !r.biasOk then 0 else r.biasVar) + Config.biasNoise * (if ok then 1 else 10) })

/-- The tilt of the specific force at a lateral and a vertical component. -/
def tiltOf (y z : Int) : Int := radToBam (fxAtan2 y z)

/-- Roll and pitch from accelerometer and gyro in a frame with an inertial sample (R96): the gyro turns them on, and a free part
(Assumption 4) of their difference from the tilt of the acceleration is taken over. The centripetal term, speed × yaw rate,
is first taken from the lateral acceleration. -/
def State.rovTilt (s : State) : State :=
  if !(s.motion.inert.fresh && s.gyroUsed) then s
  else
    let g := s.motion.inert.gyro
    let a := s.motion.inert.accel
    let lateral := vget a 1 0 - leverSpeed (fxRound s.rov.cur.w) (fxRound s.rov.cur.vx)
    let roll := s.rov.roll + rdiv (vget g 0 0) 1000
    let pitch := s.rov.pitch - rdiv (vget g 1 0) 1000
    let part := fun (f : Nat) (x : Int) => rdiv (x * (f % 4294967297 : Nat)) 4294967296
    let r' := roll + part s.drawn (bamS (tiltOf (lateral * one18) (vget a 2 0 * one18) - roll))
    let s := s.draw
    let p' := pitch + part s.drawn (bamS (tiltOf (vget a 0 0 * one18) (vget a 2 0 * one18) - pitch))
    s.draw.modRov (fun r => { r with roll := bamS r', pitch := bamS p' })

/-- The pose of conveyor operation (R116). -/
def State.conveyorPose (s : State) : Pose :=
  let i := s.beltInput
  let m := vget s.motion.setP i ⟨0, 0, 1, 0⟩
  { e := satI32 (rdiv (m.count * (s.pN (0x2010 + i) 4 : Nat)) 1000000), n := 0, psi := 0x40000000, vx := m.speed, vy := 0,
    w := 0 }

/-- The fold state taken at a boundary, with the time it took effect (R100). -/
def State.rovFold (s : State) : State :=
  let f := BitVec.ofNat 8 (s.pN 0x2110 3)
  if f = s.rov.fold then s else s.modRov (fun r => { r with
    fold := f, foldAt := s.it,
    foldIt := vmapi r.foldIt (fun g t => if f.getLsbD g && !(r.fold.getLsbD g) then s.it else t) })

/-- What a boundary publishes: P0 entered in the history, the path and the local speeds (R111, R115). -/
def State.rovPublish (s : State) (still : Bool) : State :=
  let path := s.predictPath still
  let p0 := s.rov.cur.pose
  let s := s.modRov (fun r => { r with
    p0 := p0, path := path, poseIt := s.it, past := ((s.it, p0) :: r.past).take 4096,
    stateLog := ((s.it, r.state) :: r.stateLog).take 4096,
    overSpeed := decide (50000000 < 3600 * p0.vx.natAbs) })
  s.modRov (fun r => { r with local_ := s.localSpeeds })

/-- The filter anew, in `state` (R108). What counts since cold start, and what is not the filter's, goes on. -/
def Roving.anew (r : Roving) (state : Nat) : Roving :=
  { Roving.reset with
    state := state, rejected := r.rejected, late := r.late, fold := r.fold, foldIt := r.foldIt, foldAt := r.foldAt,
    first := r.first, heights := r.heights, past := r.past, stateLog := r.stateLog }

/-- A frame of conveyor operation (R116): the belt is the only motion source (R90). -/
def State.rovBelt (s : State) : State :=
  let p := s.conveyorPose
  let i := s.beltInput
  let s := s.modRov (fun r => { (if r.state = 5 then r else r.anew 5) with
    cur := p.fine, hist := ((s.it, p.fine) :: (if r.state = 5 then r.hist else [])).take 500, rev := (s.pulse i).rev, inferred := false, outFrame := false })
  (s.plausibleBy [false, false, false]).rovPublish (p.vx == 0)

/-- A frame of the filter up to its direction (R102, R105, R106). -/
def State.rovFilter (s : State) : State :=
  let s := s.modRov (fun r => { r with outFrame := false, noQual := r.noQual + 1 })
  let s := s.updateOrigin.rovTilt
  let s := s.biasGrow.rovPropagate.fuseAll
  let s := if s.atStandstill then s.modRov (fun r => { r with cur := { r.cur with vx := 0, vy := 0, w := 0 } }) else s
  let s := s.modRov (fun r => { r with hist := (s.it, r.cur) :: r.hist.filter (fun h => decide (s.it < h.1 + 500000000)) })
  let (rev, inferred) := s.rovDirection
  s.modRov (fun r => { r with rev := rev, inferred := inferred })

/-- ROVING_FUSE_PUBLISH at the boundary `s.it` (R102 to R116). A filter that follows conveyor operation begins anew. -/
def State.rovFrame (s : State) : State :=
  let s := s.rovFold
  if !s.power.geo then s
  else if s.pB 0x2070 1 then s.rovBelt
  else
    let s := if s.rov.state = 5 ∨ s.rov.state = 0 then s.modRov (fun r => r.anew 1) else s
    let s := s.rovFilter.plausible
    let n := s.rovState
    let s := if n = 4 ∧ s.rov.state ≠ 4 then s.modRov (fun r => { r with three := 0, reinit := true }) else s
    let s := s.modRov (fun r => { r with state := n })
    if n < 2 then s.modRov (fun r => { r with stateLog := ((s.it, n) :: r.stateLog).take 4096 })
    else s.rovPublish s.atStandstill

/-- Whether Roving publishes a pose (R108). -/
def State.hasPose (s : State) : Bool := decide (2 ≤ s.rov.state)

/-- Whether Roving is TRACKING or DEAD-RECKONING or on a conveyor, so that its path is trusted. -/
def State.poseTrusted (s : State) : Bool := s.rov.state == 2 || s.rov.state == 3 || s.rov.state == 5

/-- The GEO domain starts: INIT, the filter anew (R108). -/
def State.rovStart (s : State) : State := s.modRov (fun r => r.anew 1)

/-- The GEO domain stops: NOT-STARTED, no pose (R108). -/
def State.rovStop (s : State) : State := s.modRov (fun r => r.anew 0)

/-- The bytes of a pose (R113). -/
def Pose.bytes (p : Pose) : Bytes := leI 4 p.e ++ leI 4 p.n ++ le 4 p.psi ++ leI 4 p.vx ++ leI 4 p.vy ++ leI 4 p.w

/-- The flags of P 0x2102.11. -/
def Roving.flags (r : Roving) : Nat :=
  bits [r.inferred, r.implaus, r.outFrame, r.provis, r.hdgCourse, r.overSpeed]

end Sys2Proof.Machine
end

