-- ==== Sys2Proof/Machine/Distaff.lean ====
section
/-! DEFINITION. Distaff's store (R155 to R168, R178 to R182): hanks, tiles, the pool, streamed layers and the lap cache. -/

namespace Sys2Proof.Machine

/-- Distaff changed. -/
def State.modDis (s : State) (f : Distaff → Distaff) : State := { s with dis := f s.dis }

/-- Hank slot `k`. -/
def State.hank (s : State) (k : Nat) : Hank := vget s.dis.hanks k Hank.reset

/-- Hank slot `k` changed. -/
def State.modHank (s : State) (k : Nat) (f : Hank → Hank) : State :=
  s.modDis (fun d => { d with hanks := vmod d.hanks k f })

/-- Cell size of a hank in mm (R156). -/
def Hank.mm (h : Hank) : Nat := if h.cell = 0 then 50 else 100

/-- Frames of the pool (R163). -/
def poolFrames : Nat := 917504

/-! ### Tiles (R162 to R165) -/

/-- The pool frame of a tile. -/
def State.frameOf (s : State) (slot : Nat) (col row : Int) : Option Frame :=
  s.dis.frames.find? (fun f => f.slot == slot && f.col == col && f.row == row)

/-- A frame's descriptor changed. -/
def State.modFrame (s : State) (t : Nat) (f : Frame → Frame) : State :=
  s.modDis (fun d => { d with frames := d.frames.map (fun x => if x.frame = t then f x else x) })

/-- The cell bytes of a pool frame. -/
def State.poolCells (s : State) (t : Nat) : Bytes := Memory.readBlock s.mram (t * 4096) 4096

/-- The lap-cache tile at a key. -/
def State.cached (s : State) (col row : Int) : Option CTile := s.dis.cache.find? (fun c => c.col == col && c.row == row)

/-- A lap-cache tile changed. -/
def State.modTile (s : State) (col row : Int) (f : CTile → CTile) : State :=
  s.modDis (fun d => { d with cache := d.cache.map (fun c => if c.col = col ∧ c.row = row then f c else c) })

/-- The background tile of a slot (R165). -/
def State.background (s : State) (slot : Nat) : Bytes := List.replicate 4096 (s.hank slot).bg

/-- A tile as its pool frame holds it, the background where it was never stored. -/
def State.storedCells (s : State) (slot : Nat) (col row : Int) : Bytes :=
  match s.frameOf slot col row with
  | some f => s.poolCells f.frame
  | none => s.background slot

/-- Whether a tile is marked DAMAGED (R178). -/
def State.tileDamaged (s : State) (slot : Nat) (col row : Int) : Bool :=
  match s.frameOf slot col row with
  | some f => f.damaged
  | none => false

/-- A layer operation on cell `k` of a tile: the layer's field of `c` from the payload or the fill value. -/
def layerCell (layer op fill : Nat) (payload : Bytes) (k : Nat) (c : Byte) : Byte :=
  let n := c.toNat
  match layer with
  | 1 | 2 =>
    let b := if layer = 1 then 3 else 2
    let v := if op = 2 then fill else natAt payload (k / 8) 1 / 2 ^ (k % 8) % 2
    let old := n / 2 ^ b % 2
    let v := if op = 1 then max old v else v
    BitVec.ofNat 8 (n - old * 2 ^ b + v * 2 ^ b)
  | 3 =>
    let v := if op = 2 then fill else (if k % 2 = 0 then natAt payload (k / 2) 1 % 16 else natAt payload (k / 2) 1 / 16)
    BitVec.ofNat 8 (n % 16 + 16 * v)
  | _ =>
    let v := if op = 2 then fill else natAt payload (k / 4) 1 / 4 ^ (k % 4) % 4
    let v := if op = 1 then min 3 (n % 4 + v) else v
    BitVec.ofNat 8 (n / 4 * 4 + v)

/-- A layer record applied to the 4,096 cells of a tile. -/
def layerCells (layer op fill : Nat) (payload cells : Bytes) : Bytes :=
  cells.mapIdx (fun k c => layerCell layer op fill payload k c)

/-- The hank that Distaff holds: the OPEN one, and none in conveyor operation, whatever slot is OPEN (R32; Assumption 102). -/
def State.heldHank (s : State) : Option Nat := if s.pB 0x2070 1 then none else s.openHank

/-- Whether a kept record is for a tile of a slot. -/
def LayerRec.isFor (l : LayerRec) (slot : Nat) (col row : Int) : Bool := l.slot == slot && l.col == col && l.row == row

/-- The cells of a tile of a slot once the records kept for the boundary are applied to `cells` (R168). -/
def State.keptCells (s : State) (slot : Nat) (col row : Int) (cells : Bytes) : Bytes :=
  s.dis.layers.foldl (fun b l => if l.isFor slot col row then layerCells l.layer l.op l.fill l.payload b else b) cells

/-- Frames that tiles in the lap cache have taken and not yet been written to, or will take with the records kept for the
boundary (R166, R168). -/
def State.framesTaken (s : State) : Nat :=
  match s.openHank with
  | none => 0
  | some k => (s.dis.cache.filter (fun c =>
      (c.dirty.isSome || s.keptCells k c.col c.row c.cells != c.cells) && !c.noAlloc && (s.frameOf k c.col c.row).isNone)).length

/-- The pool frames of the rows that Carding has retired (R508): two to a row of 8 KiB. -/
def State.retiredFrames (s : State) : List Nat :=
  (s.card.retired.filter (fun r => decide (r.1 < 7))).flatMap (fun r => [131072 * r.1 + 2 * r.2, 131072 * r.1 + 2 * r.2 + 1])

/-- The frames that hold no free place: those in use and the retired ones. -/
def State.usedFrames (s : State) : List Nat :=
  let inUse := s.dis.frames.map (·.frame)
  inUse ++ s.retiredFrames.filter (fun t => !(inUse.contains t))

/-- Free pool frames (P 0x2301.02). -/
def State.freeTiles (s : State) : Nat := poolFrames - s.usedFrames.length - s.framesTaken

/-- POOL-LOW: the free count is at or below the reserve (R166). -/
def State.poolIsLow (s : State) : Bool := decide (s.freeTiles ≤ s.pN 0x2300 4)

/-- The side of the reserve that the free count lies on, noted without a record: after a change of the reserve and at a cold
start, where the count crosses nothing. -/
def State.poolNote (s : State) : State := s.modDis (fun d => { d with poolLow := s.poolIsLow })

/-- After a change of the free count (R166): a POOL-LOW record each time it crosses the reserve downward. -/
def State.poolCheck (s : State) : State := s.poolNote.recordIf (s.poolIsLow && !s.dis.poolLow) 0x4004 0 []

/-- The byte offset of a hank's header (R163). -/
def headerAt (k : Nat) : Nat := 0xFC000000 + 4096 * k

/-- The byte offset of a frame's descriptor (R163). -/
def descriptorAt (t : Nat) : Nat := 0xFC010000 + 16 * t

/-- Whether a Carding slice holds the cells or the descriptor of a frame (R503). -/
def State.frameHeld (s : State) (t : Nat) : Bool := s.sliceAt (4096 * t) 4096 || s.sliceAt (descriptorAt t) 16

/-- Whether a Carding slice holds the lap cache: where in it a tile lies is not stated, so that each of its slices holds all tiles
(R499, R503; Assumption 134). -/
def State.lapHeld (s : State) : Bool := s.card.run.any (fun r => decide (r.current ≤ 15))

/-- The first free frame at or after `t`, going round. -/
def freeFrom (used : Nat → Bool) : Nat → Nat → Nat
  | 0, t => t
  | fuel + 1, t => if used t then freeFrom used fuel ((t + 1) % poolFrames) else t

/-- A free frame that no Carding slice holds (R503); which one is not stated (Assumption 4). -/
def State.pickFrame (s : State) : Nat :=
  let used := s.usedFrames
  freeFrom (fun t => used.contains t || s.frameHeld t) (used.length + 16449) (s.drawn % poolFrames)

/-- A tile's cells written to its frame, one taken where it has none, with its descriptor (R164, R165). -/
def State.storeTile (s : State) (slot : Nat) (col row : Int) (cells : Bytes) (f : Frame → Frame) : State :=
  match s.frameOf slot col row with
  | some x =>
    ({ s with mram := Memory.write s.mram (x.frame * 4096) cells }).modFrame x.frame
      (fun y => { f y with crc := crc32 cells })
  | none =>
    let t := s.pickFrame
    let s := s.draw
    let x : Frame := f { frame := t, slot := slot, col := col, row := row, damaged := false, streamed := false, marked := false,
                         unobs := 0, crc := 0, since := 0 }
    ({ s with mram := Memory.write s.mram (t * 4096) cells }).modDis (fun d => { d with
      frames := { x with crc := crc32 cells } :: d.frames })

/-! ### Cells as the query unit reads them (R123, R161, R169) -/

/-- The cell at cell coordinates (`x`, `y`) of the open hank as the lap cache holds it: none where its tile is not allocated or
not resident. A damaged tile reads as 0x04 everywhere (R178). -/
def State.cellAt (s : State) (slot : Nat) (x y : Int) : Option Byte :=
  match s.cached (x / 64) (y / 64) with
  | none => none
  | some c =>
    if c.noAlloc then none
    else if s.tileDamaged slot (x / 64) (y / 64) then some 4
    else c.cells[(64 * (y % 64) + x % 64).toNat]?

/-- Whether a cell is closed for a reason other than the applied count (R123, R126). -/
def cellHard (mask : Nat) (presc : Bool) (c : Byte) : Bool :=
  (bit mask 1 && c.getLsbD 2) || (bit mask 2 && c.getLsbD 3) || (bit mask 3 && presc && c.toNat / 16 == 0)

/-- Whether a cell is closed ground (R123). -/
def cellClosed (mask : Nat) (presc : Bool) (c : Byte) : Bool :=
  (bit mask 0 && c.toNat % 4 != 0) || cellHard mask presc c

/-! ### Placing a footprint (R99, R113, R124) -/

/-- A placed implement frame: reference point in 10^-18 mm, sine and cosine of the heading. -/
structure Place where
  e  : Int
  n  : Int
  sn : Int
  cs : Int
  deriving DecidableEq, Repr

/-- The placement of a pose. -/
def Pose.place (p : Pose) : Place := ⟨p.e * one18, p.n * one18, bamSin p.psi, bamCos p.psi⟩

/-- The placement `num` / `den` of the way from one pose to the next, linear in east, north and heading (R124). -/
def placeBetween (a b : Pose) (num den : Nat) : Place :=
  if num = 0 ∨ den = 0 then a.place
  else
    let f := fun (x y : Int) => x * one18 + (y - x) * one18 * num / den
    let psi := (a.psi : Int) * 4294967296 + bamS ((b.psi : Int) - a.psi) * 4294967296 * num / den
    ⟨f a.e b.e, f a.n b.n, fxSinTurn psi 18446744073709551616, fxCosTurn psi 18446744073709551616⟩

/-- A field point (10^-18 mm) of a body point in half millimetres. -/
def Place.at_ (p : Place) (x y : Int) : Int × Int :=
  (p.e + (x * p.sn - y * p.cs) / 2, p.n + (x * p.cs + y * p.sn) / 2)

/-- The corners of a placed footprint, in order. -/
def Place.corners (p : Place) (f : Foot) : List (Int × Int) :=
  [p.at_ f.x0 f.y0, p.at_ f.x1 f.y0, p.at_ f.x1 f.y1, p.at_ f.x0 f.y1]

/-- The centre of a placed footprint. -/
def Place.centre (p : Place) (f : Foot) : Int × Int :=
  let a := p.at_ f.x0 f.y0
  let b := p.at_ f.x1 f.y1
  ((a.1 + b.1) / 2, (a.2 + b.2) / 2)

/-- Bounds of points: lowest and highest east, lowest and highest north. -/
def boundsOf : List (Int × Int) → Int × Int × Int × Int
  | [] => (0, 0, 0, 0)
  | p :: ps => ps.foldl (fun b q => (min b.1 q.1, max b.2.1 q.1, min b.2.2.1 q.2, max b.2.2.2 q.2)) (p.1, p.1, p.2, p.2)

/-- The cells of size `mm` that the bounds of a placed footprint touch. -/
def Place.cells (p : Place) (f : Foot) (mm : Nat) : List (Int × Int) :=
  let (x0, x1, y0, y1) := boundsOf (p.corners f)
  let c : Int := mm * one18
  let xs := (List.range (x1 / c - x0 / c + 1).toNat).map (fun (k : Nat) => x0 / c + k)
  let ys := (List.range (y1 / c - y0 / c + 1).toNat).map (fun (k : Nat) => y0 / c + k)
  ys.flatMap (fun y => xs.map (fun x => (x, y)))

/-- A polygon cut to one side of a line: `d` is the signed distance of a point, kept where it is not negative. -/
def clipGo (d : Int × Int → Int) (prev : Int × Int) : List (Int × Int) → List (Int × Int)
  | [] => []
  | p :: ps =>
    let a := d prev
    let b := d p
    let cross := if a = b then p
      else (prev.1 + (p.1 - prev.1) * a / (a - b), prev.2 + (p.2 - prev.2) * a / (a - b))
    let here := if 0 ≤ b then (if a < 0 then [cross, p] else [p]) else (if 0 ≤ a then [cross] else [])
    here ++ clipGo d p ps

/-- See `clipGo`. -/
def clipBy (d : Int × Int → Int) (l : List (Int × Int)) : List (Int × Int) :=
  match l.getLast? with
  | none => []
  | some p => clipGo d p l

/-- Twice the area between consecutive points. -/
def shoeGo (prev : Int × Int) : List (Int × Int) → Int
  | [] => 0
  | p :: ps => fxMul prev.1 p.2 - fxMul p.1 prev.2 + shoeGo p ps

/-- Twice the area of a polygon, in 10^-18 mm². -/
def area2 (l : List (Int × Int)) : Nat :=
  match l.getLast? with
  | none => 0
  | some p => (shoeGo p l).natAbs

/-- Twice the area of a placed footprint that lies in cell (`x`, `y`). -/
def Place.overlap2 (p : Place) (f : Foot) (mm : Nat) (x y : Int) : Nat :=
  let c : Int := mm * one18
  let q := p.corners f
  let q := clipBy (fun v => v.1 - x * c) q
  let q := clipBy (fun v => (x + 1) * c - v.1) q
  let q := clipBy (fun v => v.2 - y * c) q
  area2 (clipBy (fun v => (y + 1) * c - v.2) q)

/-- Twice the area of a footprint. -/
def Foot.area2 (f : Foot) : Nat := ((f.x1 - f.x0) * (f.y1 - f.y0) * one18 / 2).toNat

/-- Whether a body point lies in a footprint, its edges included (R173), for a field point in 10^-18 mm. -/
def Place.inFoot (p : Place) (f : Foot) (pt : Int × Int) : Bool :=
  let dx := pt.1 - p.e
  let dy := pt.2 - p.n
  let x := 2 * (fxMul dx p.sn + fxMul dy p.cs)
  let y := 2 * (fxMul dy p.sn - fxMul dx p.cs)
  decide (f.x0 * one18 ≤ x ∧ x ≤ f.x1 * one18 ∧ f.y0 * one18 ≤ y ∧ y ≤ f.y1 * one18)

/-! ### The swept envelope and the prefetch (R114, R179) -/

/-- The poses of the envelope: P0, P64 and so on to P2048; none while Roving publishes no pose (R108). -/
def State.envelopePoses (s : State) : List Pose := if s.hasPose then (List.range 33).map (fun i => s.poseAt (64 * i)) else []

/-- Bounds of the present, unfolded footprints at a pose, in 10^-18 mm; none without such a footprint. -/
def State.boundsAt (s : State) (p : Pose) : Option (Int × Int × Int × Int) :=
  let pl := p.place
  match (s.nozzles.filter (fun z => s.nzActive z)).flatMap (fun z => pl.corners z.foot) with
  | [] => none
  | l => some (boundsOf l)

/-- The union of bounds. -/
def joinBounds (l : List (Int × Int × Int × Int)) : Option (Int × Int × Int × Int) :=
  match l with
  | [] => none
  | b :: bs => some (bs.foldl (fun a c => (min a.1 c.1, max a.2.1 c.2.1, min a.2.2.1 c.2.2.1, max a.2.2.2 c.2.2.2)) b)

/-- The swept envelope (R114). -/
def State.envelope (s : State) : Option (Int × Int × Int × Int) :=
  joinBounds (s.envelopePoses.filterMap (fun p => s.boundsAt p))

/-- The tiles a rectangle meets, for a cell size. -/
def tilesOf (mm : Nat) (b : Int × Int × Int × Int) : List (Int × Int) :=
  let c : Int := 64 * mm * one18
  let xs := (List.range (b.2.1 / c - b.1 / c + 1).toNat).map (fun (k : Nat) => b.1 / c + k)
  let ys := (List.range (b.2.2.2 / c - b.2.2.1 / c + 1).toNat).map (fun (k : Nat) => b.2.2.1 / c + k)
  ys.flatMap (fun y => xs.map (fun x => (x, y)))

/-- The tiles of the envelope in the order of the first envelope pose that reaches them (R179). -/
def State.envelopeTiles (s : State) (mm : Nat) : List (Int × Int) :=
  match s.envelope with
  | none => []
  | some b =>
    let all := tilesOf mm b
    let byPose := (s.envelopePoses.filterMap (fun p => s.boundsAt p)).flatMap (fun q => tilesOf mm q)
    (byPose ++ all).eraseDups

/-- DISTAFF_PREFETCH: fills queued for what marking waits on, then for the envelope; envelope tiles count as used. -/
def State.prefetch (s : State) (wanted : List (Int × Int)) : State :=
  match s.heldHank with
  | none => s.modDis (fun d => { d with fills := [] })
  | some k =>
    let env := s.envelopeTiles (s.hank k).mm
    let need := (wanted ++ env).eraseDups.filter (fun t => (s.cached t.1 t.2).isNone)
    s.modDis (fun d =>
      let tick := d.tick + 1
      { d with fills := need, tick := tick, late := false, backs := 0, walked := [],
               cache := d.cache.map (fun c => if env.contains (c.col, c.row) then { c with used := tick } else c) })

/-- Whether a tile may be evicted (R180): clean, outside the envelope, without an accumulator cell, used by no walk of the
frame. One that a record waits for is about to change, and stays (R168). -/
def State.evictable (s : State) (env : List (Int × Int)) (c : CTile) : Bool :=
  c.dirty.isNone && !(s.dis.layers.any (fun l => l.col == c.col && l.row == c.row)) && !(env.contains (c.col, c.row)) && !(s.dis.walked.contains (c.col, c.row)) &&
    !(s.dis.acc.any (fun a => a.x / 64 == c.col && a.y / 64 == c.row))

/-- The tiles that the lap cache holds: 1,024, less those whose words lie in a row that Carding has retired (R31, R508). -/
def State.lapRoom (s : State) : Nat :=
  1024 - ((s.card.retired.filter (fun r => r.1 == 8)).map (fun r => r.2 / 4)).eraseDups.length

/-- Room for one more tile: the least recently used evictable tile leaves a full cache; none where no tile may. -/
def State.makeRoom (s : State) (mm : Nat) : Option State :=
  if s.dis.cache.length < s.lapRoom then some s
  else
    let env := s.envelopeTiles mm
    match s.dis.cache.filter (fun c => s.evictable env c) with
    | [] => none
    | c :: cs =>
      let v := cs.foldl (fun b x => if x.used < b.used then x else b) c
      some (s.modDis (fun d => { d with cache := d.cache.filter (fun x => !(x.col == v.col && x.row == v.row)) }))

/-- The tile of a frame found DAMAGED (R178): counted in its hank and in P 0x2301.06, with its record, which names where the gap
is: the slot as subject, column and row in the detail (Assumption 115). -/
def State.tileBad (s : State) (f : Frame) : State :=
  let s := (s.modFrame f.frame (fun x => { x with damaged := true, since := 0 })).modHank f.slot (fun h => { h with
    damaged := sat32 (h.damaged + 1) })
  (s.modDis (fun d => { d with found := sat32 (d.found + 1) })).record 0x4007 f.slot (leI 2 f.col ++ leI 2 f.row)

/-- A tile of hank `k` entered in the cache from its stored copy; one whose cells fail the CRC-32 of its descriptor, as stored or
as read, is damaged (R178). -/
def State.putTile (s : State) (k : Nat) (col row : Int) (corrected : Nat) (crcOk : Bool) : State :=
  let cells := s.storedCells k col row
  let c : CTile := { col := col, row := row, cells := cells, dirty := none, changed := 0, used := s.dis.tick,
                     noAlloc := false, marked := false, streamed := false, unobs := 0 }
  let s := s.modDis (fun d => { d with
    cache := c :: d.cache, fills := d.fills.filter (fun f => f != (col, row)), bitErrs := sat32 (d.bitErrs + corrected) })
  match s.frameOf k col row with
  | none => s
  | some f =>
    if crcOk && crc32 cells == f.crc then s else s.tileBad f

/-- A queued fill completes; with no room it waits (R178, R180). -/
def State.fillDone (s : State) (x : FillIn) : State :=
  match s.heldHank with
  | none => s
  | some k =>
    if !(s.dis.fills.contains (x.col, x.row)) || !s.power.geo then s
    else match s.makeRoom (s.hank k).mm with
      | none => s
      | some s => s.putTile k x.col x.row x.corrected x.crcOk

/-- TILE_FILL_DONE: a queued fill completes (R178). `corrected` bit errors were corrected; a CRC failure of a stored tile
makes it DAMAGED. It waits while a Carding slice holds the lap cache (R503). -/
def execTileFillDone (col row : Int) (t : IT) (corrected : Nat) (crcOk : Bool) (s : State) :
    Host.Outcome State Fault Refusal :=
  .next (if !(s.dis.fills.contains (col, row)) || !s.power.geo || s.lapHeld then s else (s.at t).fillDone ⟨col, row, corrected, crcOk⟩)

/-- A dirty tile of the open hank written back: to its frame, or to one taken now (R165, R180). One that is NOT-ALLOCATED
tries for a frame again (R166). -/
def State.writeBack (s : State) (k : Nat) (c : CTile) : State :=
  if c.noAlloc && s.freeTiles == 0 then s
  else if c.dirty.isNone then
    let s := s.modTile c.col c.row (fun x => { x with noAlloc := false })
    s.modDis (fun d => { d with exhaust := d.cache.any (·.noAlloc) })
  else
    let s := s.storeTile k c.col c.row c.cells (fun f => { f with
      marked := f.marked || c.marked, streamed := f.streamed || c.streamed, unobs := sat16 (f.unobs + c.unobs) })
    let s := s.modTile c.col c.row (fun x => { x with dirty := none, noAlloc := false, unobs := 0 })
    (s.modDis (fun d => { d with exhaust := d.cache.any (·.noAlloc) })).poolCheck

/-- Whether a Carding slice holds the frame of a tile or its descriptor (R503). -/
def State.backHeld (s : State) (k : Nat) (col row : Int) : Bool :=
  match s.frameOf k col row with
  | some f => s.frameHeld f.frame
  | none => false

/-- Whether a tile is due to be written back at `t`: unchanged for P 0x2300.02, dirty for P 0x2300.03, or without a frame
(R166, R180). -/
def State.backDue (s : State) (c : CTile) (t : IT) : Bool :=
  c.noAlloc || (match c.dirty with
    | none => false
    | some since => decide (c.changed + s.pN 0x2300 2 * 1000000 ≤ t ∨ since + s.pN 0x2300 3 * 1000000 ≤ t))

/-- TILE_WRITE_BACK: a tile that is due is written back; while prefetch fills are queued at most 15 in a frame start (R179). -/
def execTileWriteBack (col row : Int) (t : IT) (s : State) : Host.Outcome State Fault Refusal :=
  .next (match s.heldHank, s.cached col row with
    | some k, some c =>
      if !(s.backDue c t) || s.backHeld k col row || s.lapHeld || (!s.dis.fills.isEmpty && decide (15 ≤ s.dis.backs)) then s
      else ((s.at t).modDis (fun d => { d with backs := d.backs + 1 })).writeBack k c
    | _, _ => s)

/-! ### Streamed layers (R167, R168) -/

/-- The payload length a layer and operation require. -/
def layerLen (layer op : Nat) : Nat := if op = 2 then 0 else match layer with | 1 | 2 => 512 | 3 => 2048 | _ => 1024

/-- The largest fill value of a layer. -/
def layerMax (layer : Nat) : Nat := match layer with | 1 | 2 => 1 | 3 => 15 | _ => 3

/-- Whether a key lies outside the square of R167. -/
def keyOut (mm : Nat) (k : Int) : Bool :=
  if mm = 50 then decide (k < -15625 ∨ 15625 < k) else decide (k < -7813 ∨ 7812 < k)

/-- The cells a record would change: of the resident copy, or of the stored tile, after the records kept before it. -/
def State.streamBase (s : State) (slot : Nat) (col row : Int) : Bytes :=
  s.keptCells slot col row (match (if s.openHank = some slot then s.cached col row else none) with
    | some c => c.cells
    | none => s.storedCells slot col row)

/-- The rejection cause of the record at the front of `b`, 0 for none (R167); the lowest that applies. -/
def State.streamCause (s : State) (b : Bytes) : Nat :=
  let slot := natAt b 0 1
  let layer := natAt b 1 1
  let op := natAt b 2 1
  let fill := natAt b 3 1
  let col := intAt b 4 2
  let row := intAt b 6 2
  let crc := natAt b 8 4
  let len := natAt b 12 2
  let pay := (b.drop 16).take len
  let h := s.hank slot
  let cut := decide (b.length < 16 + len)
  if 15 < slot ∨ h.state = 0 ∨ h.state = 4 then 1
  else if layer = 0 ∨ 4 < layer ∨ 2 < op ∨ (op = 2 ∧ (layerMax layer < fill ∨ crc ≠ 0)) ∨ natAt b 14 2 ≠ 0 then 2
  else if cut ∨ len ≠ layerLen layer op then 3
  else if op ≠ 2 ∧ crc32 pay ≠ crc then 4
  else
    let base := s.streamBase slot col row
    let new := (s.frameOf slot col row).isNone &&
      !(match s.cached col row with | some c => s.openHank == some slot && c.dirty.isSome && !c.noAlloc | none => false)
    if new && s.poolIsLow && layerCells layer op fill pay base != base then 5
    else if keyOut h.mm col || keyOut h.mm row then 6
    else if h.state = 3 then 7
    else 0

/-- Layers of a damaged tile received since it was damaged, and DAMAGED cleared with the fourth (R178). -/
def Frame.received (f : Frame) (layer op : Nat) : Frame :=
  if !f.damaged || op == 1 then f
  else
    let b := 2 ^ (layer - 1)
    let since := if f.since / b % 2 = 1 then f.since else f.since + b
    if since = 15 then { f with since := 0, damaged := false } else { f with since := since }

/-- What a record does to its hank's header: the layers present, and the prescription with the first ZONE record
(R157, R160). -/
def State.layerNoted (s : State) (slot layer : Nat) : State :=
  s.modHank slot (fun h => { h with
    layers := if h.layers / 2 ^ (layer - 1) % 2 = 1 then h.layers else h.layers + 2 ^ (layer - 1),
    presc := h.presc || layer == 3 })

/-- A tile's cells changed in the lap cache at the present time. -/
def CTile.changedTo (c : CTile) (cells : Bytes) (t : IT) : CTile :=
  if cells = c.cells then c else { c with cells := cells, dirty := some (c.dirty.getD t), changed := t }

/-- A record applied to a tile that is not resident, by read-modify-write (R168). -/
def State.layerToPool (s : State) (l : LayerRec) : State :=
  let base := s.storedCells l.slot l.col l.row
  let cells := layerCells l.layer l.op l.fill l.payload base
  if cells = base ∧ (s.frameOf l.slot l.col l.row).isNone then s
  else (s.storeTile l.slot l.col l.row cells (fun f => { f.received l.layer l.op with streamed := true })).poolCheck

/-- A record that waited for the boundary, applied to its resident tile, all of it in one step; to the pool where the tile has
left the lap cache since (R168). -/
def State.layerToCache (s : State) (l : LayerRec) : State :=
  match s.openHank, s.cached l.col l.row with
  | some k, some c =>
    if k ≠ l.slot then s.layerToPool l
    else
      let cells := layerCells l.layer l.op l.fill l.payload c.cells
      let s := s.modTile l.col l.row (fun x => { x.changedTo cells s.it with streamed := true })
      match s.frameOf k l.col l.row with
      | some f => (s.modFrame f.frame (fun x => x.received l.layer l.op)).poolCheck
      | none => s.poolCheck
  | _, _ => s.layerToPool l

/-- One accepted record: noted in the header, and applied to the pool or kept for the boundary, where it also waits behind an earlier
one for its tile (R168). -/
def State.applyRecord (s : State) (l : LayerRec) : State :=
  let s := s.layerNoted l.slot l.layer
  if (s.openHank = some l.slot ∧ (s.cached l.col l.row).isSome) ∨ s.dis.layers.any (·.isFor l.slot l.col l.row) then s.modDis (fun d => { d with layers := d.layers ++ [l] })
  else s.layerToPool l

/-- The records of a stream block in their order (R167); `fuel` bounds their number. -/
def State.streamRecords : Nat → Bytes → State → State
  | 0, _, s => s
  | fuel + 1, b, s =>
    if b.isEmpty then s
    else
      let len := natAt b 12 2
      let cause := if b.length < 16 then 3 else s.streamCause b
      let s := if cause = 0 then
          let l : LayerRec := { slot := natAt b 0 1, layer := natAt b 1 1, op := natAt b 2 1, fill := natAt b 3 1, col := intAt b 4 2,
                                row := intAt b 6 2, payload := (b.drop 16).take len }
          (s.applyRecord l).modDis (fun d => { d with applied := d.applied + 1 })
        else s.modDis (fun d => { d with reject := if d.reject = 0 then cause else d.reject })
      if b.length < 16 + len then s else State.streamRecords fuel (b.drop (16 + len)) s

/-- Whether a Carding slice holds the frame of a tile or the header of a hank that a stream block writes (R503); `fuel` bounds its records. -/
def State.streamHeld (s : State) : Nat → Bytes → Bool
  | 0, _ => false
  | fuel + 1, b =>
    !b.isEmpty && (s.sliceAt (headerAt (natAt b 0 1)) 4096 || s.backHeld (natAt b 0 1) (intAt b 4 2) (intAt b 6 2) || s.streamHeld fuel (b.drop (16 + natAt b 12 2)))

/-- TILE_STREAM's effect. -/
def State.tileStream (s : State) (b : Bytes) : State :=
  State.streamRecords (b.length / 16 + 1) b (s.modDis (fun d => { d with applied := 0, reject := 0 }))

/-- The records that take effect at a boundary; they wait while a Carding slice holds the lap cache (R503). -/
def State.applyLayers (s : State) : State :=
  if s.lapHeld then s
  else
  let l := s.dis.layers
  l.foldl (fun s x => s.layerToCache x) (s.modDis (fun d => { d with layers := [] }))

/-! ### Hank commands (R156) -/

/-- The result of judging a command record of 64 bytes, 0 where it is accepted (R156). The NO-POSITION check falls at the
next boundary. -/
def State.hankJudge (s : State) (b : Bytes) : Nat :=
  let cmd := natAt b 0 1
  let slot := natAt b 1 1
  let st := (s.hank slot).state
  if cmd = 0 ∨ 4 < cmd ∨ 15 < slot ∨ 1 < natAt b 2 1 ∨ 1 < natAt b 4 1 ∨ natAt b 6 2 ≠ 0 then 7
  else if cmd ≠ 1 ∧ st = 0 then 3
  else if cmd = 1 ∧ st ≠ 0 then 2
  else if (cmd = 4 ∧ st = 2) ∨ (cmd = 2 ∧ st ≠ 2 ∧ s.openHank.isSome) then 4
  else if cmd = 2 ∧ s.pB 0x2070 1 then 6
  else if cmd = 2 ∧ (st ≠ 1 ∨ (s.power.dev ≠ .ready ∧ s.power.dev ≠ .run)) then 8
  else if cmd = 3 ∧ st ≠ 2 then 8
  else if cmd = 4 ∧ st = 3 then 8
  else 0

/-- A header written for a slot with the fields of a CREATE record and an origin. -/
def State.hankCreate (s : State) (slot : Nat) (b : Bytes) (o : Origin) : State :=
  s.modHank slot (fun _ => { Hank.reset with
    state := 1, cell := natAt b 2 1, bg := BitVec.ofNat 8 (natAt b 3 1), job := natAt b 28 4, name := bytesAt b 32 32, origin := o,
    presc := natAt b 5 1 != 0, created := (s.time.boot, s.it), wall := s.wallAt s.it,
    wallSt := s.wallCode })

/-- An accepted command: at once, or waiting for the next boundary. -/
def State.hankAccept (s : State) (b : Bytes) : State :=
  let cmd := natAt b 0 1
  let slot := natAt b 1 1
  let wait := fun (s : State) => s.modDis (fun d => { d with result := 1, wait := some ⟨cmd, slot, b⟩ })
  if cmd = 1 then
    if natAt b 4 1 = 1 then wait s
    else (s.hankCreate slot b ⟨intAt b 8 8, intAt b 16 8, intAt b 24 4⟩).modDis (fun d => { d with result := 0 })
  else if cmd = 4 then (s.modHank slot (fun h => { h with state := 3 })).modDis (fun d => { d with result := 0 })
  else wait s

/-- A hank command's effect (R156). -/
def State.hankCommand (s : State) (b : Bytes) : State :=
  let r := s.hankJudge b
  if r = 0 then s.hankAccept b else s.modDis (fun d => { d with result := r })

/-- A close sequence begins (R158): its close boundary is the present boundary, or the next one where the present time is
none, and marking ends there. -/
def State.closeBegin (s : State) (slot : Nat) (keep : Bool) : State :=
  let b := boundaryAtOrAfter s.it
  s.modDis (fun d => { d with
    close := some ⟨slot, b, keep⟩, marking := false, opens := if d.marking then (b, false) :: d.opens else d.opens })

/-- The open hank's close sequence at entry to SHUTDOWN, SAFE or BARE (R158). -/
def State.closeAll (s : State) (keep : Bool) : State :=
  match s.openHank with
  | none => s
  | some k =>
    match s.dis.close with
    | some c => if c.keep && !keep then s.modDis (fun d => { d with close := some { c with keep := false } }) else s
    | none => s.closeBegin k keep

/-- Marking resumes at entry to RUN for a hank left open (R158). -/
def State.markResume (s : State) : State :=
  match s.heldHank with
  | none => s
  | some _ =>
    if s.dis.marking then s
    else match s.dis.close with
      | some c => if c.keep then s.modDis (fun d => { d with close := none, marking := true, opens := (s.it, true) :: d.opens }) else s
      | none => s.modDis (fun d => { d with marking := true, opens := (s.it, true) :: d.opens })

/-- The origin that CREATE with CURRENT takes: the reference point's position in the field, as latitude and longitude.
The inverse conversion is computed by iteration to 10^-9 degrees (Assumption 10). -/
def geodeticStep (p z : Int) : Nat → Int → Int
  | 0, phi => phi
  | fuel + 1, phi =>
    let sp := fxSinTurn (rdiv (phi * 1000000000000) 6283185307179586477) 1000000000000
    let n := fxDiv (6378137000 * one18) (fxSqrt (one18 - fxMul 6694379990141317 (fxMul sp sp)))
    geodeticStep p z fuel (fxAtan2 (z + fxMul 6694379990141317 (fxMul n sp)) p)

/-- Latitude and longitude in 10^-9 degree and height in mm of an Earth-centred point in 10^-18 mm. -/
def geodetic (q : Int × Int × Int) : Origin :=
  let p := fxSqrt (fxMul q.1 q.1 + fxMul q.2.1 q.2.1)
  let phi := geodeticStep p q.2.2 8 (fxAtan2 q.2.2 p)
  let deg := fun (r : Int) => rdiv (r * 180000000000) 3141592653589793238
  let sp := fxSinTurn (deg phi) degTurn
  let cp := fxCosTurn (deg phi) degTurn
  let n := fxDiv (6378137000 * one18) (fxSqrt (one18 - fxMul 6694379990141317 (fxMul sp sp)))
  ⟨deg phi, deg (fxAtan2 q.2.1 q.1), fxRound (fxDiv p cp - n)⟩

/-- The reference point's present position as an origin. -/
def State.currentOrigin (s : State) : Origin :=
  match s.rov.origin with
  | none => ⟨0, 0, 0⟩
  | some o =>
    let d := fromEnu o (s.rov.p0.e * one18) (s.rov.p0.n * one18)
    let a := o.point
    geodetic (a.1 + d.1, a.2.1 + d.2.1, a.2.2 + d.2.2)

/-- The hank command that waits for this boundary (R156), and goes on waiting while a Carding slice holds the header (R503). One to OPEN
that meets conveyor operation is refused there (R32). -/
def State.hankBoundary (s : State) : State :=
  match s.dis.wait with
  | none => s
  | some w =>
    if s.sliceAt (headerAt w.slot) 4096 then s
    else
    let s := s.modDis (fun d => { d with wait := none })
    if w.cmd = 1 then
      if s.rov.state = 2 then (s.hankCreate w.slot w.body s.currentOrigin).modDis (fun d => { d with result := 0 })
      else s.modDis (fun d => { d with result := 5 })
    else if w.cmd = 2 ∧ s.pB 0x2070 1 then s.modDis (fun d => { d with result := 6 })
    else if w.cmd = 2 then
      let s := s.modHank w.slot (fun h => { h with state := 2, opened := (s.time.boot, s.it) })
      let s := s.modDis (fun d => { d with
        result := 0, marking := true, opens := (s.it, true) :: d.opens, cache := [], fills := [], acc := [] })
      s.record 0x4001 w.slot []
    else if w.cmd = 3 then s.closeBegin w.slot false
    else s

/-- Tiles of the deleting hanks returned to the pool in the background over one frame (R156, R166): 2,000 a second at least,
which is two in a frame; how many more is not stated (Assumption 4). Those that a Carding slice holds wait (R503). -/
def State.deleteFrame (s : State) : State :=
  if !((List.range 16).any (fun k => (s.hank k).state == 3)) then s
  else
    let gone := ((s.dis.frames.filter (fun f => (s.hank f.slot).state == 3 && !(s.frameHeld f.frame))).take (2 + s.drawn)).map (·.frame)
    (s.draw.modDis (fun d => { d with frames := d.frames.filter (fun f => !(gone.contains f.frame)) })).poolNote

/-- HANK_DELETE_DONE: the last tile of a deleting hank is freed. -/
def execHankDeleteDone (slot : Fin 16) (t : IT) (s : State) : Host.Outcome State Fault Refusal :=
  .next (s.whenAwake fun s =>
    if (s.hank slot).state ≠ 3 || s.sliceAt (headerAt slot.val) 4096 then s
    else
      let s := (s.at t).modHank slot (fun _ => Hank.reset)
      (s.modDis (fun d => { d with frames := d.frames.filter (fun f => f.slot != slot.val) })).poolCheck)

/-! ### What a host reads -/

/-- The header of a slot (R160). A damaged header reports CLOSED. -/
def State.hankBytes (s : State) (k : Nat) : Bytes :=
  let h := s.hank k
  let b := le 4 1 ++ le 1 k ++ le 1 (if h.state = 4 then 1 else h.state) ++ le 1 h.cell ++ [h.bg] ++ le 4 h.job ++ padTo 32 h.name ++
    leI 8 h.origin.lat ++ leI 8 h.origin.lon ++ leI 4 h.origin.h ++ [if h.presc then 1 else 0] ++ le 1 h.layers ++ [0, 0] ++
    le 4 h.created.1 ++ le 8 h.created.2 ++ le 8 h.wall ++ le 1 h.wallSt ++ [0, 0, 0] ++ le 4 h.opened.1 ++ le 8 h.opened.2 ++
    le 4 h.closed.1 ++ le 8 h.closed.2 ++ le 4 (s.dis.frames.filter (fun f => f.slot == k)).length ++ le 4 h.marked ++
    le 4 h.overlap ++ le 4 h.unobs ++ le 4 h.unmarked ++ le 4 h.damaged
  let b := padTo 252 b
  b ++ le 4 (crc32 b)

/-- The descriptor of a frame (R163). -/
def Frame.bytes (f : Frame) : Bytes :=
  le 1 f.slot ++ le 1 (bits [f.damaged, f.streamed, f.marked]) ++ le 2 (sat16 f.unobs) ++ leI 2 f.col ++ leI 2 f.row ++ le 4 f.crc ++
    le 4 0

/-- The descriptor of a tile that was never stored. -/
def noDescriptor (col row : Int) : Bytes := [0xFF, 0, 0, 0] ++ leI 2 col ++ leI 2 row ++ List.replicate 8 0

/-- A copy of the repair table (R506): its entries, then their CRC-32, a wrong one where the copy is not valid. -/
def RepairCopy.bytes (c : RepairCopy) : Bytes :=
  let b := c.entries.flatMap (fun r => le 1 r.memory ++ le 1 (b2n r.fuse) ++ le 2 0 ++ le 4 r.row ++ le 4 r.spare ++ le 4 r.boot)
  b ++ le 4 (if c.valid then crc32 b else crc32 b + 1)

/-- An alternating copy of Izcel time and boot number with its CRC-32, a wrong one where the copy is not valid (R37). -/
def EpochCopy.bytes (c : EpochCopy) : Bytes :=
  let b := le 8 c.it ++ le 4 c.boot
  b ++ le 4 (if c.valid then crc32 b else crc32 b + 1)

/-- The final copy (R37): as the others, with the latched AON count, the wall-time offset and whether wall time was set. -/
def FinalCopy.bytes (c : FinalCopy) : Bytes :=
  let b := le 8 c.it ++ le 4 c.boot ++ le 8 c.aon ++ leI 8 c.offset ++ le 1 (b2n c.wallSet)
  b ++ le 4 (if c.valid then crc32 b else crc32 b + 1)

/-- The result of slice `k` as the table keeps it. -/
def State.sliceEntry (s : State) (k : Nat) : Bytes × Bytes :=
  match s.card.results.find? (fun r => r.slice == k) with
  | some r => (le 1 r.result ++ le 1 r.repair ++ le 2 0 ++ le 4 r.boot, le 4 r.sig)
  | none => (le 8 0, le 4 0)

/-- The `n` bytes from byte offset `a` on in the regions of the repair tables, of boot counter and time epoch, and of self-test and
life-cycle (R31, R37, R501, R506). The rules give what stands there and, of the save area and the entries, their layout; the
places within the regions are the model's (Assumption 99). -/
def State.systemBlock (s : State) (a n : Nat) : Bytes :=
  if a < 0xFFA00000 then bytesAt s.card.repA.bytes (a - 0xFF800000) n
  else if a < 0xFFC00000 then bytesAt s.card.repB.bytes (a - 0xFFA00000) n
  else if a < 0xFFC40000 then bytesAt s.time.copyA.bytes (a - 0xFFC00000) n
  else if a < 0xFFC80000 then bytesAt s.time.copyB.bytes (a - 0xFFC40000) n
  else if a < 0xFFD00000 then bytesAt s.time.final.bytes (a - 0xFFC80000) n
  else if a < 0xFFD80000 then List.replicate n 0
  else if a < 0xFFDA0520 then bytesAt (s.sliceEntry ((a - 0xFFD80000) / 8)).1 (a % 8) n
  else if a < 0xFFDB07B0 then bytesAt (s.sliceEntry ((a - 0xFFDA0520) / 4)).2 (a % 4) n
  else if a < 0xFFE00000 then
    bytesAt (s.card.lifeLog.flatMap (fun x => le 4 x.1 ++ le 8 x.2.1 ++ le 1 x.2.2.1 ++ le 1 x.2.2.2 ++ le 2 0)) (a - 0xFFDB07B0) n
  else List.replicate n 0

/-- The `n` bytes of the store from byte offset `a` on, within one record of its region (R31, R163), but for the save area: the hank
directory holds a header of 256 bytes in every 4 KiB, then one descriptor of 16 bytes for each pool frame; the system area follows. -/
def State.regionBlock (s : State) (a n : Nat) : Bytes :=
  if a < 0xFC000000 then Memory.readBlock s.mram a n
  else if a < 0xFC010000 then bytesAt (padTo 4096 (s.hankBytes ((a - 0xFC000000) / 4096))) (a % 4096) n
  else if a < 0xFCE10000 then
    let t := (a - 0xFC010000) / 16
    bytesAt (match s.dis.frames.find? (fun f => f.frame == t) with
      | some f => f.bytes
      | none => noDescriptor 0 0) ((a - 0xFC010000) % 16) n
  else if a < 0xFF800000 then List.replicate n 0
  else s.systemBlock a n

/-- The 256 KiB of the region that MRAM slice `k` covers (R499). -/
def State.sliceRegion (s : State) (k : Nat) : Bytes :=
  (List.range 65536).flatMap (fun i => s.regionBlock ((k - 36) * 262144 + 4 * i) 4)

/-- The `n` bytes of the save area from its offset `a` on (R500, R501): while an MRAM slice is saved, the marker with its number and the
CRC-32 of the copy, and the copy. The region itself is read from the copy until it is restored, so the model keeps its contents in one
place (Assumption 99). -/
def State.saveBlock (s : State) (a n : Nat) : Bytes :=
  match s.savedSlice with
  | none => List.replicate n 0
  | some k =>
    if a < 0x1000 then bytesAt (le 2 1 ++ le 2 k ++ le 4 (crc32 (s.sliceRegion k))) a n
    else if a < 0x41000 then s.regionBlock ((k - 36) * 262144 + (a - 0x1000)) n
    else List.replicate n 0

/-- The `n` bytes of the store from byte offset `a` on, within one record of its region (R31, R163, R501). -/
def State.storeBlock (s : State) (a n : Nat) : Bytes :=
  if 0xFFD00000 ≤ a ∧ a < 0xFFD80000 then s.saveBlock (a - 0xFFD00000) n else s.regionBlock a n

/-- P 0x2311.02: the tile that P 0x2311.01 names, the resident copy where there is one. -/
def State.tileRead (s : State) : Bytes :=
  let k := s.pBytes 0x2311 1
  let slot := natAt k 0 1
  let col := intAt k 2 2
  let row := intAt k 4 2
  let d := match s.frameOf slot col row with
    | some f => s.storeBlock (descriptorAt f.frame) 16
    | none => noDescriptor col row
  let cells := match (if s.power.geo && s.openHank == some slot then s.cached col row else none) with
    | some c => if s.tileDamaged slot col row then List.replicate 4096 4 else c.cells
    | none => if s.tileDamaged slot col row then List.replicate 4096 4 else s.storedCells slot col row
  d ++ cells

/-- The frames an export read returns: up to 15 of the export slot from the cursor, in frame order (P 0x2312.03). -/
def State.exportFrames (s : State) : List Frame :=
  ((s.dis.frames.filter (fun f => f.slot == s.pN 0x2312 1 && decide (s.dis.cursor ≤ f.frame))).mergeSort
    (fun a b => decide (a.frame ≤ b.frame))).take 15

/-- The export block. -/
def State.exportTiles (s : State) : Bytes := s.exportFrames.flatMap (fun f => s.storeBlock (descriptorAt f.frame) 16 ++ s.poolCells f.frame)

/-- The cursor after an export read. -/
def State.exportAdvance (s : State) : State :=
  match s.exportFrames.getLast? with
  | none => s
  | some f => s.modDis (fun d => { d with cursor := min poolFrames (f.frame + 1) })

end Sys2Proof.Machine
end

