-- ==== Sys2Proof/Machine/Marking.lean ====
section
/-! DEFINITION. Distaff's marking (R171 to R177) and the close sequence (R158, R159). -/

namespace Sys2Proof.Machine

/-! ### When marking holds (R172) -/

/-- The Bool in force at `t` by a log whose newest entry stands first. -/
def heldAt (l : List (IT × Bool)) (t : IT) : Bool :=
  match l.find? (fun p => decide (p.1 ≤ t)) with
  | some p => p.2
  | none => false

/-- Whether Roving's state of the frame that `t` falls in lets ground be marked. -/
def State.rovMarks (s : State) (t : IT) : Bool :=
  match s.rov.stateLog.find? (fun p => decide (p.1 ≤ t)) with
  | some p => p.2 == 2 || (p.2 == 3 && s.pB 0x2300 5)
  | none => false

/-- Whether spray at `t` is marked, the hank aside: the device state RUN and Roving's state. -/
def State.sprayCounts (s : State) (t : IT) : Bool := heldAt s.dis.runs t && s.rovMarks t

/-- The output whose intervals nozzle `n` takes: its own, or its feed valve's where its channel is not enabled. -/
def State.sprayOf (s : State) (n : Nat) (z : NozzleEntry) : Option Nat :=
  if s.chEnabled n then some n else if z.feed = 0 then none else some (127 + z.feed)

/-- The intervals of an output. -/
def State.spraysOf (s : State) (o : Nat) : List Spray := vget s.dis.sprays o []

/-- The observed end of an interval as delivered by boundary `b`. -/
def Spray.endAt (x : Spray) (b : IT) : Option IT := if x.since ≤ b then x.stop else none

/-- The time up to which an output's intervals are known, at a boundary (R174): the last closing command while a closing is
outstanding; else the boundary, or the last observed end where that lies ahead. -/
def State.knownOf (s : State) (o : Nat) (b : IT) : IT :=
  let l := s.spraysOf o
  let out := l.filter (fun x => x.cmd.isSome && (x.endAt b).isNone)
  if out.isEmpty then l.foldl (fun m x => max m ((x.endAt b).getD m)) b
  else out.foldl (fun m x => max m (x.cmd.getD 0)) 0

/-- A nozzle's known-until time at a boundary. -/
def State.knownUntil (s : State) (n : Nat) (z : NozzleEntry) (b : IT) : IT :=
  let own := match s.sprayOf n z with | some o => s.knownOf o b | none => b
  if z.feed = 0 then own else min own (s.knownOf (127 + z.feed) b)

/-- The marking horizon at a boundary (R174): the earliest known-until time of the present nozzles. -/
def State.markHorizon (s : State) (b : IT) : IT :=
  let tab := s.nozzles
  let l := (List.range 128).filterMap (fun n => match tab[n]? with
    | some z => if z.present then some (s.knownUntil n z b) else none
    | none => none)
  match l with
  | [] => b
  | t :: ts => ts.foldl min t

/-! ### The sweep accumulator (R173, R175, R176) -/

/-- Set bits of a sub-square mask. -/
def popcount (v : Nat) : Nat := ((List.range 128).filter (fun i => bit v i)).length

/-- An entry settled: none where its tile is not resident, so that the marks wait (R175, R180, R166). -/
def State.settleCell (s : State) (k : Nat) (a : Acc) : Option State :=
  if popcount a.bits.toNat < s.pN 0x2300 1 then some s
  else
    let col := a.x / 64
    let row := a.y / 64
    match s.cached col row with
    | none => none
    | some c =>
      let stored := (s.frameOf k col row).isSome
      let i := (64 * (a.y % 64) + a.x % 64).toNat
      let old := natAt c.cells i 1
      let n := old % 4
      let cells := if n = 3 then c.cells else putAt c.cells i [BitVec.ofNat 8 (old + 1)]
      if c.noAlloc then some (s.modDis (fun d => { d with noMarks := sat32 (d.noMarks + 1) }))
      else if cells = c.cells ∧ !stored then some s
      else if !stored && c.dirty.isNone && s.freeTiles == 0 then
        some ((s.modTile col row (fun x => { x with noAlloc := true })).modDis (fun d => { d with
          exhaust := true, noMarks := sat32 (d.noMarks + 1) }))
      else
        let s := s.modTile col row (fun x => { x with
          cells := cells, dirty := some (x.dirty.getD s.it), changed := s.it, marked := true })
        let s := s.modHank k (fun h => { h with
          marked := sat32 (h.marked + b2n (n == 0)), overlap := sat32 (h.overlap + b2n (n == 1)) })
        some s.poolCheck

/-- The oldest entry settles early; where its tile is not resident its marks are lost with the entry. -/
def State.settleOldest (s : State) (k : Nat) : State :=
  match s.dis.acc with
  | [] => s
  | a :: as =>
    let s := s.modDis (fun d => { d with acc := as, overflow := sat32 (d.overflow + 1) })
    (s.settleCell k a).getD s

/-- Sub-squares ORed into a cell's entry, one made where there is none (R173, R176). -/
def State.accOr (s : State) (k : Nat) (x y : Int) (bs : BitVec 16) (t : IT) : State :=
  if s.dis.acc.any (fun a => a.x == x && a.y == y) then
    s.modDis (fun d => { d with acc := d.acc.map (fun a =>
      if a.x = x ∧ a.y = y then { a with bits := a.bits ||| bs, last := max a.last t } else a) })
  else
    let s := if s.dis.acc.length < 65536 then s else s.settleOldest k
    s.modDis (fun d => { d with acc := d.acc ++ [⟨x, y, bs, t⟩] })

/-- The sub-squares of a cell whose centres lie in a placed footprint. -/
def Place.subs (p : Place) (f : Foot) (mm : Nat) (x y : Int) : BitVec 16 :=
  let u : Int := mm * one18 / 8
  BitVec.ofNat 16 (bits ((List.range 16).map (fun i =>
    p.inFoot f ((8 * x + 2 * (i % 4 : Nat) + 1) * u, (8 * y + 2 * (i / 4 : Nat) + 1) * u))))

/-- The placement at an instant from the poses of the boundaries about it (R173). -/
def State.placeOf (s : State) (t : IT) : Option Place :=
  let j := t / 1000000 * 1000000
  match s.rov.past.find? (fun p => p.1 == j) with
  | none => none
  | some p =>
    match s.rov.past.find? (fun q => q.1 == j + 1000000) with
    | none => some p.2.place
    | some q => some (placeBetween p.2 q.2 (t - j) 1000000)

/-- A footprint at an instant ORed into the accumulator. -/
def State.sweepAt (s : State) (f : Foot) (t : IT) : State :=
  match s.heldHank, s.placeOf t with
  | some k, some p =>
    let mm := (s.hank k).mm
    (p.cells f mm).foldl (fun s c =>
      let b := p.subs f mm c.1 c.2
      if b = 0 then s else s.accOr k c.1 c.2 b t) s
  | _, _ => s

/-! ### One nozzle's intervals at a boundary -/

/-- Spray of nozzle `n` outside RUN or Roving's states: counted in ns, and the episode widened (R172). -/
def State.unmarkedSpray (s : State) (n : Nat) (a c : IT) : State :=
  s.modDis (fun d =>
    let m := 2 ^ n
    { d with
      unmarkedNs := d.unmarkedNs + (c - a),
      episode := some (match d.episode with
        | none => (a, c, m)
        | some (x, y, k) => (min x a, max y c, if bit k n then k else k + m)) })

/-- The instants that cut a window: the boundaries and the changes of marking and of the device state within it. -/
def State.cutsIn (s : State) (a c : IT) : List IT :=
  let bs := (List.range ((c - 1) / 1000000 - a / 1000000)).map (fun i => (a / 1000000 + 1 + i) * 1000000)
  let cs := ((s.dis.opens ++ s.dis.runs).map (·.1)).filter (fun t => decide (a < t ∧ t < c))
  (bs ++ cs).mergeSort (fun x y => decide (x ≤ y))

/-- The pieces of a window between its cuts, in order. -/
def piecesOf : IT → List IT → IT → List (IT × IT)
  | a, [], c => [(a, c)]
  | a, x :: xs, c => if a < x then (a, x) :: piecesOf x xs c else piecesOf a xs c

/-- A window of one nozzle's spray swept or counted. `ta` and `tc` say whether its ends are ends of the interval and not only
of what is known. -/
def State.markWindow (s : State) (n : Nat) (f : Foot) (a c : IT) (ta tc : Bool) : State :=
  if c ≤ a then s
  else (piecesOf a (s.cutsIn a c) c).foldl (fun s p =>
    if !(s.sprayCounts p.1) then s.unmarkedSpray n p.1 p.2
    else if !(heldAt s.dis.opens p.1) || !s.power.geo then s
    else
      let s := if p.1 ≠ a ∨ ta ∨ p.1 % 1000000 = 0 then s.sweepAt f p.1 else s
      if p.2 ≠ c ∨ tc ∨ p.2 % 1000000 = 0 then s.sweepAt f p.2 else s) s

/-- An unobserved end counted in the header and in the descriptor of the tile it falls in, where that tile holds a frame; a frame
that is taken and not yet written to takes the count with its write-back (R171). The centre of the footprint decides the tile
(Assumption 129). -/
def State.countUnobserved (s : State) (f : Foot) (t : IT) : State :=
  match s.heldHank with
  | none => s
  | some k =>
    let s := s.modHank k (fun h => { h with unobs := sat32 (h.unobs + 1) })
    match s.placeOf t with
    | none => s
    | some p =>
      let c := p.centre f
      let u : Int := 64 * (s.hank k).mm * one18
      match s.frameOf k (c.1 / u) (c.2 / u) with
      | none => s.modTile (c.1 / u) (c.2 / u) (fun x =>
          if x.dirty.isSome && !x.noAlloc then { x with unobs := sat16 (x.unobs + 1) } else x)
      | some x => s.modFrame x.frame (fun x => { x with unobs := sat16 (x.unobs + 1) })

/-- When a folded nozzle without an enabled channel leaves marking: the closing that R143 gives it, one frame after the fold took
effect, and its off-delay (R177). A nozzle with a channel leaves with its channel's observed end. -/
def State.leaves (s : State) (n : Nat) (z : NozzleEntry) : Option IT :=
  if s.folded z.segment && !(s.chEnabled n) then some (vget s.rov.foldIt z.segment 0 + 1000000 + (vget s.spd.outs n Output.reset).offDelay) else none

/-- How far an interval is known by an output's known-until time: not past its own closing command while its end is not known. -/
def Spray.reach (x : Spray) (known b : IT) : IT :=
  match x.endAt b with
  | some e => min e known
  | none => match x.cmd with
    | some c => min c known
    | none => known

/-- The end of nozzle `n`'s spray in an interval of its output, as far as known up to `known`: the observed end, or the instant at
which the nozzle leaves marking where that comes first (R177). -/
def State.sprayOver (s : State) (b : IT) (n : Nat) (z : NozzleEntry) (known : IT) (x : Spray) : Option IT :=
  match x.endAt b, s.leaves n z with
  | some q, some l => some (min q l)
  | none, some l => if l ≤ known then some l else none
  | q, none => q

/-- Spray of nozzle `n` that ended at `q` noted for the FOLD-SPRAY record of its segment where it was observed after the fold took
effect (R177). -/
def State.foldNote (s : State) (z : NozzleEntry) (q : IT) : State :=
  let g := z.segment
  if s.rov.fold.getLsbD g && decide (vget s.rov.foldIt g 0 < q) then
    s.modDis (fun d => { d with foldSpray := aput g (max q ((alookup g d.foldSpray).getD 0)) d.foldSpray })
  else s

/-- What one interval of nozzle `n`'s output gives at boundary `b`, the nozzle known up to `known` (R172 to R174, R177). -/
def State.markSpray (s : State) (b : IT) (n : Nat) (z : NozzleEntry) (own : Bool) (known : IT) (x : Spray) : State :=
  let e := min (x.reach known b) b
  let e := match s.leaves n z with | some q => min e q | none => e
  let a := max x.start x.swept
  let f := z.foot
  let ta := x.swept ≤ x.start
  let tc := x.endAt b == some e
  let s := if own && z.feed != 0 then
      (s.spraysOf (127 + z.feed)).foldl (fun s v =>
        let ve := min (v.reach known b) e
        s.markWindow n f (max a v.start) ve (ta || a < v.start) (tc || v.endAt b == some ve)) s
    else s.markWindow n f a e ta tc
  let known := min known b
  let s := match x.endAt b with
    | some q => if q ≤ known ∧ x.unobs ∧ !x.counted then s.countUnobserved f q else s
    | none => s
  match s.sprayOver b n z known x with
  | some q => if q ≤ known ∧ a < q then s.foldNote z q else s
  | none => s

/-- The intervals of an output after a boundary: swept as far as known, old ones dropped. -/
def sprayAdvance (known b : IT) (l : List Spray) : List Spray :=
  (l.map (fun x => { x with
    swept := max x.swept (min (x.reach known b) b),
    counted := x.counted || (match x.endAt b with | some q => decide (q ≤ known ∧ q ≤ b) | none => false) })).filter
    (fun x => match x.endAt b with
      | some q => !(decide (q ≤ known) && decide (q + 4096000000 ≤ b))
      | none => true)

/-- Whether an interval of nozzle `n` goes on as far as it is known: its observed end is not known, or lies ahead (R174, R177). -/
def State.sprays (s : State) (n : Nat) (z : NozzleEntry) (x : Spray) : Bool :=
  match x.endAt s.it with
  | some q => decide (min (s.knownUntil n z s.it) s.it < q)
  | none => true

/-- FOLD-SPRAY records of the segments whose last closing has its observed end (R177). -/
def State.foldRecords (s : State) : State :=
  let tab := s.nozzles
  s.dis.foldSpray.foldl (fun s p =>
    let open_ := (List.range 128).any (fun n => match tab[n]? with
      | some z => z.present && z.segment == p.1 && (match s.leaves n z with
          | some l => decide (s.it < l)
          | none => true) && (match s.sprayOf n z with
          | some o => (s.spraysOf o).any (fun x => s.sprays n z x)
          | none => false)
      | none => false)
    if open_ then s
    else
      let s := s.modDis (fun d => { d with foldSpray := d.foldSpray.filter (fun q => q.1 != p.1) })
      s.record 0x4006 0 (le 1 p.1 ++ le 4 (sat32 (p.2 - vget s.rov.foldIt p.1 0)))) s

/-- Whole nozzle-milliseconds of unmarked spray moved to the counters; the episode's record once every nozzle is known past its
end, so that no spray can widen it any more. -/
def State.unmarkedCount (s : State) : State :=
  let ms := s.dis.unmarkedNs / 1000000
  let s := s.modDis (fun d => { d with unmarkedNs := d.unmarkedNs % 1000000, unmarked := sat32 (d.unmarked + ms) })
  let s := match s.heldHank with
    | some k => s.modHank k (fun h => { h with unmarked := sat32 (h.unmarked + ms) })
    | none => s
  match s.dis.episode with
  | none => s
  | some (a, c, m) =>
    if c < s.dis.horizon then
      (s.modDis (fun d => { d with episode := none })).record 0x4005 0 (le 4 (popcount m) ++ le 4 (sat32 (c - a)))
    else s

/-! ### Settling -/

/-- Whether a placed footprint overlaps a cell. -/
def Place.meets (p : Place) (f : Foot) (mm : Nat) (x y : Int) : Bool :=
  let b := boundsOf (p.corners f)
  let c : Int := mm * one18
  decide (b.1 < (x + 1) * c ∧ x * c < b.2.1 ∧ b.2.2.1 < (y + 1) * c ∧ y * c < b.2.2.2) && decide (0 < p.overlap2 f mm x y)

/-- The footprints that count at P0 (R175, R177): present nozzles, unfolded or still marked until their closing's end. -/
def State.feet (s : State) : List Foot :=
  let tab := s.nozzles
  (List.range 128).filterMap (fun n => match tab[n]? with
    | some z =>
      let busy := match s.leaves n z, s.sprayOf n z with
        | some q, some _ => decide (s.it < q)
        | none, some o => (s.spraysOf o).any (fun x => s.sprays n z x)
        | _, none => false
      if z.present && (!(s.folded z.segment) || busy) then some z.foot else none
    | none => none)

/-- ACCUMULATOR_SETTLE (R175) at boundary `b`: the state and the tiles that marks wait for. Marks wait too while a Carding slice holds
the lap cache (R503). -/
def State.settleAcc (s : State) (b : IT) : State × List (Int × Int) :=
  match s.heldHank with
  | none => (s, [])
  | some k =>
    if !s.hasPose || s.lapHeld then (s, [])
    else
      let mm := (s.hank k).mm
      let p := s.rov.p0.place
      let fs := s.feet
      s.dis.acc.foldl (fun (q : State × List (Int × Int)) a =>
        let s := q.1
        if fs.any (fun f => p.meets f mm a.x a.y) then
          (s.modDis (fun d => { d with acc := d.acc.map (fun c => if c.x = a.x ∧ c.y = a.y then { c with last := b } else c) }), q.2)
        else if s.dis.horizon ≤ a.last then q
        else match s.settleCell k a with
          | none => (s, q.2 ++ [(a.x / 64, a.y / 64)])
          | some s => (s.modDis (fun d => { d with acc := d.acc.filter (fun c => !(c.x == a.x && c.y == a.y)) }), q.2)) (s, [])

/-- Marking at boundary `b`, after Roving published (R172 to R177): the state and the tiles that marks wait for. In conveyor
operation nothing is marked or counted as unmarked (R32). -/
def State.markFrame (s : State) (b : IT) : State × List (Int × Int) :=
  let tab := s.nozzles
  let known := (List.range 128).map (fun n => match tab[n]? with | some z => s.knownUntil n z b | none => b)
  let horizon := s.markHorizon b
  let s1 := (List.range 128).foldl (fun s n => match tab[n]? with
    | none => s
    | some z =>
      if !z.present || s.pB 0x2070 1 then s
      else match s.sprayOf n z with
        | none => s
        | some o => (s.spraysOf o).foldl (fun s x => s.markSpray b n z (o == n) ((known[n]?).getD b) x) s) s
  let s2 := s1.modDis (fun d => { d with
    horizon := horizon,
    sprays := vmapi d.sprays (fun o l =>
      sprayAdvance (if o < 128 then (known[o]?).getD b else s.knownOf o b) b l) })
  let s3 := s2.unmarkedCount.foldRecords
  if !s3.power.geo then (s3, [])
  else
    let r := s3.settleAcc b
    (r.1.modDis (fun d => { d with exhaust := d.cache.any (·.noAlloc) }), r.2)

/-! ### The close sequence and cold start -/

/-- The least recently used tile of the lap cache written back and given up, to make room at a close. -/
def State.giveUp (s : State) (k : Nat) : State :=
  match s.dis.cache with
  | [] => s
  | c :: cs =>
    let v := cs.foldl (fun b x => if x.used < b.used then x else b) c
    (s.writeBack k v).modDis (fun d => { d with cache := d.cache.filter (fun x => !(x.col == v.col && x.row == v.row)) })

/-- An entry settled at the close: a tile that is not resident is filled first, with the check of every fill (R158, R178). -/
def State.settleNow (s : State) (k : Nat) (a : Acc) : State :=
  match s.settleCell k a with
  | some s => s
  | none =>
    let s := (if s.dis.cache.length < s.lapRoom then s else s.giveUp k).putTile k (a.x / 64) (a.y / 64) 0 true
    (s.settleCell k a).getD s

/-- What a cold start leaves of the coverage store (R159, R160): headers that fail their CRC are found damaged, an OPEN slot
is closed with its record, and everything held outside MRAM starts anew. -/
def State.disBoot (s : State) (badHdr : Vector Bool 16) : State :=
  let s := s.modDis (fun d => { Distaff.reset with hanks := d.hanks, frames := d.frames })
  (List.range 16).foldl (fun s k =>
    let h := s.hank k
    if vget badHdr k false then s.modHank k (fun h => { h with state := 4 })
    else if h.state = 2 then
      (s.modHank k (fun h => { h with state := 1, closed := (s.time.boot, s.it) })).record 0x4003 k
        (le 4 h.opened.1 ++ le 8 h.opened.2)
    else s) s |>.poolNote

end Sys2Proof.Machine
end

