-- ==== Sys2Proof/Machine/Spindle.lean ====
section
/-! DEFINITION. Spindle's decisions (R120 to R135, R141 to R151): delays, coverage queries, states, edge times. Placing the
pull-ins stands in Placement.lean. -/

namespace Sys2Proof.Machine

/-- Spindle changed. -/
def State.modSpd (s : State) (f : Spindle → Spindle) : State := { s with spd := f s.spd }

/-- Output `o`: N0 to N127, then H0 to H3. -/
def State.outp (s : State) (o : Nat) : Output := vget s.spd.outs o Output.reset

/-- Output `o` changed. -/
def State.modOut (s : State) (o : Nat) (f : Output → Output) : State :=
  s.modSpd (fun d => { d with outs := vmod d.outs o f })

/-- A counter of P 0x2202.02 to .0B raised by `k`. -/
def State.spdCount (s : State) (i k : Nat) : State :=
  s.modSpd (fun d => { d with counters := vmod d.counters i (fun n => sat32 (n + k)) })

/-- Whether an edge is fixed (R132). -/
def PendEdge.fixed (e : PendEdge) : Bool := bit e.flags 0

/-- A new pending edge. -/
def PendEdge.new (t : IT) (opens : Bool) : PendEdge := ⟨t, opens, 0, 0, t, t⟩

/-- Whether Spindle runs in external mode (R149). -/
def State.external (s : State) : Bool := s.pN 0x2200 2 == 1

/-! ### What is in scheduling (R122, R134) -/

/-- Whether a nozzle is in scheduling. -/
def State.nzScheduled (s : State) (n : Nat) (z : NozzleEntry) : Bool :=
  z.present && !(s.folded z.segment) && bit (natAt (s.pBytes 0x2201 2) (n / 8) 1) (n % 8) &&
    bit (natAt (s.pBytes 0x2201 1) (z.section_ / 8) 1) (z.section_ % 8) &&
    !(s.sup.active.any (fun a => a.code == 0xE007 && a.subj == n && a.resp == 1)) && s.pB 0x2200 1

/-- Whether bridge `h` is a valve assigned to Spindle. -/
def State.valveOwned (s : State) (h : Nat) : Bool := s.pB (0x3500 + h) 1 && s.pN (0x3500 + h) 2 == 1

/-- The nozzles in scheduling that valve `h` feeds. -/
def State.fedBy (s : State) (h : Nat) : List NozzleEntry :=
  (s.nozzles.mapIdx (fun n z => (n, z))).filterMap (fun p =>
    if p.2.feed = h + 1 ∧ s.nzScheduled p.1 p.2 then some p.2 else none)

/-- Whether output `o` is in scheduling. -/
def State.scheduled (s : State) (o : Nat) : Bool :=
  if o < 128 then s.nzScheduled o (s.nozzle o) else s.valveOwned (o - 128) && !(s.fedBy (o - 128)).isEmpty

/-- Whether Spindle schedules output `o` at all: a present nozzle or an assigned valve. -/
def State.isOutput (s : State) (o : Nat) : Bool := if o < 128 then (s.nozzle o).present else s.valveOwned (o - 128)

/-- Whether output `o` is folded: a nozzle of a folded segment. -/
def State.outFolded (s : State) (o : Nat) : Bool := decide (o < 128) && s.folded (s.nozzle o).segment

/-! ### Delays (R127 to R129) -/

/-- The delays of output `o` before the clamp: on and off. -/
def State.rawDelays (s : State) (o : Nat) : Nat × Nat :=
  if o < 128 then ((s.ch o).opening + s.onOffset o, s.closingDelay o + s.offOffset o)
  else (s.pN (0x3500 + (o - 128)) 4 * 1000, s.pN (0x3500 + (o - 128)) 5 * 1000)

/-- The delays that output `o` uses in this frame, held to 2 s, with the record of its first clamp in the boot. -/
def State.setDelays (s : State) (o : Nat) : State :=
  let (a, c) := s.rawDelays o
  let above := decide (2000000000 < a ∨ 2000000000 < c)
  let first := above && !(s.outp o).clampRec
  let s := s.modOut o (fun x => { x with
    onDelay := min a 2000000000, offDelay := min c 2000000000, clamped := above, clampRec := x.clampRec || above })
  s.recordIf (first && decide (o < 128)) 0x3002 o []

/-! ### The coverage fraction (R123, R124, R169) -/

/-- The hank that queries read: the one held while it is marking; every cell is open ground without (R32, R148, R158). -/
def State.mapHank (s : State) : Option Nat := if s.dis.marking then s.heldHank else none

/-- The coverage fraction of a placed footprint, in 10^-18; a cell not allocated or not resident counts as open ground. -/
def State.fraction (s : State) (f : Foot) (p : Place) : Nat :=
  match s.mapHank with
  | none => 0
  | some k =>
    let mm := (s.hank k).mm
    let mask := s.pN 0x2200 5
    let presc := (s.hank k).presc
    let closed := (p.cells f mm).foldl (fun a c => match s.cellAt k c.1 c.2 with
      | some v => if cellClosed mask presc v then a + p.overlap2 f mm c.1 c.2 else a
      | none => a) 0
    if f.area2 = 0 then 0 else closed * 1000000000000000000 / f.area2

/-- Whether a placed footprint lies on ground closed for another reason than the applied count (R126). -/
def State.hardUnder (s : State) (f : Foot) (p : Place) : Bool :=
  match s.mapHank with
  | none => false
  | some k =>
    let mm := (s.hank k).mm
    let mask := s.pN 0x2200 5
    let presc := (s.hank k).presc
    (p.cells f mm).any (fun c => match s.cellAt k c.1 c.2 with
      | some v => cellHard mask presc v && decide (0 < p.overlap2 f mm c.1 c.2)
      | none => false)

/-- The tiles that a placed footprint touches. -/
def State.tilesUnder (s : State) (f : Foot) (p : Place) : List (Int × Int) :=
  match s.mapHank with
  | none => []
  | some k => ((p.cells f (s.hank k).mm).map (fun c => (c.1 / 64, c.2 / 64))).eraseDups

/-- What a look at a placed footprint costs the query unit: one unit for each started block of 12 × 12 cells (R170). -/
def State.unitsUnder (s : State) (f : Foot) (p : Place) : Nat :=
  match s.mapHank with
  | none => 0
  | some k =>
    let b := boundsOf (p.corners f)
    let c : Int := (s.hank k).mm * one18
    let span := fun (lo hi : Int) => cdiv (hi / c - lo / c + 1).toNat 12
    span b.1 b.2.1 * span b.2.2.1 b.2.2.2

/-- The placement at `t` on the path published at boundary `b`. -/
def State.lookPlace (s : State) (b t : IT) : Place :=
  let i := (t - b) / 1000000
  if 2048 ≤ i then (s.poseAt 2048).place else placeBetween (s.poseAt i) (s.poseAt (i + 1)) ((t - b) % 1000000) 1000000

/-- The footprints whose fractions decide output `o`: its own, or under ANY-NOZZLE those of the nozzles it feeds. -/
def State.lookFeet (s : State) (o : Nat) : List Foot :=
  if 128 ≤ o ∧ s.pN 0x2200 15 = 0 then (s.fedBy (o - 128)).map NozzleEntry.foot else (s.footOf o).toList

/-- The deciding fraction: the least of the footprints'. All at or above the off threshold, or any at or below the on
threshold, is the least doing so. -/
def State.lookAt (s : State) (fs : List Foot) (p : Place) : Nat :=
  (fs.map (fun f => s.fraction f p)).foldl min 1000000000000000000

/-- The instant between two looks at which the fraction meets a threshold, by linear interpolation, to 1 µs. -/
def crossAt (t0 t1 v0 v1 thr : Nat) : IT :=
  let d := if v0 ≤ v1 then v1 - v0 else v0 - v1
  let n := if v0 ≤ thr then thr - v0 else v0 - thr
  max t0 (ndiv (if d = 0 then t0 else t0 + (t1 - t0) * n / d) 1000 * 1000)

/-- Whether a fraction lies beyond a threshold: at or above it (`up`), else at or below. -/
def beyond (up : Bool) (thr v : Nat) : Bool := if up then decide (thr ≤ v) else decide (v ≤ thr)

/-- What the query unit's walks of a frame have used so far (R170): cost in footprint-pose units, tiles touched, tiles
waited for; and the NOT-ALLOCATED tiles that the present walk has met (R169). -/
structure Walked where
  units   : Nat
  tiles   : List (Int × Int)
  waited  : List (Int × Int)
  noAlloc : List (Int × Int)
  deriving DecidableEq, Repr

/-- The looks of one walk: fraction, hard ground, centre, tiles and cost at an instant; `away` names the tiles that a look must
wait for, and `bare` the NOT-ALLOCATED ones. -/
structure LookFns where
  frac   : IT → Nat
  hard   : IT → Bool
  centre : IT → Int × Int
  tiles  : IT → List (Int × Int)
  units  : IT → Nat
  away   : List (Int × Int) → List (Int × Int)
  bare   : List (Int × Int) → List (Int × Int)

/-- A look at `t`: the walk goes on with its fraction, or stops where it must wait for a tile or the capacity of the frame,
1,400,000 units, is used up (R170). -/
def LookFns.see (q : LookFns) (u : Walked) (t : IT) : Walked × Option Nat :=
  let l := q.tiles t
  let out := q.away l
  let u := { u with units := u.units + q.units t, tiles := (l ++ u.tiles).eraseDups, waited := (out ++ u.waited).eraseDups,
                    noAlloc := (q.bare l ++ u.noAlloc).eraseDups }
  (u, if out.isEmpty && decide (u.units ≤ 1400000) then some (q.frac t) else none)

/-- The first instant after `t` at which the fraction meets the threshold, `v` being its value at `t` (R130); none where the walk
was not completed. -/
def crossGo (q : LookFns) (up : Bool) (thr : Nat) (last : IT) : Nat → Walked → IT → Nat → Walked × Option (Option IT)
  | 0, u, _, _ => (u, some none)
  | fuel + 1, u, t, v =>
    if last ≤ t then (u, some none)
    else
      let t1 := min last (nextBoundary t)
      match q.see u t1 with
      | (u, none) => (u, none)
      | (u, some v1) =>
        if beyond up thr v1 then (u, some (some (crossAt t t1 v v1 thr))) else crossGo q up thr last fuel u t1 v1

/-- The distance between two field points. -/
def dist (a b : Int × Int) : Nat := isqrt (((a.1 - b.1) ^ 2 + (a.2 - b.2) ^ 2).toNat)

/-- The search for t_y from `t`, with the fraction, centre, path length and span flag so far: the span flag where the
fraction crosses back within less than `lim` of path (R126, R170); none where the walk was not completed. -/
def backGo (q : LookFns) (up : Bool) (thr : Nat) (last : IT) (lim : Nat) :
    Nat → Walked → IT → Nat → Int × Int → Nat → Bool → Walked × Option (Option (IT × Bool))
  | 0, u, _, _, _, _, _ => (u, some none)
  | fuel + 1, u, t, v, c, len, hard =>
    if last ≤ t then (u, some none)
    else
      let t1 := min last (nextBoundary t)
      match q.see u t1 with
      | (u, none) => (u, none)
      | (u, some v1) =>
        if beyond up thr v1 then
          let ty := crossAt t t1 v v1 thr
          (u, some (if len + dist c (q.centre ty) < lim then some (ty, hard || q.hard ty) else none))
        else
          let c1 := q.centre t1
          let len1 := len + dist c c1
          if lim ≤ len1 then (u, some none) else backGo q up thr last lim fuel u t1 v1 c1 len1 (hard || q.hard t1)

/-- The looks of output `o` on the path published at boundary `b`; with `miss` no tile is waited for, and those not resident are
open ground (R146). -/
def State.lookFns (s : State) (b : IT) (o : Nat) (miss : Bool) : LookFns :=
  let fs := s.lookFeet o
  { frac := fun t => s.lookAt fs (s.lookPlace b t),
    hard := fun t => fs.any (fun f => s.hardUnder f (s.lookPlace b t)),
    centre := fun t => match s.footOf o with
      | some f => (s.lookPlace b t).centre f
      | none => (0, 0),
    tiles := fun t => fs.flatMap (fun f => s.tilesUnder f (s.lookPlace b t)),
    units := fun t => (fs.map (fun f => s.unitsUnder f (s.lookPlace b t))).foldl (· + ·) 0,
    away := fun l => if miss then [] else l.filter (fun c => (s.cached c.1 c.2).isNone),
    bare := fun l => l.filter (fun c => match s.cached c.1 c.2 with | some x => x.noAlloc | none => false) }

/-! ### One output in one frame (R130, R131) -/

/-- A threshold in percent as a fraction in 10^-18. -/
def pct18 (p : Nat) : Nat := p * 10000000000000000

/-- The edge that output `o` plans for a crossing seen ahead (R130); a deferred opening keeps the start it was deferred from. -/
def State.planEdge (s : State) (o : Nat) (up : Bool) (te : IT) : State :=
  s.modOut o (fun x => { x with edge := some (match x.edge with
    | some e => if e.opens && !up && bit e.flags 2 then { PendEdge.new te true with refIt := e.refIt, flags := 4 }
      else PendEdge.new te (!up)
    | none => PendEdge.new te (!up)) })

/-- What a completed walk finds (R130): the crossing t_x if there is one, and with it t_y and the span flag where coverage turns back
soon. -/
abbrev WalkFound : Type := Option (IT × Option (IT × Bool))

/-- What a walk answers (R169): none where it was not completed; else what it found and how many NOT-ALLOCATED tiles it met. -/
abbrev WalkAnswer : Type := Option (WalkFound × Nat)

/-- The search of the walk for output `o` at boundary `b` (R130, R170). -/
def State.walkGo (s : State) (b : IT) (o : Nat) (miss : Bool) (u : Walked) : Walked × Option WalkFound :=
  let x := s.outp o
  let up := x.on
  let ts := b + 1000000 + (if up then x.offDelay else x.onDelay)
  let last := b + 2048000000
  let q := s.lookFns b o miss
  let thr := pct18 (s.pN 0x2200 (if up then 3 else 4))
  match q.see u ts with
  | (u, none) => (u, none)
  | (u, some v0) =>
    match (if beyond up thr v0 then (u, some (some ts)) else crossGo q up thr last 2050 u ts v0) with
    | (u, none) => (u, none)
    | (u, some none) => (u, some none)
    | (u, some (some tx)) =>
      let lim := s.pN 0x2200 (if up then 7 else 6) * one18.toNat
      let (u, back) := backGo q (!up) (pct18 (s.pN 0x2200 (if up then 4 else 3))) last lim 2050 u tx (q.frac tx) (q.centre tx) 0
        (q.hard tx)
      (u, back.map (fun y => some (tx, y)))

/-- The walk for output `o` at boundary `b` (R169). -/
def State.walk (s : State) (b : IT) (o : Nat) (miss : Bool) (u : Walked) : Walked × WalkAnswer :=
  let r := s.walkGo b o miss { u with noAlloc := [] }
  (r.1, r.2.map (fun f => (f, r.1.noAlloc.length)))

/-- R131 for output `o`: what a completed walk's answer makes of its pending edge. -/
def State.answered (s : State) (o : Nat) (r : WalkFound) : State :=
  let x := s.outp o
  let d := if x.on then x.offDelay else x.onDelay
  match r with
  | none => s.modOut o (fun x => { x with edge := none, wait := false })
  | some (tx, some (ty, hard)) =>
    if x.on && hard then s.planEdge o x.on (tickNs (tickDown (tx - d)))
    else (s.modOut o (fun x => { x with bridged := ty, edge := none, shown := 5 })).spdCount 6 1
  | some (tx, none) => s.planEdge o x.on (tickNs (tickDown (tx - d)))

/-- An output whose walk was not completed keeps its pending edge and is HELD; after P 0x2200.0E such frames it is walked with the
missing tiles as open ground (R146). -/
def State.heldOutput (s : State) (b : IT) (o : Nat) (u : Walked) : State × Walked :=
  let s := (s.modOut o (fun x => { x with late := x.late + 1 })).spdCount 7 1
  if (s.outp o).late ≤ s.pN 0x2200 14 then (s.modOut o (fun x => { x with shown := 4 }), u)
  else
    let s := (s.recordIf (!(s.outp o).lateRec) 0x3008 0 []).modOut o (fun x => { x with lateRec := true })
    match s.walk b o true u with
    | (u, none) => (s.modOut o (fun x => { x with shown := 4 }), u)
    | (u, some r) => (s.answered o r.1, u)

/-- R130 and R131 for output `o` at boundary `b`. A bridged output asks no query, so what it waited on starts anew (R146). -/
def State.evaluate (s : State) (b : IT) (o : Nat) (u : Walked) : State × Walked :=
  let x := s.outp o
  if b + 1000000 + (if x.on then x.offDelay else x.onDelay) < x.bridged then
    (s.modOut o (fun x => { x with shown := 5, late := 0, lateRec := false }), u)
  else match s.walk b o false u with
    | (u, none) => s.heldOutput b o u
    | (u, some r) => ((s.modOut o (fun x => { x with late := 0, lateRec := false })).answered o r.1, u)

/-- The pending edge withdrawn, and a closing edge at the earliest boundary for an output that is on (R122, R141). -/
def State.closeNow (s : State) (b : IT) (o : Nat) : State :=
  s.modOut o (fun x => { x with edge := if x.on then some (PendEdge.new (b + 1000000) false) else none })

/-! ### Spindle's state (R141, R142, R144, R145) -/

/-- The state at a boundary in RUN. At entry to RUN and after DISABLED the module is in STANDSTILL below P 0x2200.08 alone: between
that speed and the one that ends a standstill the manual gives the start no value (Assumption 114). 2 SCHEDULING, 3 NO-POSE, 4 STANDSTILL, 5 REVERSE-CLOSED, 6 POSITION-HOLD, 7 EXTERNAL,
8 DISABLED. -/
def State.spdNext (s : State) : Nat :=
  let ext := s.external
  let v := s.rov.p0.vx.natAbs
  let low := s.pN 0x2200 8
  let ready := decide (low + s.pN 0x2200 9 ≤ v) && (!s.rov.rev || s.pN 0x2200 10 == 1)
  let stopped := s.spd.state == 3 || s.spd.state == 4 || s.spd.state == 5
  if !(s.pB 0x2200 1) then 8
  else if !ext && decide (s.rov.state < 2) then 3
  else if !ext && s.rov.state == 4 then 6
  else if s.rov.rev && s.pN 0x2200 10 == 0 then 5
  else if (if stopped then !ready else decide (v < low)) then 4
  else if ext then 7
  else 2

/-- The state entered, with its record. DISABLED ends a position-loss hold, and Spindle enabled again while Roving is LOST begins a new
one (Assumption 128). -/
def State.spdEnterState (s : State) (b : IT) : State :=
  let n := s.spdNext
  let old := s.spd.state
  let s := s.modSpd (fun d => { d with state := n, holding := n == 6, holdIt := if n = 6 ∧ old ≠ 6 then b else d.holdIt })
  let s := s.recordIf (n == 3 && old != 3) 0x3006 0 []
  s.recordIf (n == 6 && old != 6) 0x3007 0 []

/-! ### External mode (R149, R150) -/

/-- The sections of output `o`: a nozzle's own, a valve's those of the nozzles it feeds. -/
def State.sectionsOf (s : State) (o : Nat) : List Nat :=
  if o < 128 then [(s.nozzle o).section_]
  else ((s.nozzles.filter (fun z => z.present && z.feed == o - 127)).map (·.section_)).eraseDups

/-- What output `o`'s last section state asks for at boundary `b` (R149): nothing while it stands or has its edge, else an edge at
t_rx + lead - d, or at the earliest boundary where that is too late. A section state that meets a fixed edge is served after it
(Assumption 87). -/
def State.sectionEdge (s : State) (b : IT) (o : Nat) (on : Bool) (rx : IT) : State :=
  let x := s.outp o
  if x.on == on then s.modOut o (fun x => { x with edge := none })
  else if (match x.edge with | some e => e.opens == on | none => false) then s
  else
    let lead := s.pN 0x2200 (if on then 16 else 17) * 1000000
    let d := if on then x.onDelay else x.offDelay
    let b1 := b + 1000000
    if rx + lead < b1 + d then
      (s.modOut o (fun x => { x with edge := some { PendEdge.new b1 on with flags := 16 } })).spdCount 8 1
    else s.modOut o (fun x => { x with edge := some (PendEdge.new (tickNs (tickDown (rx + lead - d))) on) })

/-- The section states received before boundary `b` noted for their outputs, oldest first; each ends a timeout (R149, R150). -/
def State.sectionStates (s : State) (b : IT) : State :=
  let now := s.spd.secs.filter (fun c => decide (c.rx < b))
  let s := s.modSpd (fun d => { d with secs := d.secs.filter (fun c => decide (b ≤ c.rx)) })
  now.foldl (fun s c =>
    (List.range 132).foldl (fun s o =>
      if s.isOutput o && (s.sectionsOf o).contains c.sec then
        s.modOut o (fun x => { x with ext := some (c.on, c.rx), extOut := false, edge := match x.edge with
          | some e => if e.fixed then x.edge else none
          | none => none })
      else s) s) s

/-- When output `o` times out, if it does: P 0x2200.12 after the last state of one of its sections, or after the entry to RUN
(R150). -/
def State.outputEnds (s : State) (o : Nat) : Option IT :=
  if s.pN 0x2200 18 = 0 ∨ (s.outp o).extOut ∨ !(s.isOutput o) then none
  else
    let seen := (s.sectionsOf o).foldl (fun m c => match vget s.spd.secSeen c none with
      | some t => max m t
      | none => m) s.power.entered
    some (seen + s.pN 0x2200 18 * 1000000)

/-- The outputs that timed out close and stay closed; one EXTERNAL-TIMEOUT record. -/
def State.outputsOut (s : State) (out : Nat → Bool) : State :=
  (s.modSpd (fun d => { d with outs := vmapi d.outs (fun o x =>
    if out o then { x with extOut := true, ext := none } else x) })).record 0x300B 0 []

/-- EXTERNAL_TIMEOUT: the earliest timeout of an output falls due (R150). The closing edges follow at the next boundary. -/
def execExternalTimeout (s : State) : Host.Outcome State Fault Refusal :=
  .next (if s.power.dev ≠ .run || !s.external then s
    else
      match (List.range 132).filterMap s.outputEnds with
      | [] => s
      | t :: ts =>
        let t := ts.foldl min t
        (s.at t).outputsOut (fun o => match s.outputEnds o with
          | some e => decide (e ≤ max s.it t)
          | none => false))

/-! ### The frame (R18 step 4) -/

/-- An executed fixed edge becomes the current decision (R121). -/
def Output.advance (x : Output) (b1 : IT) : Output :=
  match x.edge with
  | some e => if e.fixed && decide (e.it ≤ b1) then { x with on := e.opens, edge := none } else x
  | none => x

/-- An output that is not queried in a frame: what it waited on starts anew (R146). -/
def State.unqueried (s : State) (o : Nat) : State := s.modOut o (fun x => { x with late := 0, lateRec := false })

/-- Output `o` in external mode: closed while timed out, else as its last section state asks (R149, R150). -/
def State.externalOutput (s : State) (b : IT) (o : Nat) : State :=
  if (s.outp o).extOut then s.closeNow b o
  else match (s.outp o).ext with
    | some (on, rx) => s.sectionEdge b o on rx
    | none => s

/-- Output `o` at boundary `b` (R122, R130, R141 to R149). -/
def State.spdOutput (s : State) (b : IT) (o : Nat) (u : Walked) : State × Walked :=
  let lost := decide (o < 128) && (s.die (o / 32)).state == 2
  let s := s.modOut o (fun x =>
    let x := x.advance (b + 1000000)
    { x with shown := 0, on := x.on && !lost })
  let fixed := match (s.outp o).edge with | some e => e.fixed | none => false
  let st := s.spd.state
  if !(s.isOutput o) then
    (((if fixed then s else s.closeNow b o).unqueried o).modOut o (fun x => { x with shown := if o < 128 then 2 else 0 }), u)
  else if !(s.scheduled o) then
    (((if fixed then s else s.closeNow b o).unqueried o).modOut o (fun x => { x with
      shown := if s.outFolded o then 3 else 2, wait := false }), u)
  else if fixed then (s.unqueried o, u)
  else if st = 3 ∨ st = 4 ∨ st = 5 ∨ st = 8 then ((s.closeNow b o).unqueried o, u)
  else if st = 6 then ((s.modOut o (fun x => { x with edge := none })).unqueried o, u)
  else if st = 7 then ((s.externalOutput b o).unqueried o, u)
  else s.evaluate b o u

/-- LAST-UNOBSERVED of an output: whether the last closing of its channel was not observed (R128). -/
def State.settleUnobs (s : State) (o : Nat) (x : Output) : Output := { x with unobs := decide (o < 128) && (s.ch o).lastUnobs }

/-- What step 7 publishes of an output: its state code of P 0x2203.04 or .06, and the flags of its channel (R154). -/
def State.settleOut (s : State) (o : Nat) (x : Output) : Output :=
  { s.settleUnobs o x with
    shown := if x.shown ≠ 0 then x.shown else if x.wait then 6 else b2n x.on, learned := decide (o < 128) && (s.ch o).accepted }

/-- LAST-UNOBSERVED follows the closings of BARE and of a shutdown too, while Spindle stands (R128). -/
def State.spdStands (s : State) : State := s.modSpd (fun d => { d with outs := vmapi d.outs (fun o x => s.settleUnobs o x) })

/-- The NO-HANK record: at entry to RUN without a hank, and when one closes in RUN (R148). -/
def State.noHankNote (s : State) : State :=
  if s.external then s
  else
    let now := s.mapHank.isNone
    let s := s.recordIf (now && !s.spd.noHank) 0x300A 0 []
    s.modSpd (fun d => { d with noHank := now })

/-- The NOT-ALLOCATED tiles within the swept envelope (R147). -/
def State.poolExhausted (s : State) : State :=
  match s.mapHank with
  | none => s
  | some k =>
    let env := s.envelopeTiles (s.hank k).mm
    let n := (s.dis.cache.filter (fun c => c.noAlloc && env.contains (c.col, c.row))).length
    if n = 0 then s else (s.record 0x3009 0 (le 4 n)).spdCount 9 n

/-- What the frame's walks leave behind: the tiles they used (R180), and those they had to wait for, whether these came in step 4
or are still missing (R179). -/
def State.walkNote (s : State) (fills : List FillIn) (u : Walked) : State :=
  let came := (fills.map (fun f => (f.col, f.row))).eraseDups.filter (fun c => u.tiles.contains c)
  let n := came.length + (u.waited.filter (fun c => !(came.contains c))).length
  s.modDis (fun d => { d with walked := u.tiles, late := d.late || decide (0 < n), misses := sat32 (d.misses + n) })

/-- A channel that its drive die closed: the decision is OFF from then on, and pulses of that run still to come are not made
(R238). A fixed opening after the closing stays. -/
def State.takeDieClosing (s : State) (n : Nat) : State :=
  match (s.ch n).dieClosed with
  | none => s
  | some t =>
    let keep := match (s.outp n).edge with
      | some e => if e.fixed && e.opens && decide (t < e.it) then some e else none
      | none => none
    let stays := fun (e : DieEdge) => match keep with | some k => decide (k.it ≤ e.it) | none => false
    let s := s.modCh n (fun c => { c with dieClosed := none, edges := c.edges.filter stays })
    let s := s.modBank (n / 8) (fun k => { k with slots := k.slots.filter (fun r => r.ch != n || decide (r.start ≤ t) ||
      (match keep with | some e => decide (e.it ≤ r.start) | none => false)) })
    let s := s.modOut n (fun x => { x with on := false, edge := keep })
    { s with spd := { s.spd with waiting := s.spd.waiting.filter (fun p => p.ch != n || keep.isSome) },
             rate := { s.rate with nz := vmod s.rate.nz n (fun z =>
               if keep.isSome then z else { z with carry := 0, next := none, dry := false }) } }

/-- A valve whose opening the budget shed is closed to Spindle, as a channel that its die closed is (R310). -/
def State.takeValveShed (s : State) (h : Nat) : State :=
  match (s.br h).shedNote with
  | none => s
  | some t =>
    let keep := match (s.outp (128 + h)).edge with
      | some e => if e.fixed && e.opens && decide (t < e.it) then some e else none
      | none => none
    (s.modBr h (fun x => { x with shedNote := none })).modOut (128 + h) (fun x => { x with on := false, edge := keep })

/-- SPINDLE_EVALUATE at boundary `b` in RUN, with the tile fills that completed while its queries ran. -/
def State.spdEvaluate (s : State) (b : IT) (fills : List FillIn) : State :=
  let s := (List.range 4).foldl State.takeValveShed ((List.range 128).foldl State.takeDieClosing s)
  let s := ((List.range 132).foldl (fun s o => s.setDelays o) s).spdEnterState b
  let s := fills.foldl State.fillDone s.noHankNote
  let s := if s.external then s.sectionStates b else s
  let r := (List.range 132).foldl (fun (p : State × Walked) o => p.1.spdOutput b o p.2) (s.poolExhausted, ⟨0, [], [], []⟩)
  r.1.walkNote fills r.2

/-- The work state of each section: whether the observed state of one of its nozzles is on at `b` (R151). -/
def State.workStates (s : State) (b : IT) : State :=
  let tab := s.nozzles
  let onNow := fun o => (s.spraysOf o).any (fun x => decide (x.start ≤ b) && (match x.stop with
    | some e => decide (b < e)
    | none => true))
  let secs := (List.range 128).filterMap (fun n => match tab[n]? with
    | some z =>
      let own := match s.sprayOf n z with | some o => onNow o | none => false
      if z.present && own then some z.section_ else none
    | none => none)
  s.modSpd (fun d => { d with work := vgen 256 (fun c => secs.contains c) })

/-! ### Device states (R120, R121) -/

/-- Every edge that Spindle handed over and that is not yet executed is discarded (R459, R470). -/
def State.dropEdges (s : State) : State :=
  { s with chan := s.chan.map (fun c => { c with edges := [] }),
           bridges := s.bridges.map (fun x => { x with edges := [] }),
           banks := s.banks.map (fun x => { x with slots := [] }) }

/-- Whether output `o` is on now. -/
def State.outNow (s : State) (o : Nat) : Bool :=
  if o < 128 then (s.ch o).state == 1 || (s.ch o).state == 2
  else let v := (vget s.bridges (o - 128) Bridge.reset).valve; v == 1 || v == 3

/-- An output without decision and edge; what P 0x2203.01 to .03 last published of it stays (R154). -/
def Output.rest (x : Output) : Output :=
  { Output.reset with
    clampRec := x.clampRec, onDelay := x.onDelay, offDelay := x.offDelay, clamped := x.clamped, unobs := x.unobs, learned := x.learned }

/-- Entry to RUN: the present output states become the current decisions, without pending edges. -/
def State.spdRun (s : State) : State :=
  s.modSpd (fun d => { d with
    state := 1, noHank := false, secs := [], waiting := [],
    secSeen := Vector.replicate 256 none,
    outs := vmapi d.outs (fun o x => { x.rest with on := s.outNow o }) })

/-- Every other state: Spindle is idle and keeps no pending edge. -/
def State.spdIdle (s : State) : State :=
  s.modSpd (fun d => { d with
    state := 1, holding := false, noHank := false, secs := [], waiting := [],
    outs := d.outs.map Output.rest })

/-- The GEO domain stops: NOT-STARTED; counters and what was recorded once per boot stay. -/
def State.spdStop (s : State) : State := s.spdIdle.modSpd (fun d => { d with state := 0 })

end Sys2Proof.Machine
end

