-- ==== Sys2Proof/Machine/Rate.lean ====
section
/-! DEFINITION. The rate and dose computer (R183 to R209): flows, duties, the pulse lattice, headroom requests, meters,
conveyor dosing and what it reports. -/

namespace Sys2Proof.Machine

/-- The rate computer changed. -/
def State.modRate (s : State) (f : RateDose → RateDose) : State := { s with rate := f s.rate }

/-- The rate state of nozzle `n`. -/
def State.rz (s : State) (n : Nat) : RateNz := vget s.rate.nz n RateNz.reset

/-- The rate state of nozzle `n` changed. -/
def State.modRz (s : State) (n : Nat) (f : RateNz → RateNz) : State :=
  s.modRate (fun r => { r with nz := vmod r.nz n f })

/-- A counter of P 0x2402.08 to .0B raised. -/
def State.rateCount (s : State) (i : Nat) : State :=
  s.modRate (fun r => { r with counters := vmod r.counters i (fun k => sat32 (k + 1)) })

/-- A finite binary32 word in units of 10^-18. -/
def fxOf (x : F32) : Int := f32ToInt x 1000000000000000000

/-- A fixed-point value as a binary32 word. -/
def f32Of18 (x : Int) : F32 := f32OfRat x 1000000000000000000

/-- A parameter in use as a fixed-point value. -/
def State.pFx (s : State) (idx sub : Nat) : Int := fxOf (s.pF idx sub)

/-! ### Modes (R183) -/

/-- The rate mode. -/
def State.rateMode (s : State) : Nat := s.pN 0x2400 1

/-- Whether nozzle `n` runs in pulses: a PWM nozzle in NOZZLE-PWM mode, or in CONVEYOR mode without a flow loop. -/
def State.pwm (s : State) (n : Nat) : Bool :=
  (s.rateMode == 1 || (s.rateMode == 4 && s.pN 0x2400 17 == 0)) && s.pEl 0x2401 1 1 n == 0

/-! ### Target rate and flow (R185 to R187) -/

/-- The target rate of nozzle `n` at boundary `b` (R185). The zone of a tile that is not resident is not stated: a free value
(Assumption 88). -/
def State.targetRate (s : State) (b : IT) (n : Nat) : F32 :=
  let base := s.pF 0x2400 3
  match s.heldHank, s.footOf n with
  | some k, some f =>
    let h := s.hank k
    if !h.presc then base
    else
      let c := (s.lookPlace b (b + 1000000 + (s.outp n).onDelay)).centre f
      let u : Int := h.mm * one18
      let (x, y) := (c.1 / u, c.2 / u)
      let zone := fun (v : Byte) => if v.toNat / 16 = 0 then 0 else s.pElF 0x2400 4 (v.toNat / 16 - 1)
      match s.cellAt k x y with
      | some v => zone v
      | none => if (s.cached (x / 64) (y / 64)).isSome then base else zone (Config.missingCell x y)
  | _, _ => base

/-- The required flow of nozzle `n` in mL/min for target rate `r`, and whether its speed is negative where it matters
(R186). -/
def State.reqFlow (s : State) (n : Nat) (r : F32) : Int × Bool :=
  let v := vget s.rov.local_ n 0
  let r := fxOf r
  match s.pN 0x2400 2 with
  | 0 => (r * (s.nozzle n).width * max v 0 * 6 / 1000000000, decide (v < 0))
  | 1 => (r, false)
  | 2 => (r * 6 * max v 0 / 100, decide (v < 0))
  | _ => (0, false)

/-- The pressure used in kPa, the filtered measurement that reference 1 of the pressure loop tracks, and whether the granted
set-point stands in for an invalid one (R187). -/
def State.pressure (s : State) : F32 × Bool :=
  let w := s.pN 0x2400 6
  if w = 0 then (s.pF 0x2400 7, false)
  else if s.measInvalid (w - 1) then (vget (s.lp (w - 1)).granted 0 0, true)
  else (vget (s.lp (w - 1)).filt (s.tracking (w - 1) 0).2 0, false)

/-- The flow of nozzle `n` fully open at pressure `p`, in mL/min (R187). -/
def State.fullFlow (s : State) (n : Nat) (p : Int) : Int :=
  fxMul (fxOf (s.pElF 0x2401 3 n)) (fxPow (fxDiv p (fxOf (s.pElF 0x2401 4 n))) (s.pFx 0x2400 5))

/-- The total flow of conveyor dosing in mL/min (R202), the HOST throughput `stale` or not. -/
def State.conveyorFlow (s : State) (stale : Bool) : Int :=
  let r := s.pFx 0x2400 3
  let v := (s.conveyorPose).vx
  if s.pN 0x2400 2 = 2 then r * 6 * v / 100
  else
    let m := if s.pN 0x240A 1 = 1 then s.pFx 0x240A 3 * v * 36 / 10000000 else if stale then 0 else s.pFx 0x240A 2
    fxDiv (fxMul r m) (s.pFx 0x240A 4) / 60

/-- The end of the reservation span of the frame that begins at `b` (R132). -/
def State.spanEnd (s : State) (b : IT) : IT := b + 2000000 + s.pN 0x2200 13 * 1000

/-- Whether the decision of nozzle `n` is ON in the frame at `b`, or becomes ON by an opening edge in its span (R202;
Assumption 137). -/
def State.onIn (s : State) (b : IT) (n : Nat) : Bool :=
  (s.outp n).on || (match (s.outp n).edge with
    | some e => e.opens && decide (e.it ≤ s.spanEnd b)
    | none => false)

/-- The PWM nozzles whose decision is ON. -/
def State.onPwm (s : State) (b : IT) : List Nat :=
  (List.range 128).filter (fun n => s.pwm n && (s.nozzle n).present && s.onIn b n)

/-- What a nozzle's frame is computed from: target rate, required flow, full flow, required duty (10^-18). -/
structure Need where
  target : F32
  flow   : Int
  full   : Int
  duty   : Int
  rev    : Bool
  deriving DecidableEq, Repr

/-- D = q / qf (R187); for a nozzle without a reference flow it is not stated: a free value (Assumption 88). -/
def dutyOf (n : Nat) (q full : Int) : Int := if full ≤ 0 then (Config.dutyWithoutFlow n : Int) else fxDiv q full

/-- The needs of nozzle `n` (R185 to R187, R202). -/
def State.need (s : State) (b : IT) (p : Int) (share : Int) (n : Nat) : Need :=
  let full := s.fullFlow n p
  if s.rateMode = 4 then
    let q := if s.pwm n && s.onIn b n then share else 0
    ⟨s.pF 0x2400 3, q, full, dutyOf n q full, false⟩
  else
    let t := s.targetRate b n
    let (q, r) := s.reqFlow n t
    ⟨t, q, full, dutyOf n q full, r⟩

/-! ### The lattice (R190, R196, R207) -/

/-- The normal period of nozzle `n` in ticks. -/
def State.latT (s : State) (n : Nat) : Nat := ndiv 160000000 (s.pEl 0x2401 2 1 n)

/-- The phase in ticks. -/
def State.latPhase (s : State) (n : Nat) : Nat :=
  let t := s.latT n
  match s.pN 0x2400 16 with
  | 0 => t * (16 * (n % 8) + 4 * (n / 8 % 4) + n / 32) / 128
  | 1 => 0
  | _ => t * s.pEl 0x2401 7 2 n / 65536

/-- The divisor planned for nozzle `n`'s die. -/
def State.latDiv (s : State) (n : Nat) : Nat := if 3 ≤ vget s.therm.plan (n / 32) 0 then max 1 (s.pN 0x1500 18) else 1

/-- The first lattice point at or after `t`, in ticks. -/
def State.latPoint (s : State) (n : Nat) (t : IT) : Nat :=
  let step := s.latT n * s.latDiv n
  let k := tickUp t
  let f := s.latPhase n
  if k ≤ f then f else f + cdiv (k - f) step * step

/-! ### One period (R188, R189, R194) -/

/-- t_min of nozzle `n` in ns. -/
def State.tMin (s : State) (n : Nat) : Nat := (s.ch n).opening + s.pEl 0x2401 6 2 n * 10000

/-- Spray time minus on-time. -/
def State.lag (s : State) (n : Nat) : Int := ((s.outp n).offDelay : Int) - (s.outp n).onDelay

/-- The top of a period of length `p`. -/
def State.top (s : State) (n p : Nat) : Int :=
  min ((s.pN 0x2400 8 * p / 100 : Nat) : Int) ((p : Int) - s.closingDelay n - 500000 + s.lag n)

/-- Whether nozzle `n` has no usable duty range at its frequency: judged at its normal period (R189). -/
def State.noRange (s : State) (n : Nat) : Bool :=
  decide (s.top n (tickNs (s.latT n * s.latDiv n)) < (s.tMin n : Int) + s.lag n)

/-- The outcome of a period: its on-time if a pulse is made, the carry left, and the flags SATURATED, HELD, STRETCHED and
NO-RANGE. -/
structure Period where
  onTime  : Option Nat
  carry   : Nat
  sat     : Bool
  held    : Bool
  stretch : Bool
  noRange : Bool
  deriving DecidableEq, Repr

/-- The period computation of R188 with the rules of R191 and R194; `noRange` says that the nozzle has no usable duty range at its
frequency (R189). -/
def ratePeriod (want : Int) (tMin : Nat) (lag top : Int) (noRange stretch first : Bool) (carry : Nat) : Period :=
  if noRange then ⟨none, carry, false, false, false, true⟩
  else if want ≤ 0 then ⟨none, 0, false, false, false, false⟩
  else
    let sat := decide (top < want)
    let w := min want top
    let on := w - lag
    if (tMin : Int) ≤ on then ⟨some on.toNat, 0, sat, false, false, false⟩
    else if stretch || first then ⟨some tMin, 0, sat, false, true, false⟩
    else ⟨none, w.toNat, sat, true, false, false⟩

/-- The spray that D asks of a period of length `p`. -/
def sprayWanted (d : Int) (p : Nat) : Nat := (rdiv (d * p) 1000000000000000000).toNat

/-- The spray wanted in a pulse's period (D × P). -/
def PulsePlan.wanted (p : PulsePlan) : Nat := sprayWanted p.duty p.period

/-- A period noted: flags and counters; one without a pulse has no on-time (R195, R209). -/
def State.notePeriod (s : State) (n : Nat) (o : Period) : State :=
  let was := bit (s.rz n).flags 4
  let s := s.modRz n (fun z => { z with
    carry := o.carry, onTime := if o.onTime.isSome then z.onTime else 0,
    flags := bits [o.sat, o.held, o.stretch, bit z.flags 3, o.noRange] })
  let s := if o.sat then s.rateCount 0 else s
  let s := if o.held then s.rateCount 1 else s
  let s := if o.stretch then s.rateCount 2 else s
  s.recordIf (o.noRange && !was) 0x5001 0 []

/-- A placed pulse noted: its effective duty and on-time (R195, P 0x2403.03 and .04). -/
def State.notePulse (s : State) (p : PulsePlan) : State :=
  let eff := if p.period = 0 then 0 else clampI 0 65535 (rdiv (((p.onTime : Int) + s.lag p.ch) * 10000) p.period)
  s.modRz p.ch (fun z => { z with eff := eff.toNat, onTime := p.onTime })

/-- A period without a pulse: its end, and the effective duty 0 (R195, R204). -/
def State.emptyPeriod (s : State) (n : Nat) (ends : IT) (wanted : Nat) : State :=
  s.modRz n (fun z => { z with eff := 0, ends := z.ends ++ [(ends, wanted, 0)] })

/-- NO-RANGE judged again: it clears once the range reopens (R189). -/
def State.rangeNote (s : State) (n : Nat) : State :=
  if bit (s.rz n).flags 4 && !s.noRange n then
    s.modRz n (fun z => { z with flags := z.flags - 16 })
  else s

/-- The period flags of a nozzle whose run is over: none of its periods is cut, held or stretched any more (R209). -/
def State.restNote (s : State) (n : Nat) : State :=
  let x := s.outp n
  if x.on || x.edge.isSome then s else s.modRz n (fun z => { z with flags := z.flags / 8 * 8 })

/-! ### The pulses of a frame (R191 to R193) -/

/-- The lattice pulses of nozzle `n` whose start falls in the span; `limit` is the run's closing edge. -/
def State.latticePulses (s : State) (n : Nat) (need : Need) (limit : Option IT) (last : IT) :
    Nat → State × List PulsePlan → State × List PulsePlan
  | 0, q => q
  | fuel + 1, (s', l) =>
    match (s'.rz n).next with
    | none => (s', l)
    | some t =>
      if last < t then (s', l)
      else
        let t2 := tickNs (s'.latPoint n (t + 1))
        let p := t2 - t
        let s' := s'.modRz n (fun z => { z with next := some t2, last := t })
        let cut := match limit with | some c => decide (c < t + s'.tMin n) | none => false
        if cut then s.latticePulses n need limit last fuel (s', l)
        else
          let w := sprayWanted need.duty p
          let z := s'.rz n
          let o := ratePeriod ((w : Int) + z.carry) (s'.tMin n) (s'.lag n) (s'.top n p) (s'.noRange n)
            (s'.pEl 0x2401 5 1 n == 1) z.dry z.carry
          let s' := s'.notePeriod n o
          match o.onTime with
          | none => s.latticePulses n need limit last fuel (s'.emptyPeriod n t2 w, l)
          | some on =>
            let plan : PulsePlan := ⟨n, t, t, false, some (tickNs (tickUp (t + on))), p, need.duty, s'.tMin n, on⟩
            let s' := s'.modRz n (fun z => { z with dry := false })
            s.latticePulses n need limit last fuel (s', l ++ [plan])

/-- A changed period taken up (R196, R207): the first point of the new lattice from the next boundary on that no pulse has been
placed for yet. A new divisor cuts the carry to the new top. -/
def State.relattice (s : State) (b : IT) (n : Nat) : State :=
  let z := s.rz n
  let f := s.pEl 0x2401 2 1 n
  let d := s.latDiv n
  let from_ := max (z.last + 1) (b + 1000000)
  if z.freq == f && z.div == d && (match z.next with | some t => decide (b + 1000000 ≤ t) | none => false) then s
  else
    let s := s.modRz n (fun z => { z with freq := f, div := d, next := some (tickNs (s.latPoint n from_)) })
    if z.div = d then s
    else s.modRz n (fun z => { z with carry := min z.carry (s.top n (tickNs (s.latT n * d))).toNat })

/-- The first pulse of a run whose pending opening edge is planned at `t` (R191). Its closing takes the next tick (R33), so that it is
never shorter than its on-time. -/
def State.firstPulse (s : State) (n : Nat) (need : Need) (t ref : IT) : State × PulsePlan :=
  let plain : PulsePlan := ⟨n, t, ref, true, none, 0, 0, 0, 0⟩
  if !(s.pwm n) then (s, plain)
  else
    let p := tickNs (s.latPoint n (t + tickNs (s.latT n * s.latDiv n) / 2)) - t
    let w := sprayWanted need.duty p
    if w = 0 then (s, plain)
    else
      let o := ratePeriod w (s.tMin n) (s.lag n) (s.top n p) (s.noRange n) false true 0
      let s := s.notePeriod n o
      match o.onTime with
      | none => (s.emptyPeriod n (t + p) w, plain)
      | some on => (s, ⟨n, t, ref, true, some (tickNs (tickUp (t + on))), p, need.duty, s.tMin n, on⟩)

/-- The pull-ins that nozzle `n` asks for in the frame that begins at `b`. -/
def State.nozzlePulses (s : State) (b : IT) (n : Nat) (need : Need) : State × List PulsePlan :=
  let x := s.outp n
  let last := s.spanEnd b
  let running := match x.edge with
    | some e => if e.fixed then e.opens else x.on
    | none => x.on
  let limit := match x.edge with | some e => if e.opens then none else some e.it | none => none
  if !(s.chEnabled n) then (s, [])
  else if running && s.pwm n then (s.relattice b n).latticePulses n need limit last 16 (s.relattice b n, [])
  else match x.edge with
    | some e =>
      if e.opens && !e.fixed && decide (e.it ≤ last) then
        let (s, p) := s.firstPulse n need e.planned e.refIt
        (s, [p])
      else (s, [])
    | none => (s, [])

/-! ### Headroom (R197 to R199) -/

/-- The pressure at which nozzle `n` would need the headroom target, in kPa. -/
def State.headroomOf (s : State) (n : Nat) (need : Need) : Int :=
  let q := fxDiv need.flow (fxMul (s.pN 0x2400 9 * one18 / 100) (fxOf (s.pElF 0x2401 3 n)))
  fxMul (fxOf (s.pElF 0x2401 4 n)) (fxPow q (fxDiv one18 (s.pFx 0x2400 5)))

/-- The headroom request at boundary `b` from the needs of the ON nozzles. A granted set-point is held against the request it was
granted for (R198). With no nozzle ON an active request goes on as last posted, while the release hold runs (Assumption 130). -/
def State.headroom (s : State) (b : IT) (needs : List (Nat × Need)) : State :=
  let w := s.pN 0x2400 6
  let on := needs.filter (fun p => s.pwm p.1 && (s.outp p.1).on)
  let per := fun n => tickNs (s.latT n * s.latDiv n)
  let above := on.any (fun p => decide (s.top p.1 (per p.1) * one18 < p.2.duty * (per p.1 : Nat)))
  let low := on.all (fun p => decide (p.2.duty < s.pN 0x2400 10 * one18 / 100))
  let stretched := !on.isEmpty && on.all (fun p => s.pEl 0x2401 5 1 p.1 == 1 &&
    decide (p.2.duty * (per p.1 : Nat) < ((s.tMin p.1 : Int) + s.lag p.1) * one18))
  let granted := if w = 0 then 0 else vget (s.lp (w - 1)).granted 0 0
  let none_ := s.modRate (fun r => { r with active := false, capped := false, request := 0, granted := granted, below := none })
  if w = 0 then none_
  else if s.rateMode ≠ 1 then none_.postRequest (w - 1) 0
  else
    let below := if low then some (s.rate.below.getD b) else none
    let released := match below with | some t => decide (t + s.pN 0x2400 11 * 1000000 ≤ b) | none => false
    let active := (above || (s.rate.active && !released)) && !stretched
    let want := on.foldl (fun m p => max m (s.headroomOf p.1 p.2)) 0
    let cap := s.pFx 0x2400 12
    let req := if !active then 0 else if on.isEmpty then s.rate.request else f32Of18 (min want cap)
    let capped := active && (decide (cap < want) || f32Lt granted (s.lp (w - 1)).grantFor)
    (s.modRate (fun r => { r with active := active, capped := capped, request := req, granted := granted, below := below })).postRequest
      (w - 1) req

/-- Reference 1 of loop `w` posted, reference 2 kept. -/
def State.postRef1 (s : State) (w : Nat) (v : F32) : State :=
  s.postRefs w (vset ((s.lp w).takePosts s.it).posted 0 v)

/-! ### Boom flow, meters, conveyor (R200 to R202) -/

/-- The total flow of BOOM-FLOW mode. -/
def State.boomFlow (s : State) (needs : List (Nat × Need)) : Int :=
  needs.foldl (fun a p =>
    let feed := (s.nozzle p.1).feed
    if (s.outp p.1).on && (feed == 0 || (s.outp (127 + feed)).on) then a + p.2.flow else a) 0

/-- The rows of meter group `g`: present, unfolded, and under ACTIVE-ROWS ON. -/
def State.meterRows (s : State) (g : Nat) : List Nat :=
  (List.range 128).filter (fun n => bit (natAt (s.pBytes (0x2408 + g) 3) (n / 8) 1) (n % 8) && s.nzActive (s.nozzle n) &&
    (s.pN (0x2408 + g) 4 == 0 || (s.outp n).on))

/-- The set-point of meter group `g` in 0.1 rev/min, for the mean of the rows' target rates (R201; Assumption 131). -/
def State.meterSet (s : State) (g : Nat) (rate : Nat → F32) : Int :=
  let rows := s.meterRows g
  if rows.isEmpty ∨ s.spd.state = 3 ∨ s.spd.state = 4 ∨ s.spd.state = 5 then 0
  else
    let k := s.pFx (0x2408 + g) 5
    let v := rows.foldl (fun a n => a + vget s.rov.local_ n 0) 0 * one18 / (rows.length : Nat)
    let w := rows.foldl (fun a n => a + (s.nozzle n).width) 0
    let r := rows.foldl (fun a n => a + fxOf (rate n)) 0 / (rows.length : Nat)
    let rps := if s.pN 0x2400 2 = 3 then fxDiv (fxMul r v / 1000) k else fxDiv (fxMul r v * w / 10000000000) k
    satI32 (fxRound (fxMul rps (s.pFx (0x2408 + g) 6) * 600))

/-- The rate error of row `n` in METER mode: the set-point posted against the one its own speed and rate would need. -/
def State.rowError (s : State) (g n : Nat) (rate : Nat → F32) (posted : Int) : Int :=
  let k := s.pFx (0x2408 + g) 5
  let v := (vget s.rov.local_ n 0) * one18
  let w := (s.meterRows g).foldl (fun a n => a + (s.nozzle n).width) 0
  let r := fxOf (rate n)
  let rps := if s.pN 0x2400 2 = 3 then fxDiv (fxMul r v / 1000) k else fxDiv (fxMul r v * w / 10000000000) k
  let own := fxMul rps (s.pFx (0x2408 + g) 6) * 600
  if own = 0 then 0 else satI16 (rdiv ((posted * one18 - own) * 1000 * (if own < 0 then -1 else 1)) own.natAbs)

/-! ### What was achieved (R195, R203 to R205) -/

/-- Observed spray of output `o` within (`a`, `c`], in ns, for a time `c` up to which its intervals are known. -/
def State.sprayedIn (s : State) (o : Nat) (a c : IT) : Nat :=
  (s.spraysOf o).foldl (fun t x => t + (x.reach c s.it - max a x.start)) 0

/-- Planned pulses of nozzle `n` whose end was observed, or that were not made. -/
def State.achieved (s : State) (b : IT) (n : Nat) : State :=
  (s.rz n).planned.foldl (fun s p =>
    let (t, per, want) := p
    let drop := fun (s : State) => s.modRz n (fun z => { z with planned := z.planned.erase p })
    match (s.spraysOf n).find? (fun x => x.pull == t) with
    | some x =>
      match x.endAt b with
      | none => s
      | some e =>
        if b < e then s
        else
          let a := e - x.start
          (drop s).modRz n (fun z => { z with
            ends := z.ends ++ [(e, want, a)], ach := if per = 0 then 0 else min 65535 (ndiv (a * 10000) per) })
    | none =>
      if b < t + per ∨ (s.ch n).edges.any (fun e => e.opens && e.it == t) ∨ ((s.ch n).state = 1 ∧ (s.ch n).pull.start = t) then s
      else (drop s).modRz n (fun z => { z with ends := z.ends ++ [(t + per, want, 0)], ach := 0 })) s

/-- The rate error over the periods that ended in the last second (R204). -/
def State.rateError (s : State) (b : IT) (n : Nat) : State :=
  s.modRz n (fun z =>
    let l := z.ends.filter (fun p => decide (b < p.1 + 1000000000))
    let now := l.filter (fun p => decide (p.1 ≤ b))
    let want : Nat := now.foldl (fun a p => a + p.2.1) 0
    let got : Nat := now.foldl (fun a p => a + p.2.2) 0
    { z with ends := l, err := if want = 0 then 0 else satI16 (rdiv (((got : Int) - want) * 1000) want) })

/-- Up to when all of an output's spray is known: the boundary, or the command of the oldest closing outstanding. -/
def State.outKnown (s : State) (o : Nat) (b : IT) : IT :=
  (s.spraysOf o).foldl (fun m x => match x.cmd, x.endAt b with
    | some c, none => min m c
    | _, _ => m) b

/-- The dose applied since the last boundary, in µL (R203). -/
def State.addDose (s : State) (b : IT) (needs : List (Nat × Need)) : State :=
  needs.foldl (fun s p =>
    match s.sprayOf p.1 (s.nozzle p.1) with
    | none => s
    | some o =>
      let known := s.outKnown o b
      let from_ := vget s.rate.sprayed p.1 0
      let ns := s.sprayedIn o from_ known
      s.modRate (fun r =>
        let part := r.dosePart + (ns * p.2.full.toNat / 1000000000000) / 60
        { r with sprayed := vset r.sprayed p.1 (max from_ known), dose := r.dose + part / 1000000000000,
                 dosePart := part % 1000000000000 })) s

/-- The comparison of flows every second (R205): the predicted one is what the nozzles were seen to spray in the interval, each
moment at the full flow of its frame. A deviation against no predicted flow is not stated: a free value. With no meter named
there is no mismatch to report. -/
def State.flowCheck (s : State) (b : IT) : State :=
  let i := s.pN 0x2400 13
  if i = 0 then s.modRate (fun r => { r with mismatch := false, misAt := none, okAt := none })
  else if b < s.rate.flowAt + 1000000000 then s
  else
    let cnt := (vget s.motion.setP (i - 1) ⟨0, 0, 1, 0⟩).count
    let dt := b - s.rate.flowAt
    let meas := wrapI32 (cnt - s.rate.flowCnt) * s.pFx (0x2010 + (i - 1)) 5 * 60000000000 / dt
    let vol := s.rate.dose * 1000000000000 + s.rate.dosePart
    let was := s.rate.flowDose.1 * 1000000000000 + s.rate.flowDose.2
    let pred : Int := ((vol - was) * 60000000000000 / dt : Nat)
    let (s, dev) := if pred ≤ 0 then (s.draw, satI16 (sgn 16 (s.drawn % 65536)))
      else (s, satI16 (rdiv ((meas - pred) * 1000) pred.toNat))
    let out := decide (s.pN 0x2400 14 * 10 < dev.natAbs)
    let hold := s.pN 0x2400 15 * 1000000
    let mis := if out then some (s.rate.misAt.getD b) else none
    let ok := if out then none else some (s.rate.okAt.getD b)
    let sets := match mis with | some t => decide (t + hold ≤ b) | none => false
    let clears := match ok with | some t => decide (t + hold ≤ b) | none => false
    let flag := if sets then true else if clears then false else s.rate.mismatch
    let was := s.rate.mismatch
    let s := s.modRate (fun r => { r with
      flowAt := b, flowCnt := cnt, flowDose := (s.rate.dose, s.rate.dosePart), measFlow := f32Of18 meas, predFlow := f32Of18 pred, deviation := dev, misAt := mis,
      okAt := ok, mismatch := flag })
    s.recordIf (flag && !was) 0x5004 0 []

/-! ### RATE_COMPUTE (R18 step 5) -/

/-- The references and reports of the mode: flow loop, meters. -/
def State.rateModeOut (s : State) (needs : List (Nat × Need)) (total : Int) : State :=
  let rate := fun n => ((needs.find? (fun p => p.1 == n)).map (fun p => p.2.target)).getD (s.pF 0x2400 3)
  match s.rateMode with
  | 2 => if s.pN 0x2400 17 = 0 then s else s.postRef1 (s.pN 0x2400 17 - 1) (f32Of18 (s.boomFlow needs))
  | 3 => (List.range 2).foldl (fun s g =>
      if !(s.pB (0x2408 + g) 1) then s
      else
        let v := s.meterSet g rate
        let s := (s.modRate (fun r => { r with meter := vset r.meter g v })).postRef1 (s.pN (0x2408 + g) 2) (f32OfInt v)
        (s.meterRows g).foldl (fun s n => s.modRz n (fun z => { z with err := s.rowError g n rate v })) s) s
  | 4 => if s.pN 0x2400 17 = 0 then s else s.postRef1 (s.pN 0x2400 17 - 1) (f32Of18 total)
  | _ => s

/-- Whether the host's throughput is older than its timeout where it is used (R202); one that was never written counts as older
(Assumption 137). -/
def State.throughputStale (s : State) (b : IT) : Bool :=
  s.rateMode == 4 && s.pN 0x2400 2 == 5 && s.pN 0x240A 1 == 0 && (match s.rate.thruAt with
    | none => true
    | some t => decide (t + s.pN 0x240A 6 * 1000000 < b))

/-- RATE_COMPUTE at boundary `b` in RUN: the state and the pull-ins of the frame. -/
def State.rateCompute (s : State) (b : IT) : State × List PulsePlan :=
  let (p, noP) := s.pressure
  let stale := s.throughputStale b
  let s := s.recordIf (stale && !s.rate.stale) 0x5002 0 []
  let s := s.modRate (fun r => { r with press := p, noPress := noP, stale := stale })
  let total := if s.rateMode = 4 then s.conveyorFlow stale else 0
  let onN := (s.onPwm b).length
  let share := if onN = 0 then 0 else total / (onN : Nat)
  let needs := ((List.range 128).filter (fun n => (s.nozzle n).present)).map (fun n => (n, s.need b (fxOf p) share n))
  let s := needs.foldl (fun s q => s.modRz q.1 (fun z => { z with
    target := q.2.target, duty := (clampI 0 65535 (rdiv (q.2.duty * 10000) 1000000000000000000)).toNat,
    flags := z.flags - 8 * b2n (bit z.flags 3) + 8 * b2n q.2.rev })) s
  let s := needs.foldl (fun s q => (s.achieved b q.1).rateError b q.1) s
  let s := ((s.addDose b needs).flowCheck b).headroom b needs
  let s := needs.foldl (fun s q => (s.rangeNote q.1).restNote q.1) s
  let s := s.rateModeOut needs total
  let (s, l) := needs.foldl (fun (a : State × List PulsePlan) q =>
    let (s, x) := a.1.nozzlePulses b q.1 q.2
    (s, a.2 ++ x)) (s, [])
  (s.modRate (fun r => { r with saturated := needs.any (fun q => bit (vget r.nz q.1 RateNz.reset).flags 0) }), l)

/-- Outside RUN nothing is set: runs and pulses are forgotten, what is reported stays as the last step 5 left it (R184, R13). -/
def State.rateIdle (s : State) : State :=
  s.modRate (fun r => { r with
    nz := r.nz.map (fun z => { z with carry := 0, dry := false, next := none, planned := [] }) })

/-- Entry to RUN: the headroom request, the flow comparison and the dose start at the present; a nozzle not present has no flags
(R209). -/
def State.rateRun (s : State) : State :=
  let i := s.pN 0x2400 13
  s.rateIdle.modRate (fun r => { r with
    nz := vmapi r.nz (fun n z => { z with ends := [], flags := if (s.nozzle n).present then z.flags else 0 }), active := false, capped := false, request := 0, below := none, misAt := none,
    okAt := none, flowDose := (r.dose, r.dosePart), flowAt := s.it, flowCnt := (vget s.motion.setP (i - 1) ⟨0, 0, 1, 0⟩).count, sprayed := Vector.replicate 128 s.it })

/-- The flags of P 0x2402.01. -/
def RateDose.flags (r : RateDose) : Nat :=
  bits [r.active, r.capped, r.saturated, r.noPress, r.mismatch, r.stale]

end Sys2Proof.Machine
end

