-- ==== Sys2Proof/Machine/Placement.lean ====
section
/-! DEFINITION. Placing the pull-ins of a frame (R25, R132, R136 to R140, R193), handing the edges to the sequencers
(R18 steps 6 and 7), and the frame overrun (R20). -/

namespace Sys2Proof.Machine

/-! ### Edges of a channel -/

/-- An edge put into a list kept in ascending time. -/
def insertEdge (e : DieEdge) : List DieEdge → List DieEdge
  | [] => [e]
  | x :: xs => if e.it < x.it then e :: x :: xs else x :: insertEdge e xs

/-- An edge handed to channel `n`. -/
def State.addEdge (s : State) (n : Nat) (e : DieEdge) : State := s.modCh n (fun c => { c with edges := insertEdge e c.edges })

/-- A list without the last element that `p` names. -/
def dropLastOf {α : Type} (p : α → Bool) (l : List α) : List α := (l.reverse.eraseP p).reverse

/-- The pending edges of the last frame taken back from the sequencers and the valves (R132). -/
def State.takeBack (s : State) : State :=
  (List.range 132).foldl (fun s o => match (s.outp o).edge with
    | none => s
    | some e =>
      if e.fixed then s
      else
        let keep := dropLastOf (fun (x : DieEdge) => x.it == e.it && x.opens == e.opens)
        if o < 128 then s.modCh o (fun c => { c with edges := keep c.edges })
        else s.modBr (o - 128) (fun x => { x with edges := keep x.edges })) s

/-- The pending edges handed over again (R132). -/
def State.handPending (s : State) : State :=
  (List.range 132).foldl (fun s o => match (s.outp o).edge with
    | none => s
    | some e =>
      if e.fixed then s
      else if o < 128 then (if s.chEnabled o then s.addEdge o ⟨e.opens, e.it, 100, s.closingDelay o⟩ else s)
      else s.modBr (o - 128) (fun x => { x with edges := insertEdge ⟨e.opens, e.it, 100, 0⟩ x.edges })) s

/-- Whether channel `n` will be open just before `t`, by its state and the edges handed over. -/
def State.openBefore (s : State) (n : Nat) (t : IT) : Bool :=
  (s.ch n).edges.foldl (fun a e => if e.it < t then e.opens else a) ((s.ch n).state == 1 || (s.ch n).state == 2)

/-- Output `o`'s pending edge fixed as it stands. -/
def State.fixEdge (s : State) (o : Nat) : State :=
  s.modOut o (fun x => { x with edge := x.edge.map (fun e => { e with flags := e.flags ||| 1 }) })

/-- The closing edge of channel `n`'s run fixed at `t`: the run's later pulses are cancelled, and those that would start
less than t_min before it (R133, R192). -/
def State.fixClose (s : State) (b : IT) (n : Nat) (t : IT) : State :=
  let b1 := b + 1000000
  let gone := fun (e : DieEdge) => decide (b1 < e.it) && (if e.opens then decide (t < e.it + s.tMin n) else decide (t < e.it))
  let out := ((s.ch n).edges.filter (fun e => e.opens && gone e)).map (·.it)
  let s := s.modCh n (fun c => { c with edges := c.edges.filter (fun e => !(gone e)) })
  let s := s.modBank (n / 8) (fun k => { k with slots := k.slots.filter (fun r => !(r.ch == n && out.contains r.start)) })
  let s := s.modSpd (fun d => { d with waiting := d.waiting.filter (fun p => p.ch != n || decide (p.planned + p.tMin ≤ t)) })
  let s := s.modRz n (fun z => { z with
    carry := 0, dry := false, next := none, planned := z.planned.filter (fun p => !(out.contains p.1)) })
  if s.openBefore n t then s.addEdge n ⟨false, t, 100, s.closingDelay n⟩ else s

/-! ### Where a pull-in fits (R136 to R138) -/

/-- What limits a pull-in: its window length, the thermal pause of its die if one applies, the other pull-in windows of the
die, and the recovery windows of its bank with the channel each belongs to. -/
structure Fit where
  w    : Nat
  pause : Option Nat
  wins : List SlotRes
  recs : List SlotRes
  deriving DecidableEq, Repr

/-- Whether a start meets the thermal spacing. -/
def Fit.cool (f : Fit) (t : IT) : Bool :=
  match f.pause with
  | none => true
  | some q => f.wins.all (fun v => if v.start ≤ t then decide (v.ends + q ≤ t) else decide (t + f.w + q ≤ v.start))

/-- The recovery windows that a start conflicts with. -/
def Fit.clash (f : Fit) (t : IT) : List SlotRes :=
  if f.w = 0 then [] else f.recs.filter (fun r => !(decide (t + f.w + 10000 ≤ r.start) || decide (r.ends + 10000 ≤ t)))

/-- The starts at or before `t` at which a constraint begins to bind. -/
def Fit.before (f : Fit) (t : IT) : List IT :=
  let q := f.pause.getD 0
  t :: ((f.recs.map (fun r => r.start - 10000 - f.w)) ++ (f.wins.map (fun v => v.start - q - f.w))).map
    (fun x => tickNs (tickDown x))

/-- The starts at or after `t` at which a constraint ceases to bind. -/
def Fit.after (f : Fit) (t : IT) : List IT :=
  let q := f.pause.getD 0
  (t :: ((f.recs.map (fun r => r.ends + 10000)) ++ (f.wins.map (fun v => v.ends + q)))).map (fun x => tickNs (tickUp x))

/-- The latest start in [`lo`, `t`] that meets both constraints (R137 steps 1 and 2). -/
def Fit.earlier (f : Fit) (lo t : IT) : Option IT :=
  (f.before t).foldl (fun a x =>
    if lo ≤ x ∧ x ≤ t ∧ f.cool x ∧ (f.clash x).isEmpty then some (max x (a.getD 0)) else a) none

/-- The start in [`lo`, `t`] that meets the thermal spacing with the fewest conflicts, the latest of equals (R137 step 3). -/
def Fit.forced (f : Fit) (lo t : IT) : Option IT :=
  (f.before t).foldl (fun a x =>
    if lo ≤ x ∧ x ≤ t ∧ f.cool x then
      match a with
      | none => some x
      | some y =>
        let nx := (f.clash x).length
        let ny := (f.clash y).length
        if nx < ny ∨ (nx = ny ∧ y < x) then some x else some y
    else a) none

/-- The earliest start at or after `t` that meets both constraints (R137 step 4). -/
def Fit.later (f : Fit) (t : IT) : IT :=
  ((f.after t).foldl (fun a x =>
    if t ≤ x ∧ f.cool x ∧ (f.clash x).isEmpty then some (match a with | some y => min x y | none => x) else a) none).getD t

/-- The recovery windows of bank `k`, own closing `own` of channel `n` aside; `extra` are closings of pulses still to be
placed. -/
def State.recoveries (s : State) (k n : Nat) (own : Option IT) (extra : List (Nat × IT)) : List SlotRes :=
  let fixed := (bankChannels k).flatMap (fun m =>
    let c := s.ch m
    let run := match c.decaying with
      | some cl => [cl.cmd]
      | none => []
    (run ++ (c.edges.filter (fun e => !e.opens)).map (·.it)).map (fun t => (m, t)))
  let all := fixed ++ extra.filter (fun p => p.1 / 8 == k)
  (all.filter (fun p => !(p.1 == n && own == some p.2))).map (fun p => ⟨p.1, p.2, p.2 + (s.ch p.1).recovery⟩)

/-- The constraints of a pull-in of channel `n`. -/
def State.fit (s : State) (n : Nat) (own : Option IT) (extra : List (Nat × IT)) : Fit :=
  let d := n / 32
  { w := if s.bankBoost (n / 8) then (s.ch n).pullTime else 0,
    pause := if 2 ≤ vget s.therm.plan d 0 then some (s.pN 0x1500 17 * 1000) else none,
    wins := (List.range 4).flatMap (fun i => (s.bank (4 * d + i)).slots),
    recs := s.recoveries (n / 8) n own extra }

/-! ### Outcomes (R139, R140, R193) -/

/-- The run opening of channel `n` withdrawn, with its SPINDLE-REPLAN record (R140). -/
def State.replan (s : State) (b : IT) (p : PulsePlan) (deferral : Nat) : State :=
  let n := p.ch
  let b2 := b + 2000000
  let skip := if b2 < p.planned then 0 else satI32 (rdiv (vget s.rov.local_ n 0 * (b2 - p.planned : Nat)) 1000000000)
  let s := (s.modOut n (fun x => { x with edge := none, wait := true })).spdCount 4 1
  s.record 0x3005 n (le 8 p.planned ++ le 4 (sat32 deferral) ++ leI 4 skip)

/-- The period of a pulse that is not made (R204): an empty one, for a pulse of a nozzle in PWM. -/
def State.lostPeriod (s : State) (p : PulsePlan) : State :=
  if p.close.isNone then s else s.emptyPeriod p.ch (p.planned + p.period) p.wanted

/-- A pulse that is not made: an opening withdrawn, or the pulse omitted (R140, R193). -/
def State.dropPull (s : State) (b : IT) (p : PulsePlan) (deferral : Nat) : State :=
  (if p.run then s.replan b p deferral else s).lostPeriod p

/-- A SHED pull-in (R139). -/
def State.shedPull (s : State) (p : PulsePlan) : State :=
  let s := (s.spdCount 5 1).record 0x3004 p.ch (le 8 p.planned)
  (if p.run then s.modOut p.ch (fun x => { x with edge := none, wait := true }) else s).lostPeriod p

/-- The flag EXTERNAL-LATE of an output's pending edge (R149), kept by its placement. -/
def State.lateFlag (s : State) (o : Nat) : Nat := match (s.outp o).edge with | some e => 16 * b2n (bit e.flags 4) | none => 0

/-- A start beyond the reservation span stays pending (R137 step 4). -/
def State.keepPull (s : State) (p : PulsePlan) (start ref : IT) : State :=
  if p.run then
    s.modOut p.ch (fun x => { x with edge := some {
      it := start, opens := true, flags := 4 + s.lateFlag p.ch, moved := satI16 (rdiv ((start : Int) - p.planned) 1000), planned := p.planned, refIt := ref } })
  else s.modSpd (fun d => { d with waiting := d.waiting ++ [{ p with refIt := ref }] })

/-- The closing edge of channel `n`'s run, as far as it is decided; `some none` while the run has none, none while no run that a
lattice pulse at `start` belongs to is ON (R133, R192, R238). -/
def State.runLimit (s : State) (n : Nat) (start : IT) : Option (Option IT) :=
  let x := s.outp n
  match x.edge with
  | some e =>
    if !e.opens then (if x.on then some (some e.it) else none)
    else if e.fixed && decide (e.it < start) then some none
    else none
  | none => if x.on then some none else none

/-- Whether a lattice pulse may still start at `start`: its run is ON, and does not close within t_min of it (R133, R192). -/
def State.pulseStands (s : State) (p : PulsePlan) (start : IT) : Bool :=
  p.run || (match s.runLimit p.ch start with
    | none => false
    | some none => true
    | some (some t) => decide (start + p.tMin ≤ t))

/-- The closing of a pulse, no later than the closing edge of its run once that is fixed; one still pending may move yet, and cuts
the pulse when it is fixed (`fixClose`). -/
def State.cutClose (s : State) (p : PulsePlan) (c : IT) : IT :=
  match (s.outp p.ch).edge with
  | some e => if e.fixed && !e.opens then min c e.it else c
  | none => c

/-- The second pulse of channel `n`'s run that opens at `t`: the first lattice point at least T/2 after it (R191). -/
def State.secondPulse (s : State) (n : Nat) (t : IT) : IT :=
  tickNs (s.latPoint n (t + tickNs (s.latT n * s.latDiv n) / 2))

/-- A run of channel `n` that opens at `t` takes up its lattice at the second pulse. -/
def State.startLattice (s : State) (n : Nat) (t : IT) (dry : Bool) : State :=
  s.modRz n (fun z => { z with
    carry := 0, dry := dry, freq := s.pEl 0x2401 2 1 n, div := s.latDiv n, last := t,
    next := some (if dry then tickNs (s.latPoint n t) else s.secondPulse n t) })

/-- A pull-in fixed at `start` with a granted percentage; `flags` are those of P 0x2203.05. The first pulse's period runs from the
opening edge as placed to the second pulse (R191). -/
def State.fixPull (s : State) (p : PulsePlan) (f : Fit) (start : IT) (pct flags : Nat) : State :=
  let n := p.ch
  let p := if p.run && s.pwm n then { p with period := s.secondPulse n start - start } else p
  let s := s.addEdge n ⟨true, start, pct, 0⟩
  let s := s.modBank (n / 8) (fun k => { k with slots := k.slots ++ [⟨n, start, start + f.w⟩] })
  let s := match p.close with
    | some c => ((s.addEdge n ⟨false, s.cutClose p c, 100, s.closingDelay n⟩).notePulse p).modRz n (fun z => { z with
        planned := z.planned ++ [(start, p.period, p.wanted)] })
    | none => s
  if !p.run then s
  else
    let moved := satI16 (rdiv ((start : Int) - p.planned) 1000)
    let s := s.modOut n (fun x => { x with wait := false,
                                           edge := some { it := start, opens := true, flags := (flags + s.lateFlag n) ||| 1, moved := moved,
                                                          planned := p.planned, refIt := p.refIt } })
    if s.pwm n then s.startLattice n start false else s

/-- A chosen start submitted, with the outcomes of R139; `fuel` bounds the deferrals. -/
def State.submit (s : State) (b : IT) (p : PulsePlan) (f : Fit) (ref : IT) : Nat → IT → Nat → State
  | 0, start, _ => s.dropPull b p (start - ref)
  | fuel + 1, start, flags =>
    if !(s.pulseStands p start) then s
    else if ref + 5000000 < start then s.dropPull b p (start - ref)
    else if s.spanEnd b < start then s.keepPull p start ref
    else if (match p.close with | some c => decide (c < start + p.tMin) | none => false) then
      (s.dropPull b p (start - ref)).rateCount 3
    else
      let (s', v) := s.requestPull p.ch start
      match v with
      | .granted => s'.fixPull p f start 100 flags
      | .limited q => s'.fixPull p f start q flags
      | .shed => s'.shedPull p
      | .deferred d => State.submit (s'.spdCount 3 1) b p f ref fuel (f.later (start + d)) (flags ||| 4)

/-- The CLAMP-FORCED records of a start that conflicts (R137 step 3). -/
def State.clampForced (s : State) (n : Nat) (start : IT) (l : List SlotRes) : State :=
  l.foldl (fun s r => (s.spdCount 2 1).recordAt 0x3003 r.ch (le 1 n ++ le 8 start) r.start) s

/-- A run that opens without a pull-in: a nozzle without an enabled channel, or one whose first period asks for no spray
(R191). -/
def State.openDry (s : State) (p : PulsePlan) : State :=
  let n := p.ch
  let s := (s.fixEdge n).modOut n (fun x => { x with wait := false })
  if s.pwm n then s.startLattice n p.planned true else s

/-- One pull-in placed (R137). -/
def State.place (s : State) (b : IT) (p : PulsePlan) (extra : List (Nat × IT)) : State :=
  if p.run && p.close.isNone && s.pwm p.ch then s.openDry p
  else
    let b1 := b + 1000000
    let f := s.fit p.ch p.close extra
    let adv := s.pN 0x2200 13 * 1000
    let lo := max b1 (p.planned - adv)
    match f.earlier lo p.planned with
    | some t =>
      if t = p.planned then s.submit b p f p.refIt 64 t 0 else (s.spdCount 1 1).submit b p f t 64 t 2
    | none =>
      match f.forced lo p.planned with
      | some t =>
        let s := s.clampForced p.ch t (f.clash t)
        if t = p.planned then s.submit b p f p.refIt 64 t 8 else (s.spdCount 1 1).submit b p f t 64 t 10
      | none => s.submit b p f p.refIt 64 (f.later (max b1 p.planned)) 4

/-- The pull-ins of a frame placed in order; the closings of those still to come count as fixed. -/
def State.placeAll (b : IT) : List PulsePlan → State → State
  | [], s => s
  | p :: ps, s =>
    let extra := ps.filterMap (fun q => q.close.map (fun c => (q.ch, c)))
    State.placeAll b ps (s.place b p extra)

/-- Run edges inside the span that place no pull-in: closings, valves, nozzles without a channel (R132). -/
def State.fixPlain (s : State) (b : IT) : State :=
  (List.range 132).foldl (fun s o => match (s.outp o).edge with
    | none => s
    | some e =>
      if e.fixed ∨ s.spanEnd b < e.it then s
      else if 128 ≤ o then
        (s.fixEdge o).modBr (o - 128) (fun x => { x with edges := insertEdge ⟨e.opens, e.it, 100, 0⟩ x.edges })
      else if !(s.chEnabled o) then s.fixEdge o
      else if e.opens then s
      else (s.fixEdge o).fixClose b o e.it) s

/-- What the frame's decisions will change, kept for a frame overrun (R20). -/
def State.keepUndo (s : State) : State :=
  let u : Undo := { outs := s.spd.outs, rate := s.rate, waiting := s.spd.waiting, secs := s.spd.secs,
                    edges := s.chan.map (·.edges), closed := s.chan.map (·.dieClosed),
                    slots := s.banks.map (·.slots), valves := s.bridges.map (·.edges), shed := s.bridges.map (·.shedNote),
                    resvs := s.budget.resvs, boosts := s.budget.pending,
                    posts := s.whorl.loops.map (fun l => ⟨l.posted, l.postNext, l.request, l.reqNext⟩) }
  { s with undo := some u }

/-- SPINDLE_EVALUATE and RATE_COMPUTE: the pull-ins wanted in the frame that begins at `b`, in the order of their planned
starts. -/
def State.spdPlans (s : State) (b : IT) (fills : List FillIn) : State × List PulsePlan :=
  let n := if s.undo.isSome then 0 else s.sup.overruns
  let s := s.keepUndo
  let s := { s with sup := { s.sup with overruns := n } }
  let r := (s.takeBack.spdEvaluate b fills).rateCompute b
  ((r.1.modSpd (fun d => { d with waiting := [] })).fixPlain b, (r.1.spd.waiting ++ r.2).mergeSort (fun x y =>
    decide (x.planned < y.planned) || (x.planned == y.planned && decide (x.ch ≤ y.ch))))

/-- Bank slots that ended before the frame at `b` are of no more use. -/
def State.ageSlots (s : State) (b : IT) : State :=
  { s with banks := s.banks.map (fun (k : Bank) => { k with slots := k.slots.filter (fun r => decide (b < r.ends + 10000000)) }) }

/-- R18 steps 4 to 7 in RUN at boundary `b`: SPINDLE_EVALUATE, RATE_COMPUTE, BANK_SLOT_RESERVE, EDGE_HANDOVER. -/
def State.spdFrame (s : State) (b : IT) (fills : List FillIn) : State :=
  let r := s.spdPlans b fills
  let s := ((State.placeAll b r.2 r.1).handPending).ageSlots b
  s.modSpd (fun d => { d with outs := vmapi d.outs (fun o x => s.settleOut o x) })

/-- Edges after a discarded frame: those before `b1` as they now stand, the later ones as handed over before. -/
def undoEdges (b1 : IT) (now old : List DieEdge) : List DieEdge :=
  now.filter (fun e => decide (e.it < b1)) ++ old.filter (fun e => decide (b1 ≤ e.it))

/-- The pull-in grants of a discarded frame taken back: what the arbiter held before it, as far as it holds it still. -/
def State.ungrant (s : State) (u : Undo) : State :=
  { s with budget := { s.budget with
      resvs := s.budget.resvs.filter (fun r => !r.pull || u.resvs.contains r),
      pending := s.budget.pending.filter u.boosts.contains } }

/-- Spindle after a discarded frame: decisions, waiting pulses and section states as before it. An output that timed out
since the boundary stays closed (R150), and what is recorded once, per boot or per episode of missing tiles (R146), stays noted. -/
def Spindle.undoFrame (d : Spindle) (u : Undo) : Spindle :=
  { d with
    waiting := u.waiting,
    secs := u.secs.filter (fun c => !d.secs.contains c) ++ d.secs,
    outs := vmapi d.outs (fun o x =>
      let old := vget u.outs o x
      { old with clampRec := old.clampRec || x.clampRec, extOut := old.extOut || x.extOut, late := x.late, lateRec := x.lateRec,
                 ext := if x.extOut then none else old.ext }) }

/-- The rate computer after a discarded frame: nozzles, request and meter set-points as before it; what it measured stands. -/
def RateDose.undoFrame (r : RateDose) (u : Undo) : RateDose :=
  { r with nz := u.rate.nz, active := u.rate.active, capped := u.rate.capped, saturated := u.rate.saturated,
           request := u.rate.request, below := u.rate.below, meter := u.rate.meter }

/-- The posts of a discarded frame withdrawn. -/
def Loop.undoFrame (l : Loop) (p : Posts) : Loop :=
  { l with posted := p.posted, postNext := p.postNext, request := p.request, reqNext := p.reqNext }

/-- FRAME_OVERRUN: step 7 has not completed at 950 µs; the frame's new decisions are discarded (R20). -/
def execFrameOverrun (s : State) : Host.Outcome State Fault Refusal :=
  .next (match s.undo with
    | none => s
    | some u =>
      let b1 := s.time.frame + 1000000
      let s := s.at (s.time.frame + 950000)
      let s := { s with
        undo := none,
        chan := vmapi s.chan (fun n c => { c with
          edges := undoEdges b1 c.edges (vget u.edges n []), dieClosed := c.dieClosed.or (vget u.closed n none) }),
        banks := vmapi s.banks (fun k x => { x with slots := vget u.slots k [] }),
        bridges := vmapi s.bridges (fun h x => { x with
          edges := undoEdges b1 x.edges (vget u.valves h []), shedNote := x.shedNote.or (vget u.shed h none) }) }
      let s := ((s.ungrant u).modSpd (·.undoFrame u)).modRate (·.undoFrame u)
      let s := { s with whorl := { s.whorl with loops := vmapi s.whorl.loops (fun w l =>
        l.undoFrame (vget u.posts w ⟨l.posted, l.postNext, l.request, l.reqNext⟩)) } }
      let s := (s.spdCount 0 1).record 0x3001 0 []
      let n := s.sup.overruns + 1
      let s := { s with sup := { s.sup with overruns := n } }
      if n = 3 then s.report 0xE00C 0 [] else s)

end Sys2Proof.Machine
end

