-- ==== Sys2Proof/Machine/Report.lean ====
section
/-! DEFINITION. What the module reports: the value and read status of every parameter a host can read (R372, R377), family
by family in the order of the bands of R370. -/

namespace Sys2Proof.Machine

/-- `n` bytes of each count, in order. -/
def leAll (n : Nat) (l : List Nat) : Bytes := l.flatMap (le n)

/-- The bytes of binary32 words, in order. -/
def f32All (l : List F32) : Bytes := l.flatMap (fun (x : F32) => le 4 x.toNat)

/-- A binary32 word's bytes. -/
def f32B (x : F32) : Bytes := le 4 x.toNat

/-- P 0x1100 (R50). -/
def State.readTime (s : State) : Nat → Bytes
  | 1 => le 8 s.it
  | 2 => le 4 s.time.boot
  | 3 => le 8 (s.wallAt s.it)
  | 4 => le 1 s.wallCode
  | 5 => le 4 s.time.steps
  | 6 => le 4 s.time.discontinuities
  | 7 => le 8 s.time.ppsLast
  | 8 => le 4 s.time.ppsBad
  | _ => leI 4 (satI32 s.crystalDev)

/-- The code of a network in P 0x1200.08 and P 0x1200.09. -/
def Net.code : Net → Nat
  | .canB => 1 | .canC => 2 | .eth => 3

/-- A session's entry in P 0x1200.09. -/
def Session.bytes (x : Session) : Bytes :=
  le 1 (Net.code x.id.net) ++ le 1 x.id.byte ++ le 1 x.level ++ [0] ++ le 4 (shortStamp x.beat)

/-- The session with an identity. -/
def State.session (s : State) (i : SessionId) : Option Session := s.nets.sessions.find? (fun x => x.id == i)

/-- P 0x1200 and P 0x1201 (R429); `lvl` is the reading session's level. The value of P 0x1201.01 is that of the challenge
issued last, which the read itself issues (R421). -/
def State.readPagrim (s : State) (lvl idx sub : Nat) : Bytes :=
  let n := s.nets
  match idx, sub with
  | 0x1200, 8 => match n.ctrl.bind s.session with
    | some x => le 1 (Net.code x.id.net) ++ le 1 x.id.byte ++ le 1 x.level ++ [0]
    | none => [0, 0, 0, 0]
  | 0x1200, 9 => n.sessions.flatMap Session.bytes
  | 0x1200, _ => leAll 4 n.frames.toList
  | _, 1 => match n.challenge with
    | some c => c.1
    | none => List.replicate 16 0
  | _, 3 => le 1 lvl
  | _, _ => le 4 n.bad

/-- The ISO 11783 NAME (R422, in the layout of ISO 11783-5: Assumption 19). -/
def State.isoName (s : State) : Bytes :=
  le 8 (Config.serialNumber % 2097152 + 2097152 * (Config.manufacturerCode % 2048) + 4294967296 * s.pN 0x1230 6 +
    2 ^ 35 * s.pN 0x1230 5 + 2 ^ 40 * s.pN 0x1230 4 + 2 ^ 49 * s.pN 0x1230 3 + 2 ^ 56 * s.pN 0x1230 7 + 2 ^ 60 * 2 + 2 ^ 63)

/-- P 0x1210 to P 0x1232 (R430 to R432). -/
def State.readNet (s : State) (idx sub : Nat) : Bytes :=
  let e := s.nets.eth
  let a := s.nets.canA
  match idx, sub with
  | 0x1220, 8 => le 1 (b2n e.up)
  | 0x1220, 9 => le 6 Config.macAddress
  | 0x1220, 0xA => le 1 (if s.pB 0x1220 5 then e.gptp else 0)
  | 0x1220, 0xB => leI 4 (satI32 e.gOffset)
  | 0x1220, 0xC => le 4 (sat32 e.linkDelay)
  | 0x1220, _ => leAll 4 e.counters.toList
  | 0x1230, 8 => s.isoName
  | 0x1230, 9 => le 1 a.claimed
  | 0x1230, _ => le 1 (bits [a.noAddr, a.tcOn, a.pool == 2])
  | 0x1231, 2 => le 1 a.pool
  | 0x1231, 3 => a.label
  | 0x1231, _ => le 4 a.ignored
  | 0x1232, _ => a.hitch.toList.flatMap (fun h => le 4 h.1 ++ h.2.toList)
  | _, 8 => le 1 (vget s.nets.can (idx - 0x1210) ⟨0, Vector.replicate 4 0⟩).bus
  | _, _ => leAll 4 (vget s.nets.can (idx - 0x1210) ⟨0, Vector.replicate 4 0⟩).counters.toList

/-- P 0x1401, as of the last boundary (R353). -/
def State.readBudget (s : State) : Nat → Bytes
  | 1 => le 4 (sat32 s.budget.measured)
  | 2 => le 4 (sat32 s.budget.measA)
  | 3 => le 4 (sat32 s.budget.measB)
  | 4 => le 4 (sat32 s.budget.shared)
  | 5 => le 4 (sat32 s.budget.shown.commit)
  | 6 => leI 4 (satI32 s.budget.shown.room)
  | 7 => le 4 (sat32 s.budget.allot)
  | 8 => le 1 s.budget.shown.flags
  | 9 => leAll 2 (s.budget.volts.toList.map sat16)
  | 0xA => leAll 2 (s.budget.svMa.toList.map sat16)
  | 0xB => leAll 4 s.budget.shown.counters.toList
  | _ => s.budget.shown.lastRef.toList.flatMap (fun r => le 8 r.1 ++ le 2 r.2.1 ++ le 2 0 ++ le 4 r.2.2)

/-- P 0x1501, as the last sample left it (R368). -/
def State.readThermal (s : State) : Nat → Bytes
  | 1 => s.therm.shown.value.toList.flatMap (fun v => leI 2 v)
  | 2 => leAll 1 s.therm.shown.status.toList
  | 3 => leAll 1 s.therm.shown.level.toList
  | 4 => leI 2 s.therm.shown.most
  | 5 => le 1 s.therm.shown.hottest
  | 6 => s.therm.shown.maxima.toList.flatMap (fun v => leI 2 v)
  | 7 => le 1 s.therm.shown.flags
  | 8 => le 1 s.therm.shown.latchBy
  | 9 => leAll 4 s.therm.shown.counters.toList
  | _ => le 8 s.therm.shown.holdEnd

/-- Whether a compare entry lies outside the soft limits (R70). -/
def State.unreachable (s : State) (i : Nat) : Bool :=
  let b := s.pBytes (0x2030 + i) 1
  (List.range (b.length / 8)).any (fun k =>
    let p := intAt b (8 * k) 4
    decide (p < (s.softLimits i).1) || decide ((s.softLimits i).2 < p))

/-- P 0x202i and P 0x203i (R72). -/
def State.readPulse (s : State) (idx sub : Nat) : Bytes :=
  let i := idx % 16
  let p := s.pulse i
  if idx < 0x2030 then
    match sub with
    | 1 => leI 4 p.count
    | 2 => leI 4 (satI32 (s.pulseSpeed i s.it))
    | 3 => le 1 p.status
    | 4 => le 1 (b2n p.rev)
    | 5 => le 8 p.last
    | 6 => le 4 p.illegal
    | 7 => le 4 p.uncert
    | 8 => le 4 p.glitches
    | 9 => le 4 p.overruns
    | _ => le 1 (bits [p.limLow, p.limHigh, p.overRate, p.idxSeen])
  else
    match sub with
    | 2 => le 4 p.crossed
    | 3 => le 8 p.crossIt
    | 4 => le 1 p.crossEnt
    | _ => le 1 (b2n (s.unreachable i))

/-- P 0x204h (R76). -/
def State.readHall (s : State) (h : Nat) : Nat → Bytes
  | 8 => le 1 (s.hall h).sector
  | 9 => leI 4 (satI32 (s.hallSpeed h s.it))
  | 0xA => le 1 (s.hall h).status
  | 0xB => le 1 (b2n (s.hall h).rev)
  | 0xC => leI 4 (satI32 (s.hall h).count)
  | 0xD => le 4 (s.hall h).illegal
  | 0xE => le 4 (s.hall h).invalid
  | _ => le 1 (b2n (s.hall h).badCode)

/-- P 0x205u, P 0x2058, P 0x2059 and P 0x2060 (R82, R84, R89). -/
def State.readMotion (s : State) (idx sub : Nat) : Bytes :=
  let m := s.motion
  if idx = 0x2058 then le 4 m.n2kOk
  else if idx = 0x2059 then le 4 m.isoOk
  else if idx = 0x2060 then
    match sub with
    | 8 => leI 4 (satI32 (vget m.inert.bias 0 0))
    | 9 => leI 4 (satI32 (vget m.inert.bias 1 0))
    | 0xA => leI 4 (satI32 (vget m.inert.bias 2 0))
    | 0xB => le 1 m.inert.status
    | 0xC => match m.inert.estIt with
      | some t => le 4 (sat32 ((s.it - t) / 1000000000))
      | none => le 4 0
    | 0xD => le 4 m.inert.faults
    | 0xE => le 1 (bits [m.inert.clamped, m.inert.fault])
    | _ => leI 2 (satI16 m.inert.temp)
  else
    let u := s.uart (idx - 0x2050)
    match sub with
    | 8 => le 4 u.accepted
    | 9 => le 4 u.csFail
    | 0xA => le 4 u.other
    | 0xB => le 1 u.quality
    | 0xC => le 8 u.valid
    | 0xD => leI 4 u.lat
    | 0xE => leI 4 u.lon
    | _ => le 1 u.basis

/-- P 0x2102, P 0x2110.04, P 0x2111 and P 0x2120 (R118, R119). -/
def State.readRoving (s : State) (idx sub : Nat) : Bytes :=
  let r := s.rov
  match idx, sub with
  | 0x2110, _ => le 8 r.foldAt
  | 0x2111, _ => r.local_.toList.flatMap (fun v => leI 4 (satI32 v))
  | 0x2120, _ => r.p0.bytes ++ (List.range 2048).flatMap (fun i => (s.poseAt (i + 1)).bytes)
  | _, 1 => le 1 r.state
  | _, 2 => le 8 r.poseIt
  | _, 3 => leI 4 r.p0.e
  | _, 4 => leI 4 r.p0.n
  | _, 5 => le 4 r.p0.psi
  | _, 6 => leI 4 r.p0.vx
  | _, 7 => leI 4 r.p0.vy
  | _, 8 => leI 4 r.p0.w
  | _, 9 => le 4 r.uncert
  | _, 0xA => leI 4 r.roll
  | _, 0xB => leI 4 r.pitch
  | _, 0xC => le 4 r.noQual
  | _, 0xD => le 1 r.quality
  | _, 0xE => le 1 (b2n r.rev)
  | _, 0xF => le 4 r.rejected
  | _, 0x10 => le 4 r.late
  | _, _ => le 1 r.flags

/-- An entry of P 0x2203.05 (R154): the pending edge of an output. -/
def Output.edgeBytes (x : Output) : Bytes :=
  match x.edge with
  | none => List.replicate 16 0
  | some e => le 8 e.it ++ le 1 (if e.opens then 1 else 2) ++ le 1 e.flags ++ leI 2 (if e.opens then satI16 e.moved else 0) ++ le 4 0

/-- P 0x2202 and P 0x2203 (R153, R154). -/
def State.readSpindle (s : State) (idx sub : Nat) : Bytes :=
  let d := s.spd
  if idx = 0x2202 then
    match sub with
    | 1 => le 1 d.state
    | 0xC => le 8 d.holdIt
    | _ => le 4 (vget d.counters (sub - 2) 0)
  else
    let nz := d.outs.toList.take 128
    match sub with
    | 1 => leAll 4 (nz.map (·.onDelay))
    | 2 => leAll 4 (nz.map (·.offDelay))
    | 3 => (List.range 128).flatMap (fun n =>
        le 1 (b2n (s.outp n).learned + 4 * b2n (s.outp n).unobs + 8 * b2n (s.outp n).clamped))
    | 4 => leAll 1 (nz.map (·.shown))
    | 5 => d.outs.toList.flatMap Output.edgeBytes
    | _ => leAll 1 ((d.outs.toList.drop 128).map (·.shown))

/-- P 0x2301 to P 0x2312 (R181, R182, R546). -/
def State.readDistaff (s : State) (idx sub : Nat) : Bytes :=
  let d := s.dis
  match idx, sub with
  | 0x2302, _ => le 1 d.result
  | 0x2303, _ => s.storeBlock (headerAt (sub - 1)) 256
  | 0x2310, 2 => le 4 d.applied
  | 0x2310, _ => le 1 d.reject
  | 0x2311, _ => s.tileRead
  | 0x2312, _ => s.exportTiles
  | _, 1 => le 1 (s.openHank.getD 0xFF)
  | _, 2 => le 4 s.freeTiles
  | _, 3 => le 2 d.cache.length
  | _, 4 => le 2 ((d.cache.filter (·.dirty.isSome)).length)
  | _, 5 => le 4 d.noMarks
  | _, 6 => le 4 d.found
  | _, 7 => le 4 d.acc.length
  | _, 8 => le 4 d.overflow
  | _, 9 => le 4 d.unmarked
  | _, 0xA => le 4 d.misses
  | _, 0xB => le 4 d.bitErrs
  | _, 0xC => le 1 (bits [s.poolIsLow, d.exhaust, d.late && s.power.geo, d.close.isSome])
  | _, _ => le 8 d.horizon

/-- P 0x2402, P 0x2403, P 0x2408+g.07 and P 0x240A.05 (R206 to R209). -/
def State.readRate (s : State) (idx sub : Nat) : Bytes :=
  let r := s.rate
  let nz := r.nz.toList
  match idx, sub with
  | 0x2402, 1 => le 1 r.flags
  | 0x2402, 2 => f32B r.request
  | 0x2402, 3 => f32B r.granted
  | 0x2402, 4 => f32B r.press
  | 0x2402, 5 => f32B r.predFlow
  | 0x2402, 6 => f32B r.measFlow
  | 0x2402, 7 => leI 2 (satI16 r.deviation)
  | 0x2402, _ => le 4 (vget r.counters (sub - 8) 0)
  | 0x2403, 1 => f32All (nz.map (·.target))
  | 0x2403, 2 => leAll 2 (nz.map (fun z => sat16 z.duty))
  | 0x2403, 3 => leAll 2 (nz.map (fun z => sat16 z.eff))
  | 0x2403, 4 => leAll 4 (nz.map (fun z => sat32 z.onTime))
  | 0x2403, 5 => leAll 2 (nz.map (fun z => sat16 z.ach))
  | 0x2403, 6 => nz.flatMap (fun z => leI 2 (satI16 z.err))
  | 0x2403, _ => leAll 1 (nz.map (·.flags))
  | 0x240A, _ => le 8 r.dose
  | _, _ => leI 4 (satI32 (vget r.meter (idx - 0x2408) 0))

/-- P 0x3000+n (R244). -/
def State.readChannel (s : State) (n : Nat) (sub : Nat) : Bytes :=
  let c := s.ch n
  match sub with
  | 0x10 => le 4 (s.closingDelay n)
  | 0x11 => le 4 (if c.accepted then c.s else s.pN (0x3000 + n) 0xA * 1000)
  | 0x12 => le 4 (sat32 c.opening)
  | 0x13 => le 4 (sat32 c.pullTime)
  | 0x14 => le 4 (sat32 c.recovery)
  | 0x15 => f32B (f32OfRat c.g 1000000000)
  | 0x16 => leI 2 (satI16 (rdiv c.tw 100000000))
  | 0x17 => leI 2 (satI16 (rdiv c.tb 100000000))
  | 0x18 => le 1 (s.chCode n)
  | 0x19 => le 1 (bits [c.warn, c.cap, c.peakShort, s.holdShort n, c.kinkMiss, c.lastClamp, c.lastUnobs])
  | 0x1A => le 8 c.lastKink
  | _ => leAll 4 c.counters.toList

/-- P 0x3080+b, P 0x3090 and P 0x3098+d (R246, R247, R258). -/
def State.readBanks (s : State) (idx sub : Nat) : Bytes :=
  if idx < 0x3090 then
    let b := s.bank (idx - 0x3080)
    match sub with
    | 8 => le 1 (s.bankCode (idx - 0x3080))
    | 9 => le 2 (sat16 b.current)
    | _ => leAll 4 b.counters.toList
  else if idx = 0x3090 then
    let b := s.bob
    match sub with
    | 8 => le 2 (sat16 b.rail)
    | 9 => leI 4 b.inMa
    | 0xA => le 1 b.state
    | 0xB => le 1 b.flags
    | 0xC => le 1 b.cause
    | 0xD => le 2 (sat16 s.bobCap)
    | 0xE => leAll 8 b.energy.toList
    | _ => le 4 (sat32 (b.headroom / 1000))
  else
    let d := s.die (idx - 0x3098)
    match sub with
    | 1 => le 1 d.state
    | 2 => le 1 (s.convUsed (idx - 0x3098) s.it)
    | 3 => le 1 d.peak
    | 4 => le 4 d.taken
    | 5 => le 4 d.unobs
    | 6 => le 4 d.resets
    | 7 => le 8 d.last
    | _ => le 1 d.cause

/-- P 0x3100+w, P 0x3200 and P 0x3210+8w+j (R285 to R287). -/
def State.readWhorl (s : State) (idx sub : Nat) : Bytes :=
  if idx < 0x3200 then
    let w := idx - 0x3100
    let l := s.lp w
    match sub with
    | 0x20 => le 1 l.state
    | 0x21 => le 1 l.region
    | 0x22 => le 1 (s.lpFlags w)
    | 0x23 => f32All l.rl.toList
    | 0x24 => f32All l.lag.toList
    | 0x25 => f32All l.granted.toList
    | 0x26 => f32All l.meas.toList
    | 0x27 => f32All l.filt.toList
    | 0x28 => f32All l.out.toList
    | 0x29 => f32All l.xc.toList
    | 0x2A => f32All l.z.toList
    | 0x2B => f32All l.limits.toList
    | 0x2C => le 8 l.last
    | 0x2D => le 2 (sat16 l.cost)
    | _ => leAll 4 l.counters.toList
  else if idx = 0x3200 then
    if sub = 1 then le 2 (sat16 s.whorl.load) else le 4 s.whorl.late
  else
    let w := (idx - 0x3210) / 8
    let j := (idx - 0x3210) % 8
    let l := s.lp w
    if sub = 3 then f32All ((List.range 200).map (fun o => l.coef j o))
    else le 1 ((l.staged.filter (fun p => p.1 / 200 == j)).length)

/-- P 0x3400+k (R304). -/
def State.readSpin (s : State) (k : Nat) (sub : Nat) : Bytes :=
  let x := s.sp k
  match sub with
  | 0x10 => le 4 x.cur.duty
  | 0x11 => le 4 x.shadow.duty
  | 0x12 => le 8 x.taken
  | 0x13 => le 8 (tickNs x.start)
  | 0x14 => le 8 x.m
  | 0x15 => leAll 4 x.counters.toList
  | 0x16 => le 1 (s.spinFlags k)
  | _ => le 1 (s.spinCode k)

/-- P 0x3500+h and P 0x3508+g (R319, R320). -/
def State.readStage (s : State) (idx sub : Nat) : Bytes :=
  if idx < 0x3508 then
    let b := s.br (idx - 0x3500)
    match sub with
    | 0x18 => le 1 (s.bridgeCode (idx - 0x3500))
    | 0x19 => leI 4 (satI32 b.current)
    | 0x1A => le 1 b.valve
    | 0x1B => le 1 b.flags
    | _ => leAll 4 b.counters.toList
  else
    let g := s.pt (idx - 0x3508)
    match sub with
    | 0x18 => le 1 g.code
    | 0x19 => leI 4 (satI32 g.link)
    | 0x1A => le 1 g.flags
    | _ => leAll 4 g.counters.toList

/-- P 0x3600+j and P 0x3610 (R334, R335). -/
def State.readLoad (s : State) (idx sub : Nat) : Bytes :=
  if idx = 0x3610 then
    match sub with
    | 1 => le 2 ((s.refill s.it).loads.avail / 1000000)
    | 2 => le 2 (s.loads.sw.toList.foldl (fun a l => if l.on then a + l.resv else a) 0 / 1000000)
    | _ => le 4 s.loads.locks
  else
    let j := idx - 0x3600
    let l := s.ld j
    match sub with
    | 0x18 => le 1 (s.ldCode j)
    | 0x19 => le 2 (sat16 l.current)
    | 0x1A => leI 2 (satI16 l.junction)
    | 0x1B => le 1 l.retries
    | 0x1C => le 1 l.flags
    | 0x1D => leAll 4 l.counters.toList
    | _ => le 2 (l.resv / 1000000)

/-- P 0x4002 to P 0x4004 (R449, R450). -/
def State.readSkein (s : State) (idx sub : Nat) : Bytes :=
  let k := s.skein
  match idx, sub with
  | 0x4002, 3 => (s.exportRead k.cursorA).1
  | 0x4002, _ => (s.exportRead k.cursorB).1
  | 0x4003, _ => padTo 64 k.lastWord
  | _, 1 => le 1 (if k.sramOnly then 2 else if k.relocated then 1 else 0)
  | _, 2 => le 1 (128 - k.remap.length - (s.card.badSpares.filter (fun x => x.1 == 7 && decide (384 ≤ x.2))).length)
  | _, 3 => le 4 k.nextSeq
  | _, 4 => le 4 k.oldest
  | _, 5 => le 2 k.used
  | _, 6 => le 2 k.high
  | _, 7 => leAll 4 k.lossTotal.toList
  | _, _ => leAll 4 k.counters.toList

/-- Whether a fault clears only at a cold start (R455). -/
def coldOnly (code subj : Nat) : Bool :=
  (code == 0xE002 && subj == 255) || [0xE006, 0xE009, 0xE00E, 0xE010, 0xE011, 0xE013].contains code

/-- An entry of P 0x4101.02 (R472). -/
def FaultEntry.bytes (e : FaultEntry) : Bytes :=
  le 8 e.it ++ le 2 e.code ++ le 1 e.resp ++ le 1 (bits [e.active, e.cold]) ++ le 4 e.subj

/-- P 0x4101 and P 0x4102 (R472, R473). -/
def State.readSuper (s : State) (idx sub : Nat) : Bytes :=
  let f := s.sup
  match idx, sub with
  | 0x4101, 1 => le 4 (bits ((List.range 21).map (fun k => k != 0 && f.active.any (fun a => a.code == 0xE000 + k))))
  | 0x4101, 2 => f.list.flatMap FaultEntry.bytes
  | 0x4101, 3 => leAll 4 f.counts.toList
  | 0x4101, 4 => le 4 f.warm
  | 0x4101, 5 => le 8 f.lastStop
  | 0x4101, _ => le 8 f.lastSafe
  | _, 8 => le 2 (bits (f.switches.toList.map (·.on)))
  | _, _ => match f.bare with
    | .inactive => [0]
    | .waiting => [1]
    | .armed => [2]

/-- The number of standing FAILs (R509). -/
def Carding.standing (c : Carding) : Nat := (c.results.filter (·.fail)).length

/-- A slice's entry of P 0x4201.07. -/
def Carding.resultBytes (c : Carding) (k : Nat) : Bytes :=
  match c.results.find? (fun r => r.slice == k) with
  | some r => le 1 r.result ++ le 1 r.repair ++ le 2 0 ++ le 4 r.boot
  | none => List.replicate 8 0

/-- The slices of Carding (R499). -/
def cardSlices : Nat := 16548

/-- Spare rows of a memory (R506). -/
def spareRows (m : Nat) : Nat := if m ≤ 7 then 512 else 8
/-- Fuse entries of a memory (R506). -/
def fuseRows (m : Nat) : Nat := if m ≤ 7 then 256 else 8

/-- A memory's entry of P 0x4201.08. -/
def State.repairBytes (s : State) (m : Nat) : Bytes :=
  let r := s.card.repairs.filter (fun x => x.memory == m)
  let soft := (r.filter (fun x => !x.fuse)).length
  let fuse := (r.filter (·.fuse)).length
  leAll 2 [soft, spareRows m - soft - fuse - (s.card.badSpares.filter (fun x => x.1 == m)).length, fuse, fuseRows m - fuse]

/-- P 0x4201 and P 0x4202 (R511). -/
def State.readCarding (s : State) (idx sub : Nat) : Bytes :=
  let c := s.card
  match idx, sub with
  | 0x4201, 1 => le 1 (match c.run with
    | none => 0
    | some r => if r.aborting.isSome then 2 else 1)
  | 0x4201, 2 => le 2 (match c.run with
    | some r => r.current
    | none => 0)
  | 0x4201, 3 => leAll 4 c.lastRun.toList
  | 0x4201, 4 => le 2 c.cursor
  | 0x4201, 5 => le 2 (sat16 c.standing)
  | 0x4201, 7 => (List.range (min 4096 (cardSlices - c.resCur))).flatMap (fun i => c.resultBytes (c.resCur + i))
  | 0x4201, _ => (List.range 12).flatMap s.repairBytes
  | _, 1 => le 1 c.life
  | _, 3 => le 1 (bits [true, true, c.key.isSome])
  | _, 5 => le 1 c.rollback
  | _, _ => le 1 c.pendLife

/-- The byte offset of an image slot (R489). -/
def slotBase (e slot : Nat) : Nat := 0xF8000000 + (2 * e + slot) * 0x800000

/-- An engine's state. -/
def State.engine (s : State) (e : Nat) : EngineSt :=
  vget s.card.engines e ⟨⟨0, 0, 0⟩, ⟨0, 0, 0⟩, false, 0, false, false⟩

/-- Whether a slot still holds its factory image. -/
def EngineSt.factory (x : EngineSt) (slot : Nat) : Bool := if slot = 0 then x.factoryA else x.factoryB

/-- The header of engine `e`'s factory image (R490): format 1, its engine, and free values for what the manual does not state
(Assumption 7). -/
def factoryHeader (e : Nat) : Bytes :=
  le 4 1 ++ le 1 e ++ [0] ++ le 2 (Config.factoryField e 0 % 129) ++ le 4 (Config.factoryField e 1) ++ le 2 (Config.factoryField e 2) ++
    le 2 0 ++ le 4 (1 + Config.factoryField e 3 % 8388352) ++ le 32 (Config.factoryField e 4) ++ le 64 (Config.factoryField e 5) ++
    List.replicate 140 0

/-- The bytes of a slot's header (R490). -/
def State.slotHeader (s : State) (e slot : Nat) : Bytes :=
  if (s.engine e).factory slot then factoryHeader e else Memory.readBlock s.mram (slotBase e slot) 256

/-- A header as a host reads it: its reserved bytes read 0 (R8, R490). -/
def headerShown (h : Bytes) : Bytes := bytesAt h 0 5 ++ [0] ++ bytesAt h 6 8 ++ [0, 0] ++ bytesAt h 16 100 ++ List.replicate 140 0

/-- The version of the image that engine `e` runs (R490, R512). -/
def State.runVersion (s : State) (e : Nat) : Nat := natAt (s.slotHeader e (b2n (s.engine e).runB)) 8 4

/-- P 0x4300+e and P 0x4310.03 (R512). -/
def State.readImage (s : State) (idx sub : Nat) : Bytes :=
  if idx = 0x4310 then
    let c := s.card
    le 1 c.cmdRes ++ le 1 c.cmdEng ++ le 1 c.cmdSlot ++ le 1 c.cmdCause ++ le 4 c.cmdGot ++ le 8 c.cmdAt ++ le 8 0
  else
    let k := idx - 0x4300
    let e := s.engine k
    let run := b2n e.runB
    match sub with
    | 1 => le 1 e.slotA.state
    | 2 => le 1 e.slotB.state
    | 3 => le 1 run
    | 4 => headerShown (s.slotHeader k 0)
    | 5 => headerShown (s.slotHeader k 1)
    | 6 => le 4 (s.runVersion k)
    | 7 => le 2 (natAt (s.slotHeader k run) 6 2)
    | _ => le 1 e.trials

/-- P 0x4400 (R484). -/
def State.readDev (s : State) : Nat → Bytes
  | 1 => le 1 s.power.dev.code
  | 3 => le 1 s.power.cmdResult
  | 4 => le 8 s.power.entered
  | 5 => le 1 s.power.wakeSrc
  | _ => le 1 s.power.stage

/-- P 0x4401 to P 0x4403 and P 0x4410+s (R396, R397). -/
def State.readDict (s : State) (idx sub : Nat) : Bytes :=
  let d := s.dict
  match idx, sub with
  | 0x4401, 1 => le 1 d.state
  | 0x4401, 2 => d.digest
  | 0x4401, 3 => d.imageDigest
  | 0x4401, 4 => le 2 d.staged.length
  | 0x4401, 5 => d.stagedList
  | 0x4401, 7 => le 1 d.lastRes
  | 0x4401, 8 => d.lastFail
  | 0x4401, 9 => le 8 d.lastAt
  | 0x4401, 0xA => le 4 d.commits
  | 0x4401, 0xB => le 4 d.recheck
  | 0x4401, 0xC => leAll 4 [d.accepted, d.refused]
  | 0x4401, _ => d.lastRef
  | 0x4402, _ => d.imgRes
  | 0x4403, 2 => describeFrom d.descCur
  | 0x4403, _ => le 2 describeAll.length
  | _, 8 => le 4 (vget d.streams (idx - 0x4410) ⟨0, 0, 0, false, none⟩).sent
  | _, _ => le 4 (vget d.streams (idx - 0x4410) ⟨0, 0, 0, false, none⟩).skipped

/-- The order code, WSG128-A1 in ASCII (R1, R2). -/
def orderCode : Bytes := [0x57, 0x53, 0x47, 0x31, 0x32, 0x38, 0x2D, 0x41, 0x31]

/-- The serial number of the identity range (R2, R421). -/
def serialNumberBytes : Bytes := Config.serialBytes.take 16

/-- The identity range 0x1000 (R2): order code, serial number, hardware issue (1, the 9th character of R1's order code), and the version
each engine runs. -/
def State.readIdentity (s : State) : Nat → Bytes
  | 1 => orderCode
  | 2 => serialNumberBytes
  | 3 => le 2 1
  | n => le 4 (s.runVersion (n - 4))

/-- The value of an RO parameter. -/
def State.readRO (s : State) (lvl idx sub : Nat) : Bytes :=
  if idx < 0x1100 then s.readIdentity sub
  else if idx < 0x1200 then s.readTime sub
  else if idx < 0x1210 then s.readPagrim lvl idx sub
  else if idx < 0x1400 then s.readNet idx sub
  else if idx < 0x1500 then s.readBudget sub
  else if idx < 0x2000 then s.readThermal sub
  else if idx < 0x2040 then s.readPulse idx sub
  else if idx < 0x2050 then s.readHall (idx - 0x2040) sub
  else if idx < 0x2100 then s.readMotion idx sub
  else if idx < 0x2200 then s.readRoving idx sub
  else if idx < 0x2300 then s.readSpindle idx sub
  else if idx < 0x2400 then s.readDistaff idx sub
  else if idx < 0x3000 then s.readRate idx sub
  else if idx < 0x3080 then s.readChannel (idx - 0x3000) sub
  else if idx < 0x3100 then s.readBanks idx sub
  else if idx < 0x3400 then s.readWhorl idx sub
  else if idx < 0x3500 then s.readSpin (idx - 0x3400) sub
  else if idx < 0x3600 then s.readStage idx sub
  else if idx < 0x4000 then s.readLoad idx sub
  else if idx < 0x4100 then s.readSkein idx sub
  else if idx < 0x4200 then s.readSuper idx sub
  else if idx < 0x4300 then s.readCarding idx sub
  else if idx < 0x4400 then s.readImage idx sub
  else if idx = 0x4400 then s.readDev sub
  else s.readDict idx sub

/-- Whether an RO value belongs to a block whose domain is not running (R12, R13, R377, R546). -/
def State.notStarted (s : State) (idx sub : Nat) : Bool :=
  if (0x2100 ≤ idx ∧ idx < 0x2300) ∨ (0x2400 ≤ idx ∧ idx < 0x2500) ∨ (idx = 0x2301 ∧ [3, 4, 7, 0xD].contains sub)
  then !s.power.geo
  else if 0x3100 ≤ idx ∧ idx < 0x3400 then !s.power.ctl
  else if idx = 0x1220 then !s.power.eth
  else false

/-- The image value of a writable parameter (R372). The values that the module itself changes stand in its state. -/
def State.imageValue (s : State) (idx sub : Nat) : Bytes :=
  if pkey idx sub = pkey 0x4002 1 then le 4 s.skein.cursorA
  else if pkey idx sub = pkey 0x4002 2 then le 4 s.skein.cursorB
  else if pkey idx sub = pkey 0x2312 2 then le 4 s.dis.cursor
  else if pkey idx sub = pkey 0x4403 1 then le 2 s.dict.descCur
  else if pkey idx sub = pkey 0x4201 6 then le 2 s.card.resCur
  else s.dict.image idx sub

/-- What a READ finds (R372, R377, R378): an abort code, or the read status and the value. -/
def State.readParam (s : State) (lvl idx sub : Nat) : Nat ⊕ (Nat × Bytes) :=
  if !indexInUse idx then .inl 1
  else if sub = 0 then .inr (0, le 1 (highestSub idx))
  else match findDesc idx sub with
    | none => .inl 2
    | some d =>
      if d.acc = 2 then .inl 4
      else if d.acc = 0 then
        let v := s.readRO lvl idx sub
        if s.notStarted idx sub then .inr (1, List.replicate v.length 0) else .inr (0, v)
      else .inr (0, s.imageValue idx sub)

end Sys2Proof.Machine
end

