-- ==== Sys2Proof/Machine/Slices.lean ====
section
/-! DEFINITION. What Carding keeps of its slices and runs (R500 to R506): results, the run in progress and its end, the repair table
in its two copies, and the life-cycle state with its transitions (R486). -/

namespace Sys2Proof.Machine

/-- The Carding unit's part of the state changed. -/
def State.modCard (s : State) (f : Carding → Carding) : State := { s with card := f s.card }

/-- A slice's entry of the result table with its signature (R31, R500, R509). Results: 1 PASS, 2 FAIL, 3 INCOMPLETE. An INCOMPLETE run leaves a
standing FAIL standing. -/
def State.sliceResult (s : State) (k result repair sig : Nat) : State :=
  let stands := (s.card.results.find? (fun r => r.slice == k)).any (·.fail)
  let fail := if result = 1 then false else if result = 2 then true else stands
  s.modCard (fun c => { c with
    results := ⟨k, result, repair, s.time.boot, fail, sig⟩ :: c.results.filter (fun r => r.slice != k) })

/-- An INCOMPLETE slice with its record (R510). How many patterns had been applied is not stated: a free value
(Assumption 4). -/
def State.sliceIncomplete (s : State) (k cause : Nat) : State :=
  ((s.sliceResult k 3 0 0).record 0xF012 k (le 4 (s.drawn % 4294967296) ++ le 1 cause)).draw

/-- The first slice still to run, with the rest. -/
def CardRun.next (r : CardRun) : Option (Nat × List (Nat × Nat)) :=
  match r.todo with
  | [] => none
  | (a, n) :: rest => if n = 0 then none else some (a, if n = 1 then rest else (a + 1, n - 1) :: rest)

/-- The slices of a list of ranges. -/
def rangeCount (l : List (Nat × Nat)) : Nat := (l.map (·.2)).foldl (· + ·) 0

/-- A run of some ranges; `budget` in ms counts at SHUTDOWN alone. -/
def State.startRun (s : State) (todo : List (Nat × Nat)) (shutdown : Bool) : State :=
  let todo := todo.filter (fun r => r.2 != 0)
  let n := rangeCount todo
  let budget := s.pN 0x4400 8
  let first := match todo with
    | [] => 0
    | r :: _ => r.1
  s.modCard (fun c => { c with run := some {
    todo := todo, current := first, shutdown := shutdown, aborting := none,
    requested := if shutdown then min n (budget / 20) else n,
    run := 0, pass := 0, fail := 0, inc := 0, skipped := 0, log := [], budget := budget } })

/-- Whether a run has a slice to run: at SHUTDOWN only within the budget, at 20 ms a slice (R502). -/
def CardRun.more (r : CardRun) : Bool := r.next.isSome && (!r.shutdown || decide (20 ≤ r.budget))

/-- The run signature (R505). -/
def CardRun.signature (r : CardRun) : Nat := if r.log.isEmpty then 0 else crc32 r.log

/-- The end of a run: P 0x4201.03, and at SHUTDOWN the CARDING-SUMMARY (R510). -/
def State.endRun (s : State) (r : CardRun) : State :=
  let s := s.modCard (fun c => { c with
    run := none, skipped := r.skipped, lastRun := vlist 6 [r.requested, r.run, r.pass, r.fail, r.inc, r.signature] 0 })
  s.recordIf r.shutdown 0xF010 0 (leAll 4 [r.run, r.fail, r.inc, s.card.cursor, r.signature])

/-- A run aborted (R481, R505): the slice in progress is INCOMPLETE, the remaining ones of the run are skipped. -/
def State.abortRun (s : State) (cause : Nat) : State :=
  match s.card.run with
  | none => s
  | some r =>
    match r.next with
    | none => s.endRun r
    | some (k, _) =>
      if !r.more then s.endRun r
      else
        let s := s.sliceIncomplete k cause
        s.endRun { r with inc := r.inc + 1, skipped := r.skipped + (r.requested - r.run - r.inc - 1) }

/-- A run on demand ends where the device state no longer allows one (R485; Assumption 132). -/
def State.abortDemand (s : State) : State :=
  match s.power.dev with
  | .run | .bare | .safe => (s.abortRun (s.drawn % 256)).draw
  | _ => s

/-! ### The boot ROM (R494) -/

/-- A slot of an engine. -/
def EngineSt.slot (e : EngineSt) (k : Nat) : Slot := if k = 0 then e.slotA else e.slotB

/-- The slot that an engine runs. -/
def EngineSt.running (e : EngineSt) : Nat := b2n e.runB

/-- Whether an engine has an image to run. -/
def EngineSt.boots (e : EngineSt) : Bool := [4, 5].contains (e.slot e.running).state

/-- Whether an engine has no valid slot, so that the boot ROM serves only image loading (R494). -/
def State.bootRom (s : State) : Bool := s.card.engines.toList.any (fun x => !x.boots)

/-- Whether the module stands in the boot ROM (R494). -/
def State.inBootRom (s : State) : Bool := s.power.dev == .boot && s.bootRom

/-! ### The repair table (R506) -/

/-- Whether a retired row holds some of the copy of the repair table that lies at `base` (R508). -/
def State.repairLost (s : State) (base n : Nat) : Bool :=
  s.card.retired.any (fun r => r.1 == 7 && decide (base ≤ 0xE0000000 + 0x2000 * r.2) && decide (0xE0000000 + 0x2000 * r.2 < base + n))

/-- The repair table `l` in use, and written to the copy that is not the newest one (R506; Assumption 133), or to the other where that
one's row is retired (R508). -/
def State.putRepairs (s : State) (l : List Repair) : State :=
  let c := s.card
  let n := 16 * l.length + 4
  let toB := if s.repairLost 0xFF800000 n then true else if s.repairLost 0xFFA00000 n then false
    else c.repA.valid && (!c.repB.valid || decide (c.repB.gen < c.repA.gen))
  let x : RepairCopy := ⟨max c.repA.gen c.repB.gen + 1, l, !(s.repairLost (if toB then 0xFFA00000 else 0xFF800000) n)⟩
  s.modCard (fun c => if toB then { c with repairs := l, repB := x } else { c with repairs := l, repA := x })

/-- The repair table at a cold start (R506): the newest copy that is valid is applied; without one only the fuse repairs act, which do
not depend on the table (R507). -/
def State.repairBoot (s : State) (bad : Vector Bool 2) : State :=
  let a : RepairCopy := { s.card.repA with valid := s.card.repA.valid && !(vget bad 0 false) }
  let b : RepairCopy := { s.card.repB with valid := s.card.repB.valid && !(vget bad 1 false) }
  let soft := if b.valid && (!a.valid || decide (a.gen ≤ b.gen)) then b.entries else if a.valid then a.entries else []
  let fuses := s.card.repairs.filter (·.fuse)
  s.modCard (fun c => { c with
    repA := a, repB := b,
    repairs := fuses ++ soft.filter (fun r => !r.fuse && !(fuses.any (fun f => f.memory == r.memory && f.row == r.row))) })

/-! ### The life-cycle state -/

/-- The life-cycle state changed, the transition kept in MRAM (R31), with its record (R510). -/
def State.setLife (s : State) (l : Nat) : State :=
  let old := s.card.life
  if old = l then s
  else (s.modCard (fun c => { c with life := l, lifeLog := c.lifeLog ++ [(s.time.boot, s.it, old, l)] })).record 0xF020 0 (le 1 old ++ le 1 l)

end Sys2Proof.Machine
end

