-- ==== Sys2Proof/Machine/Skein.lean ====
section
/-! DEFINITION. Skein (R433 to R448): alarms, the ingest stage with repeat holding, rate limit and overflow, snapshot sets,
the writer, the last word, and the log memory's failure. -/

namespace Sys2Proof.Machine

/-- Skein's part of the state changed. -/
def State.modSkein (s : State) (f : Skein → Skein) : State := { s with skein := f s.skein }

/-- One of Skein's counters (P 0x4004.08) raised by `k`. -/
def State.skeinCount (s : State) (i k : Nat) : State :=
  s.modSkein (fun d => { d with counters := vmod d.counters i (fun n => sat32 (n + k)) })

/-- Whether the management cores are stopped (R461). -/
def State.coresAbsent (s : State) : Bool := s.sup.stop.isSome

/-! ### The alarm lane (R445) -/

/-- The networks with a session. -/
def State.netsWithSession (s : State) : List Net :=
  [Net.canB, Net.canC, Net.eth].filter (fun n => s.nets.sessions.any (fun x => x.id.net == n))

/-- The place of a CAN network among P 0x1210+c (R430); CAN-A stands last. -/
def Net.canNo : Net → Nat
  | .canB => 0 | .canC => 1 | .eth => 3

/-- A counter of a CAN network raised: 0 received, 1 sent, 2 bus-off events, 3 receive overruns (R430). -/
def Nets.canCount (n : Nets) (c i : Nat) : Nets :=
  { n with can := vmod n.can c (fun x => { x with counters := vmod x.counters i (fun k => sat32 (k + 1)) }) }

/-- A counter of the ETH port raised: 0 received, 1 sent, 2 discarded, 3 ARP replies, 4 echo replies, 5 Sync received
(R431). -/
def Nets.ethCount (n : Nets) (i : Nat) : Nets :=
  { n with eth := { n.eth with counters := vmod n.eth.counters i (fun k => sat32 (k + 1)) } }

/-- Whether CAN network `c` (0 CAN-B, 1 CAN-C, 2 CAN-A) carries frames: the crystal runs and it is not at bus-off (R15,
R416). -/
def State.canUp (s : State) (c : Nat) : Bool :=
  s.power.crystalOk && s.power.dev.awake && (vget s.nets.can c ⟨0, Vector.replicate 4 0⟩).bus != 2

/-- Whether the ETH port carries frames: its domain runs and the link is up (R12, R418). -/
def State.ethUp (s : State) : Bool := s.power.crystalOk && s.power.dev.awake && s.power.eth && s.nets.eth.up

/-- Whether a Pagrim network carries frames. The boot ROM serves CAN-B and ETH alone (R494). -/
def State.netUp (s : State) (n : Net) : Bool :=
  if n = .eth then s.ethUp else s.canUp (Net.canNo n) && !(n == .canC && s.inBootRom)

/-- The lanes of R414. -/
inductive Lane where
  | request | block | stream | heartbeat | alarm
  deriving DecidableEq, Repr

/-- The lane of a service (R399, R414). -/
def laneOf (service : Nat) : Lane :=
  match service % 128 with
  | 3 => .block
  | 4 => .block
  | 6 => .stream
  | 7 => .alarm
  | 8 => .heartbeat
  | _ => .request

/-- The value of a lane in an identifier. -/
def Lane.value : Lane → Nat
  | .request => 0 | .block => 1 | .stream => 2 | .heartbeat => 3 | .alarm => 4

/-- The priority of a lane in arbitration; the lowest goes first. -/
def Lane.priority : Lane → Nat
  | .alarm => 0 | .heartbeat => 1 | .request => 2 | .stream => 3 | .block => 4

/-- The 29-bit identifier of a Pagrim frame (R414): priority, direction, lane and, in the stream lane, the stream number. -/
def canId (service stream : Nat) (toHost : Bool) : BitVec 29 :=
  let l := laneOf service
  BitVec.ofNat 29 (l.priority * 2 ^ 26 + b2n toHost * 2 ^ 25 + l.value * 2 ^ 16 + if l = .stream then stream % 256 else 0)

/-- The data lengths of CAN FD frames that can hold a Pagrim frame. -/
def canLengths : List Nat := [16, 20, 24, 32, 48, 64]

/-- A frame padded with 0x00 to the next data length of CAN FD (R414). -/
def canPad (b : Bytes) : Bytes :=
  match canLengths.find? (fun n => decide (b.length ≤ n)) with
  | some n => padTo n b
  | none => b

/-- A Pagrim frame (R398): header, payload and CRC-32C. -/
def pagrimBytes (session seq service idx sub : Nat) (payload : Bytes) : Bytes :=
  let b := le 1 1 ++ le 1 session ++ le 2 seq ++ le 1 service ++ le 2 idx ++ le 1 sub ++ le 4 payload.length ++ payload
  b ++ le 4 (crc32c b)

/-- The `n` bytes of a count, highest first: the order of the Internet protocols. -/
def be (n v : Nat) : Bytes := (le n v).reverse

/-- The count in `n` bytes of `b` at offset `o`, highest first. -/
def beAt (b : Bytes) (o n : Nat) : Nat := leNat (bytesAt b o n).reverse

/-- The sum of the 16-bit words of some bytes, highest byte first, an odd last byte standing high. -/
def wordSum : Bytes → Nat
  | [] => 0
  | [a] => 256 * a.toNat
  | a :: b :: l => 256 * a.toNat + b.toNat + wordSum l

/-- The bytes that a UDP checksum covers before the datagram: addresses, protocol 17, length. -/
def pseudoHeader (src dst len : Nat) : Bytes := be 4 src ++ be 4 dst ++ [0, 17] ++ be 2 len

/-- The UDP port of Pagrim on the module (R417). -/
def pagrimPort : Nat := 49712

/-- The UDP datagram that carries `b` to an address and port, its checksum generated (R417). -/
def udpDatagram (own addr port : Nat) (b : Bytes) : Bytes :=
  let len := 8 + b.length
  let head := be 2 pagrimPort ++ be 2 port ++ be 2 len
  let sum := wordSum (pseudoHeader own addr len ++ head ++ [0, 0] ++ b)
  head ++ be 2 (65535 - sum % 65535) ++ b

/-- A Pagrim frame as the module sends it on a network (R398, R413, R414, R417): from its own address on ETH, at the network's data
rate on CAN. -/
def State.pagrimSent (s : State) (n : Net) (addr port session seq service idx sub stream : Nat) (payload : Bytes) : Sent :=
  let b := pagrimBytes session seq service idx sub payload
  match n with
  | .eth => .pagrim n addr port 0 0 session seq service idx sub payload (udpDatagram (s.pN 0x1220 1) addr port b)
  | _ => .pagrim n addr port (canId service stream true) (s.pN (0x1210 + Net.canNo n) 2) session seq service idx sub payload (canPad b)

/-- A frame in the list of frames sent, with its counters. -/
def Nets.put (n : Nets) (f : Sent) : Nets :=
  let n := { n with tx := n.tx ++ [f] }
  match f with
  | .pagrim .canB .. => n.canCount 0 1
  | .pagrim .canC .. => n.canCount 1 1
  | .pagrim .eth .. => n.ethCount 1
  | .canA .. => n.canCount 2 1
  | .announce .. => n.canCount 2 1
  | .pool _ => n.canCount 2 1
  | .arp true .. => (n.ethCount 1).ethCount 3
  | .arp false .. => n.ethCount 1
  | .echo .. => (n.ethCount 1).ethCount 4
  | .gptp .. => n.ethCount 1

/-- Whether a frame's network carries frames. -/
def State.carries (s : State) (f : Sent) : Bool :=
  match f with
  | .pagrim n .. => s.netUp n
  | .canA .. => s.canUp 2
  | .announce .. => s.canUp 2
  | .pool _ => s.canUp 2
  | _ => s.ethUp

/-- A frame handed to a network; at bus-off and with the link down it is discarded (R416). -/
def State.send (s : State) (f : Sent) : State := if s.carries f then { s with nets := s.nets.put f } else s

/-- The ETH session that unasked frames go to (R417): the controlling session on ETH, else that of the most recent
HEARTBEAT. -/
def Nets.ethDest (n : Nets) : Nat × Nat :=
  let dst : Option SessionId := match n.ctrl with
    | some c => if c.net = .eth then some c else n.lastEth
    | none => n.lastEth
  match dst with
  | some c => (c.addr, c.port)
  | none => (0, 0)

/-- A frame that the module sends unasked on each of some networks (R398): session 0; `stream` is the stream number of a
publication. The manual gives such frames no sequence number: a free value (Assumption 4). -/
def State.sendUnasked (s : State) (nets : List Net) (service stream : Nat) (b : Bytes) : State :=
  nets.foldl (fun s n =>
    let d := if n = .eth then s.nets.ethDest else (0, 0)
    (s.send (s.pagrimSent n d.1 d.2 0 (s.drawn % 65536) service 0 0 stream b)).draw) s

/-- The bit of a network in P 0x1200.03 and P 0x4001.03. -/
def Net.bitNo : Net → Nat
  | .canB => 0 | .canC => 1 | .eth => 2

/-- One alarm sent (R445): 44 bytes, on each enabled network that has a session. -/
def State.sendAlarm (s : State) (r : Rec) (cls count : Nat) : State :=
  let nets := s.netsWithSession.filter (fun n => bit (s.pN 0x4001 3) (Net.bitNo n))
  if nets.isEmpty then s
  else
    (s.sendUnasked nets 7 0 (le 2 r.code ++ le 1 cls ++ [0] ++ le 4 r.boot ++ le 8 r.it ++ le 2 (sat16 count) ++ le 2 0 ++
      le 4 r.subj ++ padTo 20 r.det)).skeinCount 4 1

/-- Whether a record is an alarm (R445). -/
def State.isAlarm (s : State) (code cls : Nat) : Bool :=
  let l := s.pBytes 0x4001 2
  (bit (s.pN 0x4001 1) cls && code / 4096 != 0) || (List.range (l.length / 2)).any (fun i => natAt l (2 * i) 2 == code)

/-- The alarm of a record, decided at ingest: sent at once where no window of its code is open, counted otherwise. While
the cores are stopped nothing is sent and the occurrence waits in a window (R445). -/
def State.alarm (s : State) (r : Rec) (cls : Nat) : State :=
  if !s.isAlarm r.code cls then s
  else match s.skein.windows.find? (fun w => w.code == r.code) with
    | some w =>
      let w' : AlarmWin := if w.count = 0 then { w with first := r, cls := cls, count := 1 } else { w with count := w.count + 1 }
      s.modSkein (fun d => { d with windows := d.windows.map (fun x => if x.code == r.code then w' else x) })
    | none =>
      let late := s.coresAbsent
      let s := if late then s else s.sendAlarm r cls 1
      s.modSkein (fun d => { d with windows := d.windows ++ [⟨r.code, s.it + 100000000, r, cls, b2n late⟩] })

/-- The end of a window at `t` (R445). -/
def State.windowEnd (s : State) (w : AlarmWin) (t : IT) : State :=
  if w.count = 0 then s.modSkein (fun d => { d with windows := d.windows.filter (fun x => x.code != w.code) })
  else
    let w' : AlarmWin := { w with ends := t + 100000000, count := 0 }
    (s.sendAlarm w.first w.cls w.count).modSkein (fun d =>
      { d with windows := d.windows.map (fun x => if x.code == w.code then w' else x) })

/-- ALARM_WINDOW_END (R445). While the cores are stopped the window waits for their return. -/
def execAlarmWindowEnd (code : Nat) (s : State) : Host.Outcome State Fault Refusal :=
  .next (s.whenAwake (fun s =>
    match s.skein.windows.find? (fun w => w.code == code) with
    | none => s
    | some w =>
      let s := s.at w.ends
      if s.coresAbsent then s else s.windowEnd w w.ends))

/-! ### Snapshot sets (R444) -/

/-- Whether a value is kept only by the management cores: those of the dictionary engine, the networks and the life-cycle
unit (R444). -/
def coreKept (idx : Nat) : Bool :=
  (decide (0x1200 ≤ idx) && decide (idx < 0x1300)) || (decide (0x4202 ≤ idx) && decide (idx < 0x4400)) ||
  (decide (0x4401 ≤ idx) && decide (idx < 0x4420))

/-- The bytes of a listed value; a block not started reads 0, and no WO value can be listed (R449). -/
def State.listed (s : State) (idx sub : Nat) : Bytes :=
  match s.readParam 0 idx sub with
  | .inl _ => []
  | .inr v => v.2

/-- The listed values of snapshot set `t`: those of the management cores are read later. -/
def State.snapValues (s : State) (t : Nat) : List SnapVal :=
  let l := s.pBytes (0x4010 + t) 1
  (List.range (l.length / 4)).map (fun i =>
    let idx := natAt l (4 * i) 2
    let sub := natAt l (4 * i + 2) 1
    ⟨idx, sub, if coreKept idx then none else some (s.listed idx sub)⟩)

/-- The sets that a code triggers, in set order. -/
def State.snapSets (s : State) (code : Nat) : List Nat :=
  (List.range 8).filter (fun t =>
    let l := s.pBytes (0x4010 + t) 2
    (List.range (l.length / 2)).any (fun i => natAt l (2 * i) 2 == code))

/-- The values of a set as bytes; the late ones are read now. -/
def State.snapBytes (s : State) (v : List SnapVal) : Bytes :=
  v.flatMap (fun p => p.val.getD (s.listed p.idx p.sub))

/-- The parts of a set of `n` bytes. -/
def snapParts (n : Nat) : Nat := cdiv n 18

/-- The detail of part `i` of `k`: parts are counted from 0 (Assumption 20). -/
def snapDetail (b : Bytes) (i k : Nat) : Bytes := le 1 i ++ le 1 k ++ bytesAt b (18 * i) 18

/-! ### The queue (R439, R442) -/

/-- Whether a code may take the entries 8,129 to 8,192 (R439). -/
def spareCode (code : Nat) : Bool := [2, 3, 4, 5, 6, 8].contains code

/-- A loss counted (R442). -/
def Skein.lose (k : Skein) (code cls : Nat) (t : IT) : Skein :=
  { k with lossNow := vmod k.lossNow cls (fun n => sat32 (n + 1)), lossTotal := vmod k.lossTotal cls (fun n => sat32 (n + 1)),
           lossFirst := match k.lossFirst with
             | none => some (t, code)
             | some x => some x }

/-- The newest entry of the lowest class present taken out of the queue. -/
def dropNewest (cls : Nat) : List Entry → List Entry
  | [] => []
  | e :: es => if e.cls = cls ∧ !(es.any (fun x => x.cls == cls)) then es else e :: dropNewest cls es

/-- Whether an entry open to a record is free (R439): one of 1 to 8,128, or of 8,129 to 8,192 where its code may take these. -/
def Skein.hasRoom (k : Skein) (spare : Bool) : Bool := decide (k.general < 8128) || (spare && decide (k.spares < 64))

/-- Room for one entry of a class made by removing the newest entry of the lowest class present, if that is lower (R442);
none where the queue holds no lower class. -/
def Skein.makeRoom (k : Skein) (spare : Bool) (cls : Nat) (t : IT) : Option Skein :=
  if k.hasRoom spare then some k
  else
    let low := k.queue.foldl (fun m e => min m e.cls) 3
    if low < cls then
      match (k.queue.filter (fun e => e.cls == low)).getLast? with
      | none => none
      | some e => some ({ k with queue := dropNewest low k.queue }.lose e.r.code low t)
    else none

/-- The last entry of a queue changed. -/
def modLast (f : Entry → Entry) : List Entry → List Entry
  | [] => []
  | [e] => [f e]
  | e :: es => e :: modLast f es

/-- The last entry with one more SNAPSHOT record of its last set taken. -/
def Entry.takePart (e : Entry) : Entry :=
  { e with snaps := match e.snaps.reverse with
      | [] => []
      | x :: xs => xs.reverse ++ [{ x with taken := x.taken + 1 }] }

/-- The high-water mark renewed. -/
def Skein.mark (k : Skein) : Skein := { k with high := max k.high k.used }

/-- Up to `n` SNAPSHOT records taken into the queue behind their parent, into entries 1 to 8,128 alone (R439); one that finds no room
is dropped. -/
def Skein.takeParts (cls : Nat) (t : IT) : Nat → Skein → Skein
  | 0, k => k
  | n + 1, k => match k.makeRoom false cls t with
    | none => k
    | some k => Skein.takeParts cls t n { k with queue := modLast Entry.takePart k.queue }

/-- The SNAPSHOT records of the sets a code triggers, behind the parent that entered last. -/
def State.takeSnapshots (s : State) (r : Rec) (cls : Nat) : State :=
  (s.snapSets r.code).foldl (fun s t =>
    let v := s.snapValues t
    let b := s.snapBytes v
    let n := snapParts b.length
    let s := s.modSkein (fun k => { k with queue := modLast (fun e => { e with flags := e.flags ||| 1, snaps := e.snaps ++ [⟨0, v⟩] }) k.queue })
    let s := s.modSkein (fun k => Skein.takeParts cls s.it n k)
    (List.range n).foldl (fun s i => s.alarm ⟨1, r.it, r.boot, 0, snapDetail b i n⟩ cls) s) s

/-- An entry taken into the queue, or lost (R442). Its wall time is its Izcel time plus the offset in force now (R434). -/
def State.enqueue (s : State) (r : Rec) (reps flags lastRep : Nat) : State :=
  let cls := classOf r.code
  match s.skein.makeRoom (spareCode r.code) cls s.it with
  | none => s.modSkein (fun k => k.lose r.code cls s.it)
  | some k =>
    let wall := ((r.it : Int) + ((s.wallAt s.it : Int) - s.it)).toNat
    let e : Entry := ⟨r, wall, s.wallCode, cls, reps, flags + 4 * b2n s.coresAbsent, lastRep, [], decide (8128 ≤ k.general)⟩
    let s := { s with skein := { k with queue := k.queue ++ [e] } }
    (s.takeSnapshots r cls).modSkein Skein.mark

/-! ### Holding and the rate limit (R440, R441) -/

/-- The holding slot of a source. -/
def Skein.heldOf (k : Skein) (src : Nat) : Option Entry := vget k.holding src none

/-- The held record of a source released to the queue. -/
def State.release (s : State) (src : Nat) : State :=
  match s.skein.heldOf src with
  | none => s
  | some h =>
    (s.modSkein (fun k => { k with holding := vset k.holding src none })).enqueue h.r h.reps h.flags h.lastRep

/-- Every held record released: at the start of SHUTDOWN and before a management-core image switch. -/
def State.releaseAll (s : State) : State := (List.range 16).foldl State.release s

/-- A record of an ordinary source (R440). -/
def State.ingestOrdinary (s : State) (r : Rec) : State :=
  let src := r.code / 4096
  let fresh := fun (s : State) => s.modSkein (fun k =>
    { k with holding := vset k.holding src (some ⟨r, 0, 0, classOf r.code, 0, 0, 0, [], false⟩) })
  match s.skein.heldOf src with
  | none => fresh s
  | some h =>
    if h.r.code == r.code && h.r.subj == r.subj && decide (r.it ≤ h.r.it + s.pN 0x4000 2 * 1000000) && decide (h.reps < 65535) then
      let h' := { h with reps := h.reps + 1, lastRep := shortStamp r.it, flags := if h.reps + 1 = 65535 then 16 else h.flags }
      let s := (s.modSkein (fun k => { k with holding := vset k.holding src (some h') })).skeinCount 1 1
      if h'.reps = 65535 then s.release src else s
    else fresh (s.release src)

/-- The end of the limited second (R441): a SUPPRESSED record for each code suppressed in it. -/
def State.secondEnd (s : State) : State :=
  let ends := (s.skein.second + 1) * 1000000000
  let l := s.skein.limited
  let s := s.modSkein (fun k => { k with limited := [], second := s.it / 1000000000 })
  (l.filter (fun c => decide (0 < c.supp))).foldl (fun s c =>
    let r : Rec := ⟨2, ends, s.time.boot, c.code, le 4 (sat32 c.supp) ++ le 8 c.first⟩
    (s.alarm r 3).enqueue r 0 0 0) s

/-- A record of a privileged source (R441). -/
def State.ingestPrivileged (s : State) (r : Rec) : State :=
  if [2, 3, 4, 5, 6, 8].contains r.code then s.enqueue r 0 0 0
  else
    match s.skein.limited.find? (fun c => c.code == r.code) with
    | none => (s.modSkein (fun k => { k with limited := k.limited ++ [⟨r.code, 1, 0, 0⟩] })).enqueue r 0 0 0
    | some c =>
      let put := fun (c' : PrivCount) => s.modSkein (fun k =>
        { k with limited := k.limited.map (fun x => if x.code == r.code then c' else x) })
      if c.taken < s.pN 0x4000 1 then (put { c with taken := c.taken + 1 }).enqueue r 0 0 0
      else (put { c with supp := c.supp + 1, first := if c.supp = 0 then r.it else c.first }).skeinCount 2 1

/-- A record through the ingest stage. -/
def State.ingest (s : State) (r : Rec) : State :=
  let s := if s.skein.second < s.it / 1000000000 then s.secondEnd else s
  let s := s.alarm r (classOf r.code)
  if privileged r.code then s.ingestPrivileged r else s.ingestOrdinary r

/-- Every record on its way through the ingest stage, oldest first. -/
def State.ingestAll (s : State) : State :=
  s.skein.arriving.foldl State.ingest (s.modSkein (fun k => { k with arriving := [] }))

/-- RECORD_INGEST (R439): the oldest record on its way. -/
def execRecordIngest (s : State) : Host.Outcome State Fault Refusal :=
  .next (s.whenAwake (fun s =>
    match s.skein.arriving with
    | [] => s
    | r :: rs => (s.modSkein (fun k => { k with arriving := rs })).ingest r))

/-- HELD_RECORD_RELEASE (R440): the repeat window has passed since the held record's own IT. -/
def execHeldRecordRelease (src : Fin 16) (s : State) : Host.Outcome State Fault Refusal :=
  .next (s.whenAwake (fun s =>
    match s.skein.heldOf src with
    | none => s
    | some h => (s.at (h.r.it + s.pN 0x4000 2 * 1000000)).release src))

/-- LIMITED_SECOND_END (R441). -/
def execLimitedSecondEnd (s : State) : Host.Outcome State Fault Refusal :=
  .next (s.whenAwake (fun s => (s.at ((s.skein.second + 1) * 1000000000)).secondEnd))

/-- LOSS_RECORD (R442): once no more than 7,168 of the entries 1 to 8,128 are taken, the losses since the last LOSS record. -/
def execLossRecord (s : State) : Host.Outcome State Fault Refusal :=
  .next (s.whenAwake (fun s =>
    match s.skein.lossFirst with
    | none => s
    | some (t, code) =>
      if 7168 < s.skein.general then s
      else
        let r : Rec := ⟨3, t, s.time.boot, 0, leAll 4 s.skein.lossNow.toList ++ le 2 code⟩
        let s := s.modSkein (fun k => { k with lossNow := Vector.replicate 4 0, lossFirst := none })
        (s.alarm r 3).enqueue r 0 0 0))

/-! ### The writer (R436, R443) -/

/-- Whether one record key lies below another (R53). -/
def Rec.before (a b : Rec) : Bool := decide (a.boot < b.boot) || (a.boot == b.boot && decide (a.it < b.it))

/-- The entry with the lowest record key, the first among equals, and the queue without it. -/
def takeLowest : List Entry → Option (Entry × List Entry)
  | [] => none
  | e :: es => match takeLowest es with
    | none => some (e, [])
    | some (m, rest) => if m.r.before e.r then some (m, e :: rest) else some (e, es)

/-- A parent and its SNAPSHOT records written (R435, R444, R448). Those records entered with their parent, so they carry its
CORES-ABSENT (R433). -/
def State.writeEntry (s : State) (e : Entry) : State :=
  let sram := 8 * b2n s.skein.sramOnly
  let late := 2 * b2n (e.snaps.any (fun p => p.vals.any (fun v => v.val.isNone)))
  let seq := s.skein.nextSeq
  let vals := e.snaps.map (fun p => (p.taken, s.snapBytes p.vals))
  let s := s.storeRecord (e.bytes seq (e.flags ||| late ||| sram))
  vals.foldl (fun s p =>
    (List.range p.1).foldl (fun s i =>
      s.storeRecord (recordBytes e.r.boot e.r.it e.wall e.wallSt e.cls 1 s.skein.nextSeq 0 (e.flags &&& 4 ||| sram) 0 seq
        (snapDetail p.2 i (snapParts p.2.length)))) s) s

/-- RECORD_WRITE (R443): the writer takes the lowest-keyed entry. While the management cores are stopped it writes nothing, and while a
Carding slice holds its slot it waits (R503). -/
def execRecordWrite (s : State) : Host.Outcome State Fault Refusal :=
  .next (s.whenAwake (fun s =>
    if s.coresAbsent || (!s.skein.sramOnly && s.sliceAt (logBase + 64 * s.skein.slotPtr) 64) then s
    else match takeLowest s.skein.queue with
      | none => s
      | some (e, rest) => (s.modSkein (fun k => { k with queue := rest })).writeEntry e))

/-- The whole queue written, lowest key first (step 3 of R479). -/
def State.drain : Nat → State → State
  | 0, s => s
  | n + 1, s => match takeLowest s.skein.queue with
    | none => s
    | some (e, rest) => State.drain n ((s.modSkein (fun k => { k with queue := rest })).writeEntry e)

/-- Skein's flush at SHUTDOWN: everything on its way enters, everything queued is written, but for a stop of the management cores
(R443). -/
def State.skeinFlush (s : State) : State :=
  let s := s.releaseAll.ingestAll.releaseAll
  if s.coresAbsent then s else State.drain s.skein.queue.length s

/-! ### When the log memory fails (R447, R448) -/

/-- Whether the last-word area holds a failure (LOG-FAULT of R411). -/
def Skein.logFault (k : Skein) : Bool := !k.lastWord.isEmpty

/-- The lowest spare row of a memory from `lo` up to `hi` that is neither taken nor unusable (R506). -/
def State.freeSpare (s : State) (m lo hi : Nat) : Option Nat :=
  ((List.range (hi - lo)).map (lo + ·)).find? (fun k =>
    !(s.card.repairs.any (fun r => r.memory == m && r.spare == k)) && !(s.card.badSpares.contains (m, k)))

/-- A row of the event log mapped to a spare row of M7, of which 128 serve the log (R447, R506). -/
def State.remapLog (s : State) (row spare : Nat) : State :=
  let s := s.putRepairs (s.card.repairs ++ [⟨7, false, row, spare, s.time.boot⟩])
  (s.modSkein (fun k => { k with remap := k.remap ++ [(row, spare)], relocated := true })).skeinCount 3 1

/-- LOG-SRAM-ONLY entered (R448). -/
def State.logSram (s : State) : State :=
  if s.skein.sramOnly then s else (s.modSkein (fun k => { k with sramOnly := true })).record 6 0 []

/-- A failing row of the event log relocated while a spare row remains (R447, R448). -/
def State.relocate (s : State) (row : Nat) : State :=
  match s.freeSpare 7 384 512 with
  | some k => (s.remapLog row k).record 5 0 []
  | none => s.logSram

/-- LOG_ROW_FAILURE (R447, R448). The LOG-FAULT record goes to the last-word area at the first failure since that area was
emptied; every failing row is relocated while a spare row remains (Assumption 21). -/
def execLogRowFailure (t : IT) (row : Nat) (s : State) : Host.Outcome State Fault Refusal :=
  .next (s.whenAwake (fun s =>
    let s := s.at t
    if s.skein.sramOnly then s
    else
      let s := if s.skein.logFault then s
        else
          let wall := s.wallAt s.it
          (s.modSkein (fun k => { k with
            lastWord := recordBytes s.time.boot s.it wall s.wallCode 3 4 (s.drawn % 4294967296) 0 0 0 0 [] })).draw
      s.relocate row))

/-- Skein at a cold start: the queue, the holding slots and the counters begin anew, writing resumes after the newest
record, and a record of the last-word area becomes the first record of the boot (R436, R447, R450). -/
def State.skeinBoot (s : State) : State :=
  let s := s.modSkein (fun k => { Skein.reset with
    arriving := k.arriving, held := k.held, slotPtr := k.slotPtr, nextSeq := k.nextSeq, remap := k.remap,
    relocated := k.relocated, lastWord := k.lastWord, second := s.it / 1000000000 })
  let s := s.logResume
  if s.skein.logFault then
    let w := s.skein.lastWord
    let b := putAt (w.take 60) 24 (le 4 s.skein.nextSeq)
    let s := s.storeRecord (b ++ le 4 (crc32 b))
    s.modSkein (fun k => { k with cursorA := k.oldest, cursorB := k.oldest })
  else s

end Sys2Proof.Machine
end

