-- ==== Sys2Proof/Machine/States.lean ====
section
/-! DEFINITION. Moves between device states (R12, R459, R468 to R470, R474 to R477): what each block does at each entry, the
bare mode, and the end of a hank's close sequence. -/

namespace Sys2Proof.Machine

/-- Power's part of the state changed. -/
def State.modPower (s : State) (f : Power → Power) : State := { s with power := f s.power }

/-- The supervisor's part of the state changed. -/
def State.modSup (s : State) (f : Super → Super) : State := { s with sup := f s.sup }

/-- The device state changed, with its record (R477). Causes: 0 COMMAND, 1 COMMIT, 2 FAULT, 3 POSITION-LOSS, 4 IGN,
5 BOOT-DONE, 6 THERMAL, 7 WAKE-HOLD. Spinner signals are gated at once (R302). Leaving RUN ends the spray intervals that count
(R172), and an on-demand Carding run ends where the new state allows none (R485). -/
def State.setDev (s : State) (d : DevState) (cause : Nat) : State :=
  let old := s.power.dev
  let s := s.record 0xF001 0 (le 1 old.code ++ le 1 d.code ++ le 1 cause)
  let s := (s.modPower (fun p => { p with dev := d, entered := s.it })).abortDemand.spinsFollow
  let s := if old = .run then s.modDis (fun x => { x with runs := (s.it, false) :: x.runs }) else s
  if d = .run then s.modDis (fun x => { x with runs := (s.it, true) :: x.runs }) else s

/-! ### The GEO domain (R12) -/

/-- GEO stops: Roving and Spindle are not started, the lap cache is empty. -/
def State.geoStop (s : State) : State :=
  let s := s.modDis (fun d => { d with cache := [], fills := [], acc := [], late := false })
  (s.modPower (fun p => { p with geo := false, geoFlush := false })).rovStop.spdStop

/-- GEO starts at entry to READY, or goes on where its flush has not ended. -/
def State.geoStart (s : State) : State :=
  if s.power.geo then (s.modPower (fun p => { p with geoFlush := false })).spdIdle
  else (s.modPower (fun p => { p with geo := true, geoFlush := false })).rovStart.spdIdle

/-- At entry to SAFE, SHUTDOWN or SERVICE: the open hank's close sequence runs, and GEO stops once the lap cache is
flushed, at once where no hank is open. -/
def State.geoLeave (s : State) (keep : Bool) : State :=
  let s := s.closeAll keep
  if !s.power.geo then s
  else if s.dis.close.isSome then s.spdIdle.modPower (fun p => { p with geoFlush := true })
  else s.geoStop

/-- CTL starts once a loop is enabled, in READY or any later state (R12). -/
def State.ctlStart (s : State) : State :=
  if s.power.ctl || !((List.range 8).any s.lpOn) || s.power.dev.code < 3 || s.power.dev = .shutdown then s
  else (s.modPower (fun p => { p with ctl := true })).whorlEnter .ready

/-- A slot becomes CLOSED, with its key and its record (R158 step 5). -/
def State.hankShut (s : State) (k : Nat) : State :=
  (s.modHank k (fun h => { h with state := 1, closed := (s.time.boot, s.it) })).record 0x4002 k []

/-- The end of a close sequence (R158 steps 3 to 5): every entry settles, every dirty tile is written back, and the hank
closes unless it stays open through SAFE or BARE. -/
def State.closeDone (s : State) (c : CloseSeq) : State :=
  let k := c.slot
  let s := s.dis.acc.foldl (fun s a => s.settleNow k a) s
  let s := s.dis.cache.foldl (fun s x => s.writeBack k x) s
  let s := s.modDis (fun d => { d with acc := [], cache := [], fills := [], close := none })
  let s := if s.power.geoFlush then s.geoStop else s
  let s := if s.power.dev = .shutdown then s.modPower (fun p => { p with stage := max p.stage 3 }) else s
  if c.keep then s
  else
    (s.hankShut k).modDis (fun d => { d with result := 0 })

/-- A COMMIT or a write that sets conveyor operation finds a hank OPEN (R32): Distaff holds none from then on. Nothing more is marked,
what was marked is written back, and the slot is CLOSED with its record (Assumption 102). -/
def State.conveyorClose (s : State) : State :=
  match s.openHank with
  | some k =>
    if !(s.pB 0x2070 1) then s
    else
      let s := s.dis.cache.foldl (fun s x => s.writeBack k x) s
      let asked := s.dis.close.any (fun c => !c.keep) || s.dis.wait.any (fun w => w.cmd == 3)
      let s := s.modDis (fun d => { d with
        acc := [], cache := [], fills := [], close := none, marking := false, result := if asked then 0 else d.result,
        opens := if d.marking then (boundaryAtOrAfter s.it, false) :: d.opens else d.opens,
        wait := if d.wait.any (fun w => w.cmd == 3) then none else d.wait })
      let s := if s.power.geoFlush then s.geoStop else s
      s.hankShut k
  | none => s

/-- Whether a Carding slice holds what the close of slot `k` still writes (R503). -/
def State.closeHeld (s : State) (k : Nat) : Bool :=
  s.lapHeld || s.sliceAt (headerAt k) 4096 || s.dis.cache.any (fun x => x.dirty.isSome && s.backHeld k x.col x.row)

/-- CLOSE_SEQUENCE_DONE (R158): once the marking horizon has passed the close boundary. While GEO is stopped nothing is left
to mark. It waits for a Carding slice (R503). -/
def execCloseSequenceDone (t : IT) (s : State) : Host.Outcome State Fault Refusal :=
  .next (match s.dis.close with
    | none => s
    | some c =>
      if (s.power.geo && decide (s.dis.horizon ≤ c.at_)) || s.closeHeld c.slot then s else (s.at (max t c.at_)).closeDone c)

/-! ### Outputs going off -/

/-- The dies discard every edge not yet executed; the reservations of pull-ins that no longer come go with them, and the
frame that handed them over can no longer be discarded (R20). -/
def State.discardEdges (s : State) : State :=
  let s := s.dropEdges
  let s := { s with chan := s.chan.map (fun (c : Channel) => { c with retryAt := none, dieClosed := none }) }
  { s with undo := none, sup := { s.sup with overruns := 0 }, budget := { s.budget with
      pending := s.budget.pending.filter (fun p => decide (p.1 ≤ s.it)),
      resvs := s.budget.resvs.filter (fun r => !r.pull || ((s.ch r.who).state == 1 && decide (r.till ≤ s.it + 10000000))) } }

/-- Every channel closes through R216 or R218, on the supervisor's order. -/
def State.closeChannels (s : State) : State := s.closeTogether (List.range 128) s.it .ordered

/-! ### SAFE (R459, R460) -/

/-- Entry to SAFE at the present time, from READY, RUN or BARE. The model takes the latest times of R459 as one instant:
the state reads SAFE at the reference (Assumption 22). -/
def State.enterSafe (s : State) (cause : Nat) : State :=
  if s.power.dev ≠ .ready ∧ s.power.dev ≠ .run ∧ s.power.dev ≠ .bare then s
  else
    let s := s.discardEdges.rateIdle
    let s := s.setDev .safe cause
    let s := s.closeChannels
    let s := (s.bridgesEnter .safe).whorlEnter .safe
    let s := (s.bobbinEnter .safe).geoLeave true
    let s := s.modSup (fun f => { f with lastSafe := s.it, bare := .inactive, bareNext := none })
    s.loadsFollow.spinsFollow

/-! ### The bare mode (R241, R317, R468 to R470) -/

/-- The accepted state of switch `i`. -/
def State.switchOn (s : State) (i : Nat) : Bool := (vget s.sup.switches i ⟨false, false, 0, false⟩).on

/-- Whether the switches ask for bare group `g`: the bare mode armed, S0 and the group's switch on; group 0 never. -/
def State.bareGroup (s : State) (g : Nat) : Bool :=
  s.sup.bare == .armed && g != 0 && s.switchOn 0 && s.switchOn g

/-- Whether nozzle `n` is to be on in BARE (R468). -/
def State.bareWants (s : State) (n : Nat) : Bool :=
  let z := s.nozzle n
  z.present && s.chEnabled n && !(s.plyPartner n) && s.bareGroup z.bare &&
    !(s.sup.active.any (fun a => a.code == 0xE007 && a.subj == n && a.resp == 1)) &&
    (z.feed == 0 || (s.br (z.feed - 1)).valve == 1)

/-- The end of a bank's last pull-in window, running or still to come. -/
def State.lastWindow (s : State) (b : Nat) : IT :=
  let run := (bankChannels b).foldl (fun m n => max m (s.ch n).pull.ends) 0
  (s.bank b).slots.foldl (fun m r => max m r.ends) run

/-- The first start a pull-in of channel `n` may have in BARE: 10 µs after its bank's last window, past the pull-in pause of its
die at level 2 (R241, R362), and late enough for the bank switch to move (R211, Assumption 91). -/
def State.bareStart (s : State) (n : Nat) : IT :=
  let bank := s.lastWindow (n / 8)
  let a := if bank = 0 then s.it + 5000 else max (s.it + 5000) (bank + 10000)
  if 2 ≤ vget s.therm.acting (n / 32) 0 then
    let die := (List.range 4).foldl (fun m i => max m (s.lastWindow (4 * (n / 32) + i))) 0
    if die = 0 then a else max a (die + s.pN 0x1500 0x11 * 1000)
  else a

/-- A pull-in of channel `n` submitted in BARE (R241): placed, waiting, or NOT-OPENED and tried again 100 ms later (R350). -/
def State.bareAsk (s : State) (n : Nat) : State :=
  let t := s.bareStart n
  let place := fun (s : State) (pct : Nat) =>
    (s.addEdge n ⟨true, t, pct, 0⟩).modBank (n / 8) (fun b => { b with slots := b.slots ++ [⟨n, t, t + (s.ch n).pullTime⟩] })
  let r := s.requestPull n t
  match r.2 with
  | .granted => place r.1 100
  | .limited p => place r.1 p
  | .deferred d => r.1.modCh n (fun c => { c with retryAt := some (t + d) })
  | .shed => r.1.modCh n (fun c => { c.count 1 with retryAt := some (s.it + 100000000) })

/-- Whether channel `n` may be pulled in: not driven, and no pull-in placed or waiting. -/
def State.bareIdle (s : State) (n : Nat) : Bool :=
  let c := s.ch n
  c.state != 1 && c.state != 2 && c.edges.isEmpty && c.retryAt.isNone

/-- Channel `n` served from the switches at the present time (R468, R470). -/
def State.bareChannel (s : State) (n : Nat) : State :=
  if s.bareWants n then (if s.bareIdle n then s.bareAsk n else s)
  else
    let s := s.modCh n (fun c => { c with edges := [], retryAt := none })
    let s := s.modBank (n / 8) (fun b => { b with slots := b.slots.filter (fun r => r.ch != n) })
    if (s.ch n).state == 1 || (s.ch n).state == 2 then s.closeCh n s.it .switched else s

/-- Spindle-owned bridge `h` served from the switches (R317). A drive that was shed is submitted again 100 ms later
(Assumption 23). -/
def State.bareValve (s : State) (h : Nat) : State :=
  let x := s.br h
  if !(s.valveOwned h) || !(s.brFree h) then s
  else if s.bareGroup (s.pN (0x3500 + h) 0xF) then
    if x.valve == 1 || x.valve == 3 || x.asked.isSome then s
    else match x.shedNote with
      | some t => if s.it < t + 100000000 then s else (s.modBr h (fun x => { x with shedNote := none })).valveAsk h s.it
      | none => s.valveAsk h s.it
  else
    let s := s.modBr h (fun x => { x with asked := none, shedNote := none })
    if x.valve == 2 || x.valve == 4 then s else s.valveClose h

/-- The nozzle channels that the supervisor commands in BARE, served at the present time. -/
def State.bareChannels (s : State) : State :=
  let s := { s with banks := s.banks.map (fun (b : Bank) => { b with slots := b.slots.filter (fun r => decide (s.it ≤ r.ends)) }) }
  (List.range 128).foldl State.bareChannel s

/-- The bridges and ports in BARE served at the present time, in ascending requester number: valves from the switches, the others
as their loops' safe outputs ask (R283, R317, R342). -/
def State.bareTorque (s : State) : State :=
  ((List.range 6).foldl (fun s o => if o < 4 ∧ s.valveOwned o then s.bareValve o else s.whorlBare o)
    (s.whorlBareMark (fun l => { l with held := false }))).whorlBareMark Loop.delivered

/-- Re-arm (R470): S0 read off and then on again after entry. -/
def State.bareArm (s : State) : State :=
  if s.sup.bare ≠ .waiting then s
  else
    let off := s.sup.sawOff || !(s.switchOn 0)
    s.modSup (fun f => { f with sawOff := off, bare := if off && s.switchOn 0 then .armed else .waiting })

/-- Entry to BARE from RUN at the present boundary (R470); the requests of the outputs served in it follow in class order. -/
def State.enterBare (s : State) (cause : Nat) : State :=
  if s.power.dev ≠ .run then s.modSup (fun f => { f with bareNext := none })
  else
    let s := s.discardEdges.rateIdle
    let s := (s.setDev .bare cause).spdIdle
    let s := (s.bridgesEnter .bare).whorlEnter .bare
    let s := (s.bobbinEnter .bare).closeAll true
    let s := s.modSup (fun f => { f with
      bare := if s.pB 0x4102 3 then .waiting else .armed, sawOff := false, bareNext := none })
    s.loadsOff

/-- BARE_PULL_IN_RETRY (R241): a waiting pull-in is submitted again. -/
def execBarePullInRetry (n : Fin 128) (s : State) : Host.Outcome State Fault Refusal :=
  .next (match (s.ch n).retryAt with
    | none => s
    | some t =>
      if s.power.dev ≠ .bare then s
      else
        let s := (s.at t).modCh n (fun c => { c with retryAt := none })
        if s.bareWants n && s.bareIdle n then s.bareAsk n else s)

/-! ### READY, RUN, SERVICE -/

/-- Entry to READY from UNCONFIGURED or SAFE (R474, R478). -/
def State.enterReady (s : State) (cause : Nat) : State :=
  let s := (s.setDev .ready cause).geoStart
  let s := s.ctlStart
  let s := (s.bridgesEnter .ready).whorlEnter .ready
  (s.bobbinEnter .ready).loadsFollow

/-- Entry to RUN from READY or BARE (R476). -/
def State.enterRun (s : State) : State :=
  let s := (s.setDev .run 0).discardEdges
  let s := s.modSup (fun f => { f with bare := .inactive, bareNext := none, overruns := 0 })
  let s := s.spdRun.rateRun
  let s := (s.bridgesEnter .run).whorlEnter .run
  (s.bobbinEnter .run).markResume.loadsOff

/-- Entry to SERVICE from READY or SAFE: the life-cycle state becomes SERVICE (R486). -/
def State.enterService (s : State) : State :=
  let s := (s.setDev .service 0).geoLeave true
  let s := (s.bridgesEnter .service).whorlEnter .service
  let s := (s.bobbinEnter .service).loadsFollow
  if s.card.life = 2 then s.setLife 3 else s

/-- A state command that has reached its boundary (R475): it acts where the table of R474 still lists it. One that asks for READY, RUN
or BARE is refused there by a THERMAL-LATCH set since its acceptance (R364). -/
def State.commandEffect (s : State) : State :=
  match s.power.cmd with
  | none => s
  | some c =>
    let s := (s.at c.boundary).modPower (fun p => { p with cmd := none })
    if s.sup.thermal ∧ c.target ≠ 5 then s.modPower (fun p => { p with cmdResult := 4 })
    else match c.target, s.power.dev with
    | 1, .ready => s.enterRun
    | 1, .bare => s.enterRun
    | 2, .run => s.enterBare 0
    | 4, .safe => s.enterReady 0
    | 5, .ready => if s.card.life = 2 ∨ s.card.life = 3 then s.enterService else s
    | 5, .safe => if s.card.life = 2 ∨ s.card.life = 3 then s.enterService else s
    | _, _ => s

/-- STATE_COMMAND_EFFECT (R475). -/
def execStateCommandEffect (s : State) : Host.Outcome State Fault Refusal := .next s.commandEffect

end Sys2Proof.Machine
end

