-- ==== Sys2Proof/Machine/Supervisor.lean ====
section
/-! DEFINITION. The supervisor (R455 to R464): handling a fault, its response by device state, clearing faults, the
management cores' stop and return, host loss and position loss. -/

namespace Sys2Proof.Machine

/-- The cause of a STATE-CHANGE that a fault brings (R477). -/
def faultCause (code : Nat) : Nat := if code = 0xE00B then 3 else if code = 0xE011 then 6 else 2

/-- The management cores stop (R28, R390, R461): staged values, a COMMIT on its way and open transport connections are lost, and the coast window opens in
RUN and BARE. -/
def State.coresStop (s : State) (c : StopCause) : State :=
  if s.coresAbsent then s
  else
    let n := s.dict.staged.length
    let moving := s.power.dev == .run || s.power.dev == .bare
    let cfg := s.dict.state
    let s := if c = .imageSwitch then s.releaseAll else s
    let s : State := { s with
      dict := { s.dict with staged := [], commit := none },
      nets := { s.nets with canA := { s.nets.canA with conns := [] } } }
    let s := s.recordIf (n != 0) 0xD001 0 (le 4 n)
    let zero := moving && s.pN 0x4100 1 == 0
    let s := s.modSup (fun f => { f with
      stop := some ⟨s.it, c, moving && !zero, s.power.dev.code, cfg, s.dict.digest.take 8⟩, warm := sat32 (f.warm + 1), lastStop := if moving then s.it else f.lastStop })
    if zero then s.report 0xE014 0 [] else s

/-- A fault's record, its place in the active faults, the fault list and the counters (R455, R458, R472). -/
def State.noteFault (s : State) (r : Report) (resp : Nat) : State :=
  let s := s.recordAt r.code r.subj (le 1 resp ++ le 1 r.dev ++ r.det) r.it
  let a : ActiveFault := ⟨r.it, r.code, r.subj, resp⟩
  s.modSup (fun f => { f with
    active := if f.active.any (fun x => x.code == r.code && x.subj == r.subj)
      then f.active.map (fun x => if x.code == r.code && x.subj == r.subj then a else x)
      else f.active ++ [a],
    list := (⟨r.it, r.code, resp, true, coldOnly r.code r.subj, r.subj⟩ :: f.list).take 32,
    counts := vmod f.counts (r.code - 0xE001) (fun n => sat32 (n + 1)) })

/-- The local action of a fault that the supervisor itself takes: a drive-die reset for CLOCK, a contained ARMATURE channel
closed (R455). -/
def State.faultAction (s : State) (code subj resp : Nat) : State :=
  if code = 0xE002 ∧ subj < 4 then s.dieReset subj 4 s.it
  else if code = 0xE007 ∧ resp = 1 then
    let s := s.dropEdgesOf subj
    if (s.ch subj).state == 1 || (s.ch subj).state == 2 then s.closeCh subj s.it .ordered else s
  else s

/-- A response by device state (R457): SAFE at once, BARE from RUN at the next frame boundary. -/
def State.respond (s : State) (code resp : Nat) : State :=
  if resp = 3 then s.enterSafe (faultCause code)
  else if resp = 2 ∧ s.power.dev = .run then s.modSup (fun f => { f with bareNext := some (faultCause code) })
  else s

/-- A fault handled: recorded, answered. A LOCKSTEP of the management cores stops them for a warm
reset; a second one within 10 s raises SAFE first, so that no coast window opens (R462). -/
def State.handleFault (s : State) (r : Report) : State :=
  let resp := match r.code == 0xE001 && r.subj == 0, s.sup.lockLast with
    | true, some t => if r.it ≤ t + 10000000000 then 3 else 1
    | _, _ => r.resp
  let s := s.noteFault r resp
  let s := if r.code == 0xE001 && r.subj == 0 then s.modSup (fun f => { f with lockLast := some r.it }) else s
  let s := if r.code == 0xE00D then { s with dict := { s.dict with storeBad := false } } else s
  let s := (s.faultAction r.code r.subj resp).respond r.code resp
  if r.code = 0xE001 ∧ r.subj = 0 then s.coresStop .warmReset else s

/-- FAULT_DETECTED: the oldest reported fault, or a LOCKSTEP (R452) or MEMORY (R454) fault that the comparing hardware or
the scrub finds at `t`, with its subject. -/
def execFaultDetected (t : IT) (ext : Option (Nat × Nat)) (s : State) : Host.Outcome State Fault Refusal :=
  .next (s.whenAwake (fun s =>
    match ext with
    | some (code, subj) =>
      if (code = 0xE001 ∧ subj < 4) ∨ (code = 0xE00E ∧ subj < 6) then
        let s := s.at t
        s.handleFault (s.faultNow code subj [] s.it)
      else s
    | none =>
      match s.sup.reported with
      | [] => s
      | r :: rs => ((s.at t).modSup (fun f => { f with reported := rs })).handleFault r))

/-! ### Clearing (R458) -/

/-- Whether the cause of an active fault is no longer present, for the faults a host clears (R455). -/
def State.causeGone (s : State) (a : ActiveFault) : Bool :=
  match a.code with
  | 0xE001 => a.subj != 0 || !s.coresAbsent
  | 0xE002 => vget s.time.strobeOk a.subj true && (s.die a.subj).state != 2
  | 0xE003 => !(s.ch a.subj).ocLatch
  | 0xE004 => !(s.bank a.subj).ocLatch
  | 0xE005 =>
    if a.subj ≤ 4 then !(s.br (a.subj - 1)).latch
    else if a.subj ≤ 6 then !(s.pt (a.subj - 5)).latch
    else !(s.ld (a.subj - 7)).therm && !(s.ld (a.subj - 7)).retryL
  | 0xE008 => !(vget s.power.supplyLow a.subj false)
  | 0xE00A => !s.rov.implaus
  | 0xE00B => s.rov.state != 4
  | 0xE00D => s.dict.ever && decide (a.it < s.dict.lastAt)
  | 0xE00F => s.nets.ctrl.isSome
  | 0xE012 => (s.lp a.subj).state != 7
  | 0xE014 => !s.coresAbsent
  | _ => true

/-- A contained output comes back into service once its fault is cleared (R455): a bank is available again, a bridge or port resumes
its command; a load switch waits for its restart (R328), a channel for its next pull-in. -/
def State.intoService (s : State) (code subj : Nat) : State :=
  if code = 0xE004 then s.bankBack subj
  else if code ≠ 0xE005 then s
  else if subj ≤ 4 then s.bridgeResume (subj - 1)
  else if subj ≤ 6 then s.commutate (subj - 5)
  else s

/-- One active fault cleared, with its FAULT-CLEARED record. A cleared ARMATURE fault returns its channel to scheduling; its
count of missed closings stays until a kink is found (R231). -/
def State.clearOne (s : State) (a : ActiveFault) : State :=
  let s := (s.faultEnds a.code a.subj).intoService a.code a.subj
  s.record 0xE015 a.code (le 1 0 ++ le 1 s.power.dev.code)

/-- The effect of a write of 1 to P 0x4100.08. -/
def State.clearFaults (s : State) : State :=
  (s.sup.active.filter (fun a => !(coldOnly a.code a.subj) && s.causeGone a)).foldl State.clearOne s

/-! ### The management cores (R390, R461 to R463) -/

/-- CORES_STOP (R461): the cores stop at `t` for a warm reset or an image switch. -/
def execCoresStop (t : IT) (c : StopCause) (s : State) : Host.Outcome State Fault Refusal :=
  .next (s.whenAwake (fun s => if s.coresAbsent then s else (s.at t).coresStop c))

/-- An address-claimed message (R422): PGN 60928 to global from the address on trial, with the NAME; from address 0xFE it is
cannot-claim. Its priority is that of ISO 11783-5 (Assumption 119). -/
def State.claimMessage (s : State) : State := s.send (.canA 6 60928 s.nets.canA.trying 255 s.isoName)

/-- The address claim sent again at the cores' return, of the address in use or on trial (R427). -/
def State.reclaim (s : State) : State :=
  if s.pB 0x1230 1 && s.nets.canA.trying != 0xFE then s.claimMessage else s

/-- The result of a SWITCH whose restart is over. -/
def State.switchOver (s : State) (c : StopCause) : State :=
  if c = .imageSwitch then { s with card := { s.card with cmdRes := 0 } } else s

/-- CORES_RETURN (R390, R427, R445, R496): alarms held back go out, the task controller client claims its address again, an
image switch of the management engine is DONE. -/
def execCoresReturn (t : IT) (s : State) : Host.Outcome State Fault Refusal :=
  .next (s.whenAwake (fun s =>
    match s.sup.stop with
    | none => s
    | some c =>
      let s := (s.at t).modSup (fun f => { f with stop := none })
      let s := (s.skein.windows.filter (fun w => decide (w.ends ≤ s.it))).foldl (fun s w => s.windowEnd w s.it) s
      s.reclaim.switchOver c.cause))

/-- COAST_WINDOW_EXPIRY (R461): the cores have not returned. -/
def execCoastWindowExpiry (s : State) : Host.Outcome State Fault Refusal :=
  .next (match s.sup.stop with
    | some c =>
      if !c.coast then s
      else
        let s := s.at (c.since + s.pN 0x4100 1 * 1000000)
        (s.modSup (fun f => { f with stop := some { c with coast := false } })).report 0xE014 0 []
    | none => s)

/-! ### Host loss and position loss -/

/-- HOST_LOSS (R456): 1.5 host periods have passed since the controlling session's last heartbeat. -/
def execHostLoss (s : State) : Host.Outcome State Fault Refusal :=
  .next (match s.nets.ctrl.bind s.session with
    | none => s
    | some x =>
      if s.sup.hostGone then s
      else
        let s := s.at (x.beat + s.pN 0x1200 1 * 1500000)
        let s := s.modSup (fun f => { f with hostGone := true })
        let s : State := { s with nets := { s.nets with frames := vmod s.nets.frames 7 (fun n => sat32 (n + 1)) } }
        s.report 0xE00F (Net.code x.id.net) [])

/-- POSITION_LOSS_HOLD_EXPIRY (R145): the hold expires while Spindle stands in POSITION-HOLD. -/
def execPositionLossHoldExpiry (s : State) : Host.Outcome State Fault Refusal :=
  .next (if s.power.dev ≠ .run || !s.spd.holding then s
    else (s.at (s.spd.holdIt + s.pN 0x2200 0xB * 1000000)).report 0xE00B 0 [])

end Sys2Proof.Machine
end

