-- ==== Sys2Proof/Machine/Carding.lean ====
section
/-! DEFINITION. Carding self-test with its repairs, the life-cycle state and the image slots (R485 to R512): slices and
runs, image validity, the choice of images at a cold start, switching. -/

namespace Sys2Proof.Machine

/-! ### Slices (R499, R500, R504) -/

/-- The memory a slice covers (R499, R506): 0 to 7 the MRAM dies, 8 lap cache, 9 coefficients, 10 delay tables and
history, 11 Carding buffer; none for logic, converters and references. -/
def sliceMemory (k : Nat) : Option Nat :=
  if k ≤ 15 then some 8
  else if k = 16 then some 9
  else if k = 17 then some 10
  else if k = 18 then some 11
  else if k < 36 then none
  else if k < 16420 then some ((k - 36) / 2048)
  else if k < 16548 then some ((k - 16420) / 16)
  else none

/-- Whether a slice covers MRAM spare rows not in use. -/
def sliceSpares (k : Nat) : Bool := decide (16420 ≤ k)

/-- The signature of a slice (R504). -/
def sliceSignature (k : Nat) (x : SliceIn) : Nat :=
  crc32c (le 2 k ++ x.responses.flatMap (fun r => le 4 r.toNat) ++ le 4 x.patterns)

/-- The expected signature of a slice (Assumption 6). -/
def sliceExpected (k : Nat) : Nat := Config.cardingExpected k % 4294967296

/-- Whether a slice that was not aborted passes (R504, R506): its count full, its signature as expected. -/
def slicePasses (k : Nat) (x : SliceIn) : Bool :=
  x.patterns == Config.cardingPatterns k % 4294967296 && sliceSignature k x == sliceExpected k && x.badRow.isNone

/-! ### Repair (R506 to R508) -/

/-- The byte offset of a row of an MRAM die. -/
def rowOffset (m row : Nat) : Nat := 0x20000000 * m + 0x2000 * row

/-- Whether a row lies in the event log region. -/
def logRow (m row : Nat) : Bool := decide (0xE0000000 ≤ rowOffset m row) && decide (rowOffset m row < 0xF8000000) && m == 7

/-- An engine's state changed. -/
def State.modEngine (s : State) (e : Nat) (f : EngineSt → EngineSt) : State :=
  s.modCard (fun c => { c with engines := vmod c.engines e f })

/-- A slot's state set. -/
def EngineSt.mark (e : EngineSt) (k st : Nat) : EngineSt :=
  if k = 0 then { e with slotA := { e.slotA with state := st } } else { e with slotB := { e.slotB with state := st } }

/-- The contents of a row without a free spare (R508): pool tiles become DAMAGED, the log goes to SRAM, an image slot
becomes INVALID, and a copy of the repair table or of the epoch is lost, so that the other one serves. -/
def State.retireRow (s : State) (m row : Nat) : State :=
  let s := s.modCard (fun c => { c with retired := c.retired ++ [(m, row)] })
  if m < 7 then
    let t := 131072 * m + 2 * row
    ((s.dis.frames.filter (fun f => !f.damaged && (f.frame == t || f.frame == t + 1))).foldl State.tileBad s).poolCheck
  else if m = 7 then
    let a := rowOffset m row
    if logRow m row then s.logSram
    else if 0xF8000000 ≤ a ∧ a < 0xFC000000 then
      let i := (a - 0xF8000000) / 0x800000
      s.modEngine (i / 2) (fun e => e.mark (i % 2) 6)
    else
      let n := 16 * s.card.repairs.length + 4
      let s := s.modCard (fun c => { c with
        repA := { c.repA with valid := c.repA.valid && !(s.repairLost 0xFF800000 n) },
        repB := { c.repB with valid := c.repB.valid && !(s.repairLost 0xFFA00000 n) } })
      s.epochLost a
  else s

/-- A failing row of a memory slice repaired softly or retired, with its REPAIR record; the code of P 0x4201.07. Repair
acts in the life-cycle states that allow it (R485). -/
def State.repairRow (s : State) (m row : Nat) : State × Nat :=
  let found := if logRow m row then s.freeSpare m 384 512
    else s.freeSpare m 0 (if m = 7 then 384 else spareRows m)
  match found with
  | some k =>
    let s := if logRow m row then s.remapLog row k
      else s.putRepairs (s.card.repairs ++ [⟨m, false, row, k, s.time.boot⟩])
    (s.record 0xF013 m (le 4 row ++ le 4 k ++ le 1 0), 1)
  | none =>
    let s := s.record 0xF013 m (le 4 row ++ le 4 (s.drawn % 4294967296) ++ le 1 2)
    (s.draw.retireRow m row, 2)

/-! ### Runs (R502, R505) -/

/-- The run at SHUTDOWN (R502): the core set, then the MRAM slices from the cursor, going round. -/
def State.startShutdownRun (s : State) : State :=
  s.startRun [(0, 36), (s.card.cursor, cardSlices - s.card.cursor), (36, s.card.cursor - 36)] true

/-- The MRAM cursor past a slice run at SHUTDOWN (R502). -/
def State.cursorPast (s : State) (r : CardRun) (k : Nat) : State :=
  if r.shutdown && decide (36 ≤ k) then
    s.modCard (fun c => { c with cursor := if k ≥ 16547 then 36 else k + 1 })
  else s

/-- A run after one slice: ended where nothing is left. -/
def State.putRun (s : State) (r : CardRun) : State :=
  let r := { r with current := match r.next with
    | some p => p.1
    | none => r.current }
  if r.more then s.modCard (fun c => { c with run := some r }) else s.endRun r

/-- One whole slice at the present time (R500, R504, R506). -/
def State.runSlice (s : State) (r : CardRun) (x : SliceIn) : State :=
  match r.next with
  | none => s.endRun r
  | some (k, rest) =>
    let r := { r with todo := rest, budget := r.budget - 20 }
    if r.shutdown && decide (3 ≤ vget s.therm.acting 5 0) then
      let s := ((s.sliceIncomplete k (s.drawn % 256)).draw).cursorPast r k
      s.putRun { r with inc := r.inc + 1, skipped := r.skipped + 1 }
    else
      let pass := slicePasses k x
      let sig := sliceSignature k x
      let p := match sliceMemory k, x.badRow with
        | some m, some row =>
          if sliceSpares k then (s.modCard (fun c => { c with badSpares := c.badSpares ++ [(m, row)] }), 0)
          else s.repairRow m row
        | _, _ => (s, 0)
      let s := p.1.sliceResult k (if pass then 1 else 2) p.2 sig
      let row := x.badRow.getD (s.drawn % 4294967296)
      let s := if pass then s else
        (s.record 0xF011 k (le 4 sig ++ le 4 (sliceExpected k) ++ le 4 x.patterns ++ le 4 row ++ le 1 p.2)).draw
      let s := s.cursorPast r k
      s.putRun { r with
        run := r.run + 1, pass := r.pass + b2n pass, fail := r.fail + b2n (!pass),
        log := r.log ++ (le 2 k ++ le 1 (if pass then 1 else 2) ++ le 4 sig ++ le 4 x.patterns) }

/-- The next slice of the run that goes on. -/
def State.nextSlice (s : State) (x : SliceIn) : State :=
  match s.card.run with
  | none => s
  | some r => if r.shutdown && !r.more then s.endRun r else s.runSlice r x

/-- CARDING_SLICE (R500): the next slice of the run that goes on; none while the management cores are stopped (R28, Assumption 121). At SHUTDOWN the first slice follows step 3 of R479, in
life-cycle state FIELD. -/
def execCardingSlice (t : IT) (x : SliceIn) (s : State) : Host.Outcome State Fault Refusal :=
  .next (s.whenAwake (fun s =>
    let s := if s.power.dev == .shutdown && s.power.stage == 3 && s.card.life == 2 && s.card.run.isNone && s.power.wakeAgain.isNone && !s.coresAbsent then
        let s := (s.at t).skeinFlush
        (s.modPower (fun p => { p with stage := 4 })).startShutdownRun
      else s
    if s.card.run.isNone || s.coresAbsent then s else (s.at t).nextSlice x))

/-- Soft entries moved into free fuse entries (R507), with a REPAIR record each. -/
def State.burn (s : State) : State :=
  s.card.repairs.foldl (fun s x =>
    let used := (s.card.repairs.filter (fun r => r.memory == x.memory && r.fuse)).length
    if x.fuse || decide (fuseRows x.memory ≤ used) then s
    else
      let s := s.putRepairs (s.card.repairs.map (fun r => if r == x then { r with fuse := true } else r))
      s.record 0xF013 x.memory (le 4 x.row ++ le 4 x.spare ++ le 1 1)) s

/-! ### Life-cycle (R486) -/

/-- What a cold start makes of the life-cycle state: SERVICE returns to FIELD, a pending command acts. -/
def State.lifeBoot (s : State) : State :=
  let l := s.card.life
  let p := s.card.pendLife
  let s := s.modCard (fun c => { c with pendLife := 0xFF })
  if (l = 1 ∧ p = 2) ∨ ((l = 2 ∨ l = 3) ∧ p = 4) then s.setLife p
  else if l = 3 then s.setLife 2
  else s

/-! ### Images (R489 to R497) -/

/-- The largest body (R490). -/
def bodyMax : Nat := 8388352

/-- Why a slot's image is not valid (R492), in the causes of R511: 0 valid. A slot that still holds its factory image is
valid while its security version is (Assumption 7). -/
def State.imageCause (s : State) (e k : Nat) : Nat :=
  let x := s.engine e
  let h := s.slotHeader e k
  let len := natAt h 16 4
  if x.factory k then (if 0 < s.card.rollback ∧ natAt h 6 2 < s.card.rollback then 6 else 0)
  else if natAt h 0 4 ≠ 1 ∨ 128 < natAt h 6 2 then 1
  else if natAt h 4 1 ≠ e then 2
  else if len = 0 ∨ bodyMax < len ∨ (x.slot k).got ≠ 256 + len then 3
  else if sha256 (Memory.readBlock s.mram (slotBase e k + 256) len) ≠ bytesAt h 20 32 then 4
  else if !ecdsaVerify Config.imageKeyX Config.imageKeyY (sha256 (h.take 52)) (leNat (bytesAt h 52 32)) (leNat (bytesAt h 84 32)) then 5
  else if natAt h 6 2 < s.card.rollback then 6
  else 0

/-- The slot that an engine does not run. -/
def EngineSt.other (e : EngineSt) : Nat := if e.runB then 0 else 1

/-- The result of the last image command, P 0x4310.03. -/
def State.imageResult (s : State) (res eng slot cause got : Nat) (at_ : IT) : State :=
  s.modCard (fun c => { c with cmdRes := res, cmdEng := eng, cmdSlot := slot, cmdCause := cause, cmdGot := got, cmdAt := at_ })

/-- The other slot of an engine booted instead of the present one, which takes state `st` (R494, R495). -/
def State.fallback (s : State) (e st cause : Nat) : State :=
  let x := s.engine e
  let s := s.modEngine e (fun x => { ((x.mark x.running st).mark x.other 4) with runB := !x.runB, trials := 0 })
  s.record 0xF023 e (le 1 x.other ++ le 1 cause)

/-- The image choice of a cold start for engine `e` (R494, R495). The cause of a fallback after three trial boots is not
stated: a free value (Assumption 4). -/
def State.bootEngine (s : State) (e : Nat) : State :=
  let x := s.engine e
  let spare := (x.slot x.other).state == 3 && s.imageCause e x.other == 0
  if x.boots && s.imageCause e x.running == 0 then
    if (x.slot x.running).state = 4 then s
    else if 2 ≤ x.trials && spare then (s.fallback e 3 (s.drawn % 256)).draw
    else s.modEngine e (fun x => { x with trials := min 2 (x.trials + 1) })
  else
    let cause := s.imageCause e x.running
    let was := x.boots
    let s := if was then s.modEngine e (fun x => x.mark x.running 6) else s
    if spare then s.fallback e (if was then 6 else (x.slot x.running).state) cause else s

/-- A load in progress or a switch given up: at the start of SHUTDOWN (R493). -/
def State.abandonLoads (s : State) : State :=
  let s := (List.range 4).foldl (fun s e =>
    let k := (s.engine e).other
    let st := ((s.engine e).slot k).state
    if st = 1 then (s.modEngine e (fun x => x.mark k 0)).imageResult 2 e k 12 ((s.engine e).slot k).got 0 else s) s
  match s.card.switch with
  | none => s
  | some w => (s.modCard (fun c => { c with switch := none })).imageResult 2 w.engine (s.engine w.engine).other 12 0 0

/-- Why a SWITCH of engine `e` to its other slot is refused (R496), 0 if it is accepted. -/
def State.switchCause (s : State) (e : Nat) : Nat :=
  let x := s.engine e
  let k := x.other
  let moving := s.power.dev == .run || s.power.dev == .bare
  let formats := natAt (s.slotHeader e 0) 12 2 != natAt (s.slotHeader e 1) 12 2
  if (x.slot k).state ≠ 3 then 8
  else if s.imageCause e k ≠ 0 then s.imageCause e k
  else if e = 0 ∧ moving ∧ s.pN 0x4100 1 < 80 then 10
  else if e = 1 ∧ formats ∧ s.power.geo then 7
  else if e = 2 ∧ formats ∧ (List.range 8).any s.stepping then 7
  else if e = 3 ∧ formats ∧ moving then 7
  else 0

/-- The engine runs its new slot (R496): the old one VALID, the new one TRIAL, with an IMAGE-SWITCH record. -/
def State.switched (s : State) (e : Nat) : State :=
  let x := s.engine e
  let ver := natAt (s.slotHeader e x.other) 8 4
  let s := s.modEngine e (fun x => { ((x.mark x.running 3).mark x.other 5) with runB := !x.runB, trials := 0 })
  s.record 0xF022 e (le 1 x.running ++ le 1 x.other ++ le 4 ver)

/-- IMAGE_SWITCH_BOUNDARY (R496, R497): the engine changes, unless a drive die is not ready, which is tried at the next
boundary for 100 frames, and unless the slot is VALID no more. The management cores stop and P 0x4310.03 reads DONE at their return; every loop in step makes
a hand-over. -/
def execImageSwitchBoundary (dieReady : Vector Bool 4) (s : State) : Host.Outcome State Fault Refusal :=
  .next (s.whenAwake (fun s =>
    match s.card.switch with
    | none => s
    | some w =>
      let s := s.at w.boundary
      let k := (s.engine w.engine).other
      if ((s.engine w.engine).slot k).state ≠ 3 then (s.modCard (fun c => { c with switch := none })).imageResult 2 w.engine k 8 0 0
      else if w.engine = 3 ∧ dieReady.toList.any (fun b => !b) then
        if 100 ≤ w.tries then (s.modCard (fun c => { c with switch := none })).imageResult 2 w.engine k 11 0 0
        else
          let b := w.boundary + 1000000
          (s.modCard (fun c => { c with switch := some { w with boundary := b, tries := w.tries + 1 } })).imageResult 1 w.engine k 0 0 b
      else
        let s := (s.modCard (fun c => { c with switch := none })).switched w.engine
        let s := s.imageResult (if w.engine = 0 then 1 else 0) w.engine k 0 0 w.boundary
        if w.engine = 0 then s.coresStop .imageSwitch
        else if w.engine = 2 then
          (List.range 8).foldl (fun s j => if s.stepping j then s.modLp j (fun l => { l with handOver := true }) else s) s
        else s))

/-- CONFIRM (R495): trial slots become ACTIVE; the rollback counter may rise, and slots below it become INVALID. -/
def State.confirmImages (s : State) : State :=
  let s := (List.range 4).foldl (fun s e =>
    if ((s.engine e).slot (s.engine e).running).state = 5 then
      s.modEngine e (fun x => { x.mark x.running 4 with trials := 0 }) else s) s
  let ver := fun (s : State) (e k : Nat) => natAt (s.slotHeader e k) 6 2
  let low := (List.range 4).foldl (fun m e => min m (ver s e (s.engine e).running)) 128
  let old := s.card.rollback
  if low ≤ old then s
  else
    let s := s.modCard (fun c => { c with rollback := low })
    let s := (List.range 8).foldl (fun s i =>
      let st := ((s.engine (i / 2)).slot (i % 2)).state
      if 2 ≤ st ∧ ver s (i / 2) (i % 2) < low then s.modEngine (i / 2) (fun x => x.mark (i % 2) 6) else s) s
    s.record 0xF024 0 (le 4 old ++ le 4 low)

/-- A set save marker at a cold start (R501): the region is restored, the marker cleared and the slice recorded INCOMPLETE, before what
the time base records of its resume (Assumption 122). -/
def State.markerBoot (s : State) : State :=
  match s.card.marker with
  | none => s
  | some k => (s.sliceIncomplete k 2).modCard (fun c => { c with marker := none })

/-- Carding and the image slots at step 3 of a cold start (R478): images are chosen (R494), the life-cycle state settles (R486), a standing FAIL is recorded (R509). -/
def State.cardingBoot (s : State) : State :=
  let s := s.modCard (fun c => { c with
    run := none, lastRun := Vector.replicate 6 0, skipped := 0, switch := none, resCur := 0,
    cmdRes := 0, cmdEng := 0, cmdSlot := 0, cmdCause := 0, cmdGot := 0, cmdAt := 0 })
  let s := ((List.range 4).foldl State.bootEngine s).lifeBoot
  s.recordIf (decide (0 < s.card.standing)) 0xF014 0 (le 4 s.card.standing)

end Sys2Proof.Machine
end

