-- ==== Sys2Proof/Machine/Flags.lean ====
section
/-! DEFINITION. The status word of the module's own HEARTBEAT (R411). -/

namespace Sys2Proof.Machine

/-- The throttle bits [13:8] of R411: one for each of DD0–DD3, the power die and the processor die at level 1 or higher. -/
def State.throttleBits (s : State) : Nat := bits (s.therm.level.toList.map (fun l => decide (1 ≤ l)))

/-- The status field of R411. -/
def State.statusWord (s : State) : Nat :=
  bits [s.coresAbsent, s.nets.ctrl.isSome, s.sup.thermal, s.skein.logFault, s.skein.sramOnly, !s.sup.active.isEmpty,
    s.wallCode == 0] + 256 * s.throttleBits

/-- The payload of the module's own HEARTBEAT (R411); while the cores are stopped it holds what they last wrote (R412). -/
def State.beatPayload (s : State) : Bytes :=
  let kept := match s.sup.stop with
    | some c => (c.dev, c.cfg, c.dig)
    | none => (s.power.dev.code, s.dict.state, s.dict.digest.take 8)
  le 4 s.time.boot ++ le 8 s.it ++ le 1 kept.1 ++ le 1 kept.2.1 ++ le 2 s.nets.beats ++ le 4 s.statusWord ++
    padTo 8 kept.2.2 ++ le 4 0

/-- A HEARTBEAT counted as sent on network `i` (0 to 2, 3 CAN-A). -/
def State.beatSent (s : State) (i : Nat) : State :=
  { s with nets := { s.nets with beats := (s.nets.beats + 1) % 65536, beatAt := vset s.nets.beatAt i (some s.it) } }

/-- The HEARTBEAT sent on a Pagrim network. -/
def State.sendBeat (s : State) (n : Net) : State := (s.sendUnasked [n] 8 0 s.beatPayload).beatSent (Net.bitNo n)

/-- The first HEARTBEAT of a boot (R478 step 5): on every Pagrim network that carries frames, since no session can stand yet
(Assumption 136). -/
def State.firstBeat (s : State) : State :=
  [Net.canB, Net.canC, Net.eth].foldl (fun s n => if s.netUp n then s.sendBeat n else s) s

end Sys2Proof.Machine
end

