-- ==== Sys2Proof/Machine/Power.lean ====
section
/-! DEFINITION. Supply, key, wake and clock (R14, R15, R338, R465, R474 to R483): the cold start, SHUTDOWN with its steps,
STANDBY and the loss of KA. -/

namespace Sys2Proof.Machine

/-! ### Cold start (R38, R389, R463, R478, R494) -/

/-- What the module is without its domains, in STANDBY and with no supply (R482): MRAM with what is kept beside it, fuses, the time base
of the always-on unit and the rail's discharge stand; everything else is at its reset and stays there. -/
def State.asleep (s : State) : State :=
  { State.reset with
    it := s.it, time := s.time, mram := s.mram, freeCtr := s.freeCtr, pending := s.pending,
    card := { s.card with run := none, switch := none }, dis := { Distaff.reset with hanks := s.dis.hanks, frames := s.dis.frames },
    skein := { s.skein with arriving := [] }, nets := { Nets.reset with tx := s.nets.tx },
    bob := { Bobbin.reset with
      discharging := s.bob.discharging, rail := s.bob.rail, state := if s.bob.discharging then 4 else 0 },
    power := s.power }

/-- A gratuitous ARP (R418). -/
def State.gratuitousArp (s : State) : State :=
  s.send (.arp false Config.macAddress (s.pN 0x1220 1) 0xFFFFFFFFFFFF (s.pN 0x1220 1))

/-- The ETH domain with its link up (R12, R418, R419): the gratuitous ARP goes out and the follower listens. -/
def State.ethStart (s : State) : State :=
  let s := s.modPower (fun p => { p with eth := true })
  let s : State := { s with nets := { s.nets with eth := { s.nets.eth with up := true, gptp := b2n (s.pB 0x1220 5), syncRx := none } } }
  s.gratuitousArp

/-- The STATE-CHANGE record into BOOT (R477). STANDBY is 0; no number is given for a module without supply, and no cause for a power-on
or a CAN-A wake: free values (Assumption 4). -/
def State.bootNote (s : State) (src : Nat) : State :=
  let old := if src = 0 then s.drawn / 8 % 256 else 0
  let cause := if src = 0 ∨ src = 2 then s.drawn % 8 else 4
  (s.record 0xF001 0 (le 1 old ++ le 1 1 ++ le 1 cause)).draw

/-- The cold start up to step 4 of R478. Everything returns to its reset but MRAM and what is kept beside it, the always-on
unit's part, fuses, Izcel time, and the rail with a discharge that goes on (R481). An Ethernet link that is up starts its domain. -/
def State.coldStart (s : State) (b : BootIn) (src : Nat) (ign : Bool) : State :=
  let keys := s.logKeys
  let aon := if s.time.marker then max b.aon s.time.aon else b.aon
  let s' : State := { s.asleep with time := { s.time with aon := aon }, power := { Power.reset with ign := ign, wakeSrc := src } }
  let r := s'.resumed aon keys b.badEpoch
  let s := (((s'.repairBoot b.badRepair).resumeTime r b.badEpoch).markerBoot).resumeNote r
  let s := (s.modPower (fun p => { p with entered := s.it })).bootNote src
  let s := (s.cardingBoot.skeinBoot).disBoot b.badHdr
  let s := if b.imuOk then s else s.modInert (fun x => { x with hard := true, faults := sat32 (x.faults + 1) })
  if b.linkUp then s.ethStart else s

/-- POWER_ON (R478). -/
def execPowerOn (b : BootIn) (s : State) : Host.Outcome State Fault Refusal :=
  .next (if s.power.dev = .noSupply then s.coldStart b 0 b.ign else s)

/-- CAN_A_WAKE (R483): with listening enabled at the end of the last SHUTDOWN. -/
def execCanAWake (b : BootIn) (s : State) : Host.Outcome State Fault Refusal :=
  .next (if s.power.dev = .standby && s.power.listening then s.coldStart b 2 b.ign else s)

/-! ### SHUTDOWN (R479) -/

/-- Step 1 of SHUTDOWN; a close sequence of the open hank begins. -/
def State.enterShutdown (s : State) (cause : Nat) : State :=
  let s := (s.abortRun 3).discardEdges.rateIdle
  let s := s.setDev .shutdown cause
  let s := s.modPower (fun p => { p with stage := 1, downAt := s.it, cmd := none, wakeHold := none })
  let s := s.closeChannels
  let s := (s.bridgesEnter .shutdown).whorlEnter .shutdown
  let s := (s.bobbinEnter .shutdown).geoLeave false
  let s := s.modSup (fun f => { f with bare := .inactive, bareNext := none })
  s.loadsFollow.abandonLoads.releaseAll

/-- The step of SHUTDOWN at a frame boundary (P 0x4400.06): 2 while the open hank closes, then 3. -/
def State.downStage (s : State) : State :=
  if s.power.dev ≠ .shutdown then s
  else s.modPower (fun p => { p with stage := max p.stage (if s.dis.close.isSome then 2 else 3) })

/-- The end of the domains (step 7): STANDBY, with its STATE-CHANGE record, whose cause is not stated (R477; Assumption 4); or at once a
cold start where IGN came back (R481). -/
def State.enterStandby (s : State) : State :=
  let listening := s.pB 0x4400 9
  let again := s.power.wakeAgain
  let s := ((s.record 0xF001 0 (le 1 7 ++ le 1 0 ++ le 1 (s.drawn % 8))).draw).skeinFlush
  let s := s.asleep.modPower (fun p => { Power.reset with
    dev := .standby, entered := s.it, wakeSrc := p.wakeSrc, listening := listening, downAt := p.downAt, downRes := p.downRes })
  match again with
  | some b => s.coldStart b 3 b.ign
  | none => s

/-- Step 5: SHUTDOWN-DONE, written with what Skein still holds, and the final epoch copy. Outside FIELD no slice has run (R505). -/
def State.shutdownDone (s : State) (result aon : Nat) : State :=
  let s := s.modPower (fun p => { p with stage := 5, downRes := result })
  let ran := if s.card.life = 2 then (vget s.card.lastRun 1 0, s.card.skipped) else (0, 0)
  let s := s.record 0xF003 0 (le 4 ran.1 ++ le 4 ran.2 ++ le 1 result)
  s.skeinFlush.writeFinal aon

/-- Step 2 brought to its end: the hank closed, GEO stopped. -/
def State.finishMap (s : State) : State :=
  let s := match s.dis.close with
    | some c => s.closeDone c
    | none => s
  if s.power.geo then s.geoStop else s

/-- Step 4 brought to its end: what the run of step 4 did not reach counts as skipped, each slice recorded INCOMPLETE where the processor
die's level is what skips it (R362). -/
def State.finishSlices (s : State) : State :=
  let s := if s.card.life == 2 && decide (s.power.stage < 4) && s.card.run.isNone
    then s.startShutdownRun else s
  let s := match s.card.run with
    | some r => if 3 ≤ vget s.therm.acting 5 0 then (List.range r.requested).foldl (fun (s : State) _ => s.nextSlice ⟨[], 0, none⟩) s else s
    | none => s
  match s.card.run with
  | none => s
  | some r => s.endRun { r with skipped := r.skipped + (r.requested - r.run - r.inc) }

/-- Whether step 6 is reached: the rail below 5 V, as its discharge reported or as the last boundary measured it (R255). -/
def State.railDown (s : State) : Bool := (!s.bob.discharging && !([1, 2, 3].contains s.bob.state)) || decide (s.bob.rail < 5000)

/-- Step 7 where it is reached, the later of steps 5 and 6; one that wakes again does not wait for the rail (R481). -/
def State.shutdownEnd (s : State) : State :=
  if s.power.wakeAgain.isSome then s.enterStandby
  else if s.railDown then (s.modBob (fun b => { b with discharging := false })).enterStandby
  else s.modPower (fun p => { p with stage := 6 })

/-- SHUTDOWN_COMPLETE (R479): step 5 at the latest now, and STANDBY once step 6 is reached too; until then the module waits for the rail.
It waits for the management cores where they are stopped, which write the records (R28; Assumption 135). -/
def execShutdownComplete (t : IT) (aon : Nat) (s : State) : Host.Outcome State Fault Refusal :=
  .next (if s.power.dev ≠ .shutdown || s.coresAbsent then s
    else
      let s := s.at t
      if 5 ≤ s.power.stage then s.shutdownEnd
      else
        let s := s.finishMap.skeinFlush.finishSlices
        let s := if s.bob.state = 3 then s.startDischarge else s
        (s.shutdownDone (if s.power.wakeAgain.isSome then 1 else 0) aon).shutdownEnd)

/-- The instant at which a SHUTDOWN is over time (R479, R480): 1 s after its limit, which is 3.2 s plus the self-test budget from its
start. -/
def State.overAt (s : State) : IT := s.power.downAt + 4200000000 + s.pN 0x4400 8 * 1000000

/-- SHUTDOWN_OVERTIME (R480), at its time at the earliest: the supervisor ends Carding and does not wait for the rail. The cause of the
slice it ends is not stated: a free value (Assumption 4). -/
def execShutdownOvertime (t : IT) (aon : Nat) (s : State) : Host.Outcome State Fault Refusal :=
  .next (if s.power.dev ≠ .shutdown then s
    else
      let s := s.at (max t s.overAt)
      let s := (s.abortRun (s.drawn % 256)).draw
      let s := (s.shutdownDone 2 aon).modBob (fun b => { b with discharging := false })
      s.enterStandby)

/-- RAIL_DISCHARGED (R255): the rail is below 5 V, which is step 6 of SHUTDOWN (R479). -/
def execRailDischarged (t : IT) (s : State) : Host.Outcome State Fault Refusal :=
  .next (s.whenAwake (fun s =>
    if !s.bob.discharging then s
    else
      let s := (s.at t).modBob (fun b => { b with
        discharging := b.state == 5, rail := min b.rail 4999, state := if b.state = 5 ∨ s.power.dev = .shutdown then b.state else 0 })
      if s.power.dev = .shutdown ∧ 5 ≤ s.power.stage then s.shutdownEnd else s))

/-! ### IGN and the wake hold (R338, R474, R481, R483) -/

/-- IGN_ON. In SHUTDOWN Carding is aborted and the module wakes again at once after step 5, or now where that is past. -/
def execIgnOn (t : IT) (b : BootIn) (s : State) : Host.Outcome State Fault Refusal :=
  .next (match s.power.dev with
    | .noSupply => s
    | .standby => s.coldStart b 1 true
    | .shutdown =>
      let s := ((s.at t).abortRun 0).modPower (fun p => { p with ign := true, wakeAgain := some { b with ign := true } })
      if 5 ≤ s.power.stage then s.shutdownEnd else s
    | _ => (s.at t).modPower (fun p => { p with ign := true, wakeHold := none }))

/-- IGN_OFF. While a CAN-A wake hold runs, and in BOOT, it changes no state. -/
def execIgnOff (t : IT) (s : State) : Host.Outcome State Fault Refusal :=
  .next (match s.power.dev with
    | .noSupply => s
    | .standby => s
    | .boot => (s.at t).modPower (fun p => { p with ign := false })
    | .shutdown => (s.at t).modPower (fun p => { p with
        ign := false, wakeAgain := p.wakeAgain.map (fun b => { b with ign := false }) })
    | _ =>
      let s := (s.at t).modPower (fun p => { p with ign := false })
      if s.power.wakeHold.isSome then s else s.enterShutdown 4)

/-- WAKE_HOLD_EXPIRY (R483). -/
def execWakeHoldExpiry (s : State) : Host.Outcome State Fault Refusal :=
  .next (s.whenAwake (fun s =>
    match s.power.wakeHold with
    | none => s
    | some t =>
      let s := (s.at t).modPower (fun p => { p with wakeHold := none })
      if s.power.ign then s
      else match s.power.dev with
        | .unconfigured | .ready | .safe | .service => s.enterShutdown 7
        | _ => s))

/-- BOOT_COMPLETE (R474, R478 step 5), with the first HEARTBEAT. An engine without a valid image leaves the module in BOOT (R494). -/
def execBootComplete (t : IT) (s : State) : Host.Outcome State Fault Refusal :=
  .next (if s.power.dev ≠ .boot || s.bootRom then s
    else
      let s := s.at t
      let s : State := { s with dies := s.dies.map (fun (d : Die) => { d with state := 1 }) }
      let s := if s.power.ign || s.power.wakeSrc == 2 then
          let hold := if s.power.ign then none else some (s.it + s.pN 0x4400 0xA * 1000000)
          (s.setDev .unconfigured 5).modPower (fun p => { p with wakeHold := hold })
        else s.enterShutdown 5
      (s.record 0xF002 0 (le 1 s.power.wakeSrc)).firstBeat)

/-! ### The loss of KA (R339, R465) -/

/-- The save marker that a loss of KA leaves set: the MRAM slice in progress, unless it covers the save area itself (R501).
Whether the slice had reached its save is a free value (Assumption 4). -/
def State.slicedAtLoss (s : State) : Option Nat := if s.drawn % 2 = 1 then s.savedSlice else none

/-- A write-back that the loss of the supply finds begun (R164): the dirty tile's cell bytes are completed in its frame, its
descriptor is not written. -/
def State.tornWrite (s : State) (col row : Int) : State :=
  match s.openHank.bind (fun k => s.frameOf k col row), s.cached col row with
  | some x, some c => if c.dirty.isSome && !c.noAlloc then { s with mram := Memory.write s.mram (x.frame * 4096) c.cells } else s
  | _, _ => s

/-- KA_COLLAPSE (R465): no record is written, and what has not reached MRAM is lost. The last-word area and the marker of R38
are lost too, unless the always-on SRAM keeps its content. -/
def execKaCollapse (x : CollapseIn) (s : State) : Host.Outcome State Fault Refusal :=
  .next (match s.power.dev with
    | .noSupply => s
    | d =>
      let s := if d.awake then s.at x.at_ else s
      let s := match x.torn with
        | some p => if s.power.geo then s.tornWrite p.1 p.2 else s
        | none => s
      let mark := if d.awake then s.slicedAtLoss else none
      let s := s.asleep.draw
      let s := s.modCard (fun c => { c with marker := mark })
      let s := s.modSkein (fun k => { k with
        arriving := [], queue := [], holding := Vector.replicate 16 none, lastWord := if x.sram then k.lastWord else [] })
      let s : State := { s with time := { s.time with marker := s.time.marker && x.sram } }
      let s := s.modBob (fun b => { b with discharging := false, state := 0 })
      s.modPower (fun p => { Power.reset with dev := .noSupply, entered := s.it, wakeSrc := p.wakeSrc }))

/-! ### The crystal (R14, R15) -/

/-- CRYSTAL_START_TIMEOUT (R15): BOOT goes on on the RC oscillator; no CAN and no Ethernet in this boot. -/
def execCrystalStartTimeout (t : IT) (s : State) : Host.Outcome State Fault Refusal :=
  .next (if s.power.dev ≠ .boot || !s.power.crystalOk then s
    else
      let s := (s.at t).modPower (fun p => { p with crystalOk := false, eth := false })
      let s : State := { s with
        time := { s.time with rc := true }, nets := { s.nets with eth := { s.nets.eth with up := false } } }
      s.report 0xE002 255 [])

/-- CRYSTAL_FAILURE (R14): every derived domain runs on the RC oscillator. -/
def execCrystalFailure (t : IT) (s : State) : Host.Outcome State Fault Refusal :=
  .next (s.whenAwake (fun s =>
    if s.time.rc then s
    else
      let s := s.at t
      let s : State := { s with time := { s.time with rc := true } }
      s.report 0xE002 255 []))

end Sys2Proof.Machine
end

