-- ==== Sys2Proof/Machine/Operands.lean ====
section
/-! DEFINITION. The operand forms of a write (R371): the checks of a value on its own, by type, range and block layout, with
the abort codes of R378 and the byte offset of the first failing field. -/

namespace Sys2Proof.Machine

/-- A field of a block layout: byte offset, width, type code (0 for reserved), range, and values or unreserved bits. -/
structure Field where
  off  : Nat
  wid  : Nat
  ty   : Nat
  lo   : Int
  hi   : Int
  mask : Nat
  deriving DecidableEq, Repr

/-- The sign-magnitude order of binary32 bits, in which the ranges of F32 parameters are given. -/
def f32Order (v : Nat) : Int := if v < 2147483648 then (v : Int) else 2147483648 - (v : Int)

/-- The abort code of a value inside or outside a range. -/
def rangeCode (lo hi v : Int) : Nat := if v < lo then 7 else if hi < v then 8 else 0

/-- The abort code of one value by its type, 0 if it is accepted. −0.0 and +0.0 count alike against a range. -/
def scalarCode (ty : Nat) (lo hi : Int) (mask : Nat) (b : Bytes) : Nat :=
  let v := leNat b
  match ty with
  | 0 => if v = 0 then 0 else 6
  | 5 => rangeCode lo hi (leInt b)
  | 6 => rangeCode lo hi (leInt b)
  | 7 => if f32Finite (BitVec.ofNat 32 v) then rangeCode lo hi (f32Order v) else 9
  | 8 => if v ≤ 1 then 0 else 9
  | 9 => if bit mask v then 0 else 9
  | 10 => if (List.range (8 * b.length)).any (fun i => bit v i && !(bit mask i)) then 6 else 0
  | _ => rangeCode lo hi v

/-- The first failing field of a list of fields at `base` of a block: its abort code and byte offset. -/
def fieldsFail (v : Bytes) (base : Nat) : List Field → Option (Nat × Nat)
  | [] => none
  | f :: fs =>
    let c := scalarCode f.ty f.lo f.hi f.mask (bytesAt v (base + f.off) f.wid)
    if c = 0 then fieldsFail v base fs else some (c, base + f.off)

/-- The first failing entry of a block of `n` entries of `w` bytes whose fields may depend on the entry. -/
def entriesFail (v : Bytes) (w : Nat) (fields : Bytes → List Field) : Nat → Nat → Option (Nat × Nat)
  | 0, _ => none
  | n + 1, k =>
    match fieldsFail v (w * k) (fields (bytesAt v (w * k) w)) with
    | some e => some e
    | none => entriesFail v w fields n (k + 1)

/-! ### Layouts -/

/-- An entry of the nozzle table (R98): an absent one is checked for its reserved bytes alone. -/
def nozzleFields (b : Bytes) : List Field :=
  if natAt b 8 2 = 0 then [⟨18, 2, 0, 0, 0, 0⟩]
  else [⟨0, 4, 6, -100000, 100000, 0⟩, ⟨4, 4, 6, -100000, 100000, 0⟩, ⟨8, 2, 2, 0, 10000, 0⟩, ⟨10, 2, 2, 10, 10000, 0⟩,
    ⟨12, 2, 5, -5000, 5000, 0⟩, ⟨14, 1, 1, 0, 7, 0⟩, ⟨15, 1, 1, 0, 255, 0⟩, ⟨16, 1, 1, 0, 4, 0⟩, ⟨17, 1, 1, 0, 15, 0⟩,
    ⟨18, 2, 0, 0, 0, 0⟩]

/-- An entry of the coil type table (R245): an unused one is checked for its reserved bytes alone. -/
def coilFields (b : Bytes) : List Field :=
  if natAt b 0 2 = 0 then [⟨22, 10, 0, 0, 0, 0⟩]
  else [⟨0, 2, 2, 1000, 60000, 0⟩, ⟨2, 2, 2, 100, 60000, 0⟩, ⟨4, 2, 2, 500, 6000, 0⟩, ⟨6, 2, 2, 0, 20000, 0⟩,
    ⟨8, 2, 2, 100, 65000, 0⟩, ⟨10, 2, 2, 10, 65000, 0⟩, ⟨12, 2, 2, 10, 65000, 0⟩, ⟨14, 2, 2, 10, 65000, 0⟩,
    ⟨18, 2, 5, intAt b 16 2 + 1, 32767, 0⟩, ⟨20, 2, 5, intAt b 18 2 + 1, 32767, 0⟩, ⟨22, 10, 0, 0, 0, 0⟩]

/-- An entry of a compare list (R69). -/
def compareFields (b : Bytes) : List Field :=
  [⟨4, 1, 10, 0, 0, 0x0F⟩, ⟨5, 3, 0, 0, 0, 0⟩] ++
    (if natAt b 4 1 / 4 % 4 = 3 then [⟨4, 1, 9, 0, 0, 0⟩] else [])

/-- An entry of the measurement sources of a loop (R264). -/
def measureFields (b : Bytes) : List Field :=
  let most : Int := match natAt b 0 1 with
    | 1 => 11 | 2 => 7 | 3 => 1 | 4 => 3 | _ => 255
  let f : Nat → Field := fun o => ⟨o, 4, 7, -2139095039, 2139095039, 0⟩
  [⟨0, 1, 9, 0, 0, 0x1F⟩, ⟨1, 1, 1, 0, most, 0⟩, ⟨2, 1, 9, 0, 0, 3⟩, ⟨3, 1, 0, 0, 0, 0⟩, f 4, f 8, f 12, f 16, f 20]

/-- An output destination of a loop (R280). -/
def destinationFields (b : Bytes) : List Field :=
  let most : Int := match natAt b 1 1 with
    | 1 => 3 | 2 => 1 | _ => 255
  [⟨1, 1, 9, 0, 0, 7⟩, ⟨0, 1, 1, 0, most, 0⟩]

/-- A tracking word of a loop (R266). -/
def trackingFields (_ : Bytes) : List Field := [⟨1, 1, 9, 0, 0, 7⟩, ⟨0, 1, 1, 0, 3, 0⟩]

/-- An entry of a parameter list (R397, R449). -/
def listFields (_ : Bytes) : List Field := [⟨3, 1, 0, 0, 0, 0⟩]

/-- The tile read key (R181). -/
def tileKeyFields (_ : Bytes) : List Field := [⟨1, 1, 0, 0, 0, 0⟩, ⟨6, 2, 0, 0, 0, 0⟩]

/-- A signed command: a byte, three reserved bytes, r and s (R421, R486). -/
def signedFields (_ : Bytes) : List Field := [⟨1, 3, 0, 0, 0, 0⟩]

/-- The image command (R512). -/
def imageFields (_ : Bytes) : List Field := [⟨0, 1, 9, 0, 0, 0x3E⟩, ⟨1, 1, 1, 0, 3, 0⟩, ⟨2, 2, 0, 0, 0, 0⟩]

/-- The sizes of a loop (P 0x3100+w.04): n 1–8, p 1–4, m 1–4, q 1–2. -/
def sizesCode (v : Nat) : Nat :=
  let r := [rangeCode 1 8 (v % 16), rangeCode 1 4 (v / 16 % 16), rangeCode 1 4 (v / 256 % 16), rangeCode 1 2 (v / 4096 % 16)]
  (r.find? (· != 0)).getD 0

/-- The first entry of a compare list whose position does not lie above the one before it (R69). -/
def notRising (v : Bytes) : Nat → Nat → Option (Nat × Nat)
  | 0, _ => none
  | n + 1, k => if intAt v (8 * k + 8) 4 ≤ intAt v (8 * k) 4 then some (9, 8 * k + 8) else notRising v n (k + 1)

/-- A coefficient patch (R287): first + count ≤ 200, finite values. -/
def patchFail (v : Bytes) : Option (Nat × Nat) :=
  let n := natAt v 2 2
  if v.length ≠ 4 + 4 * n then some (5, 0)
  else if 200 < natAt v 0 2 + n then some (8, 0)
  else entriesFail (v.drop 4) 4 (fun _ => [⟨0, 4, 7, -2139095039, 2139095039, 0⟩]) n 0 |>.map (fun e => (e.1, e.2 + 4))

/-- The failing field of a block with a layout of its own. -/
def layoutFail (idx sub : Nat) (v : Bytes) : Option (Nat × Nat) :=
  let n := v.length
  if 0x2030 ≤ idx ∧ idx < 0x2038 ∧ sub = 1 then
    match entriesFail v 8 compareFields (n / 8) 0 with
    | some e => some e
    | none => notRising v (n / 8 - 1) 0
  else if idx = 0x2110 ∧ sub = 1 then entriesFail v 20 nozzleFields 128 0
  else if idx = 0x309F ∧ sub = 1 then entriesFail v 32 coilFields 8 0
  else if 0x3100 ≤ idx ∧ idx < 0x3108 ∧ sub = 5 then entriesFail v 24 measureFields 4 0
  else if 0x3100 ≤ idx ∧ idx < 0x3108 ∧ sub = 6 then entriesFail v 2 destinationFields 4 0
  else if 0x3100 ≤ idx ∧ idx < 0x3108 ∧ (sub = 7 ∨ sub = 8) then entriesFail v 2 trackingFields 2 0
  else if 0x3210 ≤ idx ∧ idx < 0x3250 ∧ sub = 2 then patchFail v
  else if (0x4410 ≤ idx ∧ idx < 0x4420 ∧ sub = 5) ∨ (0x4010 ≤ idx ∧ idx < 0x4018 ∧ sub = 1) then
    entriesFail v 4 listFields (n / 4) 0
  else if idx = 0x2311 ∧ sub = 1 then fieldsFail v 0 (tileKeyFields v)
  else if (idx = 0x1201 ∧ sub = 2) ∨ (idx = 0x4202 ∧ sub = 2) then fieldsFail v 0 (signedFields v)
  else if idx = 0x4310 ∧ sub = 1 then fieldsFail v 0 (imageFields v)
  else none

/-- The shortest length of a variable block. -/
def leastLength (idx sub : Nat) : Nat :=
  if idx = 0x4402 ∧ sub = 1 then 64 else if idx = 0x4310 ∧ sub = 2 then 5
  else if 0x3210 ≤ idx ∧ idx < 0x3250 ∧ sub = 2 then 4 else 0

/-- Why a written value is refused on its own (R371), with the byte offset of the field; none if it is accepted. -/
def valueFail (d : Desc) (idx sub : Nat) (v : Bytes) : Option (Nat × Nat) :=
  if d.ty = 12 then
    let ok := if d.var then decide (v.length ≤ d.size) && decide (leastLength idx sub ≤ v.length) && v.length % d.unit == 0
      else v.length == d.size
    if !ok then some (5, 0)
    else if d.el ≠ 0 then
      let w := if d.el = 1 || d.el = 8 || d.el = 9 then 1 else if d.el = 2 || d.el = 5 then 2 else 4
      entriesFail v w (fun _ => [⟨0, w, d.el, d.lo, d.hi, if d.el = 9 then 2 ^ (d.hi.toNat + 1) - 1 else d.mask⟩]) (v.length / w) 0
    else layoutFail idx sub v
  else if v.length ≠ d.size then some (5, 0)
  else
    let c := if 0x3100 ≤ idx ∧ idx < 0x3108 ∧ sub = 4 then sizesCode (leNat v)
      else if idx = 0x2058 ∧ sub = 2 ∧ leNat v = 254 then 8
      else scalarCode d.ty d.lo d.hi d.mask v
    if c = 0 then none else some (c, 0)

end Sys2Proof.Machine
end

