-- ==== Sys2Proof/Machine/Rules.lean ====
section
/-! DEFINITION. The cross-parameter rules (R376): the rules under which the SG128 refuses a COMMIT, each with the parameters
it names, in the order of the chapters. -/

namespace Sys2Proof.Machine

/-- How a rule reads a parameter: its bytes by index and sub-index. -/
abbrev Getter := Nat → Nat → Bytes

/-- A value as a count. -/
def Getter.n (g : Getter) (i s : Nat) : Nat := leNat (g i s)
/-- A value with its sign. -/
def Getter.i (g : Getter) (i s : Nat) : Int := leInt (g i s)
/-- Entry `k` of a block with entries of `w` bytes. -/
def Getter.e (g : Getter) (i s w k : Nat) : Nat := natAt (g i s) (w * k) w
/-- The binary32 word at a byte offset of a block. -/
def Getter.f (g : Getter) (i s o : Nat) : F32 := BitVec.ofNat 32 (natAt (g i s) o 4)
/-- A BOOL. -/
def Getter.b (g : Getter) (i s : Nat) : Bool := g.n i s == 1

/-- A cross-parameter rule: the keys it names, its abort code at a write, the keys whose writes it checks in every state,
and the rule itself. -/
structure Rule where
  names  : List Nat
  code   : Nat
  always : List Nat
  ok     : Getter → Bool

/-- A rule that a COMMIT checks, and a write in RUN, BARE and SAFE. -/
def Rule.plain (names : List (Nat × Nat)) (ok : Getter → Bool) : Rule := ⟨names.map (fun p => pkey p.1 p.2), 0xC, [], ok⟩

/-- A rule that every write checks too. -/
def Rule.every (names : List (Nat × Nat)) (ok : Getter → Bool) : Rule :=
  ⟨names.map (fun p => pkey p.1 p.2), 0xC, names.map (fun p => pkey p.1 p.2), ok⟩

/-- Whether a list has no repeats. -/
def distinct : List Nat → Bool
  | [] => true
  | x :: xs => !(xs.contains x) && distinct xs

/-- A family of rules, one for each index. -/
def rulesFor (n : Nat) (f : Nat → List Rule) : List Rule := (List.range n).flatMap f

/-! ### Time, supply, thermal (R50, R352, R367) -/

/-- R50, R352, R367. The limits of a die class ascend strictly; so do the PWR thresholds; the Bobbin share at level 3 is
not above that at level 2. -/
def rulesBase : List Rule :=
  [.every [(0x1101, 1), (0x1101, 2), (0x1101, 3), (0x1101, 4)] (fun g =>
    distinct (([1, 2, 3, 4].map (g.n 0x1101)).filter (· != 0))),
   .plain [(0x1402, 2), (0x1402, 3)] (fun g => decide (g.n 0x1402 2 < g.n 0x1402 3)),
   .plain [(0x1500, 0x14), (0x1500, 0x15)] (fun g => decide (g.n 0x1500 0x15 ≤ g.n 0x1500 0x14))] ++
  [1, 5, 9].map (fun a => .every [(0x1500, a), (0x1500, a + 1), (0x1500, a + 2), (0x1500, a + 3)] (fun g =>
    decide (g.i 0x1500 a < g.i 0x1500 (a + 1)) && decide (g.i 0x1500 (a + 1) < g.i 0x1500 (a + 2)) &&
    decide (g.i 0x1500 (a + 2) < g.i 0x1500 (a + 3))))

/-! ### Motion inputs (R58, R72, R77, R82, R85, R90) -/

/-- Whether a mode is listed for pulse input `i` (R58). -/
def modeListed (i m : Nat) : Bool :=
  match m with
  | 3 => i == 0 || i == 2
  | 4 => i == 1 || i == 3
  | 5 => i == 4 || i == 5
  | _ => true

/-- The unit vector of an axis code of P 0x2060. -/
def axisVec (c k : Nat) : Int := if c / 2 = k then (if c % 2 = 1 then -1 else 1) else 0

/-- Whether three axis codes form a right-handed mapping (R85): x × y = z. -/
def rightHanded (x y z : Nat) : Bool :=
  (List.range 3).all (fun k =>
    axisVec x ((k + 1) % 3) * axisVec y ((k + 2) % 3) - axisVec x ((k + 2) % 3) * axisVec y ((k + 1) % 3) == axisVec z k)

/-- The bit rates of R77. -/
def bitRates : List Nat := [4800, 9600, 19200, 38400, 57600, 115200, 230400, 460800, 921600]

/-- R58 with the pairing of QUADRATURE and PARTNER, the soft limits of R72, R77, R82, R85, R90. -/
def rulesMotion : List Rule :=
  rulesFor 8 (fun i =>
    [.plain [(0x2010 + i, 1)] (fun g => modeListed i (g.n (0x2010 + i) 1)),
     .plain [(0x2010 + i, 9), (0x2010 + i, 0xA)] (fun g => decide (g.i (0x2010 + i) 9 < g.i (0x2010 + i) 0xA))]) ++
  [0, 2].map (fun i => .plain [(0x2010 + i, 1), (0x2011 + i, 1)] (fun g =>
    (g.n (0x2010 + i) 1 == 3) == (g.n (0x2011 + i) 1 == 4))) ++
  rulesFor 2 (fun u => [.plain [(0x2050 + u, 2)] (fun g => bitRates.contains (g.n (0x2050 + u) 2))]) ++
  [.plain [(0x2050, 4), (0x2051, 4)] (fun g => !(g.b 0x2050 4 && g.b 0x2051 4)),
   .plain [(0x2060, 2), (0x2060, 3), (0x2060, 4)] (fun g => rightHanded (g.n 0x2060 2) (g.n 0x2060 3) (g.n 0x2060 4)),
   .plain [(0x2010, 1), (0x2012, 1), (0x2070, 1), (0x2070, 2)] (fun g =>
    !(g.b 0x2070 1) || g.n (0x2010 + 2 * g.n 0x2070 2) 1 == 3)]

/-! ### Geometry, Spindle, Distaff (R98, R125, R181) -/

/-- A field of a nozzle table entry. -/
def Getter.nz (g : Getter) (n o w : Nat) : Nat := natAt (g 0x2110 1) (20 * n + o) w

/-- The present nozzles. -/
def Getter.present (g : Getter) : List Nat := (List.range 128).filter (fun n => g.nz n 8 2 != 0)

/-- R98, R125, R181. A table without a present nozzle has no section to give one. -/
def rulesPlan : List Rule :=
  [.plain [(0x2110, 1)] (fun g => (entriesFail (g 0x2110 1) 20 nozzleFields 128 0).isNone),
   .plain [(0x2110, 1), (0x2110, 2)] (fun g => g.present.all (fun n => decide (g.nz n 15 1 < g.n 0x2110 2))),
   .plain [(0x2110, 1), (0x2110, 2)] (fun g =>
    g.present.isEmpty || (List.range (g.n 0x2110 2)).all (fun k => g.present.any (fun n => g.nz n 15 1 == k))),
   .plain ((0x2110, 1) :: (List.range 4).map (fun h => (0x3500 + h, 2))) (fun g =>
    g.present.all (fun n => g.nz n 16 1 == 0 || g.n (0x3500 + g.nz n 16 1 - 1) 2 == 1)),
   .plain [(0x2200, 3), (0x2200, 4)] (fun g => decide (g.n 0x2200 4 < g.n 0x2200 3)),
   .plain [(0x2300, 2), (0x2300, 3)] (fun g => decide (g.n 0x2300 2 ≤ g.n 0x2300 3))]

/-! ### Rate and dose (R183, R200, R205, R206, R207) -/

/-- The units a mode allows (R183). -/
def unitAllowed (m u : Nat) : Bool :=
  match m with
  | 1 => decide (u ≤ 2)
  | 2 => decide (u ≤ 2)
  | 3 => u == 3 || u == 4
  | 4 => u == 5 || u == 2
  | _ => true

/-- R183, R200, R205, R206, R207. -/
def rulesRate : List Rule :=
  [.plain [(0x2400, 1), (0x2400, 2)] (fun g => unitAllowed (g.n 0x2400 1) (g.n 0x2400 2)),
   .plain [(0x2400, 9), (0x2400, 0xA)] (fun g => decide (g.n 0x2400 0xA < g.n 0x2400 9)),
   .plain [(0x2400, 1), (0x2400, 0x11)] (fun g => g.n 0x2400 1 != 2 || g.n 0x2400 0x11 != 0),
   .plain ((List.range 8).map (fun i => (0x2010 + i, 1)) ++ [(0x2400, 0xD)]) (fun g =>
    g.n 0x2400 0xD == 0 || g.n (0x200F + g.n 0x2400 0xD) 1 == 2),
   .plain [(0x2110, 1), (0x2400, 1), (0x2401, 1), (0x2401, 3)] (fun g =>
    !(g.n 0x2400 1 == 1 || g.n 0x2400 1 == 4) ||
    g.present.all (fun n => g.e 0x2401 1 1 n != 0 || !(f32IsZero (g.f 0x2401 3 (4 * n)))))]

/-! ### Channels, banks, Bobbin (R219, R244, R258) -/

/-- Whether a channel is enabled for itself: the partner of a ply has no parameters of its own (R219). -/
def Getter.chOn (g : Getter) (n : Nat) : Bool := g.b (0x3000 + n) 1 && !(n % 2 == 1 && g.b (0x3000 + (n - 1)) 2)

/-- The channel itself and, of an odd one, the ply that may take it. -/
def chKeys (n : Nat) : List (Nat × Nat) := (0x3000 + n, 1) :: (if n % 2 = 1 then [(0x3000 + (n - 1), 2)] else [])

/-- The rules of one channel: R219, the plied and single ranges of R244, R244. -/
def rulesChannel (n : Nat) : List Rule :=
  let c := 0x3000 + n
  (if n % 2 = 1 then [.plain [(c, 2)] (fun g => !(g.b c 2))]
   else [.plain [(0x2110, 1), (c, 2)] (fun g => !(g.b c 2) || g.nz (n + 1) 8 2 == 0)]) ++
  [.plain [(c, 2), (c, 4), (c, 0xD)] (fun g =>
    if g.b c 2 then decide (1000 ≤ g.n c 4) && decide (200 ≤ g.n c 0xD)
    else decide (g.n c 4 ≤ 3000) && decide (g.n c 0xD ≤ 1500)),
   .plain (chKeys n ++ [(c, 3), (0x309F, 1)]) (fun g => !(g.chOn n) || natAt (g 0x309F 1) (32 * g.n c 3) 2 != 0),
   .plain (chKeys n ++ [(c, 4), (c, 0xD)]) (fun g => !(g.chOn n) || decide (g.n c 0xD ≤ g.n c 4))]

/-- R258 for bank `b`: enabled where one of its channels is, with source BOOST. -/
def ruleBank (b : Nat) : Rule :=
  .plain ((List.range 8).flatMap (fun i => chKeys (8 * b + i)) ++ [(0x3080 + b, 1), (0x3090, 1)]) (fun g =>
    !((List.range 8).any (fun i => g.chOn (8 * b + i))) || g.n (0x3080 + b) 1 != 0 || g.b 0x3090 1)

/-- R219, R244, R258. The nominal supply is that of the system voltage. -/
def rulesDrive : List Rule :=
  rulesFor 128 rulesChannel ++ rulesFor 16 (fun b => [ruleBank b]) ++
  [.plain [(0x1402, 1), (0x3090, 2)] (fun g =>
    decide ((if g.n 0x1402 1 = 1 then 24000 else 12000) + 4000 ≤ g.n 0x3090 2))]

/-! ### Whorl (R264, R266, R280, R282, R284, R285) -/

/-- A size of loop `w`: 0 n, 1 p, 2 m, 3 q. -/
def Getter.size (g : Getter) (w k : Nat) : Nat := g.n (0x3100 + w) 4 / 16 ^ k % 16

/-- The enabled loops. -/
def Getter.loops (g : Getter) : List Nat := (List.range 8).filter (fun w => g.b (0x3100 + w) 1)

/-- The destinations of the enabled loops' outputs, as kind × 256 + index; NONE left out. -/
def Getter.dests (g : Getter) : List Nat :=
  (g.loops.flatMap (fun w => (List.range (g.size w 2)).map (fun i => g.e (0x3100 + w) 6 2 i))).filter (fun d => 256 ≤ d)

/-- The analog entries in use, as (input, range). -/
def Getter.analog (g : Getter) : List (Nat × Nat) :=
  (g.loops.flatMap (fun w => (List.range (g.size w 1)).map (fun i => (w, i)))).filterMap (fun p =>
    let b := bytesAt (g (0x3100 + p.1) 5) (24 * p.2) 24
    if natAt b 0 1 = 1 then some (natAt b 1 1, natAt b 2 1) else none)

/-- The loops that the rate and dose computer names. -/
def Getter.named (g : Getter) : List Nat :=
  [g.n 0x2400 6, g.n 0x2400 0x11].filterMap (fun v => if v = 0 then none else some (v - 1)) ++
  (List.range 2).filterMap (fun k => if g.b (0x2408 + k) 1 then some (g.n (0x2408 + k) 2) else none)

/-- The keys of a parameter of every loop. -/
def loopKeys (sub : Nat) : List (Nat × Nat) := (List.range 8).map (fun w => (0x3100 + w, sub))

/-- The cost of a step (R282). -/
def Getter.cost (g : Getter) (w : Nat) : Nat :=
  let n := g.size w 0
  112 + n * n + 2 * n * g.size w 1 + 2 * n * g.size w 2 + g.size w 2 * g.size w 3

/-- Whether thresholds `a` to `b` − 1 of a loop do not descend. -/
def Getter.climbs (g : Getter) (w a b : Nat) : Bool :=
  (List.range (b - 1 - a)).all (fun k => f32Le (g.f (0x3100 + w) 0xC (4 * (a + k))) (g.f (0x3100 + w) 0xC (4 * (a + k + 1))))

/-- The tracking words of loop `w` (R266): each tracks a measurement below p, and HOST-OR-REQUEST stands in its one place. -/
def Getter.tracks (g : Getter) (w : Nat) : Bool :=
  [7, 8].all (fun sub => (List.range (g.size w 3)).all (fun r =>
    let word := g.e (0x3100 + w) sub 2 r
    decide (word % 256 < g.size w 1) && (word / 256 != 2 || (r == 0 && g.n 0x2400 6 == w + 1))))

/-- The rules of one loop (R284, R285). -/
def rulesLoop (w : Nat) : List Rule :=
  let c := 0x3100 + w
  let on := fun (names : List Nat) (ok : Getter → Bool) => Rule.plain ((c, 1) :: names.map (fun k => (c, k))) (fun g => !(g.b c 1) || ok g)
  [on [2] (fun g => g.n c 2 % 10 == 0),
   on [2, 3] (fun g => decide (g.n c 3 < g.n c 2)),
   .plain [(0x2400, 6), (c, 1), (c, 4), (c, 7), (c, 8)] (fun g => !(g.b c 1) || g.tracks w),
   on [9, 0xC] (fun g => g.climbs w 0 (g.n c 9 - 1) && g.climbs w (g.n c 9) 7),
   on [4, 0xE] (fun g => (List.range 8).all (fun j => (List.range (g.size w 2)).all (fun i =>
    f32Le (g.f c 0xE (32 * j + 8 * i)) (g.f c 0xE (32 * j + 8 * i + 4))))),
   on [4, 5] (fun g => (List.range (g.size w 1)).all (fun i =>
    natAt (g c 5) (24 * i) 1 != 0 && f32Lt (g.f c 5 (24 * i + 12)) (g.f c 5 (24 * i + 16)))),
   .plain [(c, 0x12), (c, 0x13)] (fun g => (List.range 2).all (fun r => f32Le (g.f c 0x12 (4 * r)) (g.f c 0x13 (4 * r))))]

/-- R280, R282, R284, R285. -/
def rulesWhorl : List Rule :=
  rulesFor 8 rulesLoop ++
  [.plain (loopKeys 1 ++ loopKeys 4 ++ loopKeys 6) (fun g => distinct g.dests),
   .plain (loopKeys 1 ++ loopKeys 4 ++ loopKeys 6 ++ (List.range 4).map (fun h => (0x3500 + h, 2))) (fun g =>
    g.dests.all (fun d => d / 256 != 1 || g.n (0x3500 + d % 256) 2 != 1)),
   .plain ([(0x2400, 6), (0x2400, 0x11), (0x2408, 1), (0x2408, 2), (0x2409, 1), (0x2409, 2)] ++ loopKeys 1) (fun g =>
    g.named.all (fun w => g.b (0x3100 + w) 1)),
   .plain (loopKeys 1 ++ loopKeys 2 ++ loopKeys 4) (fun g =>
    decide ((g.loops.map (fun w => 1000000000 * g.cost w / max 1 (g.n (0x3100 + w) 2))).foldl (· + ·) 0 ≤ 80000000)),
   .plain (loopKeys 1 ++ loopKeys 4 ++ loopKeys 5) (fun g =>
    g.analog.all (fun a => g.analog.all (fun b => a.1 != b.1 || a.2 == b.2)))]

/-! ### Flyer, bridges, ports (R24, R290, R293, R304, R305, R318, R522) -/

/-- The period a spinner runs at: its leader's, where it follows one (R293). -/
def Getter.period (g : Getter) (k : Nat) : Nat :=
  let l := g.n (0x3400 + k) 7
  if l = 0 then g.n (0x3400 + k) 3 else g.n (0x33FF + l) 3

/-- The spinners that name a destination. -/
def Getter.spinnersOf (g : Getter) (d : Nat) : List Nat := (List.range 16).filter (fun k => g.n (0x3400 + k) 1 == d)

/-- Period and dead time of a spinner within the limits of its destination (R304, R318). -/
def Getter.stageOk (g : Getter) (k : Nat) : Bool :=
  let d := g.n (0x3400 + k) 1
  let p := g.period k
  let dead := g.n (0x3400 + k) 4
  if 1 ≤ d ∧ d ≤ 4 then decide (4000 ≤ p) && decide (p ≤ 1600000) && decide (200 ≤ dead)
  else if d = 5 ∨ d = 6 then decide (4000 ≤ p) && decide (p ≤ 32000) && decide (g.n (0x3503 + d) 4 ≤ dead)
  else true

/-- The periods of every spinner: a class F write to one acts on its followers. -/
def periodKeys : List (Nat × Nat) := (List.range 16).map (fun l => (0x3400 + l, 3))

/-- The rules of one spinner. The ones of R304 and R318 stand at every class F write. A follower's own phase and period have no effect
(R293). -/
def rulesSpinner (k : Nat) : List Rule :=
  let c := 0x3400 + k
  let spin := fun (names f : List (Nat × Nat)) (ok : Getter → Bool) =>
    ({ Rule.plain names ok with always := f.map (fun p => pkey p.1 p.2) } : Rule)
  [.plain [(c, 1), (c, 2)] (fun g =>
    if g.n c 1 = 0 then true else if 7 ≤ g.n c 1 then g.n c 2 == 1 else g.n c 2 == 0),
   .plain ((List.range 16).map (fun l => (0x3400 + l, 7))) (fun g =>
    g.n c 7 == 0 || (g.n c 7 != k + 1 && g.n (0x33FF + g.n c 7) 7 == 0)),
   spin ([(c, 2), (c, 4), (c, 5), (c, 7)] ++ periodKeys) ([(c, 4), (c, 5)] ++ periodKeys) (fun g =>
    g.n c 2 != 0 || decide (2 * tickUp (g.n c 4) + 2 * tickUp (g.n c 5) < g.period k)),
   spin ([(c, 1), (c, 4), (c, 7), (0x3508, 4), (0x3509, 4)] ++ periodKeys) ((c, 4) :: periodKeys) (fun g => g.stageOk k),
   spin [(c, 3), (c, 7), (c, 9)] [(c, 3)] (fun g => g.n c 7 != 0 || decide (g.n c 9 < g.n c 3))]

/-- The rules of one bridge (R305). -/
def rulesBridge (h : Nat) : List Rule :=
  let c := 0x3500 + h
  let spins := (List.range 16).map (fun k => (0x3400 + k, 1))
  [.plain [(c, 2), (c, 3)] (fun g =>
    if g.n c 2 = 2 then g.n c 3 != 2 else if g.n c 2 = 1 then g.n c 3 == 2 else true),
   .plain (spins ++ [(c, 1)]) (fun g => !(g.b c 1) || !(g.spinnersOf (h + 1)).isEmpty)]

/-- R24, R290, R293, R304, R305, R318, R522. -/
def rulesStages : List Rule :=
  [.plain ((List.range 16).map (fun k => (0x3400 + k, 1))) (fun g =>
    distinct (((List.range 16).map (fun k => g.n (0x3400 + k) 1)).filter (· != 0)))] ++
  rulesFor 16 rulesSpinner ++ rulesFor 4 rulesBridge ++
  rulesFor 2 (fun p => [.plain [(0x3508 + p, 1), (0x3508 + p, 7), (0x3508 + p, 8)] (fun g =>
    !(g.b (0x3508 + p) 1) || decide (g.n (0x3508 + p) 7 * g.n (0x3508 + p) 8 ≤ 300000000))])

/-! ### Load switches (R322, R323, R325, R334) -/

/-- Whether switch `j` is the partner of a ply. -/
def Getter.partner (g : Getter) (j : Nat) : Bool := (j == 1 || j == 3) && g.b (0x3600 + (j - 1)) 3

/-- The rules of one switch. -/
def rulesSwitch (j : Nat) : List Rule :=
  let c := 0x3600 + j
  let own := if j = 1 ∨ j = 3 then [(c - 1, 3)] else []
  let spins := (List.range 16).map (fun k => (0x3400 + k, 1))
  let pwm := fun (g : Getter) => !(g.partner j) && g.n c 2 == 1
  [.plain (spins ++ own ++ [(c, 2)]) (fun g =>
    g.partner j || (g.spinnersOf (7 + j)).length == (if g.n c 2 = 1 then 1 else 0)),
   .plain (spins ++ periodKeys ++ (List.range 16).flatMap (fun k => [(0x3400 + k, 5), (0x3400 + k, 7)]) ++ own ++ [(c, 2)]) (fun g =>
    !(pwm g) || (g.spinnersOf (7 + j)).all (fun k =>
      decide (80000 ≤ g.period k) && decide (g.period k ≤ 1600000) && decide (20000 ≤ g.n (0x3400 + k) 5))),
   .plain (own ++ [(c, 2), (c, 0xF)]) (fun g => !(pwm g) || g.n c 0xF == 0),
   .plain [(c, 3)] (fun g => !(g.b c 3) || j == 0 || j == 2),
   .plain (spins ++ own) (fun g => !(g.partner j) || (g.spinnersOf (7 + j)).isEmpty),
   .plain (own ++ [(c, 3), (c, 0xF)]) (fun g => g.partner j || decide (g.n c 0xF ≤ (if g.b c 3 then 800 else 400))),
   .plain (own ++ [(c, 3), (c, 4)]) (fun g => g.partner j ||
    (if g.b c 3 then decide (4000 ≤ g.n c 4) else decide (g.n c 4 ≤ 25000)))]

/-! ### Snapshot sets and streams (R393, R397, R449) -/

/-- The parameters a list names. -/
def Getter.list (g : Getter) (i s : Nat) : List (Nat × Nat) :=
  let b := g i s
  (List.range (b.length / 4)).map (fun k => (natAt b (4 * k) 2, natAt b (4 * k + 2) 1))

/-- The size of a listed value; none for an unknown or WO parameter or a block of variable length. -/
def listSize (p : Nat × Nat) : Option Nat :=
  if p.2 = 0 then (if indexInUse p.1 then some 1 else none)
  else match findDesc p.1 p.2 with
    | none => none
    | some d => if d.acc = 2 || d.var then none else some d.size

/-- The size of a list's values; none where one cannot be listed. -/
def listTotal (l : List (Nat × Nat)) : Option Nat :=
  l.foldl (fun a p => a.bind (fun n => (listSize p).map (fun m => n + m))) (some 0)

/-- The publications per second of the enabled streams of a network, as a fraction. -/
def Getter.load (g : Getter) (net : Nat) : Nat × Nat :=
  ((List.range 16).filter (fun s => g.b (0x4410 + s) 1 && g.n (0x4410 + s) 2 == net)).foldl
    (fun (a : Nat × Nat) s => (a.1 * g.n (0x4410 + s) 3 + 1000 * a.2, a.2 * g.n (0x4410 + s) 3)) (0, 1)

/-- A stream rule: refused with 0x13 at a write in every state and at a COMMIT. -/
def Rule.stream (names : List (Nat × Nat)) (ok : Getter → Bool) : Rule :=
  { Rule.every names ok with code := 0x13 }

/-- R393, R397, R449. A value of an unknown parameter in a snapshot set counts as none. -/
def rulesLists : List Rule :=
  rulesFor 8 (fun t => [.plain [(0x4010 + t, 1)] (fun g =>
    match listTotal ((g.list (0x4010 + t) 1).filter (fun p => indexInUse p.1 && (p.2 == 0 || (findDesc p.1 p.2).isSome))) with
    | some n => decide (n ≤ 144)
    | none => false)]) ++
  rulesFor 16 (fun s =>
    [.stream [(0x4410 + s, 2), (0x4410 + s, 5)] (fun g =>
      match listTotal (g.list (0x4410 + s) 5) with
      | some n => decide (n ≤ (if g.n (0x4410 + s) 2 = 2 then 1448 else 40))
      | none => false),
     .plain [(0x4410 + s, 3), (0x4410 + s, 4)] (fun g => decide (g.n (0x4410 + s) 4 < g.n (0x4410 + s) 3))]) ++
  [.stream ((List.range 16).flatMap (fun s => [(0x4410 + s, 1), (0x4410 + s, 2), (0x4410 + s, 3)])) (fun g =>
    [0, 1, 2].all (fun net => decide ((g.load net).1 ≤ (if net = 2 then 10000 else 1000) * (g.load net).2)))]

/-! ### Ranges that name another parameter (R371) -/

/-- A range of a table that names another parameter: like every range it is checked at every write of its own parameter, in every
state, the other parameter at its image value. -/
def Rule.range (idx sub code : Nat) (ok : Getter → Bool) : Rule := ⟨[pkey idx sub], code, [pkey idx sub], ok⟩

/-- A range that a ply moves: plied (P `idx`.`ply`) from `low` on, else up to `high`; the outer ends stand in the table. -/
def rangePlied (idx ply sub low high : Nat) : List Rule :=
  [.range idx sub 7 (fun g => !(g.b idx ply) || decide (low ≤ g.n idx sub)),
   .range idx sub 8 (fun g => g.b idx ply || decide (g.n idx sub ≤ high))]

/-- The ranges of R244, R285, R304, R334, R353, R367, R397 and of the rate and dose computer's table that name another parameter. -/
def rangeRules : List Rule :=
  [.range 0x1402 3 7 (fun g => decide (g.n 0x1402 2 < g.n 0x1402 3)),
   .range 0x1500 0x15 8 (fun g => decide (g.n 0x1500 0x15 ≤ g.n 0x1500 0x14)),
   .range 0x2400 0xA 8 (fun g => decide (g.n 0x2400 0xA < g.n 0x2400 9))] ++
  rulesFor 8 (fun w =>
    [.range (0x3100 + w) 3 8 (fun g => decide (g.n (0x3100 + w) 3 + 10 ≤ g.n (0x3100 + w) 2)),
     .range (0x3100 + w) 0x13 7 (fun g => (List.range 2).all (fun r =>
      f32Le (g.f (0x3100 + w) 0x12 (4 * r)) (g.f (0x3100 + w) 0x13 (4 * r))))]) ++
  rulesFor 128 (fun n => rangePlied (0x3000 + n) 2 4 1000 3000 ++ rangePlied (0x3000 + n) 2 0xD 200 1500) ++
  rulesFor 16 (fun k =>
    rangePlied (0x3600 + k) 3 4 4000 25000 ++
    [.range (0x3600 + k) 0xF 8 (fun g => g.b (0x3600 + k) 3 || decide (g.n (0x3600 + k) 0xF ≤ 400)),
     .range (0x3400 + k) 9 8 (fun g => decide (g.n (0x3400 + k) 9 < g.period k)),
     .range (0x3400 + k) 0xA 8 (fun g => decide (g.n (0x3400 + k) 0xA ≤ 128 * g.period k)),
     .range (0x4410 + k) 4 8 (fun g => decide (g.n (0x4410 + k) 4 < g.n (0x4410 + k) 3))])

/-! ### All of them -/

/-- Every cross-parameter rule. -/
def crossRules : List Rule :=
  rulesBase ++ rulesMotion ++ rulesPlan ++ rulesRate ++ rulesDrive ++ rulesWhorl ++ rulesStages ++
  rulesFor 16 rulesSwitch ++ rulesLists

/-- The parameter by which a rule stands in the order of R381: the lowest it names. -/
def Rule.key (r : Rule) : Nat := r.names.foldl min 0xFFFFFF

/-- The first rule a configuration breaks in ascending order of parameters (R381), with its abort code at a COMMIT. -/
def commitFail (g : Getter) : Option (Nat × Nat) :=
  crossRules.foldl (fun (a : Option (Nat × Nat)) r =>
    let first := match a with
      | some p => decide (r.key < p.1)
      | none => true
    if first && !(r.ok g) then some (r.key, if r.code = 0x13 then 0x13 else 0x10) else a) none

/-- The abort code of a write of key `k` that leaves its own range (R371) or leaves a rule broken (R376): in RUN, BARE and SAFE every rule that names it,
elsewhere the rules that chapters check at writes; 0 where none is broken. -/
def writeFail (g : Getter) (k : Nat) (strict : Bool) : Nat :=
  match rangeRules.find? (fun r => r.names.contains k && !(r.ok g)) with
  | some r => r.code
  | none =>
    match crossRules.find? (fun r => (if strict then r.names else r.always).contains k && !(r.ok g)) with
    | some r => r.code
    | none => 0

end Sys2Proof.Machine
end

