-- ==== Sys2Proof/Machine/Commands.lean ====
section
/-! DEFINITION. What a write of a WO parameter does (R372): state commands (R475, R476), signed responses and life-cycle
commands (R421, R486, R489), Carding commands (R505, R507), image commands (R493 to R496), cleared latches and counts. Each
answers the state after it and an abort code, 0 where the write is accepted. -/

namespace Sys2Proof.Machine

/-- The first frame boundary at least 100 µs from now (R381, R475, R496). -/
def State.nextEffect (s : State) : IT := boundaryAtOrAfter (s.it + 100000)

/-! ### State commands (R458, R475, R476, R483) -/

/-- A state command refused with its reason in P 0x4400.03. -/
def State.refuseState (s : State) (reason code : Nat) : State × Nat := (s.modPower (fun p => { p with cmdResult := reason }), code)

/-- A state command accepted: it waits for its boundary, replacing one that waits. -/
def State.acceptState (s : State) (target : Nat) : State × Nat :=
  (s.modPower (fun p => { p with cmdResult := 0, cmd := some ⟨target, s.nextEffect⟩ }), 0)

/-- The dictionary's part of the state changed. -/
def State.modDict (s : State) (f : Dict → Dict) : State := { s with dict := f s.dict }

/-- Whether a fault with response SAFE is active. -/
def State.safeFault (s : State) : Bool := s.sup.active.any (fun a => a.resp == 3)

/-- Whether the controlling session's heartbeat is current (R456). -/
def State.hostCurrent (s : State) : Bool :=
  match s.nets.ctrl.bind s.session with
  | some x => decide (s.it < x.beat + s.pN 0x1200 1 * 1500000)
  | none => false

/-- Why the command RUN is refused (R476, R483), in the codes of P 0x4400.03; 0 where it is accepted. -/
def State.runRefusal (s : State) : Nat :=
  if s.power.dev ≠ .ready ∧ s.power.dev ≠ .bare then 1
  else if s.dict.state ≠ 1 then 2
  else if !s.hostCurrent then 3
  else if s.sup.thermal then 4
  else if s.safeFault then 5
  else if s.bobbinEnabled && s.bob.state != 2 then 6
  else if !s.power.ign then 8
  else 0

/-- A write of P 0x4400.02 from a session at level `lvl`. -/
def State.stateCommand (s : State) (lvl c : Nat) : State × Nat :=
  match c with
  | 1 => if s.runRefusal = 0 then s.acceptState 1 else s.refuseState s.runRefusal 0xA
  | 2 =>
    if s.power.dev ≠ .run then s.refuseState 1 0xA
    else if s.sup.thermal then s.refuseState 4 0xA
    else s.acceptState 2
  | 3 =>
    if s.power.dev ≠ .ready ∧ s.power.dev ≠ .run ∧ s.power.dev ≠ .bare then s.refuseState 1 0xA
    else ((s.modPower (fun p => { p with cmdResult := 0, cmd := none })).enterSafe 0, 0)
  | 4 =>
    if s.power.dev ≠ .safe then s.refuseState 1 0xA
    else if s.sup.thermal then s.refuseState 4 0xA
    else if s.safeFault then s.refuseState 5 0xA
    else s.acceptState 4
  | _ =>
    if lvl < 3 then s.refuseState 7 0xB
    else if (s.power.dev ≠ .ready ∧ s.power.dev ≠ .safe) ∨ (s.card.life ≠ 2 ∧ s.card.life ≠ 3) then s.refuseState 1 0xA
    else if s.power.dev = .safe ∧ s.safeFault then s.refuseState 5 0xA
    else s.acceptState 5

/-! ### Challenge, response, keys, life-cycle (R421, R486, R489) -/

/-- A session's access level set. -/
def State.sessionLevel (s : State) (i : SessionId) (l : Nat) : State :=
  { s with nets := { s.nets with sessions := s.nets.sessions.map (fun x => if x.id == i then { x with level := l } else x) } }

/-- A new challenge issued (R421): 16 bytes the manual leaves open (Assumption 4). -/
def State.issueChallenge (s : State) : State :=
  let c := le 16 s.drawn
  { s.draw with nets := { s.nets with challenge := some (c, s.it) } }

/-- The public key of a level, if it is installed (R488, R489). -/
def State.levelKey (s : State) (l : Nat) : Option (Nat × Nat) :=
  if l = 3 then some (Config.serviceKeyX, Config.serviceKeyY) else if l = 2 then s.card.key else none

/-- Whether `v`, a byte with three reserved ones, r and s, is signed with the key of level `l` over the SHA-256 of the challenge, the
serial number and the byte (R421, R486), r and s little-endian as every value of a block parameter is (R7); the challenge is at most 30 s old. -/
def State.signedBy (s : State) (l : Nat) (v : Bytes) : Bool :=
  match s.nets.challenge, s.levelKey l with
  | some (c, t), some (x, y) =>
    decide (s.it ≤ t + 30000000000) &&
      ecdsaVerify x y (sha256 (c ++ serialNumberBytes ++ v.take 1)) (leNat (bytesAt v 4 32)) (leNat (bytesAt v 36 32))
  | _, _ => false

/-- The challenge used up: it is valid for one response. -/
def State.useChallenge (s : State) : State := { s with nets := { s.nets with challenge := none } }

/-- A write of P 0x1201.02 (R421). The third consecutive invalid response locks challenges for 300 s. -/
def State.response (s : State) (who : SessionId) (v : Bytes) : State × Nat :=
  let l := natAt v 0 1
  let good := (l == 2 || l == 3) && s.signedBy l v
  let s := s.useChallenge
  if good then
    let s := s.sessionLevel who l
    ({ s with nets := { s.nets with raisedAt := s.it, badRow := 0 } }, 0)
  else
    let row := s.nets.badRow + 1
    let s : State := { s with nets := { s.nets with
      bad := sat32 (s.nets.bad + 1), badRow := row,
      lockUntil := if row = 3 then some (s.it + 300000000000) else s.nets.lockUntil } }
    (s.recordIf (row == 3) 0xD002 0 [], 0xB)

/-- A write of P 0x4202.02 (R486) from a session at level `lvl`. -/
def State.lifecycle (s : State) (lvl : Nat) (v : Bytes) : State × Nat :=
  let target := natAt v 0 1
  let l := s.card.life
  let allowed := (l == 1 && target == 2) || ((l == 2 || l == 3) && target == 4)
  let need := if target = 2 then 3 else 2
  if !allowed then (s, 0xA)
  else if lvl < need then (s, 0xB)
  else
    let good := s.signedBy lvl v
    let s := s.useChallenge
    if good then (s.modCard (fun c => { c with pendLife := target }), 0) else (s, 0xB)

/-- The one-time write of the PROTECTED key (R489): x, then y, little-endian as every value of a block parameter is (R7). -/
def State.protectedKey (s : State) (v : Bytes) : State × Nat :=
  if s.card.key.isSome || !(s.card.life == 1 || s.card.life == 2) then (s, 0xA)
  else (s.modCard (fun c => { c with key := some (leNat (bytesAt v 0 32), leNat (bytesAt v 32 32)) }), 0)

/-! ### Carding on demand (R485, R505, R507) -/

/-- A write of P 0x4200.01 from a session at level `lvl`. A range reaches slice 16,547 at most. -/
def State.cardingCommand (s : State) (lvl c : Nat) : State × Nat :=
  let inService := s.card.life == 3 && s.power.dev == .service
  let inMake := s.card.life == 1 && (s.power.dev == .unconfigured || s.power.dev == .ready)
  if !(inMake || inService) then (s, 0xA)
  else if s.card.life = 3 ∧ lvl < 3 then (s, 0xB)
  else match c with
    | 4 => (s.abortRun 1, 0)
    | 5 => (s.burn, 0)
    | _ =>
      if s.card.run.isSome then (s, 0xA)
      else
        let first := s.pN 0x4200 2
        let todo := if c = 1 then (0, cardSlices) else if c = 2 then (0, 36)
          else (first, min (s.pN 0x4200 3) (cardSlices - first))
        (s.startRun [todo] false, 0)

/-! ### Image commands (R487, R493 to R496) -/

/-- Whether image commands are served: from UNCONFIGURED to SERVICE, in the boot ROM, never in SCRAPPED. -/
def State.imagesServed (s : State) : Bool :=
  s.card.life != 4 && s.power.dev != .shutdown && (s.power.dev != .boot || s.bootRom)

/-- An image command refused with its cause. -/
def State.refuseImage (s : State) (e cause : Nat) : State × Nat :=
  (s.imageResult 2 e (s.engine e).other cause 0 0, 0xA)

/-- A load's slot changed. -/
def EngineSt.load (x : EngineSt) (k : Nat) (f : Slot → Slot) : EngineSt :=
  if k = 0 then { x with slotA := f x.slotA, factoryA := false } else { x with slotB := f x.slotB, factoryB := false }

/-- OPEN (R493). -/
def State.imageOpen (s : State) (e total : Nat) : State × Nat :=
  let x := s.engine e
  if x.slotA.state = 5 ∨ x.slotB.state = 5 then s.refuseImage e 9
  else if total ≤ 256 ∨ 256 + bodyMax < total then s.refuseImage e 3
  else
    let s := s.modEngine e (fun x => x.load x.other (fun _ => ⟨1, total, 0⟩))
    (s.imageResult 0 e x.other 0 0 0, 0)

/-- VERIFY (R492, R493): of a slot that has been loaded; one found INVALID is refused until it is loaded anew (R491; Assumption 64). -/
def State.imageVerify (s : State) (e : Nat) : State × Nat :=
  let x := s.engine e
  let k := x.other
  if (x.slot k).state < 2 ∨ (x.slot k).state = 6 then s.refuseImage e (if (x.slot k).state = 6 then 8 else 3)
  else
    let cause := s.imageCause e k
    let h := s.slotHeader e k
    let s := s.modEngine e (fun x => x.mark k (if cause = 0 then 3 else 6))
    let s := s.imageResult 0 e k cause (x.slot k).got 0
    (s.record 0xF021 e (le 1 k ++ le 1 (if cause = 0 then 0 else 1) ++ le 1 cause ++ bytesAt h 8 4 ++ le 4 (natAt h 6 2)), 0)

/-- SWITCH (R496, R497). -/
def State.imageSwitch (s : State) (e : Nat) : State × Nat :=
  if s.card.switch.isSome then (s, 0x11)
  else if s.switchCause e ≠ 0 then s.refuseImage e (s.switchCause e)
  else
    let b := s.nextEffect
    let s := s.modCard (fun c => { c with switch := some ⟨e, b, 0⟩ })
    (s.imageResult 1 e (s.engine e).other 0 0 b, 0)

/-- ABANDON (R493). -/
def State.imageAbandon (s : State) (e : Nat) : State × Nat :=
  let x := s.engine e
  let st := (x.slot x.other).state
  if st = 1 ∨ st = 2 then
    ((s.modEngine e (fun x => x.mark x.other 0)).imageResult 0 e x.other 12 (x.slot x.other).got 0, 0)
  else s.refuseImage e 0

/-- A write of P 0x4310.01 from a session at level `lvl`. The boot ROM serves image loading alone: neither SWITCH nor CONFIRM (R494). -/
def State.imageCommand (s : State) (lvl : Nat) (v : Bytes) : State × Nat :=
  let e := natAt v 1 1
  if s.card.life = 4 then (s, 0xA)
  else if lvl < 2 then (s, 0xB)
  else if !s.imagesServed then (s, 0xA)
  else match natAt v 0 1 with
    | 1 => s.imageOpen e (natAt v 4 4)
    | 2 => s.imageVerify e
    | 3 => if s.power.dev = .boot then (s, 0xA) else s.imageSwitch e
    | 4 => if s.power.dev = .boot then (s, 0xA) else (s.confirmImages.imageResult 0 e (s.engine e).running 0 0 0, 0)
    | _ => s.imageAbandon e

/-- Whether an engine has a load in progress. -/
def State.loading (s : State) (e : Nat) : Bool := ((s.engine e).slot (s.engine e).other).state == 1

/-- The engine whose load a chunk belongs to: that of the last image command, or the first one with a load. -/
def State.loadEngine (s : State) : Option Nat :=
  if s.loading s.card.cmdEng then some s.card.cmdEng else (List.range 4).find? s.loading

/-- Whether an on-demand run stands at the slice of the Whorl coefficient memory (R499, R503). -/
def State.coefHeld (s : State) : Bool := s.card.run.any (fun r => !r.shutdown && r.current == 16)

/-- Whether the MRAM interface suspends priorities 5 and 6 of R27, the processor die at level 3 (R362). What needs it then meets BUSY
and is asked for again (Assumption 118). -/
def State.mramHeld (s : State) : Bool := decide (3 ≤ vget s.therm.acting 5 0)

/-- A write of P 0x4310.02 (R493): the next bytes of the load; the last one makes the slot LOADED. -/
def State.imageChunk (s : State) (lvl : Nat) (v : Bytes) : State × Nat :=
  if s.card.life = 4 then (s, 0xA)
  else if lvl < 2 then (s, 0xB)
  else if !s.imagesServed then (s, 0xA)
  else if s.mramHeld then (s, 0x11)
  else match s.loadEngine with
    | none => (s, 0xA)
    | some e =>
      let x := s.engine e
      let k := x.other
      let sl := x.slot k
      let off := natAt v 0 4
      let data := v.drop 4
      if off ≠ sl.got then s.refuseImage e 3
      else if sl.total < off + data.length then s.refuseImage e 3
      else if s.sliceAt (slotBase e k + off) data.length then (s, 0x11)
      else
        let got := off + data.length
        let s : State := { s with mram := Memory.write s.mram (slotBase e k + off) data }
        let s := s.modEngine e (fun x => x.load k (fun y => { y with got := got, state := if got = y.total then 2 else 1 }))
        (s.imageResult 0 e k 0 got 0, 0)

/-! ### Everything else -/

/-- The last-word area emptied (R447). -/
def State.clearLastWord (s : State) : State := s.modSkein (fun k => { k with lastWord := [] })

/-- Every staged value discarded (R379). -/
def State.discardStaged (s : State) : State := { s with dict := { s.dict with staged := [] } }

/-- The hank command P 0x2302.01 (R156): BUSY while one waits, and while a Carding slice holds the slot's header (R503). -/
def State.hankWrite (s : State) (v : Bytes) : State × Nat :=
  if s.dis.result = 1 || s.sliceAt (headerAt (natAt v 1 1)) 4096 then (s, 0x11) else (s.hankCommand v, 0)

/-- The tile stream P 0x2310.01 (R167): BUSY while the interface or a Carding slice holds what it writes (R362, R503). -/
def State.tileWrite (s : State) (v : Bytes) : State × Nat :=
  if s.mramHeld || s.streamHeld (v.length / 16 + 1) v then (s, 0x11) else (s.tileStream v, 0)

/-- The effect of an accepted write of a WO parameter, but for the configuration image, by a session at level `lvl`. -/
def State.writeCommand (s : State) (who : SessionId) (lvl idx sub : Nat) (v : Bytes) : State × Nat :=
  if idx = 0x1201 then (if sub = 2 then s.response who v else (s.sessionLevel who (min lvl 1), 0))
  else if idx < 0x2030 then (if sub = 0xB then s.resetUncert (idx - 0x2020) else s.setCount (idx - 0x2020) (leInt v), 0)
  else if idx = 0x2302 then s.hankWrite v
  else if idx = 0x2310 then s.tileWrite v
  else if idx < 0x3080 then (s.clearChannel (idx - 0x3000), 0)
  else if idx < 0x3100 then (s.clearBank (idx - 0x3080), 0)
  else if idx < 0x3108 then (s.commitLoop (idx - 0x3100), 0)
  else if idx < 0x3400 then 
    ((s.coefWrite ((idx - 0x3210) / 8) ((idx - 0x3210) % 8) (patchCoefs v)).modDict (fun d => { d with
      store := aput (pkey idx 1) (patchInto (d.inUse idx 1) v) d.store }), 0)
  else if idx < 0x3508 then (s.clearOutput (idx - 0x3500), 0)
  else if idx < 0x3600 then (s.clearOutput (idx - 0x3504), 0)
  else if idx < 0x4000 then (s.clearLoad (idx - 0x3600) (leNat v), 0)
  else if idx = 0x4003 then (s.clearLastWord, 0)
  else if idx = 0x4100 then (s.clearFaults, 0)
  else if idx = 0x4200 then s.cardingCommand lvl (leNat v)
  else if idx = 0x4202 then (if sub = 2 then s.lifecycle lvl v else s.protectedKey v)
  else if idx = 0x4310 then (if sub = 1 then s.imageCommand lvl v else s.imageChunk lvl v)
  else if idx = 0x4400 then s.stateCommand lvl (leNat v)
  else (s.discardStaged, 0)

end Sys2Proof.Machine
end

