-- ==== Sys2Proof/Machine/Dict.lean ====
section
/-! DEFINITION. The object dictionary engine (R369 to R391): a write from its checks to its effect, staging, COMMIT, the
configuration image, the digest re-check. -/

namespace Sys2Proof.Machine

/-! ### Change classes (R373, R374) -/

/-- Whether the block that owns an index counts as running for class I (R57, R117, R120, R184, R243, R258, R283, R302, R317,
R333); an index whose chapter names no states counts so everywhere but in UNCONFIGURED and READY (R374). -/
def blockRunning (idx : Nat) (d : DevState) : Bool :=
  let runBare := d == .run || d == .bare
  if 0x2010 ≤ idx ∧ idx < 0x2100 then runBare
  else if 0x2100 ≤ idx ∧ idx < 0x2200 then runBare || d == .ready
  else if 0x2200 ≤ idx ∧ idx < 0x2300 then d == .run
  else if 0x2400 ≤ idx ∧ idx < 0x2500 then d == .run
  else if idx = 0x3090 then runBare || d == .ready || d == .safe || d == .shutdown
  else if 0x3000 ≤ idx ∧ idx < 0x3600 then runBare
  else if 0x3600 ≤ idx ∧ idx < 0x3700 then runBare || d == .safe
  else d != .unconfigured && d != .ready

/-- Whether a parameter sets the response of a fault: a change applies to faults detected from the next frame boundary on (R471). -/
def faultResponseParam (idx sub : Nat) : Bool := idx == 0x4100 && decide (2 ≤ sub) && decide (sub ≤ 6)

/-- The boundary at which a class F write accepted at `t` takes effect (R373): a fold, a compare list, the mark threshold and a
fault response at the next one in any case (R71, R100, R181, R471). -/
def effectBoundary (idx sub : Nat) (t : IT) : IT :=
  let n := nextBoundary t
  let own := (idx == 0x2110 && sub == 3) || (idx == 0x2300 && sub == 1) || (decide (0x2030 ≤ idx) && decide (idx < 0x2038) && sub == 1) ||
    faultResponseParam idx sub
  if t + 20000 ≤ n || own then n else n + 1000000

/-- The effective IT in the reply of an accepted write (R406): class A its acceptance, class F its boundary, else 0. -/
def Desc.effective (d : Desc) (idx : Nat) (t : IT) : IT :=
  if d.cls = 1 then t else if d.cls = 2 then effectBoundary idx d.sub t else 0

/-! ### Checks (R371 to R379) -/

/-- The image values with one value proposed (R376). -/
def State.proposed (s : State) (k : Nat) (v : Bytes) : Getter :=
  fun i sub => if pkey i sub = k then v else s.imageValue i sub

/-- Whether every rule that names the written parameter counts (R376). -/
def State.strict (s : State) : Bool := s.power.dev == .run || s.power.dev == .bare || s.power.dev == .safe

/-- Whether a write is served in the present device state: from UNCONFIGURED to SHUTDOWN, and in the boot ROM what loads an
image (R478, R494). -/
def State.writesServed (s : State) (idx sub : Nat) : Bool :=
  s.power.dev != .boot || (s.bootRom && (idx == 0x4310 || (idx == 0x1201 && sub == 2)))

/-- Whether a compare list is written to an input in neither SPEED nor QUADRATURE mode (R69). -/
def State.listMisplaced (s : State) (idx sub : Nat) : Bool :=
  decide (0x2030 ≤ idx) && decide (idx < 0x2038) && sub == 1 && !([1, 3].contains (leNat (s.imageValue (idx - 0x20) 1)))

/-- The checks of a described parameter's write after its access and level: abort code and offset, 0 where none fails. -/
def State.valueCheck (s : State) (d : Desc) (idx sub : Nat) (v : Bytes) : Nat × Nat :=
  match valueFail d idx sub v with
  | some e => e
  | none =>
    let k := pkey idx sub
    if d.cls == 3 && blockRunning idx s.power.dev then (0xE, 0)
    else if s.listMisplaced idx sub then (0xC, 0)
    else if decide (0x3210 ≤ idx) && decide (idx < 0x3250) && s.coefHeld then (0x11, 0)
    else if d.acc = 2 then (0, 0)
    else
      let c := writeFail (s.proposed k v) k s.strict
      if c ≠ 0 then (c, 0)
      else if d.acc == 3 && (alookup k s.dict.staged).isNone && decide (512 ≤ s.dict.staged.length) then (0xD, 0)
      else (0, 0)

/-- Why a write by a session at level `lvl` is refused before it has any effect: abort code and block offset (R378). -/
def State.writeCheck (s : State) (lvl idx sub : Nat) (v : Bytes) : Nat × Nat :=
  if s.dict.storeBad then (0x14, 0)
  else if !indexInUse idx then (1, 0)
  else if sub = 0 then (3, 0)
  else match findDesc idx sub with
    | none => (2, 0)
    | some d =>
      if d.acc = 0 then (3, 0)
      else if lvl = 0 ∨ (lvl < 2 ∧ protectedParam idx sub) then (0xB, 0)
      else if !s.writesServed idx sub then (0xA, 0)
      else s.valueCheck d idx sub v

/-! ### Effects -/

/-- A class F value of a parameter whose own chapter names its point: banks, where a pull-in latches what it runs on (R243),
and spinners through their shadow set (R300). -/
def ownPoint (idx : Nat) : Bool :=
  (decide (0x3000 ≤ idx) && decide (idx < 0x3090)) || idx == 0x309F || (decide (0x3400 ≤ idx) && decide (idx < 0x3410))

/-- The value a class F write leaves in use, and until when (R373, R375): a second write before the boundary moves it. -/
def State.keepOld (s : State) (idx sub : Nat) : State :=
  if ownPoint idx then s
  else s.modDict (fun d => { d with old := aput (pkey idx sub) (d.inUse idx sub, effectBoundary idx sub s.it) d.old })

/-- The value stored (R372): staged for RWS, else in the store. -/
def State.storeValue (s : State) (d : Desc) (idx sub : Nat) (v : Bytes) : State :=
  let k := pkey idx sub
  if d.acc = 3 then s.modDict (fun x => { x with staged := aput k v x.staged })
  else
    let s := if d.cls = 2 || faultResponseParam idx sub then s.keepOld idx sub else s
    s.modDict (fun x => { x with store := aput k v x.store })

/-- gPTP enabled or disabled (P 0x1220.05). -/
def State.gptpEnable (s : State) : State :=
  ({ s with nets := { s.nets with eth := { s.nets.eth with
      gptp := b2n (s.pB 0x1220 5), syncRx := none } } } : State).noteGoverning

/-- The ISO 11783 client disabled (P 0x1230.01): it holds no address and no connection. -/
def State.isoDisable (s : State) : State :=
  { s with nets := { s.nets with canA := { s.nets.canA with
      claimed := 0xFE, trying := 0xFE, tried := 0, noAddr := false, retryAt := none, tcSeen := none, tcOn := false, pool := 0, conns := [], out := none } } }

/-- What must happen under the value still in use: a new slew limit acts from its write on (R42, R43). -/
def State.beforeWrite (s : State) (idx sub : Nat) : State := if pkey idx sub = pkey 0x1101 6 then s.foldSlew else s

/-- What an accepted write of a stored parameter does beside the store: `was` is the value in use before it. -/
def State.writeEffect (s : State) (idx sub : Nat) (was v : Bytes) : State :=
  let k := pkey idx sub
  if k = pkey 0x4002 1 then s.modSkein (fun x => { x with cursorA := leNat v })
  else if k = pkey 0x4002 2 then s.modSkein (fun x => { x with cursorB := leNat v })
  else if k = pkey 0x2312 2 then s.modDis (fun x => { x with cursor := leNat v })
  else if k = pkey 0x4403 1 then s.modDict (fun x => { x with descCur := leNat v })
  else if k = pkey 0x4201 6 then s.modCard (fun x => { x with resCur := leNat v })
  else if k = pkey 0x2300 4 then s.poolNote
  else if k = pkey 0x240A 2 then s.modRate (fun x => { x with thruAt := some s.it })
  else if k = pkey 0x1220 5 then (if s.dict.ever then s.gptpEnable else s)
  else if k = pkey 0x1230 1 then (if leNat v = 0 then s.isoDisable else s)
  else if 0x2010 ≤ idx ∧ idx < 0x2018 ∧ sub = 1 then (if v = was then s else s.modeSet (idx - 0x2010))
  else if (idx = 0x2040 ∨ idx = 0x2041) ∧ sub = 1 then (if v = was then s else s.hallSet (idx - 0x2040))
  else if 0x3100 ≤ idx ∧ idx < 0x3108 ∧ sub = 0xF then s.modeWritten (idx - 0x3100) (v != was)
  else if 0x3100 ≤ idx ∧ idx < 0x3108 ∧ sub = 0xE then s.limitsWritten (idx - 0x3100)
  else if 0x3210 ≤ idx ∧ idx < 0x3250 then s.coefWrite ((idx - 0x3210) / 8) ((idx - 0x3210) % 8) (tableCoefs v)
  else if 0x3400 ≤ idx ∧ idx < 0x3410 ∧ 3 ≤ sub ∧ (sub ≤ 6 ∨ (sub = 0xA ∧ 7 ≤ s.pN idx 1)) then s.spinParam (idx - 0x3400) sub
  else if 0x3400 ≤ idx ∧ idx < 0x3410 ∧ sub = 7 then (if v = was then s else s.spinLead (idx - 0x3400))
  else if 0x3400 ≤ idx ∧ idx < 0x3410 ∧ sub = 1 then (if v = was then s else s.spinDest (idx - 0x3400))
  else if 0x3500 ≤ idx ∧ idx < 0x3504 ∧ (sub = 1 ∨ sub = 2 ∨ sub = 0xE) then s.bridgeWritten (idx - 0x3500)
  else if 0x3508 ≤ idx ∧ idx < 0x350A ∧ sub ≤ 3 then s.commutate (idx - 0x3508)
  else if idx = 0x2070 then s.conveyorClose
  else if idx = 0x1101 ∨ ((idx = 0x2050 ∨ idx = 0x2051) ∧ sub = 4) then s.noteGoverning
  else if 0x3600 ≤ idx ∧ idx < 0x3610 then (if sub = 3 then s.loadsFollow else s.ldFollow (idx - 0x3600)).spinsFollow
  else s

/-- What a write came to: the state, the abort code (0 accepted), the block offset, the effective IT. -/
structure Written where
  s    : State
  code : Nat
  off  : Nat
  eff  : IT

/-- A refusal noted in P 0x4401.0D (R378). -/
def State.noteRefusal (s : State) (idx sub code off : Nat) : State :=
  s.modDict (fun d => { d with lastRef := le 8 s.it ++ le 2 idx ++ le 1 sub ++ le 1 code ++ le 4 off })

/-- A refused write, counted. -/
def State.refuseWrite (s : State) (idx sub code off : Nat) : Written :=
  ⟨(s.noteRefusal idx sub code off).modDict (fun d => { d with refused := sat32 (d.refused + 1) }), code, off, 0⟩

/-- An accepted write, counted; one that needed a raised level keeps it (R421). -/
def State.acceptWrite (s : State) (raised : Bool) (eff : IT) : Written :=
  let s := s.modDict (fun d => { d with accepted := sat32 (d.accepted + 1) })
  ⟨if raised then { s with nets := { s.nets with raisedAt := s.it } } else s, 0, 0, eff⟩

/-- Whether an accepted write needed a level above CONTROL. -/
def needsRaised (idx sub : Nat) (v : Bytes) (life : Nat) : Bool :=
  protectedParam idx sub || idx == 0x4310 || (idx == 0x4202 && sub == 2) || (idx == 0x4200 && sub == 1 && life == 3) ||
  (idx == 0x4400 && sub == 2 && leNat v == 5)

/-- One WRITE by session `who` at level `lvl` at the present time (R371 to R379), but for the configuration image. -/
def State.performWrite (s : State) (who : SessionId) (lvl idx sub : Nat) (v : Bytes) : Written :=
  let c := s.writeCheck lvl idx sub v
  if c.1 ≠ 0 then s.refuseWrite idx sub c.1 c.2
  else match findDesc idx sub with
    | none => s.refuseWrite idx sub 2 0
    | some d =>
      let raised := needsRaised idx sub v s.card.life
      if d.acc = 2 then
        let r := s.writeCommand who lvl idx sub v
        if r.2 = 0 then r.1.acceptWrite raised s.it else r.1.refuseWrite idx sub r.2 0
      else
        let was := s.imageValue idx sub
        ((((s.beforeWrite idx sub).storeValue d idx sub v).writeEffect idx sub was v).acceptWrite raised (d.effective idx s.it))

/-! ### COMMIT (R380 to R382, R390) -/

/-- The outcome of a COMMIT's validation: result, abort code, failing key. -/
structure CommitResult where
  res  : Nat
  code : Nat
  key  : Nat
  deriving DecidableEq, Repr

/-- Steps 1 to 3 of R381 at the present time for a host digest. -/
def State.validate (s : State) (digest : Bytes) (checkOnly : Bool) : CommitResult :=
  match commitFail s.imageValue with
  | some (k, c) => ⟨2, c, k⟩
  | none => if s.dict.imageDigest ≠ digest then ⟨1, 0xF, 0⟩ else if checkOnly then ⟨5, 0, 0⟩ else ⟨0, 0, 0⟩

/-- Whether a COMMIT is served (R380, R487). -/
def State.commitServed (s : State) : Bool :=
  s.card.life != 4 && (match s.power.dev with
    | .unconfigured | .ready | .run | .bare | .safe | .service => true
    | _ => false)

/-- What a COMMIT comes to at its receipt: a refusal, a check, or acceptance (result 0). A payload that breaks the
layout of R380 is INVALID. -/
def State.commitJudge (s : State) (lvl : Nat) (p : Bytes) : CommitResult :=
  if lvl = 0 then ⟨2, 0xB, 0⟩
  else if s.dict.commit.isSome then ⟨3, 0x11, 0⟩
  else if !s.commitServed then ⟨4, 0xA, 0⟩
  else if p.length ≠ 36 then ⟨2, 5, 0⟩
  else if 1 < natAt p 32 1 ∨ natAt p 33 3 ≠ 0 then ⟨2, 6, 0⟩
  else s.validate (p.take 32) (natAt p 32 1 == 1)

/-- The last COMMIT's result noted (P 0x4401.07, .08); a refusal leaves everything staged. -/
def State.noteCommit (s : State) (r : CommitResult) : State :=
  let s := s.modDict (fun d => { d with
    lastRes := r.res,
    lastFail := if r.code = 0 then d.lastFail else le 2 (r.key / 256) ++ le 1 (r.key % 256) ++ le 1 r.code })
  if r.code = 0 then s else s.noteRefusal (r.key / 256) (r.key % 256) r.code 0

/-- The reply of R380. -/
def commitReply (r : CommitResult) (boundary : IT) (digest : Bytes) : Bytes :=
  le 1 r.res ++ le 1 r.code ++ le 2 0 ++ le 2 (if r.res = 2 then r.key / 256 else 0) ++
  le 1 (if r.res = 2 then r.key % 256 else 0) ++ [0] ++ le 8 boundary ++ padTo 32 digest

/-- A COMMIT accepted (R381 step 4): it waits for its boundary. `who` is the session with the sequence number and CRC of
its request, none for a configuration image. -/
def State.acceptCommit (s : State) (who : Option (SessionId × Nat × Nat)) : State :=
  s.modDict (fun d => { d with commit := some ⟨who, d.imageDigest, s.nextEffect⟩ })

/-! ### The commit boundary -/

/-- A new claim on CAN-A, of the preferred address, at the boundary that changes the NAME or that address (R422). -/
def State.newClaim (s : State) : State :=
  if s.pB 0x1230 1 then
    ({ s with nets := { s.nets with canA := { s.nets.canA with
        claimed := 0xFE, trying := s.pN 0x1230 2, tried := 0, noAddr := false, retryAt := none } } } : State).claimMessage
  else s

/-- A section's element from the present nozzles assigned to it (R101): the mean footprint centre in x, the centre and the
width of the footprints' span in y. -/
def State.sectionDesc (s : State) (c : Nat) : SectionDesc :=
  let f := (s.nozzles.filter (fun z => z.present && z.section_ == c)).map NozzleEntry.foot
  match f with
  | [] => ⟨0, 0, Config.sectionHeight c, 0⟩
  | a :: l =>
    let lo := l.foldl (fun m x => min m x.y0) a.y0
    let hi := l.foldl (fun m x => max m x.y1) a.y1
    ⟨rdiv ((f.map (fun x => x.x0 + x.x1)).foldl (· + ·) 0) (4 * f.length), rdiv (lo + hi) 4, Config.sectionHeight c,
      ((hi - lo) / 2).toNat⟩

/-- The device description built from the configuration in use (R425): a device element, one function element for the boom and one
element per section below it; the section control state, the actual and the setpoint condensed work states on the boom. -/
def State.poolDesc (s : State) : PoolDesc :=
  let n := s.pN 0x2110 2
  { label := s.nets.canA.label,
    elements := [(0, 0), (1, 0)] ++ (List.range n).map (fun c => (2 + c, 1)),
    sections := (List.range n).map s.sectionDesc,
    boomDdis := (List.range 17).map (160 + ·) ++ (List.range 16).map (290 + ·),
    onMs := s.pN 0x2200 16, offMs := s.pN 0x2200 17 }

/-- A connection management message to a partner: control byte, three bytes that go with it, the message's PGN. Messages of more than
1,785 bytes go by the extended protocol. Numbers of ISO 11783-3 (Assumption 119). -/
def State.tpMessage (s : State) (ext : Bool) (partner control : Nat) (b : Bytes) (pgn : Nat) : State :=
  s.send (.canA 7 (if ext then 51200 else 60416) s.nets.canA.claimed partner (le 1 control ++ padTo 4 b ++ le 3 pgn))

/-- The object pool uploaded (R425), over the one connection that the module opens to the task controller (R423): the
description kept from the last commit boundary. Its size and the controller's address are not stated: free values (Assumptions 4, 72). -/
def State.uploadPool (s : State) : State :=
  let s : State := { s with nets := { s.nets with canA := { s.nets.canA with pool := 1, out := some (s.it, s.nets.canA.desc) } } }
  (s.tpMessage true (s.drawn % 256) 20 (le 4 (s.drawn / 256)) 51968).draw

/-- A process data message to the task controller (PGN 51968). The manual gives no address of it: a free value
(Assumption 4). -/
def State.toTc (s : State) (b : Bytes) : State := (s.send (.canA 3 51968 s.nets.canA.claimed (s.drawn % 256) b)).draw

/-- The device description built at a commit boundary, and the object pool renewed where the structure label changes (R425): an active
pool is deactivated, and the new one goes up when the task controller has answered; an upload under way begins anew. -/
def State.newLabel (s : State) (digest : Bytes) : State :=
  let a := s.nets.canA
  let label := digest.take 7
  let s : State := { s with nets := { s.nets with canA := { a with label := label } } }
  let s : State := { s with nets := { s.nets with canA := { s.nets.canA with desc := s.poolDesc } } }
  if a.label = label then s
  else
    let s : State := { s with nets := { s.nets with canA := { s.nets.canA with pool := if a.pool = 2 then 3 else a.pool } } }
    if a.pool = 2 then s.toTc [0x81, 0, 0xFF, 0xFF, 0xFF, 0xFF, 0xFF, 0xFF]
    else if a.tcOn && a.pool != 3 then s.uploadPool else s

/-- The staged values moved into use at the boundary (R379, R381). -/
def State.useStaged (s : State) (w : CommitWait) : State :=
  s.modDict (fun d => { d with
    store := d.staged.foldl (fun st p => aput p.1 p.2 st) d.store, staged := [], commit := none, ever := true,
    digest := w.digest, lastRes := 0, lastAt := w.boundary, commits := sat32 (d.commits + 1) })

/-- The effects of R420, R422, R425 and of the blocks at a commit boundary. -/
def State.afterCommit (s : State) (before : Dict) (w : CommitWait) : State :=
  let changed := fun (idx sub : Nat) => before.inUse idx sub != s.pBytes idx sub
  let s := if changed 0x1220 1 then s.gratuitousArp else s
  let s := if (List.range 6).any (fun k => changed 0x1230 (2 + k)) then s.newClaim else s
  let s := if changed 0x1220 5 then s.gptpEnable else s
  let s := (s.newLabel w.digest).loadsOff.conveyorClose
  s.spinsCommit

/-- The image result of R388 (P 0x4402.02). -/
def imageOutcome (res code applied key commitRes : Nat) : Bytes :=
  le 1 res ++ le 1 code ++ le 2 0 ++ le 4 applied ++ le 2 (key / 256) ++ le 1 (key % 256) ++ le 1 commitRes ++ le 4 0

/-- COMMIT's effect at its boundary, without the reply. An image that asked for it is DONE. A THERMAL-LATCH set since the COMMIT was
accepted holds the module in SAFE as soon as it leaves UNCONFIGURED (R364). -/
def State.commitEffect (s : State) (w : CommitWait) : State :=
  let s := s.at w.boundary
  let before := s.dict
  let s := ((s.useStaged w).noteLoad).afterCommit before w
  let s := if w.who.isNone then
      s.modDict (fun d => { d with imgRes := imageOutcome 0 0 (natAt d.imgRes 4 4) 0 0 })
    else s
  if s.power.dev = .unconfigured then
    let s := s.enterReady 1
    if s.sup.thermal then s.enterSafe 6 else s
  else s

/-! ### The configuration image (R387, R388) -/

/-- The entries of an image from offset `o`: (index, sub-index, value); none where the structure is wrong. -/
def imageEntries (b : Bytes) : Nat → Nat → Option (List (Nat × Nat × Bytes))
  | 0, o => if o = b.length then some [] else none
  | n + 1, o =>
    let len := natAt b (o + 4) 4
    let next := o + 8 + (len + 3) / 4 * 4
    if b.length < o + 8 ∨ b.length < next ∨ natAt b (o + 3) 1 ≠ 0 ∨ natAt b (o + 8 + len) (next - (o + 8 + len)) ≠ 0 then none
    else (imageEntries b n next).map (fun l => (natAt b o 2, natAt b (o + 2) 1, bytesAt b (o + 8) len) :: l)

/-- Whether an image's header stands (R387, R388). -/
def imageHeaderOk (b : Bytes) : Bool :=
  natAt b 0 4 == 1 && decide (1 ≤ natAt b 4 4) && decide (natAt b 4 4 ≤ 4096) && natAt b 8 4 == b.length &&
  decide (natAt b 12 1 ≤ 3) && natAt b 13 3 == 0 && natAt b 48 12 == 0 &&
  natAt b 60 4 == crc32 (b.take 60 ++ b.drop 64)

/-- The entries of an image that passes the checks of R388. -/
def imageParts (b : Bytes) : Option (List (Nat × Nat × Bytes)) :=
  if imageHeaderOk b then imageEntries b (natAt b 4 4) 64 else none

/-- The entries applied in order, each as a WRITE, up to the first one refused: how many were applied, and the key and code
of that one. An entry that names the image itself meets BUSY. -/
def State.applyEntries (s : State) (who : SessionId) (lvl : Nat) :
    List (Nat × Nat × Bytes) → Nat → State × Nat × Option (Nat × Nat)
  | [], n => (s, n, none)
  | (idx, sub, v) :: rest, n =>
    let w := if idx = 0x4402 ∧ sub = 1 then s.refuseWrite idx sub 0x11 0 else s.performWrite who lvl idx sub v
    if w.code = 0 then w.s.applyEntries who lvl rest (n + 1) else (w.s, n, some (pkey idx sub, w.code))

/-- The COMMIT that COMMIT-AFTER asks for. -/
def State.imageCommit (s : State) (lvl n : Nat) (digest : Bytes) : State :=
  let r := s.commitJudge lvl (padTo 36 digest)
  if r.res = 0 then
    (s.acceptCommit none).modDict (fun d => { d with imgRes := imageOutcome 1 0 n 0 0 })
  else (s.noteCommit r).modDict (fun d => { d with imgRes := imageOutcome 4 r.code n r.key r.res })

/-- The effect of an image whose entries are `l` (R388). -/
def State.imageApply (s : State) (who : SessionId) (lvl : Nat) (b : Bytes) (l : List (Nat × Nat × Bytes)) : State :=
  let s := if bit (natAt b 12 1) 1 then s.discardStaged else s
  let (s, n, bad) := s.applyEntries who lvl l 0
  match bad with
  | some (k, c) => s.modDict (fun d => { d with imgRes := imageOutcome 3 c n k 0 })
  | none =>
    if bit (natAt b 12 1) 0 then s.imageCommit lvl n (bytesAt b 16 32)
    else s.modDict (fun d => { d with imgRes := imageOutcome 0 0 n 0 0 })

/-- An image written to P 0x4402.01 (R388): refused as a whole with 0x12 where its format is wrong, else accepted, whatever its
entries come to. -/
def State.configImage (s : State) (who : SessionId) (lvl : Nat) (b : Bytes) : Written :=
  match imageParts b with
  | none => (s.modDict (fun d => { d with imgRes := imageOutcome 2 0x12 0 0 0 })).refuseWrite 0x4402 1 0x12 0
  | some l => (s.imageApply who lvl b l).acceptWrite false s.it

/-- One WRITE or finished BLOCK-WRITE, the configuration image among them. While a COMMIT is processed every write meets
BUSY (R380). -/
def State.writeAny (s : State) (who : SessionId) (lvl idx sub : Nat) (v : Bytes) : Written :=
  if s.dict.commit.isSome then s.refuseWrite idx sub 0x11 0
  else if idx = 0x4402 ∧ sub = 1 then
    let c := s.writeCheck lvl idx sub v
    if c.1 ≠ 0 then s.refuseWrite idx sub c.1 c.2
    else s.configImage who lvl v
  else s.performWrite who lvl idx sub v

/-! ### The digest re-check (R386) -/

/-- DIGEST_RECHECK (R386): the digest recomputed from the store as the hash unit finds it, compared with the expected one. -/
def execDigestRecheck (t : IT) (found : Bytes) (s : State) : Host.Outcome State Fault Refusal :=
  .next (s.whenAwake (fun s =>
    let s := s.at t
    if found = s.dict.imageDigest then s
    else
      let s := s.modDict (fun d => { d with recheck := sat32 (d.recheck + 1), storeBad := true })
      s.report 0xE00D 0 []))

end Sys2Proof.Machine
end

