-- ==== Sys2Proof/Machine/Pagrim.lean ====
section
/-! DEFINITION. Pagrim (R398 to R412, R421): frames, sessions and control, requests with their repeats and replies, block
transfers, heartbeats, the TIME service. -/

namespace Sys2Proof.Machine

/-! ### Frames and sessions -/

/-- One of the frame counters P 0x1200.0A raised: 0 received, 1 CRC failures, 2 other discards, 3 unknown session, 4 repeats
answered, 5 sequence conflicts, 6 outstanding overflow, 7 heartbeat losses. -/
def State.frameCount (s : State) (i : Nat) : State :=
  { s with nets := { s.nets with frames := vmod s.nets.frames i (fun n => sat32 (n + 1)) } }

/-- A frame received on a Pagrim network. -/
def State.heard (s : State) (n : Net) : State :=
  let s := s.frameCount 0
  { s with nets := if n = .eth then s.nets.ethCount 0 else s.nets.canCount (Net.canNo n) 0 }

/-- A session changed. -/
def State.modSession (s : State) (i : SessionId) (f : Session → Session) : State :=
  { s with nets := { s.nets with sessions := s.nets.sessions.map (fun x => if x.id == i then f x else x) } }

/-- The largest payload of a network (R398). -/
def maxPayload (n : Net) : Nat := if n = .eth then 1456 else 48

/-- A reply sent to a session (R398, R417); an empty one stands for none. -/
def State.answer (s : State) (r : Req) (service idx sub : Nat) (reply : Bytes) : State :=
  if reply.isEmpty then s
  else s.send (s.pagrimSent r.sid.net r.sid.addr r.sid.port r.sid.byte r.seq (service + 128) idx sub 0 reply)

/-- An executed request remembered with its reply, 32 of them (R402). -/
def State.remember (s : State) (r : Req) (reply : Bytes) : State :=
  s.modSession r.sid (fun x => { x with done := (⟨r.seq, r.crc, reply⟩ :: x.done).take 32 })

/-- The requests of a session without reply (R403): a COMMIT on its way to its boundary and the segments of a BLOCK-WRITE not
acknowledged yet; every other request has its reply in the same step. -/
def State.outstanding (s : State) (i : SessionId) : Nat :=
  (((s.session i).bind (·.bw)).map (·.open_)).getD 0 +
  match s.dict.commit with
  | some w => (match w.who with
    | some p => b2n (p.1 == i)
    | none => 0)
  | none => 0

/-- A new request of a session executed at the present time: `f` gives the state after it and the reply. -/
def State.execute (s : State) (r : Req) (x : Session) (service idx sub : Nat) (f : State → Session → State × Bytes) : State :=
  let p := f s x
  (p.1.remember r p.2).answer r service idx sub p.2

/-- A request received (R29, R401 to R403): nothing is received on a network that is down or while the cores are stopped;
a frame of session 0, a request of no session, a repeat and a conflict are counted. -/
def State.serve (s : State) (r : Req) (service idx sub : Nat) (f : State → Session → State × Bytes) : State :=
  if !(s.netUp r.sid.net) || s.coresAbsent then s
  else
    let s := (s.at r.rx).heard r.sid.net
    if r.sid.byte = 0 then s.frameCount 2
    else match s.session r.sid with
    | none => s.frameCount 3
    | some x =>
      match x.done.find? (fun d => d.seq == r.seq) with
      | some d => if d.crc = r.crc then (s.frameCount 4).answer r service idx sub d.reply else s.frameCount 5
      | none => if 16 ≤ s.outstanding r.sid then s.frameCount 6 else s.execute r x service idx sub f

/-- A frame discarded at its receipt (R398, R400). -/
def State.discardFrame (s : State) (n : Net) (t : IT) (counter : Nat) : State :=
  if !(s.netUp n) || s.coresAbsent then s else ((s.at t).heard n).frameCount counter

/-! ### READ and BLOCK-READ (R377, R406, R408) -/

/-- What a read with side effects does before its value is taken: a challenge is issued (R421). -/
def State.readBefore (s : State) (idx sub : Nat) : State :=
  if pkey idx sub = pkey 0x1201 1 then s.issueChallenge else s

/-- What it does after its value `v` is taken: a cursor advances (R181, R395, R446, R511). -/
def State.readAfter (s : State) (idx sub : Nat) (v : Bytes) : State :=
  let k := pkey idx sub
  if k = pkey 0x2312 3 then s.exportAdvance
  else if k = pkey 0x4002 3 then
    let c := (s.exportRead s.skein.cursorA).2
    ((s.skeinCount 5 (State.exportDamaged v)).modSkein (fun x => { x with cursorA := c })).draw
  else if k = pkey 0x4002 4 then
    let c := (s.exportRead s.skein.cursorB).2
    ((s.skeinCount 5 (State.exportDamaged v)).modSkein (fun x => { x with cursorB := c })).draw
  else if k = pkey 0x4201 7 then s.modCard (fun c => { c with resCur := min (cardSlices - 1) (c.resCur + v.length / 8) })
  else if k = pkey 0x4403 2 then s.modDict (fun d => { d with descCur := d.descCur + v.length / 40 })
  else s

/-- Whether a parameter belongs to image loading: its commands and states, challenge and level (R493, R494). -/
def bootRead (idx : Nat) : Bool := idx == 0x1201 || decide (0x4300 ≤ idx ∧ idx < 0x4304) || idx == 0x4310

/-- Whether a read takes its value from MRAM in block at priority 6 of R27: hank headers, tiles, exports, slot headers. -/
def mramRead (idx sub : Nat) : Bool :=
  idx == 0x2303 || [pkey 0x2311 2, pkey 0x2312 3, pkey 0x4002 3, pkey 0x4002 4].contains (pkey idx sub) ||
    (decide (0x4300 ≤ idx ∧ idx < 0x4304) && (sub == 4 || sub == 5))

/-- A value read by a session at level `lvl`, at most `room` bytes of it: the state after the read, and the abort code or
the read status with the value. While challenges are locked out their read is refused (R421); while the MRAM interface suspends
block reads of MRAM (R362); in the boot ROM, what does not belong to image loading (R494). -/
def State.takeValue (s : State) (lvl idx sub room : Nat) : State × (Nat ⊕ (Nat × Bytes)) :=
  let key := pkey idx sub
  if key = pkey 0x1201 1 ∧ s.nets.lockUntil.isSome then (s.noteRefusal idx sub 0xA 0, .inl 0xA)
  else if s.inBootRom ∧ !(bootRead idx) then (s.noteRefusal idx sub 0xA 0, .inl 0xA)
  else if s.mramHeld ∧ mramRead idx sub then (s.noteRefusal idx sub 0x11 0, .inl 0x11)
  else
    let a := s.readBefore idx sub
    match a.readParam lvl idx sub with
    | .inl c => (s.noteRefusal idx sub c 0, .inl c)
    | .inr (st, v) =>
      if room < v.length then (s.noteRefusal idx sub 5 0, .inl 5)
      else ((if st = 1 then a else a.readAfter idx sub v), .inr (st, v))

/-- READ (R406). -/
def State.read (s : State) (r : Req) (idx sub : Nat) : State :=
  s.serve r 1 idx sub (fun s x =>
    match s.takeValue x.level idx sub (maxPayload r.sid.net - 4) with
    | (s, .inl c) => (s, le 1 c ++ le 3 0)
    | (s, .inr (st, v)) => (s, le 1 0 ++ le 1 st ++ le 2 0 ++ v))

/-- The data bytes of a block segment that is read (R408). -/
def readRoom (n : Net) : Nat := if n = .eth then 1444 else 36

/-- The reply of R408. -/
def blockReply (code status off total : Nat) (data : Bytes) : Bytes :=
  le 1 code ++ le 1 status ++ le 2 0 ++ le 4 off ++ le 4 total ++ data

/-- A segment of a snapshot. -/
def BlockSnap.segment (b : BlockSnap) (n : Net) (off : Nat) : Bytes :=
  blockReply 0 b.status off b.data.length ((b.data.drop off).take (readRoom n))

/-- BLOCK-READ (R408): offset 0 takes a snapshot, other offsets are served from it. -/
def State.blockRead (s : State) (r : Req) (idx sub off : Nat) : State :=
  s.serve r 3 idx sub (fun s x =>
    if off = 0 then
      let s := s.modSession r.sid (fun x => { x with bs := none })
      match s.takeValue x.level idx sub 65536 with
      | (s, .inl c) => (s, blockReply c 0 0 0 [])
      | (s, .inr (st, v)) =>
        let b : BlockSnap := ⟨idx, sub, st, v, s.it⟩
        (s.modSession r.sid (fun x => { x with bs := some b }), b.segment r.sid.net 0)
    else match x.bs with
      | some b =>
        if b.idx = idx ∧ b.sub = sub ∧ s.it < b.last + 1000000000 then
          (s.modSession r.sid (fun x => { x with bs := some { b with last := s.it } }), b.segment r.sid.net off)
        else (s.noteRefusal idx sub 0xA 0, blockReply 0xA 0 off 0 [])
      | none => (s.noteRefusal idx sub 0xA 0, blockReply 0xA 0 off 0 []))

/-! ### WRITE and BLOCK-WRITE (R406, R407) -/

/-- The reply of a WRITE accepted at `t`. -/
def writeReply (code : Nat) (t eff : IT) : Bytes :=
  le 1 code ++ le 3 0 ++ le 8 (if code = 0 then t else 0) ++ le 8 (if code = 0 then eff else 0)

/-- The acknowledgement of the last segment of a BLOCK-WRITE. -/
def lastAck (code next : Nat) (t : IT) : Bytes := le 1 code ++ le 3 0 ++ le 4 next ++ le 8 (if code = 0 then t else 0)

/-- The acknowledgement of another segment. -/
def segmentAck (code next : Nat) : Bytes := le 1 code ++ le 3 0 ++ le 4 next

/-- A whole value written by a session: with a WRITE where it fits one frame of the network, else with the last segment of
a BLOCK-WRITE. -/
def State.hostWrite (s : State) (r : Req) (idx sub : Nat) (v : Bytes) : State :=
  let fits := decide (v.length ≤ maxPayload r.sid.net)
  s.serve r (if fits then 2 else 4) idx sub (fun s x =>
    let w := s.writeAny r.sid x.level idx sub v
    (w.s, if fits then writeReply w.code s.it w.eff else lastAck (if idx = 0x4402 then 0 else w.code) v.length s.it))

/-- A WRITE frame; one longer than its network allows is discarded (R398, R400). -/
def State.writeFrame (s : State) (r : Req) (idx sub : Nat) (v : Bytes) : State :=
  if maxPayload r.sid.net < v.length then s.discardFrame r.sid.net r.rx 2 else s.hostWrite r idx sub v

/-- The data bytes of a block segment that is written (R407). -/
def writeRoom (n : Net) : Nat := if n = .eth then 1448 else 40

/-- The largest block of an index and sub-index. -/
def blockSize (idx sub : Nat) : Nat :=
  match findDesc idx sub with
  | some d => d.size
  | none => 0

/-- Why a transfer to an index and sub-index is refused from its first segment on: they name nothing that can be written (R370,
R378), or less than the length announced. 0 where it is not. -/
def blockFail (idx sub total len : Nat) : Nat :=
  if !indexInUse idx then 1
  else if sub = 0 then 3
  else match findDesc idx sub with
    | none => 2
    | some d => if d.acc = 0 then 3 else if total < len ∨ blockSize idx sub < total then 5 else 0

/-- A segment refused: a refused write, and answered at once. -/
def State.segmentRefused (s : State) (idx sub code : Nat) : State × Bytes := ((s.refuseWrite idx sub code 0).s, segmentAck code 0)

/-- A segment that belongs to the transfer in progress: `b` with its data put in. Of the configuration image the last acknowledgement
reports the receipt alone (R388). -/
def State.segment (s : State) (r : Req) (x : Session) (b : BlockWrite) : State × Bytes :=
  let keep := fun (s : State) (o : Option BlockWrite) => s.modSession r.sid (fun x => { x with bw := o })
  let c := blockFail b.idx b.sub b.total b.data.length
  if c ≠ 0 then (keep s none).segmentRefused b.idx b.sub c
  else if b.data.length = b.total then
    let w := (keep s none).writeAny r.sid x.level b.idx b.sub b.data
    (w.s, lastAck (if b.idx = 0x4402 then 0 else w.code) b.total s.it)
  else if b.segs % 16 = 0 then (keep s (some { b with open_ := 0 }), segmentAck 0 b.data.length)
  else (keep s (some b), [])

/-- A BLOCK-WRITE segment (R407). A transfer 1,000 ms without a segment is over. A segment that is not the next expected one is acknowledged at once with the offset that
is, and discarded. One at offset 0 ends the transfer before, even where it is refused itself. -/
def State.blockWrite (s : State) (r : Req) (idx sub off total : Nat) (data : Bytes) : State :=
  if writeRoom r.sid.net < data.length then s.discardFrame r.sid.net r.rx 2
  else s.serve r 4 idx sub (fun s x =>
    let s := if off = 0 then s.modSession r.sid (fun x => { x with bw := none }) else s
    if x.level = 0 then s.segmentRefused idx sub 0xB
    else if s.dict.commit.isSome then s.segmentRefused idx sub 0x11
    else if off = 0 then s.segment r x ⟨idx, sub, total, data, 1, 1, s.it⟩
    else match x.bw with
      | some b =>
        if b.last + 1000000000 ≤ s.it then (s.modSession r.sid (fun x => { x with bw := none }), segmentAck 0 0)
        else if b.idx = idx ∧ b.sub = sub ∧ b.total = total ∧ b.data.length = off then
          s.segment r x { b with data := b.data ++ data, segs := b.segs + 1, open_ := b.open_ + 1, last := s.it }
        else (s.modSession r.sid (fun x => { x with bw := some { b with open_ := 0, last := s.it } }), segmentAck 0 b.data.length)
      | none => (s, segmentAck 0 0))

/-- BLOCK_WRITE_TIMEOUT (R407). -/
def execBlockWriteTimeout (sid : SessionId) (s : State) : Host.Outcome State Fault Refusal :=
  .next (match (s.session sid).bind (·.bw) with
    | none => s
    | some b => (s.at (b.last + 1000000000)).modSession sid (fun x => { x with bw := none }))

/-- BLOCK_READ_SNAPSHOT_EXPIRY (R408). -/
def execBlockReadSnapshotExpiry (sid : SessionId) (s : State) : Host.Outcome State Fault Refusal :=
  .next (match (s.session sid).bind (·.bs) with
    | none => s
    | some b => (s.at (b.last + 1000000000)).modSession sid (fun x => { x with bs := none }))

/-! ### COMMIT (R380, R381, R409) -/

/-- A COMMIT request: refused or checked with a reply at once, accepted with the reply at its boundary. -/
def State.commitRequest (s : State) (r : Req) (p : Bytes) : State :=
  s.serve r 5 0 0 (fun s x =>
    let c := s.commitJudge x.level p
    if c.res = 0 then (s.acceptCommit (some (r.sid, r.seq, r.crc)), [])
    else (s.noteCommit c, commitReply c 0 s.dict.imageDigest))

/-- The reply that follows the commit boundary (R409), at the new rate and from the new address (R420). -/
def State.commitAnswer (s : State) (w : CommitWait) : State :=
  match w.who with
  | none => s
  | some (sid, seq, crc) =>
    if (s.session sid).isNone then s
    else
      let reply := commitReply ⟨0, 0, 0⟩ w.boundary w.digest
      let s := s.modSession sid (fun x => { x with
        done := x.done.map (fun d => if d.seq == seq && d.crc == crc then { d with reply := reply } else d) })
      s.answer ⟨sid, seq, crc, s.it⟩ 5 0 0 reply

/-- The commit boundary: the effect and the reply. -/
def State.commitBoundary (s : State) : State :=
  match s.dict.commit with
  | none => s
  | some w => (s.commitEffect w).commitAnswer w

/-- COMMIT_BOUNDARY (R381). -/
def execCommitBoundary (s : State) : Host.Outcome State Fault Refusal := .next s.commitBoundary

/-! ### Heartbeats and control (R401, R405, R410, R411, R456) -/

/-- The end of control (R405): the session falls to OBSERVER, and the host is lost (R456). -/
def State.loseControl (s : State) : State :=
  match s.nets.ctrl with
  | none => s
  | some c =>
    let s := s.sessionLevel c 0
    let s : State := { s with nets := { s.nets with ctrl := none } }
    if !s.sup.hostGone then
      ((s.modSup (fun f => { f with hostGone := true })).frameCount 7).report 0xE00F (Net.code c.net) []
    else s

/-- The session of the most recent heartbeat among those on ETH (R417). -/
def newestEth (l : List Session) : Option SessionId :=
  (l.filter (fun x => x.id.net == .eth)).foldl (fun (a : Option Session) x =>
    match a with
    | some y => if y.beat < x.beat then some x else a
    | none => some x) none |>.map (·.id)

/-- The end of a session (R401). -/
def State.endSession (s : State) (i : SessionId) : State :=
  let s := if s.nets.ctrl = some i then s.loseControl else s
  let l := s.nets.sessions.filter (fun x => x.id != i)
  { s with nets := { s.nets with sessions := l, lastEth := if s.nets.lastEth = some i then newestEth l else s.nets.lastEth } }

/-- Whether a heartbeat may open a session: on an enabled network with fewer than 4 sessions, with fewer than 8 in all
(R401, P 0x1200.03). -/
def State.mayOpen (s : State) (n : Net) : Bool :=
  bit (s.pN 0x1200 3) (Net.bitNo n) && decide (s.nets.sessions.length < 8) &&
    decide ((s.nets.sessions.filter (fun x => x.id.net == n)).length < 4)

/-- The flags of a heartbeat of session `i` acted on (R405). -/
def State.control (s : State) (i : SessionId) (ctl rel : Bool) : State :=
  if s.nets.ctrl = some i then
    if !ctl || rel then s.loseControl else s.modSup (fun f => { f with hostGone := false })
  else if ctl && !rel && s.nets.ctrl.isNone then
    let s := s.sessionLevel i 1
    let s : State := { s with nets := { s.nets with ctrl := some i } }
    s.modSup (fun f => { f with hostGone := false })
  else s

/-- A host HEARTBEAT received at `t` (R401, R405, R410): the controllers take it while the cores are stopped too. One of session 0
breaks R398. -/
def State.hostBeat (s : State) (sid : SessionId) (payload : Bytes) (t : IT) : State :=
  if !(s.netUp sid.net) then s
  else
    let s := (s.at t).heard sid.net
    if payload.length ≠ 8 ∨ sid.byte = 0 then s.frameCount 2
    else
      let known := (s.session sid).isSome
      if !known && !(s.mayOpen sid.net) then s.frameCount 3
      else
        let s := if known then s.modSession sid (fun x => { x with beat := t })
          else { s with nets := { s.nets with sessions := s.nets.sessions ++ [⟨sid, 0, t, [], none, none⟩] } }
        let s : State := if sid.net = .eth then { s with nets := { s.nets with lastEth := some sid } } else s
        s.control sid (bit (natAt payload 0 1) 0) (bit (natAt payload 0 1) 1)

/-- HOST_HEARTBEAT. -/
def execHostHeartbeat (sid : SessionId) (payload : Bytes) (t : IT) (s : State) : Host.Outcome State Fault Refusal :=
  .next (s.hostBeat sid payload t)

/-- SESSION_TIMEOUT (R401). -/
def execSessionTimeout (sid : SessionId) (s : State) : Host.Outcome State Fault Refusal :=
  .next (match s.session sid with
    | none => s
    | some x => (s.at (x.beat + s.pN 0x1200 1 * 3000000)).endSession sid)

/-- The status message on CAN-A (R423). -/
def State.statusMessage (s : State) : Bytes :=
  let b := s.beatPayload
  bytesAt b 16 4 ++ bytesAt b 12 2 ++ bytesAt b 14 2

/-- Whether the module's HEARTBEAT is due at the present time on a network (0 to 2, 3 CAN-A): P 0x1200.02 after the last one there. -/
def State.beatDue (s : State) (i : Nat) : Bool :=
  match vget s.nets.beatAt i none with
  | some x => decide (x + s.pN 0x1200 2 * 1000000 ≤ s.it)
  | none => true

/-- DEVICE_HEARTBEAT (R411): on a Pagrim network with a session (the boot ROM needs none, R494), or on CAN-A while the module
holds an address, where it is due. The heartbeat count rises with each one sent. -/
def execDeviceHeartbeat (net : Option Net) (t : IT) (s : State) : Host.Outcome State Fault Refusal :=
  .next (s.whenAwake (fun s =>
    let s := s.at t
    let i := (net.map Net.bitNo).getD 3
    if !(s.beatDue i) then s
    else match net with
    | some n =>
      if !(s.netUp n) || !(s.netsWithSession.contains n || s.inBootRom) then s
      else s.sendBeat n
    | none =>
      if !(s.canUp 2) || s.nets.canA.claimed = 0xFE || !(s.pB 0x1230 0xB) then s
      else (s.send (.canA 3 65400 s.nets.canA.claimed 255 s.statusMessage)).beatSent 3))

/-! ### TIME and the raised level (R49, R421) -/

/-- A TIME request (R49); its payload is 16 bytes. The boot ROM does not serve it (R494). -/
def State.timeRequest (s : State) (r : Req) (p : Bytes) : State :=
  if p.length ≠ 16 || s.inBootRom then s.discardFrame r.sid.net r.rx 2
  else s.serve r 9 0 0 (fun s x => s.timeServe (decide (1 ≤ x.level)) r.rx p)

/-- RAISED_LEVEL_TIMEOUT (R421). -/
def execRaisedLevelTimeout (s : State) : Host.Outcome State Fault Refusal :=
  .next (match s.nets.ctrl.bind s.session with
    | none => s
    | some x => if x.level ≤ 1 then s else (s.at (s.nets.raisedAt + 600000000000)).sessionLevel x.id 1)

/-- CHALLENGE_LOCKOUT_END (R421): reads of the challenge are served again. -/
def execChallengeLockoutEnd (s : State) : Host.Outcome State Fault Refusal :=
  .next (match s.nets.lockUntil with
    | none => s
    | some t =>
      let s := s.at t
      { s with nets := { s.nets with lockUntil := none, badRow := 0 } })

/-! ### Received frames (R398, R400, R413, R417, R418) -/

/-- The payload length that a Pagrim frame's header gives. -/
def frameLength (b : Bytes) : Nat := natAt b 8 4

/-- The counter of P 0x1200.0A under which a received Pagrim frame is discarded, none where it stands: 1 its CRC-32C fails, 2 it
breaks another rule of R398 to R400: too long for its network or for the bytes received, version, session, service, REPLY, an index or
sub-index with a service that names none. -/
def frameFail (n : Net) (b : Bytes) : Option Nat :=
  let len := frameLength b
  if b.length < 16 ∨ maxPayload n < len ∨ b.length < len + 16 then some 2
  else if crc32c (b.take (12 + len)) ≠ natAt b (12 + len) 4 then some 1
  else if natAt b 0 1 ≠ 1 ∨ natAt b 1 1 = 0 ∨ !([1, 2, 3, 4, 5, 8, 9].contains (natAt b 4 1)) ∨
      (5 ≤ natAt b 4 1 ∧ natAt b 5 3 ≠ 0) then some 2
  else none

/-- A Pagrim frame received: discarded and counted, or the request or HEARTBEAT that it carries. -/
def State.receive (s : State) (n : Net) (addr port : Nat) (b : Bytes) : State :=
  match frameFail n b with
  | some c => s.discardFrame n s.it c
  | none =>
    let len := frameLength b
    let r : Req := ⟨⟨n, natAt b 1 1, addr, port⟩, natAt b 2 2, natAt b (12 + len) 4, s.it⟩
    let idx := natAt b 5 2
    let sub := natAt b 7 1
    let p := bytesAt b 12 len
    match natAt b 4 1 with
    | 1 => s.read r idx sub
    | 2 => s.writeFrame r idx sub p
    | 3 => s.blockRead r idx sub (natAt p 0 4)
    | 4 => s.blockWrite r idx sub (natAt p 0 4) (natAt p 4 4) (p.drop 8)
    | 5 => s.commitRequest r p
    | 8 => s.hostBeat r.sid p s.it
    | _ => s.timeRequest r p

/-- What an Ethernet frame is to the module (R418): a Pagrim datagram with its sender, a frame of another protocol it supports (a
command of its own), or one to be discarded. -/
inductive EthKind where
  | pagrim (addr port : Nat) (data : Bytes)
  | other
  | bad
  deriving DecidableEq, Repr

/-- An IPv4 packet to the module or to the limited broadcast, a header without options, no fragment; in it UDP to port 49712 with a
right checksum or none, or an ICMP echo request. -/
def ipKind (own : Nat) (b : Bytes) : EthKind :=
  let tl := beAt b 2 2
  let len := beAt b 24 2
  let dst := beAt b 16 4
  if beAt b 0 1 ≠ 0x45 ∨ beAt b 6 2 % 0x4000 ≠ 0 ∨ tl < 28 ∨ b.length < tl ∨ wordSum (b.take 20) % 65535 ≠ 0 ∨
      (dst ≠ own ∧ dst ≠ 0xFFFFFFFF) then .bad
  else if beAt b 9 1 = 1 then (if beAt b 20 2 = 0x0800 ∧ tl ≤ 1500 then .other else .bad)
  else if beAt b 9 1 ≠ 17 ∨ beAt b 22 2 ≠ pagrimPort ∨ len < 8 ∨ tl < 20 + len then .bad
  else if beAt b 26 2 ≠ 0 ∧ wordSum (pseudoHeader (beAt b 12 4) dst len ++ bytesAt b 20 len) % 65535 ≠ 0 then .bad
  else .pagrim (beAt b 12 4) (beAt b 20 2) (bytesAt b 28 (len - 8))

/-- An Ethernet II frame: untagged and of ordinary length, to the module's address, to broadcast, or to the gPTP address. The
numbers of the protocols are those of their standards (Assumption 119). -/
def ethKind (own : Nat) (b : Bytes) : EthKind :=
  let dst := beAt b 0 6
  let type := beAt b 12 2
  if 1514 < b.length then .bad
  else if type = 0x88F7 then (if dst = 0x0180C200000E then .other else .bad)
  else if dst ≠ Config.macAddress ∧ dst ≠ 0xFFFFFFFFFFFF then .bad
  else if type = 0x0806 then (if beAt b 20 2 = 1 ∧ beAt b 38 4 = own then .other else .bad)
  else if type = 0x0800 then ipKind own (b.drop 14)
  else .bad

/-- A frame received on the port that is discarded. -/
def State.ethDiscard (s : State) : State := { s with nets := (s.nets.ethCount 0).ethCount 2 }

/-- PAGRIM_FRAME_DISCARD (R400, R413, R417, R418): a frame as it arrives. One that breaks a rule is discarded and counted, without
reply; a Pagrim frame that breaks none is served; ARP, ICMP and gPTP frames have commands of their own. -/
def execPagrimFrameDiscard (net : Net) (f : RxFrame) (s : State) : Host.Outcome State Fault Refusal :=
  .next (match f with
    | .can ext fd b =>
      if net = .eth then s
      else if !ext || !fd then s.discardFrame net s.it 2
      else s.receive net 0 0 b
    | .eth b =>
      if !s.ethUp then s
      else match ethKind (s.pN 0x1220 1) b with
        | .pagrim a p d => s.receive .eth a p d
        | .other => s
        | .bad => s.ethDiscard)

end Sys2Proof.Machine
end

