-- ==== Sys2Proof/Machine/Networks.lean ====
section
/-! DEFINITION. The networks below Pagrim: bus-off (R416), the Ethernet stack and the gPTP follower (R418, R419), the
ISO 11783 address claim (R422), the task controller client (R425 to R427), hitch and PTO messages (R424). -/

namespace Sys2Proof.Machine

/-! ### Bus-off (R416) -/

/-- The bus state of a CAN controller, P 0x1210+c.08. -/
def State.setBus (s : State) (c n : Nat) : State :=
  { s with nets := { s.nets with can := vmod s.nets.can c (fun x => { x with bus := n }) } }

/-- CAN_BUS_OFF: controller `c` (0 CAN-B, 1 CAN-C, 2 CAN-A) reaches bus-off, or one of the states before it; a frame that it receives
and cannot keep is an overrun (R430). -/
def execCanBusOff (c : Fin 3) (x : CanEvent) (s : State) : Host.Outcome State Fault Refusal :=
  .next (if !(s.canUp c) then s
    else
      let s := s.at x.at_
      match x.is_ with
      | .active => s.setBus c 0
      | .passive => s.setBus c 1
      | .busOff => s.setBus c 2
      | .overrun => { s with nets := s.nets.canCount c 3 })

/-- BUS_OFF_RECOVERY: after 128 occurrences of 11 recessive bits the controller is back, and the event is counted. -/
def execBusOffRecovery (c : Fin 3) (t : IT) (s : State) : Host.Outcome State Fault Refusal :=
  .next (s.whenAwake (fun s =>
    if (vget s.nets.can c ⟨0, Vector.replicate 4 0⟩).bus ≠ 2 then s
    else
      let s := s.at t
      ({ s with nets := s.nets.canCount c 2 } : State).setBus c 0))

/-! ### The Ethernet link and stack (R12, R418) -/

/-- The Ethernet port changed. -/
def State.modEth (s : State) (f : Eth → Eth) : State := { s with nets := { s.nets with eth := f s.nets.eth } }

/-- A counter of the port raised. -/
def State.ethCount (s : State) (i : Nat) : State := { s with nets := s.nets.ethCount i }

/-- ETH_LINK_UP. The PHY watches for link from BOOT to the start of SHUTDOWN. -/
def execEthLinkUp (t : IT) (s : State) : Host.Outcome State Fault Refusal :=
  .next (if !(s.power.dev.awake) || s.power.dev == .shutdown || !s.power.crystalOk || s.nets.eth.up then s
    else (s.at t).ethStart)

/-- ETH_LINK_DOWN (P 0x1220.08). The domain runs on (R12). -/
def execEthLinkDown (t : IT) (s : State) : Host.Outcome State Fault Refusal :=
  .next (s.whenAwake (fun s =>
    if !s.nets.eth.up then s
    else ((s.at t).modEth (fun e => { e with up := false, gptp := min 1 e.gptp, syncRx := none, respT2 := none })).noteGoverning))

/-- Whether the stack above the port serves frames: the port carries them and the management cores run (R28). -/
def State.stackUp (s : State) : Bool := s.ethUp && !s.coresAbsent

/-- A frame received on the port at `t`. -/
def State.ethHeard (s : State) (t : IT) : State := (s.at t).ethCount 0

/-- The ARP cache with an entry renewed, the oldest making room among 16 (R418). -/
def arpPut (ip mac : Nat) (t : IT) (l : List (Nat × Nat × IT)) : List (Nat × Nat × IT) :=
  ((ip, mac, t) :: l.filter (fun e => e.1 != ip)).take 16

/-- ARP_REQUEST: a request for the module's own address is answered and its sender cached; every other one is discarded and
counted. -/
def execArpRequest (t : IT) (senderIp senderMac targetIp : Nat) (s : State) : Host.Outcome State Fault Refusal :=
  .next (if !s.stackUp then s
    else
      let s := s.ethHeard t
      if targetIp = s.pN 0x1220 1 then
        (s.modEth (fun e => { e with arp := arpPut senderIp senderMac s.it e.arp })).send (.arp true Config.macAddress targetIp senderMac senderIp)
      else s.ethCount 2)

/-- ARP_CACHE_EXPIRY: 300 s after the entry was made or renewed. -/
def execArpCacheExpiry (ip : Nat) (s : State) : Host.Outcome State Fault Refusal :=
  .next (s.whenAwake (fun s =>
    match s.nets.eth.arp.find? (fun e => e.1 == ip) with
    | none => s
    | some e => (s.at (e.2.2 + 300000000000)).modEth (fun x => { x with arp := x.arp.filter (fun e => e.1 != ip) })))

/-- ICMP_ECHO: answered for the module's own address and the limited broadcast, up to 1,472 bytes of data. -/
def execIcmpEcho (t : IT) (srcIp dstIp : Nat) (data : Bytes) (s : State) : Host.Outcome State Fault Refusal :=
  .next (if !s.stackUp then s
    else
      let s := s.ethHeard t
      if (dstIp = s.pN 0x1220 1 ∨ dstIp = 0xFFFFFFFF) ∧ data.length ≤ 1472 then s.send (.echo srcIp data)
      else s.ethCount 2)

/-! ### The gPTP follower (R41, R47, R419) -/

/-- A Follow_Up that belongs to the last Sync: the PTP time at the Sync's receive stamp, less the announced offset, is UTC. -/
def State.ptpTime (s : State) (rx : IT) (origin : Nat) (corr : Int) : State :=
  let utc := ((origin : Int) + corr + s.nets.eth.linkDelay - s.nets.eth.utcOff * 1000000000).toNat
  let s := s.modEth (fun e => { e with syncRx := none, gptp := 2, gOffset := (utc : Int) - s.wallAt rx })
  if s.nets.eth.utcOk then s.timeFrom .gptp rx utc else s

/-- The mean link delay from the four stamps of a peer-delay exchange. -/
def meanDelay (t1 t2 t3 t4 : Nat) : Nat := (rdiv (((t4 : Int) - t1) - ((t3 : Int) - t2)) 2).toNat

/-- A gPTP message received at the present time. The answer to a peer-delay request carries its receive stamp; the origin
stamp of its follow-up is not stated: a free value (Assumption 4). -/
def State.gptpServe (s : State) (m : GptpMsg) : State :=
  let e := s.nets.eth
  match m with
  | .announce off ok => (s.modEth (fun e => { e with utcOff := off, utcOk := ok })).noteGoverning
  | .sync seq => (s.ethCount 5).modEth (fun e => { e with syncSeq := seq, syncRx := some s.it })
  | .followUp seq origin corr =>
    match e.syncRx with
    | some rx => if seq = e.syncSeq then s.ptpTime rx origin corr else s
    | none => s
  | .pdelayReq seq => ((s.send (.gptp 1 seq s.it)).send (.gptp 2 seq s.drawn)).draw
  | .pdelayResp seq t2 => if seq = e.reqSeq then s.modEth (fun e => { e with respT2 := some (t2, s.it) }) else s
  | .pdelayRespFollowUp seq t3 =>
    match e.respT2 with
    | some (t2, t4) =>
      if seq = e.reqSeq then s.modEth (fun e => { e with respT2 := none, linkDelay := meanDelay e.reqTx t2 t3 t4 }) else s
    | none => s

/-- GPTP_MESSAGE. With gPTP disabled the frame is discarded and counted. -/
def execGptpMessage (t : IT) (m : GptpMsg) (s : State) : Host.Outcome State Fault Refusal :=
  .next (if !s.stackUp then s
    else
      let s := s.ethHeard t
      if s.pB 0x1220 5 then s.gptpServe m else s.ethCount 2)

/-- PEER_DELAY_REQUEST: the follower sends a request as initiator. -/
def execPeerDelayRequest (t : IT) (s : State) : Host.Outcome State Fault Refusal :=
  .next (if !s.stackUp || !(s.pB 0x1220 5) then s
    else
      let s := s.at t
      let s := s.modEth (fun e => { e with reqSeq := (e.reqSeq + 1) % 65536, reqTx := s.it, respT2 := none })
      s.send (.gptp 0 s.nets.eth.reqSeq s.it))

/-! ### The ISO 11783 address claim (R422) -/

/-- CAN-A's part of the state changed. -/
def State.modIso (s : State) (f : CanA → CanA) : State := { s with nets := { s.nets with canA := f s.nets.canA } }

/-- Whether the management cores serve CAN-A: the network carries frames and the cores run (R28). -/
def State.canAServed (s : State) : Bool := s.canUp 2 && !s.coresAbsent

/-- Whether the address claim runs (P 0x1230.01). -/
def State.isoOn (s : State) : Bool := s.canAServed && s.pB 0x1230 1

/-- The next address in ascending order within 0x80–0xF7, wrapping. -/
def nextAddress (a : Nat) : Nat := if a < 0x80 ∨ 0xF7 ≤ a then 0x80 else a + 1

/-- A claim lost: the next address is claimed; once all 120 are tried the module sends cannot-claim and waits 10 s. -/
def State.claimLost (s : State) : State :=
  let a := s.nets.canA
  if a.tried + 1 < 120 then
    (s.modIso (fun c => { c with claimed := 0xFE, trying := nextAddress c.trying, tried := c.tried + 1 })).claimMessage
  else
    (s.modIso (fun c => { c with
      claimed := 0xFE, trying := 0xFE, tried := 0, noAddr := true, retryAt := some (s.it + 10000000000) })).claimMessage

/-- The preferred address claimed anew. -/
def State.claimFirst (s : State) : State :=
  (s.modIso (fun c => { c with claimed := 0xFE, trying := s.pN 0x1230 2, tried := 0, retryAt := none })).claimMessage

/-- ADDRESS_CLAIM. -/
def execAddressClaim (t : IT) (e : ClaimEvent) (s : State) : Host.Outcome State Fault Refusal :=
  .next (if !s.isoOn || s.nets.canA.retryAt.isSome then s
    else
      let s := s.at t
      match e with
      | .start => if s.nets.canA.trying = 0xFE then s.claimFirst else s.claimMessage
      | .lost => if s.nets.canA.trying = 0xFE then s else s.claimLost
      | .stands =>
        if s.nets.canA.trying = 0xFE then s
        else s.modIso (fun c => { c with claimed := c.trying, tried := 0, noAddr := false }))

/-- ADDRESS_RETRY: 10 s after cannot-claim. -/
def execAddressRetry (t : IT) (s : State) : Host.Outcome State Fault Refusal :=
  .next (match s.nets.canA.retryAt with
    | none => s
    | some x => if !s.isoOn || decide (t < x) then s else (s.at t).claimFirst)

/-! ### The task controller client (R425 to R427) -/

/-- Whether the client runs: it holds an address. -/
def State.clientOn (s : State) : Bool := s.isoOn && s.nets.canA.claimed != 0xFE

/-- The condensed work state of sections 16·g to 16·g + 15: 0b00 off, 0b01 on, 0b11 not installed. -/
def State.workWord (s : State) (g : Nat) : Nat :=
  (List.range 16).foldl (fun w i =>
    let c := 16 * g + i
    w + (if s.pN 0x2110 2 ≤ c then 3 else b2n (vget s.spd.work c false)) * 4 ^ i) 0

/-- The value of a DDI that the client reports: 160 the section control state, 161 to 176 the work states. -/
def State.ddiValue (s : State) (ddi : Nat) : Nat :=
  if ddi = 160 then b2n (s.external && s.nets.canA.section_) else s.workWord (ddi - 161)

/-- Whether the client reports a DDI. -/
def reported (ddi : Nat) : Bool := decide (160 ≤ ddi) && decide (ddi ≤ 176)

/-- A value of the boom's element (element 1) reported. -/
def State.reportDdi (s : State) (ddi : Nat) : State :=
  let v := s.ddiValue ddi
  let s := s.modIso (fun c => { c with lastSent := (ddi, s.it, BitVec.ofNat 32 v) :: c.lastSent.filter (fun e => e.1 != ddi) })
  s.toTc ([0x13, 0] ++ le 2 ddi ++ le 4 v)

/-- A process data acknowledge with an error code. -/
def State.pdNack (s : State) (ddi err : Nat) : State := s.toTc ([0x1D, 0] ++ le 2 ddi ++ le 1 err ++ [0xFF, 0xFF, 0xFF])

/-- A section state for Spindle (R149, R150), with the receive stamp `rx`. A state that repeats the last one is not a change,
but for the first one in RUN and the one that ends a timeout. -/
def State.sectionState (s : State) (c : Nat) (on : Bool) (rx : IT) : State :=
  if s.pN 0x2110 2 ≤ c ∨ s.power.dev ≠ .run then s
  else
    let late := (List.range 132).any (fun o => (s.outp o).extOut && s.isOutput o && (s.sectionsOf o).contains c)
    let change := (vget s.spd.secSeen c none).isNone || late || vget s.spd.secOn c false != on
    s.modSpd (fun d => { d with
      secSeen := vset d.secSeen c (some rx), secOn := vset d.secOn c on,
      secs := if change then d.secs ++ [⟨c, on, rx⟩] else d.secs })

/-- Setpoint condensed work states for sections 16·g to 16·g + 15. -/
def State.setpoint (s : State) (g : Nat) (w : BitVec 32) (rx : IT) : State :=
  if !s.external then s.modIso (fun c => { c with ignored := sat32 (c.ignored + 1) })
  else if !s.nets.canA.section_ then s
  else (List.range 16).foldl (fun s i =>
    match w.toNat / 4 ^ i % 4 with
    | 0 => s.sectionState (16 * g + i) false rx
    | 1 => s.sectionState (16 * g + i) true rx
    | _ => s) s

/-- The section control state as the task controller sets it; in autonomous mode it stays 0. -/
def State.sectionControl (s : State) (on : Bool) (rx : IT) : State :=
  if !s.external then s
  else
    let was := s.nets.canA.section_
    let s := s.modIso (fun c => { c with section_ := on })
    if was && !on then (List.range (s.pN 0x2110 2)).foldl (fun s c => s.sectionState c false rx) s else s

/-- TC_MESSAGE (R426), received at `t`. -/
def execTcMessage (t : IT) (m : TcMsg) (s : State) : Host.Outcome State Fault Refusal :=
  .next (if !s.clientOn || !s.nets.canA.tcOn then s
    else
      let s := s.at t
      match m with
      | .setpointWorkState g w => s.setpoint g w s.it
      | .sectionControlState on => s.sectionControl on s.it
      | .intervalTrigger ddi ms =>
        if !(reported ddi) then s.pdNack ddi 4
        else s.modIso (fun c =>
          let l := c.triggers.filter (fun e => e.1 != ddi)
          { c with triggers := if ms = 0 then l else l ++ [(ddi, ms, s.it + ms * 1000000)] })
      | .onChangeTrigger ddi =>
        if !(reported ddi) then s.pdNack ddi 4
        else s.modIso (fun c => { c with onChange := ddi :: c.onChange.filter (· != ddi) })
      | .distanceTrigger ddi => s.pdNack ddi 8
      | .thresholdTrigger ddi => s.pdNack ddi 8
      | .requestValue ddi => if reported ddi then s.reportDdi ddi else s.pdNack ddi 4)

/-- TIME_INTERVAL_TRIGGER (R426): an interval the task controller set has passed. -/
def execTimeIntervalTrigger (ddi : Nat) (t : IT) (s : State) : Host.Outcome State Fault Refusal :=
  .next (match s.nets.canA.triggers.find? (fun e => e.1 == ddi) with
    | none => s
    | some e =>
      if !s.clientOn || !s.nets.canA.tcOn || decide (t < e.2.2) then s
      else
        let s := s.at t
        let s := s.modIso (fun c => { c with triggers := c.triggers.map (fun x =>
          if x.1 == ddi then (x.1, x.2.1, x.2.2 + x.2.1 * 1000000) else x) })
        s.reportDdi ddi)

/-- The work states reported on change at boundary `b`, each no more often than every 100 ms, and the section control state
where the task controller asked for its changes. -/
def State.reportChanges (s : State) (b : IT) : State :=
  if !s.clientOn || s.nets.canA.pool != 2 then s
  else ((List.range 17).map (160 + ·)).foldl (fun s ddi =>
    if ddi = 160 ∧ !(s.nets.canA.onChange.contains 160) then s
    else match s.nets.canA.lastSent.find? (fun e => e.1 == ddi) with
      | some e => if e.2.2.toNat = s.ddiValue ddi ∨ b < e.2.1 + 100000000 then s else s.reportDdi ddi
      | none => s) s

/-- The pool active: what the client reports from now on is compared with the values of this instant. -/
def State.poolActive (s : State) : State :=
  s.modIso (fun c => { c with
    pool := 2, lastSent := (List.range 17).map (fun i => (160 + i, 0, BitVec.ofNat 32 (s.ddiValue (160 + i)))) })

/-! ### Transport protocols (R423) -/

/-- The pool goes up once a commit boundary has given it a description (R425). -/
def State.firstPool (s : State) : State := if s.dict.ever then s.uploadPool else s

/-- The packets of the pool go out once the partner is clear to take them. -/
def State.poolPackets (s : State) : State :=
  match s.nets.canA.out with
  | some o => (s.modIso (fun a => { a with out := some (s.it, o.2) })).send (.pool o.2)
  | none => s

/-- A transport message from a partner. One incoming connection is kept per partner: a second one is aborted. No block takes a message
that comes this way, so a complete one is acknowledged, where it was no broadcast, and dropped (Assumption 72). A connection without a
message for 1,250 ms is over, the time of ISO 11783-3 (Assumption 119). -/
def State.transport (s : State) (p : Nat) (m : TpMsg) : State :=
  let s := s.modIso (fun a => { a with
    conns := a.conns.filter (fun c => decide (s.it < c.last + 1250000000)),
    out := a.out.bind (fun o => if s.it < o.1 + 1250000000 then some o else none) })
  let open_ := s.nets.canA.conns.find? (fun c => c.partner == p)
  let gone := fun (s : State) => s.modIso (fun a => { a with conns := a.conns.filter (fun c => c.partner != p) })
  match m, open_ with
  | .rts size pgn, none =>
    let ext := decide (1785 < size)
    (s.modIso (fun a => { a with conns := a.conns ++ [⟨p, false, pgn, size, 0, s.it⟩] })).tpMessage ext p (if ext then 21 else 17)
      (if ext then le 1 255 ++ le 3 1 else le 1 255 ++ le 1 1 ++ [0xFF, 0xFF]) pgn
  | .rts size pgn, some _ => s.tpMessage (decide (1785 < size)) p 255 [1, 0xFF, 0xFF, 0xFF] pgn
  | .bam size pgn, none => s.modIso (fun a => { a with conns := a.conns ++ [⟨p, true, pgn, size, 0, s.it⟩] })
  | .bam _ _, some _ => s
  | .data n, some c =>
    if c.got + n < c.size then
      let got := c.got + n
      let s := s.modIso (fun a => { a with conns := a.conns.map (fun x => if x.partner == p then { x with got := got, last := s.it } else x) })
      if c.bam || got / 1785 = c.got / 1785 then s
      else s.tpMessage true p 21 (le 1 255 ++ le 3 (got / 7 + 1)) c.pgn
    else if c.bam then gone s
    else
      let ext := decide (1785 < c.size)
      (gone s).tpMessage ext p (if ext then 23 else 19)
        (if ext then le 4 c.size else le 2 c.size ++ le 1 ((c.size + 6) / 7) ++ [0xFF]) c.pgn
  | .data _, none => s
  | .cts, _ => s.poolPackets
  | .ack, _ => s.modIso (fun a => { a with out := none })
  | .abort, _ => (gone s).modIso (fun a => { a with out := none })

/-- TASK_CONTROLLER_STATUS (R425): what a task controller announces or answers at `t`. A controller of version 3 or 4 hears what the
client is, section control with one boom and up to 256 sections, and gets its pool. -/
def execTaskControllerStatus (t : IT) (m : TcStatus) (s : State) : Host.Outcome State Fault Refusal :=
  .next (if !s.clientOn then s
    else
      let s := s.at t
      let a := s.nets.canA
      match m with
      | .status n => if n = s.pN 0x1231 1 then s.modIso (fun c => { c with tcSeen := some s.it }) else s
      | .version n v =>
        if n = s.pN 0x1231 1 ∧ (v = 3 ∨ v = 4) ∧ !a.tcOn then
          ((s.modIso (fun c => { c with tcOn := true, tcSeen := some (c.tcSeen.getD s.it) })).send (.announce 1 256)).firstPool
        else s
      | .poolStored => if a.tcOn ∧ a.pool = 1 then s.toTc [0x81, 0xFF, 0xFF, 0xFF, 0xFF, 0xFF, 0xFF, 0xFF] else s
      | .poolActivated => if a.tcOn ∧ a.pool = 1 then s.poolActive else s
      | .poolDeactivated => if a.tcOn ∧ a.pool = 3 then s.uploadPool else s
      | .transport p m => s.transport p m)

/-- TC_DISCONNECT (R427): the status message has been absent for 6 s at `t`, whatever keeps it away, a bus-off included. -/
def execTcDisconnect (t : IT) (s : State) : Host.Outcome State Fault Refusal :=
  .next (match s.nets.canA.tcSeen with
    | none => s
    | some x =>
      if !s.power.dev.awake || s.coresAbsent || !s.nets.canA.tcOn || decide (t < x + 6000000000) then s
      else
        let s := (s.at t).modIso (fun c => { c with
          tcOn := false, tcSeen := none, pool := 0, section_ := false, triggers := [], lastSent := [], onChange := [], out := none })
        if s.external && s.power.dev == .run then s.outputsOut (fun _ => true) else s)

/-! ### Hitch and PTO (R424) -/

/-- HITCH_PTO_MESSAGE: message `i` of P 0x1232.01 (0 to 3: PGN 65093, 65094, 65091, 65092) received at `t`. -/
def execHitchPtoMessage (t : IT) (i : Fin 4) (data : Vector Byte 8) (s : State) : Host.Outcome State Fault Refusal :=
  .next (if !s.canAServed then s
    else
      let s := s.at t
      s.modIso (fun c => { c with hitch := vset c.hitch i (shortStamp s.it, data) }))

end Sys2Proof.Machine
end

