-- ==== Sys2Proof/Machine/Frame.lean ====
section
/-! DEFINITION. The frame (R16 to R21): what a boundary and a time strobe do, unit by unit in the order of R18, and the
streams (R391 to R394). The steps of a frame take effect together at its boundary. -/

namespace Sys2Proof.Machine

/-! ### The instant, and what was due at it -/

/-- The boundary a FRAME_BOUNDARY processes: the next one, or where Izcel time is past it the first not passed (R17). -/
def State.frameAt (s : State) : IT :=
  if s.it ≤ s.time.frame + 1000000 then s.time.frame + 1000000 else boundaryAtOrAfter s.it

/-- The streams whose parameters change at a boundary: their publication counts restart (R397); a SKIPPED still owed stays owed
(R392). -/
def State.streamsRestart (s : State) (keys : List Nat) : State :=
  { s with dict := { s.dict with streams := vmapi s.dict.streams (fun i (x : Stream) =>
      if keys.any (fun k => k / 256 == 0x4410 + i) then { x with count := 0 } else x) } }

/-- The class F values whose boundary has come, in use from now on (R373). -/
def State.oldExpire (s : State) (b : IT) : State :=
  let due := s.dict.old.filter (fun o => decide (o.2.2 ≤ b))
  let s : State := { s with dict := { s.dict with old := s.dict.old.filter (fun o => decide (b < o.2.2)) } }
  s.streamsRestart (due.map (·.1))

/-- What waited for this boundary: a COMMIT, a state command, class F values. -/
def State.frameDue (s : State) (b : IT) : State :=
  let s := match s.dict.commit with
    | some w => if w.boundary ≤ b then s.commitBoundary else s
    | none => s
  let s := s.oldExpire b
  match s.power.cmd with
  | some c => if c.boundary ≤ b then s.commandEffect else s
  | none => s

/-! ### The drive dies' local time (R16) -/

/-- The comparison of die `d`'s local time, `ps` off: more than 12.5 ns is a clock fault, at every strobe and realignment
that finds it. A die in reset compares nothing. -/
def State.dieTime (s : State) (d : Nat) (ps : Int) : State :=
  if (s.die d).state = 2 then s
  else
    let ok := decide (ps.natAbs ≤ 12500)
    let s : State := { s with time := { s.time with strobeOk := vset s.time.strobeOk d ok } }
    if ok then s else s.report 0xE002 d []

/-- The four dies compared at the present time. -/
def State.dieTimes (s : State) (devPs : Vector Int 4) : State :=
  (List.range 4).foldl (fun s d => s.dieTime d (vget devPs d 0)) s

/-- DIE_TIME_STROBE: the next whole multiple of 25,000 ns. -/
def execDieTimeStrobe (devPs : Vector Int 4) (s : State) : Host.Outcome State Fault Refusal :=
  .next (s.whenAwake (fun s => (s.at ((s.it / 25000 + 1) * 25000)).dieTimes devPs))

/-! ### Switch inputs (R469, R527) -/

/-- Input `i` sampled at `mv`: a change is accepted once its level has been sampled unchanged for the debounce time; a
change of polarity counts as a change of level. -/
def State.switchSample (s : State) (x : Switch) (i mv : Nat) : Switch :=
  let pol := bit (s.pN 0x4102 1) i
  let raw := if pol then decide (mv < 2500) else decide (5500 < mv)
  let held := if raw == x.raw && pol == x.pol then x.held + 1 else 0
  { on := if raw != x.on && decide (s.pN 0x4102 2 ≤ held) then raw else x.on, raw := raw, held := held, pol := pol }

/-- The sixteen inputs sampled. -/
def State.switchesSample (s : State) (mv : Vector Nat 16) : State :=
  s.modSup (fun f => { f with switches := vmapi f.switches (fun i x => s.switchSample x i (vget mv i 0)) })

/-! ### Steps 1 and 2: measurements and the drive dies -/

/-- The supply conditions of R339 that no longer last. -/
def State.supplyFrame (s : State) (f : FrameIn) : State :=
  let low := s.pN 0x1402 2
  let high := s.pN 0x1402 3
  let ok : Vector Bool 4 := #v[decide (6000 ≤ f.vKA), decide (low ≤ f.vA ∧ f.vA ≤ high ∧ f.iA ≤ 72000),
    decide (low ≤ f.vB ∧ f.vB ≤ high ∧ f.iB ≤ 72000), f.railsOk]
  s.modPower (fun p => { p with supplyLow := p.supplyLow.zipWith (fun a o => a && !o) ok })

/-- Channel `n`: its waiting closing samples, its last measured pull-in, and while its die runs its coil model and its
predictions. -/
def State.channelFrame (s : State) (f : FrameIn) (n : Nat) : State :=
  let uj := vget f.pullInUj n 0
  let s := (if uj = 0 then s else s.modCh n (fun c => { c with lastUj := some uj })).learnCh n
  if (s.die (n / 32)).state ≠ 1 then s
  else ((s.coilStep n (vget f.coilMa2 n 0) (vget f.clampNc n 0)).coilThreshold n s.it).predictCh n f.railMv f.vA

/-- Step 1 and the dies' part of step 2. -/
def State.frameMeasure (s : State) (f : FrameIn) : State :=
  let s := ((s.closeSet.inertialSample f).dieTimes f.dieDevPs).supplyFrame f
  let s : State := { s with banks := vmapi s.banks (fun b (x : Bank) => { x with current := vget f.bankMa b 0 }) }
  (List.range 128).foldl (fun s n => s.channelFrame f n) (s.switchesSample f.switchMv)

/-! ### Step 3: Roving, Distaff and the work states -/

/-- Whether a Carding slice holds the delay tables and Roving's history: Roving waits (R499, R503). -/
def State.histHeld (s : State) : Bool := s.card.run.any (fun r => r.current == 17)

/-- Step 3 with marking beside it. -/
def State.frameMap (s : State) (b : IT) : State :=
  let s := if s.histHeld then s else s.rovFrame
  let s := s.hankBoundary.applyLayers.deleteFrame
  let (s, wanted) := s.markFrame b
  let s := if s.power.geo then s.prefetch wanted else s
  (s.workStates b).reportChanges b

/-! ### Supply, Bobbin, thermal manager, load switches -/

/-- Whether every recovery window is over: no channel decays. -/
def State.recoveryOver (s : State) : Bool := !(s.chan.toList.any (fun c => c.state == 3))

/-- The active discharge of R255: in SHUTDOWN after the last recovery window, and after a rail fault once every common is
OPEN. -/
def State.dischargeFrame (s : State) : State :=
  if s.bob.discharging then s
  else if s.bob.state = 5 then (if (List.range 16).all (fun b => s.commonAt b s.it == 0) then s.startDischarge else s)
  else if s.power.dev = .shutdown ∧ s.bob.state = 3 ∧ s.recoveryOver then s.startDischarge
  else s

/-- What the power die and the thermal manager measure at a boundary. -/
def State.framePower (s : State) (f : FrameIn) : State :=
  let s := ((s.bobbinFrame f).measureBudget f).thermalNotices.thermalSample f
  (List.range 16).foldl (fun s j => s.loadMeasure f j) s

/-- The requests of a boundary in class order (R342): C1, in BARE the pull-ins and then Bobbin's allotment; C2, in BARE the bridges
and ports; C3, the load switches. -/
def State.frameRequests (s : State) : State :=
  let bare := s.power.dev == .bare
  let s := if bare then s.bareArm.bareChannels else s
  let s := s.allotBobbin.overBudget.dischargeFrame
  let s := if bare then s.bareTorque else s
  ((List.range 16).foldl State.loadFrame s).showBudget

/-! ### The device state at a boundary -/

/-- BARE entered where it was decided; what the state asks of the supply and of the spinners; CTL's start; the step of SHUTDOWN. -/
def State.frameStates (s : State) : State :=
  let s := match s.sup.bareNext with
    | some c => s.enterBare c
    | none => s
  s.frameRequests.spinsFollow.ctlStart.downStage

/-! ### Streams (R391 to R394) -/

/-- Whether stream `i` publishes at boundary `b`. -/
def State.streamDue (s : State) (i : Nat) (b : IT) : Bool :=
  let k := b / 1000000
  let p := s.pN (0x4410 + i) 3
  let ph := s.pN (0x4410 + i) 4
  s.pB (0x4410 + i) 1 && decide (0 < p) && decide (ph ≤ k) && (k - ph) % p == 0

/-- The network of stream `i`. -/
def State.streamNet (s : State) (i : Nat) : Net :=
  match s.pN (0x4410 + i) 2 with
  | 0 => .canB | 1 => .canC | _ => .eth

/-- Whether a network takes an unasked frame now: it carries frames, and on ETH a session gives the destination (R417). -/
def State.takesUnasked (s : State) (n : Net) : Bool := s.netUp n && (n != .eth || s.nets.ethDest != (0, 0))

/-- The values of stream `i` in list order, and whether one is of a block not started. -/
def State.streamValues (s : State) (i : Nat) : Bytes × Bool :=
  let l := s.pBytes (0x4410 + i) 5
  (List.range (l.length / 4)).foldl (fun a k =>
    match s.readParam 0 (natAt l (4 * k) 2) (natAt l (4 * k + 2) 1) with
    | .inl _ => a
    | .inr v => (a.1 ++ v.2, a.2 || v.1 == 1)) ([], false)

/-- Stream `i` changed. -/
def State.modStream (s : State) (i : Nat) (f : Stream → Stream) : State :=
  { s with dict := { s.dict with streams := vmod s.dict.streams i f } }

/-- The values of stream `i` sampled at boundary `b` where it is due. A publication still not sent is skipped now, and the next one
says so (R391). -/
def State.streamSample (s : State) (b : IT) (i : Nat) : State :=
  if !(s.streamDue i b) then s
  else
    let v := s.streamValues i
    s.modStream i (fun x =>
      let x := if x.held.isSome then { x with skipped := sat32 (x.skipped + 1), owed := true } else x
      { x with held := some (b, v.2, v.1) })

/-- The publication of stream `i` sent as soon as its network takes it (R391, R392; Assumption 73). -/
def State.streamSend (s : State) (i : Nat) : State :=
  let x := vget s.dict.streams i ⟨0, 0, 0, false, none⟩
  match x.held with
  | none => s
  | some (at_, cold, v) =>
    if !(s.takesUnasked (s.streamNet i)) then s
    else
      let s := s.sendUnasked [s.streamNet i] 6 i
        (le 4 (shortStamp at_) ++ le 1 i ++ le 1 (b2n x.owed + 2 * b2n cold) ++ le 2 x.count ++ v)
      s.modStream i (fun x => { x with
        count := (x.count + 1) % 65536, sent := sat32 (x.sent + 1), owed := false, held := none })

/-- Stream `i` at boundary `b`. -/
def State.publish (s : State) (b : IT) (i : Nat) : State := (s.streamSample b i).streamSend i

/-- Streams run from READY to the start of SHUTDOWN, while the management cores run. -/
def State.frameStreams (s : State) (b : IT) : State :=
  if s.power.dev.code < 3 || s.power.dev == .shutdown || s.coresAbsent then s
  else (List.range 16).foldl (fun s i => s.publish b i) s

/-! ### FRAME_BOUNDARY -/

/-- The frame at boundary `b`: what waited for it, then the steps of R18. -/
def State.frame (s : State) (b : IT) (f : FrameIn) : State :=
  let s := (s.frameDue b).at b
  let s : State := { s with time := { s.time with frame := b } }
  let s := ((s.frameMeasure f).framePower f).frameStates
  let s := s.frameMap b
  let s := if s.power.dev = .run then s.spdFrame b f.fills else { s.spdStands with undo := none }
  s.frameStreams b

/-- FRAME_BOUNDARY (R18). -/
def execFrameBoundary (f : FrameIn) (s : State) : Host.Outcome State Fault Refusal :=
  .next (s.whenAwake (fun s => s.frame s.frameAt f))

end Sys2Proof.Machine
end

