-- ==== Sys2Proof/Machine/Requests.lean ====
section
/-! DEFINITION. The commands of a host: each is a request over Pagrim, so each meets the sessions, levels and checks of
Pagrim.lean and Dict.lean. A command that stands for a whole written value is a WRITE where the value fits one frame of
the network, else the last segment of its BLOCK-WRITE. -/

namespace Sys2Proof.Machine

/-- CLEAR_CHANNEL_LATCH (R234). -/
def execClearChannelLatch (r : Req) (n : Fin 128) (s : State) : Host.Outcome State Fault Refusal :=
  .next (s.hostWrite r (0x3000 + n.val) 0xE [1])

/-- CLEAR_BANK_LATCH (R235). -/
def execClearBankLatch (r : Req) (b : Fin 16) (s : State) : Host.Outcome State Fault Refusal :=
  .next (s.hostWrite r (0x3080 + b.val) 5 [1])

/-- LOOP_MODE_COMMAND (R276). -/
def execLoopModeCommand (r : Req) (w : Fin 8) (mode : Byte) (s : State) : Host.Outcome State Fault Refusal :=
  .next (s.hostWrite r (0x3100 + w.val) 0xF [mode])

/-- REGION_TABLE_WRITE (R273 to R275). -/
def execRegionTableWrite (r : Req) (w j : Fin 8) (v : Bytes) (s : State) : Host.Outcome State Fault Refusal :=
  .next (s.hostWrite r (0x3210 + 8 * w.val + j.val) 1 v)

/-- COEFFICIENT_PATCH (R273 to R275). -/
def execCoefficientPatch (r : Req) (w j : Fin 8) (v : Bytes) (s : State) : Host.Outcome State Fault Refusal :=
  .next (s.hostWrite r (0x3210 + 8 * w.val + j.val) 2 v)

/-- COMMIT_LOOP (R274). -/
def execCommitLoop (r : Req) (w : Fin 8) (s : State) : Host.Outcome State Fault Refusal :=
  .next (s.hostWrite r (0x3100 + w.val) 0x1D [1])

/-- CLEAR_OUTPUT_LATCH (R316). -/
def execClearOutputLatch (r : Req) (o : Fin 6) (s : State) : Host.Outcome State Fault Refusal :=
  .next (if o.val < 4 then s.hostWrite r (0x3500 + o.val) 0x12 [1] else s.hostWrite r (0x3504 + o.val) 0xE [1])

/-- LOAD_SWITCH_COMMAND (R324). -/
def execLoadSwitchCommand (r : Req) (j : Fin 16) (v : Byte) (s : State) : Host.Outcome State Fault Refusal :=
  .next (s.hostWrite r (0x3600 + j.val) 0x10 [v])

/-- CLEAR_LOAD_LATCHES (R329). -/
def execClearLoadLatches (r : Req) (j : Fin 16) (v : Byte) (s : State) : Host.Outcome State Fault Refusal :=
  .next (s.hostWrite r (0x3600 + j.val) 0x11 [v])

/-- RESET_UNCERTAINTY (R63). -/
def execResetUncertainty (r : Req) (i : Fin 8) (s : State) : Host.Outcome State Fault Refusal :=
  .next (s.hostWrite r (0x2020 + i.val) 0xB [1])

/-- SET_COUNT (R71). -/
def execSetCount (r : Req) (i : Fin 8) (v : Bytes) (s : State) : Host.Outcome State Fault Refusal :=
  .next (s.hostWrite r (0x2020 + i.val) 0xC v)

/-- FOLD_STATE_WRITE (R100). -/
def execFoldStateWrite (r : Req) (v : Byte) (s : State) : Host.Outcome State Fault Refusal :=
  .next (s.hostWrite r 0x2110 3 [v])

/-- HANK_CREATE (R156). -/
def execHankCreate (r : Req) (body : Bytes) (s : State) : Host.Outcome State Fault Refusal :=
  .next (s.hostWrite r 0x2302 1 (1 :: body))

/-- HANK_OPEN (R156). -/
def execHankOpen (r : Req) (body : Bytes) (s : State) : Host.Outcome State Fault Refusal :=
  .next (s.hostWrite r 0x2302 1 (2 :: body))

/-- HANK_CLOSE (R158). -/
def execHankClose (r : Req) (body : Bytes) (s : State) : Host.Outcome State Fault Refusal :=
  .next (s.hostWrite r 0x2302 1 (3 :: body))

/-- HANK_DELETE (R156). -/
def execHankDelete (r : Req) (body : Bytes) (s : State) : Host.Outcome State Fault Refusal :=
  .next (s.hostWrite r 0x2302 1 (4 :: body))

/-- TILE_STREAM (R167). -/
def execTileStream (r : Req) (v : Bytes) (s : State) : Host.Outcome State Fault Refusal :=
  .next (s.hostWrite r 0x2310 1 v)

/-- TILE_EXPORT_READ (R181). -/
def execTileExportRead (r : Req) (s : State) : Host.Outcome State Fault Refusal :=
  .next (s.blockRead r 0x2312 3 0)

/-- PARAMETER_READ (R406). -/
def execParameterRead (r : Req) (idx sub : Nat) (s : State) : Host.Outcome State Fault Refusal :=
  .next (s.read r idx sub)

/-- PARAMETER_WRITE (R373). -/
def execParameterWrite (r : Req) (idx sub : Nat) (v : Bytes) (s : State) : Host.Outcome State Fault Refusal :=
  .next (s.writeFrame r idx sub v)

/-- BLOCK_WRITE_SEGMENT (R407). -/
def execBlockWriteSegment (r : Req) (idx sub off total : Nat) (data : Bytes) (s : State) : Host.Outcome State Fault Refusal :=
  .next (s.blockWrite r idx sub off total data)

/-- BLOCK_READ (R408). -/
def execBlockRead (r : Req) (idx sub off : Nat) (s : State) : Host.Outcome State Fault Refusal :=
  .next (s.blockRead r idx sub off)

/-- COMMIT (R380, R381). -/
def execCommit (r : Req) (payload : Bytes) (s : State) : Host.Outcome State Fault Refusal :=
  .next (s.commitRequest r payload)

/-- DISCARD_STAGED (R379). -/
def execDiscardStaged (r : Req) (s : State) : Host.Outcome State Fault Refusal :=
  .next (s.hostWrite r 0x4401 6 [1])

/-- CONFIGURATION_IMAGE (R388). -/
def execConfigurationImage (r : Req) (v : Bytes) (s : State) : Host.Outcome State Fault Refusal :=
  .next (s.hostWrite r 0x4402 1 v)

/-- DESCRIPTION_BLOCK_READ (R395). -/
def execDescriptionBlockRead (r : Req) (s : State) : Host.Outcome State Fault Refusal :=
  .next (s.blockRead r 0x4403 2 0)

/-- TIME_SERVICE (R49). -/
def execTimeService (r : Req) (payload : Bytes) (s : State) : Host.Outcome State Fault Refusal :=
  .next (s.timeRequest r payload)

/-- CHALLENGE_READ (R421). -/
def execChallengeRead (r : Req) (s : State) : Host.Outcome State Fault Refusal :=
  .next (s.read r 0x1201 1)

/-- RESPONSE_WRITE (R421). -/
def execResponseWrite (r : Req) (v : Bytes) (s : State) : Host.Outcome State Fault Refusal :=
  .next (s.hostWrite r 0x1201 2 v)

/-- RELOCK (R421). -/
def execRelock (r : Req) (s : State) : Host.Outcome State Fault Refusal :=
  .next (s.hostWrite r 0x1201 5 [1])

/-- EXPORT_BLOCK_READ (R446). -/
def execExportBlockRead (r : Req) (b : Bool) (s : State) : Host.Outcome State Fault Refusal :=
  .next (s.blockRead r 0x4002 (if b then 4 else 3) 0)

/-- CLEAR_LAST_WORD (R447). -/
def execClearLastWord (r : Req) (s : State) : Host.Outcome State Fault Refusal :=
  .next (s.hostWrite r 0x4003 2 [1])

/-- CLEAR_FAULTS (R458). -/
def execClearFaults (r : Req) (s : State) : Host.Outcome State Fault Refusal :=
  .next (s.hostWrite r 0x4100 8 [1])

/-- CMD_RUN (R475, R476). -/
def execCmdRun (r : Req) (s : State) : Host.Outcome State Fault Refusal :=
  .next (s.hostWrite r 0x4400 2 [1])

/-- CMD_BARE (R468, R475). -/
def execCmdBare (r : Req) (s : State) : Host.Outcome State Fault Refusal :=
  .next (s.hostWrite r 0x4400 2 [2])

/-- CMD_SAFE (R459, R475). -/
def execCmdSafe (r : Req) (s : State) : Host.Outcome State Fault Refusal :=
  .next (s.hostWrite r 0x4400 2 [3])

/-- CMD_READY (R474, R475). -/
def execCmdReady (r : Req) (s : State) : Host.Outcome State Fault Refusal :=
  .next (s.hostWrite r 0x4400 2 [4])

/-- CMD_SERVICE (R475, R486). -/
def execCmdService (r : Req) (s : State) : Host.Outcome State Fault Refusal :=
  .next (s.hostWrite r 0x4400 2 [5])

/-- CARDING_RUN_ALL (R505). -/
def execCardingRunAll (r : Req) (s : State) : Host.Outcome State Fault Refusal :=
  .next (s.hostWrite r 0x4200 1 [1])

/-- CARDING_RUN_CORE (R505). -/
def execCardingRunCore (r : Req) (s : State) : Host.Outcome State Fault Refusal :=
  .next (s.hostWrite r 0x4200 1 [2])

/-- CARDING_RUN_RANGE (R505). -/
def execCardingRunRange (r : Req) (s : State) : Host.Outcome State Fault Refusal :=
  .next (s.hostWrite r 0x4200 1 [3])

/-- CARDING_STOP (R505). -/
def execCardingStop (r : Req) (s : State) : Host.Outcome State Fault Refusal :=
  .next (s.hostWrite r 0x4200 1 [4])

/-- BURN_REPAIRS (R507). -/
def execBurnRepairs (r : Req) (s : State) : Host.Outcome State Fault Refusal :=
  .next (s.hostWrite r 0x4200 1 [5])

/-- LIFECYCLE_COMMAND (R486). -/
def execLifecycleCommand (r : Req) (v : Bytes) (s : State) : Host.Outcome State Fault Refusal :=
  .next (s.hostWrite r 0x4202 2 v)

/-- PROTECTED_KEY_WRITE (R489). -/
def execProtectedKeyWrite (r : Req) (v : Bytes) (s : State) : Host.Outcome State Fault Refusal :=
  .next (s.hostWrite r 0x4202 4 v)

/-- IMAGE_OPEN (R493). -/
def execImageOpen (r : Req) (engine len : Nat) (s : State) : Host.Outcome State Fault Refusal :=
  .next (s.hostWrite r 0x4310 1 ([1] ++ le 1 engine ++ le 2 0 ++ le 4 len))

/-- IMAGE_CHUNK (R493). -/
def execImageChunk (r : Req) (v : Bytes) (s : State) : Host.Outcome State Fault Refusal :=
  .next (s.hostWrite r 0x4310 2 v)

/-- IMAGE_VERIFY (R492). -/
def execImageVerify (r : Req) (engine : Nat) (s : State) : Host.Outcome State Fault Refusal :=
  .next (s.hostWrite r 0x4310 1 ([2] ++ le 1 engine ++ le 6 0))

/-- IMAGE_SWITCH (R496). -/
def execImageSwitch (r : Req) (engine : Nat) (s : State) : Host.Outcome State Fault Refusal :=
  .next (s.hostWrite r 0x4310 1 ([3] ++ le 1 engine ++ le 6 0))

/-- IMAGE_CONFIRM (R495). -/
def execImageConfirm (r : Req) (s : State) : Host.Outcome State Fault Refusal :=
  .next (s.hostWrite r 0x4310 1 ([4] ++ le 7 0))

/-- IMAGE_ABANDON (R493). -/
def execImageAbandon (r : Req) (engine : Nat) (s : State) : Host.Outcome State Fault Refusal :=
  .next (s.hostWrite r 0x4310 1 ([5] ++ le 1 engine ++ le 6 0))

end Sys2Proof.Machine
end

