-- ==== Sys2Proof/Machine/Dispatch.lean ====
section
/-! DEFINITION. What each command does: one arm per row of the opcode table, a direct call of its meaning. -/

namespace Sys2Proof.Machine

def exec (i : Instr) (s : State) : Host.Outcome State Fault Refusal :=
  match i with
  | .powerOn b => Sys2Proof.Machine.execPowerOn b s
  | .ignOn t b => Sys2Proof.Machine.execIgnOn t b s
  | .ignOff t => Sys2Proof.Machine.execIgnOff t s
  | .canAWake b => Sys2Proof.Machine.execCanAWake b s
  | .wakeHoldExpiry => Sys2Proof.Machine.execWakeHoldExpiry s
  | .kaCollapse x => Sys2Proof.Machine.execKaCollapse x s
  | .bootComplete t => Sys2Proof.Machine.execBootComplete t s
  | .crystalStartTimeout t => Sys2Proof.Machine.execCrystalStartTimeout t s
  | .crystalFailure t => Sys2Proof.Machine.execCrystalFailure t s
  | .shutdownComplete t aon => Sys2Proof.Machine.execShutdownComplete t aon s
  | .shutdownOvertime t aon => Sys2Proof.Machine.execShutdownOvertime t aon s
  | .cmdRun r => Sys2Proof.Machine.execCmdRun r s
  | .cmdBare r => Sys2Proof.Machine.execCmdBare r s
  | .cmdSafe r => Sys2Proof.Machine.execCmdSafe r s
  | .cmdReady r => Sys2Proof.Machine.execCmdReady r s
  | .cmdService r => Sys2Proof.Machine.execCmdService r s
  | .stateCommandEffect => Sys2Proof.Machine.execStateCommandEffect s
  | .frameBoundary f => Sys2Proof.Machine.execFrameBoundary f s
  | .frameOverrun => Sys2Proof.Machine.execFrameOverrun s
  | .dieTimeStrobe devPs => Sys2Proof.Machine.execDieTimeStrobe devPs s
  | .pullInStart n railMv supplyMv => Sys2Proof.Machine.execPullInStart n railMv supplyMv s
  | .peakReached n t => Sys2Proof.Machine.execPeakReached n t s
  | .pullInWindowEnd n endMa => Sys2Proof.Machine.execPullInWindowEnd n endMa s
  | .closingCommand n => Sys2Proof.Machine.execClosingCommand n s
  | .decayEnd n t => Sys2Proof.Machine.execDecayEnd n t s
  | .kinkWindowOpen n => Sys2Proof.Machine.execKinkWindowOpen n s
  | .kinkFound n samples => Sys2Proof.Machine.execKinkFound n samples s
  | .kinkWindowClose n => Sys2Proof.Machine.execKinkWindowClose n s
  | .channelOverCurrent n x => Sys2Proof.Machine.execChannelOverCurrent n x s
  | .bankOverCurrent b x => Sys2Proof.Machine.execBankOverCurrent b x s
  | .bankRetryExpiry b => Sys2Proof.Machine.execBankRetryExpiry b s
  | .channelStuckOn n => Sys2Proof.Machine.execChannelStuckOn n s
  | .bankSwitchFault b t => Sys2Proof.Machine.execBankSwitchFault b t s
  | .edgeWordError d c t => Sys2Proof.Machine.execEdgeWordError d c t s
  | .dieRestartDone d t => Sys2Proof.Machine.execDieRestartDone d t s
  | .clearChannelLatch r n => Sys2Proof.Machine.execClearChannelLatch r n s
  | .clearBankLatch r b => Sys2Proof.Machine.execClearBankLatch r b s
  | .railHigh t => Sys2Proof.Machine.execRailHigh t s
  | .railHighClear t => Sys2Proof.Machine.execRailHighClear t s
  | .railFault c t => Sys2Proof.Machine.execRailFault c t s
  | .supplyHigh t => Sys2Proof.Machine.execSupplyHigh t s
  | .prechargeComplete t chargeUc gainedMv => Sys2Proof.Machine.execPrechargeComplete t chargeUc gainedMv s
  | .railDischarged t => Sys2Proof.Machine.execRailDischarged t s
  | .loopStep w x => Sys2Proof.Machine.execLoopStep w x s
  | .loopModeCommand r w mode => Sys2Proof.Machine.execLoopModeCommand r w mode s
  | .regionTableWrite r w j v => Sys2Proof.Machine.execRegionTableWrite r w j v s
  | .coefficientPatch r w j v => Sys2Proof.Machine.execCoefficientPatch r w j v s
  | .commitLoop r w => Sys2Proof.Machine.execCommitLoop r w s
  | .spinnerTransfer k x => Sys2Proof.Machine.execSpinnerTransfer k x s
  | .valveDriveStart h => Sys2Proof.Machine.execValveDriveStart h s
  | .endOfTravel h t => Sys2Proof.Machine.execEndOfTravel h t s
  | .travelTimeout h => Sys2Proof.Machine.execTravelTimeout h s
  | .valveDriveRetry h => Sys2Proof.Machine.execValveDriveRetry h s
  | .motorStall g t => Sys2Proof.Machine.execMotorStall g t s
  | .outputTrip o k t => Sys2Proof.Machine.execOutputTrip o k t s
  | .outputRetryExpiry o => Sys2Proof.Machine.execOutputRetryExpiry o s
  | .clearOutputLatch r o => Sys2Proof.Machine.execClearOutputLatch r o s
  | .loadSwitchCommand r j v => Sys2Proof.Machine.execLoadSwitchCommand r j v s
  | .loadTrip j k t clampMj => Sys2Proof.Machine.execLoadTrip j k t clampMj s
  | .loadRestart j t junction => Sys2Proof.Machine.execLoadRestart j t junction s
  | .loadCounterReset j => Sys2Proof.Machine.execLoadCounterReset j s
  | .loadShedRetry j => Sys2Proof.Machine.execLoadShedRetry j s
  | .clearLoadLatches r j v => Sys2Proof.Machine.execClearLoadLatches r j v s
  | .openLoad j t => Sys2Proof.Machine.execOpenLoad j t s
  | .budgetOverrun => Sys2Proof.Machine.execBudgetOverrun s
  | .supplyFault x c value t => Sys2Proof.Machine.execSupplyFault x c value t s
  | .sensorSupplyOverload a t => Sys2Proof.Machine.execSensorSupplyOverload a t s
  | .sensorSupplyRetry a => Sys2Proof.Machine.execSensorSupplyRetry a s
  | .throttleHoldExpiry d => Sys2Proof.Machine.execThrottleHoldExpiry d s
  | .sensorUnavailableExpiry d => Sys2Proof.Machine.execSensorUnavailableExpiry d s
  | .pulseEdge a t level both held => Sys2Proof.Machine.execPulseEdge a t level both held s
  | .indexEdge p x => Sys2Proof.Machine.execIndexEdge p x s
  | .pulseStopTimeout x => Sys2Proof.Machine.execPulseStopTimeout x s
  | .hallEdge h t x => Sys2Proof.Machine.execHallEdge h t x s
  | .resetUncertainty r a => Sys2Proof.Machine.execResetUncertainty r a s
  | .setCount r a v => Sys2Proof.Machine.execSetCount r a v s
  | .nmeaSentence u t text => Sys2Proof.Machine.execNmeaSentence u t text s
  | .ppsEdge t => Sys2Proof.Machine.execPpsEdge t s
  | .canAMotionMessage t pgn src data => Sys2Proof.Machine.execCanAMotionMessage t pgn src data s
  | .inertialSampleLate => Sys2Proof.Machine.execInertialSampleLate s
  | .standstillBias t => Sys2Proof.Machine.execStandstillBias t s
  | .biasStale t => Sys2Proof.Machine.execBiasStale t s
  | .positionLossHoldExpiry => Sys2Proof.Machine.execPositionLossHoldExpiry s
  | .foldStateWrite r v => Sys2Proof.Machine.execFoldStateWrite r v s
  | .externalTimeout => Sys2Proof.Machine.execExternalTimeout s
  | .hankCreate r body => Sys2Proof.Machine.execHankCreate r body s
  | .hankOpen r body => Sys2Proof.Machine.execHankOpen r body s
  | .hankClose r body => Sys2Proof.Machine.execHankClose r body s
  | .hankDelete r body => Sys2Proof.Machine.execHankDelete r body s
  | .closeSequenceDone t => Sys2Proof.Machine.execCloseSequenceDone t s
  | .hankDeleteDone slot t => Sys2Proof.Machine.execHankDeleteDone slot t s
  | .tileStream r v => Sys2Proof.Machine.execTileStream r v s
  | .tileFillDone col row t corrected crcOk => Sys2Proof.Machine.execTileFillDone col row t corrected crcOk s
  | .tileWriteBack col row t => Sys2Proof.Machine.execTileWriteBack col row t s
  | .tileExportRead r => Sys2Proof.Machine.execTileExportRead r s
  | .parameterRead r idx sub => Sys2Proof.Machine.execParameterRead r idx sub s
  | .parameterWrite r idx sub v => Sys2Proof.Machine.execParameterWrite r idx sub v s
  | .blockWriteSegment r idx sub off total data => Sys2Proof.Machine.execBlockWriteSegment r idx sub off total data s
  | .blockWriteTimeout sid => Sys2Proof.Machine.execBlockWriteTimeout sid s
  | .blockRead r idx sub off => Sys2Proof.Machine.execBlockRead r idx sub off s
  | .blockReadSnapshotExpiry sid => Sys2Proof.Machine.execBlockReadSnapshotExpiry sid s
  | .commit r payload => Sys2Proof.Machine.execCommit r payload s
  | .commitBoundary => Sys2Proof.Machine.execCommitBoundary s
  | .discardStaged r => Sys2Proof.Machine.execDiscardStaged r s
  | .configurationImage r v => Sys2Proof.Machine.execConfigurationImage r v s
  | .digestRecheck t found => Sys2Proof.Machine.execDigestRecheck t found s
  | .descriptionBlockRead r => Sys2Proof.Machine.execDescriptionBlockRead r s
  | .pagrimFrameDiscard net why => Sys2Proof.Machine.execPagrimFrameDiscard net why s
  | .hostHeartbeat sid payload t => Sys2Proof.Machine.execHostHeartbeat sid payload t s
  | .deviceHeartbeat net t => Sys2Proof.Machine.execDeviceHeartbeat net t s
  | .sessionTimeout sid => Sys2Proof.Machine.execSessionTimeout sid s
  | .hostLoss => Sys2Proof.Machine.execHostLoss s
  | .timeService r payload => Sys2Proof.Machine.execTimeService r payload s
  | .challengeRead r => Sys2Proof.Machine.execChallengeRead r s
  | .responseWrite r v => Sys2Proof.Machine.execResponseWrite r v s
  | .relock r => Sys2Proof.Machine.execRelock r s
  | .raisedLevelTimeout => Sys2Proof.Machine.execRaisedLevelTimeout s
  | .challengeLockoutEnd => Sys2Proof.Machine.execChallengeLockoutEnd s
  | .canBusOff c t => Sys2Proof.Machine.execCanBusOff c t s
  | .ethLinkUp t => Sys2Proof.Machine.execEthLinkUp t s
  | .arpRequest t senderIp senderMac targetIp => Sys2Proof.Machine.execArpRequest t senderIp senderMac targetIp s
  | .icmpEcho t srcIp dstIp data => Sys2Proof.Machine.execIcmpEcho t srcIp dstIp data s
  | .gptpMessage t m => Sys2Proof.Machine.execGptpMessage t m s
  | .wallSourceTimeout w => Sys2Proof.Machine.execWallSourceTimeout w s
  | .addressClaim t e => Sys2Proof.Machine.execAddressClaim t e s
  | .addressRetry t => Sys2Proof.Machine.execAddressRetry t s
  | .tcMessage t m => Sys2Proof.Machine.execTcMessage t m s
  | .tcDisconnect t => Sys2Proof.Machine.execTcDisconnect t s
  | .hitchPtoMessage t a data => Sys2Proof.Machine.execHitchPtoMessage t a data s
  | .recordIngest => Sys2Proof.Machine.execRecordIngest s
  | .heldRecordRelease src => Sys2Proof.Machine.execHeldRecordRelease src s
  | .limitedSecondEnd => Sys2Proof.Machine.execLimitedSecondEnd s
  | .lossRecord => Sys2Proof.Machine.execLossRecord s
  | .recordWrite => Sys2Proof.Machine.execRecordWrite s
  | .logRowFailure t row => Sys2Proof.Machine.execLogRowFailure t row s
  | .alarmWindowEnd code => Sys2Proof.Machine.execAlarmWindowEnd code s
  | .exportBlockRead r b => Sys2Proof.Machine.execExportBlockRead r b s
  | .clearLastWord r => Sys2Proof.Machine.execClearLastWord r s
  | .epochCopyWrite t => Sys2Proof.Machine.execEpochCopyWrite t s
  | .timeMark => Sys2Proof.Machine.execTimeMark s
  | .faultDetected t ext => Sys2Proof.Machine.execFaultDetected t ext s
  | .clearFaults r => Sys2Proof.Machine.execClearFaults r s
  | .coresStop t c => Sys2Proof.Machine.execCoresStop t c s
  | .coresReturn t => Sys2Proof.Machine.execCoresReturn t s
  | .coastWindowExpiry => Sys2Proof.Machine.execCoastWindowExpiry s
  | .cardingSlice t x => Sys2Proof.Machine.execCardingSlice t x s
  | .cardingRunAll r => Sys2Proof.Machine.execCardingRunAll r s
  | .cardingRunCore r => Sys2Proof.Machine.execCardingRunCore r s
  | .cardingRunRange r => Sys2Proof.Machine.execCardingRunRange r s
  | .cardingStop r => Sys2Proof.Machine.execCardingStop r s
  | .burnRepairs r => Sys2Proof.Machine.execBurnRepairs r s
  | .lifecycleCommand r v => Sys2Proof.Machine.execLifecycleCommand r v s
  | .protectedKeyWrite r v => Sys2Proof.Machine.execProtectedKeyWrite r v s
  | .imageOpen r engine len => Sys2Proof.Machine.execImageOpen r engine len s
  | .imageChunk r v => Sys2Proof.Machine.execImageChunk r v s
  | .imageVerify r engine => Sys2Proof.Machine.execImageVerify r engine s
  | .imageSwitch r engine => Sys2Proof.Machine.execImageSwitch r engine s
  | .imageSwitchBoundary dieReady => Sys2Proof.Machine.execImageSwitchBoundary dieReady s
  | .imageConfirm r => Sys2Proof.Machine.execImageConfirm r s
  | .imageAbandon r engine => Sys2Proof.Machine.execImageAbandon r engine s
  | .barePullInRetry n => Sys2Proof.Machine.execBarePullInRetry n s
  | .supplyHighClear t => Sys2Proof.Machine.execSupplyHighClear t s
  | .ethLinkDown t => Sys2Proof.Machine.execEthLinkDown t s
  | .arpCacheExpiry ip => Sys2Proof.Machine.execArpCacheExpiry ip s
  | .busOffRecovery c t => Sys2Proof.Machine.execBusOffRecovery c t s
  | .taskControllerStatus t m => Sys2Proof.Machine.execTaskControllerStatus t m s
  | .timeIntervalTrigger ddi t => Sys2Proof.Machine.execTimeIntervalTrigger ddi t s
  | .peerDelayRequest t => Sys2Proof.Machine.execPeerDelayRequest t s

end Sys2Proof.Machine
end

