-- ==== Sys2Proof/Safety.lean ====
section
/-! DEFINITION. What a run keeps and what a quiet module is, in the terms the statements use. -/

namespace Sys2Proof.Machine

/-- The order of life-cycle states that fuses make irreversible (R486): FIELD and SERVICE stand on one level, since a cold
start returns SERVICE to FIELD. -/
def lifeRank (l : Nat) : Nat := if l = 3 then 2 else l

/-- The life-cycle code is one of the four states (R486): 1 MANUFACTURE, 2 FIELD, 3 SERVICE, 4 SCRAPPED. -/
def State.lifeLegal (s : State) : Prop := 1 ≤ s.card.life ∧ s.card.life ≤ 4

/-- A state in which the MRAM list stands in its canonical form and the life-cycle code is legal. -/
def State.sound (s : State) : Prop := Memory.wf s.mram ∧ s.lifeLegal

/-- What no command undoes: Izcel time never decreases (R34), MRAM stays in its canonical form, the rollback counter never
falls (R495), the PROTECTED key once written stays (R489), no irreversible life-cycle transition is reversed (R486); and
the queue of waiting commands is not touched by a meaning. -/
structure Later (r s : State) : Prop where
  it    : r.it ≤ s.it
  mem   : Memory.wf r.mram → Memory.wf s.mram
  queue : s.pending = r.pending
  roll  : r.card.rollback ≤ s.card.rollback
  key   : ∀ k, r.card.key = some k → s.card.key = some k
  life  : lifeRank r.card.life ≤ lifeRank s.card.life
  legal : r.lifeLegal → s.lifeLegal

/-- The parts of the state, each a field of it. -/
inductive Part where
  | it | time | power | motion | rov | spd | dis | rate | chan | banks
  | dies | bob | whorl | spin | bridges | ports | loads | budget | therm | dict
  | nets | skein | sup | card | mram | undo | freeCtr | pending
  deriving DecidableEq, Repr

/-- Two states agree on a part; on MRAM byte by byte. -/
def Part.same (p : Part) (s t : State) : Prop :=
  match p with
  | .it => t.it = s.it
  | .time => t.time = s.time
  | .power => t.power = s.power
  | .motion => t.motion = s.motion
  | .rov => t.rov = s.rov
  | .spd => t.spd = s.spd
  | .dis => t.dis = s.dis
  | .rate => t.rate = s.rate
  | .chan => t.chan = s.chan
  | .banks => t.banks = s.banks
  | .dies => t.dies = s.dies
  | .bob => t.bob = s.bob
  | .whorl => t.whorl = s.whorl
  | .spin => t.spin = s.spin
  | .bridges => t.bridges = s.bridges
  | .ports => t.ports = s.ports
  | .loads => t.loads = s.loads
  | .budget => t.budget = s.budget
  | .therm => t.therm = s.therm
  | .dict => t.dict = s.dict
  | .nets => t.nets = s.nets
  | .skein => t.skein = s.skein
  | .sup => t.sup = s.sup
  | .card => t.card = s.card
  | .mram => ∀ a, Memory.read t.mram a = Memory.read s.mram a
  | .undo => t.undo = s.undo
  | .freeCtr => t.freeCtr = s.freeCtr
  | .pending => t.pending = s.pending

/-- Everything but the listed parts is unchanged. -/
def Unchanged (ps : List Part) (s t : State) : Prop := ∀ p, p ∉ ps → p.same s t

/-- A request that the module receives and serves as a new one: its network is up, the cores run, session `x`, no session 0, is its
sender's, its sequence number is none of those remembered, and fewer than 16 requests of the session wait (R29, R398, R401 to R403). -/
structure State.Serves (s : State) (r : Req) (x : Session) : Prop where
  net   : s.netUp r.sid.net = true
  cores : s.coresAbsent = false
  known : s.session r.sid = some x
  fresh : x.done.find? (fun d => d.seq == r.seq) = none
  byte  : r.sid.byte ≠ 0
  few   : s.outstanding r.sid < 16

/-- A write that the dictionary may take from session `x`: at level CONTROL at least, outside BOOT, with no COMMIT waiting
and a sound store (R371, R378, R381, R383). -/
structure State.Takes (s : State) (r : Req) (x : Session) : Prop extends State.Serves s r x where
  level  : 1 ≤ x.level
  store  : s.dict.storeBad = false
  commit : s.dict.commit = none
  dev    : s.power.dev ≠ .boot

/-- The state in which a request is served: Izcel time at its receipt, its frame counted. -/
def State.served (s : State) (r : Req) : State := (s.at r.rx).heard r.sid.net

/-- The state in which a BLOCK-READ from offset 0 takes its value: the session's old snapshot is gone (R408). -/
def State.servedBlock (s : State) (r : Req) : State := (s.served r).modSession r.sid (fun x => { x with bs := none })

/-- `t` answers an accepted write of `s`: counted, at its receipt, and its reply of abort code 0 remembered (R371, R402). -/
def State.Accepted (s t : State) (r : Req) : Prop :=
  t.dict.accepted = sat32 (s.dict.accepted + 1) ∧ t.dict.refused = s.dict.refused ∧ t.it = max s.it r.rx ∧
  ∃ y d, t.session r.sid = some y ∧ y.done.head? = some d ∧ d.seq = r.seq ∧ d.crc = r.crc ∧ natAt d.reply 0 1 = 0

/-- The reply `b` of a request: remembered with the session and handed to its network. -/
def State.Replied (t : State) (r : Req) (service idx sub : Nat) (b : Bytes) : Prop :=
  (∃ y, t.session r.sid = some y ∧ y.done.head? = some ⟨r.seq, r.crc, b⟩) ∧
  t.nets.tx.getLast? = some (t.pagrimSent r.sid.net r.sid.addr r.sid.port r.sid.byte r.seq (service + 128) idx sub 0 b)

/-- No nozzle channel pulls in or holds, and no bridge or port drives its load. -/
def State.quiet (s : State) : Bool :=
  s.chan.toList.all (fun c => c.state != 1 && c.state != 2) &&
  s.bridges.toList.all (fun b => b.drive.isNone) && s.ports.toList.all (fun p => !p.driving)

end Sys2Proof.Machine
end

