-- ==== Sys2Proof/Certificates/Slice0/Obligations.lean ====
section
/-! DEFINITION. The statements for the provers: what the commands do to the state, by family, and what every step keeps. -/

open Sys2Proof Sys2Proof.Machine

/-- A step runs the command at the front of the queue (R475). The block takes its commands first in, first out. The model's choice (Assumption 2): the queue of commands and its order. -/
def Obligations.StepTakesFront : Prop :=
  ∀ (c : Instr) (s : State), step { s with pending := c :: s.pending } = exec c s

/-- A step on an empty queue leaves the state as it is (R17). Time moves with the commands that carry it. The model's choice (Assumption 1): that a step on an empty queue idles. -/
def Obligations.EmptyQueueIdles : Prop :=
  ∀ s : State, s.pending = [] → step s = .next s

/-- No command stops the block (R474). An event that cannot happen in a state changes nothing (R474); none of the table's commands stops. The model's choice (Assumption 25): that an event the rules do not give in a state changes nothing. -/
def Obligations.EveryCommandAnswers : Prop :=
  ∀ (c : Instr) (s : State), ∃ t, exec c s = .next t ∧ t.pending = s.pending

/-- What no step undoes (R34, R486, R489, R495). The model's choice (Assumptions 13, 26): that Izcel time never falls over a cold start and stands still in No supply and STANDBY. -/
def Obligations.NothingIsUndone : Prop :=
  ∀ s t : State, step s = .next t →
    s.it ≤ t.it ∧ (Memory.wf s.mram → Memory.wf t.mram) ∧ s.card.rollback ≤ t.card.rollback ∧
    (∀ k, s.card.key = some k → t.card.key = some k) ∧ lifeRank s.card.life ≤ lifeRank t.card.life ∧
    (State.lifeLegal s → State.lifeLegal t) ∧ t.pending = s.pending.tail

/-- The state after reset is sound (R485, R486). The model's choice (Assumption 7): the factory-fresh images and store. -/
def Obligations.SoundReset : Prop :=
  State.sound State.reset

/-- Every step keeps the state sound (R447, R486, R490). -/
def Obligations.SoundKept : Prop :=
  ∀ s t : State, s.sound → step s = .next t → t.sound

/-- A due opening edge starts a pull-in, or is NOT-OPENED (R211, R212, R214, R223, R224). The model's choice (Assumptions 51, 91, 96, 143): the class F values latched at the start, when the common moves, the closing instant of a reservation from SUPPLY, and that an edge on a disabled channel is void. -/
def Obligations.PullInEdges : Prop :=
  (∀ (n : Fin 128) (railMv supplyMv : Nat) (e : DieEdge) (s : State),
    (s.ch n).nextOpen = some e → (s.ch n).state ≠ 1 → (s.ch n).state ≠ 2 → s.chEnabled n = true → s.pullRefused n e.pct = false →
    ∃ t, exec (.pullInStart n railMv supplyMv) s = .next t ∧
      (t.ch n).state = 1 ∧ (t.ch n).pull.start = e.it ∧ (t.ch n).pull.ipk = s.pN (0x3000 + n.val) 4 * e.pct / 100 ∧
      (t.ch n).edges = (s.ch n).edges.erase e ∧ t.it = max s.it e.it ∧
      vget (t.ch n).counters 0 0 = sat32 (vget (s.ch n).counters 0 0 + 1) ∧
      (s.bankBoost (n.val / 8) = true → (t.bank (n.val / 8)).common = 2) ∧
      (∀ m, m ≠ n.val → t.ch m = s.ch m) ∧ (∀ b, b ≠ n.val / 8 → t.bank b = s.bank b) ∧
      Unchanged [.it, .chan, .banks, .dis] s t) ∧
   (∀ (n : Fin 128) (railMv supplyMv : Nat) (e : DieEdge) (s : State),
    (s.ch n).nextOpen = some e → (s.ch n).state ≠ 1 → (s.ch n).state ≠ 2 → s.chEnabled n = true → s.pullRefused n e.pct = true →
    ∃ t, exec (.pullInStart n railMv supplyMv) s = .next t ∧
      (t.ch n).state = (s.ch n).state ∧ (t.ch n).edges = (s.ch n).edges.erase e ∧
      vget (t.ch n).counters 1 0 = sat32 (vget (s.ch n).counters 1 0 + 1) ∧
      (∀ m, m ≠ n.val → t.ch m = s.ch m) ∧ Unchanged [.it, .chan] s t) ∧
   (∀ (n : Fin 128) (railMv supplyMv : Nat) (e : DieEdge) (s : State), (s.ch n).nextOpen = some e →
    ((s.ch n).state = 1 ∨ (s.ch n).state = 2 ∨ s.chEnabled n = false) →
    ∃ t, exec (.pullInStart n railMv supplyMv) s = .next t ∧ t.it = max s.it e.it ∧
      t.ch n = { s.ch n with edges := (s.ch n).edges.erase e } ∧
      (∀ m, m ≠ n.val → t.ch m = s.ch m) ∧ Unchanged [.it, .chan] s t)

/-- The peak and the end of a pull-in window (R214, R221). The model's choice (Assumption 4): the measured supply current drawn where none is stated. -/
def Obligations.PullInWindow : Prop :=
  (∀ (n : Fin 128) (at_ : IT) (s : State), (s.ch n).state = 1 → (s.ch n).pull.reach = none →
    ∃ t, exec (.peakReached n at_) s = .next t ∧
      (t.ch n).pull.reach = some at_ ∧ (t.ch n).pull.opened = some (at_ + s.travel n (s.ch n).pull.ipk) ∧
      (t.ch n).state = 1 ∧
      (vget t.dis.sprays n []).getLast?.map (fun y => (y.pull, y.start, y.cmd)) =
        some ((s.ch n).pull.start, at_ + s.travel n (s.ch n).pull.ipk + s.onOffset n, none) ∧
      (∀ m, m ≠ n.val → t.ch m = s.ch m) ∧ Unchanged [.it, .chan, .dis] s t) ∧
   (∀ (n : Fin 128) (endMa : Nat) (s : State), (s.ch n).state = 1 →
    ∃ t, exec (.pullInWindowEnd n endMa) s = .next t ∧
      (t.ch n).state = 2 ∧ t.it = max s.it (s.ch n).pull.ends ∧
      ((t.ch n).peakShort = true ↔ (s.ch n).peakShort = true ∨ (s.ch n).pull.reach = none) ∧
      ((s.ch n).pull.reach = none → 0 < endMa → (t.ch n).pull.opened = some ((s.ch n).pull.ends + s.travel n endMa)) ∧
      (∀ m, m ≠ n.val → t.ch m = s.ch m) ∧ Unchanged [.it, .chan, .banks, .dis, .budget, .freeCtr] s t)

/-- A closing edge and the end of its decay (R26, R216, R225, R226). The model's choice (Assumption 91): V_d while a channel does not recover, and the effective peak in a report. -/
def Obligations.NozzleClosing : Prop :=
  (∀ (n : Fin 128) (e : DieEdge) (s : State), (s.ch n).nextClose = some e → ((s.ch n).state = 1 ∨ (s.ch n).state = 2) →
    ∃ t, exec (.closingCommand n) s = .next t ∧
      (t.ch n).state = 3 ∧ (t.ch n).ocCount = 0 ∧ t.it = max s.it e.it ∧
      (t.ch n).closings.getLast?.map (fun y => (y.cmd, y.opensAt, y.endsAt)) =
        some (e.it, e.it + (e.c - s.kinkHalf n), e.it + e.c + s.kinkHalf n) ∧
      (t.ch n).edges = (s.ch n).edges.erase e ∧
      (∀ m, m ≠ n.val → t.ch m = s.ch m) ∧ (∀ b, b ≠ n.val / 8 → t.bank b = s.bank b) ∧
      Unchanged [.it, .chan, .banks, .dis, .budget] s t) ∧
   (∀ (n : Fin 128) (at_ : IT) (cl : Closing) (s : State), (s.ch n).decaying = some cl →
    ∃ t, exec (.decayEnd n at_) s = .next t ∧ (t.ch n).state = 0 ∧
      (t.ch n).closings = ((s.ch n).closings.map (fun y =>
        if y.cmd = cl.cmd then { y with decayed := some at_, opensAt := max y.opensAt (at_ + 50000) } else y)).filter
          (fun y => y.window || y.decayed.isNone) ∧
      (t.ch n).decays = (if cl.clamped then (s.ch n).decays else ((at_ - cl.cmd) :: (s.ch n).decays).take 16) ∧
      (∀ m, m ≠ n.val → t.ch m = s.ch m) ∧ Unchanged [.it, .chan, .banks] s t)

/-- The kink window of a closing (R227, R228, R231). The model's choice (Assumptions 50, 93, 101): the instant of a kink average, the order of the windows, and the report at every further miss. -/
def Obligations.KinkWindow : Prop :=
  (∀ (n : Fin 128) (cl : Closing) (s : State), (s.ch n).closings.find? (·.waits) = some cl → cl.kink = none →
    s.windowsDue (n.val / 32) cl.opensAt n = [(n.val, cl)] →
    ∃ t, exec (.kinkWindowOpen n) s = .next t ∧ t.it = max s.it cl.opensAt ∧
      (s.convUsed (n.val / 32) cl.opensAt < 4 → (t.ch n).lastUnobs = false ∧
        (t.ch n).closings = (s.ch n).closings.map (fun y => if y.cmd = cl.cmd then { y with convOn := true } else y)) ∧
      (4 ≤ s.convUsed (n.val / 32) cl.opensAt → (t.ch n).lastUnobs = true ∧
        (t.ch n).closings = (s.ch n).closings.map (fun y =>
          if y.cmd = cl.cmd then { y with window := false, convOn := false } else y)) ∧
      (∀ m, m ≠ n.val → t.ch m = s.ch m) ∧ (∀ d, d ≠ n.val / 32 → t.die d = s.die d) ∧
      Unchanged [.it, .chan, .dies, .dis] s t) ∧
   (∀ (n : Fin 128) (l : List Int) (cl : Closing) (i : Nat) (s : State),
    (s.ch n).closings.find? (fun y => y.convOn && y.kink.isNone) = some cl → kinkIndex (s.pN (0x3000 + n.val) 0xB) l 0 = some i →
    ∃ t, exec (.kinkFound n l) s = .next t ∧
      (t.ch n).closings = (s.ch n).closings.map (fun y =>
        if y.cmd = cl.cmd then { y with kink := some (cl.opensAt + 10000 * i) } else y) ∧
      (t.ch n).misses = 0 ∧ (t.ch n).kinkMiss = false ∧ (t.ch n).lastKink = cl.opensAt + 10000 * i ∧
      (∀ y ∈ vget t.dis.sprays n [], y.cmd = some cl.cmd → y.stop.isSome = true) ∧
      (∀ m, m ≠ n.val → t.ch m = s.ch m) ∧ Unchanged [.it, .chan, .dis] s t) ∧
   (∀ (n : Fin 128) (cl : Closing) (s : State), (s.ch n).closings.find? (·.window) = some cl → cl.kink = none →
    ∃ t, exec (.kinkWindowClose n) s = .next t ∧
      (t.ch n).closings = ((s.ch n).closings.map (fun y => if y.cmd = cl.cmd then { y with window := false, convOn := false } else y)).filter
        (fun y => y.cmd != cl.cmd || y.decayed.isNone) ∧ (t.ch n).misses = (s.ch n).misses + 1 ∧
      t.sup.reported = s.sup.reported ++ (if 2 ≤ (s.ch n).misses then [s.faultNow 0xE007 n [] (max s.it cl.endsAt)] else []) ∧
      (∀ m, m ≠ n.val → t.ch m = s.ch m) ∧ Unchanged [.it, .chan, .dis, .sup] s t)

/-- Over-current of a channel and a channel stuck on (R234, R236). The model's choice (Assumption 3): that the trip carries its measured current. -/
def Obligations.ChannelTrips : Prop :=
  (∀ (n : Fin 128) (x : TripIn) (s : State), ((s.ch n).state = 1 ∨ (s.ch n).state = 2) → s.ocThreshold n < x.ma →
    max (s.ch n).pull.start x.onAt + 1000 ≤ x.at_ →
    ∃ t, exec (.channelOverCurrent n x) s = .next t ∧
      (t.ch n).state = 3 ∧ (t.ch n).ocCount = (s.ch n).ocCount + 1 ∧
      ((t.ch n).ocLatch = true ↔ (s.ch n).ocLatch = true ∨ s.pN (0x3000 + n.val) 0xC < (s.ch n).ocCount + 1) ∧
      (s.pN (0x3000 + n.val) 0xC < (s.ch n).ocCount + 1 →
        t.sup.reported = s.sup.reported ++ [s.faultNow 0xE003 n [] (max s.it x.at_)] ∧
        t.skein.arriving = s.skein.arriving ++ [⟨0x6003, max s.it x.at_, s.time.boot, n, []⟩]) ∧
      (∀ m, m ≠ n.val → t.ch m = s.ch m) ∧ Unchanged [.it, .chan, .banks, .dis, .budget, .skein, .sup] s t) ∧
   (∀ (n : Fin 128) (c : IT) (s : State), (s.ch n).lastCmd = some c → (s.ch n).state ≠ 1 → (s.ch n).state ≠ 2 →
    ∃ t, exec (.channelStuckOn n) s = .next t ∧ t.it = max s.it (c + 1000000) ∧
      (t.ch n).stuck = true ∧ (t.bank (n.val / 8)).stuck = true ∧
      ((s.die (n.val / 8 / 4)).state ≠ 2 → (t.bank (n.val / 8)).common = 0) ∧
      t.sup.reported = s.sup.reported ++ [s.faultNow 0xE006 n [] (max s.it (c + 1000000))] ∧
      (∀ m, m ≠ n.val → t.ch m = s.ch m) ∧ (∀ b, b ≠ n.val / 8 → t.bank b = s.bank b) ∧
      Unchanged [.it, .chan, .banks, .sup] s t)

/-- A bank trips and is available again (R235). The model's choice (Assumption 50): that the channels close at one instant, judged by the common before it. -/
def Obligations.BankTrips : Prop :=
  (∀ (b : Fin 16) (x : TripIn) (s : State), s.bankOut b = false → (s.bank b).limit < x.ma →
    ∃ t, exec (.bankOverCurrent b x) s = .next t ∧
      (t.bank b).tripTill = some (x.at_ + s.pN (0x3080 + b.val) 4 * 1000000) ∧
      ((s.die (b.val / 4)).state ≠ 2 → (t.bank b).common = 0) ∧
      (t.bank b).trips = ((s.bank b).trips ++ [x.at_]).filter (fun y => decide (x.at_ ≤ y + 10000000000)) ∧
      (t.bank b).ocLatch = decide (s.pN (0x3080 + b.val) 3 < (t.bank b).trips.length) ∧
      t.sup.reported = s.sup.reported ++
        (if s.pN (0x3080 + b.val) 3 < (t.bank b).trips.length then [s.faultNow 0xE004 b [] (max s.it x.at_)] else []) ∧
      (∀ n ∈ bankChannels b, (t.ch n).state ≠ 1 ∧ (t.ch n).state ≠ 2) ∧
      (∀ k, k ≠ b.val → t.bank k = s.bank k) ∧ Unchanged [.it, .chan, .banks, .dis, .budget, .sup] s t) ∧
   (∀ (b : Fin 16) (x : IT) (s : State), (s.bank b).tripTill = some x →
    ∃ t, exec (.bankRetryExpiry b) s = .next t ∧ t.it = max s.it x ∧
      (t.bank b).tripTill = none ∧ (t.bankOut b = ((s.bank b).ocLatch || (s.bank b).stuck || s.contained 0xE004 b)) ∧
      (∀ k, k ≠ b.val → t.bank k = s.bank k) ∧ Unchanged [.it, .banks] s t)

/-- A bank commanded OPEN whose common stays up (R237). -/
def Obligations.SwitchFault : Prop :=
  ∀ (b : Fin 16) (at_ : IT) (s : State), s.power.dev.awake = true → s.commonAt b at_ = 0 →
    ∃ t, exec (.bankSwitchFault b at_) s = .next t ∧ (t.bank b).swFault = true ∧
      t.sup.reported = s.sup.reported ++ [s.faultNow 0xE006 (128 + b.val) [] (max s.it at_)] ∧
      t.chan = s.chan ∧ (∀ k, k ≠ b.val → t.bank k = s.bank k) ∧ Unchanged [.it, .banks, .sup] s t

/-- A drive die resets and restarts (R232, R239, R240). The model's choice (Assumption 52): the instant and subject of the DIE-RESET record. -/
def Obligations.DieResets : Prop :=
  (∀ (d : Fin 4) (c : EdgeCause) (at_ : IT) (s : State), (s.die d).state = 1 →
    ∃ t, exec (.edgeWordError d c at_) s = .next t ∧
      (t.die d).state = 2 ∧ (t.die d).last = at_ ∧ (t.die d).resets = sat32 ((s.die d).resets + 1) ∧
      (t.die d).cause = (match c with | .parity => 1 | .sequence => 2 | .watchdog => 3) ∧
      t.skein.arriving = s.skein.arriving ++ [⟨0x6005, at_, s.time.boot, d, le 1 (t.die d).cause⟩] ∧
      (∀ n ∈ dieChannels d, (t.ch n).edges = (s.ch n).edges ∧ (t.ch n).state ≠ 1 ∧ (t.ch n).state ≠ 2) ∧
      (∀ n, n / 32 ≠ d.val → t.ch n = s.ch n) ∧
      Unchanged [.it, .chan, .banks, .dies, .dis, .budget, .therm, .skein, .sup] s t) ∧
   (∀ (d : Fin 4) (at_ : IT) (s : State), (s.die d).state = 2 →
    ∃ t, exec (.dieRestartDone d at_) s = .next t ∧
      (t.die d).state = 1 ∧ vget t.therm.unavail d none = none ∧
      (∀ n ∈ dieChannels d, (t.ch n).state = 0 ∧ (t.ch n).closings = [] ∧ (t.ch n).tw = (s.ch n).twCopy ∧
        (t.ch n).tb = (s.ch n).tbCopy ∧ (t.ch n).edges = (s.ch n).edges.filter (fun e => decide (at_ < e.it)) ∧
        vget (t.ch n).counters 1 0 =
          sat32 (vget (s.ch n).counters 1 0 + ((s.ch n).edges.filter (fun e => e.opens && !decide (at_ < e.it))).length)) ∧
      (∀ n, n / 32 ≠ d.val → t.ch n = s.ch n) ∧ Unchanged [.it, .chan, .banks, .dies, .therm, .undo] s t)

/-- What the rail reports, its precharge and its discharge (R250, R251, R255). The model's choice (Assumptions 53, 95): when active discharge begins, and that P 0x3090.0C holds the latest fault. -/
def Obligations.RailState : Prop :=
  (∀ (x : IT) (s : State), s.power.dev.awake = true → s.bob.railHigh = false →
    ∃ t, exec (.railHigh x) s = .next t ∧ t.bob = { s.bob with railHigh := true } ∧ Unchanged [.it, .chan, .banks, .bob] s t) ∧
   (∀ (x : IT) (s : State), s.power.dev.awake = true →
    (∃ t, exec (.railHighClear x) s = .next t ∧ t.bob = { s.bob with railHigh := false } ∧ Unchanged [.it, .bob] s t) ∧
    (∃ t, exec (.supplyHigh x) s = .next t ∧ t.bob = { s.bob with supHigh := true, ret := false } ∧ Unchanged [.it, .bob] s t) ∧
    (∃ t, exec (.supplyHighClear x) s = .next t ∧ t.bob = { s.bob with supHigh := false } ∧ Unchanged [.it, .bob] s t)) ∧
   (∀ (c : RailCause) (x : IT) (s : State), s.power.dev.awake = true →
    (c = .underVoltage → s.power.dev = .run ∨ s.power.dev = .bare) →
    ∃ t, exec (.railFault c x) s = .next t ∧ t.bob.state = (if s.bobbinEnabled then 5 else s.bob.state) ∧ t.bob.cause = railCauseCode c ∧ t.bob.ret = false ∧
      t.sup.reported = s.sup.reported ++ [s.faultNow 0xE009 (railCauseCode c) [] (max s.it x)] ∧ Unchanged [.it, .bob, .sup] s t) ∧
   (∀ (x : IT) (q mv : Nat) (s : State), s.bob.state = 1 →
    ∃ t, exec (.prechargeComplete x q mv) s = .next t ∧ t.bob.state = 2 ∧ t.bob.target = s.pN 0x3090 2 ∧
      (mv < 10000 → t.bob.capUf = s.bob.capUf ∧ t.skein = s.skein) ∧
      (10000 ≤ mv → t.bob.capUf = some (q * 1000 / mv) ∧
        (t.bob.mismatch = true ↔ 3 * (10 * (470 + s.pN 0x3090 3)) <
          100 * (((q * 1000 / mv : Nat) : Int) - ((470 + s.pN 0x3090 3 : Nat) : Int)).natAbs) ∧
        t.skein.arriving = s.skein.arriving ++
          (if t.bob.mismatch then [⟨0x7001, max s.it x, s.time.boot, 0, []⟩] else [])) ∧
      Unchanged [.it, .bob, .skein] s t) ∧
   (∀ (x : IT) (s : State), s.power.dev.awake = true → s.bob.discharging = true → s.bob.state ≠ 5 →
    (s.power.dev ≠ .shutdown → ∃ t, exec (.railDischarged x) s = .next t ∧
      t.bob = { s.bob with discharging := false, rail := min s.bob.rail 4999, state := 0 } ∧ Unchanged [.it, .bob] s t) ∧
    (s.power.dev = .shutdown → s.power.stage < 5 → ∃ t, exec (.railDischarged x) s = .next t ∧
      t.bob = { s.bob with discharging := false, rail := min s.bob.rail 4999 } ∧ Unchanged [.it, .bob] s t))

/-- A step of a loop in use (R259, R260, R282, R283). The model's choice (Assumption 54): how a rejected sample and a late step count. -/
def Obligations.LoopSteps : Prop :=
  ∀ (w : Fin 8) (x : LoopIn) (s : State), s.power.dev = .run → s.lpOn w = true →
    ∃ t, exec (.loopStep w x) s = .next t ∧ t.it = max s.it (s.stepIt w) ∧ (t.lp w).last = s.stepIt w ∧
      t.whorl.late = (if x.late then sat32 (s.whorl.late + 1) else s.whorl.late) ∧
      (∀ v, v ≠ w.val → t.lp v = s.lp v) ∧
      Unchanged [.it, .whorl, .spin, .bridges, .ports, .loads, .budget, .skein, .sup, .freeCtr] s t

/-- A spinner ends its period (R289, R292, R299). The model's choice (Assumption 116): the band in which a settled current command holds the measured current. -/
def Obligations.SpinnerTransfers : Prop :=
  ∀ (k : Fin 16) (x : StageIn) (d : Nat) (s : State), (s.sp k).live = true → d = s.pN (0x3400 + k.val) 1 →
    ∃ t, exec (.spinnerTransfer k x) s = .next t ∧ t.it = max s.it (tickNs (s.sp k).ends) ∧
      (t.sp k).start = (s.sp k).ends ∧ (t.sp k).m = (s.sp k).m + 1 ∧
      (t.sp k).cur.duty = (s.sp k).shadow.duty ∧
      (1 ≤ d → d ≤ 4 → (t.br (d - 1)).current =
        (if s.brMode (d - 1) = 1 then (s.spinTransfer k).heldMa (d - 1) x.meanMa else x.meanMa)) ∧ (d = 5 ∨ d = 6 → (t.pt (d - 5)).link = x.linkMa) ∧
      (∀ j, j ≠ k.val → t.sp j = s.sp j) ∧ Unchanged [.it, .spin, .bridges, .ports, .freeCtr] s t

/-- A valve drive begins in either direction, and ends (R26, R309, R310, R311, R316, R345). The model's choice (Assumptions 98, 142): that a drive which tripped is made again, and that OPEN drives DRIVE-AB. -/
def Obligations.ValveDrives : Prop :=
  (∀ (h : Fin 4) (e : DieEdge) (es : List DieEdge) (s : State), (s.br h).edges = e :: es → s.brFree h = true → e.opens = false →
    ∃ t, exec (.valveDriveStart h) s = .next t ∧ t.it = max s.it e.it ∧
      (t.br h).drive = some (false, max s.it e.it, s.pN (0x3500 + h.val) 6 * 100) ∧ (t.br h).valve = 4 ∧
      (t.br h).edges = es ∧ (∀ g, g ≠ h.val → t.br g = s.br g) ∧ Unchanged [.it, .dis, .spin, .bridges, .budget, .freeCtr] s t) ∧
   (∀ (h : Fin 4) (e : DieEdge) (es : List DieEdge) (s : State), (s.br h).edges = e :: es → s.brFree h = false →
    ∃ t, exec (.valveDriveStart h) s = .next t ∧ t.br h = { s.br h with edges := es, again := some (e.opens, false) } ∧
      (∀ g, g ≠ h.val → t.br g = s.br g) ∧ Unchanged [.it, .bridges] s t) ∧
   (∀ (h : Fin 4) (x : TravelIn) (o : Bool) (t0 : IT) (p : Nat) (s : State), (s.br h).drive = some (o, t0, p) → t0 + 120000000 ≤ x.at_ →
    s.pN (0x3500 + h.val) 7 < x.ma →
    ∃ t, exec (.endOfTravel h x) s = .next t ∧ (t.br h).drive = none ∧ (t.br h).endTrav = true ∧
      (t.br h).valve = (if o then 1 else 2) ∧ (t.br h).state = 4 ∧
      (∀ g, g ≠ h.val → t.br g = s.br g) ∧ Unchanged [.it, .spin, .bridges] s t) ∧
   (∀ (h : Fin 4) (o : Bool) (t0 : IT) (p : Nat) (s : State), (s.br h).drive = some (o, t0, p) →
    ∃ t, exec (.travelTimeout h) s = .next t ∧ t.it = max s.it (t0 + s.pN (0x3500 + h.val) 8 * 1000000) ∧
      (t.br h).drive = none ∧ (t.br h).timeout = true ∧ (t.br h).valve = (if o then 1 else 2) ∧ (t.br h).state = 4 ∧
      t.skein.arriving = s.skein.arriving ++ [⟨0x9001, t.it, s.time.boot, h, []⟩] ∧
      (∀ g, g ≠ h.val → t.br g = s.br g) ∧ Unchanged [.it, .spin, .bridges, .skein] s t) ∧
   (∀ (h : Fin 4) (e : DieEdge) (es : List DieEdge) (s u : State), (s.br h).edges = e :: es → s.brFree h = true → e.opens = true →
    ((s.at e.it).modBr h (fun x => { x with edges := es })).requestTorque h (s.pEl 0x1400 8 4 h * s.pN (0x3500 + h.val) 6 / 100)
      (secondBoundary (((s.at e.it).modBr h (fun x => { x with edges := es })).takesAt (1 + h.val))) = (u, .granted) →
    ∃ t, exec (.valveDriveStart h) s = .next t ∧ (t.br h).valve = 3 ∧ (t.br h).state = 1 ∧ (t.br h).asked = none ∧
      (t.br h).edges = es ∧ (t.br h).drive = some (true, max s.it e.it, s.pN (0x3500 + h.val) 6 * 100) ∧
      (∀ g, g ≠ h.val → t.br g = s.br g) ∧ Unchanged [.it, .dis, .spin, .bridges, .loads, .budget, .skein, .freeCtr] s t) ∧
   (∀ (h : Fin 4) (first x : IT) (s u : State), (s.br h).asked = some (first, x) →
    (s.at x).requestTorque h (s.pEl 0x1400 8 4 h * s.pN (0x3500 + h.val) 6 / 100)
      (secondBoundary ((s.at x).takesAt (1 + h.val))) = (u, .granted) →
    ∃ t, exec (.valveDriveRetry h) s = .next t ∧ (t.br h).valve = 3 ∧ (t.br h).state = 1 ∧ (t.br h).asked = none ∧
      (t.br h).drive = some (true, max s.it x, s.pN (0x3500 + h.val) 6 * 100) ∧
      (∀ g, g ≠ h.val → t.br g = s.br g) ∧ Unchanged [.it, .dis, .spin, .bridges, .loads, .budget, .skein, .freeCtr] s t)

/-- An output trips or a motor stalls, and the retry (R314, R316). The model's choice (Assumption 98): what the output does after its retry. -/
def Obligations.OutputTrips : Prop :=
  (∀ (o : Fin 6) (ma : Nat) (x : IT) (s : State), s.power.dev.awake = true → o.val < 4 → 16000 < ma →
    ∃ t, exec (.outputTrip o (.overCurrent ma) x) s = .next t ∧
      (t.br o).tripTill = some (x + s.pN (0x3500 + o.val) 0x11 * 1000000) ∧ (t.br o).state = 0 ∧ (t.br o).drive = none ∧
      ((t.br o).latch = true ↔ (s.br o).latch = true ∨
        s.pN (0x3500 + o.val) 0x10 < (((s.br o).trips ++ [x]).filter (fun y => decide (x ≤ y + 10000000000))).length) ∧
      t.sup.reported = s.sup.reported ++
        (if s.pN (0x3500 + o.val) 0x10 < (t.br o).trips.length then [s.faultNow 0xE005 (1 + o.val) [] (max s.it x)] else []) ∧
      (∀ g, g ≠ o.val → t.br g = s.br g) ∧ Unchanged [.it, .dis, .bridges, .skein, .sup] s t) ∧
   (∀ (o : Fin 6) (k : TripKind) (x : IT) (s : State), s.power.dev.awake = true → 4 ≤ o.val →
    ((∃ mv ns, k = .desaturation mv ns ∧ s.pN (0x3504 + o.val) 5 < mv ∧ s.pN (0x3504 + o.val) 6 ≤ ns) ∨
      (∃ ma, k = .linkCurrent ma ∧ s.pN (0x3504 + o.val) 8 < ma) ∨ (∃ mv, k = .gateSupply mv ∧ mv < 9000)) →
    ∃ t, exec (.outputTrip o k x) s = .next t ∧
      (t.pt (o.val - 4)).tripTill = some (x + s.pN (0x3508 + (o.val - 4)) 0xD * 1000000) ∧ (t.pt (o.val - 4)).driving = false ∧
      ((t.pt (o.val - 4)).latch = true ↔ (s.pt (o.val - 4)).latch = true ∨
        s.pN (0x3508 + (o.val - 4)) 0xC < (t.pt (o.val - 4)).trips.length) ∧
      t.sup.reported = s.sup.reported ++ (if s.pN (0x3508 + (o.val - 4)) 0xC < (t.pt (o.val - 4)).trips.length
        then [s.faultNow 0xE005 (5 + (o.val - 4)) [] (max s.it x)] else []) ∧
      (∀ g, g ≠ o.val - 4 → t.pt g = s.pt g) ∧ Unchanged [.it, .ports, .skein, .sup] s t) ∧
   (∀ (o : Fin 6) (k : TripKind) (x : IT) (s : State), s.tripsOutput o k = false → exec (.outputTrip o k x) s = .next s) ∧
   (∀ (o : Fin 6) (x : IT) (s : State), o.val < 4 → (s.br o).tripTill = some x →
    ∃ t, exec (.outputRetryExpiry o) s = .next t ∧ (t.br o).tripTill = none ∧ t.it = max s.it x ∧
      (∀ g, g ≠ o.val → t.br g = s.br g) ∧ Unchanged [.it, .dis, .spin, .bridges, .loads, .budget, .skein, .freeCtr] s t) ∧
   (∀ (o : Fin 6) (x : IT) (s : State), 4 ≤ o.val → (s.pt (o.val - 4)).tripTill = some x →
    ∃ t, exec (.outputRetryExpiry o) s = .next t ∧ (t.pt (o.val - 4)).tripTill = none ∧ t.it = max s.it x ∧
      (∀ g, g ≠ o.val - 4 → t.pt g = s.pt g) ∧ Unchanged [.it, .ports] s t) ∧
   (∀ (g : Fin 2) (x : IT) (s : State), s.stallDue g x = true →
    ∃ t, exec (.motorStall g x) s = .next t ∧ (t.pt g).stall = true ∧ (t.pt g).driving = false ∧ (t.pt g).phases = none ∧
      t.skein.arriving = s.skein.arriving ++ [⟨0x9003, max s.it x, s.time.boot, g, []⟩] ∧
      (∀ h, h ≠ g.val → t.pt h = s.pt h) ∧ Unchanged [.it, .ports, .skein] s t)

/-- A load switch trips, restarts, submits again, has its count reset, or is OPEN-LOAD (R326, R327, R328, R329, R330). The model's choice (Assumptions 55, 140): that the report carries its cause, when a restart is judged, and how the current of OPEN-LOAD is measured. -/
def Obligations.LoadTripsAndRestarts : Prop :=
  (∀ (j : Fin 16) (k : LoadTripKind) (x : IT) (mj : Nat) (s : State), s.tripMet j k x = true →
    ∃ t, exec (.loadTrip j k x mj) s = .next t ∧ (t.ld j).on = false ∧ (t.ld j).tripAt = some x ∧
      (t.ld j).retries = (if (s.ld j).therm then (s.ld j).retries else min 16 ((s.ld j).retries + 1)) ∧
      ((t.ld j).therm = true ↔ (s.ld j).therm = true ∨ (hotTrip k = true ∧ s.pN (0x3600 + j.val) 9 = 1)) ∧
      ((t.ld j).retryL = true ↔ (s.ld j).retryL = true ∨ s.pN (0x3600 + j.val) 0xB < (t.ld j).retries) ∧
      t.sup.reported = s.sup.reported ++
        (if (s.ld j).retryL = false ∧ (t.ld j).retryL = true ∨ (s.ld j).therm = false ∧ (t.ld j).therm = true
         then [s.faultNow 0xE005 (7 + j.val) (le 1 (if hotTrip k then 1 else 0)) (max s.it x)] else []) ∧
      (∀ i, i ≠ j.val → t.ld i = s.ld i) ∧ Unchanged [.it, .loads, .skein, .sup] s t) ∧
   (∀ (j : Fin 16) (x x0 : IT) (q : Int) (s : State), (s.ld j).tripAt = some x0 →
    x0 + s.pN (0x3600 + j.val) 0xC * 1000000 ≤ x → (s.ld j).retries ≤ s.pN (0x3600 + j.val) 0xB →
    (s.pN (0x3600 + j.val) 9 = 1 ∨ s.ldJunction j q < 1750 - 10 * s.pN (0x3600 + j.val) 0xA) →
    (s.ld j).therm = false → (s.ld j).retryL = false → s.ldThermHold j = false → s.ldWant j = true →
    s.contained 0xE005 (7 + j.val) = false → (s.ld j).on = false →
    ∃ t, exec (.loadRestart j x q) s = .next t ∧ (t.ld j).tripAt = none ∧ t.it = max s.it x ∧ (t.ld j).junction = q ∧
      Unchanged [.it, .spin, .loads, .budget, .skein] s t ∧
      ∀ p u v ok, p = (s.at x).modLd j (fun l => { l with junction := q, tripAt := none }) → p.reserveClamp j = (u, ok) →
        (ok = false → (t.ld j).on = false ∧ (t.ld j).locked = true ∧ t.budget = s.budget) ∧
        (ok = true → u.requestLoad j = (v, .granted) →
          (t.ld j).on = true ∧ (t.ld j).pct = 100 ∧ (t.ld j).shed = false ∧ (t.ld j).waitTill = none ∧
          (t.ld j).onSince = max s.it x ∧ (t.ld j).locked = false ∧
          (t.ld j).resv = (if (s.ld j).resv = 0 then s.ldClamp j else (s.ld j).resv) ∧
          t.budget.resvs.getLast? = some ⟨4 * 4096 + j.val, 1, s.pN (0x3600 + j.val) 6, secondBoundary (max s.it x), false⟩)) ∧
   (∀ (j : Fin 16) (x : IT) (s : State), (s.ld j).waitTill = some x → s.ldThermHold j = false → s.ldWant j = true →
    (s.ld j).therm = false → (s.ld j).retryL = false → (s.ld j).tripAt = none → s.contained 0xE005 (7 + j.val) = false →
    (s.ld j).on = false →
    ∃ t, exec (.loadShedRetry j) s = .next t ∧ t.it = max s.it x ∧ Unchanged [.it, .spin, .loads, .budget, .skein] s t ∧
      ∀ p u v ok, p = (s.at x).modLd j (fun l => { l with waitTill := none }) → p.reserveClamp j = (u, ok) →
        (ok = false → (t.ld j).on = false ∧ (t.ld j).locked = true ∧ (t.ld j).waitTill = none ∧ t.budget = s.budget) ∧
        (ok = true → u.requestLoad j = (v, .granted) →
          (t.ld j).on = true ∧ (t.ld j).pct = 100 ∧ (t.ld j).shed = false ∧ (t.ld j).waitTill = none ∧
          (t.ld j).onSince = max s.it x ∧ (t.ld j).locked = false ∧
          (t.ld j).resv = (if (s.ld j).resv = 0 then s.ldClamp j else (s.ld j).resv) ∧
          t.budget.resvs.getLast? = some ⟨4 * 4096 + j.val, 1, s.pN (0x3600 + j.val) 6, secondBoundary (max s.it x), false⟩)) ∧
   (∀ (j : Fin 16) (x : IT) (s : State), (s.ld j).waitTill = some x → s.ldWant j = false →
    ∃ t, exec (.loadShedRetry j) s = .next t ∧ t.it = max s.it x ∧ t.ld j = { s.ld j with waitTill := none } ∧
      (∀ i, i ≠ j.val → t.ld i = s.ld i) ∧ Unchanged [.it, .spin, .loads] s t) ∧
   (∀ (j : Fin 16) (s : State), (s.ld j).on = true → (s.ld j).therm = false →
    ∃ t, exec (.loadCounterReset j) s = .next t ∧ (t.ld j).retries = 0 ∧ (t.ld j).on = true ∧
      t.it = max s.it ((s.ld j).onSince + s.pN (0x3600 + j.val) 0xD * 1000000) ∧
      (∀ i, i ≠ j.val → t.ld i = s.ld i) ∧ Unchanged [.it, .loads] s t) ∧
   (∀ (j : Fin 16) (x a : IT) (s : State), (s.ld j).on = true → s.pN (0x3600 + j.val) 2 = 0 →
    (s.ld j).current < s.pN (0x3600 + j.val) 0x12 → (s.ld j).lowAt = some a →
    (x < max (s.ld j).onSince a + 100000000 → exec (.openLoad j x) s = .next s) ∧
    (max (s.ld j).onSince a + 100000000 ≤ x → ∃ t, exec (.openLoad j x) s = .next t ∧ t.ld j = { s.ld j with openLoad := true } ∧
      (∀ i, i ≠ j.val → t.ld i = s.ld i) ∧ Unchanged [.it, .loads] s t))

/-- The budget overrun, the supplies and the timers of the thermal unit (R339, R348, R358, R359). The model's choice (Assumption 56): the items of a THERMAL record and the counting of sensor failures. -/
def Obligations.BudgetSuppliesTimers : Prop :=
  (∀ (x : IT) (s : State), s.budget.overAt = some x → s.budget.shedC2 = false →
    ∃ t, exec .budgetOverrun s = .next t ∧ t.budget = { s.budget with shedC2 := true } ∧
      t.it = max s.it (x + s.pN 0x1400 0xA * 1000000) ∧
      t.skein.arriving = s.skein.arriving ++ [⟨0xB003, t.it, s.time.boot, 0, []⟩] ∧ Unchanged [.it, .budget, .skein] s t) ∧
   (∀ (y : SupplySubject) (c : SupplyCause) (v : Nat) (x : IT) (s : State), s.power.dev.awake = true → s.supplyMeets y c v = true →
    ∃ t, exec (.supplyFault y c v x) s = .next t ∧ vget t.power.supplyLow (supplyCode y) false = true ∧
      t.skein.arriving = s.skein.arriving ++ [⟨0xB001, max s.it x, s.time.boot, supplyCode y, le 1 (causeCode c) ++ le 4 v⟩] ∧
      t.sup.reported = s.sup.reported ++ [s.faultNow 0xE008 (supplyCode y) (le 1 (causeCode c) ++ le 4 v) (max s.it x)] ∧
      Unchanged [.it, .power, .skein, .sup] s t) ∧
   (∀ (i : Fin 2) (x : IT) (s : State), s.power.dev.awake = true →
    ∃ t, exec (.sensorSupplyOverload i x) s = .next t ∧ vget t.budget.svOff i none = some (max s.it x) ∧
      t.skein.arriving = s.skein.arriving ++ [⟨0xB002, max s.it x, s.time.boot, i, []⟩] ∧ Unchanged [.it, .budget, .skein] s t) ∧
   (∀ (i : Fin 2) (x : IT) (s : State), vget s.budget.svOff i none = some x →
    ∃ t, exec (.sensorSupplyRetry i) s = .next t ∧ vget t.budget.svOff i none = none ∧ t.it = max s.it (x + 1000000000) ∧
      Unchanged [.it, .budget] s t) ∧
   (∀ (d : Fin 6) (x : IT) (s : State), vget s.therm.hold d none = some x →
    ∃ t, exec (.throttleHoldExpiry d) s = .next t ∧ t.therm = { s.therm with hold := vset s.therm.hold d none } ∧
      t.it = max s.it x ∧ Unchanged [.it, .therm] s t) ∧
   (∀ (d : Fin 4) (x : IT) (s : State), vget s.therm.unavail d none = some x →
    ∃ t, exec (.sensorUnavailableExpiry d) s = .next t ∧ vget t.therm.unavail d none = none ∧ t.it = max s.it (x + 50000000) ∧
      (vget t.therm.status (2 * d.val) 0 = 1 ∨ vget t.therm.status (2 * d.val) 0 = 2) ∧
      (vget t.therm.status (2 * d.val + 1) 0 = 1 ∨ vget t.therm.status (2 * d.val + 1) 0 = 2) ∧
      Unchanged [.it, .therm, .skein, .sup] s t)

/-- Latches of channels and banks are cleared (R234, R235, R371). -/
def Obligations.NozzleLatchClears : Prop :=
  (∀ (r : Req) (x : Session) (n : Fin 128) (s : State), s.Takes r x →
    ∃ t, exec (.clearChannelLatch r n) s = .next t ∧ t.ch n = { s.ch n with ocLatch := false, ocCount := 0 } ∧
      (∀ m, m ≠ n.val → t.ch m = s.ch m) ∧ s.Accepted t r ∧ Unchanged [.it, .chan, .dict, .nets] s t) ∧
   (∀ (r : Req) (x : Session) (b : Fin 16) (s : State), s.Takes r x →
    ∃ t, exec (.clearBankLatch r b) s = .next t ∧ (t.bank b).ocLatch = false ∧ (t.bank b).trips = [] ∧
      (t.bank b).stuck = (s.bank b).stuck ∧ (t.bank b).tripTill = (s.bank b).tripTill ∧
      (∀ k, k ≠ b.val → t.bank k = s.bank k) ∧ s.Accepted t r ∧ Unchanged [.it, .banks, .dict, .nets] s t)

/-- Latches of outputs are cleared, load switches are commanded (R316, R324, R329, R371). The model's choice (Assumption 55): that a latch keeps its cause in the report. -/
def Obligations.OutputCommands : Prop :=
  (∀ (r : Req) (x : Session) (o : Fin 6) (s : State), s.Takes r x → o.val < 4 →
    ∃ t, exec (.clearOutputLatch r o) s = .next t ∧ (t.br o).latch = false ∧ (t.br o).trips = [] ∧
      (∀ g, g ≠ o.val → t.br g = s.br g) ∧ s.Accepted t r ∧
      Unchanged [.it, .dis, .spin, .bridges, .loads, .budget, .skein, .dict, .nets, .freeCtr] s t) ∧
   (∀ (r : Req) (x : Session) (o : Fin 6) (s : State), s.Takes r x → 4 ≤ o.val →
    ∃ t, exec (.clearOutputLatch r o) s = .next t ∧ (t.pt (o.val - 4)).latch = false ∧ (t.pt (o.val - 4)).trips = [] ∧
      (∀ g, g ≠ o.val - 4 → t.pt g = s.pt g) ∧ s.Accepted t r ∧ Unchanged [.it, .ports, .dict, .nets] s t) ∧
   (∀ (r : Req) (x : Session) (j : Fin 16) (v : Byte) (s : State), s.Takes r x → v.toNat < 4 →
    ∃ t, exec (.clearLoadLatches r j v) s = .next t ∧
      t.ld j = { s.ld j with
        therm := (s.ld j).therm && !(bit v.toNat 0), retryL := (s.ld j).retryL && !(bit v.toNat 1),
        retries := if bit v.toNat 1 then 0 else (s.ld j).retries } ∧
      (∀ i, i ≠ j.val → t.ld i = s.ld i) ∧ s.Accepted t r ∧ Unchanged [.it, .loads, .dict, .nets] s t) ∧
   (∀ (r : Req) (x : Session) (j : Fin 16) (v : Byte) (s : State), s.Takes r x → v.toNat < 2 →
    writeFail (s.proposed (pkey (0x3600 + j.val) 0x10) [v]) (pkey (0x3600 + j.val) 0x10) s.strict = 0 →
    ∃ t, exec (.loadSwitchCommand r j v) s = .next t ∧ alookup (pkey (0x3600 + j.val) 0x10) t.dict.store = some [v] ∧
      (v = 0 → alookup (pkey (0x3600 + j.val) 0x10) s.dict.old = none → (s.power.dev = .bare → s.pN (0x3600 + j.val) 8 ≠ 1) →
        (t.ld j).on = false ∧ (t.ld j).waitTill = none ∧ ∀ i, i ≠ j.val → t.ld i = s.ld i) ∧
      s.Accepted t r ∧ Unchanged [.it, .spin, .loads, .budget, .skein, .dict, .nets] s t)

/-- A count, its uncertainty, the last-word area and a fold are written (R63, R71, R100, R373, R447). The model's choice (Assumption 57): when a count jump acts. -/
def Obligations.SmallWrites : Prop :=
  (∀ (r : Req) (x : Session) (i : Fin 8) (s : State), s.Takes r x →
    ∃ t, exec (.resetUncertainty r i) s = .next t ∧ t.pulse i = { s.pulse i with uncert := 0 } ∧
      (∀ k, k ≠ i.val → t.pulse k = s.pulse k) ∧ s.Accepted t r ∧ Unchanged [.it, .motion, .dict, .nets] s t) ∧
   (∀ (r : Req) (x : Session) (i : Fin 8) (v : Bytes) (s : State), s.Takes r x → v.length = 4 →
    ∃ t, exec (.setCount r i v) s = .next t ∧ t.pulse i = { s.pulse i with jump := some (leInt v) } ∧
      (∀ k, k ≠ i.val → t.pulse k = s.pulse k) ∧ s.Accepted t r ∧ Unchanged [.it, .motion, .dict, .nets] s t) ∧
   (∀ (r : Req) (x : Session) (s : State), s.Takes r x →
    ∃ t, exec (.clearLastWord r) s = .next t ∧ t.skein = { s.skein with lastWord := [] } ∧
      s.Accepted t r ∧ Unchanged [.it, .skein, .dict, .nets] s t) ∧
   (∀ (r : Req) (x : Session) (v : Byte) (s : State), s.Takes r x →
    writeFail (s.proposed (pkey 0x2110 3) [v]) (pkey 0x2110 3) s.strict = 0 →
    ∃ t, exec (.foldStateWrite r v) s = .next t ∧ alookup (pkey 0x2110 3) t.dict.store = some [v] ∧
      alookup (pkey 0x2110 3) t.dict.old = some (s.dict.inUse 0x2110 3, nextBoundary (max s.it r.rx)) ∧
      s.Accepted t r ∧ Unchanged [.it, .dict, .nets] s t)

/-- A loop's mode, coefficients and commit are written (R273, R274, R275, R276). -/
def Obligations.LoopWrites : Prop :=
  (∀ (r : Req) (x : Session) (w : Fin 8) (m : Byte) (s : State), s.Takes r x → m.toNat < 3 →
    writeFail (s.proposed (pkey (0x3100 + w.val) 0xF) [m]) (pkey (0x3100 + w.val) 0xF) s.strict = 0 →
    ∃ t, exec (.loopModeCommand r w m) s = .next t ∧ alookup (pkey (0x3100 + w.val) 0xF) t.dict.store = some [m] ∧
      t.lp w = { s.lp w with
        handOver := (s.lp w).handOver || ([m] != s.imageValue (0x3100 + w.val) 0xF),
        leaving := (s.lp w).leaving || (s.lp w).state == 7 } ∧
      (∀ v, v ≠ w.val → t.lp v = s.lp v) ∧ s.Accepted t r ∧ Unchanged [.it, .whorl, .dict, .nets] s t) ∧
   (∀ (r : Req) (x : Session) (w j : Fin 8) (v : Bytes) (ks : List (Nat × F32)) (c : Instr) (sub : Nat) (s : State), s.Takes r x →
    (c = .regionTableWrite r w j v ∧ sub = 1 ∧ ks = (tableCoefs v).map (fun p => (j.val * 200 + p.1, p.2)) ∧
      writeFail (s.proposed (pkey (0x3210 + 8 * w.val + j.val) 1) v) (pkey (0x3210 + 8 * w.val + j.val) 1) s.strict = 0 ∨
     c = .coefficientPatch r w j v ∧ sub = 2 ∧ ks = (patchCoefs v).map (fun p => (j.val * 200 + p.1, p.2))) →
    s.coefHeld = false →
    (findDesc (0x3210 + 8 * w.val + j.val) sub).bind (fun d => valueFail d (0x3210 + 8 * w.val + j.val) sub v) = none →
    ∃ t, exec c s = .next t ∧
      (¬ (s.stepping w = true ∧ (s.lp w).region = j.val) → (t.lp w).table = putAll ks (s.lp w).table) ∧
      (s.stepping w = true → (s.lp w).region = j.val → s.pN (0x3100 + w.val) 0x18 = 0 →
        t.lp w = { s.lp w with staged := putAll ks (s.lp w).staged }) ∧
      (s.stepping w = true → (s.lp w).region = j.val → s.pN (0x3100 + w.val) 0x18 ≠ 0 → ks ≠ [] →
        (t.lp w).live = (s.lp w).live ++ [ks] ∧ (t.lp w).table = (s.lp w).table) ∧
      (∀ v, v ≠ w.val → t.lp v = s.lp v) ∧ s.Accepted t r ∧ Unchanged [.it, .whorl, .dict, .nets] s t) ∧
   (∀ (r : Req) (x : Session) (w : Fin 8) (s : State), s.Takes r x →
    ∃ t, exec (.commitLoop r w) s = .next t ∧ t.lp w = { s.lp w with commit := true } ∧
      (∀ v, v ≠ w.val → t.lp v = s.lp v) ∧ s.Accepted t r ∧ Unchanged [.it, .whorl, .dict, .nets] s t)

/-- Hanks are created, opened, closed and deleted; a tile stream of one record (R156, R158, R167). The model's choice (Assumptions 59, 100, 118): when a frame counts as used, what a slice under test holds, and the answer at processor level 3. -/
def Obligations.HankAndTileCommands : Prop :=
  (∀ (r : Req) (x : Session) (b : Bytes) (s : State), s.Takes r x → b.length = 63 → s.dis.result ≠ 1 → s.hankJudge (1 :: b) = 0 →
    s.sliceAt (headerAt (natAt b 0 1)) 4096 = false →
    ∃ t, exec (.hankCreate r b) s = .next t ∧
      (natAt b 3 1 = 0 → t.dis.result = 0 ∧ (t.hank (natAt b 0 1)).state = 1 ∧ (t.hank (natAt b 0 1)).cell = natAt b 1 1 ∧
        (t.hank (natAt b 0 1)).job = natAt b 27 4 ∧ (t.hank (natAt b 0 1)).name = bytesAt b 31 32 ∧
        (t.hank (natAt b 0 1)).created = (s.time.boot, max s.it r.rx)) ∧
      (natAt b 3 1 = 1 → t.dis = { s.dis with result := 1, wait := some ⟨1, natAt b 0 1, 1 :: b⟩ }) ∧
      (∀ k, k ≠ natAt b 0 1 → t.hank k = s.hank k) ∧ s.Accepted t r ∧ Unchanged [.it, .dis, .dict, .nets] s t) ∧
   (∀ (r : Req) (x : Session) (b : Bytes) (s : State), s.Takes r x → b.length = 63 → s.dis.result ≠ 1 →
    s.sliceAt (headerAt (natAt b 0 1)) 4096 = false →
    (s.hankJudge (2 :: b) = 0 → ∃ t, exec (.hankOpen r b) s = .next t ∧
      t.dis = { s.dis with result := 1, wait := some ⟨2, natAt b 0 1, 2 :: b⟩ } ∧ s.Accepted t r ∧
      Unchanged [.it, .dis, .dict, .nets] s t) ∧
    (s.hankJudge (3 :: b) = 0 → ∃ t, exec (.hankClose r b) s = .next t ∧
      t.dis = { s.dis with result := 1, wait := some ⟨3, natAt b 0 1, 3 :: b⟩ } ∧ s.Accepted t r ∧
      Unchanged [.it, .dis, .dict, .nets] s t) ∧
    (s.hankJudge (4 :: b) = 0 → ∃ t, exec (.hankDelete r b) s = .next t ∧
      t.dis.result = 0 ∧ t.hank (natAt b 0 1) = { s.hank (natAt b 0 1) with state := 3 } ∧
      (∀ k, k ≠ natAt b 0 1 → t.hank k = s.hank k) ∧ s.Accepted t r ∧ Unchanged [.it, .dis, .dict, .nets] s t)) ∧
   (∀ (r : Req) (x : Session) (v : Bytes) (s : State), s.Takes r x → v.length = 16 + natAt v 12 2 → v.length ≤ 65536 →
    s.mramHeld = false → s.sliceAt (headerAt (natAt v 0 1)) 4096 = false →
    s.backHeld (natAt v 0 1) (intAt v 4 2) (intAt v 6 2) = false →
    ∃ t, exec (.tileStream r v) s = .next t ∧
      (s.streamCause v = 0 → t.dis.applied = 1 ∧ t.dis.reject = 0 ∧ t.dis.cache = s.dis.cache ∧ t.dis.fills = s.dis.fills ∧
        ((s.openHank = some (natAt v 0 1) ∧ (s.cached (intAt v 4 2) (intAt v 6 2)).isSome = true) ∨
            s.dis.layers.any (·.isFor (natAt v 0 1) (intAt v 4 2) (intAt v 6 2)) = true →
          t.dis.layers = s.dis.layers ++
            [⟨natAt v 0 1, natAt v 1 1, natAt v 2 1, natAt v 3 1, intAt v 4 2, intAt v 6 2, v.drop 16⟩] ∧
          t.dis.frames = s.dis.frames ∧ ∀ a, Memory.read t.mram a = Memory.read s.mram a) ∧
        (¬ (s.openHank = some (natAt v 0 1) ∧ (s.cached (intAt v 4 2) (intAt v 6 2)).isSome = true) →
            s.dis.layers.any (·.isFor (natAt v 0 1) (intAt v 4 2) (intAt v 6 2)) = false →
          t.dis.layers = s.dis.layers ∧
          (Memory.wf s.mram → ∀ i, i < 4096 → (t.storedCells (natAt v 0 1) (intAt v 4 2) (intAt v 6 2)).getD i 0 =
            layerCell (natAt v 1 1) (natAt v 2 1) (natAt v 3 1) (v.drop 16) i
              ((s.storedCells (natAt v 0 1) (intAt v 4 2) (intAt v 6 2)).getD i 0)) ∧
          ∀ a, (∀ f, t.frameOf (natAt v 0 1) (intAt v 4 2) (intAt v 6 2) = some f → a < f.frame * 4096 ∨ f.frame * 4096 + 4096 ≤ a) →
            Memory.read t.mram a = Memory.read s.mram a)) ∧
      (s.streamCause v ≠ 0 → t.dis = { s.dis with applied := 0, reject := s.streamCause v } ∧
        Unchanged [.it, .dis, .dict, .nets] s t) ∧
      s.Accepted t r ∧ Unchanged [.it, .dis, .skein, .mram, .freeCtr, .dict, .nets] s t)

/-- The hank engine ends its work (R156, R158, R164, R165, R166, R178, R179, R180). The model's choice (Assumptions 4, 59, 100, 115, 134): which frame a tile takes, the free values drawn, what a slice under test holds, and the bytes of TILE-DAMAGED. -/
def Obligations.HankEngine : Prop :=
  (∀ (k : Fin 16) (x : IT) (s : State), s.power.dev.awake = true → (s.hank k).state = 3 → s.sliceAt (headerAt k.val) 4096 = false →
    ∃ t, exec (.hankDeleteDone k x) s = .next t ∧ t.hank k = Hank.reset ∧
      t.dis.frames = s.dis.frames.filter (fun f => f.slot != k.val) ∧ (∀ j, j ≠ k.val → t.hank j = s.hank j) ∧
      Unchanged [.it, .dis, .skein] s t) ∧
   (∀ (x : IT) (c : CloseSeq) (s : State), s.dis.close = some c → (s.power.geo = true → c.at_ < s.dis.horizon) → c.slot < 16 →
    s.closeHeld c.slot = false →
    ∃ t, exec (.closeSequenceDone x) s = .next t ∧ t.dis.close = none ∧ t.dis.cache = [] ∧ t.dis.acc = [] ∧
      (c.keep = false → (t.hank c.slot).state = 1 ∧ t.dis.result = 0) ∧ t.it = max s.it (max x c.at_) ∧
      Unchanged [.it, .power, .rov, .spd, .dis, .skein, .mram, .freeCtr] s t) ∧
   (∀ (c r : Int) (x : IT) (n k : Nat) (ok : Bool) (s u : State), s.heldHank = some k → (c, r) ∈ s.dis.fills → s.power.geo = true →
    s.lapHeld = false → (s.at x).makeRoom (s.hank k).mm = some u →
    ∃ t, exec (.tileFillDone c r x n ok) s = .next t ∧ (c, r) ∉ t.dis.fills ∧ t.it = max s.it x ∧
      (t.cached c r).map (fun y => (y.cells, y.dirty, y.noAlloc)) = some (s.storedCells k c r, none, false) ∧
      (s.frameOf k c r = none → t.dis.frames = s.dis.frames ∧ t.skein = s.skein) ∧
      (∀ f, s.frameOf k c r = some f →
        (ok = true → crc32 (s.storedCells k c r) = f.crc → t.dis.frames = s.dis.frames ∧ t.skein = s.skein) ∧
        (ok = false ∨ crc32 (s.storedCells k c r) ≠ f.crc →
          t.frameOf k c r = some { f with damaged := true, since := 0 } ∧
          (∀ y z : Int, y / 64 = c → z / 64 = r → t.cellAt k y z = some 0x04) ∧
          (t.hank k).damaged = sat32 ((s.hank k).damaged + 1) ∧ t.dis.found = sat32 (s.dis.found + 1) ∧
          t.skein.arriving = s.skein.arriving ++ [⟨0x4007, max s.it x, s.time.boot, k, leI 2 c ++ leI 2 r⟩])) ∧
      Unchanged [.it, .dis, .skein] s t) ∧
   (∀ (c r : Int) (x d : IT) (k : Nat) (w : CTile) (s : State), s.heldHank = some k → s.cached c r = some w → w.dirty = some d →
    (s.dis.fills = [] ∨ s.dis.backs < 15) → s.lapHeld = false → s.backHeld k c r = false →
    (w.noAlloc = true ∧ 0 < s.freeTiles ∨
      w.noAlloc = false ∧ (w.changed + s.pN 0x2300 2 * 1000000 ≤ x ∨ d + s.pN 0x2300 3 * 1000000 ≤ x)) →
    ∃ t g, exec (.tileWriteBack c r x) s = .next t ∧
      t.cached c r = some { w with dirty := none, noAlloc := false, unobs := 0 } ∧
      (∀ f, s.frameOf k c r = some f → g = f.frame ∧ t.frameOf k c r = some { f with
        crc := crc32 w.cells, marked := f.marked || w.marked, streamed := f.streamed || w.streamed, unobs := sat16 (f.unobs + w.unobs) }) ∧
      (s.frameOf k c r = none → g = s.pickFrame ∧
        t.frameOf k c r = some ⟨g, k, c, r, false, w.streamed, w.marked, sat16 w.unobs, crc32 w.cells, 0⟩) ∧
      (Memory.wf s.mram → Memory.readBlock t.mram (g * 4096) w.cells.length = w.cells) ∧
      (∀ a, (a < g * 4096 ∨ g * 4096 + w.cells.length ≤ a) → Memory.read t.mram a = Memory.read s.mram a) ∧
      Unchanged [.it, .dis, .skein, .mram, .freeCtr] s t) ∧
   (∀ (c r : Int) (x : IT) (k : Nat) (w : CTile) (s : State), s.heldHank = some k → s.cached c r = some w → w.noAlloc = true →
    w.dirty = none → 0 < s.freeTiles → (s.dis.fills = [] ∨ s.dis.backs < 15) → s.lapHeld = false → s.backHeld k c r = false →
    ∃ t, exec (.tileWriteBack c r x) s = .next t ∧ t.cached c r = some { w with noAlloc := false } ∧
      t.dis.frames = s.dis.frames ∧ Unchanged [.it, .dis] s t)

/-- A parameter is read, whole or in segments (R377, R406, R408). -/
def Obligations.Reads : Prop :=
  (∀ (r : Req) (x : Session) (i sub st : Nat) (v : Bytes) (s : State), s.Serves r x →
    s.inBootRom = false → (s.mramHeld = false ∨ mramRead i sub = false) →
    pkey i sub ∉ [pkey 0x1201 1, pkey 0x2312 3, pkey 0x4002 3, pkey 0x4002 4, pkey 0x4201 7, pkey 0x4403 2] →
    (s.served r).readParam x.level i sub = .inr (st, v) →
    (v.length ≤ maxPayload r.sid.net - 4 → ∃ t, exec (.parameterRead r i sub) s = .next t ∧
      t.Replied r 1 i sub (le 1 0 ++ le 1 st ++ le 2 0 ++ v) ∧ Unchanged [.it, .nets] s t) ∧
    ((s.servedBlock r).readParam x.level i sub = .inr (st, v) → v.length ≤ 65536 → ∃ t, exec (.blockRead r i sub 0) s = .next t ∧
      (t.session r.sid).bind (·.bs) = some ⟨i, sub, st, v, max s.it r.rx⟩ ∧
      t.Replied r 3 i sub ((⟨i, sub, st, v, max s.it r.rx⟩ : BlockSnap).segment r.sid.net 0) ∧ Unchanged [.it, .nets] s t)) ∧
   (∀ (r : Req) (x : Session) (b : BlockSnap) (off : Nat) (s : State), s.Serves r x → x.bs = some b → off ≠ 0 →
    max s.it r.rx < b.last + 1000000000 →
    ∃ t, exec (.blockRead r b.idx b.sub off) s = .next t ∧
      (t.session r.sid).bind (·.bs) = some { b with last := max s.it r.rx } ∧
      t.Replied r 3 b.idx b.sub (b.segment r.sid.net off) ∧ Unchanged [.it, .nets] s t) ∧
   (∀ (r : Req) (x : Session) (i sub c : Nat) (s : State), s.Serves r x → pkey i sub ≠ pkey 0x1201 1 →
    s.inBootRom = false → (s.mramHeld = false ∨ mramRead i sub = false) → (s.served r).readParam x.level i sub = .inl c →
    ∃ t, exec (.parameterRead r i sub) s = .next t ∧ t.Replied r 1 i sub (le 1 c ++ le 3 0) ∧ Unchanged [.it, .nets, .dict] s t)

/-- A block read moves its cursor (R181, R395, R408, R446). The model's choice (Assumption 118): the answer at processor level 3. -/
def Obligations.CursorReads : Prop :=
  (∀ (r : Req) (x : Session) (v : Bytes) (s : State), s.Serves r x → v.length ≤ 65536 → s.inBootRom = false →
    (s.servedBlock r).readParam x.level 0x4403 2 = .inr (0, v) →
    ∃ t, exec (.descriptionBlockRead r) s = .next t ∧ t.dict = { s.dict with descCur := s.dict.descCur + v.length / 40 } ∧
      (t.session r.sid).bind (·.bs) = some ⟨0x4403, 2, 0, v, max s.it r.rx⟩ ∧ Unchanged [.it, .dict, .nets] s t) ∧
   (∀ (r : Req) (x : Session) (v : Bytes) (f : Frame) (s : State), s.Serves r x → v.length ≤ 65536 →
    s.mramHeld = false → s.inBootRom = false →
    (s.servedBlock r).readParam x.level 0x2312 3 = .inr (0, v) → s.exportFrames.getLast? = some f →
    ∃ t, exec (.tileExportRead r) s = .next t ∧ t.dis = { s.dis with cursor := min poolFrames (f.frame + 1) } ∧
      (t.session r.sid).bind (·.bs) = some ⟨0x2312, 3, 0, v, max s.it r.rx⟩ ∧ Unchanged [.it, .dis, .nets] s t) ∧
   (∀ (r : Req) (x : Session) (b : Bool) (v : Bytes) (s : State), s.Serves r x → v.length ≤ 65536 →
    s.mramHeld = false → s.inBootRom = false →
    (s.servedBlock r).readParam x.level 0x4002 (if b then 4 else 3) = .inr (0, v) →
    ∃ t, exec (.exportBlockRead r b) s = .next t ∧
      t.skein.cursorA = (if b then s.skein.cursorA else (s.exportRead s.skein.cursorA).2) ∧
      t.skein.cursorB = (if b then (s.exportRead s.skein.cursorB).2 else s.skein.cursorB) ∧
      t.skein.queue = s.skein.queue ∧ t.skein.arriving = s.skein.arriving ∧
      (t.session r.sid).bind (·.bs) = some ⟨0x4002, if b then 4 else 3, 0, v, max s.it r.rx⟩ ∧
      Unchanged [.it, .skein, .nets, .freeCtr] s t)

/-- A challenge, its response, and the end of a raised level (R421). The model's choice (Assumption 66): that the count is reset at the end of the lockout and a challenge is served at any level. -/
def Obligations.RaisedLevel : Prop :=
  (∀ (r : Req) (x : Session) (s : State), s.Serves r x → s.nets.lockUntil = none →
    ∃ t, ∃ c : Bytes, exec (.challengeRead r) s = .next t ∧ c.length = 16 ∧ t.nets.challenge = some (c, max s.it r.rx) ∧
      t.Replied r 1 0x1201 1 (le 4 0 ++ c) ∧ Unchanged [.it, .nets, .freeCtr] s t) ∧
   (∀ (r : Req) (x : Session) (v : Bytes) (s : State), s.Takes r x → v.length = 68 → natAt v 1 3 = 0 →
    (natAt v 0 1 = 2 ∨ natAt v 0 1 = 3) →
    ∃ t, exec (.responseWrite r v) s = .next t ∧ t.nets.challenge = none ∧
      ((s.served r).signedBy (natAt v 0 1) v = true → (t.session r.sid).map (·.level) = some (natAt v 0 1) ∧ t.nets.badRow = 0 ∧
        t.nets.raisedAt = max s.it r.rx ∧ s.Accepted t r ∧ Unchanged [.it, .dict, .nets] s t) ∧
      ((s.served r).signedBy (natAt v 0 1) v = false → (t.session r.sid).map (·.level) = some x.level ∧
        t.nets.badRow = s.nets.badRow + 1 ∧ t.nets.bad = sat32 (s.nets.bad + 1) ∧
        (s.nets.badRow = 2 → t.nets.lockUntil = some (max s.it r.rx + 300000000000)) ∧
        t.dict.refused = sat32 (s.dict.refused + 1)) ∧ Unchanged [.it, .dict, .nets, .skein] s t) ∧
   (∀ (r : Req) (x : Session) (s : State), s.Takes r x →
    ∃ t, exec (.relock r) s = .next t ∧ (t.session r.sid).map (·.level) = some 1 ∧ s.Accepted t r ∧
      Unchanged [.it, .dict, .nets] s t) ∧
   (∀ (i : SessionId) (x : Session) (s : State), s.nets.ctrl = some i → s.session i = some x → 1 < x.level →
    ∃ t, exec .raisedLevelTimeout s = .next t ∧ (t.session i).map (·.level) = some 1 ∧
      t.it = max s.it (s.nets.raisedAt + 600000000000) ∧ Unchanged [.it, .nets] s t) ∧
   (∀ (x : IT) (s : State), s.nets.lockUntil = some x →
    ∃ t, exec .challengeLockoutEnd s = .next t ∧ t.nets = { s.nets with lockUntil := none, badRow := 0 } ∧
      t.it = max s.it x ∧ Unchanged [.it, .nets] s t)

/-- A parameter is written, or its write refused (R371, R372, R373, R378, R406). The model's choice (Assumptions 31, 33): the order of the checks and what a refused write-only parameter keeps. -/
def Obligations.Writes : Prop :=
  (∀ (r : Req) (x : Session) (i sub : Nat) (v : Bytes) (d : Desc) (s : State), s.Takes r x → v.length ≤ maxPayload r.sid.net →
    (s.served r).writeCheck x.level i sub v = (0, 0) → findDesc i sub = some d → (d.acc = 1 ∨ d.acc = 3) →
    ∃ t, exec (.parameterWrite r i sub v) s = .next t ∧
      alookup (pkey i sub) (if d.acc = 3 then t.dict.staged else t.dict.store) = some v ∧
      (if d.acc = 3 then t.dict.store = s.dict.store else t.dict.staged = s.dict.staged) ∧
      (∀ k, k ≠ pkey i sub → alookup k t.dict.store = alookup k s.dict.store ∧ alookup k t.dict.staged = alookup k s.dict.staged) ∧
      s.Accepted t r ∧
      Unchanged [.it, .dict, .nets, .skein, .dis, .card, .rate, .time, .motion, .whorl, .spin, .loads, .budget] s t) ∧
   (∀ (r : Req) (x : Session) (i sub c off : Nat) (v : Bytes) (s : State), s.Takes r x → v.length ≤ maxPayload r.sid.net →
    (s.served r).writeCheck x.level i sub v = (c, off) → c ≠ 0 →
    ∃ t, exec (.parameterWrite r i sub v) s = .next t ∧ t.dict.refused = sat32 (s.dict.refused + 1) ∧
      t.dict.store = s.dict.store ∧ t.dict.staged = s.dict.staged ∧ t.dict.old = s.dict.old ∧
      t.Replied r 2 i sub (writeReply c (max s.it r.rx) 0) ∧ Unchanged [.it, .dict, .nets] s t)

/-- A block is written in segments, and transfers end (R407, R408). The model's choice (Assumptions 36, 39): the outstanding requests and the codes of a refused segment. -/
def Obligations.BlockTransfers : Prop :=
  (∀ (r : Req) (x : Session) (i sub total : Nat) (data : Bytes) (s : State), s.Takes r x → data.length ≤ writeRoom r.sid.net →
    data.length < total → blockFail i sub total data.length = 0 →
    ∃ t, exec (.blockWriteSegment r i sub 0 total data) s = .next t ∧
      (t.session r.sid).bind (·.bw) = some ⟨i, sub, total, data, 1, 1, max s.it r.rx⟩ ∧ Unchanged [.it, .nets] s t) ∧
   (∀ (r : Req) (x : Session) (b : BlockWrite) (off : Nat) (data : Bytes) (s : State), s.Takes r x →
    data.length ≤ writeRoom r.sid.net → x.bw = some b → off ≠ 0 → blockFail b.idx b.sub b.total (b.data.length + data.length) = 0 →
    max s.it r.rx < b.last + 1000000000 →
    (off = b.data.length → off + data.length < b.total →
      ∃ t, exec (.blockWriteSegment r b.idx b.sub off b.total data) s = .next t ∧
        (t.session r.sid).bind (·.bw) = some { b with data := b.data ++ data, segs := b.segs + 1, open_ := (if (b.segs + 1) % 16 = 0 then 0 else b.open_ + 1), last := max s.it r.rx } ∧
        Unchanged [.it, .nets] s t) ∧
    (off ≠ b.data.length →
      ∃ t, exec (.blockWriteSegment r b.idx b.sub off b.total data) s = .next t ∧
        (t.session r.sid).bind (·.bw) = some { b with open_ := 0, last := max s.it r.rx } ∧
        t.Replied r 4 b.idx b.sub (segmentAck 0 b.data.length) ∧ Unchanged [.it, .nets] s t)) ∧
   (∀ (i : SessionId) (x : Session) (b : BlockWrite) (s : State), s.session i = some x → x.bw = some b →
    ∃ t, exec (.blockWriteTimeout i) s = .next t ∧ t.session i = some { x with bw := none } ∧
      t.it = max s.it (b.last + 1000000000) ∧ Unchanged [.it, .nets] s t) ∧
   (∀ (i : SessionId) (x : Session) (b : BlockSnap) (s : State), s.session i = some x → x.bs = some b →
    ∃ t, exec (.blockReadSnapshotExpiry i) s = .next t ∧ t.session i = some { x with bs := none } ∧
      t.it = max s.it (b.last + 1000000000) ∧ Unchanged [.it, .nets] s t)

/-- A configuration is committed or discarded (R379, R380, R381, R474). The model's choice (Assumptions 34, 35): what P 0x4401.07 keeps and the reply to a repeat. -/
def Obligations.CommitTakesEffect : Prop :=
  (∀ (r : Req) (x : Session) (p : Bytes) (s : State), s.Serves r x → ((s.served r).commitJudge x.level p).res = 0 →
    ∃ t, exec (.commit r p) s = .next t ∧
      t.dict = { s.dict with commit := some ⟨some (r.sid, r.seq, r.crc), s.dict.imageDigest, boundaryAtOrAfter (max s.it r.rx + 100000)⟩ } ∧
      Unchanged [.it, .dict, .nets] s t) ∧
   (∀ (w : CommitWait) (s : State), s.dict.commit = some w →
    ∃ t, exec .commitBoundary s = .next t ∧ t.it = max s.it w.boundary ∧ t.dict.commit = none ∧ t.dict.staged = [] ∧
      t.dict.store = s.dict.staged.foldl (fun st p => aput p.1 p.2 st) s.dict.store ∧ t.dict.digest = w.digest ∧
      t.dict.commits = sat32 (s.dict.commits + 1) ∧ t.dict.lastAt = w.boundary ∧
      t.power.dev = (if s.power.dev = .unconfigured then (if s.sup.thermal then .safe else .ready) else s.power.dev) ∧
      (s.sup.thermal = false → Unchanged [.it, .time, .power, .rov, .spd, .dis, .bob, .whorl, .spin, .bridges, .ports, .loads, .budget, .dict, .nets, .skein, .mram, .freeCtr] s t)) ∧
   (∀ (r : Req) (x : Session) (s : State), s.Takes r x →
    ∃ t, exec (.discardStaged r) s = .next t ∧ t.dict.staged = [] ∧ t.dict.store = s.dict.store ∧ s.Accepted t r ∧
      Unchanged [.it, .dict, .nets] s t)

/-- A configuration image and the digest re-check (R386, R388). The model's choice (Assumption 33): what a refused image keeps. -/
def Obligations.ConfigurationImages : Prop :=
  (∀ (r : Req) (x : Session) (b : Bytes) (l : List (Nat × Nat × Bytes)) (u : State) (n : Nat) (s : State), s.Takes r x →
    64 ≤ b.length → b.length ≤ 262144 → imageParts b = some l → bit (natAt b 12 1) 0 = false →
    (if bit (natAt b 12 1) 1 then (s.served r).discardStaged else s.served r).applyEntries r.sid x.level l 0 = (u, n, none) →
    ∃ t, exec (.configurationImage r b) s = .next t ∧ n = l.length ∧ t.dict.imgRes = imageOutcome 0 0 n 0 0 ∧
      t.dict.store = u.dict.store ∧ t.dict.staged = u.dict.staged ∧ t.power = u.power) ∧
   (∀ (r : Req) (x : Session) (b v : Bytes) (i sub : Nat) (d : Desc) (u s : State), s.Takes r x →
    64 ≤ b.length → b.length ≤ 262144 → imageParts b = some [(i, sub, v)] → bit (natAt b 12 1) 0 = false →
    u = (if bit (natAt b 12 1) 1 then (s.served r).discardStaged else s.served r) →
    u.writeCheck x.level i sub v = (0, 0) → i ≠ 0x4402 → findDesc i sub = some d → (d.acc = 1 ∨ d.acc = 3) →
    ∃ t, exec (.configurationImage r b) s = .next t ∧ t.dict.imgRes = imageOutcome 0 0 1 0 0 ∧
      alookup (pkey i sub) (if d.acc = 3 then t.dict.staged else t.dict.store) = some v ∧
      (if d.acc = 3 then t.dict.store = s.dict.store else t.dict.staged = u.dict.staged) ∧
      (bit (natAt b 12 1) 1 = true → u.dict.staged = []) ∧ (bit (natAt b 12 1) 1 = false → u.dict.staged = s.dict.staged) ∧
      (∀ k, k ≠ pkey i sub → alookup k t.dict.store = alookup k s.dict.store ∧ alookup k t.dict.staged = alookup k u.dict.staged)) ∧
   (∀ (r : Req) (x : Session) (b : Bytes) (s : State), s.Takes r x → 64 ≤ b.length → b.length ≤ 262144 → imageParts b = none →
    ∃ t, exec (.configurationImage r b) s = .next t ∧ t.dict.imgRes = imageOutcome 2 0x12 0 0 0 ∧
      t.dict.store = s.dict.store ∧ t.dict.staged = s.dict.staged ∧ Unchanged [.it, .dict, .nets] s t) ∧
   (∀ (x : IT) (f : Bytes) (s : State), s.power.dev.awake = true →
    (f = s.dict.imageDigest → ∃ t, exec (.digestRecheck x f) s = .next t ∧ t.it = max s.it x ∧ Unchanged [.it] s t) ∧
    (f ≠ s.dict.imageDigest → ∃ t, exec (.digestRecheck x f) s = .next t ∧
      t.dict = { s.dict with recheck := sat32 (s.dict.recheck + 1), storeBad := true } ∧
      t.sup.reported = s.sup.reported ++ [s.faultNow 0xE00D 0 [] (max s.it x)] ∧ Unchanged [.it, .dict, .sup] s t))

/-- Carding runs, stops and burns repairs on command (R500, R504, R505, R507). The model's choice (Assumptions 63, 121): the cut of a RANGE at slice 16,547, and that no slice is made while the management cores are stopped. -/
def Obligations.CardingOnDemand : Prop :=
  (∀ (r : Req) (x : Session) (c : Instr) (n : Nat) (s : State), s.Takes r x → s.card.run = none →
    (s.card.life = 1 ∧ (s.power.dev = .unconfigured ∨ s.power.dev = .ready) ∨ s.card.life = 3 ∧ s.power.dev = .service ∧ 3 ≤ x.level) →
    (c = .cardingRunAll r ∧ n = cardSlices ∨ c = .cardingRunCore r ∧ n = 36 ∨
      c = .cardingRunRange r ∧ n = min (s.pN 0x4200 3) (cardSlices - s.pN 0x4200 2)) →
    ∃ t, exec c s = .next t ∧ t.card.run.map (fun w => (w.requested, w.run, w.shutdown)) = some (n, 0, false) ∧
      s.Accepted t r ∧ Unchanged [.it, .card, .dict, .nets] s t) ∧
   (∀ (r : Req) (x : Session) (s : State), s.Takes r x →
    (s.card.life = 1 ∧ (s.power.dev = .unconfigured ∨ s.power.dev = .ready) ∨ s.card.life = 3 ∧ s.power.dev = .service ∧ 3 ≤ x.level) →
    (∃ t, exec (.cardingStop r) s = .next t ∧ t.card.run = none ∧ s.Accepted t r ∧
      Unchanged [.it, .skein, .card, .dict, .nets, .freeCtr] s t) ∧
    (∃ t, exec (.burnRepairs r) s = .next t ∧
      t.card.repairs.map (fun y => (y.memory, y.row, y.spare)) = s.card.repairs.map (fun y => (y.memory, y.row, y.spare)) ∧
      (∀ y l, s.card.repairs = y :: l → ((s.card.repairs.filter (fun z => z.memory == y.memory && z.fuse)).length < fuseRows y.memory) →
        t.card.repairs.head?.map (·.fuse) = some true) ∧
      s.Accepted t r ∧ Unchanged [.it, .skein, .card, .dict, .nets] s t)) ∧
   (∀ (x : IT) (i : SliceIn) (w : CardRun) (k : Nat) (l : List (Nat × Nat)) (s : State), s.power.dev.awake = true →
    s.card.run = some w → w.shutdown = false → w.next = some (k, l) → i.badRow = none → s.coresAbsent = false →
    ∃ t, exec (.cardingSlice x i) s = .next t ∧
      (slicePasses k i = true → t.card.results.head? = some ⟨k, 1, 0, s.time.boot, false, sliceSignature k i⟩) ∧
      (slicePasses k i = false → t.card.results.head? = some ⟨k, 2, 0, s.time.boot, true, sliceSignature k i⟩) ∧
      (∀ y, t.card.run = some y → y.run = w.run + 1 ∧ y.todo = l) ∧ t.it = max s.it x ∧
      Unchanged [.it, .card, .skein, .freeCtr] s t)

/-- A life-cycle command waits for the cold start, a key is written once (R486, R489). The model's choice (Assumption 66): that an invalid life-cycle signature uses the challenge. -/
def Obligations.LifeAndKey : Prop :=
  (∀ (r : Req) (x : Session) (v : Bytes) (s : State), s.Takes r x → v.length = 68 → natAt v 1 3 = 0 →
    (s.card.life = 1 ∧ natAt v 0 1 = 2 ∧ 3 ≤ x.level ∨ (s.card.life = 2 ∨ s.card.life = 3) ∧ natAt v 0 1 = 4 ∧ 2 ≤ x.level) →
    ∃ t, exec (.lifecycleCommand r v) s = .next t ∧ t.nets.challenge = none ∧
      ((s.served r).signedBy x.level v = true → t.card = { s.card with pendLife := natAt v 0 1 } ∧ s.Accepted t r) ∧
      ((s.served r).signedBy x.level v = false → t.card = s.card ∧ t.dict.refused = sat32 (s.dict.refused + 1)) ∧
      Unchanged [.it, .card, .dict, .nets] s t) ∧
   (∀ (r : Req) (x : Session) (v : Bytes) (s : State), s.Takes r x → v.length = 64 → (s.card.life = 1 ∨ s.card.life = 2) →
    s.card.key = none →
    ∃ t, exec (.protectedKeyWrite r v) s = .next t ∧
      t.card = { s.card with key := some (leNat (bytesAt v 0 32), leNat (bytesAt v 32 32)) } ∧
      s.Accepted t r ∧ Unchanged [.it, .card, .dict, .nets] s t)

/-- An image is opened, filled, verified, abandoned (R491, R492, R493, R512). The model's choice (Assumption 64): that VERIFY decides at once and which engine a chunk loads. -/
def Obligations.ImageLoads : Prop :=
  (∀ (r : Req) (x : Session) (e : Fin 4) (n : Nat) (s : State), s.Takes r x → 2 ≤ x.level → s.imagesServed = true →
    (s.engine e).slotA.state ≠ 5 → (s.engine e).slotB.state ≠ 5 → 256 < n → n ≤ 256 + bodyMax →
    ∃ t, exec (.imageOpen r e n) s = .next t ∧ (t.engine e).slot (s.engine e).other = ⟨1, n, 0⟩ ∧
      (t.engine e).slot (s.engine e).running = (s.engine e).slot (s.engine e).running ∧ t.card.cmdRes = 0 ∧
      (∀ g, g ≠ e.val → t.engine g = s.engine g) ∧ s.Accepted t r ∧ Unchanged [.it, .card, .dict, .nets] s t) ∧
   (∀ (r : Req) (x : Session) (e k : Nat) (v : Bytes) (s : State), s.Takes r x → 2 ≤ x.level → s.imagesServed = true →
    s.loadEngine = some e → e < 4 → k = (s.engine e).other → 5 ≤ v.length → v.length ≤ 65536 →
    natAt v 0 4 = ((s.engine e).slot k).got → natAt v 0 4 + (v.length - 4) ≤ ((s.engine e).slot k).total →
    s.sliceAt (slotBase e k + natAt v 0 4) (v.length - 4) = false → s.mramHeld = false →
    ∃ t, exec (.imageChunk r v) s = .next t ∧
      (∀ a, (∀ i, i < v.length - 4 → a ≠ slotBase e k + natAt v 0 4 + i) → Memory.read t.mram a = Memory.read s.mram a) ∧
      ((t.engine e).slot k).got = natAt v 0 4 + (v.length - 4) ∧
      ((t.engine e).slot k).state = (if natAt v 0 4 + (v.length - 4) = ((s.engine e).slot k).total then 2 else 1) ∧
      (Memory.wf s.mram → ∀ i, i < v.length - 4 → Memory.read t.mram (slotBase e k + natAt v 0 4 + i) = (v.drop 4).getD i 0) ∧
      s.Accepted t r ∧ Unchanged [.it, .card, .mram, .dict, .nets] s t) ∧
   (∀ (r : Req) (x : Session) (e : Fin 4) (s : State), s.Takes r x → 2 ≤ x.level → s.imagesServed = true →
    2 ≤ ((s.engine e).slot (s.engine e).other).state → ((s.engine e).slot (s.engine e).other).state ≠ 6 →
    ∃ t, exec (.imageVerify r e) s = .next t ∧
      ((t.engine e).slot (s.engine e).other).state = (if s.imageCause e (s.engine e).other = 0 then 3 else 6) ∧
      t.card.cmdCause = s.imageCause e (s.engine e).other ∧ (∀ g, g ≠ e.val → t.engine g = s.engine g) ∧
      s.Accepted t r ∧ Unchanged [.it, .card, .skein, .dict, .nets] s t) ∧
   (∀ (r : Req) (x : Session) (e : Fin 4) (s : State), s.Takes r x → 2 ≤ x.level → s.imagesServed = true →
    ((s.engine e).slot (s.engine e).other).state = 6 →
    ∃ t, exec (.imageVerify r e) s = .next t ∧ t.card.engines = s.card.engines ∧ t.card.cmdCause = 8 ∧
      t.dict.refused = sat32 (s.dict.refused + 1) ∧ Unchanged [.it, .card, .dict, .nets] s t) ∧
   (∀ (r : Req) (x : Session) (e : Fin 4) (s : State), s.Takes r x → 2 ≤ x.level → s.imagesServed = true →
    (((s.engine e).slot (s.engine e).other).state = 1 ∨ ((s.engine e).slot (s.engine e).other).state = 2) →
    ∃ t, exec (.imageAbandon r e) s = .next t ∧ ((t.engine e).slot (s.engine e).other).state = 0 ∧ t.card.cmdCause = 12 ∧
      (∀ g, g ≠ e.val → t.engine g = s.engine g) ∧ s.Accepted t r ∧ Unchanged [.it, .card, .dict, .nets] s t)

/-- An image is switched to and confirmed (R495, R496, R497). The model's choice (Assumption 64): that the boundary is counted from acceptance, since verification takes no modelled time. -/
def Obligations.ImageSwitches : Prop :=
  (∀ (r : Req) (x : Session) (e : Fin 4) (s : State), s.Takes r x → 2 ≤ x.level → s.imagesServed = true →
    s.card.switch = none → s.switchCause e = 0 →
    ∃ t, exec (.imageSwitch r e) s = .next t ∧ t.card.cmdRes = 1 ∧
      t.card.switch = some ⟨e, boundaryAtOrAfter (max s.it r.rx + 100000), 0⟩ ∧ t.card.engines = s.card.engines ∧
      s.Accepted t r ∧ Unchanged [.it, .card, .dict, .nets] s t) ∧
   (∀ (d : Vector Bool 4) (w : SwitchWait) (s : State), s.power.dev.awake = true → s.card.switch = some w → w.engine < 4 →
    ((s.engine w.engine).slot (s.engine w.engine).other).state = 3 → (w.engine = 3 → ∀ b ∈ d.toList, b = true) →
    ∃ t, exec (.imageSwitchBoundary d) s = .next t ∧ t.card.switch = none ∧
      (t.engine w.engine).runB = !(s.engine w.engine).runB ∧
      ((t.engine w.engine).slot (s.engine w.engine).running).state = 3 ∧
      ((t.engine w.engine).slot (s.engine w.engine).other).state = 5 ∧
      (∀ g, g ≠ w.engine → t.engine g = s.engine g) ∧
      Unchanged [.it, .whorl, .dict, .nets, .skein, .sup, .card, .freeCtr] s t) ∧
   (∀ (d : Vector Bool 4) (w : SwitchWait) (s : State), s.power.dev.awake = true → s.card.switch = some w → w.engine = 3 →
    ((s.engine 3).slot (s.engine 3).other).state = 3 → false ∈ d.toList →
    ∃ t, exec (.imageSwitchBoundary d) s = .next t ∧ t.card.engines = s.card.engines ∧ t.it = max s.it w.boundary ∧
      (w.tries < 100 → t.card.switch = some { w with boundary := w.boundary + 1000000, tries := w.tries + 1 }) ∧
      (100 ≤ w.tries → t.card.switch = none ∧ t.card.cmdRes = 2 ∧ t.card.cmdCause = 11)) ∧
   (∀ (r : Req) (x : Session) (s : State), s.Takes r x → 2 ≤ x.level → s.imagesServed = true →
    ∃ t, exec (.imageConfirm r) s = .next t ∧ s.card.rollback ≤ t.card.rollback ∧ t.card.cmdRes = 0 ∧
      (∀ e, e < 4 → ((s.engine e).slot (s.engine e).running).state = 5 → ((t.engine e).slot (s.engine e).running).state = 4) ∧
      (∀ e, (t.engine e).runB = (s.engine e).runB) ∧
      s.Accepted t r ∧ Unchanged [.it, .card, .skein, .dict, .nets] s t)

/-- Pulse edges, index edges and the stop timeout (R59, R61, R62, R63, R64, R66, R71). The model's choice (Assumptions 57, 83): the items of COMPARE-CROSSING and when INDEX-SEEN clears. -/
def Obligations.PulseEdges : Prop :=
  (∀ (i : Fin 8) (x : IT) (l b : Bool) (h e : Nat) (s : State), s.power.dev.awake = true → (s.pulse i).level ≠ some l →
    s.filterTime i ≤ h → (s.pulseMode i = 1 ∨ s.pulseMode i = 2) →
    e = s.pN (0x2010 + i.val) 2 → (e = 2 ∨ (e = 0 ∧ l = true) ∨ (e = 1 ∧ l = false)) →
    ∃ t, exec (.pulseEdge i x l b h) s = .next t ∧
      (t.pulse i).count = clampI (s.pI (0x2010 + i.val) 9) (s.pI (0x2010 + i.val) 0xA)
        (if s.pulseMode i = 1 ∧ s.sourceRev i = true then (s.pulse i).count - 1 else (s.pulse i).count + 1) ∧
      (t.pulse i).level = some l ∧ (t.pulse i).last = x ∧ (t.pulse i).glitches = (s.pulse i).glitches ∧
      t.it = max s.it (x + s.filterTime i) ∧
      (∀ k, k ≠ i.val → t.pulse k = s.pulse k) ∧ Unchanged [.it, .motion, .rate, .skein] s t) ∧
   (∀ (i : Fin 8) (x : IT) (l b : Bool) (h : Nat) (s : State), s.power.dev.awake = true → (s.pulse i).level ≠ some l →
    h < s.filterTime i → s.pulseMode i ≠ 5 →
    ∃ t, exec (.pulseEdge i x l b h) s = .next t ∧
      t.pulse i = { s.pulse i with glitches := sat32 ((s.pulse i).glitches + 1), level := some (!l) } ∧
      (∀ k, k ≠ i.val → t.pulse k = s.pulse k) ∧ Unchanged [.it, .motion] s t) ∧
   (∀ (i : Fin 8) (x : IT) (l : Bool) (h p : Nat) (s : State), s.power.dev.awake = true → (s.pulse i).level ≠ some l →
    s.filterTime i ≤ h → s.pulseMode i ≠ 5 → p = s.leadOf i → s.pulseMode p = 3 →
    (∃ t, exec (.pulseEdge i x l true h) s = .next t ∧ (t.pulse p).count = (s.pulse p).count ∧
      (t.pulse p).illegal = sat32 ((s.pulse p).illegal + 1) ∧ (t.pulse p).uncert = sat32 ((s.pulse p).uncert + 2) ∧
      Unchanged [.it, .motion] s t) ∧
    (∃ t, exec (.pulseEdge i x l false h) s = .next t ∧
      (t.pulse p).count = clampI (s.pI (0x2010 + p) 9) (s.pI (0x2010 + p) 0xA)
        (if (if i.val = p then l != (s.pulse (p + 1)).level.getD false else (s.pulse p).level.getD false == l) =
            !(s.pN (0x2010 + p) 0xD == 1)
         then (s.pulse p).count + 1 else (s.pulse p).count - 1) ∧
      (t.pulse p).uncert = (s.pulse p).uncert ∧ Unchanged [.it, .motion, .rate, .skein] s t)) ∧
   (∀ (p : Fin 2) (x : IndexIn) (s : State), s.power.dev.awake = true → s.pulseMode (4 + p.val) = 5 → s.pulseMode (2 * p.val) = 3 →
    ((s.pulse (4 + p.val)).level ≠ some true ∨ s.filterTime (4 + p.val) ≤ x.low) → s.filterTime (4 + p.val) ≤ x.held →
    ∃ t, exec (.indexEdge p x) s = .next t ∧ t.pulse (4 + p.val) = { s.pulse (4 + p.val) with level := some true } ∧
      (t.pulse (2 * p.val)).uncert = 0 ∧ (t.pulse (2 * p.val)).idxSeen = true ∧
      (t.pulse (2 * p.val)).count = (s.pulse (2 * p.val)).count ∧
      (s.pN (0x2010 + 2 * p.val) 0xB = 1 → (t.pulse (2 * p.val)).jump = some (s.pI (0x2010 + 2 * p.val) 0xC)) ∧
      (∀ k, k ≠ 2 * p.val → k ≠ 4 + p.val → t.pulse k = s.pulse k) ∧ Unchanged [.it, .motion] s t) ∧
   (∀ (p : Fin 2) (x : IndexIn) (s : State), s.power.dev.awake = true → s.pulseMode (4 + p.val) = 5 → s.pulseMode (2 * p.val) = 3 →
    ((s.pulse (4 + p.val)).level = some true ∧ x.low < s.filterTime (4 + p.val) ∨
      (s.pulse (4 + p.val)).level ≠ some true ∧ x.held < s.filterTime (4 + p.val)) →
    ∃ t, exec (.indexEdge p x) s = .next t ∧ (t.pulse (4 + p.val)).glitches = sat32 ((s.pulse (4 + p.val)).glitches + 1) ∧
      (t.pulse (4 + p.val)).level = some ((s.pulse (4 + p.val)).level == some true) ∧
      (∀ k, k ≠ 4 + p.val → t.pulse k = s.pulse k) ∧ Unchanged [.it, .motion] s t) ∧
   (∀ (i : Fin 8) (s : State), s.power.dev.awake = true → 1 < (s.pulse i).status →
    ∃ t, exec (.pulseStopTimeout (.pulse i)) s = .next t ∧ t.pulse i = { s.pulse i with status := 1, edges := [] } ∧
      t.it = max s.it ((s.pulse i).last + s.pN (0x2010 + i.val) 7 * 1000000) ∧
      (∀ k, k ≠ i.val → t.pulse k = s.pulse k) ∧ Unchanged [.it, .motion] s t)

/-- A Hall move is an edge, or is counted as illegal or invalid (R74). -/
def Obligations.HallMoves : Prop :=
  ∀ (h : Fin 2) (x : IT) (q : HallIn) (o : BitVec 3) (a : Int) (s : State), s.power.dev.awake = true →
    s.pB (0x2040 + h.val) 1 = true → (∀ k, k < 3 → s.pN (0x2040 + h.val) 4 ≤ vget q.held k 0) →
    (s.hall h).code = some o → o ≠ q.code → a = (if s.pN (0x2040 + h.val) 2 = 1 then -1 else 1) →
    ∃ t, exec (.hallEdge h x q) s = .next t ∧ t.it = max s.it (x + s.pN (0x2040 + h.val) 4) ∧ (t.hall h).code = some q.code ∧
      (t.hall h).illegal = (if 2 ≤ linesMoved o q.code then sat32 ((s.hall h).illegal + 1) else (s.hall h).illegal) ∧
      (t.hall h).invalid = (if hallSector q.code = 0 then sat32 ((s.hall h).invalid + 1) else (s.hall h).invalid) ∧
      (t.hall h).badCode = (hallSector q.code == 0) ∧
      (2 ≤ linesMoved o q.code ∧ (s.hall h).sector ≠ 0 ∨ hallSector q.code = 0 →
        (t.hall h).sector = (s.hall h).sector ∧ (t.hall h).count = (s.hall h).count ∧
        (t.hall h).edges = (s.hall h).edges ∧ (t.hall h).last = (s.hall h).last ∧ (t.hall h).status = (s.hall h).status) ∧
      (linesMoved o q.code = 1 → (s.hall h).sector ≠ 0 → hallSector q.code = (s.hall h).sector % 6 + 1 →
        (t.hall h).sector = hallSector q.code ∧ (t.hall h).count = satI32 ((s.hall h).count + a) ∧
        (t.hall h).last = x ∧ (t.hall h).edges.head? = some x) ∧
      (linesMoved o q.code = 1 → (s.hall h).sector ≠ 0 → hallSector q.code ≠ 0 → (s.hall h).sector = hallSector q.code % 6 + 1 →
        (t.hall h).sector = hallSector q.code ∧ (t.hall h).count = satI32 ((s.hall h).count - a) ∧
        (t.hall h).last = x ∧ (t.hall h).edges.head? = some x) ∧
      (∀ k, k ≠ h.val → t.hall k = s.hall k) ∧ Unchanged [.it, .motion, .ports] s t

/-- Hall lines that do not hold, a Hall stop and inertial events (R59, R66, R87, R88). The model's choice (Assumptions 82, 85): the first code of a set and the use of the bias status. -/
def Obligations.HallAndInertial : Prop :=
  (∀ (h : Fin 2) (x : IT) (q : HallIn) (s : State), s.power.dev.awake = true → (s.hall h).code.isSome = true →
    (∀ k, k < 3 → vget q.held k 0 < s.pN (0x2040 + h.val) 4) → exec (.hallEdge h x q) s = .next s) ∧
   (∀ (h : Fin 2) (s : State), s.power.dev.awake = true → 1 < (s.hall h).status →
    ∃ t, exec (.pulseStopTimeout (.hall h)) s = .next t ∧ t.hall h = { s.hall h with status := 1, edges := [], slowAt := (if (s.hall h).status = 2 then (s.hall h).slowAt else t.it) } ∧ t.it = max s.it ((s.hall h).last + s.pN (0x2040 + h.val) 5 * 1000000) ∧ Unchanged [.it, .motion] s t) ∧
   (∀ s : State, s.power.dev.awake = true →
    ∃ t, exec .inertialSampleLate s = .next t ∧ t.motion.inert.soft = true ∧ t.motion.inert.fresh = false ∧
      t.motion.inert.faults = sat32 (s.motion.inert.faults + 1) ∧ t.it = max s.it (s.time.frame + 500000) ∧
      Unchanged [.it, .motion] s t) ∧
   (∀ (x t0 : IT) (s : State), s.power.dev.awake = true → s.motion.inert.still = some t0 → s.motion.inert.n ≠ 0 →
    t0 + s.pN 0x2060 5 * 1000000 ≤ x →
    ∃ t, exec (.standstillBias x) s = .next t ∧ t.motion.inert.bias = s.motion.inert.mean ∧ t.motion.inert.status = 2 ∧
      t.motion.inert.estIt = some (max s.it x) ∧ t.motion.inert.estTemp = s.motion.inert.temp ∧ Unchanged [.it, .motion] s t) ∧
   (∀ (x : IT) (s : State), s.power.dev.awake = true → s.motion.inert.still = none →
    s.motion.inert.status = 2 → s.motion.inert.stillAt + s.pN 0x2060 7 * 1000000000 ≤ x →
    ∃ t, exec (.biasStale x) s = .next t ∧ t.motion.inert = { s.motion.inert with status := 3 } ∧ Unchanged [.it, .motion] s t)

/-- Sentences and messages become measurements (R78, R79, R80, R83). The model's choice (Assumption 19): the byte layout of PGN 127250. -/
def Obligations.MotionMessages : Prop :=
  (∀ (u : Fin 2) (x : IT) (b : Bytes) (s : State), s.power.dev.awake = true →
    ((b.head? ≠ some 0x24 ∨ 82 < b.length) → ∃ t, exec (.nmeaSentence u x b) s = .next t ∧
      (t.uart u).other = sat32 ((s.uart u).other + 1) ∧ t.motion.gather = s.motion.gather ∧ Unchanged [.it, .motion] s t) ∧
    (b.head? = some 0x24 → b.length ≤ 82 → checkedBody b = none → ∃ t, exec (.nmeaSentence u x b) s = .next t ∧
      (t.uart u).csFail = sat32 ((s.uart u).csFail + 1) ∧ t.motion.gather = s.motion.gather ∧ Unchanged [.it, .motion] s t) ∧
    (∀ (c : Bytes) (a : Int), b.head? = some 0x24 → b.length ≤ 82 → checkedBody b = some c →
      fieldOf (splitComma c) 0 = [0x48, 0x45, 0x48, 0x44, 0x54] → bit (s.pN (0x2050 + u.val) 3) 3 = true →
      decimalOf (fieldOf (splitComma c) 1) 9 = some a → s.roleHas u 2 = true →
      ∃ t, exec (.nmeaSentence u x b) s = .next t ∧ (t.uart u).accepted = sat32 ((s.uart u).accepted + 1) ∧
        t.motion.gather = s.motion.gather ++ [.heading u (s.validityUntimed u x) (degToBam a)] ∧ Unchanged [.it, .motion] s t)) ∧
   (∀ (x : IT) (src : Nat) (d : Bytes) (s : State), s.power.dev.awake = true → bit (s.pN 0x2058 1) 2 = true →
    (s.pN 0x2058 2 = 255 ∨ s.pN 0x2058 2 = src) → natAt d 7 1 % 4 = 0 → natAt d 1 2 ≤ 0xFFFC →
    ∃ t, exec (.canAMotionMessage x 127250 src d) s = .next t ∧ t.motion.n2kOk = sat32 (s.motion.n2kOk + 1) ∧
      t.motion.gather = s.motion.gather ++ [.heading 2 (x - s.pN 0x2058 3) (radToAngle (natAt d 1 2))] ∧
      Unchanged [.it, .motion] s t) ∧
   (ggaQuality 1 = 1 ∧ ggaQuality 2 = 2 ∧ ggaQuality 5 = 3 ∧ ggaQuality 4 = 4 ∧ ∀ q, q ∉ [1, 2, 4, 5] → ggaQuality q = 0)

/-- Pulses per second, the TIME service, copies and marks of time (R37, R41, R45, R46, R49). The model's choice (Assumptions 81, 103, 123): the floor against wall time plus latency, when a returning source steps, and the first TIME-MARK after a cold start. -/
def Obligations.TimeEvents : Prop :=
  (∀ (x : IT) (s : State), s.power.dev.awake = true → s.ppsPaired = true →
    (s.time.ppsSeen = false → ∃ t, exec (.ppsEdge x) s = .next t ∧ t.time.ppsLast = x ∧ t.time.ppsSeen = true ∧
      t.time.ppsBad = s.time.ppsBad ∧ Unchanged [.it, .time, .skein] s t) ∧
    (s.time.ppsSeen = true → x ≤ s.time.ppsLast + 3000000000 →
      (x + 200000 < s.time.ppsLast + 1000000000 ∨ s.time.ppsLast + 1000200000 < x) →
      ∃ t, exec (.ppsEdge x) s = .next t ∧ t.time = { s.time with ppsBad := sat32 (s.time.ppsBad + 1) } ∧
        Unchanged [.it, .time] s t)) ∧
   (∀ (r : Req) (x : Session) (p : Bytes) (s : State), s.Serves r x → 1 ≤ x.level → p.length = 16 → natAt p 12 1 = 1 →
    s.inBootRom = false → .host ∈ s.priorities → (∀ w ∈ s.priorities.takeWhile (fun w => w != .host), (s.served r).sourceValid w = false) →
    (wallFloor : Int) ≤ (natAt p 0 8 : Int) + intAt p 8 4 →
    ∃ t, exec (.timeService r p) s = .next t ∧ t.time.hostOk = true ∧ t.time.wallSet = true ∧
      t.time.offset = (((natAt p 0 8 : Int) + intAt p 8 4).toNat : Int) - r.rx ∧
      Unchanged [.it, .time, .nets, .skein] s t) ∧
   (∀ (x : IT) (s : State), s.power.dev.awake = true → s.sliceAt 0xFFC00000 0x100000 = false →
    ∃ t, exec (.epochCopyWrite x) s = .next t ∧
      (if s.time.nextB then t.time = { s.time with copyB := ⟨max s.it x, s.time.boot, true⟩, nextB := false }
       else t.time = { s.time with copyA := ⟨max s.it x, s.time.boot, true⟩, nextB := true }) ∧ Unchanged [.it, .time] s t) ∧
   (∀ s : State, s.power.dev.awake = true →
    ∃ t, exec .timeMark s = .next t ∧ t.it = max s.it s.markAt ∧ t.time = { s.time with mark := s.markAt } ∧
      t.skein.arriving = s.skein.arriving ++ [⟨0x0008, s.markAt, s.time.boot, 0, []⟩] ∧ Unchanged [.it, .time, .skein] s t) ∧
   (∀ (w : WallSource) (l : IT) (s : State), s.power.dev.awake = true → s.lastFrom w = some l →
    ∃ t, exec (.wallSourceTimeout w) s = .next t ∧ t.lastFrom w = none ∧ t.it = max s.it (l + s.pN 0x1101 9 * 1000000) ∧
      Unchanged [.it, .time, .nets] s t)

/-- Heartbeats open, keep and end sessions and control (R398, R400, R401, R405, R410, R411, R413, R418, R423, R456). The model's choice (Assumptions 37, 38, 40, 45): that CONTROL with RELEASE releases, and the count per frame sent with its due rule. -/
def Obligations.Heartbeats : Prop :=
  (∀ (i : SessionId) (p : Bytes) (x : IT) (s : State), s.netUp i.net = true → i.byte ≠ 0 → p.length = 8 →
    (∀ y, s.session i = some y → s.nets.ctrl ≠ some i → bit (natAt p 0 1) 0 = false →
      ∃ t, exec (.hostHeartbeat i p x) s = .next t ∧ t.session i = some { y with beat := x } ∧ t.nets.ctrl = s.nets.ctrl ∧
        Unchanged [.it, .nets] s t) ∧
    (s.session i = none → s.mayOpen i.net = true → s.nets.ctrl ≠ some i → bit (natAt p 0 1) 0 = false →
      ∃ t, exec (.hostHeartbeat i p x) s = .next t ∧ t.session i = some ⟨i, 0, x, [], none, none⟩ ∧
        Unchanged [.it, .nets] s t) ∧
    (∀ y, s.session i = some y → s.nets.ctrl = none → bit (natAt p 0 1) 0 = true → bit (natAt p 0 1) 1 = false →
      ∃ t, exec (.hostHeartbeat i p x) s = .next t ∧ t.nets.ctrl = some i ∧ t.session i = some { y with beat := x, level := 1 } ∧
        t.sup = { s.sup with hostGone := false } ∧ Unchanged [.it, .nets, .sup] s t) ∧
    (∀ y, s.session i = some y → s.nets.ctrl = some i → bit (natAt p 0 1) 1 = true →
      ∃ t, exec (.hostHeartbeat i p x) s = .next t ∧ t.nets.ctrl = none ∧ t.session i = some { y with beat := x, level := 0 } ∧
        (s.sup.hostGone = false →
          t.sup.reported = s.sup.reported ++ [s.faultNow 0xE00F (Net.code i.net) [] (max s.it x)]) ∧ Unchanged [.it, .nets, .sup] s t)) ∧
   (∀ (n : Net) (x : IT) (s : State), s.power.dev.awake = true → s.netUp n = true → n ∈ s.netsWithSession →
    (s.at x).beatDue (Net.bitNo n) = true →
    ∃ t, exec (.deviceHeartbeat (some n) x) s = .next t ∧ t.nets.beats = (s.nets.beats + 1) % 65536 ∧
      (∃ a p q, t.nets.tx.getLast? = some (s.pagrimSent n a p 0 q 8 0 0 0 (s.at x).beatPayload)) ∧ Unchanged [.it, .nets, .freeCtr] s t) ∧
   (∀ (x : IT) (s : State), s.power.dev.awake = true → s.canUp 2 = true → s.nets.canA.claimed ≠ 0xFE → s.pB 0x1230 0xB = true →
    (s.at x).beatDue 3 = true →
    ∃ t, exec (.deviceHeartbeat none x) s = .next t ∧ t.nets.beats = (s.nets.beats + 1) % 65536 ∧
      t.nets.tx.getLast? = some (.canA 3 65400 s.nets.canA.claimed 255 (s.at x).statusMessage) ∧ Unchanged [.it, .nets] s t) ∧
   (∀ (i : SessionId) (y : Session) (s : State), s.session i = some y →
    ∃ t, exec (.sessionTimeout i) s = .next t ∧ t.session i = none ∧ t.nets.ctrl ≠ some i ∧
      t.it = max s.it (y.beat + s.pN 0x1200 1 * 3000000) ∧ (∀ j, j ≠ i → s.nets.ctrl ≠ some i → t.session j = s.session j) ∧
      Unchanged [.it, .nets, .sup] s t) ∧
   (∀ (i : SessionId) (y : Session) (s : State), s.nets.ctrl = some i → s.session i = some y →
    s.sup.hostGone = false →
    ∃ t, exec .hostLoss s = .next t ∧ t.sup.hostGone = true ∧ t.it = max s.it (y.beat + s.pN 0x1200 1 * 1500000) ∧
      t.sup.reported = s.sup.reported ++ [s.faultNow 0xE00F (Net.code i.net) [] t.it] ∧ Unchanged [.it, .nets, .sup] s t) ∧
   (∀ (n : Net) (b : Bytes) (c : Nat) (s : State), n ≠ .eth → s.netUp n = true → s.coresAbsent = false → frameFail n b = some c →
    ∃ t, exec (.pagrimFrameDiscard n (.can true true b)) s = .next t ∧ vget t.nets.frames 0 0 = sat32 (vget s.nets.frames 0 0 + 1) ∧
      vget t.nets.frames c 0 = sat32 (vget s.nets.frames c 0 + 1) ∧ t.nets.tx = s.nets.tx ∧ Unchanged [.it, .nets] s t) ∧
   (∀ (n : Net) (ext fd : Bool) (b : Bytes) (s : State), n ≠ .eth → s.netUp n = true → s.coresAbsent = false → (ext && fd) = false →
    ∃ t, exec (.pagrimFrameDiscard n (.can ext fd b)) s = .next t ∧
      vget t.nets.frames 2 0 = sat32 (vget s.nets.frames 2 0 + 1) ∧ t.nets.tx = s.nets.tx ∧ Unchanged [.it, .nets] s t) ∧
   (∀ (n : Net) (b : Bytes) (s : State), n ≠ .eth → frameFail n b = none → natAt b 4 1 = 8 →
    exec (.pagrimFrameDiscard n (.can true true b)) s =
      exec (.hostHeartbeat ⟨n, natAt b 1 1, 0, 0⟩ (bytesAt b 12 (frameLength b)) s.it) s) ∧
   (∀ (b : Bytes) (s : State), s.ethUp = true → ethKind (s.pN 0x1220 1) b = .bad →
    ∃ t, exec (.pagrimFrameDiscard .eth (.eth b)) s = .next t ∧ vget t.nets.eth.counters 2 0 = sat32 (vget s.nets.eth.counters 2 0 + 1) ∧
      t.nets.tx = s.nets.tx ∧ Unchanged [.nets] s t)

/-- Bus-off, addresses and messages on CAN (R416, R422). The model's choice (Assumptions 19, 67, 70, 119): that a bus-off is counted at its recovery, the 120 addresses, and the bytes of the claim message. -/
def Obligations.CanNetworks : Prop :=
  (∀ (c : Fin 3) (x : IT) (e : CanState) (d : CanNet) (s : State), s.canUp c = true →
    ∃ t, exec (.canBusOff c ⟨x, e⟩) s = .next t ∧ t.it = max s.it x ∧ (∀ k, k ≠ c.val → t.canUp k = s.canUp k) ∧
      (e = .active → (vget t.nets.can c d).bus = 0) ∧ (e = .passive → (vget t.nets.can c d).bus = 1 ∧ t.canUp c = true) ∧
      (e = .busOff → t.canUp c = false ∧ (vget t.nets.can c d).bus = 2) ∧
      (e = .overrun → vget (vget t.nets.can c d).counters 3 0 = sat32 (vget (vget s.nets.can c d).counters 3 0 + 1) ∧
        (vget t.nets.can c d).bus = (vget s.nets.can c d).bus) ∧
      Unchanged [.it, .nets] s t) ∧
   (∀ (c : Fin 3) (x : IT) (d : CanNet) (s : State), s.power.dev.awake = true → (vget s.nets.can c d).bus = 2 →
    ∃ t, exec (.busOffRecovery c x) s = .next t ∧ (vget t.nets.can c d).bus = 0 ∧
      vget (vget t.nets.can c d).counters 2 0 = sat32 (vget (vget s.nets.can c d).counters 2 0 + 1) ∧ Unchanged [.it, .nets] s t) ∧
   (∀ (x : IT) (s : State), s.isoOn = true → s.nets.canA.retryAt = none →
    (s.nets.canA.trying = 0xFE → ∃ t, exec (.addressClaim x .start) s = .next t ∧ t.nets.canA.trying = s.pN 0x1230 2 ∧
      t.nets.canA.claimed = 0xFE ∧ t.nets.tx.getLast? = some (.canA 6 60928 (s.pN 0x1230 2) 255 s.isoName) ∧ Unchanged [.it, .nets] s t) ∧
    (s.nets.canA.trying ≠ 0xFE → s.nets.canA.tried + 1 < 120 →
      ∃ t, exec (.addressClaim x .lost) s = .next t ∧ t.nets.canA.trying = nextAddress s.nets.canA.trying ∧
        t.nets.canA.claimed = 0xFE ∧ t.nets.canA.tried = s.nets.canA.tried + 1 ∧ Unchanged [.it, .nets] s t) ∧
    (s.nets.canA.trying ≠ 0xFE → 120 ≤ s.nets.canA.tried + 1 →
      ∃ t, exec (.addressClaim x .lost) s = .next t ∧ t.nets.canA.trying = 0xFE ∧ t.nets.canA.noAddr = true ∧
        t.nets.canA.retryAt = some (max s.it x + 10000000000) ∧ Unchanged [.it, .nets] s t) ∧
    (s.nets.canA.trying ≠ 0xFE → ∃ t, exec (.addressClaim x .stands) s = .next t ∧
      t.nets.canA = { s.nets.canA with claimed := s.nets.canA.trying, tried := 0, noAddr := false } ∧ Unchanged [.it, .nets] s t)) ∧
   (∀ (x y : IT) (s : State), s.isoOn = true → s.nets.canA.retryAt = some y → y ≤ x →
    ∃ t, exec (.addressRetry x) s = .next t ∧ t.nets.canA.trying = s.pN 0x1230 2 ∧ t.nets.canA.retryAt = none ∧
      t.nets.tx.getLast? = some (.canA 6 60928 (s.pN 0x1230 2) 255 s.isoName) ∧ Unchanged [.it, .nets] s t) ∧
   (∀ (x : IT) (i : Fin 4) (d : Vector Byte 8) (s : State), s.canAServed = true →
    ∃ t, exec (.hitchPtoMessage x i d) s = .next t ∧ t.nets.canA = { s.nets.canA with
      hitch := vset s.nets.canA.hitch i (shortStamp (max s.it x), d) } ∧ Unchanged [.it, .nets] s t)

/-- Ethernet: the link, ARP, echo and gPTP (R12, R418, R419). The model's choice (Assumptions 67, 69, 119): the state of gPTP after link loss, the discard while it is disabled, and the bytes of the protocols. -/
def Obligations.Ethernet : Prop :=
  (∀ (x : IT) (s : State), s.power.dev.awake = true →
    (s.power.dev ≠ .shutdown → s.power.crystalOk = true → s.nets.eth.up = false → ∃ t, exec (.ethLinkUp x) s = .next t ∧
      t.nets.eth.up = true ∧ t.power = { s.power with eth := true } ∧
      t.nets.eth.gptp = (if s.pB 0x1220 5 then 1 else 0) ∧
      t.nets.tx.getLast? = some (.arp false Config.macAddress (s.pN 0x1220 1) 0xFFFFFFFFFFFF (s.pN 0x1220 1)) ∧ Unchanged [.it, .power, .nets] s t) ∧
    (s.nets.eth.up = true → ∃ t, exec (.ethLinkDown x) s = .next t ∧ t.nets = { s.nets with eth := { s.nets.eth with
        up := false, gptp := min 1 s.nets.eth.gptp, syncRx := none, respT2 := none } } ∧ Unchanged [.it, .time, .nets] s t)) ∧
   (∀ (x : IT) (ip mac dst : Nat) (s : State), s.stackUp = true →
    (dst = s.pN 0x1220 1 → ∃ t, exec (.arpRequest x ip mac dst) s = .next t ∧
      t.nets.eth.arp = arpPut ip mac (max s.it x) s.nets.eth.arp ∧ t.nets.tx.getLast? = some (.arp true Config.macAddress dst mac ip) ∧
      Unchanged [.it, .nets] s t) ∧
    (dst ≠ s.pN 0x1220 1 → ∃ t, exec (.arpRequest x ip mac dst) s = .next t ∧ t.nets.tx = s.nets.tx ∧
      t.nets.eth.arp = s.nets.eth.arp ∧ vget t.nets.eth.counters 2 0 = sat32 (vget s.nets.eth.counters 2 0 + 1) ∧
      Unchanged [.it, .nets] s t)) ∧
   (∀ (ip mac : Nat) (y : IT) (s : State), s.power.dev.awake = true → s.nets.eth.arp.find? (fun e => e.1 == ip) = some (ip, mac, y) →
    ∃ t, exec (.arpCacheExpiry ip) s = .next t ∧ t.nets.eth.arp = s.nets.eth.arp.filter (fun e => e.1 != ip) ∧
      t.it = max s.it (y + 300000000000) ∧ Unchanged [.it, .nets] s t) ∧
   (∀ (x : IT) (src dst : Nat) (d : Bytes) (s : State), s.stackUp = true → dst = s.pN 0x1220 1 → d.length ≤ 1472 →
    ∃ t, exec (.icmpEcho x src dst d) s = .next t ∧ t.nets.tx.getLast? = some (.echo src d) ∧ Unchanged [.it, .nets] s t) ∧
   (∀ (x : IT) (n : Nat) (s : State), s.stackUp = true →
    (s.pB 0x1220 5 = true → ∃ t, exec (.gptpMessage x (.sync n)) s = .next t ∧ t.nets.eth.syncSeq = n ∧
      t.nets.eth.syncRx = some (max s.it x) ∧ Unchanged [.it, .nets] s t) ∧
    (s.pB 0x1220 5 = true → ∃ t q, exec (.gptpMessage x (.pdelayReq n)) s = .next t ∧
      t.nets.tx = s.nets.tx ++ [.gptp 1 n (max s.it x), .gptp 2 n q] ∧ Unchanged [.it, .nets, .freeCtr] s t) ∧
    (s.pB 0x1220 5 = false → ∀ m, ∃ t, exec (.gptpMessage x m) s = .next t ∧ t.nets.tx = s.nets.tx ∧
      vget t.nets.eth.counters 2 0 = sat32 (vget s.nets.eth.counters 2 0 + 1) ∧ Unchanged [.it, .nets] s t) ∧
    (s.pB 0x1220 5 = true → ∃ t, exec (.peerDelayRequest x) s = .next t ∧
      t.nets.eth.reqSeq = (s.nets.eth.reqSeq + 1) % 65536 ∧ t.nets.eth.reqTx = max s.it x ∧
      t.nets.tx.getLast? = some (.gptp 0 ((s.nets.eth.reqSeq + 1) % 65536) (max s.it x)) ∧ Unchanged [.it, .nets] s t))

/-- The task controller client (R425, R426, R427). The model's choice (Assumptions 19, 71, 119): that an interval report counts as the value sent, and the command bytes. -/
def Obligations.TaskController : Prop :=
  (∀ (x : IT) (v n : Nat) (s : State), s.clientOn = true →
    (n = s.pN 0x1231 1 → ∃ t, exec (.taskControllerStatus x (.status n)) s = .next t ∧
      t.nets.canA = { s.nets.canA with tcSeen := some (max s.it x) } ∧ Unchanged [.it, .nets] s t) ∧
    (n = s.pN 0x1231 1 → (v = 3 ∨ v = 4) → s.nets.canA.tcOn = false → s.dict.ever = true →
      ∃ t, exec (.taskControllerStatus x (.version n v)) s = .next t ∧ t.nets.canA.tcOn = true ∧ t.nets.canA.pool = 1 ∧
        Unchanged [.it, .nets, .freeCtr] s t)) ∧
   (∀ (x : IT) (g ms : Nat) (s : State), s.clientOn = true → s.nets.canA.tcOn = true →
    (reported g = true → ms ≠ 0 → ∃ t, exec (.tcMessage x (.intervalTrigger g ms)) s = .next t ∧
      t.nets.canA.triggers = s.nets.canA.triggers.filter (fun e => e.1 != g) ++ [(g, ms, max s.it x + ms * 1000000)] ∧
      Unchanged [.it, .nets] s t) ∧
    (reported g = true → ∃ t, exec (.tcMessage x (.requestValue g)) s = .next t ∧
      t.nets.canA.lastSent.head?.map (fun e => (e.1, e.2.1)) = some (g, max s.it x) ∧ Unchanged [.it, .nets, .freeCtr] s t) ∧
    (∃ t a, exec (.tcMessage x (.distanceTrigger g)) s = .next t ∧ t.nets.canA = s.nets.canA ∧
      t.nets.tx.getLast? = some (.canA 3 51968 s.nets.canA.claimed a ([0x1D, 0] ++ le 2 g ++ le 1 8 ++ [0xFF, 0xFF, 0xFF])) ∧
      Unchanged [.it, .nets, .freeCtr] s t) ∧
    (∃ t a, exec (.tcMessage x (.thresholdTrigger g)) s = .next t ∧ t.nets.canA = s.nets.canA ∧
      t.nets.tx.getLast? = some (.canA 3 51968 s.nets.canA.claimed a ([0x1D, 0] ++ le 2 g ++ le 1 8 ++ [0xFF, 0xFF, 0xFF])) ∧
      Unchanged [.it, .nets, .freeCtr] s t)) ∧
   (∀ (x y : IT) (g ms : Nat) (s : State), s.clientOn = true → s.nets.canA.tcOn = true → y ≤ x →
    s.nets.canA.triggers.find? (fun e => e.1 == g) = some (g, ms, y) →
    ∃ t, exec (.timeIntervalTrigger g x) s = .next t ∧
      t.nets.canA.triggers.find? (fun e => e.1 == g) = some (g, ms, y + ms * 1000000) ∧
      t.nets.canA.lastSent.head?.map (fun e => (e.1, e.2.1)) = some (g, max s.it x) ∧ Unchanged [.it, .nets, .freeCtr] s t) ∧
   (∀ (x y : IT) (s : State), s.nets.canA.tcSeen = some y → s.power.dev.awake = true → s.coresAbsent = false →
    s.nets.canA.tcOn = true → y + 6000000000 ≤ x →
    ∃ t, exec (.tcDisconnect x) s = .next t ∧ t.nets.canA.tcOn = false ∧ t.nets.canA.tcSeen = none ∧ t.nets.canA.pool = 0 ∧
      t.nets.canA.section_ = false ∧ t.nets.canA.triggers = [] ∧ Unchanged [.it, .spd, .nets, .skein] s t)

/-- A record passes the ingest stage, its hold, its loss and the log (R435, R439, R440, R441, R442, R443, R445, R447, R448). The model's choice (Assumptions 21, 47, 48): that every failing row is relocated, and the order of arrival. -/
def Obligations.RecordPath : Prop :=
  (∀ (r : Rec) (l : List Rec) (s : State), s.power.dev.awake = true → s.skein.arriving = r :: l →
    ∃ t, exec .recordIngest s = .next t ∧ t.skein.arriving = l ∧
      (privileged r.code = false → r.code < 65536 → s.skein.heldOf (r.code / 4096) = none →
        t.skein.heldOf (r.code / 4096) = some ⟨r, 0, 0, classOf r.code, 0, 0, 0, [], false⟩) ∧
      (privileged r.code = false → r.code < 65536 → ∀ h, s.skein.heldOf (r.code / 4096) = some h → h.r.code = r.code → h.r.subj = r.subj →
        r.it ≤ h.r.it + s.pN 0x4000 2 * 1000000 → h.reps < 65534 →
        t.skein.heldOf (r.code / 4096) = some { h with reps := h.reps + 1, lastRep := shortStamp r.it }) ∧
      Unchanged [.nets, .skein, .freeCtr] s t) ∧
   (∀ (k : Fin 16) (h : Entry) (s : State), s.power.dev.awake = true → s.skein.heldOf k = some h →
    s.skein.hasRoom (spareCode h.r.code) = true → s.snapSets h.r.code = [] →
    ∃ t, exec (.heldRecordRelease k) s = .next t ∧ t.skein.heldOf k = none ∧
      t.skein.queue.length = s.skein.queue.length + 1 ∧ t.skein.queue.getLast?.map (fun e => (e.r, e.reps)) = some (h.r, h.reps) ∧
      t.it = max s.it (h.r.it + s.pN 0x4000 2 * 1000000) ∧ Unchanged [.it, .nets, .skein, .freeCtr] s t) ∧
   (∀ s : State, s.power.dev.awake = true →
    ∃ t, exec .limitedSecondEnd s = .next t ∧ t.it = max s.it ((s.skein.second + 1) * 1000000000) ∧
      t.skein.limited = [] ∧ t.skein.second = t.it / 1000000000 ∧ Unchanged [.it, .nets, .skein, .freeCtr] s t) ∧
   (∀ (x : IT) (c : Nat) (s : State), s.power.dev.awake = true → s.skein.lossFirst = some (x, c) → s.skein.general ≤ 7168 →
    s.snapSets 3 = [] →
    ∃ t, exec .lossRecord s = .next t ∧ t.skein.lossFirst = none ∧ t.skein.lossNow = Vector.replicate 4 0 ∧
      t.skein.queue.getLast?.map (·.r) = some ⟨3, x, s.time.boot, 0, leAll 4 s.skein.lossNow.toList ++ le 2 c⟩ ∧
      Unchanged [.nets, .skein, .freeCtr] s t) ∧
   (∀ (c : Nat) (w : AlarmWin) (s : State), s.power.dev.awake = true → s.coresAbsent = false →
    s.skein.windows.find? (fun w => w.code == c) = some w →
    ∃ t, exec (.alarmWindowEnd c) s = .next t ∧ t.it = max s.it w.ends ∧
      (w.count = 0 → t.skein.windows.find? (fun w => w.code == c) = none) ∧
      (w.count ≠ 0 → t.skein.windows.find? (fun w => w.code == c) = some { w with ends := w.ends + 100000000, count := 0 }) ∧
      Unchanged [.it, .nets, .skein, .freeCtr] s t) ∧
   (∀ (e : Entry) (l : List Entry) (s : State), s.power.dev.awake = true → s.coresAbsent = false →
    takeLowest s.skein.queue = some (e, l) → e.snaps = [] → s.skein.sramOnly = false →
    ∃ t, exec .recordWrite s = .next t ∧ t.skein.queue = l ∧ t.skein.nextSeq = (s.skein.nextSeq + 1) % 4294967296 ∧
      t.skein.slotPtr = (s.skein.slotPtr + 1) % logSlots ∧
      (∀ a, (a < logBase + 64 * s.skein.slotPtr ∨ logBase + 64 * s.skein.slotPtr + 64 ≤ a) →
        Memory.read t.mram a = Memory.read s.mram a) ∧
      (Memory.wf s.mram → Memory.readBlock t.mram (logBase + 64 * s.skein.slotPtr) 64 = e.bytes s.skein.nextSeq e.flags) ∧
      Unchanged [.skein, .mram] s t) ∧
   (∀ (x : IT) (row : Nat) (s : State), s.power.dev.awake = true → s.skein.sramOnly = false →
    ∃ t, exec (.logRowFailure x row) s = .next t ∧ t.skein.logFault = true ∧
      (s.skein.logFault = true → t.skein.lastWord = s.skein.lastWord) ∧
      (∀ k, s.freeSpare 7 384 512 = some k → t.skein.remap = s.skein.remap ++ [(row, k)] ∧ t.skein.sramOnly = false ∧
        t.card.repairs = s.card.repairs ++ [⟨7, false, row, k, s.time.boot⟩]) ∧
      (s.freeSpare 7 384 512 = none → t.skein.sramOnly = true ∧ t.card = s.card) ∧
      Unchanged [.it, .skein, .card, .freeCtr] s t)

/-- A fault is recorded, answered and cleared (R455, R457, R458). The model's choice (Assumptions 22, 46): that the response SAFE takes effect at once, and that the oldest report is handled first. -/
def Obligations.FaultsHandled : Prop :=
  (∀ (r : Report) (l : List Report) (x : IT) (s : State), s.power.dev.awake = true → s.sup.reported = r :: l → r.code ≠ 0xE001 →
    ∃ t, exec (.faultDetected x none) s = .next t ∧
      (∃ a ∈ t.sup.active, a.code = r.code ∧ a.subj = r.subj ∧ a.resp = r.resp ∧ a.it = r.it) ∧
      t.sup.list.head?.map (fun e => (e.it, e.code, e.subj)) = some (r.it, r.code, r.subj) ∧
      ((s.power.dev = .ready ∨ s.power.dev = .run ∨ s.power.dev = .bare) → r.resp = 3 → t.power.dev = .safe) ∧
      (s.power.dev = .run → r.resp = 2 →
        t.power.dev = .run ∧ t.sup.bareNext = some (faultCause r.code))) ∧
   (∀ (k : Nat) (x : IT) (s : State), s.power.dev.awake = true → k < 6 →
    ∃ t, exec (.faultDetected x (some (0xE00E, k))) s = .next t ∧
      (∃ a ∈ t.sup.active, a.code = 0xE00E ∧ a.subj = k ∧ a.resp = 3) ∧ t.sup.reported = s.sup.reported ∧
      ((s.power.dev = .ready ∨ s.power.dev = .run ∨ s.power.dev = .bare) → t.power.dev = .safe)) ∧
   (∀ (r : Req) (x : Session) (s : State), s.Takes r x →
    ∃ t, exec (.clearFaults r) s = .next t ∧
      t.sup.active = s.sup.active.filter (fun a => !(s.sup.active.any (fun b =>
        b.code == a.code && b.subj == a.subj && !(coldOnly b.code b.subj) && s.causeGone b))) ∧
      s.Accepted t r ∧ Unchanged [.it, .dis, .chan, .banks, .spin, .bridges, .ports, .loads, .budget, .skein, .sup, .dict, .nets, .freeCtr] s t)

/-- The cores stop and return; losses and overruns (R20, R139, R145, R390, R461). The model's choice (Assumptions 27, 61, 87): what a FRAME_OVERRUN undoes, and the date of EXTERNAL-TIMEOUT. -/
def Obligations.CoresAndLosses : Prop :=
  (∀ (x : IT) (c : StopCause) (s : State), s.power.dev.awake = true → s.coresAbsent = false →
    ∃ t, exec (.coresStop x c) s = .next t ∧ t.coresAbsent = true ∧ t.dict.staged = [] ∧ t.dict.commit = none ∧
      t.sup.stop.map (fun w => (w.since, w.cause, w.coast)) = some (max s.it x, c,
        (s.power.dev == .run || s.power.dev == .bare) && !(s.pN 0x4100 1 == 0)) ∧
      t.sup.reported = s.sup.reported ++
        (if (s.power.dev = .run ∨ s.power.dev = .bare) ∧ s.pN 0x4100 1 = 0 then [s.faultNow 0xE014 0 [] (max s.it x)] else []) ∧
      Unchanged [.it, .dict, .nets, .skein, .sup, .freeCtr] s t) ∧
   (∀ (x : IT) (c : CoreStop) (s : State), s.power.dev.awake = true → s.sup.stop = some c →
    ∃ t, exec (.coresReturn x) s = .next t ∧ t.sup = { s.sup with stop := none } ∧ t.it = max s.it x ∧
      Unchanged [.it, .nets, .skein, .sup, .card, .freeCtr] s t) ∧
   (∀ (c : CoreStop) (s : State), s.sup.stop = some c → c.coast = true →
    ∃ t, exec .coastWindowExpiry s = .next t ∧ t.it = max s.it (c.since + s.pN 0x4100 1 * 1000000) ∧
      t.sup = { s.sup with stop := some { c with coast := false }, reported := s.sup.reported ++ [s.faultNow 0xE014 0 [] t.it] } ∧
      Unchanged [.it, .sup] s t) ∧
   (∀ s : State, s.power.dev = .run → s.spd.holding = true →
    ∃ t, exec .positionLossHoldExpiry s = .next t ∧ t.it = max s.it (s.spd.holdIt + s.pN 0x2200 0xB * 1000000) ∧
      t.sup = { s.sup with reported := s.sup.reported ++ [s.faultNow 0xE00B 0 [] t.it] } ∧ Unchanged [.it, .sup] s t) ∧
   (∀ (y : IT) (l : List IT) (s : State), s.power.dev = .run → s.external = true →
    (List.range 132).filterMap s.outputEnds = y :: l →
    ∃ t, exec .externalTimeout s = .next t ∧ t.it = max s.it (l.foldl min y) ∧
      (∀ o, o < 132 → (∃ d, s.outputEnds o = some d ∧ d ≤ t.it) → t.outp o = { s.outp o with extOut := true, ext := none }) ∧
      (∀ o, o < 132 → (∀ d, s.outputEnds o = some d → t.it < d) → t.outp o = s.outp o) ∧
      t.skein.arriving = s.skein.arriving ++ [⟨0x300B, t.it, s.time.boot, 0, []⟩] ∧ Unchanged [.it, .spd, .skein] s t) ∧
   (∀ (u : Undo) (s : State), s.undo = some u →
    ∃ t, exec .frameOverrun s = .next t ∧ t.undo = none ∧ t.it = max s.it (s.time.frame + 950000) ∧
      (∀ o, o < 132 → t.outp o = { vget u.outs o (s.outp o) with
        clampRec := (vget u.outs o (s.outp o)).clampRec || (s.outp o).clampRec,
        extOut := (vget u.outs o (s.outp o)).extOut || (s.outp o).extOut, late := (s.outp o).late, lateRec := (s.outp o).lateRec,
        ext := if (s.outp o).extOut then none else (vget u.outs o (s.outp o)).ext }) ∧
      (∀ w, w < 8 → t.lp w = (s.lp w).undoFrame (vget u.posts w ⟨(s.lp w).posted, (s.lp w).postNext, (s.lp w).request, (s.lp w).reqNext⟩)) ∧
      t.spd.waiting = u.waiting ∧ t.rate.nz = u.rate.nz ∧
      (∀ r, r ∈ t.budget.resvs → r ∈ s.budget.resvs ∧ (r.pull = true → r ∈ u.resvs)) ∧ t.sup.overruns = s.sup.overruns + 1 ∧
      t.skein.arriving = s.skein.arriving ++ [⟨0x3001, t.it, s.time.boot, 0, []⟩] ∧
      t.sup.reported = s.sup.reported ++ (if s.sup.overruns = 2 then [s.faultNow 0xE00C 0 [] t.it] else []) ∧
      Unchanged [.it, .spd, .rate, .chan, .banks, .whorl, .bridges, .budget, .skein, .sup, .undo] s t)

/-- State commands are accepted, refused, and act at their boundary (R241, R459, R474, R475, R476). The model's choice (Assumptions 22, 42): that SAFE is entered at receipt, and that the waiting command is cleared or dropped under the latch. -/
def Obligations.StateCommands : Prop :=
  (∀ (r : Req) (x : Session) (c : Instr) (n : Nat) (s : State), s.Takes r x →
    (c = .cmdRun r ∧ n = 1 ∧ (s.served r).runRefusal = 0 ∨
     c = .cmdBare r ∧ n = 2 ∧ s.power.dev = .run ∧ s.sup.thermal = false ∨
     c = .cmdReady r ∧ n = 4 ∧ s.power.dev = .safe ∧ s.sup.thermal = false ∧ s.safeFault = false ∨
     c = .cmdService r ∧ n = 5 ∧ 3 ≤ x.level ∧ (s.power.dev = .ready ∨ s.power.dev = .safe) ∧ (s.card.life = 2 ∨ s.card.life = 3) ∧
       (s.power.dev = .safe → s.safeFault = false)) →
    ∃ t, exec c s = .next t ∧
      t.power = { s.power with cmdResult := 0, cmd := some ⟨n, boundaryAtOrAfter (max s.it r.rx + 100000)⟩ } ∧
      s.Accepted t r ∧ Unchanged [.it, .power, .dict, .nets] s t) ∧
   (∀ (r : Req) (x : Session) (s : State), s.Takes r x → (s.served r).runRefusal ≠ 0 →
    ∃ t, exec (.cmdRun r) s = .next t ∧ t.power = { s.power with cmdResult := (s.served r).runRefusal } ∧
      t.dict.refused = sat32 (s.dict.refused + 1) ∧ Unchanged [.it, .power, .dict, .nets] s t) ∧
   (∀ (r : Req) (x : Session) (s : State), s.Takes r x → (s.power.dev = .ready ∨ s.power.dev = .run ∨ s.power.dev = .bare) →
    ∃ t, exec (.cmdSafe r) s = .next t ∧ t.power.dev = .safe ∧ t.power.cmd = none ∧ t.sup.lastSafe = max s.it r.rx ∧
      (∀ n, n < 128 → (t.ch n).edges = [] ∧ (t.ch n).state ≠ 1 ∧ (t.ch n).state ≠ 2) ∧ s.Accepted t r) ∧
   (∀ (c : StateCmd) (d : DevState) (s : State), s.power.cmd = some c → (s.sup.thermal = true → c.target = 5) →
    (c.target = 1 ∧ (s.power.dev = .ready ∨ s.power.dev = .bare) ∧ d = .run ∨ c.target = 2 ∧ s.power.dev = .run ∧ d = .bare ∨
     c.target = 4 ∧ s.power.dev = .safe ∧ d = .ready ∨
     c.target = 5 ∧ (s.power.dev = .ready ∨ s.power.dev = .safe) ∧ (s.card.life = 2 ∨ s.card.life = 3) ∧ d = .service) →
    ∃ t, exec .stateCommandEffect s = .next t ∧ t.power.dev = d ∧ t.power.cmd = none ∧ max s.it c.boundary ≤ t.it ∧
      (d = .service → t.card.life = 3) ∧
      Unchanged [.it, .power, .rov, .spd, .dis, .rate, .chan, .banks, .bob, .whorl, .spin, .bridges, .ports, .loads, .budget,
        .skein, .sup, .card, .undo, .freeCtr] s t) ∧
   (∀ (c : StateCmd) (s : State), s.power.cmd = some c → s.sup.thermal = true → c.target ≠ 5 →
    ∃ t, exec .stateCommandEffect s = .next t ∧ t.power = { s.power with cmd := none, cmdResult := 4 } ∧ Unchanged [.it, .power] s t) ∧
   (∀ (n : Fin 128) (x : IT) (s u : State), s.power.dev = .bare → (s.ch n).retryAt = some x →
    u = (s.at x).modCh n (fun c => { c with retryAt := none }) →
    ((u.bareWants n && u.bareIdle n) = false → ∃ t, exec (.barePullInRetry n) s = .next t ∧ t = u) ∧
    (u.bareWants n = true → u.bareIdle n = true → ∀ v, u.requestPull n (u.bareStart n) = (v, .granted) →
      ∃ t, exec (.barePullInRetry n) s = .next t ∧ (t.ch n).retryAt = none ∧
        (t.ch n).edges = insertEdge ⟨true, u.bareStart n, 100, 0⟩ (v.ch n).edges ∧
        Unchanged [.it, .chan, .banks, .loads, .budget, .skein] s t))

/-- Supply, key and wake move the module between its states (R463, R474, R478, R479, R481, R483). The model's choice (Assumptions 22, 44, 75): when SAFE is entered, the records of a wake, and IGN off with a wake pending. -/
def Obligations.WakeAndKey : Prop :=
  (∀ (b : BootIn) (x : IT) (c : Instr) (s : State),
    (c = .powerOn b ∧ s.power.dev = .noSupply ∨ c = .ignOn x b ∧ s.power.dev = .standby ∨
     c = .canAWake b ∧ s.power.dev = .standby ∧ s.power.listening = true) →
    ∃ t, exec c s = .next t ∧ t.power.dev = .boot ∧ s.it ≤ t.it ∧
      ∀ p ∈ [Part.chan, .banks, .dies, .bridges, .ports, .loads, .budget, .therm, .whorl, .spin, .dict, .rate, .rov, .spd, .sup],
        p.same State.reset t) ∧
   (∀ (b : BootIn) (x : IT) (s : State), s.power.dev.awake = true →
    (s.power.dev ≠ .shutdown → ∃ t, exec (.ignOn x b) s = .next t ∧ t.power = { s.power with ign := true, wakeHold := none } ∧
      Unchanged [.it, .power] s t) ∧
    (s.power.dev = .shutdown → 5 ≤ s.power.stage → ∃ t, exec (.ignOn x b) s = .next t ∧ t.power.dev = .boot ∧ t.power.ign = true) ∧
    (s.power.dev = .shutdown → s.power.stage < 5 → ∃ t, exec (.ignOn x b) s = .next t ∧ t.power.ign = true ∧
      t.power.wakeAgain = some { b with ign := true } ∧ t.power.dev = .shutdown ∧ t.card.run = none ∧
      Unchanged [.it, .power, .skein, .card, .freeCtr] s t)) ∧
   (∀ (x : IT) (s : State), (s.power.dev = .unconfigured ∨ s.power.dev = .ready ∨ s.power.dev = .run ∨ s.power.dev = .bare ∨
      s.power.dev = .safe ∨ s.power.dev = .service) → s.power.wakeHold = none →
    ∃ t, exec (.ignOff x) s = .next t ∧ t.power.dev = .shutdown ∧ t.power.ign = false ∧ t.power.downAt = max s.it x ∧
      (∀ n, n < 128 → (t.ch n).edges = [] ∧ (t.ch n).state ≠ 1 ∧ (t.ch n).state ≠ 2)) ∧
   (∀ (x : IT) (s : State), s.power.wakeHold = some x →
    (s.power.dev = .unconfigured ∨ s.power.dev = .ready ∨ s.power.dev = .safe ∨ s.power.dev = .service) →
    (s.power.ign = true → ∃ t, exec .wakeHoldExpiry s = .next t ∧ t.power = { s.power with wakeHold := none } ∧ t.it = max s.it x ∧
      Unchanged [.it, .power] s t) ∧
    (s.power.ign = false → ∃ t, exec .wakeHoldExpiry s = .next t ∧ t.power.dev = .shutdown ∧ t.power.wakeHold = none)) ∧
   (∀ (x : IT) (s : State), s.power.dev = .boot → s.bootRom = false →
    ∃ t, exec (.bootComplete x) s = .next t ∧ (∀ d, d < 4 → (t.die d).state = 1) ∧
      t.power.dev = (if s.power.ign = true ∨ s.power.wakeSrc = 2 then .unconfigured else .shutdown))

/-- The loss of supply, the crystal, and the end of SHUTDOWN (R14, R15, R465, R479, R480, R481). The model's choice (Assumptions 44, 75, 135): the records at the ends of a power cycle, and when SHUTDOWN is complete. -/
def Obligations.PowerEnds : Prop :=
  (∀ (x : CollapseIn) (s : State), s.power.dev ≠ .noSupply →
    ∃ t, exec (.kaCollapse x) s = .next t ∧ t.power.dev = .noSupply ∧
      (∀ n, n < 128 → (t.ch n).state = 0 ∧ (t.ch n).edges = []) ∧ (∀ b, b < 16 → (t.bank b).common = 0) ∧
      (∀ h, h < 4 → (t.br h).drive = none ∧ (t.br h).state = 0) ∧ (∀ g, g < 2 → (t.pt g).driving = false) ∧
      (∀ j, j < 16 → (t.ld j).on = false) ∧ t.skein.arriving = [] ∧ t.skein.queue = [] ∧
      t.skein.holding = Vector.replicate 16 none ∧ t.skein.lastWord = (if x.sram then s.skein.lastWord else []) ∧ t.card.run = none ∧ t.time.marker = (s.time.marker && x.sram) ∧
      (x.torn = none → t.mram = s.mram) ∧ t.dis.hanks = s.dis.hanks ∧ t.dis.frames = s.dis.frames ∧ t.bob.discharging = false ∧
      t.pending = s.pending ∧
      ∀ p ∈ [Part.motion, .rov, .spd, .rate, .chan, .banks, .dies, .whorl, .spin, .bridges, .ports, .loads, .budget, .therm, .dict,
        .sup, .undo], p.same State.reset t) ∧
   (∀ (x : IT) (s : State), s.power.dev = .boot → s.power.crystalOk = true →
    ∃ t, exec (.crystalStartTimeout x) s = .next t ∧ t.power = { s.power with crystalOk := false, eth := false } ∧
      t.time.rc = true ∧ t.sup.reported = s.sup.reported ++ [s.faultNow 0xE002 255 [] (max s.it x)] ∧
      (∀ c, t.canUp c = false) ∧ t.ethUp = false ∧ Unchanged [.it, .time, .power, .nets, .sup] s t) ∧
   (∀ (x : IT) (s : State), s.power.dev.awake = true → s.time.rc = false →
    ∃ t, exec (.crystalFailure x) s = .next t ∧ t.time = { s.time with rc := true } ∧
      t.sup.reported = s.sup.reported ++ [s.faultNow 0xE002 255 [] (max s.it x)] ∧ Unchanged [.it, .time, .sup] s t) ∧
   (∀ (x : IT) (a : Nat) (s : State), s.power.dev = .shutdown →
    (s.power.wakeAgain = none →
      (s.coresAbsent = false → s.power.stage < 5 → s.railDown = true →
        ∃ t, exec (.shutdownComplete x a) s = .next t ∧ t.power.dev = .standby ∧ t.power.downRes = 0 ∧ t.it = max s.it x) ∧
      (s.coresAbsent = false → s.power.stage < 5 → s.railDown = false →
        ∃ t, exec (.shutdownComplete x a) s = .next t ∧ t.power.dev = .shutdown ∧ t.power.stage = 6 ∧ t.power.downRes = 0 ∧
          t.it = max s.it x) ∧
      (s.coresAbsent = true → exec (.shutdownComplete x a) s = .next s) ∧
      (∃ t, exec (.shutdownOvertime x a) s = .next t ∧ t.power.dev = .standby ∧ t.power.downRes = 2 ∧
        t.it = max s.it (max x (s.power.downAt + 4200000000 + s.pN 0x4400 8 * 1000000)))) ∧
    (∀ b, s.power.wakeAgain = some b →
      (s.coresAbsent = false → ∃ t, exec (.shutdownComplete x a) s = .next t ∧ t.power.dev = .boot ∧ t.power.ign = b.ign) ∧
      (∃ t, exec (.shutdownOvertime x a) s = .next t ∧ t.power.dev = .boot ∧ t.power.ign = b.ign)))

/-- A frame boundary and a time strobe (R16, R17, R18, R373, R475). The model's choice (Assumptions 27, 28): that the frame's steps take effect together, and that its boundary is the next lattice point above the last one processed. -/
def Obligations.FrameAndStrobe : Prop :=
  (∀ (f : FrameIn) (s : State), s.power.dev.awake = true →
    ∃ t, exec (.frameBoundary f) s = .next t ∧ t.time.frame = s.frameAt ∧ s.frameAt ≤ t.it ∧
      (s.time.frame % 1000000 = 0 → s.frameAt % 1000000 = 0 ∧ s.time.frame < s.frameAt ∧ s.it ≤ s.frameAt ∧
        ∀ y, y % 1000000 = 0 → s.time.frame < y → s.it ≤ y → s.frameAt ≤ y) ∧
      (∀ w, t.dict.commit = some w → s.frameAt < w.boundary) ∧ (∀ c, t.power.cmd = some c → s.frameAt < c.boundary) ∧
      (∀ o ∈ t.dict.old, s.frameAt < o.2.2)) ∧
   (∀ (p : Vector Int 4) (s : State), s.power.dev.awake = true →
    ∃ t, exec (.dieTimeStrobe p) s = .next t ∧ t.it = (s.it / 25000 + 1) * 25000 ∧
      (∀ d, d < 4 → (s.die d).state ≠ 2 → vget t.time.strobeOk d true = decide ((vget p d 0).natAbs ≤ 12500)) ∧
      Unchanged [.it, .time, .sup] s t)

/-- The commands of power, states, the frame and the supervisor complete (R14, R15, R16, R17, R20, R145, R458, R461, R465, R474, R475, R478). The model's choice (Assumptions 22, 28, 42, 46, 135): that SAFE is entered at once, which boundary is next, the waiting command, the oldest report, and when SHUTDOWN is complete. -/
def Obligations.CompletesStates : Prop :=
  (∀ (b : BootIn) (s : State), s.power.dev = .noSupply →
    ∃ t, exec (.powerOn b) s = .next t ∧ t.power.dev = .boot ∧ t.power.ign = b.ign) ∧
   (∀ (x : IT) (b : BootIn) (s : State), s.power.dev = .standby →
    ∃ t, exec (.ignOn x b) s = .next t ∧ t.power.dev = .boot ∧ t.power.ign = true) ∧
   (∀ (x : IT) (s : State), (s.power.dev = .unconfigured ∨ s.power.dev = .ready ∨ s.power.dev = .run ∨ s.power.dev = .bare ∨ s.power.dev = .safe ∨ s.power.dev = .service) → s.power.wakeHold = none →
    ∃ t, exec (.ignOff x) s = .next t ∧ t.power.dev = .shutdown ∧ t.power.ign = false ∧ t.power.downAt = max s.it x) ∧
   (∀ (b : BootIn) (s : State), s.power.dev = .standby → s.power.listening = true →
    ∃ t, exec (.canAWake b) s = .next t ∧ t.power.dev = .boot ∧ t.power.wakeSrc = 2) ∧
   (∀ (x : IT) (s : State), s.power.wakeHold = some x → s.power.ign = false →
    (s.power.dev = .unconfigured ∨ s.power.dev = .ready ∨ s.power.dev = .safe ∨ s.power.dev = .service) →
    ∃ t, exec .wakeHoldExpiry s = .next t ∧ t.power.dev = .shutdown ∧ t.power.wakeHold = none ∧ t.power.downAt = max s.it x) ∧
   (∀ (x : CollapseIn) (s : State), s.power.dev ≠ .noSupply →
    ∃ t, exec (.kaCollapse x) s = .next t ∧ t.power.dev = .noSupply ∧ (∀ n, n < 128 → (t.ch n).state = 0) ∧ t.skein.queue = []) ∧
   (∀ (x : IT) (s : State), s.power.dev = .boot → s.bootRom = false → s.power.ign = true →
    ∃ t, exec (.bootComplete x) s = .next t ∧ t.power.dev = .unconfigured ∧ (∀ d, d < 4 → (t.die d).state = 1)) ∧
   (∀ (x : IT) (s : State), s.power.dev = .boot → s.power.crystalOk = true →
    ∃ t, exec (.crystalStartTimeout x) s = .next t ∧ t.time.rc = true ∧ t.power.crystalOk = false ∧
      t.sup.reported = s.sup.reported ++ [s.faultNow 0xE002 255 [] (max s.it x)]) ∧
   (∀ (x : IT) (s : State), s.power.dev.awake = true → s.time.rc = false →
    ∃ t, exec (.crystalFailure x) s = .next t ∧ t.time.rc = true ∧
      t.sup.reported = s.sup.reported ++ [s.faultNow 0xE002 255 [] (max s.it x)]) ∧
   (∀ (x : IT) (a : Nat) (s : State), s.power.dev = .shutdown → s.power.wakeAgain = none →
    s.coresAbsent = false → s.power.stage < 5 → s.railDown = true →
    ∃ t, exec (.shutdownComplete x a) s = .next t ∧ t.power.dev = .standby ∧ t.power.downRes = 0 ∧ t.bob.discharging = false) ∧
   (∀ (x : IT) (a : Nat) (s : State), s.power.dev = .shutdown → s.power.wakeAgain = none →
    ∃ t, exec (.shutdownOvertime x a) s = .next t ∧ t.power.dev = .standby ∧ t.power.downRes = 2 ∧ t.bob.discharging = false) ∧
   (∀ (r : Req) (x : Session) (s : State), s.Takes r x → (s.served r).runRefusal = 0 →
    ∃ t, exec (.cmdRun r) s = .next t ∧ t.power.cmd = some ⟨1, boundaryAtOrAfter (max s.it r.rx + 100000)⟩ ∧ s.Accepted t r) ∧
   (∀ (r : Req) (x : Session) (s : State), s.Takes r x → s.power.dev = .run → s.sup.thermal = false →
    ∃ t, exec (.cmdBare r) s = .next t ∧ t.power.cmd = some ⟨2, boundaryAtOrAfter (max s.it r.rx + 100000)⟩ ∧ s.Accepted t r) ∧
   (∀ (r : Req) (x : Session) (s : State), s.Takes r x → (s.power.dev = .ready ∨ s.power.dev = .run ∨ s.power.dev = .bare) →
    ∃ t, exec (.cmdSafe r) s = .next t ∧ t.power.dev = .safe ∧ t.power.cmd = none ∧ s.Accepted t r) ∧
   (∀ (r : Req) (x : Session) (s : State), s.Takes r x → s.power.dev = .safe → s.sup.thermal = false → s.safeFault = false →
    ∃ t, exec (.cmdReady r) s = .next t ∧ t.power.cmd = some ⟨4, boundaryAtOrAfter (max s.it r.rx + 100000)⟩ ∧ s.Accepted t r) ∧
   (∀ (r : Req) (x : Session) (s : State), s.Takes r x → 3 ≤ x.level → (s.power.dev = .ready ∨ s.power.dev = .safe) → (s.card.life = 2 ∨ s.card.life = 3) →
    (s.power.dev = .safe → s.safeFault = false) →
    ∃ t, exec (.cmdService r) s = .next t ∧ t.power.cmd = some ⟨5, boundaryAtOrAfter (max s.it r.rx + 100000)⟩ ∧ s.Accepted t r) ∧
   (∀ (c : StateCmd) (s : State), s.power.cmd = some c → c.target = 2 → s.power.dev = .run → s.sup.thermal = false →
    ∃ t, exec .stateCommandEffect s = .next t ∧ t.power.dev = .bare ∧ t.power.cmd = none ∧ max s.it c.boundary ≤ t.it) ∧
   (∀ (f : FrameIn) (s : State), s.power.dev.awake = true →
    ∃ t, exec (.frameBoundary f) s = .next t ∧ t.time.frame = s.frameAt ∧ s.frameAt ≤ t.it) ∧
   (∀ (u : Undo) (s : State), s.undo = some u →
    ∃ t, exec .frameOverrun s = .next t ∧ t.undo = none ∧ t.spd.waiting = u.waiting ∧ t.sup.overruns = s.sup.overruns + 1) ∧
   (∀ (p : Vector Int 4) (s : State), s.power.dev.awake = true →
    ∃ t, exec (.dieTimeStrobe p) s = .next t ∧ t.it = (s.it / 25000 + 1) * 25000 ∧
      (∀ d, d < 4 → (s.die d).state ≠ 2 → vget t.time.strobeOk d true = decide ((vget p d 0).natAbs ≤ 12500))) ∧
   (∀ (q : Report) (l : List Report) (x : IT) (s : State), s.power.dev.awake = true → s.sup.reported = q :: l → q.code ≠ 0xE001 →
    ∃ t, exec (.faultDetected x none) s = .next t ∧ ∃ a ∈ t.sup.active, (a.code = q.code ∧ a.subj = q.subj ∧ a.resp = q.resp)) ∧
   (∀ (r : Req) (x : Session) (s : State), s.Takes r x →
    ∃ t, exec (.clearFaults r) s = .next t ∧ s.Accepted t r ∧
      t.sup.active = s.sup.active.filter (fun a => !(s.sup.active.any (fun b =>
        b.code == a.code && b.subj == a.subj && !(coldOnly b.code b.subj) && s.causeGone b)))) ∧
   (∀ (x : IT) (c : StopCause) (s : State), s.power.dev.awake = true → s.coresAbsent = false →
    ∃ t, exec (.coresStop x c) s = .next t ∧ t.coresAbsent = true ∧ t.dict.staged = [] ∧ t.dict.commit = none) ∧
   (∀ (x : IT) (c : CoreStop) (s : State), s.power.dev.awake = true → s.sup.stop = some c →
    ∃ t, exec (.coresReturn x) s = .next t ∧ t.coresAbsent = false ∧ t.it = max s.it x) ∧
   (∀ (c : CoreStop) (s : State), s.sup.stop = some c → c.coast = true →
    ∃ t, exec .coastWindowExpiry s = .next t ∧
      t.sup.reported = s.sup.reported ++ [s.faultNow 0xE014 0 [] (max s.it (c.since + s.pN 0x4100 1 * 1000000))]) ∧
   (∀ (i : SessionId) (y : Session) (s : State), s.nets.ctrl = some i → s.session i = some y → s.sup.hostGone = false →
    ∃ t, exec .hostLoss s = .next t ∧ t.sup.hostGone = true ∧ t.it = max s.it (y.beat + s.pN 0x1200 1 * 1500000)) ∧
   (∀ s : State, s.power.dev = .run → s.spd.holding = true →
    ∃ t, exec .positionLossHoldExpiry s = .next t ∧ t.it = max s.it (s.spd.holdIt + s.pN 0x2200 0xB * 1000000) ∧
      t.sup.reported = s.sup.reported ++ [s.faultNow 0xE00B 0 [] t.it]) ∧
   (∀ (n : Fin 128) (x : IT) (s u : State), s.power.dev = .bare → (s.ch n).retryAt = some x →
    u = (s.at x).modCh n (fun c => { c with retryAt := none }) → u.bareWants n = true → u.bareIdle n = true →
    ∀ v, u.requestPull n (u.bareStart n) = (v, .granted) →
    ∃ t, exec (.barePullInRetry n) s = .next t ∧ (t.ch n).retryAt = none ∧
      (t.ch n).edges = insertEdge ⟨true, u.bareStart n, 100, 0⟩ (v.ch n).edges)

/-- The commands of channels, banks, dies, Bobbin, loops and spinners complete (R214, R216, R221, R227, R228, R231, R235, R240, R251, R255, R259, R274). The model's choice (Assumptions 50, 95, 101): the instant of a kink average, the latest cause of the rail, and the report at every further miss. -/
def Obligations.CompletesBanks : Prop :=
  (∀ (n : Fin 128) (rv sv : Nat) (e : DieEdge) (s : State), (s.ch n).nextOpen = some e → (s.ch n).state ≠ 1 → (s.ch n).state ≠ 2 →
    s.chEnabled n = true → s.pullRefused n e.pct = false →
    ∃ t, exec (.pullInStart n rv sv) s = .next t ∧ (t.ch n).state = 1 ∧ (t.ch n).pull.start = e.it) ∧
   (∀ (n : Fin 128) (x : IT) (s : State), (s.ch n).state = 1 → (s.ch n).pull.reach = none →
    ∃ t, exec (.peakReached n x) s = .next t ∧ (t.ch n).pull.reach = some x) ∧
   (∀ (n : Fin 128) (ma : Nat) (s : State), (s.ch n).state = 1 →
    ∃ t, exec (.pullInWindowEnd n ma) s = .next t ∧ (t.ch n).state = 2 ∧ t.it = max s.it (s.ch n).pull.ends) ∧
   (∀ (n : Fin 128) (e : DieEdge) (s : State), (s.ch n).nextClose = some e → ((s.ch n).state = 1 ∨ (s.ch n).state = 2) →
    ∃ t, exec (.closingCommand n) s = .next t ∧ (t.ch n).state = 3 ∧ (t.ch n).closings.getLast?.map (·.cmd) = some e.it) ∧
   (∀ (n : Fin 128) (x : IT) (cl : Closing) (s : State), (s.ch n).decaying = some cl →
    ∃ t, exec (.decayEnd n x) s = .next t ∧ (t.ch n).state = 0 ∧ t.it = max s.it x) ∧
   (∀ (n : Fin 128) (cl : Closing) (s : State), (s.ch n).closings.find? (·.waits) = some cl → cl.kink = none →
    s.windowsDue (n.val / 32) cl.opensAt n = [(n.val, cl)] →
    ∃ t, exec (.kinkWindowOpen n) s = .next t ∧ t.it = max s.it cl.opensAt ∧
      (t.ch n).lastUnobs = decide (4 ≤ s.convUsed (n.val / 32) cl.opensAt)) ∧
   (∀ (n : Fin 128) (l : List Int) (cl : Closing) (i : Nat) (s : State),
    (s.ch n).closings.find? (fun y => y.convOn && y.kink.isNone) = some cl → kinkIndex (s.pN (0x3000 + n.val) 0xB) l 0 = some i →
    ∃ t, exec (.kinkFound n l) s = .next t ∧ (t.ch n).lastKink = cl.opensAt + 10000 * i ∧ (t.ch n).misses = 0) ∧
   (∀ (n : Fin 128) (cl : Closing) (s : State), (s.ch n).closings.find? (·.window) = some cl → cl.kink = none →
    ∃ t, exec (.kinkWindowClose n) s = .next t ∧ (t.ch n).misses = (s.ch n).misses + 1 ∧
      (t.ch n).closings = ((s.ch n).closings.map (fun y => if y.cmd = cl.cmd then { y with window := false, convOn := false } else y)).filter
        (fun y => y.cmd != cl.cmd || y.decayed.isNone)) ∧
   (∀ (n : Fin 128) (x : TripIn) (s : State), ((s.ch n).state = 1 ∨ (s.ch n).state = 2) → s.ocThreshold n < x.ma →
    max (s.ch n).pull.start x.onAt + 1000 ≤ x.at_ →
    ∃ t, exec (.channelOverCurrent n x) s = .next t ∧ (t.ch n).state = 3 ∧ (t.ch n).ocCount = (s.ch n).ocCount + 1) ∧
   (∀ (b : Fin 16) (x : TripIn) (s : State), s.bankOut b = false → (s.bank b).limit < x.ma →
    ∃ t, exec (.bankOverCurrent b x) s = .next t ∧
      (t.bank b).tripTill = some (x.at_ + s.pN (0x3080 + b.val) 4 * 1000000) ∧
      (∀ n ∈ bankChannels b, (t.ch n).state ≠ 1 ∧ (t.ch n).state ≠ 2)) ∧
   (∀ (b : Fin 16) (x : IT) (s : State), (s.bank b).tripTill = some x →
    ∃ t, exec (.bankRetryExpiry b) s = .next t ∧ (t.bank b).tripTill = none ∧ t.it = max s.it x) ∧
   (∀ (n : Fin 128) (c : IT) (s : State), (s.ch n).lastCmd = some c → (s.ch n).state ≠ 1 → (s.ch n).state ≠ 2 →
    ∃ t, exec (.channelStuckOn n) s = .next t ∧ (t.ch n).stuck = true ∧ (t.bank (n.val / 8)).stuck = true) ∧
   (∀ (b : Fin 16) (x : IT) (s : State), s.power.dev.awake = true → s.commonAt b x = 0 →
    ∃ t, exec (.bankSwitchFault b x) s = .next t ∧ (t.bank b).swFault = true) ∧
   (∀ (d : Fin 4) (c : EdgeCause) (x : IT) (s : State), (s.die d).state = 1 →
    ∃ t, exec (.edgeWordError d c x) s = .next t ∧ (t.die d).state = 2 ∧ (t.die d).last = x ∧
      (t.die d).resets = sat32 ((s.die d).resets + 1)) ∧
   (∀ (d : Fin 4) (x : IT) (s : State), (s.die d).state = 2 →
    ∃ t, exec (.dieRestartDone d x) s = .next t ∧ (t.die d).state = 1 ∧ (∀ n ∈ dieChannels d, (t.ch n).state = 0)) ∧
   (∀ (r : Req) (x : Session) (n : Fin 128) (s : State), s.Takes r x →
    ∃ t, exec (.clearChannelLatch r n) s = .next t ∧ (t.ch n).ocLatch = false ∧ (t.ch n).ocCount = 0 ∧ s.Accepted t r) ∧
   (∀ (r : Req) (x : Session) (b : Fin 16) (s : State), s.Takes r x →
    ∃ t, exec (.clearBankLatch r b) s = .next t ∧ (t.bank b).ocLatch = false ∧ (t.bank b).trips = [] ∧ s.Accepted t r) ∧
   (∀ (x : IT) (s : State), s.power.dev.awake = true → s.bob.railHigh = false →
    ∃ t, exec (.railHigh x) s = .next t ∧ t.bob.railHigh = true) ∧
   (∀ (x : IT) (s : State), s.power.dev.awake = true →
    ∃ t, exec (.railHighClear x) s = .next t ∧ t.bob = { s.bob with railHigh := false }) ∧
   (∀ (c : RailCause) (x : IT) (s : State), s.power.dev.awake = true → c ≠ .underVoltage →
    ∃ t, exec (.railFault c x) s = .next t ∧ t.bob.state = (if s.bobbinEnabled then 5 else s.bob.state) ∧ t.bob.cause = railCauseCode c) ∧
   (∀ (x : IT) (s : State), s.power.dev.awake = true →
    ∃ t, exec (.supplyHigh x) s = .next t ∧ t.bob = { s.bob with supHigh := true, ret := false }) ∧
   (∀ (x : IT) (s : State), s.power.dev.awake = true →
    ∃ t, exec (.supplyHighClear x) s = .next t ∧ t.bob = { s.bob with supHigh := false }) ∧
   (∀ (x : IT) (q mv : Nat) (s : State), s.bob.state = 1 →
    ∃ t, exec (.prechargeComplete x q mv) s = .next t ∧ t.bob.state = 2 ∧ t.bob.target = s.pN 0x3090 2) ∧
   (∀ (x : IT) (s : State), s.power.dev.awake = true → s.bob.discharging = true → s.bob.state ≠ 5 → s.power.dev ≠ .shutdown →
    ∃ t, exec (.railDischarged x) s = .next t ∧ t.bob.discharging = false ∧ t.bob.state = 0 ∧ t.bob.rail < 5000) ∧
   (∀ (w : Fin 8) (x : LoopIn) (s : State), s.power.dev = .run → s.lpOn w = true →
    ∃ t, exec (.loopStep w x) s = .next t ∧ t.it = max s.it (s.stepIt w) ∧ (t.lp w).last = s.stepIt w) ∧
   (∀ (r : Req) (x : Session) (w : Fin 8) (m : Byte) (s : State), s.Takes r x → m.toNat < 3 →
    writeFail (s.proposed (pkey (0x3100 + w.val) 0xF) [m]) (pkey (0x3100 + w.val) 0xF) s.strict = 0 →
    ∃ t, exec (.loopModeCommand r w m) s = .next t ∧ alookup (pkey (0x3100 + w.val) 0xF) t.dict.store = some [m] ∧ s.Accepted t r) ∧
   (∀ (r : Req) (x : Session) (w j : Fin 8) (v : Bytes) (s : State), s.Takes r x → s.coefHeld = false →
    (findDesc (0x3210 + 8 * w.val + j.val) 1).bind (fun d => valueFail d (0x3210 + 8 * w.val + j.val) 1 v) = none →
    writeFail (s.proposed (pkey (0x3210 + 8 * w.val + j.val) 1) v) (pkey (0x3210 + 8 * w.val + j.val) 1) s.strict = 0 →
    s.stepping w = false →
    ∃ t, exec (.regionTableWrite r w j v) s = .next t ∧
      (t.lp w).table = putAll ((tableCoefs v).map (fun p => (j.val * 200 + p.1, p.2))) (s.lp w).table ∧ s.Accepted t r) ∧
   (∀ (r : Req) (x : Session) (w j : Fin 8) (v : Bytes) (s : State), s.Takes r x → s.coefHeld = false →
    (findDesc (0x3210 + 8 * w.val + j.val) 2).bind (fun d => valueFail d (0x3210 + 8 * w.val + j.val) 2 v) = none →
    s.stepping w = false →
    ∃ t, exec (.coefficientPatch r w j v) s = .next t ∧
      (t.lp w).table = putAll ((patchCoefs v).map (fun p => (j.val * 200 + p.1, p.2))) (s.lp w).table ∧ s.Accepted t r) ∧
   (∀ (r : Req) (x : Session) (w : Fin 8) (s : State), s.Takes r x →
    ∃ t, exec (.commitLoop r w) s = .next t ∧ (t.lp w).commit = true ∧ s.Accepted t r) ∧
   (∀ (k : Fin 16) (x : StageIn) (s : State), (s.sp k).live = true →
    ∃ t, exec (.spinnerTransfer k x) s = .next t ∧ (t.sp k).start = (s.sp k).ends ∧ (t.sp k).m = (s.sp k).m + 1)

/-- The commands of bridges, ports, load switches, supplies, hanks and Spindle complete (R100, R150, R156, R158, R167, R178, R180, R309, R314, R316, R328, R348). The model's choice (Assumptions 59, 61, 87, 134, 142): the deadline of EXTERNAL-TIMEOUT, the direction of OPEN, and which frame a tile takes. -/
def Obligations.CompletesOutputs : Prop :=
  (∀ (h : Fin 4) (e : DieEdge) (es : List DieEdge) (s : State), (s.br h).edges = e :: es → s.brFree h = true → e.opens = false →
    ∃ t, exec (.valveDriveStart h) s = .next t ∧ (t.br h).valve = 4 ∧ (t.br h).edges = es ∧
      (t.br h).drive.map (fun q => (q.1, q.2.1)) = some (false, max s.it e.it)) ∧
   (∀ (h : Fin 4) (x : TravelIn) (o : Bool) (t0 : IT) (p : Nat) (s : State), (s.br h).drive = some (o, t0, p) → t0 + 120000000 ≤ x.at_ →
    s.pN (0x3500 + h.val) 7 < x.ma →
    ∃ t, exec (.endOfTravel h x) s = .next t ∧ (t.br h).drive = none ∧ (t.br h).valve = (if o then 1 else 2)) ∧
   (∀ (h : Fin 4) (o : Bool) (t0 : IT) (p : Nat) (s : State), (s.br h).drive = some (o, t0, p) →
    ∃ t, exec (.travelTimeout h) s = .next t ∧ (t.br h).drive = none ∧ (t.br h).timeout = true ∧ (t.br h).valve = (if o then 1 else 2)) ∧
   (∀ (h : Fin 4) (first x : IT) (s u : State), (s.br h).asked = some (first, x) →
    (s.at x).requestTorque h (s.pEl 0x1400 8 4 h * s.pN (0x3500 + h.val) 6 / 100)
      (secondBoundary ((s.at x).takesAt (1 + h.val))) = (u, .granted) →
    ∃ t, exec (.valveDriveRetry h) s = .next t ∧ (t.br h).valve = 3 ∧ (t.br h).asked = none ∧
      (t.br h).drive.map (fun q => (q.1, q.2.1)) = some (true, max s.it x)) ∧
   (∀ (g : Fin 2) (x : IT) (s : State), s.stallDue g x = true →
    ∃ t, exec (.motorStall g x) s = .next t ∧ (t.pt g).stall = true ∧ (t.pt g).driving = false) ∧
   (∀ (o : Fin 6) (ma : Nat) (x : IT) (s : State), s.power.dev.awake = true → o.val < 4 → 16000 < ma →
    ∃ t, exec (.outputTrip o (.overCurrent ma) x) s = .next t ∧
      (t.br o).tripTill = some (x + s.pN (0x3500 + o.val) 0x11 * 1000000) ∧ (t.br o).drive = none) ∧
   (∀ (o : Fin 6) (x : IT) (s : State), o.val < 4 → (s.br o).tripTill = some x →
    ∃ t, exec (.outputRetryExpiry o) s = .next t ∧ (t.br o).tripTill = none ∧ t.it = max s.it x) ∧
   (∀ (r : Req) (x : Session) (o : Fin 6) (s : State), s.Takes r x → 4 ≤ o.val →
    ∃ t, exec (.clearOutputLatch r o) s = .next t ∧ (t.pt (o.val - 4)).latch = false ∧ (t.pt (o.val - 4)).trips = [] ∧ s.Accepted t r) ∧
   (∀ (r : Req) (x : Session) (j : Fin 16) (v : Byte) (s : State), s.Takes r x → v.toNat < 2 →
    writeFail (s.proposed (pkey (0x3600 + j.val) 0x10) [v]) (pkey (0x3600 + j.val) 0x10) s.strict = 0 →
    ∃ t, exec (.loadSwitchCommand r j v) s = .next t ∧ alookup (pkey (0x3600 + j.val) 0x10) t.dict.store = some [v] ∧ s.Accepted t r) ∧
   (∀ (j : Fin 16) (k : LoadTripKind) (x : IT) (mj : Nat) (s : State), s.tripMet j k x = true →
    ∃ t, exec (.loadTrip j k x mj) s = .next t ∧ (t.ld j).on = false ∧ (t.ld j).tripAt = some x) ∧
   (∀ (j : Fin 16) (x x0 : IT) (q : Int) (s : State), (s.ld j).tripAt = some x0 →
    x0 + s.pN (0x3600 + j.val) 0xC * 1000000 ≤ x → (s.ld j).retries ≤ s.pN (0x3600 + j.val) 0xB →
    (s.pN (0x3600 + j.val) 9 = 1 ∨ s.ldJunction j q < 1750 - 10 * s.pN (0x3600 + j.val) 0xA) →
    (s.ld j).therm = false → (s.ld j).retryL = false → s.ldThermHold j = false → s.ldWant j = true →
    s.contained 0xE005 (7 + j.val) = false → (s.ld j).on = false →
    ∃ t, exec (.loadRestart j x q) s = .next t ∧ (t.ld j).tripAt = none ∧ t.it = max s.it x ∧
      ∀ p u v, p = (s.at x).modLd j (fun l => { l with junction := q, tripAt := none }) → p.reserveClamp j = (u, true) →
        u.requestLoad j = (v, .granted) → (t.ld j).on = true ∧ (t.ld j).pct = 100 ∧ (t.ld j).onSince = max s.it x) ∧
   (∀ (j : Fin 16) (s : State), (s.ld j).on = true → (s.ld j).therm = false →
    ∃ t, exec (.loadCounterReset j) s = .next t ∧ (t.ld j).retries = 0 ∧
      t.it = max s.it ((s.ld j).onSince + s.pN (0x3600 + j.val) 0xD * 1000000)) ∧
   (∀ (j : Fin 16) (x : IT) (s : State), (s.ld j).waitTill = some x → s.ldThermHold j = false → s.ldWant j = true →
    (s.ld j).therm = false → (s.ld j).retryL = false → (s.ld j).tripAt = none → s.contained 0xE005 (7 + j.val) = false →
    (s.ld j).on = false →
    ∃ t, exec (.loadShedRetry j) s = .next t ∧ t.it = max s.it x ∧
      ∀ p u v, p = (s.at x).modLd j (fun l => { l with waitTill := none }) → p.reserveClamp j = (u, true) →
        u.requestLoad j = (v, .granted) → (t.ld j).on = true ∧ (t.ld j).pct = 100 ∧ (t.ld j).onSince = max s.it x) ∧
   (∀ (r : Req) (x : Session) (j : Fin 16) (v : Byte) (s : State), s.Takes r x → v.toNat < 4 →
    ∃ t, exec (.clearLoadLatches r j v) s = .next t ∧ (t.ld j).therm = ((s.ld j).therm && !(bit v.toNat 0)) ∧
      (t.ld j).retryL = ((s.ld j).retryL && !(bit v.toNat 1)) ∧ s.Accepted t r) ∧
   (∀ (j : Fin 16) (x a : IT) (s : State), (s.ld j).on = true → s.pN (0x3600 + j.val) 2 = 0 →
    (s.ld j).current < s.pN (0x3600 + j.val) 0x12 → (s.ld j).lowAt = some a → max (s.ld j).onSince a + 100000000 ≤ x →
    ∃ t, exec (.openLoad j x) s = .next t ∧ (t.ld j).openLoad = true ∧ (t.ld j).on = true) ∧
   (∀ (x : IT) (s : State), s.budget.overAt = some x → s.budget.shedC2 = false →
    ∃ t, exec .budgetOverrun s = .next t ∧ t.budget.shedC2 = true ∧ t.it = max s.it (x + s.pN 0x1400 0xA * 1000000)) ∧
   (∀ (y : SupplySubject) (c : SupplyCause) (v : Nat) (x : IT) (s : State), s.power.dev.awake = true → s.supplyMeets y c v = true →
    ∃ t, exec (.supplyFault y c v x) s = .next t ∧ vget t.power.supplyLow (supplyCode y) false = true) ∧
   (∀ (i : Fin 2) (x : IT) (s : State), s.power.dev.awake = true →
    ∃ t, exec (.sensorSupplyOverload i x) s = .next t ∧ vget t.budget.svOff i none = some (max s.it x)) ∧
   (∀ (i : Fin 2) (x : IT) (s : State), vget s.budget.svOff i none = some x →
    ∃ t, exec (.sensorSupplyRetry i) s = .next t ∧ vget t.budget.svOff i none = none ∧ t.it = max s.it (x + 1000000000)) ∧
   (∀ (d : Fin 6) (x : IT) (s : State), vget s.therm.hold d none = some x →
    ∃ t, exec (.throttleHoldExpiry d) s = .next t ∧ vget t.therm.hold d none = none ∧ t.it = max s.it x) ∧
   (∀ (d : Fin 4) (x : IT) (s : State), vget s.therm.unavail d none = some x →
    ∃ t, exec (.sensorUnavailableExpiry d) s = .next t ∧ vget t.therm.unavail d none = none ∧ t.it = max s.it (x + 50000000)) ∧
   (∀ (r : Req) (x : Session) (v : Byte) (s : State), s.Takes r x → writeFail (s.proposed (pkey 0x2110 3) [v]) (pkey 0x2110 3) s.strict = 0 →
    ∃ t, exec (.foldStateWrite r v) s = .next t ∧ alookup (pkey 0x2110 3) t.dict.store = some [v] ∧ s.Accepted t r) ∧
   (∀ (y : IT) (l : List IT) (s : State), s.power.dev = .run → s.external = true → (List.range 132).filterMap s.outputEnds = y :: l →
    ∃ t, exec .externalTimeout s = .next t ∧ t.it = max s.it (l.foldl min y) ∧
      (∀ o, o < 132 → (∃ d, s.outputEnds o = some d ∧ d ≤ t.it) → (t.outp o).extOut = true)) ∧
   (∀ (r : Req) (x : Session) (b : Bytes) (s : State), s.Takes r x → b.length = 63 → s.dis.result ≠ 1 → s.hankJudge (1 :: b) = 0 → natAt b 3 1 = 0 →
    s.sliceAt (headerAt (natAt b 0 1)) 4096 = false →
    ∃ t, exec (.hankCreate r b) s = .next t ∧ (t.hank (natAt b 0 1)).state = 1 ∧ t.dis.result = 0 ∧ s.Accepted t r) ∧
   (∀ (r : Req) (x : Session) (b : Bytes) (s : State), s.Takes r x → b.length = 63 → s.dis.result ≠ 1 → s.hankJudge (2 :: b) = 0 →
    s.sliceAt (headerAt (natAt b 0 1)) 4096 = false →
    ∃ t, exec (.hankOpen r b) s = .next t ∧ t.dis.wait = some ⟨2, natAt b 0 1, 2 :: b⟩ ∧ t.dis.result = 1 ∧ s.Accepted t r) ∧
   (∀ (r : Req) (x : Session) (b : Bytes) (s : State), s.Takes r x → b.length = 63 → s.dis.result ≠ 1 → s.hankJudge (3 :: b) = 0 →
    s.sliceAt (headerAt (natAt b 0 1)) 4096 = false →
    ∃ t, exec (.hankClose r b) s = .next t ∧ t.dis.wait = some ⟨3, natAt b 0 1, 3 :: b⟩ ∧ t.dis.result = 1 ∧ s.Accepted t r) ∧
   (∀ (r : Req) (x : Session) (b : Bytes) (s : State), s.Takes r x → b.length = 63 → s.dis.result ≠ 1 → s.hankJudge (4 :: b) = 0 →
    s.sliceAt (headerAt (natAt b 0 1)) 4096 = false →
    ∃ t, exec (.hankDelete r b) s = .next t ∧ (t.hank (natAt b 0 1)).state = 3 ∧ s.Accepted t r) ∧
   (∀ (x : IT) (c : CloseSeq) (s : State), s.dis.close = some c → (s.power.geo = true → c.at_ < s.dis.horizon) →
    s.closeHeld c.slot = false →
    ∃ t, exec (.closeSequenceDone x) s = .next t ∧ t.dis.close = none ∧ t.dis.cache = [] ∧ t.it = max s.it (max x c.at_)) ∧
   (∀ (k : Fin 16) (x : IT) (s : State), s.power.dev.awake = true → (s.hank k).state = 3 → s.sliceAt (headerAt k.val) 4096 = false →
    ∃ t, exec (.hankDeleteDone k x) s = .next t ∧ t.hank k = Hank.reset ∧ t.it = max s.it x) ∧
   (∀ (r : Req) (x : Session) (v : Bytes) (s : State), s.Takes r x → v.length = 16 + natAt v 12 2 → v.length ≤ 65536 → s.streamCause v = 0 →
    s.mramHeld = false → s.sliceAt (headerAt (natAt v 0 1)) 4096 = false →
    s.backHeld (natAt v 0 1) (intAt v 4 2) (intAt v 6 2) = false →
    ∃ t, exec (.tileStream r v) s = .next t ∧ t.dis.applied = 1 ∧ t.dis.reject = 0 ∧ s.Accepted t r) ∧
   (∀ (c r : Int) (x : IT) (n k : Nat) (ok : Bool) (s u : State), s.heldHank = some k → (c, r) ∈ s.dis.fills → s.power.geo = true →
    s.lapHeld = false → (s.at x).makeRoom (s.hank k).mm = some u →
    ∃ t, exec (.tileFillDone c r x n ok) s = .next t ∧ (c, r) ∉ t.dis.fills ∧
      (t.cached c r).map (·.cells) = some (s.storedCells k c r) ∧
      (∀ f, s.frameOf k c r = some f → ok = false → t.frameOf k c r = some { f with damaged := true, since := 0 })) ∧
   (∀ (c r : Int) (x d : IT) (k : Nat) (w : CTile) (s : State), s.heldHank = some k → s.cached c r = some w → w.dirty = some d →
    w.noAlloc = false → s.dis.fills = [] → w.changed + s.pN 0x2300 2 * 1000000 ≤ x → s.lapHeld = false →
    s.backHeld k c r = false → Memory.wf s.mram →
    ∃ t f, exec (.tileWriteBack c r x) s = .next t ∧ t.frameOf k c r = some f ∧ f.crc = crc32 w.cells ∧
      (t.cached c r).map (fun y => (y.dirty, y.cells)) = some (none, w.cells) ∧
      Memory.readBlock t.mram (f.frame * 4096) w.cells.length = w.cells)

/-- The commands of motion inputs, time and the networks complete (R37, R41, R46, R49, R59, R64, R74, R78, R83, R88, R416, R418). The model's choice (Assumptions 19, 67, 81, 123): the bytes of the messages, the count of bus-offs, the floor of TIME SET, and the first TIME-MARK. -/
def Obligations.CompletesInputs : Prop :=
  (∀ (i : Fin 8) (x : IT) (l b : Bool) (h : Nat) (s : State), s.power.dev.awake = true → (s.pulse i).level ≠ some l → s.filterTime i ≤ h →
    s.pulseMode i = 2 → s.pN (0x2010 + i.val) 2 = 2 →
    ∃ t, exec (.pulseEdge i x l b h) s = .next t ∧ (t.pulse i).level = some l ∧
      (t.pulse i).count = clampI (s.pI (0x2010 + i.val) 9) (s.pI (0x2010 + i.val) 0xA) ((s.pulse i).count + 1)) ∧
   (∀ (p : Fin 2) (x : IndexIn) (s : State), s.power.dev.awake = true → s.pulseMode (4 + p.val) = 5 → s.pulseMode (2 * p.val) = 3 →
    (s.pulse (4 + p.val)).level ≠ some true → s.filterTime (4 + p.val) ≤ x.held →
    ∃ t, exec (.indexEdge p x) s = .next t ∧ (t.pulse (2 * p.val)).uncert = 0 ∧ (t.pulse (2 * p.val)).idxSeen = true) ∧
   (∀ (i : Fin 8) (s : State), s.power.dev.awake = true → 1 < (s.pulse i).status →
    ∃ t, exec (.pulseStopTimeout (.pulse i)) s = .next t ∧ t.pulse i = { s.pulse i with status := 1, edges := [] }) ∧
   (∀ (h : Fin 2) (x : IT) (q : HallIn) (s : State), s.power.dev.awake = true → s.pB (0x2040 + h.val) 1 = true →
    (∀ k, k < 3 → s.pN (0x2040 + h.val) 4 ≤ vget q.held k 0) → (s.hall h).code ≠ some q.code →
    ∃ t, exec (.hallEdge h x q) s = .next t ∧ (t.hall h).code = some q.code) ∧
   (∀ (r : Req) (x : Session) (i : Fin 8) (s : State), s.Takes r x →
    ∃ t, exec (.resetUncertainty r i) s = .next t ∧ (t.pulse i).uncert = 0 ∧ s.Accepted t r) ∧
   (∀ (r : Req) (x : Session) (i : Fin 8) (v : Bytes) (s : State), s.Takes r x → v.length = 4 →
    ∃ t, exec (.setCount r i v) s = .next t ∧ (t.pulse i).jump = some (leInt v) ∧ s.Accepted t r) ∧
   (∀ (u : Fin 2) (x : IT) (b c : Bytes) (a : Int) (s : State), s.power.dev.awake = true → b.head? = some 0x24 → b.length ≤ 82 → checkedBody b = some c →
    fieldOf (splitComma c) 0 = [0x48, 0x45, 0x48, 0x44, 0x54] → bit (s.pN (0x2050 + u.val) 3) 3 = true →
    decimalOf (fieldOf (splitComma c) 1) 9 = some a → s.roleHas u 2 = true →
    ∃ t, exec (.nmeaSentence u x b) s = .next t ∧ (t.uart u).accepted = sat32 ((s.uart u).accepted + 1) ∧
      t.motion.gather = s.motion.gather ++ [.heading u (s.validityUntimed u x) (degToBam a)]) ∧
   (∀ (x : IT) (s : State), s.power.dev.awake = true → s.ppsPaired = true → s.time.ppsSeen = false →
    ∃ t, exec (.ppsEdge x) s = .next t ∧ t.time.ppsLast = x ∧ t.time.ppsSeen = true) ∧
   (∀ (x : IT) (src : Nat) (d : Bytes) (s : State), s.power.dev.awake = true → bit (s.pN 0x2058 1) 2 = true → s.pN 0x2058 2 = 255 →
    natAt d 7 1 % 4 = 0 → natAt d 1 2 ≤ 0xFFFC →
    ∃ t, exec (.canAMotionMessage x 127250 src d) s = .next t ∧
      t.motion.gather = s.motion.gather ++ [.heading 2 (x - s.pN 0x2058 3) (radToAngle (natAt d 1 2))]) ∧
   (∀ s : State, s.power.dev.awake = true →
    ∃ t, exec .inertialSampleLate s = .next t ∧ t.motion.inert.soft = true ∧
      t.motion.inert.faults = sat32 (s.motion.inert.faults + 1)) ∧
   (∀ (x t0 : IT) (s : State), s.power.dev.awake = true → s.motion.inert.still = some t0 → s.motion.inert.n ≠ 0 → t0 + s.pN 0x2060 5 * 1000000 ≤ x →
    ∃ t, exec (.standstillBias x) s = .next t ∧ t.motion.inert.bias = s.motion.inert.mean ∧ t.motion.inert.status = 2) ∧
   (∀ (x : IT) (s : State), s.power.dev.awake = true → s.motion.inert.still = none → s.motion.inert.status = 2 →
    s.motion.inert.stillAt + s.pN 0x2060 7 * 1000000000 ≤ x →
    ∃ t, exec (.biasStale x) s = .next t ∧ t.motion.inert.status = 3) ∧
   (∀ (w : WallSource) (l : IT) (s : State), s.power.dev.awake = true → s.lastFrom w = some l →
    ∃ t, exec (.wallSourceTimeout w) s = .next t ∧ t.lastFrom w = none ∧ t.it = max s.it (l + s.pN 0x1101 9 * 1000000)) ∧
   (∀ (r : Req) (x : Session) (p : Bytes) (s : State), s.Serves r x → 1 ≤ x.level → p.length = 16 → natAt p 12 1 = 1 → s.inBootRom = false → s.priorities.head? = some .host →
    (wallFloor : Int) ≤ (natAt p 0 8 : Int) + intAt p 8 4 →
    ∃ t, exec (.timeService r p) s = .next t ∧ t.time.hostOk = true ∧ t.time.wallSet = true) ∧
   (∀ (x : IT) (s : State), s.power.dev.awake = true → s.sliceAt 0xFFC00000 0x100000 = false →
    ∃ t, exec (.epochCopyWrite x) s = .next t ∧
      (if s.time.nextB then t.time.copyB else t.time.copyA) = ⟨max s.it x, s.time.boot, true⟩) ∧
   (∀ s : State, s.power.dev.awake = true →
    ∃ t, exec .timeMark s = .next t ∧ t.it = max s.it s.markAt ∧
      t.skein.arriving = s.skein.arriving ++ [⟨0x0008, s.markAt, s.time.boot, 0, []⟩]) ∧
   (∀ (c : Fin 3) (x : IT) (s : State), s.canUp c = true →
    ∃ t, exec (.canBusOff c ⟨x, .busOff⟩) s = .next t ∧ t.canUp c = false) ∧
   (∀ (c : Fin 3) (x : IT) (d : CanNet) (s : State), s.power.dev.awake = true → (vget s.nets.can c d).bus = 2 →
    ∃ t, exec (.busOffRecovery c x) s = .next t ∧ (vget t.nets.can c d).bus = 0) ∧
   (∀ (x : IT) (s : State), s.power.dev.awake = true → s.power.dev ≠ .shutdown → s.power.crystalOk = true → s.nets.eth.up = false →
    ∃ t, exec (.ethLinkUp x) s = .next t ∧ t.nets.eth.up = true ∧
      t.nets.tx.getLast? = some (.arp false Config.macAddress (s.pN 0x1220 1) 0xFFFFFFFFFFFF (s.pN 0x1220 1))) ∧
   (∀ (x : IT) (s : State), s.power.dev.awake = true → s.nets.eth.up = true →
    ∃ t, exec (.ethLinkDown x) s = .next t ∧ t.nets.eth.up = false) ∧
   (∀ (x : IT) (ip mac : Nat) (s : State), s.stackUp = true →
    ∃ t, exec (.arpRequest x ip mac (s.pN 0x1220 1)) s = .next t ∧
      t.nets.tx.getLast? = some (.arp true Config.macAddress (s.pN 0x1220 1) mac ip)) ∧
   (∀ (ip mac : Nat) (y : IT) (s : State), s.power.dev.awake = true → s.nets.eth.arp.find? (fun e => e.1 == ip) = some (ip, mac, y) →
    ∃ t, exec (.arpCacheExpiry ip) s = .next t ∧ t.nets.eth.arp = s.nets.eth.arp.filter (fun e => e.1 != ip)) ∧
   (∀ (x : IT) (src : Nat) (d : Bytes) (s : State), s.stackUp = true → d.length ≤ 1472 →
    ∃ t, exec (.icmpEcho x src (s.pN 0x1220 1) d) s = .next t ∧ t.nets.tx.getLast? = some (.echo src d)) ∧
   (∀ (x : IT) (n : Nat) (s : State), s.stackUp = true → s.pB 0x1220 5 = true →
    ∃ t, exec (.gptpMessage x (.sync n)) s = .next t ∧ t.nets.eth.syncSeq = n ∧ t.nets.eth.syncRx = some (max s.it x)) ∧
   (∀ (x : IT) (s : State), s.stackUp = true → s.pB 0x1220 5 = true →
    ∃ t, exec (.peerDelayRequest x) s = .next t ∧ t.nets.eth.reqSeq = (s.nets.eth.reqSeq + 1) % 65536 ∧ t.nets.eth.reqTx = max s.it x) ∧
   (∀ (x : IT) (s : State), s.isoOn = true → s.nets.canA.retryAt = none → s.nets.canA.trying = 0xFE →
    ∃ t, exec (.addressClaim x .start) s = .next t ∧ t.nets.canA.trying = s.pN 0x1230 2 ∧
      t.nets.tx.getLast? = some (.canA 6 60928 (s.pN 0x1230 2) 255 s.isoName)) ∧
   (∀ (x y : IT) (s : State), s.isoOn = true → s.nets.canA.retryAt = some y → y ≤ x →
    ∃ t, exec (.addressRetry x) s = .next t ∧ t.nets.canA.trying = s.pN 0x1230 2 ∧ t.nets.canA.retryAt = none) ∧
   (∀ (x : IT) (s : State), s.clientOn = true →
    ∃ t, exec (.taskControllerStatus x (.status (s.pN 0x1231 1))) s = .next t ∧ t.nets.canA.tcSeen = some (max s.it x)) ∧
   (∀ (x : IT) (g ms : Nat) (s : State), s.clientOn = true → s.nets.canA.tcOn = true → reported g = true → ms ≠ 0 →
    ∃ t, exec (.tcMessage x (.intervalTrigger g ms)) s = .next t ∧
      t.nets.canA.triggers = s.nets.canA.triggers.filter (fun e => e.1 != g) ++ [(g, ms, max s.it x + ms * 1000000)]) ∧
   (∀ (x y : IT) (g ms : Nat) (s : State), s.clientOn = true → s.nets.canA.tcOn = true → y ≤ x →
    s.nets.canA.triggers.find? (fun e => e.1 == g) = some (g, ms, y) →
    ∃ t, exec (.timeIntervalTrigger g x) s = .next t ∧
      t.nets.canA.triggers.find? (fun e => e.1 == g) = some (g, ms, y + ms * 1000000) ∧
      t.nets.canA.lastSent.head?.map (fun e => (e.1, e.2.1)) = some (g, max s.it x)) ∧
   (∀ (x y : IT) (s : State), s.nets.canA.tcSeen = some y → s.power.dev.awake = true → s.coresAbsent = false →
    s.nets.canA.tcOn = true → y + 6000000000 ≤ x →
    ∃ t, exec (.tcDisconnect x) s = .next t ∧ t.nets.canA.tcOn = false ∧ t.nets.canA.tcSeen = none ∧ t.nets.canA.pool = 0) ∧
   (∀ (x : IT) (i : Fin 4) (d : Vector Byte 8) (s : State), s.canAServed = true →
    ∃ t, exec (.hitchPtoMessage x i d) s = .next t ∧
      t.nets.canA.hitch = vset s.nets.canA.hitch i (shortStamp (max s.it x), d))

/-- The requests of Pagrim and the dictionary complete (R377, R378, R379, R381, R388, R400, R401, R406, R407, R408, R411, R421). The model's choice (Assumptions 35, 38, 40, 66): the reply to a repeated COMMIT, the release, the due rule of heartbeats, and the lockout. -/
def Obligations.CompletesRequests : Prop :=
  (∀ (r : Req) (x : Session) (i sub st : Nat) (v : Bytes) (s : State), s.Serves r x →
    s.inBootRom = false → (s.mramHeld = false ∨ mramRead i sub = false) →
    pkey i sub ∉ [pkey 0x1201 1, pkey 0x2312 3, pkey 0x4002 3, pkey 0x4002 4, pkey 0x4201 7, pkey 0x4403 2] →
    (s.served r).readParam x.level i sub = .inr (st, v) → v.length ≤ maxPayload r.sid.net - 4 →
    ∃ t, exec (.parameterRead r i sub) s = .next t ∧ t.Replied r 1 i sub (le 1 0 ++ le 1 st ++ le 2 0 ++ v)) ∧
   (∀ (r : Req) (x : Session) (i sub : Nat) (v : Bytes) (d : Desc) (s : State), s.Takes r x → v.length ≤ maxPayload r.sid.net →
    (s.served r).writeCheck x.level i sub v = (0, 0) → findDesc i sub = some d → d.acc = 1 →
    ∃ t, exec (.parameterWrite r i sub v) s = .next t ∧ alookup (pkey i sub) t.dict.store = some v ∧ s.Accepted t r) ∧
   (∀ (r : Req) (x : Session) (i sub total : Nat) (data : Bytes) (s : State), s.Takes r x → data.length ≤ writeRoom r.sid.net →
    data.length < total → blockFail i sub total data.length = 0 →
    ∃ t, exec (.blockWriteSegment r i sub 0 total data) s = .next t ∧
      (t.session r.sid).bind (·.bw) = some ⟨i, sub, total, data, 1, 1, max s.it r.rx⟩) ∧
   (∀ (i : SessionId) (x : Session) (b : BlockWrite) (s : State), s.session i = some x → x.bw = some b →
    ∃ t, exec (.blockWriteTimeout i) s = .next t ∧ t.session i = some { x with bw := none }) ∧
   (∀ (r : Req) (x : Session) (i sub st : Nat) (v : Bytes) (s : State), s.Serves r x →
    s.inBootRom = false → (s.mramHeld = false ∨ mramRead i sub = false) →
    pkey i sub ∉ [pkey 0x1201 1, pkey 0x2312 3, pkey 0x4002 3, pkey 0x4002 4, pkey 0x4201 7, pkey 0x4403 2] →
    (s.servedBlock r).readParam x.level i sub = .inr (st, v) → v.length ≤ 65536 →
    ∃ t, exec (.blockRead r i sub 0) s = .next t ∧ (t.session r.sid).bind (·.bs) = some ⟨i, sub, st, v, max s.it r.rx⟩) ∧
   (∀ (i : SessionId) (x : Session) (b : BlockSnap) (s : State), s.session i = some x → x.bs = some b →
    ∃ t, exec (.blockReadSnapshotExpiry i) s = .next t ∧ t.session i = some { x with bs := none }) ∧
   (∀ (r : Req) (x : Session) (v : Bytes) (f : Frame) (s : State), s.Serves r x → v.length ≤ 65536 → s.mramHeld = false → s.inBootRom = false →
    (s.servedBlock r).readParam x.level 0x2312 3 = .inr (0, v) → s.exportFrames.getLast? = some f →
    ∃ t, exec (.tileExportRead r) s = .next t ∧ t.dis.cursor = min poolFrames (f.frame + 1)) ∧
   (∀ (r : Req) (x : Session) (v : Bytes) (s : State), s.Serves r x → v.length ≤ 65536 → s.inBootRom = false →
    (s.servedBlock r).readParam x.level 0x4403 2 = .inr (0, v) →
    ∃ t, exec (.descriptionBlockRead r) s = .next t ∧ t.dict.descCur = s.dict.descCur + v.length / 40) ∧
   (∀ (r : Req) (x : Session) (v : Bytes) (s : State), s.Serves r x → v.length ≤ 65536 → s.mramHeld = false → s.inBootRom = false →
    (s.servedBlock r).readParam x.level 0x4002 3 = .inr (0, v) →
    ∃ t, exec (.exportBlockRead r false) s = .next t ∧ t.skein.cursorA = (s.exportRead s.skein.cursorA).2) ∧
   (∀ (r : Req) (x : Session) (p : Bytes) (s : State), s.Serves r x → ((s.served r).commitJudge x.level p).res = 0 →
    ∃ t, exec (.commit r p) s = .next t ∧
      t.dict.commit.map (fun w => (w.who, w.boundary)) = some (some (r.sid, r.seq, r.crc), boundaryAtOrAfter (max s.it r.rx + 100000))) ∧
   (∀ (w : CommitWait) (s : State), s.dict.commit = some w →
    ∃ t, exec .commitBoundary s = .next t ∧ t.dict.commit = none ∧ t.dict.staged = [] ∧
      t.dict.store = s.dict.staged.foldl (fun st p => aput p.1 p.2 st) s.dict.store) ∧
   (∀ (r : Req) (x : Session) (s : State), s.Takes r x →
    ∃ t, exec (.discardStaged r) s = .next t ∧ t.dict.staged = [] ∧ t.dict.store = s.dict.store ∧ s.Accepted t r) ∧
   (∀ (r : Req) (x : Session) (b : Bytes) (l : List (Nat × Nat × Bytes)) (u : State) (n : Nat) (s : State), s.Takes r x →
    64 ≤ b.length → b.length ≤ 262144 → imageParts b = some l → natAt b 12 1 = 0 →
    (s.served r).applyEntries r.sid x.level l 0 = (u, n, none) →
    ∃ t, exec (.configurationImage r b) s = .next t ∧ t.dict.imgRes = imageOutcome 0 0 n 0 0 ∧ t.dict.staged = u.dict.staged) ∧
   (∀ (x : IT) (f : Bytes) (s : State), s.power.dev.awake = true → f ≠ s.dict.imageDigest →
    ∃ t, exec (.digestRecheck x f) s = .next t ∧ t.dict.storeBad = true ∧ t.dict.recheck = sat32 (s.dict.recheck + 1)) ∧
   (∀ (n : Net) (b : Bytes) (c : Nat) (s : State), n ≠ .eth → s.netUp n = true → s.coresAbsent = false → frameFail n b = some c →
    ∃ t, exec (.pagrimFrameDiscard n (.can true true b)) s = .next t ∧ vget t.nets.frames c 0 = sat32 (vget s.nets.frames c 0 + 1)) ∧
   (∀ (i : SessionId) (p : Bytes) (x : IT) (s : State), s.netUp i.net = true → i.byte ≠ 0 → p.length = 8 → s.session i = none →
    s.mayOpen i.net = true → s.nets.ctrl ≠ some i → bit (natAt p 0 1) 0 = false →
    ∃ t, exec (.hostHeartbeat i p x) s = .next t ∧ t.session i = some ⟨i, 0, x, [], none, none⟩) ∧
   (∀ (n : Net) (x : IT) (s : State), s.power.dev.awake = true → s.netUp n = true → n ∈ s.netsWithSession →
    (s.at x).beatDue (Net.bitNo n) = true →
    ∃ t, exec (.deviceHeartbeat (some n) x) s = .next t ∧ t.nets.beats = (s.nets.beats + 1) % 65536) ∧
   (∀ (i : SessionId) (y : Session) (s : State), s.session i = some y →
    ∃ t, exec (.sessionTimeout i) s = .next t ∧ t.session i = none ∧ t.it = max s.it (y.beat + s.pN 0x1200 1 * 3000000)) ∧
   (∀ (r : Req) (x : Session) (s : State), s.Serves r x → s.nets.lockUntil = none →
    ∃ t, exec (.challengeRead r) s = .next t ∧ t.nets.challenge.map (fun c => (c.1.length, c.2)) = some (16, max s.it r.rx)) ∧
   (∀ (r : Req) (x : Session) (v : Bytes) (s : State), s.Takes r x → v.length = 68 → natAt v 1 3 = 0 → (natAt v 0 1 = 2 ∨ natAt v 0 1 = 3) →
    ∃ t, exec (.responseWrite r v) s = .next t ∧
      ((s.served r).signedBy (natAt v 0 1) v = true → (t.session r.sid).map (·.level) = some (natAt v 0 1) ∧ s.Accepted t r)) ∧
   (∀ (r : Req) (x : Session) (s : State), s.Takes r x →
    ∃ t, exec (.relock r) s = .next t ∧ (t.session r.sid).map (·.level) = some 1 ∧ s.Accepted t r) ∧
   (∀ (i : SessionId) (x : Session) (s : State), s.nets.ctrl = some i → s.session i = some x → 1 < x.level →
    ∃ t, exec .raisedLevelTimeout s = .next t ∧ (t.session i).map (·.level) = some 1) ∧
   (∀ (x : IT) (s : State), s.nets.lockUntil = some x →
    ∃ t, exec .challengeLockoutEnd s = .next t ∧ t.nets.lockUntil = none ∧ t.it = max s.it x)

/-- The commands of Skein, Carding, the life cycle and the images complete (R435, R440, R441, R442, R445, R447, R486, R489, R493, R495, R496, R505). The model's choice (Assumptions 21, 47, 63, 64, 66): the relocation of rows, the order of arrival, the cut of a RANGE, the images' engine, and the life-cycle signature. -/
def Obligations.CompletesStores : Prop :=
  (∀ (q : Rec) (l : List Rec) (s : State), s.power.dev.awake = true → s.skein.arriving = q :: l →
    ∃ t, exec .recordIngest s = .next t ∧ t.skein.arriving = l) ∧
   (∀ (k : Fin 16) (h : Entry) (s : State), s.power.dev.awake = true → s.skein.heldOf k = some h → s.skein.hasRoom (spareCode h.r.code) = true → s.snapSets h.r.code = [] →
    ∃ t, exec (.heldRecordRelease k) s = .next t ∧ t.skein.heldOf k = none ∧ t.skein.queue.length = s.skein.queue.length + 1) ∧
   (∀ s : State, s.power.dev.awake = true →
    ∃ t, exec .limitedSecondEnd s = .next t ∧ t.skein.limited = [] ∧ t.skein.second = t.it / 1000000000) ∧
   (∀ (x : IT) (c : Nat) (s : State), s.power.dev.awake = true → s.skein.lossFirst = some (x, c) → s.skein.general ≤ 7168 → s.snapSets 3 = [] →
    ∃ t, exec .lossRecord s = .next t ∧ t.skein.lossFirst = none ∧
      t.skein.queue.getLast?.map (·.r) = some ⟨3, x, s.time.boot, 0, leAll 4 s.skein.lossNow.toList ++ le 2 c⟩) ∧
   (∀ (e : Entry) (l : List Entry) (s : State), s.power.dev.awake = true → s.coresAbsent = false → takeLowest s.skein.queue = some (e, l) →
    e.snaps = [] → s.skein.sramOnly = false → Memory.wf s.mram →
    ∃ t, exec .recordWrite s = .next t ∧ t.skein.queue = l ∧
      Memory.readBlock t.mram (logBase + 64 * s.skein.slotPtr) 64 = e.bytes s.skein.nextSeq e.flags) ∧
   (∀ (x : IT) (row : Nat) (s : State), s.power.dev.awake = true → s.skein.sramOnly = false →
    ∃ t, exec (.logRowFailure x row) s = .next t ∧ t.skein.logFault = true) ∧
   (∀ (c : Nat) (w : AlarmWin) (s : State), s.power.dev.awake = true → s.coresAbsent = false →
    s.skein.windows.find? (fun w => w.code == c) = some w → w.count = 0 →
    ∃ t, exec (.alarmWindowEnd c) s = .next t ∧ t.skein.windows.find? (fun w => w.code == c) = none ∧ t.it = max s.it w.ends) ∧
   (∀ (r : Req) (x : Session) (s : State), s.Takes r x →
    ∃ t, exec (.clearLastWord r) s = .next t ∧ t.skein.lastWord = [] ∧ s.Accepted t r) ∧
   (∀ (x : IT) (i : SliceIn) (w : CardRun) (k : Nat) (l : List (Nat × Nat)) (s : State), s.power.dev.awake = true → s.card.run = some w →
    w.shutdown = false → w.next = some (k, l) → i.badRow = none → s.coresAbsent = false →
    ∃ t, exec (.cardingSlice x i) s = .next t ∧
      t.card.results.head?.map (fun q => (q.slice, q.result)) = some (k, if slicePasses k i then 1 else 2)) ∧
   (∀ (r : Req) (x : Session) (s : State), s.Takes r x → s.card.run = none → (s.card.life = 1 ∧ (s.power.dev = .unconfigured ∨ s.power.dev = .ready) ∨ s.card.life = 3 ∧ s.power.dev = .service ∧ 3 ≤ x.level) →
    ∃ t, exec (.cardingRunAll r) s = .next t ∧ t.card.run.map (·.requested) = some cardSlices ∧ s.Accepted t r) ∧
   (∀ (r : Req) (x : Session) (s : State), s.Takes r x → s.card.run = none → (s.card.life = 1 ∧ (s.power.dev = .unconfigured ∨ s.power.dev = .ready) ∨ s.card.life = 3 ∧ s.power.dev = .service ∧ 3 ≤ x.level) →
    ∃ t, exec (.cardingRunCore r) s = .next t ∧ t.card.run.map (·.requested) = some 36 ∧ s.Accepted t r) ∧
   (∀ (r : Req) (x : Session) (s : State), s.Takes r x → s.card.run = none → (s.card.life = 1 ∧ (s.power.dev = .unconfigured ∨ s.power.dev = .ready) ∨ s.card.life = 3 ∧ s.power.dev = .service ∧ 3 ≤ x.level) →
    ∃ t, exec (.cardingRunRange r) s = .next t ∧
      t.card.run.map (·.requested) = some (min (s.pN 0x4200 3) (cardSlices - s.pN 0x4200 2)) ∧ s.Accepted t r) ∧
   (∀ (r : Req) (x : Session) (s : State), s.Takes r x → (s.card.life = 1 ∧ (s.power.dev = .unconfigured ∨ s.power.dev = .ready) ∨ s.card.life = 3 ∧ s.power.dev = .service ∧ 3 ≤ x.level) →
    ∃ t, exec (.cardingStop r) s = .next t ∧ t.card.run = none ∧ s.Accepted t r) ∧
   (∀ (r : Req) (x : Session) (y : Repair) (l : List Repair) (s : State), s.Takes r x → (s.card.life = 1 ∧ (s.power.dev = .unconfigured ∨ s.power.dev = .ready) ∨ s.card.life = 3 ∧ s.power.dev = .service ∧ 3 ≤ x.level) → s.card.repairs = y :: l →
    (s.card.repairs.filter (fun z => z.memory == y.memory && z.fuse)).length < fuseRows y.memory →
    ∃ t, exec (.burnRepairs r) s = .next t ∧ t.card.repairs.head?.map (·.fuse) = some true ∧ s.Accepted t r) ∧
   (∀ (r : Req) (x : Session) (v : Bytes) (s : State), s.Takes r x → v.length = 68 → natAt v 1 3 = 0 → s.card.life = 2 → natAt v 0 1 = 4 → 2 ≤ x.level →
    ∃ t, exec (.lifecycleCommand r v) s = .next t ∧ t.card.life = 2 ∧
      ((s.served r).signedBy x.level v = true → t.card.pendLife = 4 ∧ s.Accepted t r)) ∧
   (∀ (r : Req) (x : Session) (v : Bytes) (s : State), s.Takes r x → v.length = 64 → (s.card.life = 1 ∨ s.card.life = 2) → s.card.key = none →
    ∃ t, exec (.protectedKeyWrite r v) s = .next t ∧
      t.card.key = some (leNat (bytesAt v 0 32), leNat (bytesAt v 32 32)) ∧ s.Accepted t r) ∧
   (∀ (r : Req) (x : Session) (e : Fin 4) (n : Nat) (s : State), s.Takes r x → 2 ≤ x.level → s.imagesServed = true →
    (s.engine e).slotA.state ≠ 5 → (s.engine e).slotB.state ≠ 5 → 256 < n → n ≤ 256 + bodyMax →
    ∃ t, exec (.imageOpen r e n) s = .next t ∧ (t.engine e).slot (s.engine e).other = ⟨1, n, 0⟩ ∧ s.Accepted t r) ∧
   (∀ (r : Req) (x : Session) (e k : Nat) (v : Bytes) (s : State), s.Takes r x → 2 ≤ x.level → s.imagesServed = true →
    s.loadEngine = some e → e < 4 → k = (s.engine e).other → 5 ≤ v.length → v.length ≤ 65536 →
    natAt v 0 4 = ((s.engine e).slot k).got → natAt v 0 4 + (v.length - 4) ≤ ((s.engine e).slot k).total →
    s.sliceAt (slotBase e k + natAt v 0 4) (v.length - 4) = false → s.mramHeld = false →
    ∃ t, exec (.imageChunk r v) s = .next t ∧ ((t.engine e).slot k).got = natAt v 0 4 + (v.length - 4) ∧ s.Accepted t r) ∧
   (∀ (r : Req) (x : Session) (e : Fin 4) (s : State), s.Takes r x → 2 ≤ x.level → s.imagesServed = true →
    2 ≤ ((s.engine e).slot (s.engine e).other).state → ((s.engine e).slot (s.engine e).other).state ≠ 6 →
    ∃ t, exec (.imageVerify r e) s = .next t ∧ s.Accepted t r ∧
      ((t.engine e).slot (s.engine e).other).state = (if s.imageCause e (s.engine e).other = 0 then 3 else 6)) ∧
   (∀ (r : Req) (x : Session) (e : Fin 4) (s : State), s.Takes r x → 2 ≤ x.level → s.imagesServed = true → s.card.switch = none → s.switchCause e = 0 →
    ∃ t, exec (.imageSwitch r e) s = .next t ∧ t.card.switch = some ⟨e, boundaryAtOrAfter (max s.it r.rx + 100000), 0⟩ ∧ s.Accepted t r) ∧
   (∀ (d : Vector Bool 4) (w : SwitchWait) (s : State), s.power.dev.awake = true → s.card.switch = some w → w.engine < 3 →
    ((s.engine w.engine).slot (s.engine w.engine).other).state = 3 →
    ∃ t, exec (.imageSwitchBoundary d) s = .next t ∧ t.card.switch = none ∧ (t.engine w.engine).runB = !(s.engine w.engine).runB) ∧
   (∀ (r : Req) (x : Session) (s : State), s.Takes r x → 2 ≤ x.level → s.imagesServed = true →
    ∃ t, exec (.imageConfirm r) s = .next t ∧ s.Accepted t r ∧
      (∀ e, e < 4 → ((s.engine e).slot (s.engine e).running).state = 5 → ((t.engine e).slot (s.engine e).running).state = 4)) ∧
   (∀ (r : Req) (x : Session) (e : Fin 4) (s : State), s.Takes r x → 2 ≤ x.level → s.imagesServed = true →
    (((s.engine e).slot (s.engine e).other).state = 1 ∨ ((s.engine e).slot (s.engine e).other).state = 2) →
    ∃ t, exec (.imageAbandon r e) s = .next t ∧ ((t.engine e).slot (s.engine e).other).state = 0 ∧ s.Accepted t r)
end

