-- ==== Sys2Proof/Laws/State.lean ====
section
/-! SUPPORT. What each small update of the state leaves as it was, field by field, and how a vector reads after an update. -/

namespace Sys2Proof.Machine

@[simp] theorem vget_vmod_same {α : Type} {n : Nat} (v : Vector α n) (i : Nat) (f : α → α) (d : α) (h : i < n) :
    vget (vmod v i f) i d = f (vget v i d) := by simp [vget, vmod, h]

@[simp] theorem vget_vmod_other {α : Type} {n : Nat} (v : Vector α n) (i j : Nat) (f : α → α) (d : α) (h : i ≠ j) :
    vget (vmod v i f) j d = vget v j d := by
  unfold vget vmod
  split
  · split
    · exact Vector.getElem_set_ne _ _ h
    · rfl
  · rfl

@[simp] theorem vget_vset_same {α : Type} {n : Nat} (v : Vector α n) (i : Nat) (x d : α) (h : i < n) :
    vget (vset v i x) i d = x := by simp [vset, h]

@[simp] theorem vget_vset_other {α : Type} {n : Nat} (v : Vector α n) (i j : Nat) (x d : α) (h : i ≠ j) :
    vget (vset v i x) j d = vget v j d := by simp [vset, h]

/-! ### State.at -/

@[simp] theorem State.at_time (s : State) (t : IT) : (State.at s t).time = s.time := rfl
@[simp] theorem State.at_power (s : State) (t : IT) : (State.at s t).power = s.power := rfl
@[simp] theorem State.at_motion (s : State) (t : IT) : (State.at s t).motion = s.motion := rfl
@[simp] theorem State.at_rov (s : State) (t : IT) : (State.at s t).rov = s.rov := rfl
@[simp] theorem State.at_spd (s : State) (t : IT) : (State.at s t).spd = s.spd := rfl
@[simp] theorem State.at_dis (s : State) (t : IT) : (State.at s t).dis = s.dis := rfl
@[simp] theorem State.at_rate (s : State) (t : IT) : (State.at s t).rate = s.rate := rfl
@[simp] theorem State.at_chan (s : State) (t : IT) : (State.at s t).chan = s.chan := rfl
@[simp] theorem State.at_banks (s : State) (t : IT) : (State.at s t).banks = s.banks := rfl
@[simp] theorem State.at_dies (s : State) (t : IT) : (State.at s t).dies = s.dies := rfl
@[simp] theorem State.at_bob (s : State) (t : IT) : (State.at s t).bob = s.bob := rfl
@[simp] theorem State.at_whorl (s : State) (t : IT) : (State.at s t).whorl = s.whorl := rfl
@[simp] theorem State.at_spin (s : State) (t : IT) : (State.at s t).spin = s.spin := rfl
@[simp] theorem State.at_bridges (s : State) (t : IT) : (State.at s t).bridges = s.bridges := rfl
@[simp] theorem State.at_ports (s : State) (t : IT) : (State.at s t).ports = s.ports := rfl
@[simp] theorem State.at_loads (s : State) (t : IT) : (State.at s t).loads = s.loads := rfl
@[simp] theorem State.at_budget (s : State) (t : IT) : (State.at s t).budget = s.budget := rfl
@[simp] theorem State.at_therm (s : State) (t : IT) : (State.at s t).therm = s.therm := rfl
@[simp] theorem State.at_dict (s : State) (t : IT) : (State.at s t).dict = s.dict := rfl
@[simp] theorem State.at_nets (s : State) (t : IT) : (State.at s t).nets = s.nets := rfl
@[simp] theorem State.at_skein (s : State) (t : IT) : (State.at s t).skein = s.skein := rfl
@[simp] theorem State.at_sup (s : State) (t : IT) : (State.at s t).sup = s.sup := rfl
@[simp] theorem State.at_card (s : State) (t : IT) : (State.at s t).card = s.card := rfl
@[simp] theorem State.at_mram (s : State) (t : IT) : (State.at s t).mram = s.mram := rfl
@[simp] theorem State.at_undo (s : State) (t : IT) : (State.at s t).undo = s.undo := rfl
@[simp] theorem State.at_freeCtr (s : State) (t : IT) : (State.at s t).freeCtr = s.freeCtr := rfl
@[simp] theorem State.at_pending (s : State) (t : IT) : (State.at s t).pending = s.pending := rfl
@[simp] theorem State.at_it (s : State) (t : IT) :
    (State.at s t).it = max s.it t := rfl

/-! ### State.draw -/

@[simp] theorem State.draw_it (s : State) : (State.draw s).it = s.it := rfl
@[simp] theorem State.draw_time (s : State) : (State.draw s).time = s.time := rfl
@[simp] theorem State.draw_power (s : State) : (State.draw s).power = s.power := rfl
@[simp] theorem State.draw_motion (s : State) : (State.draw s).motion = s.motion := rfl
@[simp] theorem State.draw_rov (s : State) : (State.draw s).rov = s.rov := rfl
@[simp] theorem State.draw_spd (s : State) : (State.draw s).spd = s.spd := rfl
@[simp] theorem State.draw_dis (s : State) : (State.draw s).dis = s.dis := rfl
@[simp] theorem State.draw_rate (s : State) : (State.draw s).rate = s.rate := rfl
@[simp] theorem State.draw_chan (s : State) : (State.draw s).chan = s.chan := rfl
@[simp] theorem State.draw_banks (s : State) : (State.draw s).banks = s.banks := rfl
@[simp] theorem State.draw_dies (s : State) : (State.draw s).dies = s.dies := rfl
@[simp] theorem State.draw_bob (s : State) : (State.draw s).bob = s.bob := rfl
@[simp] theorem State.draw_whorl (s : State) : (State.draw s).whorl = s.whorl := rfl
@[simp] theorem State.draw_spin (s : State) : (State.draw s).spin = s.spin := rfl
@[simp] theorem State.draw_bridges (s : State) : (State.draw s).bridges = s.bridges := rfl
@[simp] theorem State.draw_ports (s : State) : (State.draw s).ports = s.ports := rfl
@[simp] theorem State.draw_loads (s : State) : (State.draw s).loads = s.loads := rfl
@[simp] theorem State.draw_budget (s : State) : (State.draw s).budget = s.budget := rfl
@[simp] theorem State.draw_therm (s : State) : (State.draw s).therm = s.therm := rfl
@[simp] theorem State.draw_dict (s : State) : (State.draw s).dict = s.dict := rfl
@[simp] theorem State.draw_nets (s : State) : (State.draw s).nets = s.nets := rfl
@[simp] theorem State.draw_skein (s : State) : (State.draw s).skein = s.skein := rfl
@[simp] theorem State.draw_sup (s : State) : (State.draw s).sup = s.sup := rfl
@[simp] theorem State.draw_card (s : State) : (State.draw s).card = s.card := rfl
@[simp] theorem State.draw_mram (s : State) : (State.draw s).mram = s.mram := rfl
@[simp] theorem State.draw_undo (s : State) : (State.draw s).undo = s.undo := rfl
@[simp] theorem State.draw_pending (s : State) : (State.draw s).pending = s.pending := rfl
@[simp] theorem State.draw_freeCtr (s : State) :
    (State.draw s).freeCtr = s.freeCtr + 1 := rfl

/-! ### State.record -/

@[simp] theorem State.record_it (s : State) (code : Nat) (subj : Nat) (det : Bytes) : (State.record s code subj det).it = s.it := rfl
@[simp] theorem State.record_time (s : State) (code : Nat) (subj : Nat) (det : Bytes) : (State.record s code subj det).time = s.time := rfl
@[simp] theorem State.record_power (s : State) (code : Nat) (subj : Nat) (det : Bytes) : (State.record s code subj det).power = s.power := rfl
@[simp] theorem State.record_motion (s : State) (code : Nat) (subj : Nat) (det : Bytes) : (State.record s code subj det).motion = s.motion := rfl
@[simp] theorem State.record_rov (s : State) (code : Nat) (subj : Nat) (det : Bytes) : (State.record s code subj det).rov = s.rov := rfl
@[simp] theorem State.record_spd (s : State) (code : Nat) (subj : Nat) (det : Bytes) : (State.record s code subj det).spd = s.spd := rfl
@[simp] theorem State.record_dis (s : State) (code : Nat) (subj : Nat) (det : Bytes) : (State.record s code subj det).dis = s.dis := rfl
@[simp] theorem State.record_rate (s : State) (code : Nat) (subj : Nat) (det : Bytes) : (State.record s code subj det).rate = s.rate := rfl
@[simp] theorem State.record_chan (s : State) (code : Nat) (subj : Nat) (det : Bytes) : (State.record s code subj det).chan = s.chan := rfl
@[simp] theorem State.record_banks (s : State) (code : Nat) (subj : Nat) (det : Bytes) : (State.record s code subj det).banks = s.banks := rfl
@[simp] theorem State.record_dies (s : State) (code : Nat) (subj : Nat) (det : Bytes) : (State.record s code subj det).dies = s.dies := rfl
@[simp] theorem State.record_bob (s : State) (code : Nat) (subj : Nat) (det : Bytes) : (State.record s code subj det).bob = s.bob := rfl
@[simp] theorem State.record_whorl (s : State) (code : Nat) (subj : Nat) (det : Bytes) : (State.record s code subj det).whorl = s.whorl := rfl
@[simp] theorem State.record_spin (s : State) (code : Nat) (subj : Nat) (det : Bytes) : (State.record s code subj det).spin = s.spin := rfl
@[simp] theorem State.record_bridges (s : State) (code : Nat) (subj : Nat) (det : Bytes) : (State.record s code subj det).bridges = s.bridges := rfl
@[simp] theorem State.record_ports (s : State) (code : Nat) (subj : Nat) (det : Bytes) : (State.record s code subj det).ports = s.ports := rfl
@[simp] theorem State.record_loads (s : State) (code : Nat) (subj : Nat) (det : Bytes) : (State.record s code subj det).loads = s.loads := rfl
@[simp] theorem State.record_budget (s : State) (code : Nat) (subj : Nat) (det : Bytes) : (State.record s code subj det).budget = s.budget := rfl
@[simp] theorem State.record_therm (s : State) (code : Nat) (subj : Nat) (det : Bytes) : (State.record s code subj det).therm = s.therm := rfl
@[simp] theorem State.record_dict (s : State) (code : Nat) (subj : Nat) (det : Bytes) : (State.record s code subj det).dict = s.dict := rfl
@[simp] theorem State.record_nets (s : State) (code : Nat) (subj : Nat) (det : Bytes) : (State.record s code subj det).nets = s.nets := rfl
@[simp] theorem State.record_sup (s : State) (code : Nat) (subj : Nat) (det : Bytes) : (State.record s code subj det).sup = s.sup := rfl
@[simp] theorem State.record_card (s : State) (code : Nat) (subj : Nat) (det : Bytes) : (State.record s code subj det).card = s.card := rfl
@[simp] theorem State.record_mram (s : State) (code : Nat) (subj : Nat) (det : Bytes) : (State.record s code subj det).mram = s.mram := rfl
@[simp] theorem State.record_undo (s : State) (code : Nat) (subj : Nat) (det : Bytes) : (State.record s code subj det).undo = s.undo := rfl
@[simp] theorem State.record_freeCtr (s : State) (code : Nat) (subj : Nat) (det : Bytes) : (State.record s code subj det).freeCtr = s.freeCtr := rfl
@[simp] theorem State.record_pending (s : State) (code : Nat) (subj : Nat) (det : Bytes) : (State.record s code subj det).pending = s.pending := rfl
@[simp] theorem State.record_skein (s : State) (code : Nat) (subj : Nat) (det : Bytes) :
    (State.record s code subj det).skein = { s.skein with arriving := s.skein.arriving ++ [⟨code, s.it, s.time.boot, subj, det⟩] } := rfl

/-! ### State.report -/

@[simp] theorem State.report_it (s : State) (code : Nat) (subj : Nat) (det : Bytes) : (State.report s code subj det).it = s.it := rfl
@[simp] theorem State.report_time (s : State) (code : Nat) (subj : Nat) (det : Bytes) : (State.report s code subj det).time = s.time := rfl
@[simp] theorem State.report_power (s : State) (code : Nat) (subj : Nat) (det : Bytes) : (State.report s code subj det).power = s.power := rfl
@[simp] theorem State.report_motion (s : State) (code : Nat) (subj : Nat) (det : Bytes) : (State.report s code subj det).motion = s.motion := rfl
@[simp] theorem State.report_rov (s : State) (code : Nat) (subj : Nat) (det : Bytes) : (State.report s code subj det).rov = s.rov := rfl
@[simp] theorem State.report_spd (s : State) (code : Nat) (subj : Nat) (det : Bytes) : (State.report s code subj det).spd = s.spd := rfl
@[simp] theorem State.report_dis (s : State) (code : Nat) (subj : Nat) (det : Bytes) : (State.report s code subj det).dis = s.dis := rfl
@[simp] theorem State.report_rate (s : State) (code : Nat) (subj : Nat) (det : Bytes) : (State.report s code subj det).rate = s.rate := rfl
@[simp] theorem State.report_chan (s : State) (code : Nat) (subj : Nat) (det : Bytes) : (State.report s code subj det).chan = s.chan := rfl
@[simp] theorem State.report_banks (s : State) (code : Nat) (subj : Nat) (det : Bytes) : (State.report s code subj det).banks = s.banks := rfl
@[simp] theorem State.report_dies (s : State) (code : Nat) (subj : Nat) (det : Bytes) : (State.report s code subj det).dies = s.dies := rfl
@[simp] theorem State.report_bob (s : State) (code : Nat) (subj : Nat) (det : Bytes) : (State.report s code subj det).bob = s.bob := rfl
@[simp] theorem State.report_whorl (s : State) (code : Nat) (subj : Nat) (det : Bytes) : (State.report s code subj det).whorl = s.whorl := rfl
@[simp] theorem State.report_spin (s : State) (code : Nat) (subj : Nat) (det : Bytes) : (State.report s code subj det).spin = s.spin := rfl
@[simp] theorem State.report_bridges (s : State) (code : Nat) (subj : Nat) (det : Bytes) : (State.report s code subj det).bridges = s.bridges := rfl
@[simp] theorem State.report_ports (s : State) (code : Nat) (subj : Nat) (det : Bytes) : (State.report s code subj det).ports = s.ports := rfl
@[simp] theorem State.report_loads (s : State) (code : Nat) (subj : Nat) (det : Bytes) : (State.report s code subj det).loads = s.loads := rfl
@[simp] theorem State.report_budget (s : State) (code : Nat) (subj : Nat) (det : Bytes) : (State.report s code subj det).budget = s.budget := rfl
@[simp] theorem State.report_therm (s : State) (code : Nat) (subj : Nat) (det : Bytes) : (State.report s code subj det).therm = s.therm := rfl
@[simp] theorem State.report_dict (s : State) (code : Nat) (subj : Nat) (det : Bytes) : (State.report s code subj det).dict = s.dict := rfl
@[simp] theorem State.report_nets (s : State) (code : Nat) (subj : Nat) (det : Bytes) : (State.report s code subj det).nets = s.nets := rfl
@[simp] theorem State.report_skein (s : State) (code : Nat) (subj : Nat) (det : Bytes) : (State.report s code subj det).skein = s.skein := rfl
@[simp] theorem State.report_card (s : State) (code : Nat) (subj : Nat) (det : Bytes) : (State.report s code subj det).card = s.card := rfl
@[simp] theorem State.report_mram (s : State) (code : Nat) (subj : Nat) (det : Bytes) : (State.report s code subj det).mram = s.mram := rfl
@[simp] theorem State.report_undo (s : State) (code : Nat) (subj : Nat) (det : Bytes) : (State.report s code subj det).undo = s.undo := rfl
@[simp] theorem State.report_freeCtr (s : State) (code : Nat) (subj : Nat) (det : Bytes) : (State.report s code subj det).freeCtr = s.freeCtr := rfl
@[simp] theorem State.report_pending (s : State) (code : Nat) (subj : Nat) (det : Bytes) : (State.report s code subj det).pending = s.pending := rfl
@[simp] theorem State.report_sup (s : State) (code : Nat) (subj : Nat) (det : Bytes) :
    (State.report s code subj det).sup = { s.sup with reported := s.sup.reported ++ [s.faultNow code subj det s.it] } := rfl

/-! ### State.modCh -/

@[simp] theorem State.modCh_it (s : State) (n : Nat) (f : Channel → Channel) : (State.modCh s n f).it = s.it := rfl
@[simp] theorem State.modCh_time (s : State) (n : Nat) (f : Channel → Channel) : (State.modCh s n f).time = s.time := rfl
@[simp] theorem State.modCh_power (s : State) (n : Nat) (f : Channel → Channel) : (State.modCh s n f).power = s.power := rfl
@[simp] theorem State.modCh_motion (s : State) (n : Nat) (f : Channel → Channel) : (State.modCh s n f).motion = s.motion := rfl
@[simp] theorem State.modCh_rov (s : State) (n : Nat) (f : Channel → Channel) : (State.modCh s n f).rov = s.rov := rfl
@[simp] theorem State.modCh_spd (s : State) (n : Nat) (f : Channel → Channel) : (State.modCh s n f).spd = s.spd := rfl
@[simp] theorem State.modCh_dis (s : State) (n : Nat) (f : Channel → Channel) : (State.modCh s n f).dis = s.dis := rfl
@[simp] theorem State.modCh_rate (s : State) (n : Nat) (f : Channel → Channel) : (State.modCh s n f).rate = s.rate := rfl
@[simp] theorem State.modCh_banks (s : State) (n : Nat) (f : Channel → Channel) : (State.modCh s n f).banks = s.banks := rfl
@[simp] theorem State.modCh_dies (s : State) (n : Nat) (f : Channel → Channel) : (State.modCh s n f).dies = s.dies := rfl
@[simp] theorem State.modCh_bob (s : State) (n : Nat) (f : Channel → Channel) : (State.modCh s n f).bob = s.bob := rfl
@[simp] theorem State.modCh_whorl (s : State) (n : Nat) (f : Channel → Channel) : (State.modCh s n f).whorl = s.whorl := rfl
@[simp] theorem State.modCh_spin (s : State) (n : Nat) (f : Channel → Channel) : (State.modCh s n f).spin = s.spin := rfl
@[simp] theorem State.modCh_bridges (s : State) (n : Nat) (f : Channel → Channel) : (State.modCh s n f).bridges = s.bridges := rfl
@[simp] theorem State.modCh_ports (s : State) (n : Nat) (f : Channel → Channel) : (State.modCh s n f).ports = s.ports := rfl
@[simp] theorem State.modCh_loads (s : State) (n : Nat) (f : Channel → Channel) : (State.modCh s n f).loads = s.loads := rfl
@[simp] theorem State.modCh_budget (s : State) (n : Nat) (f : Channel → Channel) : (State.modCh s n f).budget = s.budget := rfl
@[simp] theorem State.modCh_therm (s : State) (n : Nat) (f : Channel → Channel) : (State.modCh s n f).therm = s.therm := rfl
@[simp] theorem State.modCh_dict (s : State) (n : Nat) (f : Channel → Channel) : (State.modCh s n f).dict = s.dict := rfl
@[simp] theorem State.modCh_nets (s : State) (n : Nat) (f : Channel → Channel) : (State.modCh s n f).nets = s.nets := rfl
@[simp] theorem State.modCh_skein (s : State) (n : Nat) (f : Channel → Channel) : (State.modCh s n f).skein = s.skein := rfl
@[simp] theorem State.modCh_sup (s : State) (n : Nat) (f : Channel → Channel) : (State.modCh s n f).sup = s.sup := rfl
@[simp] theorem State.modCh_card (s : State) (n : Nat) (f : Channel → Channel) : (State.modCh s n f).card = s.card := rfl
@[simp] theorem State.modCh_mram (s : State) (n : Nat) (f : Channel → Channel) : (State.modCh s n f).mram = s.mram := rfl
@[simp] theorem State.modCh_undo (s : State) (n : Nat) (f : Channel → Channel) : (State.modCh s n f).undo = s.undo := rfl
@[simp] theorem State.modCh_freeCtr (s : State) (n : Nat) (f : Channel → Channel) : (State.modCh s n f).freeCtr = s.freeCtr := rfl
@[simp] theorem State.modCh_pending (s : State) (n : Nat) (f : Channel → Channel) : (State.modCh s n f).pending = s.pending := rfl
@[simp] theorem State.modCh_chan (s : State) (n : Nat) (f : Channel → Channel) :
    (State.modCh s n f).chan = vmod s.chan n f := rfl

/-! ### State.modBank -/

@[simp] theorem State.modBank_it (s : State) (b : Nat) (f : Bank → Bank) : (State.modBank s b f).it = s.it := rfl
@[simp] theorem State.modBank_time (s : State) (b : Nat) (f : Bank → Bank) : (State.modBank s b f).time = s.time := rfl
@[simp] theorem State.modBank_power (s : State) (b : Nat) (f : Bank → Bank) : (State.modBank s b f).power = s.power := rfl
@[simp] theorem State.modBank_motion (s : State) (b : Nat) (f : Bank → Bank) : (State.modBank s b f).motion = s.motion := rfl
@[simp] theorem State.modBank_rov (s : State) (b : Nat) (f : Bank → Bank) : (State.modBank s b f).rov = s.rov := rfl
@[simp] theorem State.modBank_spd (s : State) (b : Nat) (f : Bank → Bank) : (State.modBank s b f).spd = s.spd := rfl
@[simp] theorem State.modBank_dis (s : State) (b : Nat) (f : Bank → Bank) : (State.modBank s b f).dis = s.dis := rfl
@[simp] theorem State.modBank_rate (s : State) (b : Nat) (f : Bank → Bank) : (State.modBank s b f).rate = s.rate := rfl
@[simp] theorem State.modBank_chan (s : State) (b : Nat) (f : Bank → Bank) : (State.modBank s b f).chan = s.chan := rfl
@[simp] theorem State.modBank_dies (s : State) (b : Nat) (f : Bank → Bank) : (State.modBank s b f).dies = s.dies := rfl
@[simp] theorem State.modBank_bob (s : State) (b : Nat) (f : Bank → Bank) : (State.modBank s b f).bob = s.bob := rfl
@[simp] theorem State.modBank_whorl (s : State) (b : Nat) (f : Bank → Bank) : (State.modBank s b f).whorl = s.whorl := rfl
@[simp] theorem State.modBank_spin (s : State) (b : Nat) (f : Bank → Bank) : (State.modBank s b f).spin = s.spin := rfl
@[simp] theorem State.modBank_bridges (s : State) (b : Nat) (f : Bank → Bank) : (State.modBank s b f).bridges = s.bridges := rfl
@[simp] theorem State.modBank_ports (s : State) (b : Nat) (f : Bank → Bank) : (State.modBank s b f).ports = s.ports := rfl
@[simp] theorem State.modBank_loads (s : State) (b : Nat) (f : Bank → Bank) : (State.modBank s b f).loads = s.loads := rfl
@[simp] theorem State.modBank_budget (s : State) (b : Nat) (f : Bank → Bank) : (State.modBank s b f).budget = s.budget := rfl
@[simp] theorem State.modBank_therm (s : State) (b : Nat) (f : Bank → Bank) : (State.modBank s b f).therm = s.therm := rfl
@[simp] theorem State.modBank_dict (s : State) (b : Nat) (f : Bank → Bank) : (State.modBank s b f).dict = s.dict := rfl
@[simp] theorem State.modBank_nets (s : State) (b : Nat) (f : Bank → Bank) : (State.modBank s b f).nets = s.nets := rfl
@[simp] theorem State.modBank_skein (s : State) (b : Nat) (f : Bank → Bank) : (State.modBank s b f).skein = s.skein := rfl
@[simp] theorem State.modBank_sup (s : State) (b : Nat) (f : Bank → Bank) : (State.modBank s b f).sup = s.sup := rfl
@[simp] theorem State.modBank_card (s : State) (b : Nat) (f : Bank → Bank) : (State.modBank s b f).card = s.card := rfl
@[simp] theorem State.modBank_mram (s : State) (b : Nat) (f : Bank → Bank) : (State.modBank s b f).mram = s.mram := rfl
@[simp] theorem State.modBank_undo (s : State) (b : Nat) (f : Bank → Bank) : (State.modBank s b f).undo = s.undo := rfl
@[simp] theorem State.modBank_freeCtr (s : State) (b : Nat) (f : Bank → Bank) : (State.modBank s b f).freeCtr = s.freeCtr := rfl
@[simp] theorem State.modBank_pending (s : State) (b : Nat) (f : Bank → Bank) : (State.modBank s b f).pending = s.pending := rfl
@[simp] theorem State.modBank_banks (s : State) (b : Nat) (f : Bank → Bank) :
    (State.modBank s b f).banks = vmod s.banks b f := rfl

/-! ### State.modDie -/

@[simp] theorem State.modDie_it (s : State) (d : Nat) (f : Die → Die) : (State.modDie s d f).it = s.it := rfl
@[simp] theorem State.modDie_time (s : State) (d : Nat) (f : Die → Die) : (State.modDie s d f).time = s.time := rfl
@[simp] theorem State.modDie_power (s : State) (d : Nat) (f : Die → Die) : (State.modDie s d f).power = s.power := rfl
@[simp] theorem State.modDie_motion (s : State) (d : Nat) (f : Die → Die) : (State.modDie s d f).motion = s.motion := rfl
@[simp] theorem State.modDie_rov (s : State) (d : Nat) (f : Die → Die) : (State.modDie s d f).rov = s.rov := rfl
@[simp] theorem State.modDie_spd (s : State) (d : Nat) (f : Die → Die) : (State.modDie s d f).spd = s.spd := rfl
@[simp] theorem State.modDie_dis (s : State) (d : Nat) (f : Die → Die) : (State.modDie s d f).dis = s.dis := rfl
@[simp] theorem State.modDie_rate (s : State) (d : Nat) (f : Die → Die) : (State.modDie s d f).rate = s.rate := rfl
@[simp] theorem State.modDie_chan (s : State) (d : Nat) (f : Die → Die) : (State.modDie s d f).chan = s.chan := rfl
@[simp] theorem State.modDie_banks (s : State) (d : Nat) (f : Die → Die) : (State.modDie s d f).banks = s.banks := rfl
@[simp] theorem State.modDie_bob (s : State) (d : Nat) (f : Die → Die) : (State.modDie s d f).bob = s.bob := rfl
@[simp] theorem State.modDie_whorl (s : State) (d : Nat) (f : Die → Die) : (State.modDie s d f).whorl = s.whorl := rfl
@[simp] theorem State.modDie_spin (s : State) (d : Nat) (f : Die → Die) : (State.modDie s d f).spin = s.spin := rfl
@[simp] theorem State.modDie_bridges (s : State) (d : Nat) (f : Die → Die) : (State.modDie s d f).bridges = s.bridges := rfl
@[simp] theorem State.modDie_ports (s : State) (d : Nat) (f : Die → Die) : (State.modDie s d f).ports = s.ports := rfl
@[simp] theorem State.modDie_loads (s : State) (d : Nat) (f : Die → Die) : (State.modDie s d f).loads = s.loads := rfl
@[simp] theorem State.modDie_budget (s : State) (d : Nat) (f : Die → Die) : (State.modDie s d f).budget = s.budget := rfl
@[simp] theorem State.modDie_therm (s : State) (d : Nat) (f : Die → Die) : (State.modDie s d f).therm = s.therm := rfl
@[simp] theorem State.modDie_dict (s : State) (d : Nat) (f : Die → Die) : (State.modDie s d f).dict = s.dict := rfl
@[simp] theorem State.modDie_nets (s : State) (d : Nat) (f : Die → Die) : (State.modDie s d f).nets = s.nets := rfl
@[simp] theorem State.modDie_skein (s : State) (d : Nat) (f : Die → Die) : (State.modDie s d f).skein = s.skein := rfl
@[simp] theorem State.modDie_sup (s : State) (d : Nat) (f : Die → Die) : (State.modDie s d f).sup = s.sup := rfl
@[simp] theorem State.modDie_card (s : State) (d : Nat) (f : Die → Die) : (State.modDie s d f).card = s.card := rfl
@[simp] theorem State.modDie_mram (s : State) (d : Nat) (f : Die → Die) : (State.modDie s d f).mram = s.mram := rfl
@[simp] theorem State.modDie_undo (s : State) (d : Nat) (f : Die → Die) : (State.modDie s d f).undo = s.undo := rfl
@[simp] theorem State.modDie_freeCtr (s : State) (d : Nat) (f : Die → Die) : (State.modDie s d f).freeCtr = s.freeCtr := rfl
@[simp] theorem State.modDie_pending (s : State) (d : Nat) (f : Die → Die) : (State.modDie s d f).pending = s.pending := rfl
@[simp] theorem State.modDie_dies (s : State) (d : Nat) (f : Die → Die) :
    (State.modDie s d f).dies = vmod s.dies d f := rfl

/-! ### State.modBob -/

@[simp] theorem State.modBob_it (s : State) (f : Bobbin → Bobbin) : (State.modBob s f).it = s.it := rfl
@[simp] theorem State.modBob_time (s : State) (f : Bobbin → Bobbin) : (State.modBob s f).time = s.time := rfl
@[simp] theorem State.modBob_power (s : State) (f : Bobbin → Bobbin) : (State.modBob s f).power = s.power := rfl
@[simp] theorem State.modBob_motion (s : State) (f : Bobbin → Bobbin) : (State.modBob s f).motion = s.motion := rfl
@[simp] theorem State.modBob_rov (s : State) (f : Bobbin → Bobbin) : (State.modBob s f).rov = s.rov := rfl
@[simp] theorem State.modBob_spd (s : State) (f : Bobbin → Bobbin) : (State.modBob s f).spd = s.spd := rfl
@[simp] theorem State.modBob_dis (s : State) (f : Bobbin → Bobbin) : (State.modBob s f).dis = s.dis := rfl
@[simp] theorem State.modBob_rate (s : State) (f : Bobbin → Bobbin) : (State.modBob s f).rate = s.rate := rfl
@[simp] theorem State.modBob_chan (s : State) (f : Bobbin → Bobbin) : (State.modBob s f).chan = s.chan := rfl
@[simp] theorem State.modBob_banks (s : State) (f : Bobbin → Bobbin) : (State.modBob s f).banks = s.banks := rfl
@[simp] theorem State.modBob_dies (s : State) (f : Bobbin → Bobbin) : (State.modBob s f).dies = s.dies := rfl
@[simp] theorem State.modBob_whorl (s : State) (f : Bobbin → Bobbin) : (State.modBob s f).whorl = s.whorl := rfl
@[simp] theorem State.modBob_spin (s : State) (f : Bobbin → Bobbin) : (State.modBob s f).spin = s.spin := rfl
@[simp] theorem State.modBob_bridges (s : State) (f : Bobbin → Bobbin) : (State.modBob s f).bridges = s.bridges := rfl
@[simp] theorem State.modBob_ports (s : State) (f : Bobbin → Bobbin) : (State.modBob s f).ports = s.ports := rfl
@[simp] theorem State.modBob_loads (s : State) (f : Bobbin → Bobbin) : (State.modBob s f).loads = s.loads := rfl
@[simp] theorem State.modBob_budget (s : State) (f : Bobbin → Bobbin) : (State.modBob s f).budget = s.budget := rfl
@[simp] theorem State.modBob_therm (s : State) (f : Bobbin → Bobbin) : (State.modBob s f).therm = s.therm := rfl
@[simp] theorem State.modBob_dict (s : State) (f : Bobbin → Bobbin) : (State.modBob s f).dict = s.dict := rfl
@[simp] theorem State.modBob_nets (s : State) (f : Bobbin → Bobbin) : (State.modBob s f).nets = s.nets := rfl
@[simp] theorem State.modBob_skein (s : State) (f : Bobbin → Bobbin) : (State.modBob s f).skein = s.skein := rfl
@[simp] theorem State.modBob_sup (s : State) (f : Bobbin → Bobbin) : (State.modBob s f).sup = s.sup := rfl
@[simp] theorem State.modBob_card (s : State) (f : Bobbin → Bobbin) : (State.modBob s f).card = s.card := rfl
@[simp] theorem State.modBob_mram (s : State) (f : Bobbin → Bobbin) : (State.modBob s f).mram = s.mram := rfl
@[simp] theorem State.modBob_undo (s : State) (f : Bobbin → Bobbin) : (State.modBob s f).undo = s.undo := rfl
@[simp] theorem State.modBob_freeCtr (s : State) (f : Bobbin → Bobbin) : (State.modBob s f).freeCtr = s.freeCtr := rfl
@[simp] theorem State.modBob_pending (s : State) (f : Bobbin → Bobbin) : (State.modBob s f).pending = s.pending := rfl
@[simp] theorem State.modBob_bob (s : State) (f : Bobbin → Bobbin) :
    (State.modBob s f).bob = f s.bob := rfl

/-! ### State.modTherm -/

@[simp] theorem State.modTherm_it (s : State) (f : Thermal → Thermal) : (State.modTherm s f).it = s.it := rfl
@[simp] theorem State.modTherm_time (s : State) (f : Thermal → Thermal) : (State.modTherm s f).time = s.time := rfl
@[simp] theorem State.modTherm_power (s : State) (f : Thermal → Thermal) : (State.modTherm s f).power = s.power := rfl
@[simp] theorem State.modTherm_motion (s : State) (f : Thermal → Thermal) : (State.modTherm s f).motion = s.motion := rfl
@[simp] theorem State.modTherm_rov (s : State) (f : Thermal → Thermal) : (State.modTherm s f).rov = s.rov := rfl
@[simp] theorem State.modTherm_spd (s : State) (f : Thermal → Thermal) : (State.modTherm s f).spd = s.spd := rfl
@[simp] theorem State.modTherm_dis (s : State) (f : Thermal → Thermal) : (State.modTherm s f).dis = s.dis := rfl
@[simp] theorem State.modTherm_rate (s : State) (f : Thermal → Thermal) : (State.modTherm s f).rate = s.rate := rfl
@[simp] theorem State.modTherm_chan (s : State) (f : Thermal → Thermal) : (State.modTherm s f).chan = s.chan := rfl
@[simp] theorem State.modTherm_banks (s : State) (f : Thermal → Thermal) : (State.modTherm s f).banks = s.banks := rfl
@[simp] theorem State.modTherm_dies (s : State) (f : Thermal → Thermal) : (State.modTherm s f).dies = s.dies := rfl
@[simp] theorem State.modTherm_bob (s : State) (f : Thermal → Thermal) : (State.modTherm s f).bob = s.bob := rfl
@[simp] theorem State.modTherm_whorl (s : State) (f : Thermal → Thermal) : (State.modTherm s f).whorl = s.whorl := rfl
@[simp] theorem State.modTherm_spin (s : State) (f : Thermal → Thermal) : (State.modTherm s f).spin = s.spin := rfl
@[simp] theorem State.modTherm_bridges (s : State) (f : Thermal → Thermal) : (State.modTherm s f).bridges = s.bridges := rfl
@[simp] theorem State.modTherm_ports (s : State) (f : Thermal → Thermal) : (State.modTherm s f).ports = s.ports := rfl
@[simp] theorem State.modTherm_loads (s : State) (f : Thermal → Thermal) : (State.modTherm s f).loads = s.loads := rfl
@[simp] theorem State.modTherm_budget (s : State) (f : Thermal → Thermal) : (State.modTherm s f).budget = s.budget := rfl
@[simp] theorem State.modTherm_dict (s : State) (f : Thermal → Thermal) : (State.modTherm s f).dict = s.dict := rfl
@[simp] theorem State.modTherm_nets (s : State) (f : Thermal → Thermal) : (State.modTherm s f).nets = s.nets := rfl
@[simp] theorem State.modTherm_skein (s : State) (f : Thermal → Thermal) : (State.modTherm s f).skein = s.skein := rfl
@[simp] theorem State.modTherm_sup (s : State) (f : Thermal → Thermal) : (State.modTherm s f).sup = s.sup := rfl
@[simp] theorem State.modTherm_card (s : State) (f : Thermal → Thermal) : (State.modTherm s f).card = s.card := rfl
@[simp] theorem State.modTherm_mram (s : State) (f : Thermal → Thermal) : (State.modTherm s f).mram = s.mram := rfl
@[simp] theorem State.modTherm_undo (s : State) (f : Thermal → Thermal) : (State.modTherm s f).undo = s.undo := rfl
@[simp] theorem State.modTherm_freeCtr (s : State) (f : Thermal → Thermal) : (State.modTherm s f).freeCtr = s.freeCtr := rfl
@[simp] theorem State.modTherm_pending (s : State) (f : Thermal → Thermal) : (State.modTherm s f).pending = s.pending := rfl
@[simp] theorem State.modTherm_therm (s : State) (f : Thermal → Thermal) :
    (State.modTherm s f).therm = f s.therm := rfl

/-! ### State.modBr -/

@[simp] theorem State.modBr_it (s : State) (h : Nat) (f : Bridge → Bridge) : (State.modBr s h f).it = s.it := rfl
@[simp] theorem State.modBr_time (s : State) (h : Nat) (f : Bridge → Bridge) : (State.modBr s h f).time = s.time := rfl
@[simp] theorem State.modBr_power (s : State) (h : Nat) (f : Bridge → Bridge) : (State.modBr s h f).power = s.power := rfl
@[simp] theorem State.modBr_motion (s : State) (h : Nat) (f : Bridge → Bridge) : (State.modBr s h f).motion = s.motion := rfl
@[simp] theorem State.modBr_rov (s : State) (h : Nat) (f : Bridge → Bridge) : (State.modBr s h f).rov = s.rov := rfl
@[simp] theorem State.modBr_spd (s : State) (h : Nat) (f : Bridge → Bridge) : (State.modBr s h f).spd = s.spd := rfl
@[simp] theorem State.modBr_dis (s : State) (h : Nat) (f : Bridge → Bridge) : (State.modBr s h f).dis = s.dis := rfl
@[simp] theorem State.modBr_rate (s : State) (h : Nat) (f : Bridge → Bridge) : (State.modBr s h f).rate = s.rate := rfl
@[simp] theorem State.modBr_chan (s : State) (h : Nat) (f : Bridge → Bridge) : (State.modBr s h f).chan = s.chan := rfl
@[simp] theorem State.modBr_banks (s : State) (h : Nat) (f : Bridge → Bridge) : (State.modBr s h f).banks = s.banks := rfl
@[simp] theorem State.modBr_dies (s : State) (h : Nat) (f : Bridge → Bridge) : (State.modBr s h f).dies = s.dies := rfl
@[simp] theorem State.modBr_bob (s : State) (h : Nat) (f : Bridge → Bridge) : (State.modBr s h f).bob = s.bob := rfl
@[simp] theorem State.modBr_whorl (s : State) (h : Nat) (f : Bridge → Bridge) : (State.modBr s h f).whorl = s.whorl := rfl
@[simp] theorem State.modBr_spin (s : State) (h : Nat) (f : Bridge → Bridge) : (State.modBr s h f).spin = s.spin := rfl
@[simp] theorem State.modBr_ports (s : State) (h : Nat) (f : Bridge → Bridge) : (State.modBr s h f).ports = s.ports := rfl
@[simp] theorem State.modBr_loads (s : State) (h : Nat) (f : Bridge → Bridge) : (State.modBr s h f).loads = s.loads := rfl
@[simp] theorem State.modBr_budget (s : State) (h : Nat) (f : Bridge → Bridge) : (State.modBr s h f).budget = s.budget := rfl
@[simp] theorem State.modBr_therm (s : State) (h : Nat) (f : Bridge → Bridge) : (State.modBr s h f).therm = s.therm := rfl
@[simp] theorem State.modBr_dict (s : State) (h : Nat) (f : Bridge → Bridge) : (State.modBr s h f).dict = s.dict := rfl
@[simp] theorem State.modBr_nets (s : State) (h : Nat) (f : Bridge → Bridge) : (State.modBr s h f).nets = s.nets := rfl
@[simp] theorem State.modBr_skein (s : State) (h : Nat) (f : Bridge → Bridge) : (State.modBr s h f).skein = s.skein := rfl
@[simp] theorem State.modBr_sup (s : State) (h : Nat) (f : Bridge → Bridge) : (State.modBr s h f).sup = s.sup := rfl
@[simp] theorem State.modBr_card (s : State) (h : Nat) (f : Bridge → Bridge) : (State.modBr s h f).card = s.card := rfl
@[simp] theorem State.modBr_mram (s : State) (h : Nat) (f : Bridge → Bridge) : (State.modBr s h f).mram = s.mram := rfl
@[simp] theorem State.modBr_undo (s : State) (h : Nat) (f : Bridge → Bridge) : (State.modBr s h f).undo = s.undo := rfl
@[simp] theorem State.modBr_freeCtr (s : State) (h : Nat) (f : Bridge → Bridge) : (State.modBr s h f).freeCtr = s.freeCtr := rfl
@[simp] theorem State.modBr_pending (s : State) (h : Nat) (f : Bridge → Bridge) : (State.modBr s h f).pending = s.pending := rfl
@[simp] theorem State.modBr_bridges (s : State) (h : Nat) (f : Bridge → Bridge) :
    (State.modBr s h f).bridges = vmod s.bridges h f := rfl

/-! ### State.modPt -/

@[simp] theorem State.modPt_it (s : State) (g : Nat) (f : Port → Port) : (State.modPt s g f).it = s.it := rfl
@[simp] theorem State.modPt_time (s : State) (g : Nat) (f : Port → Port) : (State.modPt s g f).time = s.time := rfl
@[simp] theorem State.modPt_power (s : State) (g : Nat) (f : Port → Port) : (State.modPt s g f).power = s.power := rfl
@[simp] theorem State.modPt_motion (s : State) (g : Nat) (f : Port → Port) : (State.modPt s g f).motion = s.motion := rfl
@[simp] theorem State.modPt_rov (s : State) (g : Nat) (f : Port → Port) : (State.modPt s g f).rov = s.rov := rfl
@[simp] theorem State.modPt_spd (s : State) (g : Nat) (f : Port → Port) : (State.modPt s g f).spd = s.spd := rfl
@[simp] theorem State.modPt_dis (s : State) (g : Nat) (f : Port → Port) : (State.modPt s g f).dis = s.dis := rfl
@[simp] theorem State.modPt_rate (s : State) (g : Nat) (f : Port → Port) : (State.modPt s g f).rate = s.rate := rfl
@[simp] theorem State.modPt_chan (s : State) (g : Nat) (f : Port → Port) : (State.modPt s g f).chan = s.chan := rfl
@[simp] theorem State.modPt_banks (s : State) (g : Nat) (f : Port → Port) : (State.modPt s g f).banks = s.banks := rfl
@[simp] theorem State.modPt_dies (s : State) (g : Nat) (f : Port → Port) : (State.modPt s g f).dies = s.dies := rfl
@[simp] theorem State.modPt_bob (s : State) (g : Nat) (f : Port → Port) : (State.modPt s g f).bob = s.bob := rfl
@[simp] theorem State.modPt_whorl (s : State) (g : Nat) (f : Port → Port) : (State.modPt s g f).whorl = s.whorl := rfl
@[simp] theorem State.modPt_spin (s : State) (g : Nat) (f : Port → Port) : (State.modPt s g f).spin = s.spin := rfl
@[simp] theorem State.modPt_bridges (s : State) (g : Nat) (f : Port → Port) : (State.modPt s g f).bridges = s.bridges := rfl
@[simp] theorem State.modPt_loads (s : State) (g : Nat) (f : Port → Port) : (State.modPt s g f).loads = s.loads := rfl
@[simp] theorem State.modPt_budget (s : State) (g : Nat) (f : Port → Port) : (State.modPt s g f).budget = s.budget := rfl
@[simp] theorem State.modPt_therm (s : State) (g : Nat) (f : Port → Port) : (State.modPt s g f).therm = s.therm := rfl
@[simp] theorem State.modPt_dict (s : State) (g : Nat) (f : Port → Port) : (State.modPt s g f).dict = s.dict := rfl
@[simp] theorem State.modPt_nets (s : State) (g : Nat) (f : Port → Port) : (State.modPt s g f).nets = s.nets := rfl
@[simp] theorem State.modPt_skein (s : State) (g : Nat) (f : Port → Port) : (State.modPt s g f).skein = s.skein := rfl
@[simp] theorem State.modPt_sup (s : State) (g : Nat) (f : Port → Port) : (State.modPt s g f).sup = s.sup := rfl
@[simp] theorem State.modPt_card (s : State) (g : Nat) (f : Port → Port) : (State.modPt s g f).card = s.card := rfl
@[simp] theorem State.modPt_mram (s : State) (g : Nat) (f : Port → Port) : (State.modPt s g f).mram = s.mram := rfl
@[simp] theorem State.modPt_undo (s : State) (g : Nat) (f : Port → Port) : (State.modPt s g f).undo = s.undo := rfl
@[simp] theorem State.modPt_freeCtr (s : State) (g : Nat) (f : Port → Port) : (State.modPt s g f).freeCtr = s.freeCtr := rfl
@[simp] theorem State.modPt_pending (s : State) (g : Nat) (f : Port → Port) : (State.modPt s g f).pending = s.pending := rfl
@[simp] theorem State.modPt_ports (s : State) (g : Nat) (f : Port → Port) :
    (State.modPt s g f).ports = vmod s.ports g f := rfl

/-! ### State.modSp -/

@[simp] theorem State.modSp_it (s : State) (k : Nat) (f : Spinner → Spinner) : (State.modSp s k f).it = s.it := rfl
@[simp] theorem State.modSp_time (s : State) (k : Nat) (f : Spinner → Spinner) : (State.modSp s k f).time = s.time := rfl
@[simp] theorem State.modSp_power (s : State) (k : Nat) (f : Spinner → Spinner) : (State.modSp s k f).power = s.power := rfl
@[simp] theorem State.modSp_motion (s : State) (k : Nat) (f : Spinner → Spinner) : (State.modSp s k f).motion = s.motion := rfl
@[simp] theorem State.modSp_rov (s : State) (k : Nat) (f : Spinner → Spinner) : (State.modSp s k f).rov = s.rov := rfl
@[simp] theorem State.modSp_spd (s : State) (k : Nat) (f : Spinner → Spinner) : (State.modSp s k f).spd = s.spd := rfl
@[simp] theorem State.modSp_dis (s : State) (k : Nat) (f : Spinner → Spinner) : (State.modSp s k f).dis = s.dis := rfl
@[simp] theorem State.modSp_rate (s : State) (k : Nat) (f : Spinner → Spinner) : (State.modSp s k f).rate = s.rate := rfl
@[simp] theorem State.modSp_chan (s : State) (k : Nat) (f : Spinner → Spinner) : (State.modSp s k f).chan = s.chan := rfl
@[simp] theorem State.modSp_banks (s : State) (k : Nat) (f : Spinner → Spinner) : (State.modSp s k f).banks = s.banks := rfl
@[simp] theorem State.modSp_dies (s : State) (k : Nat) (f : Spinner → Spinner) : (State.modSp s k f).dies = s.dies := rfl
@[simp] theorem State.modSp_bob (s : State) (k : Nat) (f : Spinner → Spinner) : (State.modSp s k f).bob = s.bob := rfl
@[simp] theorem State.modSp_whorl (s : State) (k : Nat) (f : Spinner → Spinner) : (State.modSp s k f).whorl = s.whorl := rfl
@[simp] theorem State.modSp_bridges (s : State) (k : Nat) (f : Spinner → Spinner) : (State.modSp s k f).bridges = s.bridges := rfl
@[simp] theorem State.modSp_ports (s : State) (k : Nat) (f : Spinner → Spinner) : (State.modSp s k f).ports = s.ports := rfl
@[simp] theorem State.modSp_loads (s : State) (k : Nat) (f : Spinner → Spinner) : (State.modSp s k f).loads = s.loads := rfl
@[simp] theorem State.modSp_budget (s : State) (k : Nat) (f : Spinner → Spinner) : (State.modSp s k f).budget = s.budget := rfl
@[simp] theorem State.modSp_therm (s : State) (k : Nat) (f : Spinner → Spinner) : (State.modSp s k f).therm = s.therm := rfl
@[simp] theorem State.modSp_dict (s : State) (k : Nat) (f : Spinner → Spinner) : (State.modSp s k f).dict = s.dict := rfl
@[simp] theorem State.modSp_nets (s : State) (k : Nat) (f : Spinner → Spinner) : (State.modSp s k f).nets = s.nets := rfl
@[simp] theorem State.modSp_skein (s : State) (k : Nat) (f : Spinner → Spinner) : (State.modSp s k f).skein = s.skein := rfl
@[simp] theorem State.modSp_sup (s : State) (k : Nat) (f : Spinner → Spinner) : (State.modSp s k f).sup = s.sup := rfl
@[simp] theorem State.modSp_card (s : State) (k : Nat) (f : Spinner → Spinner) : (State.modSp s k f).card = s.card := rfl
@[simp] theorem State.modSp_mram (s : State) (k : Nat) (f : Spinner → Spinner) : (State.modSp s k f).mram = s.mram := rfl
@[simp] theorem State.modSp_undo (s : State) (k : Nat) (f : Spinner → Spinner) : (State.modSp s k f).undo = s.undo := rfl
@[simp] theorem State.modSp_freeCtr (s : State) (k : Nat) (f : Spinner → Spinner) : (State.modSp s k f).freeCtr = s.freeCtr := rfl
@[simp] theorem State.modSp_pending (s : State) (k : Nat) (f : Spinner → Spinner) : (State.modSp s k f).pending = s.pending := rfl
@[simp] theorem State.modSp_spin (s : State) (k : Nat) (f : Spinner → Spinner) :
    (State.modSp s k f).spin = vmod s.spin k f := rfl

/-! ### State.modLd -/

@[simp] theorem State.modLd_it (s : State) (j : Nat) (f : Load → Load) : (State.modLd s j f).it = s.it := rfl
@[simp] theorem State.modLd_time (s : State) (j : Nat) (f : Load → Load) : (State.modLd s j f).time = s.time := rfl
@[simp] theorem State.modLd_power (s : State) (j : Nat) (f : Load → Load) : (State.modLd s j f).power = s.power := rfl
@[simp] theorem State.modLd_motion (s : State) (j : Nat) (f : Load → Load) : (State.modLd s j f).motion = s.motion := rfl
@[simp] theorem State.modLd_rov (s : State) (j : Nat) (f : Load → Load) : (State.modLd s j f).rov = s.rov := rfl
@[simp] theorem State.modLd_spd (s : State) (j : Nat) (f : Load → Load) : (State.modLd s j f).spd = s.spd := rfl
@[simp] theorem State.modLd_dis (s : State) (j : Nat) (f : Load → Load) : (State.modLd s j f).dis = s.dis := rfl
@[simp] theorem State.modLd_rate (s : State) (j : Nat) (f : Load → Load) : (State.modLd s j f).rate = s.rate := rfl
@[simp] theorem State.modLd_chan (s : State) (j : Nat) (f : Load → Load) : (State.modLd s j f).chan = s.chan := rfl
@[simp] theorem State.modLd_banks (s : State) (j : Nat) (f : Load → Load) : (State.modLd s j f).banks = s.banks := rfl
@[simp] theorem State.modLd_dies (s : State) (j : Nat) (f : Load → Load) : (State.modLd s j f).dies = s.dies := rfl
@[simp] theorem State.modLd_bob (s : State) (j : Nat) (f : Load → Load) : (State.modLd s j f).bob = s.bob := rfl
@[simp] theorem State.modLd_whorl (s : State) (j : Nat) (f : Load → Load) : (State.modLd s j f).whorl = s.whorl := rfl
@[simp] theorem State.modLd_spin (s : State) (j : Nat) (f : Load → Load) : (State.modLd s j f).spin = s.spin := rfl
@[simp] theorem State.modLd_bridges (s : State) (j : Nat) (f : Load → Load) : (State.modLd s j f).bridges = s.bridges := rfl
@[simp] theorem State.modLd_ports (s : State) (j : Nat) (f : Load → Load) : (State.modLd s j f).ports = s.ports := rfl
@[simp] theorem State.modLd_budget (s : State) (j : Nat) (f : Load → Load) : (State.modLd s j f).budget = s.budget := rfl
@[simp] theorem State.modLd_therm (s : State) (j : Nat) (f : Load → Load) : (State.modLd s j f).therm = s.therm := rfl
@[simp] theorem State.modLd_dict (s : State) (j : Nat) (f : Load → Load) : (State.modLd s j f).dict = s.dict := rfl
@[simp] theorem State.modLd_nets (s : State) (j : Nat) (f : Load → Load) : (State.modLd s j f).nets = s.nets := rfl
@[simp] theorem State.modLd_skein (s : State) (j : Nat) (f : Load → Load) : (State.modLd s j f).skein = s.skein := rfl
@[simp] theorem State.modLd_sup (s : State) (j : Nat) (f : Load → Load) : (State.modLd s j f).sup = s.sup := rfl
@[simp] theorem State.modLd_card (s : State) (j : Nat) (f : Load → Load) : (State.modLd s j f).card = s.card := rfl
@[simp] theorem State.modLd_mram (s : State) (j : Nat) (f : Load → Load) : (State.modLd s j f).mram = s.mram := rfl
@[simp] theorem State.modLd_undo (s : State) (j : Nat) (f : Load → Load) : (State.modLd s j f).undo = s.undo := rfl
@[simp] theorem State.modLd_freeCtr (s : State) (j : Nat) (f : Load → Load) : (State.modLd s j f).freeCtr = s.freeCtr := rfl
@[simp] theorem State.modLd_pending (s : State) (j : Nat) (f : Load → Load) : (State.modLd s j f).pending = s.pending := rfl
@[simp] theorem State.modLd_loads (s : State) (j : Nat) (f : Load → Load) :
    (State.modLd s j f).loads = { s.loads with sw := vmod s.loads.sw j f } := rfl

/-! ### State.modLp -/

@[simp] theorem State.modLp_it (s : State) (w : Nat) (f : Loop → Loop) : (State.modLp s w f).it = s.it := rfl
@[simp] theorem State.modLp_time (s : State) (w : Nat) (f : Loop → Loop) : (State.modLp s w f).time = s.time := rfl
@[simp] theorem State.modLp_power (s : State) (w : Nat) (f : Loop → Loop) : (State.modLp s w f).power = s.power := rfl
@[simp] theorem State.modLp_motion (s : State) (w : Nat) (f : Loop → Loop) : (State.modLp s w f).motion = s.motion := rfl
@[simp] theorem State.modLp_rov (s : State) (w : Nat) (f : Loop → Loop) : (State.modLp s w f).rov = s.rov := rfl
@[simp] theorem State.modLp_spd (s : State) (w : Nat) (f : Loop → Loop) : (State.modLp s w f).spd = s.spd := rfl
@[simp] theorem State.modLp_dis (s : State) (w : Nat) (f : Loop → Loop) : (State.modLp s w f).dis = s.dis := rfl
@[simp] theorem State.modLp_rate (s : State) (w : Nat) (f : Loop → Loop) : (State.modLp s w f).rate = s.rate := rfl
@[simp] theorem State.modLp_chan (s : State) (w : Nat) (f : Loop → Loop) : (State.modLp s w f).chan = s.chan := rfl
@[simp] theorem State.modLp_banks (s : State) (w : Nat) (f : Loop → Loop) : (State.modLp s w f).banks = s.banks := rfl
@[simp] theorem State.modLp_dies (s : State) (w : Nat) (f : Loop → Loop) : (State.modLp s w f).dies = s.dies := rfl
@[simp] theorem State.modLp_bob (s : State) (w : Nat) (f : Loop → Loop) : (State.modLp s w f).bob = s.bob := rfl
@[simp] theorem State.modLp_spin (s : State) (w : Nat) (f : Loop → Loop) : (State.modLp s w f).spin = s.spin := rfl
@[simp] theorem State.modLp_bridges (s : State) (w : Nat) (f : Loop → Loop) : (State.modLp s w f).bridges = s.bridges := rfl
@[simp] theorem State.modLp_ports (s : State) (w : Nat) (f : Loop → Loop) : (State.modLp s w f).ports = s.ports := rfl
@[simp] theorem State.modLp_loads (s : State) (w : Nat) (f : Loop → Loop) : (State.modLp s w f).loads = s.loads := rfl
@[simp] theorem State.modLp_budget (s : State) (w : Nat) (f : Loop → Loop) : (State.modLp s w f).budget = s.budget := rfl
@[simp] theorem State.modLp_therm (s : State) (w : Nat) (f : Loop → Loop) : (State.modLp s w f).therm = s.therm := rfl
@[simp] theorem State.modLp_dict (s : State) (w : Nat) (f : Loop → Loop) : (State.modLp s w f).dict = s.dict := rfl
@[simp] theorem State.modLp_nets (s : State) (w : Nat) (f : Loop → Loop) : (State.modLp s w f).nets = s.nets := rfl
@[simp] theorem State.modLp_skein (s : State) (w : Nat) (f : Loop → Loop) : (State.modLp s w f).skein = s.skein := rfl
@[simp] theorem State.modLp_sup (s : State) (w : Nat) (f : Loop → Loop) : (State.modLp s w f).sup = s.sup := rfl
@[simp] theorem State.modLp_card (s : State) (w : Nat) (f : Loop → Loop) : (State.modLp s w f).card = s.card := rfl
@[simp] theorem State.modLp_mram (s : State) (w : Nat) (f : Loop → Loop) : (State.modLp s w f).mram = s.mram := rfl
@[simp] theorem State.modLp_undo (s : State) (w : Nat) (f : Loop → Loop) : (State.modLp s w f).undo = s.undo := rfl
@[simp] theorem State.modLp_freeCtr (s : State) (w : Nat) (f : Loop → Loop) : (State.modLp s w f).freeCtr = s.freeCtr := rfl
@[simp] theorem State.modLp_pending (s : State) (w : Nat) (f : Loop → Loop) : (State.modLp s w f).pending = s.pending := rfl
@[simp] theorem State.modLp_whorl (s : State) (w : Nat) (f : Loop → Loop) :
    (State.modLp s w f).whorl = { s.whorl with loops := vmod s.whorl.loops w f } := rfl

/-! ### State.modPulse -/

@[simp] theorem State.modPulse_it (s : State) (i : Nat) (f : Pulse → Pulse) : (State.modPulse s i f).it = s.it := rfl
@[simp] theorem State.modPulse_time (s : State) (i : Nat) (f : Pulse → Pulse) : (State.modPulse s i f).time = s.time := rfl
@[simp] theorem State.modPulse_power (s : State) (i : Nat) (f : Pulse → Pulse) : (State.modPulse s i f).power = s.power := rfl
@[simp] theorem State.modPulse_rov (s : State) (i : Nat) (f : Pulse → Pulse) : (State.modPulse s i f).rov = s.rov := rfl
@[simp] theorem State.modPulse_spd (s : State) (i : Nat) (f : Pulse → Pulse) : (State.modPulse s i f).spd = s.spd := rfl
@[simp] theorem State.modPulse_dis (s : State) (i : Nat) (f : Pulse → Pulse) : (State.modPulse s i f).dis = s.dis := rfl
@[simp] theorem State.modPulse_rate (s : State) (i : Nat) (f : Pulse → Pulse) : (State.modPulse s i f).rate = s.rate := rfl
@[simp] theorem State.modPulse_chan (s : State) (i : Nat) (f : Pulse → Pulse) : (State.modPulse s i f).chan = s.chan := rfl
@[simp] theorem State.modPulse_banks (s : State) (i : Nat) (f : Pulse → Pulse) : (State.modPulse s i f).banks = s.banks := rfl
@[simp] theorem State.modPulse_dies (s : State) (i : Nat) (f : Pulse → Pulse) : (State.modPulse s i f).dies = s.dies := rfl
@[simp] theorem State.modPulse_bob (s : State) (i : Nat) (f : Pulse → Pulse) : (State.modPulse s i f).bob = s.bob := rfl
@[simp] theorem State.modPulse_whorl (s : State) (i : Nat) (f : Pulse → Pulse) : (State.modPulse s i f).whorl = s.whorl := rfl
@[simp] theorem State.modPulse_spin (s : State) (i : Nat) (f : Pulse → Pulse) : (State.modPulse s i f).spin = s.spin := rfl
@[simp] theorem State.modPulse_bridges (s : State) (i : Nat) (f : Pulse → Pulse) : (State.modPulse s i f).bridges = s.bridges := rfl
@[simp] theorem State.modPulse_ports (s : State) (i : Nat) (f : Pulse → Pulse) : (State.modPulse s i f).ports = s.ports := rfl
@[simp] theorem State.modPulse_loads (s : State) (i : Nat) (f : Pulse → Pulse) : (State.modPulse s i f).loads = s.loads := rfl
@[simp] theorem State.modPulse_budget (s : State) (i : Nat) (f : Pulse → Pulse) : (State.modPulse s i f).budget = s.budget := rfl
@[simp] theorem State.modPulse_therm (s : State) (i : Nat) (f : Pulse → Pulse) : (State.modPulse s i f).therm = s.therm := rfl
@[simp] theorem State.modPulse_dict (s : State) (i : Nat) (f : Pulse → Pulse) : (State.modPulse s i f).dict = s.dict := rfl
@[simp] theorem State.modPulse_nets (s : State) (i : Nat) (f : Pulse → Pulse) : (State.modPulse s i f).nets = s.nets := rfl
@[simp] theorem State.modPulse_skein (s : State) (i : Nat) (f : Pulse → Pulse) : (State.modPulse s i f).skein = s.skein := rfl
@[simp] theorem State.modPulse_sup (s : State) (i : Nat) (f : Pulse → Pulse) : (State.modPulse s i f).sup = s.sup := rfl
@[simp] theorem State.modPulse_card (s : State) (i : Nat) (f : Pulse → Pulse) : (State.modPulse s i f).card = s.card := rfl
@[simp] theorem State.modPulse_mram (s : State) (i : Nat) (f : Pulse → Pulse) : (State.modPulse s i f).mram = s.mram := rfl
@[simp] theorem State.modPulse_undo (s : State) (i : Nat) (f : Pulse → Pulse) : (State.modPulse s i f).undo = s.undo := rfl
@[simp] theorem State.modPulse_freeCtr (s : State) (i : Nat) (f : Pulse → Pulse) : (State.modPulse s i f).freeCtr = s.freeCtr := rfl
@[simp] theorem State.modPulse_pending (s : State) (i : Nat) (f : Pulse → Pulse) : (State.modPulse s i f).pending = s.pending := rfl
@[simp] theorem State.modPulse_motion (s : State) (i : Nat) (f : Pulse → Pulse) :
    (State.modPulse s i f).motion = { s.motion with pulses := vmod s.motion.pulses i f } := rfl

/-! ### State.modInert -/

@[simp] theorem State.modInert_it (s : State) (f : Inertial → Inertial) : (State.modInert s f).it = s.it := rfl
@[simp] theorem State.modInert_time (s : State) (f : Inertial → Inertial) : (State.modInert s f).time = s.time := rfl
@[simp] theorem State.modInert_power (s : State) (f : Inertial → Inertial) : (State.modInert s f).power = s.power := rfl
@[simp] theorem State.modInert_rov (s : State) (f : Inertial → Inertial) : (State.modInert s f).rov = s.rov := rfl
@[simp] theorem State.modInert_spd (s : State) (f : Inertial → Inertial) : (State.modInert s f).spd = s.spd := rfl
@[simp] theorem State.modInert_dis (s : State) (f : Inertial → Inertial) : (State.modInert s f).dis = s.dis := rfl
@[simp] theorem State.modInert_rate (s : State) (f : Inertial → Inertial) : (State.modInert s f).rate = s.rate := rfl
@[simp] theorem State.modInert_chan (s : State) (f : Inertial → Inertial) : (State.modInert s f).chan = s.chan := rfl
@[simp] theorem State.modInert_banks (s : State) (f : Inertial → Inertial) : (State.modInert s f).banks = s.banks := rfl
@[simp] theorem State.modInert_dies (s : State) (f : Inertial → Inertial) : (State.modInert s f).dies = s.dies := rfl
@[simp] theorem State.modInert_bob (s : State) (f : Inertial → Inertial) : (State.modInert s f).bob = s.bob := rfl
@[simp] theorem State.modInert_whorl (s : State) (f : Inertial → Inertial) : (State.modInert s f).whorl = s.whorl := rfl
@[simp] theorem State.modInert_spin (s : State) (f : Inertial → Inertial) : (State.modInert s f).spin = s.spin := rfl
@[simp] theorem State.modInert_bridges (s : State) (f : Inertial → Inertial) : (State.modInert s f).bridges = s.bridges := rfl
@[simp] theorem State.modInert_ports (s : State) (f : Inertial → Inertial) : (State.modInert s f).ports = s.ports := rfl
@[simp] theorem State.modInert_loads (s : State) (f : Inertial → Inertial) : (State.modInert s f).loads = s.loads := rfl
@[simp] theorem State.modInert_budget (s : State) (f : Inertial → Inertial) : (State.modInert s f).budget = s.budget := rfl
@[simp] theorem State.modInert_therm (s : State) (f : Inertial → Inertial) : (State.modInert s f).therm = s.therm := rfl
@[simp] theorem State.modInert_dict (s : State) (f : Inertial → Inertial) : (State.modInert s f).dict = s.dict := rfl
@[simp] theorem State.modInert_nets (s : State) (f : Inertial → Inertial) : (State.modInert s f).nets = s.nets := rfl
@[simp] theorem State.modInert_skein (s : State) (f : Inertial → Inertial) : (State.modInert s f).skein = s.skein := rfl
@[simp] theorem State.modInert_sup (s : State) (f : Inertial → Inertial) : (State.modInert s f).sup = s.sup := rfl
@[simp] theorem State.modInert_card (s : State) (f : Inertial → Inertial) : (State.modInert s f).card = s.card := rfl
@[simp] theorem State.modInert_mram (s : State) (f : Inertial → Inertial) : (State.modInert s f).mram = s.mram := rfl
@[simp] theorem State.modInert_undo (s : State) (f : Inertial → Inertial) : (State.modInert s f).undo = s.undo := rfl
@[simp] theorem State.modInert_freeCtr (s : State) (f : Inertial → Inertial) : (State.modInert s f).freeCtr = s.freeCtr := rfl
@[simp] theorem State.modInert_pending (s : State) (f : Inertial → Inertial) : (State.modInert s f).pending = s.pending := rfl
@[simp] theorem State.modInert_motion (s : State) (f : Inertial → Inertial) :
    (State.modInert s f).motion = { s.motion with inert := f s.motion.inert } := rfl

/-! ### State.modSpd -/

@[simp] theorem State.modSpd_it (s : State) (f : Spindle → Spindle) : (State.modSpd s f).it = s.it := rfl
@[simp] theorem State.modSpd_time (s : State) (f : Spindle → Spindle) : (State.modSpd s f).time = s.time := rfl
@[simp] theorem State.modSpd_power (s : State) (f : Spindle → Spindle) : (State.modSpd s f).power = s.power := rfl
@[simp] theorem State.modSpd_motion (s : State) (f : Spindle → Spindle) : (State.modSpd s f).motion = s.motion := rfl
@[simp] theorem State.modSpd_rov (s : State) (f : Spindle → Spindle) : (State.modSpd s f).rov = s.rov := rfl
@[simp] theorem State.modSpd_dis (s : State) (f : Spindle → Spindle) : (State.modSpd s f).dis = s.dis := rfl
@[simp] theorem State.modSpd_rate (s : State) (f : Spindle → Spindle) : (State.modSpd s f).rate = s.rate := rfl
@[simp] theorem State.modSpd_chan (s : State) (f : Spindle → Spindle) : (State.modSpd s f).chan = s.chan := rfl
@[simp] theorem State.modSpd_banks (s : State) (f : Spindle → Spindle) : (State.modSpd s f).banks = s.banks := rfl
@[simp] theorem State.modSpd_dies (s : State) (f : Spindle → Spindle) : (State.modSpd s f).dies = s.dies := rfl
@[simp] theorem State.modSpd_bob (s : State) (f : Spindle → Spindle) : (State.modSpd s f).bob = s.bob := rfl
@[simp] theorem State.modSpd_whorl (s : State) (f : Spindle → Spindle) : (State.modSpd s f).whorl = s.whorl := rfl
@[simp] theorem State.modSpd_spin (s : State) (f : Spindle → Spindle) : (State.modSpd s f).spin = s.spin := rfl
@[simp] theorem State.modSpd_bridges (s : State) (f : Spindle → Spindle) : (State.modSpd s f).bridges = s.bridges := rfl
@[simp] theorem State.modSpd_ports (s : State) (f : Spindle → Spindle) : (State.modSpd s f).ports = s.ports := rfl
@[simp] theorem State.modSpd_loads (s : State) (f : Spindle → Spindle) : (State.modSpd s f).loads = s.loads := rfl
@[simp] theorem State.modSpd_budget (s : State) (f : Spindle → Spindle) : (State.modSpd s f).budget = s.budget := rfl
@[simp] theorem State.modSpd_therm (s : State) (f : Spindle → Spindle) : (State.modSpd s f).therm = s.therm := rfl
@[simp] theorem State.modSpd_dict (s : State) (f : Spindle → Spindle) : (State.modSpd s f).dict = s.dict := rfl
@[simp] theorem State.modSpd_nets (s : State) (f : Spindle → Spindle) : (State.modSpd s f).nets = s.nets := rfl
@[simp] theorem State.modSpd_skein (s : State) (f : Spindle → Spindle) : (State.modSpd s f).skein = s.skein := rfl
@[simp] theorem State.modSpd_sup (s : State) (f : Spindle → Spindle) : (State.modSpd s f).sup = s.sup := rfl
@[simp] theorem State.modSpd_card (s : State) (f : Spindle → Spindle) : (State.modSpd s f).card = s.card := rfl
@[simp] theorem State.modSpd_mram (s : State) (f : Spindle → Spindle) : (State.modSpd s f).mram = s.mram := rfl
@[simp] theorem State.modSpd_undo (s : State) (f : Spindle → Spindle) : (State.modSpd s f).undo = s.undo := rfl
@[simp] theorem State.modSpd_freeCtr (s : State) (f : Spindle → Spindle) : (State.modSpd s f).freeCtr = s.freeCtr := rfl
@[simp] theorem State.modSpd_pending (s : State) (f : Spindle → Spindle) : (State.modSpd s f).pending = s.pending := rfl
@[simp] theorem State.modSpd_spd (s : State) (f : Spindle → Spindle) :
    (State.modSpd s f).spd = f s.spd := rfl

/-! ### State.modRate -/

@[simp] theorem State.modRate_it (s : State) (f : RateDose → RateDose) : (State.modRate s f).it = s.it := rfl
@[simp] theorem State.modRate_time (s : State) (f : RateDose → RateDose) : (State.modRate s f).time = s.time := rfl
@[simp] theorem State.modRate_power (s : State) (f : RateDose → RateDose) : (State.modRate s f).power = s.power := rfl
@[simp] theorem State.modRate_motion (s : State) (f : RateDose → RateDose) : (State.modRate s f).motion = s.motion := rfl
@[simp] theorem State.modRate_rov (s : State) (f : RateDose → RateDose) : (State.modRate s f).rov = s.rov := rfl
@[simp] theorem State.modRate_spd (s : State) (f : RateDose → RateDose) : (State.modRate s f).spd = s.spd := rfl
@[simp] theorem State.modRate_dis (s : State) (f : RateDose → RateDose) : (State.modRate s f).dis = s.dis := rfl
@[simp] theorem State.modRate_chan (s : State) (f : RateDose → RateDose) : (State.modRate s f).chan = s.chan := rfl
@[simp] theorem State.modRate_banks (s : State) (f : RateDose → RateDose) : (State.modRate s f).banks = s.banks := rfl
@[simp] theorem State.modRate_dies (s : State) (f : RateDose → RateDose) : (State.modRate s f).dies = s.dies := rfl
@[simp] theorem State.modRate_bob (s : State) (f : RateDose → RateDose) : (State.modRate s f).bob = s.bob := rfl
@[simp] theorem State.modRate_whorl (s : State) (f : RateDose → RateDose) : (State.modRate s f).whorl = s.whorl := rfl
@[simp] theorem State.modRate_spin (s : State) (f : RateDose → RateDose) : (State.modRate s f).spin = s.spin := rfl
@[simp] theorem State.modRate_bridges (s : State) (f : RateDose → RateDose) : (State.modRate s f).bridges = s.bridges := rfl
@[simp] theorem State.modRate_ports (s : State) (f : RateDose → RateDose) : (State.modRate s f).ports = s.ports := rfl
@[simp] theorem State.modRate_loads (s : State) (f : RateDose → RateDose) : (State.modRate s f).loads = s.loads := rfl
@[simp] theorem State.modRate_budget (s : State) (f : RateDose → RateDose) : (State.modRate s f).budget = s.budget := rfl
@[simp] theorem State.modRate_therm (s : State) (f : RateDose → RateDose) : (State.modRate s f).therm = s.therm := rfl
@[simp] theorem State.modRate_dict (s : State) (f : RateDose → RateDose) : (State.modRate s f).dict = s.dict := rfl
@[simp] theorem State.modRate_nets (s : State) (f : RateDose → RateDose) : (State.modRate s f).nets = s.nets := rfl
@[simp] theorem State.modRate_skein (s : State) (f : RateDose → RateDose) : (State.modRate s f).skein = s.skein := rfl
@[simp] theorem State.modRate_sup (s : State) (f : RateDose → RateDose) : (State.modRate s f).sup = s.sup := rfl
@[simp] theorem State.modRate_card (s : State) (f : RateDose → RateDose) : (State.modRate s f).card = s.card := rfl
@[simp] theorem State.modRate_mram (s : State) (f : RateDose → RateDose) : (State.modRate s f).mram = s.mram := rfl
@[simp] theorem State.modRate_undo (s : State) (f : RateDose → RateDose) : (State.modRate s f).undo = s.undo := rfl
@[simp] theorem State.modRate_freeCtr (s : State) (f : RateDose → RateDose) : (State.modRate s f).freeCtr = s.freeCtr := rfl
@[simp] theorem State.modRate_pending (s : State) (f : RateDose → RateDose) : (State.modRate s f).pending = s.pending := rfl
@[simp] theorem State.modRate_rate (s : State) (f : RateDose → RateDose) :
    (State.modRate s f).rate = f s.rate := rfl

/-! ### State.modDis -/

@[simp] theorem State.modDis_it (s : State) (f : Distaff → Distaff) : (State.modDis s f).it = s.it := rfl
@[simp] theorem State.modDis_time (s : State) (f : Distaff → Distaff) : (State.modDis s f).time = s.time := rfl
@[simp] theorem State.modDis_power (s : State) (f : Distaff → Distaff) : (State.modDis s f).power = s.power := rfl
@[simp] theorem State.modDis_motion (s : State) (f : Distaff → Distaff) : (State.modDis s f).motion = s.motion := rfl
@[simp] theorem State.modDis_rov (s : State) (f : Distaff → Distaff) : (State.modDis s f).rov = s.rov := rfl
@[simp] theorem State.modDis_spd (s : State) (f : Distaff → Distaff) : (State.modDis s f).spd = s.spd := rfl
@[simp] theorem State.modDis_rate (s : State) (f : Distaff → Distaff) : (State.modDis s f).rate = s.rate := rfl
@[simp] theorem State.modDis_chan (s : State) (f : Distaff → Distaff) : (State.modDis s f).chan = s.chan := rfl
@[simp] theorem State.modDis_banks (s : State) (f : Distaff → Distaff) : (State.modDis s f).banks = s.banks := rfl
@[simp] theorem State.modDis_dies (s : State) (f : Distaff → Distaff) : (State.modDis s f).dies = s.dies := rfl
@[simp] theorem State.modDis_bob (s : State) (f : Distaff → Distaff) : (State.modDis s f).bob = s.bob := rfl
@[simp] theorem State.modDis_whorl (s : State) (f : Distaff → Distaff) : (State.modDis s f).whorl = s.whorl := rfl
@[simp] theorem State.modDis_spin (s : State) (f : Distaff → Distaff) : (State.modDis s f).spin = s.spin := rfl
@[simp] theorem State.modDis_bridges (s : State) (f : Distaff → Distaff) : (State.modDis s f).bridges = s.bridges := rfl
@[simp] theorem State.modDis_ports (s : State) (f : Distaff → Distaff) : (State.modDis s f).ports = s.ports := rfl
@[simp] theorem State.modDis_loads (s : State) (f : Distaff → Distaff) : (State.modDis s f).loads = s.loads := rfl
@[simp] theorem State.modDis_budget (s : State) (f : Distaff → Distaff) : (State.modDis s f).budget = s.budget := rfl
@[simp] theorem State.modDis_therm (s : State) (f : Distaff → Distaff) : (State.modDis s f).therm = s.therm := rfl
@[simp] theorem State.modDis_dict (s : State) (f : Distaff → Distaff) : (State.modDis s f).dict = s.dict := rfl
@[simp] theorem State.modDis_nets (s : State) (f : Distaff → Distaff) : (State.modDis s f).nets = s.nets := rfl
@[simp] theorem State.modDis_skein (s : State) (f : Distaff → Distaff) : (State.modDis s f).skein = s.skein := rfl
@[simp] theorem State.modDis_sup (s : State) (f : Distaff → Distaff) : (State.modDis s f).sup = s.sup := rfl
@[simp] theorem State.modDis_card (s : State) (f : Distaff → Distaff) : (State.modDis s f).card = s.card := rfl
@[simp] theorem State.modDis_mram (s : State) (f : Distaff → Distaff) : (State.modDis s f).mram = s.mram := rfl
@[simp] theorem State.modDis_undo (s : State) (f : Distaff → Distaff) : (State.modDis s f).undo = s.undo := rfl
@[simp] theorem State.modDis_freeCtr (s : State) (f : Distaff → Distaff) : (State.modDis s f).freeCtr = s.freeCtr := rfl
@[simp] theorem State.modDis_pending (s : State) (f : Distaff → Distaff) : (State.modDis s f).pending = s.pending := rfl
@[simp] theorem State.modDis_dis (s : State) (f : Distaff → Distaff) :
    (State.modDis s f).dis = f s.dis := rfl

/-! ### State.modSkein -/

@[simp] theorem State.modSkein_it (s : State) (f : Skein → Skein) : (State.modSkein s f).it = s.it := rfl
@[simp] theorem State.modSkein_time (s : State) (f : Skein → Skein) : (State.modSkein s f).time = s.time := rfl
@[simp] theorem State.modSkein_power (s : State) (f : Skein → Skein) : (State.modSkein s f).power = s.power := rfl
@[simp] theorem State.modSkein_motion (s : State) (f : Skein → Skein) : (State.modSkein s f).motion = s.motion := rfl
@[simp] theorem State.modSkein_rov (s : State) (f : Skein → Skein) : (State.modSkein s f).rov = s.rov := rfl
@[simp] theorem State.modSkein_spd (s : State) (f : Skein → Skein) : (State.modSkein s f).spd = s.spd := rfl
@[simp] theorem State.modSkein_dis (s : State) (f : Skein → Skein) : (State.modSkein s f).dis = s.dis := rfl
@[simp] theorem State.modSkein_rate (s : State) (f : Skein → Skein) : (State.modSkein s f).rate = s.rate := rfl
@[simp] theorem State.modSkein_chan (s : State) (f : Skein → Skein) : (State.modSkein s f).chan = s.chan := rfl
@[simp] theorem State.modSkein_banks (s : State) (f : Skein → Skein) : (State.modSkein s f).banks = s.banks := rfl
@[simp] theorem State.modSkein_dies (s : State) (f : Skein → Skein) : (State.modSkein s f).dies = s.dies := rfl
@[simp] theorem State.modSkein_bob (s : State) (f : Skein → Skein) : (State.modSkein s f).bob = s.bob := rfl
@[simp] theorem State.modSkein_whorl (s : State) (f : Skein → Skein) : (State.modSkein s f).whorl = s.whorl := rfl
@[simp] theorem State.modSkein_spin (s : State) (f : Skein → Skein) : (State.modSkein s f).spin = s.spin := rfl
@[simp] theorem State.modSkein_bridges (s : State) (f : Skein → Skein) : (State.modSkein s f).bridges = s.bridges := rfl
@[simp] theorem State.modSkein_ports (s : State) (f : Skein → Skein) : (State.modSkein s f).ports = s.ports := rfl
@[simp] theorem State.modSkein_loads (s : State) (f : Skein → Skein) : (State.modSkein s f).loads = s.loads := rfl
@[simp] theorem State.modSkein_budget (s : State) (f : Skein → Skein) : (State.modSkein s f).budget = s.budget := rfl
@[simp] theorem State.modSkein_therm (s : State) (f : Skein → Skein) : (State.modSkein s f).therm = s.therm := rfl
@[simp] theorem State.modSkein_dict (s : State) (f : Skein → Skein) : (State.modSkein s f).dict = s.dict := rfl
@[simp] theorem State.modSkein_nets (s : State) (f : Skein → Skein) : (State.modSkein s f).nets = s.nets := rfl
@[simp] theorem State.modSkein_sup (s : State) (f : Skein → Skein) : (State.modSkein s f).sup = s.sup := rfl
@[simp] theorem State.modSkein_card (s : State) (f : Skein → Skein) : (State.modSkein s f).card = s.card := rfl
@[simp] theorem State.modSkein_mram (s : State) (f : Skein → Skein) : (State.modSkein s f).mram = s.mram := rfl
@[simp] theorem State.modSkein_undo (s : State) (f : Skein → Skein) : (State.modSkein s f).undo = s.undo := rfl
@[simp] theorem State.modSkein_freeCtr (s : State) (f : Skein → Skein) : (State.modSkein s f).freeCtr = s.freeCtr := rfl
@[simp] theorem State.modSkein_pending (s : State) (f : Skein → Skein) : (State.modSkein s f).pending = s.pending := rfl
@[simp] theorem State.modSkein_skein (s : State) (f : Skein → Skein) :
    (State.modSkein s f).skein = f s.skein := rfl

/-! ### State.modSup -/

@[simp] theorem State.modSup_it (s : State) (f : Super → Super) : (State.modSup s f).it = s.it := rfl
@[simp] theorem State.modSup_time (s : State) (f : Super → Super) : (State.modSup s f).time = s.time := rfl
@[simp] theorem State.modSup_power (s : State) (f : Super → Super) : (State.modSup s f).power = s.power := rfl
@[simp] theorem State.modSup_motion (s : State) (f : Super → Super) : (State.modSup s f).motion = s.motion := rfl
@[simp] theorem State.modSup_rov (s : State) (f : Super → Super) : (State.modSup s f).rov = s.rov := rfl
@[simp] theorem State.modSup_spd (s : State) (f : Super → Super) : (State.modSup s f).spd = s.spd := rfl
@[simp] theorem State.modSup_dis (s : State) (f : Super → Super) : (State.modSup s f).dis = s.dis := rfl
@[simp] theorem State.modSup_rate (s : State) (f : Super → Super) : (State.modSup s f).rate = s.rate := rfl
@[simp] theorem State.modSup_chan (s : State) (f : Super → Super) : (State.modSup s f).chan = s.chan := rfl
@[simp] theorem State.modSup_banks (s : State) (f : Super → Super) : (State.modSup s f).banks = s.banks := rfl
@[simp] theorem State.modSup_dies (s : State) (f : Super → Super) : (State.modSup s f).dies = s.dies := rfl
@[simp] theorem State.modSup_bob (s : State) (f : Super → Super) : (State.modSup s f).bob = s.bob := rfl
@[simp] theorem State.modSup_whorl (s : State) (f : Super → Super) : (State.modSup s f).whorl = s.whorl := rfl
@[simp] theorem State.modSup_spin (s : State) (f : Super → Super) : (State.modSup s f).spin = s.spin := rfl
@[simp] theorem State.modSup_bridges (s : State) (f : Super → Super) : (State.modSup s f).bridges = s.bridges := rfl
@[simp] theorem State.modSup_ports (s : State) (f : Super → Super) : (State.modSup s f).ports = s.ports := rfl
@[simp] theorem State.modSup_loads (s : State) (f : Super → Super) : (State.modSup s f).loads = s.loads := rfl
@[simp] theorem State.modSup_budget (s : State) (f : Super → Super) : (State.modSup s f).budget = s.budget := rfl
@[simp] theorem State.modSup_therm (s : State) (f : Super → Super) : (State.modSup s f).therm = s.therm := rfl
@[simp] theorem State.modSup_dict (s : State) (f : Super → Super) : (State.modSup s f).dict = s.dict := rfl
@[simp] theorem State.modSup_nets (s : State) (f : Super → Super) : (State.modSup s f).nets = s.nets := rfl
@[simp] theorem State.modSup_skein (s : State) (f : Super → Super) : (State.modSup s f).skein = s.skein := rfl
@[simp] theorem State.modSup_card (s : State) (f : Super → Super) : (State.modSup s f).card = s.card := rfl
@[simp] theorem State.modSup_mram (s : State) (f : Super → Super) : (State.modSup s f).mram = s.mram := rfl
@[simp] theorem State.modSup_undo (s : State) (f : Super → Super) : (State.modSup s f).undo = s.undo := rfl
@[simp] theorem State.modSup_freeCtr (s : State) (f : Super → Super) : (State.modSup s f).freeCtr = s.freeCtr := rfl
@[simp] theorem State.modSup_pending (s : State) (f : Super → Super) : (State.modSup s f).pending = s.pending := rfl
@[simp] theorem State.modSup_sup (s : State) (f : Super → Super) :
    (State.modSup s f).sup = f s.sup := rfl

/-! ### State.modPower -/

@[simp] theorem State.modPower_it (s : State) (f : Power → Power) : (State.modPower s f).it = s.it := rfl
@[simp] theorem State.modPower_time (s : State) (f : Power → Power) : (State.modPower s f).time = s.time := rfl
@[simp] theorem State.modPower_motion (s : State) (f : Power → Power) : (State.modPower s f).motion = s.motion := rfl
@[simp] theorem State.modPower_rov (s : State) (f : Power → Power) : (State.modPower s f).rov = s.rov := rfl
@[simp] theorem State.modPower_spd (s : State) (f : Power → Power) : (State.modPower s f).spd = s.spd := rfl
@[simp] theorem State.modPower_dis (s : State) (f : Power → Power) : (State.modPower s f).dis = s.dis := rfl
@[simp] theorem State.modPower_rate (s : State) (f : Power → Power) : (State.modPower s f).rate = s.rate := rfl
@[simp] theorem State.modPower_chan (s : State) (f : Power → Power) : (State.modPower s f).chan = s.chan := rfl
@[simp] theorem State.modPower_banks (s : State) (f : Power → Power) : (State.modPower s f).banks = s.banks := rfl
@[simp] theorem State.modPower_dies (s : State) (f : Power → Power) : (State.modPower s f).dies = s.dies := rfl
@[simp] theorem State.modPower_bob (s : State) (f : Power → Power) : (State.modPower s f).bob = s.bob := rfl
@[simp] theorem State.modPower_whorl (s : State) (f : Power → Power) : (State.modPower s f).whorl = s.whorl := rfl
@[simp] theorem State.modPower_spin (s : State) (f : Power → Power) : (State.modPower s f).spin = s.spin := rfl
@[simp] theorem State.modPower_bridges (s : State) (f : Power → Power) : (State.modPower s f).bridges = s.bridges := rfl
@[simp] theorem State.modPower_ports (s : State) (f : Power → Power) : (State.modPower s f).ports = s.ports := rfl
@[simp] theorem State.modPower_loads (s : State) (f : Power → Power) : (State.modPower s f).loads = s.loads := rfl
@[simp] theorem State.modPower_budget (s : State) (f : Power → Power) : (State.modPower s f).budget = s.budget := rfl
@[simp] theorem State.modPower_therm (s : State) (f : Power → Power) : (State.modPower s f).therm = s.therm := rfl
@[simp] theorem State.modPower_dict (s : State) (f : Power → Power) : (State.modPower s f).dict = s.dict := rfl
@[simp] theorem State.modPower_nets (s : State) (f : Power → Power) : (State.modPower s f).nets = s.nets := rfl
@[simp] theorem State.modPower_skein (s : State) (f : Power → Power) : (State.modPower s f).skein = s.skein := rfl
@[simp] theorem State.modPower_sup (s : State) (f : Power → Power) : (State.modPower s f).sup = s.sup := rfl
@[simp] theorem State.modPower_card (s : State) (f : Power → Power) : (State.modPower s f).card = s.card := rfl
@[simp] theorem State.modPower_mram (s : State) (f : Power → Power) : (State.modPower s f).mram = s.mram := rfl
@[simp] theorem State.modPower_undo (s : State) (f : Power → Power) : (State.modPower s f).undo = s.undo := rfl
@[simp] theorem State.modPower_freeCtr (s : State) (f : Power → Power) : (State.modPower s f).freeCtr = s.freeCtr := rfl
@[simp] theorem State.modPower_pending (s : State) (f : Power → Power) : (State.modPower s f).pending = s.pending := rfl
@[simp] theorem State.modPower_power (s : State) (f : Power → Power) :
    (State.modPower s f).power = f s.power := rfl

/-! ### State.modCard -/

@[simp] theorem State.modCard_it (s : State) (f : Carding → Carding) : (State.modCard s f).it = s.it := rfl
@[simp] theorem State.modCard_time (s : State) (f : Carding → Carding) : (State.modCard s f).time = s.time := rfl
@[simp] theorem State.modCard_power (s : State) (f : Carding → Carding) : (State.modCard s f).power = s.power := rfl
@[simp] theorem State.modCard_motion (s : State) (f : Carding → Carding) : (State.modCard s f).motion = s.motion := rfl
@[simp] theorem State.modCard_rov (s : State) (f : Carding → Carding) : (State.modCard s f).rov = s.rov := rfl
@[simp] theorem State.modCard_spd (s : State) (f : Carding → Carding) : (State.modCard s f).spd = s.spd := rfl
@[simp] theorem State.modCard_dis (s : State) (f : Carding → Carding) : (State.modCard s f).dis = s.dis := rfl
@[simp] theorem State.modCard_rate (s : State) (f : Carding → Carding) : (State.modCard s f).rate = s.rate := rfl
@[simp] theorem State.modCard_chan (s : State) (f : Carding → Carding) : (State.modCard s f).chan = s.chan := rfl
@[simp] theorem State.modCard_banks (s : State) (f : Carding → Carding) : (State.modCard s f).banks = s.banks := rfl
@[simp] theorem State.modCard_dies (s : State) (f : Carding → Carding) : (State.modCard s f).dies = s.dies := rfl
@[simp] theorem State.modCard_bob (s : State) (f : Carding → Carding) : (State.modCard s f).bob = s.bob := rfl
@[simp] theorem State.modCard_whorl (s : State) (f : Carding → Carding) : (State.modCard s f).whorl = s.whorl := rfl
@[simp] theorem State.modCard_spin (s : State) (f : Carding → Carding) : (State.modCard s f).spin = s.spin := rfl
@[simp] theorem State.modCard_bridges (s : State) (f : Carding → Carding) : (State.modCard s f).bridges = s.bridges := rfl
@[simp] theorem State.modCard_ports (s : State) (f : Carding → Carding) : (State.modCard s f).ports = s.ports := rfl
@[simp] theorem State.modCard_loads (s : State) (f : Carding → Carding) : (State.modCard s f).loads = s.loads := rfl
@[simp] theorem State.modCard_budget (s : State) (f : Carding → Carding) : (State.modCard s f).budget = s.budget := rfl
@[simp] theorem State.modCard_therm (s : State) (f : Carding → Carding) : (State.modCard s f).therm = s.therm := rfl
@[simp] theorem State.modCard_dict (s : State) (f : Carding → Carding) : (State.modCard s f).dict = s.dict := rfl
@[simp] theorem State.modCard_nets (s : State) (f : Carding → Carding) : (State.modCard s f).nets = s.nets := rfl
@[simp] theorem State.modCard_skein (s : State) (f : Carding → Carding) : (State.modCard s f).skein = s.skein := rfl
@[simp] theorem State.modCard_sup (s : State) (f : Carding → Carding) : (State.modCard s f).sup = s.sup := rfl
@[simp] theorem State.modCard_mram (s : State) (f : Carding → Carding) : (State.modCard s f).mram = s.mram := rfl
@[simp] theorem State.modCard_undo (s : State) (f : Carding → Carding) : (State.modCard s f).undo = s.undo := rfl
@[simp] theorem State.modCard_freeCtr (s : State) (f : Carding → Carding) : (State.modCard s f).freeCtr = s.freeCtr := rfl
@[simp] theorem State.modCard_pending (s : State) (f : Carding → Carding) : (State.modCard s f).pending = s.pending := rfl
@[simp] theorem State.modCard_card (s : State) (f : Carding → Carding) :
    (State.modCard s f).card = f s.card := rfl

/-! ### State.modDict -/

@[simp] theorem State.modDict_it (s : State) (f : Dict → Dict) : (State.modDict s f).it = s.it := rfl
@[simp] theorem State.modDict_time (s : State) (f : Dict → Dict) : (State.modDict s f).time = s.time := rfl
@[simp] theorem State.modDict_power (s : State) (f : Dict → Dict) : (State.modDict s f).power = s.power := rfl
@[simp] theorem State.modDict_motion (s : State) (f : Dict → Dict) : (State.modDict s f).motion = s.motion := rfl
@[simp] theorem State.modDict_rov (s : State) (f : Dict → Dict) : (State.modDict s f).rov = s.rov := rfl
@[simp] theorem State.modDict_spd (s : State) (f : Dict → Dict) : (State.modDict s f).spd = s.spd := rfl
@[simp] theorem State.modDict_dis (s : State) (f : Dict → Dict) : (State.modDict s f).dis = s.dis := rfl
@[simp] theorem State.modDict_rate (s : State) (f : Dict → Dict) : (State.modDict s f).rate = s.rate := rfl
@[simp] theorem State.modDict_chan (s : State) (f : Dict → Dict) : (State.modDict s f).chan = s.chan := rfl
@[simp] theorem State.modDict_banks (s : State) (f : Dict → Dict) : (State.modDict s f).banks = s.banks := rfl
@[simp] theorem State.modDict_dies (s : State) (f : Dict → Dict) : (State.modDict s f).dies = s.dies := rfl
@[simp] theorem State.modDict_bob (s : State) (f : Dict → Dict) : (State.modDict s f).bob = s.bob := rfl
@[simp] theorem State.modDict_whorl (s : State) (f : Dict → Dict) : (State.modDict s f).whorl = s.whorl := rfl
@[simp] theorem State.modDict_spin (s : State) (f : Dict → Dict) : (State.modDict s f).spin = s.spin := rfl
@[simp] theorem State.modDict_bridges (s : State) (f : Dict → Dict) : (State.modDict s f).bridges = s.bridges := rfl
@[simp] theorem State.modDict_ports (s : State) (f : Dict → Dict) : (State.modDict s f).ports = s.ports := rfl
@[simp] theorem State.modDict_loads (s : State) (f : Dict → Dict) : (State.modDict s f).loads = s.loads := rfl
@[simp] theorem State.modDict_budget (s : State) (f : Dict → Dict) : (State.modDict s f).budget = s.budget := rfl
@[simp] theorem State.modDict_therm (s : State) (f : Dict → Dict) : (State.modDict s f).therm = s.therm := rfl
@[simp] theorem State.modDict_nets (s : State) (f : Dict → Dict) : (State.modDict s f).nets = s.nets := rfl
@[simp] theorem State.modDict_skein (s : State) (f : Dict → Dict) : (State.modDict s f).skein = s.skein := rfl
@[simp] theorem State.modDict_sup (s : State) (f : Dict → Dict) : (State.modDict s f).sup = s.sup := rfl
@[simp] theorem State.modDict_card (s : State) (f : Dict → Dict) : (State.modDict s f).card = s.card := rfl
@[simp] theorem State.modDict_mram (s : State) (f : Dict → Dict) : (State.modDict s f).mram = s.mram := rfl
@[simp] theorem State.modDict_undo (s : State) (f : Dict → Dict) : (State.modDict s f).undo = s.undo := rfl
@[simp] theorem State.modDict_freeCtr (s : State) (f : Dict → Dict) : (State.modDict s f).freeCtr = s.freeCtr := rfl
@[simp] theorem State.modDict_pending (s : State) (f : Dict → Dict) : (State.modDict s f).pending = s.pending := rfl
@[simp] theorem State.modDict_dict (s : State) (f : Dict → Dict) :
    (State.modDict s f).dict = f s.dict := rfl

/-! ### State.modSession -/

@[simp] theorem State.modSession_it (s : State) (i : SessionId) (f : Session → Session) : (State.modSession s i f).it = s.it := rfl
@[simp] theorem State.modSession_time (s : State) (i : SessionId) (f : Session → Session) : (State.modSession s i f).time = s.time := rfl
@[simp] theorem State.modSession_power (s : State) (i : SessionId) (f : Session → Session) : (State.modSession s i f).power = s.power := rfl
@[simp] theorem State.modSession_motion (s : State) (i : SessionId) (f : Session → Session) : (State.modSession s i f).motion = s.motion := rfl
@[simp] theorem State.modSession_rov (s : State) (i : SessionId) (f : Session → Session) : (State.modSession s i f).rov = s.rov := rfl
@[simp] theorem State.modSession_spd (s : State) (i : SessionId) (f : Session → Session) : (State.modSession s i f).spd = s.spd := rfl
@[simp] theorem State.modSession_dis (s : State) (i : SessionId) (f : Session → Session) : (State.modSession s i f).dis = s.dis := rfl
@[simp] theorem State.modSession_rate (s : State) (i : SessionId) (f : Session → Session) : (State.modSession s i f).rate = s.rate := rfl
@[simp] theorem State.modSession_chan (s : State) (i : SessionId) (f : Session → Session) : (State.modSession s i f).chan = s.chan := rfl
@[simp] theorem State.modSession_banks (s : State) (i : SessionId) (f : Session → Session) : (State.modSession s i f).banks = s.banks := rfl
@[simp] theorem State.modSession_dies (s : State) (i : SessionId) (f : Session → Session) : (State.modSession s i f).dies = s.dies := rfl
@[simp] theorem State.modSession_bob (s : State) (i : SessionId) (f : Session → Session) : (State.modSession s i f).bob = s.bob := rfl
@[simp] theorem State.modSession_whorl (s : State) (i : SessionId) (f : Session → Session) : (State.modSession s i f).whorl = s.whorl := rfl
@[simp] theorem State.modSession_spin (s : State) (i : SessionId) (f : Session → Session) : (State.modSession s i f).spin = s.spin := rfl
@[simp] theorem State.modSession_bridges (s : State) (i : SessionId) (f : Session → Session) : (State.modSession s i f).bridges = s.bridges := rfl
@[simp] theorem State.modSession_ports (s : State) (i : SessionId) (f : Session → Session) : (State.modSession s i f).ports = s.ports := rfl
@[simp] theorem State.modSession_loads (s : State) (i : SessionId) (f : Session → Session) : (State.modSession s i f).loads = s.loads := rfl
@[simp] theorem State.modSession_budget (s : State) (i : SessionId) (f : Session → Session) : (State.modSession s i f).budget = s.budget := rfl
@[simp] theorem State.modSession_therm (s : State) (i : SessionId) (f : Session → Session) : (State.modSession s i f).therm = s.therm := rfl
@[simp] theorem State.modSession_dict (s : State) (i : SessionId) (f : Session → Session) : (State.modSession s i f).dict = s.dict := rfl
@[simp] theorem State.modSession_skein (s : State) (i : SessionId) (f : Session → Session) : (State.modSession s i f).skein = s.skein := rfl
@[simp] theorem State.modSession_sup (s : State) (i : SessionId) (f : Session → Session) : (State.modSession s i f).sup = s.sup := rfl
@[simp] theorem State.modSession_card (s : State) (i : SessionId) (f : Session → Session) : (State.modSession s i f).card = s.card := rfl
@[simp] theorem State.modSession_mram (s : State) (i : SessionId) (f : Session → Session) : (State.modSession s i f).mram = s.mram := rfl
@[simp] theorem State.modSession_undo (s : State) (i : SessionId) (f : Session → Session) : (State.modSession s i f).undo = s.undo := rfl
@[simp] theorem State.modSession_freeCtr (s : State) (i : SessionId) (f : Session → Session) : (State.modSession s i f).freeCtr = s.freeCtr := rfl
@[simp] theorem State.modSession_pending (s : State) (i : SessionId) (f : Session → Session) : (State.modSession s i f).pending = s.pending := rfl

/-! ### State.frameCount -/

@[simp] theorem State.frameCount_it (s : State) (i : Nat) : (State.frameCount s i).it = s.it := rfl
@[simp] theorem State.frameCount_time (s : State) (i : Nat) : (State.frameCount s i).time = s.time := rfl
@[simp] theorem State.frameCount_power (s : State) (i : Nat) : (State.frameCount s i).power = s.power := rfl
@[simp] theorem State.frameCount_motion (s : State) (i : Nat) : (State.frameCount s i).motion = s.motion := rfl
@[simp] theorem State.frameCount_rov (s : State) (i : Nat) : (State.frameCount s i).rov = s.rov := rfl
@[simp] theorem State.frameCount_spd (s : State) (i : Nat) : (State.frameCount s i).spd = s.spd := rfl
@[simp] theorem State.frameCount_dis (s : State) (i : Nat) : (State.frameCount s i).dis = s.dis := rfl
@[simp] theorem State.frameCount_rate (s : State) (i : Nat) : (State.frameCount s i).rate = s.rate := rfl
@[simp] theorem State.frameCount_chan (s : State) (i : Nat) : (State.frameCount s i).chan = s.chan := rfl
@[simp] theorem State.frameCount_banks (s : State) (i : Nat) : (State.frameCount s i).banks = s.banks := rfl
@[simp] theorem State.frameCount_dies (s : State) (i : Nat) : (State.frameCount s i).dies = s.dies := rfl
@[simp] theorem State.frameCount_bob (s : State) (i : Nat) : (State.frameCount s i).bob = s.bob := rfl
@[simp] theorem State.frameCount_whorl (s : State) (i : Nat) : (State.frameCount s i).whorl = s.whorl := rfl
@[simp] theorem State.frameCount_spin (s : State) (i : Nat) : (State.frameCount s i).spin = s.spin := rfl
@[simp] theorem State.frameCount_bridges (s : State) (i : Nat) : (State.frameCount s i).bridges = s.bridges := rfl
@[simp] theorem State.frameCount_ports (s : State) (i : Nat) : (State.frameCount s i).ports = s.ports := rfl
@[simp] theorem State.frameCount_loads (s : State) (i : Nat) : (State.frameCount s i).loads = s.loads := rfl
@[simp] theorem State.frameCount_budget (s : State) (i : Nat) : (State.frameCount s i).budget = s.budget := rfl
@[simp] theorem State.frameCount_therm (s : State) (i : Nat) : (State.frameCount s i).therm = s.therm := rfl
@[simp] theorem State.frameCount_dict (s : State) (i : Nat) : (State.frameCount s i).dict = s.dict := rfl
@[simp] theorem State.frameCount_skein (s : State) (i : Nat) : (State.frameCount s i).skein = s.skein := rfl
@[simp] theorem State.frameCount_sup (s : State) (i : Nat) : (State.frameCount s i).sup = s.sup := rfl
@[simp] theorem State.frameCount_card (s : State) (i : Nat) : (State.frameCount s i).card = s.card := rfl
@[simp] theorem State.frameCount_mram (s : State) (i : Nat) : (State.frameCount s i).mram = s.mram := rfl
@[simp] theorem State.frameCount_undo (s : State) (i : Nat) : (State.frameCount s i).undo = s.undo := rfl
@[simp] theorem State.frameCount_freeCtr (s : State) (i : Nat) : (State.frameCount s i).freeCtr = s.freeCtr := rfl
@[simp] theorem State.frameCount_pending (s : State) (i : Nat) : (State.frameCount s i).pending = s.pending := rfl

/-! ### State.heard -/

@[simp] theorem State.heard_it (s : State) (n : Net) : (State.heard s n).it = s.it := rfl
@[simp] theorem State.heard_time (s : State) (n : Net) : (State.heard s n).time = s.time := rfl
@[simp] theorem State.heard_power (s : State) (n : Net) : (State.heard s n).power = s.power := rfl
@[simp] theorem State.heard_motion (s : State) (n : Net) : (State.heard s n).motion = s.motion := rfl
@[simp] theorem State.heard_rov (s : State) (n : Net) : (State.heard s n).rov = s.rov := rfl
@[simp] theorem State.heard_spd (s : State) (n : Net) : (State.heard s n).spd = s.spd := rfl
@[simp] theorem State.heard_dis (s : State) (n : Net) : (State.heard s n).dis = s.dis := rfl
@[simp] theorem State.heard_rate (s : State) (n : Net) : (State.heard s n).rate = s.rate := rfl
@[simp] theorem State.heard_chan (s : State) (n : Net) : (State.heard s n).chan = s.chan := rfl
@[simp] theorem State.heard_banks (s : State) (n : Net) : (State.heard s n).banks = s.banks := rfl
@[simp] theorem State.heard_dies (s : State) (n : Net) : (State.heard s n).dies = s.dies := rfl
@[simp] theorem State.heard_bob (s : State) (n : Net) : (State.heard s n).bob = s.bob := rfl
@[simp] theorem State.heard_whorl (s : State) (n : Net) : (State.heard s n).whorl = s.whorl := rfl
@[simp] theorem State.heard_spin (s : State) (n : Net) : (State.heard s n).spin = s.spin := rfl
@[simp] theorem State.heard_bridges (s : State) (n : Net) : (State.heard s n).bridges = s.bridges := rfl
@[simp] theorem State.heard_ports (s : State) (n : Net) : (State.heard s n).ports = s.ports := rfl
@[simp] theorem State.heard_loads (s : State) (n : Net) : (State.heard s n).loads = s.loads := rfl
@[simp] theorem State.heard_budget (s : State) (n : Net) : (State.heard s n).budget = s.budget := rfl
@[simp] theorem State.heard_therm (s : State) (n : Net) : (State.heard s n).therm = s.therm := rfl
@[simp] theorem State.heard_dict (s : State) (n : Net) : (State.heard s n).dict = s.dict := rfl
@[simp] theorem State.heard_skein (s : State) (n : Net) : (State.heard s n).skein = s.skein := rfl
@[simp] theorem State.heard_sup (s : State) (n : Net) : (State.heard s n).sup = s.sup := rfl
@[simp] theorem State.heard_card (s : State) (n : Net) : (State.heard s n).card = s.card := rfl
@[simp] theorem State.heard_mram (s : State) (n : Net) : (State.heard s n).mram = s.mram := rfl
@[simp] theorem State.heard_undo (s : State) (n : Net) : (State.heard s n).undo = s.undo := rfl
@[simp] theorem State.heard_freeCtr (s : State) (n : Net) : (State.heard s n).freeCtr = s.freeCtr := rfl
@[simp] theorem State.heard_pending (s : State) (n : Net) : (State.heard s n).pending = s.pending := rfl

/-! ### State.remember -/

@[simp] theorem State.remember_it (s : State) (r : Req) (reply : Bytes) : (State.remember s r reply).it = s.it := rfl
@[simp] theorem State.remember_time (s : State) (r : Req) (reply : Bytes) : (State.remember s r reply).time = s.time := rfl
@[simp] theorem State.remember_power (s : State) (r : Req) (reply : Bytes) : (State.remember s r reply).power = s.power := rfl
@[simp] theorem State.remember_motion (s : State) (r : Req) (reply : Bytes) : (State.remember s r reply).motion = s.motion := rfl
@[simp] theorem State.remember_rov (s : State) (r : Req) (reply : Bytes) : (State.remember s r reply).rov = s.rov := rfl
@[simp] theorem State.remember_spd (s : State) (r : Req) (reply : Bytes) : (State.remember s r reply).spd = s.spd := rfl
@[simp] theorem State.remember_dis (s : State) (r : Req) (reply : Bytes) : (State.remember s r reply).dis = s.dis := rfl
@[simp] theorem State.remember_rate (s : State) (r : Req) (reply : Bytes) : (State.remember s r reply).rate = s.rate := rfl
@[simp] theorem State.remember_chan (s : State) (r : Req) (reply : Bytes) : (State.remember s r reply).chan = s.chan := rfl
@[simp] theorem State.remember_banks (s : State) (r : Req) (reply : Bytes) : (State.remember s r reply).banks = s.banks := rfl
@[simp] theorem State.remember_dies (s : State) (r : Req) (reply : Bytes) : (State.remember s r reply).dies = s.dies := rfl
@[simp] theorem State.remember_bob (s : State) (r : Req) (reply : Bytes) : (State.remember s r reply).bob = s.bob := rfl
@[simp] theorem State.remember_whorl (s : State) (r : Req) (reply : Bytes) : (State.remember s r reply).whorl = s.whorl := rfl
@[simp] theorem State.remember_spin (s : State) (r : Req) (reply : Bytes) : (State.remember s r reply).spin = s.spin := rfl
@[simp] theorem State.remember_bridges (s : State) (r : Req) (reply : Bytes) : (State.remember s r reply).bridges = s.bridges := rfl
@[simp] theorem State.remember_ports (s : State) (r : Req) (reply : Bytes) : (State.remember s r reply).ports = s.ports := rfl
@[simp] theorem State.remember_loads (s : State) (r : Req) (reply : Bytes) : (State.remember s r reply).loads = s.loads := rfl
@[simp] theorem State.remember_budget (s : State) (r : Req) (reply : Bytes) : (State.remember s r reply).budget = s.budget := rfl
@[simp] theorem State.remember_therm (s : State) (r : Req) (reply : Bytes) : (State.remember s r reply).therm = s.therm := rfl
@[simp] theorem State.remember_dict (s : State) (r : Req) (reply : Bytes) : (State.remember s r reply).dict = s.dict := rfl
@[simp] theorem State.remember_skein (s : State) (r : Req) (reply : Bytes) : (State.remember s r reply).skein = s.skein := rfl
@[simp] theorem State.remember_sup (s : State) (r : Req) (reply : Bytes) : (State.remember s r reply).sup = s.sup := rfl
@[simp] theorem State.remember_card (s : State) (r : Req) (reply : Bytes) : (State.remember s r reply).card = s.card := rfl
@[simp] theorem State.remember_mram (s : State) (r : Req) (reply : Bytes) : (State.remember s r reply).mram = s.mram := rfl
@[simp] theorem State.remember_undo (s : State) (r : Req) (reply : Bytes) : (State.remember s r reply).undo = s.undo := rfl
@[simp] theorem State.remember_freeCtr (s : State) (r : Req) (reply : Bytes) : (State.remember s r reply).freeCtr = s.freeCtr := rfl
@[simp] theorem State.remember_pending (s : State) (r : Req) (reply : Bytes) : (State.remember s r reply).pending = s.pending := rfl

/-! ### State.setCommon -/

@[simp] theorem State.setCommon_it (s : State) (b : Nat) : (State.setCommon s b).it = s.it := by unfold State.setCommon; split <;> rfl
@[simp] theorem State.setCommon_time (s : State) (b : Nat) : (State.setCommon s b).time = s.time := by unfold State.setCommon; split <;> rfl
@[simp] theorem State.setCommon_power (s : State) (b : Nat) : (State.setCommon s b).power = s.power := by unfold State.setCommon; split <;> rfl
@[simp] theorem State.setCommon_motion (s : State) (b : Nat) : (State.setCommon s b).motion = s.motion := by unfold State.setCommon; split <;> rfl
@[simp] theorem State.setCommon_rov (s : State) (b : Nat) : (State.setCommon s b).rov = s.rov := by unfold State.setCommon; split <;> rfl
@[simp] theorem State.setCommon_spd (s : State) (b : Nat) : (State.setCommon s b).spd = s.spd := by unfold State.setCommon; split <;> rfl
@[simp] theorem State.setCommon_dis (s : State) (b : Nat) : (State.setCommon s b).dis = s.dis := by unfold State.setCommon; split <;> rfl
@[simp] theorem State.setCommon_rate (s : State) (b : Nat) : (State.setCommon s b).rate = s.rate := by unfold State.setCommon; split <;> rfl
@[simp] theorem State.setCommon_chan (s : State) (b : Nat) : (State.setCommon s b).chan = s.chan := by unfold State.setCommon; split <;> rfl
@[simp] theorem State.setCommon_dies (s : State) (b : Nat) : (State.setCommon s b).dies = s.dies := by unfold State.setCommon; split <;> rfl
@[simp] theorem State.setCommon_bob (s : State) (b : Nat) : (State.setCommon s b).bob = s.bob := by unfold State.setCommon; split <;> rfl
@[simp] theorem State.setCommon_whorl (s : State) (b : Nat) : (State.setCommon s b).whorl = s.whorl := by unfold State.setCommon; split <;> rfl
@[simp] theorem State.setCommon_spin (s : State) (b : Nat) : (State.setCommon s b).spin = s.spin := by unfold State.setCommon; split <;> rfl
@[simp] theorem State.setCommon_bridges (s : State) (b : Nat) : (State.setCommon s b).bridges = s.bridges := by unfold State.setCommon; split <;> rfl
@[simp] theorem State.setCommon_ports (s : State) (b : Nat) : (State.setCommon s b).ports = s.ports := by unfold State.setCommon; split <;> rfl
@[simp] theorem State.setCommon_loads (s : State) (b : Nat) : (State.setCommon s b).loads = s.loads := by unfold State.setCommon; split <;> rfl
@[simp] theorem State.setCommon_budget (s : State) (b : Nat) : (State.setCommon s b).budget = s.budget := by unfold State.setCommon; split <;> rfl
@[simp] theorem State.setCommon_therm (s : State) (b : Nat) : (State.setCommon s b).therm = s.therm := by unfold State.setCommon; split <;> rfl
@[simp] theorem State.setCommon_dict (s : State) (b : Nat) : (State.setCommon s b).dict = s.dict := by unfold State.setCommon; split <;> rfl
@[simp] theorem State.setCommon_nets (s : State) (b : Nat) : (State.setCommon s b).nets = s.nets := by unfold State.setCommon; split <;> rfl
@[simp] theorem State.setCommon_skein (s : State) (b : Nat) : (State.setCommon s b).skein = s.skein := by unfold State.setCommon; split <;> rfl
@[simp] theorem State.setCommon_sup (s : State) (b : Nat) : (State.setCommon s b).sup = s.sup := by unfold State.setCommon; split <;> rfl
@[simp] theorem State.setCommon_card (s : State) (b : Nat) : (State.setCommon s b).card = s.card := by unfold State.setCommon; split <;> rfl
@[simp] theorem State.setCommon_mram (s : State) (b : Nat) : (State.setCommon s b).mram = s.mram := by unfold State.setCommon; split <;> rfl
@[simp] theorem State.setCommon_undo (s : State) (b : Nat) : (State.setCommon s b).undo = s.undo := by unfold State.setCommon; split <;> rfl
@[simp] theorem State.setCommon_freeCtr (s : State) (b : Nat) : (State.setCommon s b).freeCtr = s.freeCtr := by unfold State.setCommon; split <;> rfl
@[simp] theorem State.setCommon_pending (s : State) (b : Nat) : (State.setCommon s b).pending = s.pending := by unfold State.setCommon; split <;> rfl

/-! ### State.modIso -/

@[simp] theorem State.modIso_it (s : State) (f : CanA → CanA) : (State.modIso s f).it = s.it := rfl
@[simp] theorem State.modIso_time (s : State) (f : CanA → CanA) : (State.modIso s f).time = s.time := rfl
@[simp] theorem State.modIso_power (s : State) (f : CanA → CanA) : (State.modIso s f).power = s.power := rfl
@[simp] theorem State.modIso_motion (s : State) (f : CanA → CanA) : (State.modIso s f).motion = s.motion := rfl
@[simp] theorem State.modIso_rov (s : State) (f : CanA → CanA) : (State.modIso s f).rov = s.rov := rfl
@[simp] theorem State.modIso_spd (s : State) (f : CanA → CanA) : (State.modIso s f).spd = s.spd := rfl
@[simp] theorem State.modIso_dis (s : State) (f : CanA → CanA) : (State.modIso s f).dis = s.dis := rfl
@[simp] theorem State.modIso_rate (s : State) (f : CanA → CanA) : (State.modIso s f).rate = s.rate := rfl
@[simp] theorem State.modIso_chan (s : State) (f : CanA → CanA) : (State.modIso s f).chan = s.chan := rfl
@[simp] theorem State.modIso_banks (s : State) (f : CanA → CanA) : (State.modIso s f).banks = s.banks := rfl
@[simp] theorem State.modIso_dies (s : State) (f : CanA → CanA) : (State.modIso s f).dies = s.dies := rfl
@[simp] theorem State.modIso_bob (s : State) (f : CanA → CanA) : (State.modIso s f).bob = s.bob := rfl
@[simp] theorem State.modIso_whorl (s : State) (f : CanA → CanA) : (State.modIso s f).whorl = s.whorl := rfl
@[simp] theorem State.modIso_spin (s : State) (f : CanA → CanA) : (State.modIso s f).spin = s.spin := rfl
@[simp] theorem State.modIso_bridges (s : State) (f : CanA → CanA) : (State.modIso s f).bridges = s.bridges := rfl
@[simp] theorem State.modIso_ports (s : State) (f : CanA → CanA) : (State.modIso s f).ports = s.ports := rfl
@[simp] theorem State.modIso_loads (s : State) (f : CanA → CanA) : (State.modIso s f).loads = s.loads := rfl
@[simp] theorem State.modIso_budget (s : State) (f : CanA → CanA) : (State.modIso s f).budget = s.budget := rfl
@[simp] theorem State.modIso_therm (s : State) (f : CanA → CanA) : (State.modIso s f).therm = s.therm := rfl
@[simp] theorem State.modIso_dict (s : State) (f : CanA → CanA) : (State.modIso s f).dict = s.dict := rfl
@[simp] theorem State.modIso_skein (s : State) (f : CanA → CanA) : (State.modIso s f).skein = s.skein := rfl
@[simp] theorem State.modIso_sup (s : State) (f : CanA → CanA) : (State.modIso s f).sup = s.sup := rfl
@[simp] theorem State.modIso_card (s : State) (f : CanA → CanA) : (State.modIso s f).card = s.card := rfl
@[simp] theorem State.modIso_mram (s : State) (f : CanA → CanA) : (State.modIso s f).mram = s.mram := rfl
@[simp] theorem State.modIso_undo (s : State) (f : CanA → CanA) : (State.modIso s f).undo = s.undo := rfl
@[simp] theorem State.modIso_freeCtr (s : State) (f : CanA → CanA) : (State.modIso s f).freeCtr = s.freeCtr := rfl
@[simp] theorem State.modIso_pending (s : State) (f : CanA → CanA) : (State.modIso s f).pending = s.pending := rfl
@[simp] theorem State.modIso_nets (s : State) (f : CanA → CanA) :
    (State.modIso s f).nets = { s.nets with canA := f s.nets.canA } := rfl

end Sys2Proof.Machine
end

