-- ==== Sys2Proof/Laws/Access.lean ====
section
/-! SUPPORT. How the named pieces of the state (channels, banks, dies, bridges, ports, spinners, switches, loops, inputs,
hanks, engines, outputs) and the parameters read after each small update. -/

namespace Sys2Proof.Machine

/-! ### State.at -/

@[simp] theorem State.at_ch (s : State) (t : IT) (q : Nat) : (State.at s t).ch q = s.ch q := rfl
@[simp] theorem State.at_bank (s : State) (t : IT) (q : Nat) : (State.at s t).bank q = s.bank q := rfl
@[simp] theorem State.at_die (s : State) (t : IT) (q : Nat) : (State.at s t).die q = s.die q := rfl
@[simp] theorem State.at_br (s : State) (t : IT) (q : Nat) : (State.at s t).br q = s.br q := rfl
@[simp] theorem State.at_pt (s : State) (t : IT) (q : Nat) : (State.at s t).pt q = s.pt q := rfl
@[simp] theorem State.at_sp (s : State) (t : IT) (q : Nat) : (State.at s t).sp q = s.sp q := rfl
@[simp] theorem State.at_ld (s : State) (t : IT) (q : Nat) : (State.at s t).ld q = s.ld q := rfl
@[simp] theorem State.at_lp (s : State) (t : IT) (q : Nat) : (State.at s t).lp q = s.lp q := rfl
@[simp] theorem State.at_pulse (s : State) (t : IT) (q : Nat) : (State.at s t).pulse q = s.pulse q := rfl
@[simp] theorem State.at_hall (s : State) (t : IT) (q : Nat) : (State.at s t).hall q = s.hall q := rfl
@[simp] theorem State.at_uart (s : State) (t : IT) (q : Nat) : (State.at s t).uart q = s.uart q := rfl
@[simp] theorem State.at_hank (s : State) (t : IT) (q : Nat) : (State.at s t).hank q = s.hank q := rfl
@[simp] theorem State.at_engine (s : State) (t : IT) (q : Nat) : (State.at s t).engine q = s.engine q := rfl
@[simp] theorem State.at_outp (s : State) (t : IT) (q : Nat) : (State.at s t).outp q = s.outp q := rfl
@[simp] theorem State.at_pN (s : State) (t : IT) (q q' : Nat) : (State.at s t).pN q q' = s.pN q q' := rfl
@[simp] theorem State.at_pI (s : State) (t : IT) (q q' : Nat) : (State.at s t).pI q q' = s.pI q q' := rfl
@[simp] theorem State.at_pB (s : State) (t : IT) (q q' : Nat) : (State.at s t).pB q q' = s.pB q q' := rfl

/-! ### State.draw -/

@[simp] theorem State.draw_ch (s : State) (q : Nat) : (State.draw s).ch q = s.ch q := rfl
@[simp] theorem State.draw_bank (s : State) (q : Nat) : (State.draw s).bank q = s.bank q := rfl
@[simp] theorem State.draw_die (s : State) (q : Nat) : (State.draw s).die q = s.die q := rfl
@[simp] theorem State.draw_br (s : State) (q : Nat) : (State.draw s).br q = s.br q := rfl
@[simp] theorem State.draw_pt (s : State) (q : Nat) : (State.draw s).pt q = s.pt q := rfl
@[simp] theorem State.draw_sp (s : State) (q : Nat) : (State.draw s).sp q = s.sp q := rfl
@[simp] theorem State.draw_ld (s : State) (q : Nat) : (State.draw s).ld q = s.ld q := rfl
@[simp] theorem State.draw_lp (s : State) (q : Nat) : (State.draw s).lp q = s.lp q := rfl
@[simp] theorem State.draw_pulse (s : State) (q : Nat) : (State.draw s).pulse q = s.pulse q := rfl
@[simp] theorem State.draw_hall (s : State) (q : Nat) : (State.draw s).hall q = s.hall q := rfl
@[simp] theorem State.draw_uart (s : State) (q : Nat) : (State.draw s).uart q = s.uart q := rfl
@[simp] theorem State.draw_hank (s : State) (q : Nat) : (State.draw s).hank q = s.hank q := rfl
@[simp] theorem State.draw_engine (s : State) (q : Nat) : (State.draw s).engine q = s.engine q := rfl
@[simp] theorem State.draw_outp (s : State) (q : Nat) : (State.draw s).outp q = s.outp q := rfl
@[simp] theorem State.draw_pN (s : State) (q q' : Nat) : (State.draw s).pN q q' = s.pN q q' := rfl
@[simp] theorem State.draw_pI (s : State) (q q' : Nat) : (State.draw s).pI q q' = s.pI q q' := rfl
@[simp] theorem State.draw_pB (s : State) (q q' : Nat) : (State.draw s).pB q q' = s.pB q q' := rfl

/-! ### State.record -/

@[simp] theorem State.record_ch (s : State) (code : Nat) (subj : Nat) (det : Bytes) (q : Nat) : (State.record s code subj det).ch q = s.ch q := rfl
@[simp] theorem State.record_bank (s : State) (code : Nat) (subj : Nat) (det : Bytes) (q : Nat) : (State.record s code subj det).bank q = s.bank q := rfl
@[simp] theorem State.record_die (s : State) (code : Nat) (subj : Nat) (det : Bytes) (q : Nat) : (State.record s code subj det).die q = s.die q := rfl
@[simp] theorem State.record_br (s : State) (code : Nat) (subj : Nat) (det : Bytes) (q : Nat) : (State.record s code subj det).br q = s.br q := rfl
@[simp] theorem State.record_pt (s : State) (code : Nat) (subj : Nat) (det : Bytes) (q : Nat) : (State.record s code subj det).pt q = s.pt q := rfl
@[simp] theorem State.record_sp (s : State) (code : Nat) (subj : Nat) (det : Bytes) (q : Nat) : (State.record s code subj det).sp q = s.sp q := rfl
@[simp] theorem State.record_ld (s : State) (code : Nat) (subj : Nat) (det : Bytes) (q : Nat) : (State.record s code subj det).ld q = s.ld q := rfl
@[simp] theorem State.record_lp (s : State) (code : Nat) (subj : Nat) (det : Bytes) (q : Nat) : (State.record s code subj det).lp q = s.lp q := rfl
@[simp] theorem State.record_pulse (s : State) (code : Nat) (subj : Nat) (det : Bytes) (q : Nat) : (State.record s code subj det).pulse q = s.pulse q := rfl
@[simp] theorem State.record_hall (s : State) (code : Nat) (subj : Nat) (det : Bytes) (q : Nat) : (State.record s code subj det).hall q = s.hall q := rfl
@[simp] theorem State.record_uart (s : State) (code : Nat) (subj : Nat) (det : Bytes) (q : Nat) : (State.record s code subj det).uart q = s.uart q := rfl
@[simp] theorem State.record_hank (s : State) (code : Nat) (subj : Nat) (det : Bytes) (q : Nat) : (State.record s code subj det).hank q = s.hank q := rfl
@[simp] theorem State.record_engine (s : State) (code : Nat) (subj : Nat) (det : Bytes) (q : Nat) : (State.record s code subj det).engine q = s.engine q := rfl
@[simp] theorem State.record_outp (s : State) (code : Nat) (subj : Nat) (det : Bytes) (q : Nat) : (State.record s code subj det).outp q = s.outp q := rfl
@[simp] theorem State.record_pN (s : State) (code : Nat) (subj : Nat) (det : Bytes) (q q' : Nat) : (State.record s code subj det).pN q q' = s.pN q q' := rfl
@[simp] theorem State.record_pI (s : State) (code : Nat) (subj : Nat) (det : Bytes) (q q' : Nat) : (State.record s code subj det).pI q q' = s.pI q q' := rfl
@[simp] theorem State.record_pB (s : State) (code : Nat) (subj : Nat) (det : Bytes) (q q' : Nat) : (State.record s code subj det).pB q q' = s.pB q q' := rfl

/-! ### State.report -/

@[simp] theorem State.report_ch (s : State) (code : Nat) (subj : Nat) (det : Bytes) (q : Nat) : (State.report s code subj det).ch q = s.ch q := rfl
@[simp] theorem State.report_bank (s : State) (code : Nat) (subj : Nat) (det : Bytes) (q : Nat) : (State.report s code subj det).bank q = s.bank q := rfl
@[simp] theorem State.report_die (s : State) (code : Nat) (subj : Nat) (det : Bytes) (q : Nat) : (State.report s code subj det).die q = s.die q := rfl
@[simp] theorem State.report_br (s : State) (code : Nat) (subj : Nat) (det : Bytes) (q : Nat) : (State.report s code subj det).br q = s.br q := rfl
@[simp] theorem State.report_pt (s : State) (code : Nat) (subj : Nat) (det : Bytes) (q : Nat) : (State.report s code subj det).pt q = s.pt q := rfl
@[simp] theorem State.report_sp (s : State) (code : Nat) (subj : Nat) (det : Bytes) (q : Nat) : (State.report s code subj det).sp q = s.sp q := rfl
@[simp] theorem State.report_ld (s : State) (code : Nat) (subj : Nat) (det : Bytes) (q : Nat) : (State.report s code subj det).ld q = s.ld q := rfl
@[simp] theorem State.report_lp (s : State) (code : Nat) (subj : Nat) (det : Bytes) (q : Nat) : (State.report s code subj det).lp q = s.lp q := rfl
@[simp] theorem State.report_pulse (s : State) (code : Nat) (subj : Nat) (det : Bytes) (q : Nat) : (State.report s code subj det).pulse q = s.pulse q := rfl
@[simp] theorem State.report_hall (s : State) (code : Nat) (subj : Nat) (det : Bytes) (q : Nat) : (State.report s code subj det).hall q = s.hall q := rfl
@[simp] theorem State.report_uart (s : State) (code : Nat) (subj : Nat) (det : Bytes) (q : Nat) : (State.report s code subj det).uart q = s.uart q := rfl
@[simp] theorem State.report_hank (s : State) (code : Nat) (subj : Nat) (det : Bytes) (q : Nat) : (State.report s code subj det).hank q = s.hank q := rfl
@[simp] theorem State.report_engine (s : State) (code : Nat) (subj : Nat) (det : Bytes) (q : Nat) : (State.report s code subj det).engine q = s.engine q := rfl
@[simp] theorem State.report_outp (s : State) (code : Nat) (subj : Nat) (det : Bytes) (q : Nat) : (State.report s code subj det).outp q = s.outp q := rfl
@[simp] theorem State.report_pN (s : State) (code : Nat) (subj : Nat) (det : Bytes) (q q' : Nat) : (State.report s code subj det).pN q q' = s.pN q q' := rfl
@[simp] theorem State.report_pI (s : State) (code : Nat) (subj : Nat) (det : Bytes) (q q' : Nat) : (State.report s code subj det).pI q q' = s.pI q q' := rfl
@[simp] theorem State.report_pB (s : State) (code : Nat) (subj : Nat) (det : Bytes) (q q' : Nat) : (State.report s code subj det).pB q q' = s.pB q q' := rfl

/-! ### State.modCh -/

@[simp] theorem State.modCh_ch_same (s : State) (n : Nat) (f : Channel → Channel) (hi : n < 128) :
    (State.modCh s n f).ch n = f (s.ch n) := vget_vmod_same _ _ _ _ hi
@[simp] theorem State.modCh_ch_other (s : State) (n : Nat) (f : Channel → Channel) (q : Nat) (hq : q ≠ n) :
    (State.modCh s n f).ch q = s.ch q := vget_vmod_other _ _ _ _ _ (Ne.symm hq)
@[simp] theorem State.modCh_bank (s : State) (n : Nat) (f : Channel → Channel) (q : Nat) : (State.modCh s n f).bank q = s.bank q := rfl
@[simp] theorem State.modCh_die (s : State) (n : Nat) (f : Channel → Channel) (q : Nat) : (State.modCh s n f).die q = s.die q := rfl
@[simp] theorem State.modCh_br (s : State) (n : Nat) (f : Channel → Channel) (q : Nat) : (State.modCh s n f).br q = s.br q := rfl
@[simp] theorem State.modCh_pt (s : State) (n : Nat) (f : Channel → Channel) (q : Nat) : (State.modCh s n f).pt q = s.pt q := rfl
@[simp] theorem State.modCh_sp (s : State) (n : Nat) (f : Channel → Channel) (q : Nat) : (State.modCh s n f).sp q = s.sp q := rfl
@[simp] theorem State.modCh_ld (s : State) (n : Nat) (f : Channel → Channel) (q : Nat) : (State.modCh s n f).ld q = s.ld q := rfl
@[simp] theorem State.modCh_lp (s : State) (n : Nat) (f : Channel → Channel) (q : Nat) : (State.modCh s n f).lp q = s.lp q := rfl
@[simp] theorem State.modCh_pulse (s : State) (n : Nat) (f : Channel → Channel) (q : Nat) : (State.modCh s n f).pulse q = s.pulse q := rfl
@[simp] theorem State.modCh_hall (s : State) (n : Nat) (f : Channel → Channel) (q : Nat) : (State.modCh s n f).hall q = s.hall q := rfl
@[simp] theorem State.modCh_uart (s : State) (n : Nat) (f : Channel → Channel) (q : Nat) : (State.modCh s n f).uart q = s.uart q := rfl
@[simp] theorem State.modCh_hank (s : State) (n : Nat) (f : Channel → Channel) (q : Nat) : (State.modCh s n f).hank q = s.hank q := rfl
@[simp] theorem State.modCh_engine (s : State) (n : Nat) (f : Channel → Channel) (q : Nat) : (State.modCh s n f).engine q = s.engine q := rfl
@[simp] theorem State.modCh_outp (s : State) (n : Nat) (f : Channel → Channel) (q : Nat) : (State.modCh s n f).outp q = s.outp q := rfl
@[simp] theorem State.modCh_pN (s : State) (n : Nat) (f : Channel → Channel) (q q' : Nat) : (State.modCh s n f).pN q q' = s.pN q q' := rfl
@[simp] theorem State.modCh_pI (s : State) (n : Nat) (f : Channel → Channel) (q q' : Nat) : (State.modCh s n f).pI q q' = s.pI q q' := rfl
@[simp] theorem State.modCh_pB (s : State) (n : Nat) (f : Channel → Channel) (q q' : Nat) : (State.modCh s n f).pB q q' = s.pB q q' := rfl

/-! ### State.modBank -/

@[simp] theorem State.modBank_ch (s : State) (b : Nat) (f : Bank → Bank) (q : Nat) : (State.modBank s b f).ch q = s.ch q := rfl
@[simp] theorem State.modBank_bank_same (s : State) (b : Nat) (f : Bank → Bank) (hi : b < 16) :
    (State.modBank s b f).bank b = f (s.bank b) := vget_vmod_same _ _ _ _ hi
@[simp] theorem State.modBank_bank_other (s : State) (b : Nat) (f : Bank → Bank) (q : Nat) (hq : q ≠ b) :
    (State.modBank s b f).bank q = s.bank q := vget_vmod_other _ _ _ _ _ (Ne.symm hq)
@[simp] theorem State.modBank_die (s : State) (b : Nat) (f : Bank → Bank) (q : Nat) : (State.modBank s b f).die q = s.die q := rfl
@[simp] theorem State.modBank_br (s : State) (b : Nat) (f : Bank → Bank) (q : Nat) : (State.modBank s b f).br q = s.br q := rfl
@[simp] theorem State.modBank_pt (s : State) (b : Nat) (f : Bank → Bank) (q : Nat) : (State.modBank s b f).pt q = s.pt q := rfl
@[simp] theorem State.modBank_sp (s : State) (b : Nat) (f : Bank → Bank) (q : Nat) : (State.modBank s b f).sp q = s.sp q := rfl
@[simp] theorem State.modBank_ld (s : State) (b : Nat) (f : Bank → Bank) (q : Nat) : (State.modBank s b f).ld q = s.ld q := rfl
@[simp] theorem State.modBank_lp (s : State) (b : Nat) (f : Bank → Bank) (q : Nat) : (State.modBank s b f).lp q = s.lp q := rfl
@[simp] theorem State.modBank_pulse (s : State) (b : Nat) (f : Bank → Bank) (q : Nat) : (State.modBank s b f).pulse q = s.pulse q := rfl
@[simp] theorem State.modBank_hall (s : State) (b : Nat) (f : Bank → Bank) (q : Nat) : (State.modBank s b f).hall q = s.hall q := rfl
@[simp] theorem State.modBank_uart (s : State) (b : Nat) (f : Bank → Bank) (q : Nat) : (State.modBank s b f).uart q = s.uart q := rfl
@[simp] theorem State.modBank_hank (s : State) (b : Nat) (f : Bank → Bank) (q : Nat) : (State.modBank s b f).hank q = s.hank q := rfl
@[simp] theorem State.modBank_engine (s : State) (b : Nat) (f : Bank → Bank) (q : Nat) : (State.modBank s b f).engine q = s.engine q := rfl
@[simp] theorem State.modBank_outp (s : State) (b : Nat) (f : Bank → Bank) (q : Nat) : (State.modBank s b f).outp q = s.outp q := rfl
@[simp] theorem State.modBank_pN (s : State) (b : Nat) (f : Bank → Bank) (q q' : Nat) : (State.modBank s b f).pN q q' = s.pN q q' := rfl
@[simp] theorem State.modBank_pI (s : State) (b : Nat) (f : Bank → Bank) (q q' : Nat) : (State.modBank s b f).pI q q' = s.pI q q' := rfl
@[simp] theorem State.modBank_pB (s : State) (b : Nat) (f : Bank → Bank) (q q' : Nat) : (State.modBank s b f).pB q q' = s.pB q q' := rfl

/-! ### State.modDie -/

@[simp] theorem State.modDie_ch (s : State) (d : Nat) (f : Die → Die) (q : Nat) : (State.modDie s d f).ch q = s.ch q := rfl
@[simp] theorem State.modDie_bank (s : State) (d : Nat) (f : Die → Die) (q : Nat) : (State.modDie s d f).bank q = s.bank q := rfl
@[simp] theorem State.modDie_die_same (s : State) (d : Nat) (f : Die → Die) (hi : d < 4) :
    (State.modDie s d f).die d = f (s.die d) := vget_vmod_same _ _ _ _ hi
@[simp] theorem State.modDie_die_other (s : State) (d : Nat) (f : Die → Die) (q : Nat) (hq : q ≠ d) :
    (State.modDie s d f).die q = s.die q := vget_vmod_other _ _ _ _ _ (Ne.symm hq)
@[simp] theorem State.modDie_br (s : State) (d : Nat) (f : Die → Die) (q : Nat) : (State.modDie s d f).br q = s.br q := rfl
@[simp] theorem State.modDie_pt (s : State) (d : Nat) (f : Die → Die) (q : Nat) : (State.modDie s d f).pt q = s.pt q := rfl
@[simp] theorem State.modDie_sp (s : State) (d : Nat) (f : Die → Die) (q : Nat) : (State.modDie s d f).sp q = s.sp q := rfl
@[simp] theorem State.modDie_ld (s : State) (d : Nat) (f : Die → Die) (q : Nat) : (State.modDie s d f).ld q = s.ld q := rfl
@[simp] theorem State.modDie_lp (s : State) (d : Nat) (f : Die → Die) (q : Nat) : (State.modDie s d f).lp q = s.lp q := rfl
@[simp] theorem State.modDie_pulse (s : State) (d : Nat) (f : Die → Die) (q : Nat) : (State.modDie s d f).pulse q = s.pulse q := rfl
@[simp] theorem State.modDie_hall (s : State) (d : Nat) (f : Die → Die) (q : Nat) : (State.modDie s d f).hall q = s.hall q := rfl
@[simp] theorem State.modDie_uart (s : State) (d : Nat) (f : Die → Die) (q : Nat) : (State.modDie s d f).uart q = s.uart q := rfl
@[simp] theorem State.modDie_hank (s : State) (d : Nat) (f : Die → Die) (q : Nat) : (State.modDie s d f).hank q = s.hank q := rfl
@[simp] theorem State.modDie_engine (s : State) (d : Nat) (f : Die → Die) (q : Nat) : (State.modDie s d f).engine q = s.engine q := rfl
@[simp] theorem State.modDie_outp (s : State) (d : Nat) (f : Die → Die) (q : Nat) : (State.modDie s d f).outp q = s.outp q := rfl
@[simp] theorem State.modDie_pN (s : State) (d : Nat) (f : Die → Die) (q q' : Nat) : (State.modDie s d f).pN q q' = s.pN q q' := rfl
@[simp] theorem State.modDie_pI (s : State) (d : Nat) (f : Die → Die) (q q' : Nat) : (State.modDie s d f).pI q q' = s.pI q q' := rfl
@[simp] theorem State.modDie_pB (s : State) (d : Nat) (f : Die → Die) (q q' : Nat) : (State.modDie s d f).pB q q' = s.pB q q' := rfl

/-! ### State.modBob -/

@[simp] theorem State.modBob_ch (s : State) (f : Bobbin → Bobbin) (q : Nat) : (State.modBob s f).ch q = s.ch q := rfl
@[simp] theorem State.modBob_bank (s : State) (f : Bobbin → Bobbin) (q : Nat) : (State.modBob s f).bank q = s.bank q := rfl
@[simp] theorem State.modBob_die (s : State) (f : Bobbin → Bobbin) (q : Nat) : (State.modBob s f).die q = s.die q := rfl
@[simp] theorem State.modBob_br (s : State) (f : Bobbin → Bobbin) (q : Nat) : (State.modBob s f).br q = s.br q := rfl
@[simp] theorem State.modBob_pt (s : State) (f : Bobbin → Bobbin) (q : Nat) : (State.modBob s f).pt q = s.pt q := rfl
@[simp] theorem State.modBob_sp (s : State) (f : Bobbin → Bobbin) (q : Nat) : (State.modBob s f).sp q = s.sp q := rfl
@[simp] theorem State.modBob_ld (s : State) (f : Bobbin → Bobbin) (q : Nat) : (State.modBob s f).ld q = s.ld q := rfl
@[simp] theorem State.modBob_lp (s : State) (f : Bobbin → Bobbin) (q : Nat) : (State.modBob s f).lp q = s.lp q := rfl
@[simp] theorem State.modBob_pulse (s : State) (f : Bobbin → Bobbin) (q : Nat) : (State.modBob s f).pulse q = s.pulse q := rfl
@[simp] theorem State.modBob_hall (s : State) (f : Bobbin → Bobbin) (q : Nat) : (State.modBob s f).hall q = s.hall q := rfl
@[simp] theorem State.modBob_uart (s : State) (f : Bobbin → Bobbin) (q : Nat) : (State.modBob s f).uart q = s.uart q := rfl
@[simp] theorem State.modBob_hank (s : State) (f : Bobbin → Bobbin) (q : Nat) : (State.modBob s f).hank q = s.hank q := rfl
@[simp] theorem State.modBob_engine (s : State) (f : Bobbin → Bobbin) (q : Nat) : (State.modBob s f).engine q = s.engine q := rfl
@[simp] theorem State.modBob_outp (s : State) (f : Bobbin → Bobbin) (q : Nat) : (State.modBob s f).outp q = s.outp q := rfl
@[simp] theorem State.modBob_pN (s : State) (f : Bobbin → Bobbin) (q q' : Nat) : (State.modBob s f).pN q q' = s.pN q q' := rfl
@[simp] theorem State.modBob_pI (s : State) (f : Bobbin → Bobbin) (q q' : Nat) : (State.modBob s f).pI q q' = s.pI q q' := rfl
@[simp] theorem State.modBob_pB (s : State) (f : Bobbin → Bobbin) (q q' : Nat) : (State.modBob s f).pB q q' = s.pB q q' := rfl

/-! ### State.modTherm -/

@[simp] theorem State.modTherm_ch (s : State) (f : Thermal → Thermal) (q : Nat) : (State.modTherm s f).ch q = s.ch q := rfl
@[simp] theorem State.modTherm_bank (s : State) (f : Thermal → Thermal) (q : Nat) : (State.modTherm s f).bank q = s.bank q := rfl
@[simp] theorem State.modTherm_die (s : State) (f : Thermal → Thermal) (q : Nat) : (State.modTherm s f).die q = s.die q := rfl
@[simp] theorem State.modTherm_br (s : State) (f : Thermal → Thermal) (q : Nat) : (State.modTherm s f).br q = s.br q := rfl
@[simp] theorem State.modTherm_pt (s : State) (f : Thermal → Thermal) (q : Nat) : (State.modTherm s f).pt q = s.pt q := rfl
@[simp] theorem State.modTherm_sp (s : State) (f : Thermal → Thermal) (q : Nat) : (State.modTherm s f).sp q = s.sp q := rfl
@[simp] theorem State.modTherm_ld (s : State) (f : Thermal → Thermal) (q : Nat) : (State.modTherm s f).ld q = s.ld q := rfl
@[simp] theorem State.modTherm_lp (s : State) (f : Thermal → Thermal) (q : Nat) : (State.modTherm s f).lp q = s.lp q := rfl
@[simp] theorem State.modTherm_pulse (s : State) (f : Thermal → Thermal) (q : Nat) : (State.modTherm s f).pulse q = s.pulse q := rfl
@[simp] theorem State.modTherm_hall (s : State) (f : Thermal → Thermal) (q : Nat) : (State.modTherm s f).hall q = s.hall q := rfl
@[simp] theorem State.modTherm_uart (s : State) (f : Thermal → Thermal) (q : Nat) : (State.modTherm s f).uart q = s.uart q := rfl
@[simp] theorem State.modTherm_hank (s : State) (f : Thermal → Thermal) (q : Nat) : (State.modTherm s f).hank q = s.hank q := rfl
@[simp] theorem State.modTherm_engine (s : State) (f : Thermal → Thermal) (q : Nat) : (State.modTherm s f).engine q = s.engine q := rfl
@[simp] theorem State.modTherm_outp (s : State) (f : Thermal → Thermal) (q : Nat) : (State.modTherm s f).outp q = s.outp q := rfl
@[simp] theorem State.modTherm_pN (s : State) (f : Thermal → Thermal) (q q' : Nat) : (State.modTherm s f).pN q q' = s.pN q q' := rfl
@[simp] theorem State.modTherm_pI (s : State) (f : Thermal → Thermal) (q q' : Nat) : (State.modTherm s f).pI q q' = s.pI q q' := rfl
@[simp] theorem State.modTherm_pB (s : State) (f : Thermal → Thermal) (q q' : Nat) : (State.modTherm s f).pB q q' = s.pB q q' := rfl

/-! ### State.modBr -/

@[simp] theorem State.modBr_ch (s : State) (h : Nat) (f : Bridge → Bridge) (q : Nat) : (State.modBr s h f).ch q = s.ch q := rfl
@[simp] theorem State.modBr_bank (s : State) (h : Nat) (f : Bridge → Bridge) (q : Nat) : (State.modBr s h f).bank q = s.bank q := rfl
@[simp] theorem State.modBr_die (s : State) (h : Nat) (f : Bridge → Bridge) (q : Nat) : (State.modBr s h f).die q = s.die q := rfl
@[simp] theorem State.modBr_br_same (s : State) (h : Nat) (f : Bridge → Bridge) (hi : h < 4) :
    (State.modBr s h f).br h = f (s.br h) := vget_vmod_same _ _ _ _ hi
@[simp] theorem State.modBr_br_other (s : State) (h : Nat) (f : Bridge → Bridge) (q : Nat) (hq : q ≠ h) :
    (State.modBr s h f).br q = s.br q := vget_vmod_other _ _ _ _ _ (Ne.symm hq)
@[simp] theorem State.modBr_pt (s : State) (h : Nat) (f : Bridge → Bridge) (q : Nat) : (State.modBr s h f).pt q = s.pt q := rfl
@[simp] theorem State.modBr_sp (s : State) (h : Nat) (f : Bridge → Bridge) (q : Nat) : (State.modBr s h f).sp q = s.sp q := rfl
@[simp] theorem State.modBr_ld (s : State) (h : Nat) (f : Bridge → Bridge) (q : Nat) : (State.modBr s h f).ld q = s.ld q := rfl
@[simp] theorem State.modBr_lp (s : State) (h : Nat) (f : Bridge → Bridge) (q : Nat) : (State.modBr s h f).lp q = s.lp q := rfl
@[simp] theorem State.modBr_pulse (s : State) (h : Nat) (f : Bridge → Bridge) (q : Nat) : (State.modBr s h f).pulse q = s.pulse q := rfl
@[simp] theorem State.modBr_hall (s : State) (h : Nat) (f : Bridge → Bridge) (q : Nat) : (State.modBr s h f).hall q = s.hall q := rfl
@[simp] theorem State.modBr_uart (s : State) (h : Nat) (f : Bridge → Bridge) (q : Nat) : (State.modBr s h f).uart q = s.uart q := rfl
@[simp] theorem State.modBr_hank (s : State) (h : Nat) (f : Bridge → Bridge) (q : Nat) : (State.modBr s h f).hank q = s.hank q := rfl
@[simp] theorem State.modBr_engine (s : State) (h : Nat) (f : Bridge → Bridge) (q : Nat) : (State.modBr s h f).engine q = s.engine q := rfl
@[simp] theorem State.modBr_outp (s : State) (h : Nat) (f : Bridge → Bridge) (q : Nat) : (State.modBr s h f).outp q = s.outp q := rfl
@[simp] theorem State.modBr_pN (s : State) (h : Nat) (f : Bridge → Bridge) (q q' : Nat) : (State.modBr s h f).pN q q' = s.pN q q' := rfl
@[simp] theorem State.modBr_pI (s : State) (h : Nat) (f : Bridge → Bridge) (q q' : Nat) : (State.modBr s h f).pI q q' = s.pI q q' := rfl
@[simp] theorem State.modBr_pB (s : State) (h : Nat) (f : Bridge → Bridge) (q q' : Nat) : (State.modBr s h f).pB q q' = s.pB q q' := rfl

/-! ### State.modPt -/

@[simp] theorem State.modPt_ch (s : State) (g : Nat) (f : Port → Port) (q : Nat) : (State.modPt s g f).ch q = s.ch q := rfl
@[simp] theorem State.modPt_bank (s : State) (g : Nat) (f : Port → Port) (q : Nat) : (State.modPt s g f).bank q = s.bank q := rfl
@[simp] theorem State.modPt_die (s : State) (g : Nat) (f : Port → Port) (q : Nat) : (State.modPt s g f).die q = s.die q := rfl
@[simp] theorem State.modPt_br (s : State) (g : Nat) (f : Port → Port) (q : Nat) : (State.modPt s g f).br q = s.br q := rfl
@[simp] theorem State.modPt_pt_same (s : State) (g : Nat) (f : Port → Port) (hi : g < 2) :
    (State.modPt s g f).pt g = f (s.pt g) := vget_vmod_same _ _ _ _ hi
@[simp] theorem State.modPt_pt_other (s : State) (g : Nat) (f : Port → Port) (q : Nat) (hq : q ≠ g) :
    (State.modPt s g f).pt q = s.pt q := vget_vmod_other _ _ _ _ _ (Ne.symm hq)
@[simp] theorem State.modPt_sp (s : State) (g : Nat) (f : Port → Port) (q : Nat) : (State.modPt s g f).sp q = s.sp q := rfl
@[simp] theorem State.modPt_ld (s : State) (g : Nat) (f : Port → Port) (q : Nat) : (State.modPt s g f).ld q = s.ld q := rfl
@[simp] theorem State.modPt_lp (s : State) (g : Nat) (f : Port → Port) (q : Nat) : (State.modPt s g f).lp q = s.lp q := rfl
@[simp] theorem State.modPt_pulse (s : State) (g : Nat) (f : Port → Port) (q : Nat) : (State.modPt s g f).pulse q = s.pulse q := rfl
@[simp] theorem State.modPt_hall (s : State) (g : Nat) (f : Port → Port) (q : Nat) : (State.modPt s g f).hall q = s.hall q := rfl
@[simp] theorem State.modPt_uart (s : State) (g : Nat) (f : Port → Port) (q : Nat) : (State.modPt s g f).uart q = s.uart q := rfl
@[simp] theorem State.modPt_hank (s : State) (g : Nat) (f : Port → Port) (q : Nat) : (State.modPt s g f).hank q = s.hank q := rfl
@[simp] theorem State.modPt_engine (s : State) (g : Nat) (f : Port → Port) (q : Nat) : (State.modPt s g f).engine q = s.engine q := rfl
@[simp] theorem State.modPt_outp (s : State) (g : Nat) (f : Port → Port) (q : Nat) : (State.modPt s g f).outp q = s.outp q := rfl
@[simp] theorem State.modPt_pN (s : State) (g : Nat) (f : Port → Port) (q q' : Nat) : (State.modPt s g f).pN q q' = s.pN q q' := rfl
@[simp] theorem State.modPt_pI (s : State) (g : Nat) (f : Port → Port) (q q' : Nat) : (State.modPt s g f).pI q q' = s.pI q q' := rfl
@[simp] theorem State.modPt_pB (s : State) (g : Nat) (f : Port → Port) (q q' : Nat) : (State.modPt s g f).pB q q' = s.pB q q' := rfl

/-! ### State.modSp -/

@[simp] theorem State.modSp_ch (s : State) (k : Nat) (f : Spinner → Spinner) (q : Nat) : (State.modSp s k f).ch q = s.ch q := rfl
@[simp] theorem State.modSp_bank (s : State) (k : Nat) (f : Spinner → Spinner) (q : Nat) : (State.modSp s k f).bank q = s.bank q := rfl
@[simp] theorem State.modSp_die (s : State) (k : Nat) (f : Spinner → Spinner) (q : Nat) : (State.modSp s k f).die q = s.die q := rfl
@[simp] theorem State.modSp_br (s : State) (k : Nat) (f : Spinner → Spinner) (q : Nat) : (State.modSp s k f).br q = s.br q := rfl
@[simp] theorem State.modSp_pt (s : State) (k : Nat) (f : Spinner → Spinner) (q : Nat) : (State.modSp s k f).pt q = s.pt q := rfl
@[simp] theorem State.modSp_sp_same (s : State) (k : Nat) (f : Spinner → Spinner) (hi : k < 16) :
    (State.modSp s k f).sp k = f (s.sp k) := vget_vmod_same _ _ _ _ hi
@[simp] theorem State.modSp_sp_other (s : State) (k : Nat) (f : Spinner → Spinner) (q : Nat) (hq : q ≠ k) :
    (State.modSp s k f).sp q = s.sp q := vget_vmod_other _ _ _ _ _ (Ne.symm hq)
@[simp] theorem State.modSp_ld (s : State) (k : Nat) (f : Spinner → Spinner) (q : Nat) : (State.modSp s k f).ld q = s.ld q := rfl
@[simp] theorem State.modSp_lp (s : State) (k : Nat) (f : Spinner → Spinner) (q : Nat) : (State.modSp s k f).lp q = s.lp q := rfl
@[simp] theorem State.modSp_pulse (s : State) (k : Nat) (f : Spinner → Spinner) (q : Nat) : (State.modSp s k f).pulse q = s.pulse q := rfl
@[simp] theorem State.modSp_hall (s : State) (k : Nat) (f : Spinner → Spinner) (q : Nat) : (State.modSp s k f).hall q = s.hall q := rfl
@[simp] theorem State.modSp_uart (s : State) (k : Nat) (f : Spinner → Spinner) (q : Nat) : (State.modSp s k f).uart q = s.uart q := rfl
@[simp] theorem State.modSp_hank (s : State) (k : Nat) (f : Spinner → Spinner) (q : Nat) : (State.modSp s k f).hank q = s.hank q := rfl
@[simp] theorem State.modSp_engine (s : State) (k : Nat) (f : Spinner → Spinner) (q : Nat) : (State.modSp s k f).engine q = s.engine q := rfl
@[simp] theorem State.modSp_outp (s : State) (k : Nat) (f : Spinner → Spinner) (q : Nat) : (State.modSp s k f).outp q = s.outp q := rfl
@[simp] theorem State.modSp_pN (s : State) (k : Nat) (f : Spinner → Spinner) (q q' : Nat) : (State.modSp s k f).pN q q' = s.pN q q' := rfl
@[simp] theorem State.modSp_pI (s : State) (k : Nat) (f : Spinner → Spinner) (q q' : Nat) : (State.modSp s k f).pI q q' = s.pI q q' := rfl
@[simp] theorem State.modSp_pB (s : State) (k : Nat) (f : Spinner → Spinner) (q q' : Nat) : (State.modSp s k f).pB q q' = s.pB q q' := rfl

/-! ### State.modLd -/

@[simp] theorem State.modLd_ch (s : State) (j : Nat) (f : Load → Load) (q : Nat) : (State.modLd s j f).ch q = s.ch q := rfl
@[simp] theorem State.modLd_bank (s : State) (j : Nat) (f : Load → Load) (q : Nat) : (State.modLd s j f).bank q = s.bank q := rfl
@[simp] theorem State.modLd_die (s : State) (j : Nat) (f : Load → Load) (q : Nat) : (State.modLd s j f).die q = s.die q := rfl
@[simp] theorem State.modLd_br (s : State) (j : Nat) (f : Load → Load) (q : Nat) : (State.modLd s j f).br q = s.br q := rfl
@[simp] theorem State.modLd_pt (s : State) (j : Nat) (f : Load → Load) (q : Nat) : (State.modLd s j f).pt q = s.pt q := rfl
@[simp] theorem State.modLd_sp (s : State) (j : Nat) (f : Load → Load) (q : Nat) : (State.modLd s j f).sp q = s.sp q := rfl
@[simp] theorem State.modLd_ld_same (s : State) (j : Nat) (f : Load → Load) (hi : j < 16) :
    (State.modLd s j f).ld j = f (s.ld j) := vget_vmod_same _ _ _ _ hi
@[simp] theorem State.modLd_ld_other (s : State) (j : Nat) (f : Load → Load) (q : Nat) (hq : q ≠ j) :
    (State.modLd s j f).ld q = s.ld q := vget_vmod_other _ _ _ _ _ (Ne.symm hq)
@[simp] theorem State.modLd_lp (s : State) (j : Nat) (f : Load → Load) (q : Nat) : (State.modLd s j f).lp q = s.lp q := rfl
@[simp] theorem State.modLd_pulse (s : State) (j : Nat) (f : Load → Load) (q : Nat) : (State.modLd s j f).pulse q = s.pulse q := rfl
@[simp] theorem State.modLd_hall (s : State) (j : Nat) (f : Load → Load) (q : Nat) : (State.modLd s j f).hall q = s.hall q := rfl
@[simp] theorem State.modLd_uart (s : State) (j : Nat) (f : Load → Load) (q : Nat) : (State.modLd s j f).uart q = s.uart q := rfl
@[simp] theorem State.modLd_hank (s : State) (j : Nat) (f : Load → Load) (q : Nat) : (State.modLd s j f).hank q = s.hank q := rfl
@[simp] theorem State.modLd_engine (s : State) (j : Nat) (f : Load → Load) (q : Nat) : (State.modLd s j f).engine q = s.engine q := rfl
@[simp] theorem State.modLd_outp (s : State) (j : Nat) (f : Load → Load) (q : Nat) : (State.modLd s j f).outp q = s.outp q := rfl
@[simp] theorem State.modLd_pN (s : State) (j : Nat) (f : Load → Load) (q q' : Nat) : (State.modLd s j f).pN q q' = s.pN q q' := rfl
@[simp] theorem State.modLd_pI (s : State) (j : Nat) (f : Load → Load) (q q' : Nat) : (State.modLd s j f).pI q q' = s.pI q q' := rfl
@[simp] theorem State.modLd_pB (s : State) (j : Nat) (f : Load → Load) (q q' : Nat) : (State.modLd s j f).pB q q' = s.pB q q' := rfl

/-! ### State.modLp -/

@[simp] theorem State.modLp_ch (s : State) (w : Nat) (f : Loop → Loop) (q : Nat) : (State.modLp s w f).ch q = s.ch q := rfl
@[simp] theorem State.modLp_bank (s : State) (w : Nat) (f : Loop → Loop) (q : Nat) : (State.modLp s w f).bank q = s.bank q := rfl
@[simp] theorem State.modLp_die (s : State) (w : Nat) (f : Loop → Loop) (q : Nat) : (State.modLp s w f).die q = s.die q := rfl
@[simp] theorem State.modLp_br (s : State) (w : Nat) (f : Loop → Loop) (q : Nat) : (State.modLp s w f).br q = s.br q := rfl
@[simp] theorem State.modLp_pt (s : State) (w : Nat) (f : Loop → Loop) (q : Nat) : (State.modLp s w f).pt q = s.pt q := rfl
@[simp] theorem State.modLp_sp (s : State) (w : Nat) (f : Loop → Loop) (q : Nat) : (State.modLp s w f).sp q = s.sp q := rfl
@[simp] theorem State.modLp_ld (s : State) (w : Nat) (f : Loop → Loop) (q : Nat) : (State.modLp s w f).ld q = s.ld q := rfl
@[simp] theorem State.modLp_lp_same (s : State) (w : Nat) (f : Loop → Loop) (hi : w < 8) :
    (State.modLp s w f).lp w = f (s.lp w) := vget_vmod_same _ _ _ _ hi
@[simp] theorem State.modLp_lp_other (s : State) (w : Nat) (f : Loop → Loop) (q : Nat) (hq : q ≠ w) :
    (State.modLp s w f).lp q = s.lp q := vget_vmod_other _ _ _ _ _ (Ne.symm hq)
@[simp] theorem State.modLp_pulse (s : State) (w : Nat) (f : Loop → Loop) (q : Nat) : (State.modLp s w f).pulse q = s.pulse q := rfl
@[simp] theorem State.modLp_hall (s : State) (w : Nat) (f : Loop → Loop) (q : Nat) : (State.modLp s w f).hall q = s.hall q := rfl
@[simp] theorem State.modLp_uart (s : State) (w : Nat) (f : Loop → Loop) (q : Nat) : (State.modLp s w f).uart q = s.uart q := rfl
@[simp] theorem State.modLp_hank (s : State) (w : Nat) (f : Loop → Loop) (q : Nat) : (State.modLp s w f).hank q = s.hank q := rfl
@[simp] theorem State.modLp_engine (s : State) (w : Nat) (f : Loop → Loop) (q : Nat) : (State.modLp s w f).engine q = s.engine q := rfl
@[simp] theorem State.modLp_outp (s : State) (w : Nat) (f : Loop → Loop) (q : Nat) : (State.modLp s w f).outp q = s.outp q := rfl
@[simp] theorem State.modLp_pN (s : State) (w : Nat) (f : Loop → Loop) (q q' : Nat) : (State.modLp s w f).pN q q' = s.pN q q' := rfl
@[simp] theorem State.modLp_pI (s : State) (w : Nat) (f : Loop → Loop) (q q' : Nat) : (State.modLp s w f).pI q q' = s.pI q q' := rfl
@[simp] theorem State.modLp_pB (s : State) (w : Nat) (f : Loop → Loop) (q q' : Nat) : (State.modLp s w f).pB q q' = s.pB q q' := rfl

/-! ### State.modPulse -/

@[simp] theorem State.modPulse_ch (s : State) (i : Nat) (f : Pulse → Pulse) (q : Nat) : (State.modPulse s i f).ch q = s.ch q := rfl
@[simp] theorem State.modPulse_bank (s : State) (i : Nat) (f : Pulse → Pulse) (q : Nat) : (State.modPulse s i f).bank q = s.bank q := rfl
@[simp] theorem State.modPulse_die (s : State) (i : Nat) (f : Pulse → Pulse) (q : Nat) : (State.modPulse s i f).die q = s.die q := rfl
@[simp] theorem State.modPulse_br (s : State) (i : Nat) (f : Pulse → Pulse) (q : Nat) : (State.modPulse s i f).br q = s.br q := rfl
@[simp] theorem State.modPulse_pt (s : State) (i : Nat) (f : Pulse → Pulse) (q : Nat) : (State.modPulse s i f).pt q = s.pt q := rfl
@[simp] theorem State.modPulse_sp (s : State) (i : Nat) (f : Pulse → Pulse) (q : Nat) : (State.modPulse s i f).sp q = s.sp q := rfl
@[simp] theorem State.modPulse_ld (s : State) (i : Nat) (f : Pulse → Pulse) (q : Nat) : (State.modPulse s i f).ld q = s.ld q := rfl
@[simp] theorem State.modPulse_lp (s : State) (i : Nat) (f : Pulse → Pulse) (q : Nat) : (State.modPulse s i f).lp q = s.lp q := rfl
@[simp] theorem State.modPulse_pulse_same (s : State) (i : Nat) (f : Pulse → Pulse) (hi : i < 8) :
    (State.modPulse s i f).pulse i = f (s.pulse i) := vget_vmod_same _ _ _ _ hi
@[simp] theorem State.modPulse_pulse_other (s : State) (i : Nat) (f : Pulse → Pulse) (q : Nat) (hq : q ≠ i) :
    (State.modPulse s i f).pulse q = s.pulse q := vget_vmod_other _ _ _ _ _ (Ne.symm hq)
@[simp] theorem State.modPulse_hall (s : State) (i : Nat) (f : Pulse → Pulse) (q : Nat) : (State.modPulse s i f).hall q = s.hall q := rfl
@[simp] theorem State.modPulse_uart (s : State) (i : Nat) (f : Pulse → Pulse) (q : Nat) : (State.modPulse s i f).uart q = s.uart q := rfl
@[simp] theorem State.modPulse_hank (s : State) (i : Nat) (f : Pulse → Pulse) (q : Nat) : (State.modPulse s i f).hank q = s.hank q := rfl
@[simp] theorem State.modPulse_engine (s : State) (i : Nat) (f : Pulse → Pulse) (q : Nat) : (State.modPulse s i f).engine q = s.engine q := rfl
@[simp] theorem State.modPulse_outp (s : State) (i : Nat) (f : Pulse → Pulse) (q : Nat) : (State.modPulse s i f).outp q = s.outp q := rfl
@[simp] theorem State.modPulse_pN (s : State) (i : Nat) (f : Pulse → Pulse) (q q' : Nat) : (State.modPulse s i f).pN q q' = s.pN q q' := rfl
@[simp] theorem State.modPulse_pI (s : State) (i : Nat) (f : Pulse → Pulse) (q q' : Nat) : (State.modPulse s i f).pI q q' = s.pI q q' := rfl
@[simp] theorem State.modPulse_pB (s : State) (i : Nat) (f : Pulse → Pulse) (q q' : Nat) : (State.modPulse s i f).pB q q' = s.pB q q' := rfl

/-! ### State.modInert -/

@[simp] theorem State.modInert_ch (s : State) (f : Inertial → Inertial) (q : Nat) : (State.modInert s f).ch q = s.ch q := rfl
@[simp] theorem State.modInert_bank (s : State) (f : Inertial → Inertial) (q : Nat) : (State.modInert s f).bank q = s.bank q := rfl
@[simp] theorem State.modInert_die (s : State) (f : Inertial → Inertial) (q : Nat) : (State.modInert s f).die q = s.die q := rfl
@[simp] theorem State.modInert_br (s : State) (f : Inertial → Inertial) (q : Nat) : (State.modInert s f).br q = s.br q := rfl
@[simp] theorem State.modInert_pt (s : State) (f : Inertial → Inertial) (q : Nat) : (State.modInert s f).pt q = s.pt q := rfl
@[simp] theorem State.modInert_sp (s : State) (f : Inertial → Inertial) (q : Nat) : (State.modInert s f).sp q = s.sp q := rfl
@[simp] theorem State.modInert_ld (s : State) (f : Inertial → Inertial) (q : Nat) : (State.modInert s f).ld q = s.ld q := rfl
@[simp] theorem State.modInert_lp (s : State) (f : Inertial → Inertial) (q : Nat) : (State.modInert s f).lp q = s.lp q := rfl
@[simp] theorem State.modInert_pulse (s : State) (f : Inertial → Inertial) (q : Nat) : (State.modInert s f).pulse q = s.pulse q := rfl
@[simp] theorem State.modInert_hall (s : State) (f : Inertial → Inertial) (q : Nat) : (State.modInert s f).hall q = s.hall q := rfl
@[simp] theorem State.modInert_uart (s : State) (f : Inertial → Inertial) (q : Nat) : (State.modInert s f).uart q = s.uart q := rfl
@[simp] theorem State.modInert_hank (s : State) (f : Inertial → Inertial) (q : Nat) : (State.modInert s f).hank q = s.hank q := rfl
@[simp] theorem State.modInert_engine (s : State) (f : Inertial → Inertial) (q : Nat) : (State.modInert s f).engine q = s.engine q := rfl
@[simp] theorem State.modInert_outp (s : State) (f : Inertial → Inertial) (q : Nat) : (State.modInert s f).outp q = s.outp q := rfl
@[simp] theorem State.modInert_pN (s : State) (f : Inertial → Inertial) (q q' : Nat) : (State.modInert s f).pN q q' = s.pN q q' := rfl
@[simp] theorem State.modInert_pI (s : State) (f : Inertial → Inertial) (q q' : Nat) : (State.modInert s f).pI q q' = s.pI q q' := rfl
@[simp] theorem State.modInert_pB (s : State) (f : Inertial → Inertial) (q q' : Nat) : (State.modInert s f).pB q q' = s.pB q q' := rfl

/-! ### State.modSpd -/

@[simp] theorem State.modSpd_ch (s : State) (f : Spindle → Spindle) (q : Nat) : (State.modSpd s f).ch q = s.ch q := rfl
@[simp] theorem State.modSpd_bank (s : State) (f : Spindle → Spindle) (q : Nat) : (State.modSpd s f).bank q = s.bank q := rfl
@[simp] theorem State.modSpd_die (s : State) (f : Spindle → Spindle) (q : Nat) : (State.modSpd s f).die q = s.die q := rfl
@[simp] theorem State.modSpd_br (s : State) (f : Spindle → Spindle) (q : Nat) : (State.modSpd s f).br q = s.br q := rfl
@[simp] theorem State.modSpd_pt (s : State) (f : Spindle → Spindle) (q : Nat) : (State.modSpd s f).pt q = s.pt q := rfl
@[simp] theorem State.modSpd_sp (s : State) (f : Spindle → Spindle) (q : Nat) : (State.modSpd s f).sp q = s.sp q := rfl
@[simp] theorem State.modSpd_ld (s : State) (f : Spindle → Spindle) (q : Nat) : (State.modSpd s f).ld q = s.ld q := rfl
@[simp] theorem State.modSpd_lp (s : State) (f : Spindle → Spindle) (q : Nat) : (State.modSpd s f).lp q = s.lp q := rfl
@[simp] theorem State.modSpd_pulse (s : State) (f : Spindle → Spindle) (q : Nat) : (State.modSpd s f).pulse q = s.pulse q := rfl
@[simp] theorem State.modSpd_hall (s : State) (f : Spindle → Spindle) (q : Nat) : (State.modSpd s f).hall q = s.hall q := rfl
@[simp] theorem State.modSpd_uart (s : State) (f : Spindle → Spindle) (q : Nat) : (State.modSpd s f).uart q = s.uart q := rfl
@[simp] theorem State.modSpd_hank (s : State) (f : Spindle → Spindle) (q : Nat) : (State.modSpd s f).hank q = s.hank q := rfl
@[simp] theorem State.modSpd_engine (s : State) (f : Spindle → Spindle) (q : Nat) : (State.modSpd s f).engine q = s.engine q := rfl
@[simp] theorem State.modSpd_pN (s : State) (f : Spindle → Spindle) (q q' : Nat) : (State.modSpd s f).pN q q' = s.pN q q' := rfl
@[simp] theorem State.modSpd_pI (s : State) (f : Spindle → Spindle) (q q' : Nat) : (State.modSpd s f).pI q q' = s.pI q q' := rfl
@[simp] theorem State.modSpd_pB (s : State) (f : Spindle → Spindle) (q q' : Nat) : (State.modSpd s f).pB q q' = s.pB q q' := rfl

/-! ### State.modRate -/

@[simp] theorem State.modRate_ch (s : State) (f : RateDose → RateDose) (q : Nat) : (State.modRate s f).ch q = s.ch q := rfl
@[simp] theorem State.modRate_bank (s : State) (f : RateDose → RateDose) (q : Nat) : (State.modRate s f).bank q = s.bank q := rfl
@[simp] theorem State.modRate_die (s : State) (f : RateDose → RateDose) (q : Nat) : (State.modRate s f).die q = s.die q := rfl
@[simp] theorem State.modRate_br (s : State) (f : RateDose → RateDose) (q : Nat) : (State.modRate s f).br q = s.br q := rfl
@[simp] theorem State.modRate_pt (s : State) (f : RateDose → RateDose) (q : Nat) : (State.modRate s f).pt q = s.pt q := rfl
@[simp] theorem State.modRate_sp (s : State) (f : RateDose → RateDose) (q : Nat) : (State.modRate s f).sp q = s.sp q := rfl
@[simp] theorem State.modRate_ld (s : State) (f : RateDose → RateDose) (q : Nat) : (State.modRate s f).ld q = s.ld q := rfl
@[simp] theorem State.modRate_lp (s : State) (f : RateDose → RateDose) (q : Nat) : (State.modRate s f).lp q = s.lp q := rfl
@[simp] theorem State.modRate_pulse (s : State) (f : RateDose → RateDose) (q : Nat) : (State.modRate s f).pulse q = s.pulse q := rfl
@[simp] theorem State.modRate_hall (s : State) (f : RateDose → RateDose) (q : Nat) : (State.modRate s f).hall q = s.hall q := rfl
@[simp] theorem State.modRate_uart (s : State) (f : RateDose → RateDose) (q : Nat) : (State.modRate s f).uart q = s.uart q := rfl
@[simp] theorem State.modRate_hank (s : State) (f : RateDose → RateDose) (q : Nat) : (State.modRate s f).hank q = s.hank q := rfl
@[simp] theorem State.modRate_engine (s : State) (f : RateDose → RateDose) (q : Nat) : (State.modRate s f).engine q = s.engine q := rfl
@[simp] theorem State.modRate_outp (s : State) (f : RateDose → RateDose) (q : Nat) : (State.modRate s f).outp q = s.outp q := rfl
@[simp] theorem State.modRate_pN (s : State) (f : RateDose → RateDose) (q q' : Nat) : (State.modRate s f).pN q q' = s.pN q q' := rfl
@[simp] theorem State.modRate_pI (s : State) (f : RateDose → RateDose) (q q' : Nat) : (State.modRate s f).pI q q' = s.pI q q' := rfl
@[simp] theorem State.modRate_pB (s : State) (f : RateDose → RateDose) (q q' : Nat) : (State.modRate s f).pB q q' = s.pB q q' := rfl

/-! ### State.modDis -/

@[simp] theorem State.modDis_ch (s : State) (f : Distaff → Distaff) (q : Nat) : (State.modDis s f).ch q = s.ch q := rfl
@[simp] theorem State.modDis_bank (s : State) (f : Distaff → Distaff) (q : Nat) : (State.modDis s f).bank q = s.bank q := rfl
@[simp] theorem State.modDis_die (s : State) (f : Distaff → Distaff) (q : Nat) : (State.modDis s f).die q = s.die q := rfl
@[simp] theorem State.modDis_br (s : State) (f : Distaff → Distaff) (q : Nat) : (State.modDis s f).br q = s.br q := rfl
@[simp] theorem State.modDis_pt (s : State) (f : Distaff → Distaff) (q : Nat) : (State.modDis s f).pt q = s.pt q := rfl
@[simp] theorem State.modDis_sp (s : State) (f : Distaff → Distaff) (q : Nat) : (State.modDis s f).sp q = s.sp q := rfl
@[simp] theorem State.modDis_ld (s : State) (f : Distaff → Distaff) (q : Nat) : (State.modDis s f).ld q = s.ld q := rfl
@[simp] theorem State.modDis_lp (s : State) (f : Distaff → Distaff) (q : Nat) : (State.modDis s f).lp q = s.lp q := rfl
@[simp] theorem State.modDis_pulse (s : State) (f : Distaff → Distaff) (q : Nat) : (State.modDis s f).pulse q = s.pulse q := rfl
@[simp] theorem State.modDis_hall (s : State) (f : Distaff → Distaff) (q : Nat) : (State.modDis s f).hall q = s.hall q := rfl
@[simp] theorem State.modDis_uart (s : State) (f : Distaff → Distaff) (q : Nat) : (State.modDis s f).uart q = s.uart q := rfl
@[simp] theorem State.modDis_engine (s : State) (f : Distaff → Distaff) (q : Nat) : (State.modDis s f).engine q = s.engine q := rfl
@[simp] theorem State.modDis_outp (s : State) (f : Distaff → Distaff) (q : Nat) : (State.modDis s f).outp q = s.outp q := rfl
@[simp] theorem State.modDis_pN (s : State) (f : Distaff → Distaff) (q q' : Nat) : (State.modDis s f).pN q q' = s.pN q q' := rfl
@[simp] theorem State.modDis_pI (s : State) (f : Distaff → Distaff) (q q' : Nat) : (State.modDis s f).pI q q' = s.pI q q' := rfl
@[simp] theorem State.modDis_pB (s : State) (f : Distaff → Distaff) (q q' : Nat) : (State.modDis s f).pB q q' = s.pB q q' := rfl

/-! ### State.modSkein -/

@[simp] theorem State.modSkein_ch (s : State) (f : Skein → Skein) (q : Nat) : (State.modSkein s f).ch q = s.ch q := rfl
@[simp] theorem State.modSkein_bank (s : State) (f : Skein → Skein) (q : Nat) : (State.modSkein s f).bank q = s.bank q := rfl
@[simp] theorem State.modSkein_die (s : State) (f : Skein → Skein) (q : Nat) : (State.modSkein s f).die q = s.die q := rfl
@[simp] theorem State.modSkein_br (s : State) (f : Skein → Skein) (q : Nat) : (State.modSkein s f).br q = s.br q := rfl
@[simp] theorem State.modSkein_pt (s : State) (f : Skein → Skein) (q : Nat) : (State.modSkein s f).pt q = s.pt q := rfl
@[simp] theorem State.modSkein_sp (s : State) (f : Skein → Skein) (q : Nat) : (State.modSkein s f).sp q = s.sp q := rfl
@[simp] theorem State.modSkein_ld (s : State) (f : Skein → Skein) (q : Nat) : (State.modSkein s f).ld q = s.ld q := rfl
@[simp] theorem State.modSkein_lp (s : State) (f : Skein → Skein) (q : Nat) : (State.modSkein s f).lp q = s.lp q := rfl
@[simp] theorem State.modSkein_pulse (s : State) (f : Skein → Skein) (q : Nat) : (State.modSkein s f).pulse q = s.pulse q := rfl
@[simp] theorem State.modSkein_hall (s : State) (f : Skein → Skein) (q : Nat) : (State.modSkein s f).hall q = s.hall q := rfl
@[simp] theorem State.modSkein_uart (s : State) (f : Skein → Skein) (q : Nat) : (State.modSkein s f).uart q = s.uart q := rfl
@[simp] theorem State.modSkein_hank (s : State) (f : Skein → Skein) (q : Nat) : (State.modSkein s f).hank q = s.hank q := rfl
@[simp] theorem State.modSkein_engine (s : State) (f : Skein → Skein) (q : Nat) : (State.modSkein s f).engine q = s.engine q := rfl
@[simp] theorem State.modSkein_outp (s : State) (f : Skein → Skein) (q : Nat) : (State.modSkein s f).outp q = s.outp q := rfl
@[simp] theorem State.modSkein_pN (s : State) (f : Skein → Skein) (q q' : Nat) : (State.modSkein s f).pN q q' = s.pN q q' := rfl
@[simp] theorem State.modSkein_pI (s : State) (f : Skein → Skein) (q q' : Nat) : (State.modSkein s f).pI q q' = s.pI q q' := rfl
@[simp] theorem State.modSkein_pB (s : State) (f : Skein → Skein) (q q' : Nat) : (State.modSkein s f).pB q q' = s.pB q q' := rfl

/-! ### State.modSup -/

@[simp] theorem State.modSup_ch (s : State) (f : Super → Super) (q : Nat) : (State.modSup s f).ch q = s.ch q := rfl
@[simp] theorem State.modSup_bank (s : State) (f : Super → Super) (q : Nat) : (State.modSup s f).bank q = s.bank q := rfl
@[simp] theorem State.modSup_die (s : State) (f : Super → Super) (q : Nat) : (State.modSup s f).die q = s.die q := rfl
@[simp] theorem State.modSup_br (s : State) (f : Super → Super) (q : Nat) : (State.modSup s f).br q = s.br q := rfl
@[simp] theorem State.modSup_pt (s : State) (f : Super → Super) (q : Nat) : (State.modSup s f).pt q = s.pt q := rfl
@[simp] theorem State.modSup_sp (s : State) (f : Super → Super) (q : Nat) : (State.modSup s f).sp q = s.sp q := rfl
@[simp] theorem State.modSup_ld (s : State) (f : Super → Super) (q : Nat) : (State.modSup s f).ld q = s.ld q := rfl
@[simp] theorem State.modSup_lp (s : State) (f : Super → Super) (q : Nat) : (State.modSup s f).lp q = s.lp q := rfl
@[simp] theorem State.modSup_pulse (s : State) (f : Super → Super) (q : Nat) : (State.modSup s f).pulse q = s.pulse q := rfl
@[simp] theorem State.modSup_hall (s : State) (f : Super → Super) (q : Nat) : (State.modSup s f).hall q = s.hall q := rfl
@[simp] theorem State.modSup_uart (s : State) (f : Super → Super) (q : Nat) : (State.modSup s f).uart q = s.uart q := rfl
@[simp] theorem State.modSup_hank (s : State) (f : Super → Super) (q : Nat) : (State.modSup s f).hank q = s.hank q := rfl
@[simp] theorem State.modSup_engine (s : State) (f : Super → Super) (q : Nat) : (State.modSup s f).engine q = s.engine q := rfl
@[simp] theorem State.modSup_outp (s : State) (f : Super → Super) (q : Nat) : (State.modSup s f).outp q = s.outp q := rfl
@[simp] theorem State.modSup_pN (s : State) (f : Super → Super) (q q' : Nat) : (State.modSup s f).pN q q' = s.pN q q' := rfl
@[simp] theorem State.modSup_pI (s : State) (f : Super → Super) (q q' : Nat) : (State.modSup s f).pI q q' = s.pI q q' := rfl
@[simp] theorem State.modSup_pB (s : State) (f : Super → Super) (q q' : Nat) : (State.modSup s f).pB q q' = s.pB q q' := rfl

/-! ### State.modPower -/

@[simp] theorem State.modPower_ch (s : State) (f : Power → Power) (q : Nat) : (State.modPower s f).ch q = s.ch q := rfl
@[simp] theorem State.modPower_bank (s : State) (f : Power → Power) (q : Nat) : (State.modPower s f).bank q = s.bank q := rfl
@[simp] theorem State.modPower_die (s : State) (f : Power → Power) (q : Nat) : (State.modPower s f).die q = s.die q := rfl
@[simp] theorem State.modPower_br (s : State) (f : Power → Power) (q : Nat) : (State.modPower s f).br q = s.br q := rfl
@[simp] theorem State.modPower_pt (s : State) (f : Power → Power) (q : Nat) : (State.modPower s f).pt q = s.pt q := rfl
@[simp] theorem State.modPower_sp (s : State) (f : Power → Power) (q : Nat) : (State.modPower s f).sp q = s.sp q := rfl
@[simp] theorem State.modPower_ld (s : State) (f : Power → Power) (q : Nat) : (State.modPower s f).ld q = s.ld q := rfl
@[simp] theorem State.modPower_lp (s : State) (f : Power → Power) (q : Nat) : (State.modPower s f).lp q = s.lp q := rfl
@[simp] theorem State.modPower_pulse (s : State) (f : Power → Power) (q : Nat) : (State.modPower s f).pulse q = s.pulse q := rfl
@[simp] theorem State.modPower_hall (s : State) (f : Power → Power) (q : Nat) : (State.modPower s f).hall q = s.hall q := rfl
@[simp] theorem State.modPower_uart (s : State) (f : Power → Power) (q : Nat) : (State.modPower s f).uart q = s.uart q := rfl
@[simp] theorem State.modPower_hank (s : State) (f : Power → Power) (q : Nat) : (State.modPower s f).hank q = s.hank q := rfl
@[simp] theorem State.modPower_engine (s : State) (f : Power → Power) (q : Nat) : (State.modPower s f).engine q = s.engine q := rfl
@[simp] theorem State.modPower_outp (s : State) (f : Power → Power) (q : Nat) : (State.modPower s f).outp q = s.outp q := rfl
@[simp] theorem State.modPower_pN (s : State) (f : Power → Power) (q q' : Nat) : (State.modPower s f).pN q q' = s.pN q q' := rfl
@[simp] theorem State.modPower_pI (s : State) (f : Power → Power) (q q' : Nat) : (State.modPower s f).pI q q' = s.pI q q' := rfl
@[simp] theorem State.modPower_pB (s : State) (f : Power → Power) (q q' : Nat) : (State.modPower s f).pB q q' = s.pB q q' := rfl

/-! ### State.modCard -/

@[simp] theorem State.modCard_ch (s : State) (f : Carding → Carding) (q : Nat) : (State.modCard s f).ch q = s.ch q := rfl
@[simp] theorem State.modCard_bank (s : State) (f : Carding → Carding) (q : Nat) : (State.modCard s f).bank q = s.bank q := rfl
@[simp] theorem State.modCard_die (s : State) (f : Carding → Carding) (q : Nat) : (State.modCard s f).die q = s.die q := rfl
@[simp] theorem State.modCard_br (s : State) (f : Carding → Carding) (q : Nat) : (State.modCard s f).br q = s.br q := rfl
@[simp] theorem State.modCard_pt (s : State) (f : Carding → Carding) (q : Nat) : (State.modCard s f).pt q = s.pt q := rfl
@[simp] theorem State.modCard_sp (s : State) (f : Carding → Carding) (q : Nat) : (State.modCard s f).sp q = s.sp q := rfl
@[simp] theorem State.modCard_ld (s : State) (f : Carding → Carding) (q : Nat) : (State.modCard s f).ld q = s.ld q := rfl
@[simp] theorem State.modCard_lp (s : State) (f : Carding → Carding) (q : Nat) : (State.modCard s f).lp q = s.lp q := rfl
@[simp] theorem State.modCard_pulse (s : State) (f : Carding → Carding) (q : Nat) : (State.modCard s f).pulse q = s.pulse q := rfl
@[simp] theorem State.modCard_hall (s : State) (f : Carding → Carding) (q : Nat) : (State.modCard s f).hall q = s.hall q := rfl
@[simp] theorem State.modCard_uart (s : State) (f : Carding → Carding) (q : Nat) : (State.modCard s f).uart q = s.uart q := rfl
@[simp] theorem State.modCard_hank (s : State) (f : Carding → Carding) (q : Nat) : (State.modCard s f).hank q = s.hank q := rfl
@[simp] theorem State.modCard_outp (s : State) (f : Carding → Carding) (q : Nat) : (State.modCard s f).outp q = s.outp q := rfl
@[simp] theorem State.modCard_pN (s : State) (f : Carding → Carding) (q q' : Nat) : (State.modCard s f).pN q q' = s.pN q q' := rfl
@[simp] theorem State.modCard_pI (s : State) (f : Carding → Carding) (q q' : Nat) : (State.modCard s f).pI q q' = s.pI q q' := rfl
@[simp] theorem State.modCard_pB (s : State) (f : Carding → Carding) (q q' : Nat) : (State.modCard s f).pB q q' = s.pB q q' := rfl

/-! ### State.modDict -/

@[simp] theorem State.modDict_ch (s : State) (f : Dict → Dict) (q : Nat) : (State.modDict s f).ch q = s.ch q := rfl
@[simp] theorem State.modDict_bank (s : State) (f : Dict → Dict) (q : Nat) : (State.modDict s f).bank q = s.bank q := rfl
@[simp] theorem State.modDict_die (s : State) (f : Dict → Dict) (q : Nat) : (State.modDict s f).die q = s.die q := rfl
@[simp] theorem State.modDict_br (s : State) (f : Dict → Dict) (q : Nat) : (State.modDict s f).br q = s.br q := rfl
@[simp] theorem State.modDict_pt (s : State) (f : Dict → Dict) (q : Nat) : (State.modDict s f).pt q = s.pt q := rfl
@[simp] theorem State.modDict_sp (s : State) (f : Dict → Dict) (q : Nat) : (State.modDict s f).sp q = s.sp q := rfl
@[simp] theorem State.modDict_ld (s : State) (f : Dict → Dict) (q : Nat) : (State.modDict s f).ld q = s.ld q := rfl
@[simp] theorem State.modDict_lp (s : State) (f : Dict → Dict) (q : Nat) : (State.modDict s f).lp q = s.lp q := rfl
@[simp] theorem State.modDict_pulse (s : State) (f : Dict → Dict) (q : Nat) : (State.modDict s f).pulse q = s.pulse q := rfl
@[simp] theorem State.modDict_hall (s : State) (f : Dict → Dict) (q : Nat) : (State.modDict s f).hall q = s.hall q := rfl
@[simp] theorem State.modDict_uart (s : State) (f : Dict → Dict) (q : Nat) : (State.modDict s f).uart q = s.uart q := rfl
@[simp] theorem State.modDict_hank (s : State) (f : Dict → Dict) (q : Nat) : (State.modDict s f).hank q = s.hank q := rfl
@[simp] theorem State.modDict_engine (s : State) (f : Dict → Dict) (q : Nat) : (State.modDict s f).engine q = s.engine q := rfl
@[simp] theorem State.modDict_outp (s : State) (f : Dict → Dict) (q : Nat) : (State.modDict s f).outp q = s.outp q := rfl

/-! ### State.modSession -/

@[simp] theorem State.modSession_ch (s : State) (i : SessionId) (f : Session → Session) (q : Nat) : (State.modSession s i f).ch q = s.ch q := rfl
@[simp] theorem State.modSession_bank (s : State) (i : SessionId) (f : Session → Session) (q : Nat) : (State.modSession s i f).bank q = s.bank q := rfl
@[simp] theorem State.modSession_die (s : State) (i : SessionId) (f : Session → Session) (q : Nat) : (State.modSession s i f).die q = s.die q := rfl
@[simp] theorem State.modSession_br (s : State) (i : SessionId) (f : Session → Session) (q : Nat) : (State.modSession s i f).br q = s.br q := rfl
@[simp] theorem State.modSession_pt (s : State) (i : SessionId) (f : Session → Session) (q : Nat) : (State.modSession s i f).pt q = s.pt q := rfl
@[simp] theorem State.modSession_sp (s : State) (i : SessionId) (f : Session → Session) (q : Nat) : (State.modSession s i f).sp q = s.sp q := rfl
@[simp] theorem State.modSession_ld (s : State) (i : SessionId) (f : Session → Session) (q : Nat) : (State.modSession s i f).ld q = s.ld q := rfl
@[simp] theorem State.modSession_lp (s : State) (i : SessionId) (f : Session → Session) (q : Nat) : (State.modSession s i f).lp q = s.lp q := rfl
@[simp] theorem State.modSession_pulse (s : State) (i : SessionId) (f : Session → Session) (q : Nat) : (State.modSession s i f).pulse q = s.pulse q := rfl
@[simp] theorem State.modSession_hall (s : State) (i : SessionId) (f : Session → Session) (q : Nat) : (State.modSession s i f).hall q = s.hall q := rfl
@[simp] theorem State.modSession_uart (s : State) (i : SessionId) (f : Session → Session) (q : Nat) : (State.modSession s i f).uart q = s.uart q := rfl
@[simp] theorem State.modSession_hank (s : State) (i : SessionId) (f : Session → Session) (q : Nat) : (State.modSession s i f).hank q = s.hank q := rfl
@[simp] theorem State.modSession_engine (s : State) (i : SessionId) (f : Session → Session) (q : Nat) : (State.modSession s i f).engine q = s.engine q := rfl
@[simp] theorem State.modSession_outp (s : State) (i : SessionId) (f : Session → Session) (q : Nat) : (State.modSession s i f).outp q = s.outp q := rfl
@[simp] theorem State.modSession_pN (s : State) (i : SessionId) (f : Session → Session) (q q' : Nat) : (State.modSession s i f).pN q q' = s.pN q q' := rfl
@[simp] theorem State.modSession_pI (s : State) (i : SessionId) (f : Session → Session) (q q' : Nat) : (State.modSession s i f).pI q q' = s.pI q q' := rfl
@[simp] theorem State.modSession_pB (s : State) (i : SessionId) (f : Session → Session) (q q' : Nat) : (State.modSession s i f).pB q q' = s.pB q q' := rfl

/-! ### State.frameCount -/

@[simp] theorem State.frameCount_ch (s : State) (i : Nat) (q : Nat) : (State.frameCount s i).ch q = s.ch q := rfl
@[simp] theorem State.frameCount_bank (s : State) (i : Nat) (q : Nat) : (State.frameCount s i).bank q = s.bank q := rfl
@[simp] theorem State.frameCount_die (s : State) (i : Nat) (q : Nat) : (State.frameCount s i).die q = s.die q := rfl
@[simp] theorem State.frameCount_br (s : State) (i : Nat) (q : Nat) : (State.frameCount s i).br q = s.br q := rfl
@[simp] theorem State.frameCount_pt (s : State) (i : Nat) (q : Nat) : (State.frameCount s i).pt q = s.pt q := rfl
@[simp] theorem State.frameCount_sp (s : State) (i : Nat) (q : Nat) : (State.frameCount s i).sp q = s.sp q := rfl
@[simp] theorem State.frameCount_ld (s : State) (i : Nat) (q : Nat) : (State.frameCount s i).ld q = s.ld q := rfl
@[simp] theorem State.frameCount_lp (s : State) (i : Nat) (q : Nat) : (State.frameCount s i).lp q = s.lp q := rfl
@[simp] theorem State.frameCount_pulse (s : State) (i : Nat) (q : Nat) : (State.frameCount s i).pulse q = s.pulse q := rfl
@[simp] theorem State.frameCount_hall (s : State) (i : Nat) (q : Nat) : (State.frameCount s i).hall q = s.hall q := rfl
@[simp] theorem State.frameCount_uart (s : State) (i : Nat) (q : Nat) : (State.frameCount s i).uart q = s.uart q := rfl
@[simp] theorem State.frameCount_hank (s : State) (i : Nat) (q : Nat) : (State.frameCount s i).hank q = s.hank q := rfl
@[simp] theorem State.frameCount_engine (s : State) (i : Nat) (q : Nat) : (State.frameCount s i).engine q = s.engine q := rfl
@[simp] theorem State.frameCount_outp (s : State) (i : Nat) (q : Nat) : (State.frameCount s i).outp q = s.outp q := rfl
@[simp] theorem State.frameCount_pN (s : State) (i : Nat) (q q' : Nat) : (State.frameCount s i).pN q q' = s.pN q q' := rfl
@[simp] theorem State.frameCount_pI (s : State) (i : Nat) (q q' : Nat) : (State.frameCount s i).pI q q' = s.pI q q' := rfl
@[simp] theorem State.frameCount_pB (s : State) (i : Nat) (q q' : Nat) : (State.frameCount s i).pB q q' = s.pB q q' := rfl

/-! ### State.heard -/

@[simp] theorem State.heard_ch (s : State) (n : Net) (q : Nat) : (State.heard s n).ch q = s.ch q := rfl
@[simp] theorem State.heard_bank (s : State) (n : Net) (q : Nat) : (State.heard s n).bank q = s.bank q := rfl
@[simp] theorem State.heard_die (s : State) (n : Net) (q : Nat) : (State.heard s n).die q = s.die q := rfl
@[simp] theorem State.heard_br (s : State) (n : Net) (q : Nat) : (State.heard s n).br q = s.br q := rfl
@[simp] theorem State.heard_pt (s : State) (n : Net) (q : Nat) : (State.heard s n).pt q = s.pt q := rfl
@[simp] theorem State.heard_sp (s : State) (n : Net) (q : Nat) : (State.heard s n).sp q = s.sp q := rfl
@[simp] theorem State.heard_ld (s : State) (n : Net) (q : Nat) : (State.heard s n).ld q = s.ld q := rfl
@[simp] theorem State.heard_lp (s : State) (n : Net) (q : Nat) : (State.heard s n).lp q = s.lp q := rfl
@[simp] theorem State.heard_pulse (s : State) (n : Net) (q : Nat) : (State.heard s n).pulse q = s.pulse q := rfl
@[simp] theorem State.heard_hall (s : State) (n : Net) (q : Nat) : (State.heard s n).hall q = s.hall q := rfl
@[simp] theorem State.heard_uart (s : State) (n : Net) (q : Nat) : (State.heard s n).uart q = s.uart q := rfl
@[simp] theorem State.heard_hank (s : State) (n : Net) (q : Nat) : (State.heard s n).hank q = s.hank q := rfl
@[simp] theorem State.heard_engine (s : State) (n : Net) (q : Nat) : (State.heard s n).engine q = s.engine q := rfl
@[simp] theorem State.heard_outp (s : State) (n : Net) (q : Nat) : (State.heard s n).outp q = s.outp q := rfl
@[simp] theorem State.heard_pN (s : State) (n : Net) (q q' : Nat) : (State.heard s n).pN q q' = s.pN q q' := rfl
@[simp] theorem State.heard_pI (s : State) (n : Net) (q q' : Nat) : (State.heard s n).pI q q' = s.pI q q' := rfl
@[simp] theorem State.heard_pB (s : State) (n : Net) (q q' : Nat) : (State.heard s n).pB q q' = s.pB q q' := rfl

/-! ### State.remember -/

@[simp] theorem State.remember_ch (s : State) (r : Req) (reply : Bytes) (q : Nat) : (State.remember s r reply).ch q = s.ch q := rfl
@[simp] theorem State.remember_bank (s : State) (r : Req) (reply : Bytes) (q : Nat) : (State.remember s r reply).bank q = s.bank q := rfl
@[simp] theorem State.remember_die (s : State) (r : Req) (reply : Bytes) (q : Nat) : (State.remember s r reply).die q = s.die q := rfl
@[simp] theorem State.remember_br (s : State) (r : Req) (reply : Bytes) (q : Nat) : (State.remember s r reply).br q = s.br q := rfl
@[simp] theorem State.remember_pt (s : State) (r : Req) (reply : Bytes) (q : Nat) : (State.remember s r reply).pt q = s.pt q := rfl
@[simp] theorem State.remember_sp (s : State) (r : Req) (reply : Bytes) (q : Nat) : (State.remember s r reply).sp q = s.sp q := rfl
@[simp] theorem State.remember_ld (s : State) (r : Req) (reply : Bytes) (q : Nat) : (State.remember s r reply).ld q = s.ld q := rfl
@[simp] theorem State.remember_lp (s : State) (r : Req) (reply : Bytes) (q : Nat) : (State.remember s r reply).lp q = s.lp q := rfl
@[simp] theorem State.remember_pulse (s : State) (r : Req) (reply : Bytes) (q : Nat) : (State.remember s r reply).pulse q = s.pulse q := rfl
@[simp] theorem State.remember_hall (s : State) (r : Req) (reply : Bytes) (q : Nat) : (State.remember s r reply).hall q = s.hall q := rfl
@[simp] theorem State.remember_uart (s : State) (r : Req) (reply : Bytes) (q : Nat) : (State.remember s r reply).uart q = s.uart q := rfl
@[simp] theorem State.remember_hank (s : State) (r : Req) (reply : Bytes) (q : Nat) : (State.remember s r reply).hank q = s.hank q := rfl
@[simp] theorem State.remember_engine (s : State) (r : Req) (reply : Bytes) (q : Nat) : (State.remember s r reply).engine q = s.engine q := rfl
@[simp] theorem State.remember_outp (s : State) (r : Req) (reply : Bytes) (q : Nat) : (State.remember s r reply).outp q = s.outp q := rfl
@[simp] theorem State.remember_pN (s : State) (r : Req) (reply : Bytes) (q q' : Nat) : (State.remember s r reply).pN q q' = s.pN q q' := rfl
@[simp] theorem State.remember_pI (s : State) (r : Req) (reply : Bytes) (q q' : Nat) : (State.remember s r reply).pI q q' = s.pI q q' := rfl
@[simp] theorem State.remember_pB (s : State) (r : Req) (reply : Bytes) (q q' : Nat) : (State.remember s r reply).pB q q' = s.pB q q' := rfl

/-! ### State.setCommon -/

@[simp] theorem State.setCommon_ch (s : State) (b : Nat) (q : Nat) : (State.setCommon s b).ch q = s.ch q := by unfold State.setCommon; split <;> rfl
@[simp] theorem State.setCommon_die (s : State) (b : Nat) (q : Nat) : (State.setCommon s b).die q = s.die q := by unfold State.setCommon; split <;> rfl
@[simp] theorem State.setCommon_br (s : State) (b : Nat) (q : Nat) : (State.setCommon s b).br q = s.br q := by unfold State.setCommon; split <;> rfl
@[simp] theorem State.setCommon_pt (s : State) (b : Nat) (q : Nat) : (State.setCommon s b).pt q = s.pt q := by unfold State.setCommon; split <;> rfl
@[simp] theorem State.setCommon_sp (s : State) (b : Nat) (q : Nat) : (State.setCommon s b).sp q = s.sp q := by unfold State.setCommon; split <;> rfl
@[simp] theorem State.setCommon_ld (s : State) (b : Nat) (q : Nat) : (State.setCommon s b).ld q = s.ld q := by unfold State.setCommon; split <;> rfl
@[simp] theorem State.setCommon_lp (s : State) (b : Nat) (q : Nat) : (State.setCommon s b).lp q = s.lp q := by unfold State.setCommon; split <;> rfl
@[simp] theorem State.setCommon_pulse (s : State) (b : Nat) (q : Nat) : (State.setCommon s b).pulse q = s.pulse q := by unfold State.setCommon; split <;> rfl
@[simp] theorem State.setCommon_hall (s : State) (b : Nat) (q : Nat) : (State.setCommon s b).hall q = s.hall q := by unfold State.setCommon; split <;> rfl
@[simp] theorem State.setCommon_uart (s : State) (b : Nat) (q : Nat) : (State.setCommon s b).uart q = s.uart q := by unfold State.setCommon; split <;> rfl
@[simp] theorem State.setCommon_hank (s : State) (b : Nat) (q : Nat) : (State.setCommon s b).hank q = s.hank q := by unfold State.setCommon; split <;> rfl
@[simp] theorem State.setCommon_engine (s : State) (b : Nat) (q : Nat) : (State.setCommon s b).engine q = s.engine q := by unfold State.setCommon; split <;> rfl
@[simp] theorem State.setCommon_outp (s : State) (b : Nat) (q : Nat) : (State.setCommon s b).outp q = s.outp q := by unfold State.setCommon; split <;> rfl
@[simp] theorem State.setCommon_pN (s : State) (b : Nat) (q q' : Nat) : (State.setCommon s b).pN q q' = s.pN q q' := by unfold State.setCommon; split <;> rfl
@[simp] theorem State.setCommon_pI (s : State) (b : Nat) (q q' : Nat) : (State.setCommon s b).pI q q' = s.pI q q' := by unfold State.setCommon; split <;> rfl
@[simp] theorem State.setCommon_pB (s : State) (b : Nat) (q q' : Nat) : (State.setCommon s b).pB q q' = s.pB q q' := by unfold State.setCommon; split <;> rfl

/-! ### State.modIso -/

@[simp] theorem State.modIso_ch (s : State) (f : CanA → CanA) (q : Nat) : (State.modIso s f).ch q = s.ch q := rfl
@[simp] theorem State.modIso_bank (s : State) (f : CanA → CanA) (q : Nat) : (State.modIso s f).bank q = s.bank q := rfl
@[simp] theorem State.modIso_die (s : State) (f : CanA → CanA) (q : Nat) : (State.modIso s f).die q = s.die q := rfl
@[simp] theorem State.modIso_br (s : State) (f : CanA → CanA) (q : Nat) : (State.modIso s f).br q = s.br q := rfl
@[simp] theorem State.modIso_pt (s : State) (f : CanA → CanA) (q : Nat) : (State.modIso s f).pt q = s.pt q := rfl
@[simp] theorem State.modIso_sp (s : State) (f : CanA → CanA) (q : Nat) : (State.modIso s f).sp q = s.sp q := rfl
@[simp] theorem State.modIso_ld (s : State) (f : CanA → CanA) (q : Nat) : (State.modIso s f).ld q = s.ld q := rfl
@[simp] theorem State.modIso_lp (s : State) (f : CanA → CanA) (q : Nat) : (State.modIso s f).lp q = s.lp q := rfl
@[simp] theorem State.modIso_pulse (s : State) (f : CanA → CanA) (q : Nat) : (State.modIso s f).pulse q = s.pulse q := rfl
@[simp] theorem State.modIso_hall (s : State) (f : CanA → CanA) (q : Nat) : (State.modIso s f).hall q = s.hall q := rfl
@[simp] theorem State.modIso_uart (s : State) (f : CanA → CanA) (q : Nat) : (State.modIso s f).uart q = s.uart q := rfl
@[simp] theorem State.modIso_hank (s : State) (f : CanA → CanA) (q : Nat) : (State.modIso s f).hank q = s.hank q := rfl
@[simp] theorem State.modIso_engine (s : State) (f : CanA → CanA) (q : Nat) : (State.modIso s f).engine q = s.engine q := rfl
@[simp] theorem State.modIso_outp (s : State) (f : CanA → CanA) (q : Nat) : (State.modIso s f).outp q = s.outp q := rfl
@[simp] theorem State.modIso_pN (s : State) (f : CanA → CanA) (q q' : Nat) : (State.modIso s f).pN q q' = s.pN q q' := rfl
@[simp] theorem State.modIso_pI (s : State) (f : CanA → CanA) (q q' : Nat) : (State.modIso s f).pI q q' = s.pI q q' := rfl
@[simp] theorem State.modIso_pB (s : State) (f : CanA → CanA) (q q' : Nat) : (State.modIso s f).pB q q' = s.pB q q' := rfl

/-! ### State.recordAt -/

@[simp] theorem State.recordAt_ch (s : State) (code : Nat) (subj : Nat) (det : Bytes) (t : IT) (q : Nat) : (State.recordAt s code subj det t).ch q = s.ch q := rfl
@[simp] theorem State.recordAt_bank (s : State) (code : Nat) (subj : Nat) (det : Bytes) (t : IT) (q : Nat) : (State.recordAt s code subj det t).bank q = s.bank q := rfl
@[simp] theorem State.recordAt_die (s : State) (code : Nat) (subj : Nat) (det : Bytes) (t : IT) (q : Nat) : (State.recordAt s code subj det t).die q = s.die q := rfl
@[simp] theorem State.recordAt_br (s : State) (code : Nat) (subj : Nat) (det : Bytes) (t : IT) (q : Nat) : (State.recordAt s code subj det t).br q = s.br q := rfl
@[simp] theorem State.recordAt_pt (s : State) (code : Nat) (subj : Nat) (det : Bytes) (t : IT) (q : Nat) : (State.recordAt s code subj det t).pt q = s.pt q := rfl
@[simp] theorem State.recordAt_sp (s : State) (code : Nat) (subj : Nat) (det : Bytes) (t : IT) (q : Nat) : (State.recordAt s code subj det t).sp q = s.sp q := rfl
@[simp] theorem State.recordAt_ld (s : State) (code : Nat) (subj : Nat) (det : Bytes) (t : IT) (q : Nat) : (State.recordAt s code subj det t).ld q = s.ld q := rfl
@[simp] theorem State.recordAt_lp (s : State) (code : Nat) (subj : Nat) (det : Bytes) (t : IT) (q : Nat) : (State.recordAt s code subj det t).lp q = s.lp q := rfl
@[simp] theorem State.recordAt_pulse (s : State) (code : Nat) (subj : Nat) (det : Bytes) (t : IT) (q : Nat) : (State.recordAt s code subj det t).pulse q = s.pulse q := rfl
@[simp] theorem State.recordAt_hall (s : State) (code : Nat) (subj : Nat) (det : Bytes) (t : IT) (q : Nat) : (State.recordAt s code subj det t).hall q = s.hall q := rfl
@[simp] theorem State.recordAt_uart (s : State) (code : Nat) (subj : Nat) (det : Bytes) (t : IT) (q : Nat) : (State.recordAt s code subj det t).uart q = s.uart q := rfl
@[simp] theorem State.recordAt_hank (s : State) (code : Nat) (subj : Nat) (det : Bytes) (t : IT) (q : Nat) : (State.recordAt s code subj det t).hank q = s.hank q := rfl
@[simp] theorem State.recordAt_engine (s : State) (code : Nat) (subj : Nat) (det : Bytes) (t : IT) (q : Nat) : (State.recordAt s code subj det t).engine q = s.engine q := rfl
@[simp] theorem State.recordAt_outp (s : State) (code : Nat) (subj : Nat) (det : Bytes) (t : IT) (q : Nat) : (State.recordAt s code subj det t).outp q = s.outp q := rfl
@[simp] theorem State.recordAt_pN (s : State) (code : Nat) (subj : Nat) (det : Bytes) (t : IT) (q q' : Nat) : (State.recordAt s code subj det t).pN q q' = s.pN q q' := rfl
@[simp] theorem State.recordAt_pI (s : State) (code : Nat) (subj : Nat) (det : Bytes) (t : IT) (q q' : Nat) : (State.recordAt s code subj det t).pI q q' = s.pI q q' := rfl
@[simp] theorem State.recordAt_pB (s : State) (code : Nat) (subj : Nat) (det : Bytes) (t : IT) (q q' : Nat) : (State.recordAt s code subj det t).pB q q' = s.pB q q' := rfl

/-! ### State.reportAt -/

@[simp] theorem State.reportAt_ch (s : State) (code : Nat) (subj : Nat) (det : Bytes) (t : IT) (q : Nat) : (State.reportAt s code subj det t).ch q = s.ch q := rfl
@[simp] theorem State.reportAt_bank (s : State) (code : Nat) (subj : Nat) (det : Bytes) (t : IT) (q : Nat) : (State.reportAt s code subj det t).bank q = s.bank q := rfl
@[simp] theorem State.reportAt_die (s : State) (code : Nat) (subj : Nat) (det : Bytes) (t : IT) (q : Nat) : (State.reportAt s code subj det t).die q = s.die q := rfl
@[simp] theorem State.reportAt_br (s : State) (code : Nat) (subj : Nat) (det : Bytes) (t : IT) (q : Nat) : (State.reportAt s code subj det t).br q = s.br q := rfl
@[simp] theorem State.reportAt_pt (s : State) (code : Nat) (subj : Nat) (det : Bytes) (t : IT) (q : Nat) : (State.reportAt s code subj det t).pt q = s.pt q := rfl
@[simp] theorem State.reportAt_sp (s : State) (code : Nat) (subj : Nat) (det : Bytes) (t : IT) (q : Nat) : (State.reportAt s code subj det t).sp q = s.sp q := rfl
@[simp] theorem State.reportAt_ld (s : State) (code : Nat) (subj : Nat) (det : Bytes) (t : IT) (q : Nat) : (State.reportAt s code subj det t).ld q = s.ld q := rfl
@[simp] theorem State.reportAt_lp (s : State) (code : Nat) (subj : Nat) (det : Bytes) (t : IT) (q : Nat) : (State.reportAt s code subj det t).lp q = s.lp q := rfl
@[simp] theorem State.reportAt_pulse (s : State) (code : Nat) (subj : Nat) (det : Bytes) (t : IT) (q : Nat) : (State.reportAt s code subj det t).pulse q = s.pulse q := rfl
@[simp] theorem State.reportAt_hall (s : State) (code : Nat) (subj : Nat) (det : Bytes) (t : IT) (q : Nat) : (State.reportAt s code subj det t).hall q = s.hall q := rfl
@[simp] theorem State.reportAt_uart (s : State) (code : Nat) (subj : Nat) (det : Bytes) (t : IT) (q : Nat) : (State.reportAt s code subj det t).uart q = s.uart q := rfl
@[simp] theorem State.reportAt_hank (s : State) (code : Nat) (subj : Nat) (det : Bytes) (t : IT) (q : Nat) : (State.reportAt s code subj det t).hank q = s.hank q := rfl
@[simp] theorem State.reportAt_engine (s : State) (code : Nat) (subj : Nat) (det : Bytes) (t : IT) (q : Nat) : (State.reportAt s code subj det t).engine q = s.engine q := rfl
@[simp] theorem State.reportAt_outp (s : State) (code : Nat) (subj : Nat) (det : Bytes) (t : IT) (q : Nat) : (State.reportAt s code subj det t).outp q = s.outp q := rfl
@[simp] theorem State.reportAt_pN (s : State) (code : Nat) (subj : Nat) (det : Bytes) (t : IT) (q q' : Nat) : (State.reportAt s code subj det t).pN q q' = s.pN q q' := rfl
@[simp] theorem State.reportAt_pI (s : State) (code : Nat) (subj : Nat) (det : Bytes) (t : IT) (q q' : Nat) : (State.reportAt s code subj det t).pI q q' = s.pI q q' := rfl
@[simp] theorem State.reportAt_pB (s : State) (code : Nat) (subj : Nat) (det : Bytes) (t : IT) (q q' : Nat) : (State.reportAt s code subj det t).pB q q' = s.pB q q' := rfl

/-! ### State.modHall -/

@[simp] theorem State.modHall_ch (s : State) (h : Nat) (f : Hall → Hall) (q : Nat) : (State.modHall s h f).ch q = s.ch q := rfl
@[simp] theorem State.modHall_bank (s : State) (h : Nat) (f : Hall → Hall) (q : Nat) : (State.modHall s h f).bank q = s.bank q := rfl
@[simp] theorem State.modHall_die (s : State) (h : Nat) (f : Hall → Hall) (q : Nat) : (State.modHall s h f).die q = s.die q := rfl
@[simp] theorem State.modHall_br (s : State) (h : Nat) (f : Hall → Hall) (q : Nat) : (State.modHall s h f).br q = s.br q := rfl
@[simp] theorem State.modHall_pt (s : State) (h : Nat) (f : Hall → Hall) (q : Nat) : (State.modHall s h f).pt q = s.pt q := rfl
@[simp] theorem State.modHall_sp (s : State) (h : Nat) (f : Hall → Hall) (q : Nat) : (State.modHall s h f).sp q = s.sp q := rfl
@[simp] theorem State.modHall_ld (s : State) (h : Nat) (f : Hall → Hall) (q : Nat) : (State.modHall s h f).ld q = s.ld q := rfl
@[simp] theorem State.modHall_lp (s : State) (h : Nat) (f : Hall → Hall) (q : Nat) : (State.modHall s h f).lp q = s.lp q := rfl
@[simp] theorem State.modHall_pulse (s : State) (h : Nat) (f : Hall → Hall) (q : Nat) : (State.modHall s h f).pulse q = s.pulse q := rfl
@[simp] theorem State.modHall_hall_same (s : State) (h : Nat) (f : Hall → Hall) (hi : h < 2) :
    (State.modHall s h f).hall h = f (s.hall h) := vget_vmod_same _ _ _ _ hi
@[simp] theorem State.modHall_hall_other (s : State) (h : Nat) (f : Hall → Hall) (q : Nat) (hq : q ≠ h) :
    (State.modHall s h f).hall q = s.hall q := vget_vmod_other _ _ _ _ _ (Ne.symm hq)
@[simp] theorem State.modHall_uart (s : State) (h : Nat) (f : Hall → Hall) (q : Nat) : (State.modHall s h f).uart q = s.uart q := rfl
@[simp] theorem State.modHall_hank (s : State) (h : Nat) (f : Hall → Hall) (q : Nat) : (State.modHall s h f).hank q = s.hank q := rfl
@[simp] theorem State.modHall_engine (s : State) (h : Nat) (f : Hall → Hall) (q : Nat) : (State.modHall s h f).engine q = s.engine q := rfl
@[simp] theorem State.modHall_outp (s : State) (h : Nat) (f : Hall → Hall) (q : Nat) : (State.modHall s h f).outp q = s.outp q := rfl
@[simp] theorem State.modHall_pN (s : State) (h : Nat) (f : Hall → Hall) (q q' : Nat) : (State.modHall s h f).pN q q' = s.pN q q' := rfl
@[simp] theorem State.modHall_pI (s : State) (h : Nat) (f : Hall → Hall) (q q' : Nat) : (State.modHall s h f).pI q q' = s.pI q q' := rfl
@[simp] theorem State.modHall_pB (s : State) (h : Nat) (f : Hall → Hall) (q q' : Nat) : (State.modHall s h f).pB q q' = s.pB q q' := rfl

/-! ### State.modUart -/

@[simp] theorem State.modUart_ch (s : State) (u : Nat) (f : Uart → Uart) (q : Nat) : (State.modUart s u f).ch q = s.ch q := rfl
@[simp] theorem State.modUart_bank (s : State) (u : Nat) (f : Uart → Uart) (q : Nat) : (State.modUart s u f).bank q = s.bank q := rfl
@[simp] theorem State.modUart_die (s : State) (u : Nat) (f : Uart → Uart) (q : Nat) : (State.modUart s u f).die q = s.die q := rfl
@[simp] theorem State.modUart_br (s : State) (u : Nat) (f : Uart → Uart) (q : Nat) : (State.modUart s u f).br q = s.br q := rfl
@[simp] theorem State.modUart_pt (s : State) (u : Nat) (f : Uart → Uart) (q : Nat) : (State.modUart s u f).pt q = s.pt q := rfl
@[simp] theorem State.modUart_sp (s : State) (u : Nat) (f : Uart → Uart) (q : Nat) : (State.modUart s u f).sp q = s.sp q := rfl
@[simp] theorem State.modUart_ld (s : State) (u : Nat) (f : Uart → Uart) (q : Nat) : (State.modUart s u f).ld q = s.ld q := rfl
@[simp] theorem State.modUart_lp (s : State) (u : Nat) (f : Uart → Uart) (q : Nat) : (State.modUart s u f).lp q = s.lp q := rfl
@[simp] theorem State.modUart_pulse (s : State) (u : Nat) (f : Uart → Uart) (q : Nat) : (State.modUart s u f).pulse q = s.pulse q := rfl
@[simp] theorem State.modUart_hall (s : State) (u : Nat) (f : Uart → Uart) (q : Nat) : (State.modUart s u f).hall q = s.hall q := rfl
@[simp] theorem State.modUart_uart_same (s : State) (u : Nat) (f : Uart → Uart) (hi : u < 2) :
    (State.modUart s u f).uart u = f (s.uart u) := vget_vmod_same _ _ _ _ hi
@[simp] theorem State.modUart_uart_other (s : State) (u : Nat) (f : Uart → Uart) (q : Nat) (hq : q ≠ u) :
    (State.modUart s u f).uart q = s.uart q := vget_vmod_other _ _ _ _ _ (Ne.symm hq)
@[simp] theorem State.modUart_hank (s : State) (u : Nat) (f : Uart → Uart) (q : Nat) : (State.modUart s u f).hank q = s.hank q := rfl
@[simp] theorem State.modUart_engine (s : State) (u : Nat) (f : Uart → Uart) (q : Nat) : (State.modUart s u f).engine q = s.engine q := rfl
@[simp] theorem State.modUart_outp (s : State) (u : Nat) (f : Uart → Uart) (q : Nat) : (State.modUart s u f).outp q = s.outp q := rfl
@[simp] theorem State.modUart_pN (s : State) (u : Nat) (f : Uart → Uart) (q q' : Nat) : (State.modUart s u f).pN q q' = s.pN q q' := rfl
@[simp] theorem State.modUart_pI (s : State) (u : Nat) (f : Uart → Uart) (q q' : Nat) : (State.modUart s u f).pI q q' = s.pI q q' := rfl
@[simp] theorem State.modUart_pB (s : State) (u : Nat) (f : Uart → Uart) (q q' : Nat) : (State.modUart s u f).pB q q' = s.pB q q' := rfl

/-! ### State.modHank -/

@[simp] theorem State.modHank_ch (s : State) (k : Nat) (f : Hank → Hank) (q : Nat) : (State.modHank s k f).ch q = s.ch q := rfl
@[simp] theorem State.modHank_bank (s : State) (k : Nat) (f : Hank → Hank) (q : Nat) : (State.modHank s k f).bank q = s.bank q := rfl
@[simp] theorem State.modHank_die (s : State) (k : Nat) (f : Hank → Hank) (q : Nat) : (State.modHank s k f).die q = s.die q := rfl
@[simp] theorem State.modHank_br (s : State) (k : Nat) (f : Hank → Hank) (q : Nat) : (State.modHank s k f).br q = s.br q := rfl
@[simp] theorem State.modHank_pt (s : State) (k : Nat) (f : Hank → Hank) (q : Nat) : (State.modHank s k f).pt q = s.pt q := rfl
@[simp] theorem State.modHank_sp (s : State) (k : Nat) (f : Hank → Hank) (q : Nat) : (State.modHank s k f).sp q = s.sp q := rfl
@[simp] theorem State.modHank_ld (s : State) (k : Nat) (f : Hank → Hank) (q : Nat) : (State.modHank s k f).ld q = s.ld q := rfl
@[simp] theorem State.modHank_lp (s : State) (k : Nat) (f : Hank → Hank) (q : Nat) : (State.modHank s k f).lp q = s.lp q := rfl
@[simp] theorem State.modHank_pulse (s : State) (k : Nat) (f : Hank → Hank) (q : Nat) : (State.modHank s k f).pulse q = s.pulse q := rfl
@[simp] theorem State.modHank_hall (s : State) (k : Nat) (f : Hank → Hank) (q : Nat) : (State.modHank s k f).hall q = s.hall q := rfl
@[simp] theorem State.modHank_uart (s : State) (k : Nat) (f : Hank → Hank) (q : Nat) : (State.modHank s k f).uart q = s.uart q := rfl
@[simp] theorem State.modHank_hank_same (s : State) (k : Nat) (f : Hank → Hank) (hi : k < 16) :
    (State.modHank s k f).hank k = f (s.hank k) := vget_vmod_same _ _ _ _ hi
@[simp] theorem State.modHank_hank_other (s : State) (k : Nat) (f : Hank → Hank) (q : Nat) (hq : q ≠ k) :
    (State.modHank s k f).hank q = s.hank q := vget_vmod_other _ _ _ _ _ (Ne.symm hq)
@[simp] theorem State.modHank_engine (s : State) (k : Nat) (f : Hank → Hank) (q : Nat) : (State.modHank s k f).engine q = s.engine q := rfl
@[simp] theorem State.modHank_outp (s : State) (k : Nat) (f : Hank → Hank) (q : Nat) : (State.modHank s k f).outp q = s.outp q := rfl
@[simp] theorem State.modHank_pN (s : State) (k : Nat) (f : Hank → Hank) (q q' : Nat) : (State.modHank s k f).pN q q' = s.pN q q' := rfl
@[simp] theorem State.modHank_pI (s : State) (k : Nat) (f : Hank → Hank) (q q' : Nat) : (State.modHank s k f).pI q q' = s.pI q q' := rfl
@[simp] theorem State.modHank_pB (s : State) (k : Nat) (f : Hank → Hank) (q q' : Nat) : (State.modHank s k f).pB q q' = s.pB q q' := rfl

/-! ### State.modEngine -/

@[simp] theorem State.modEngine_ch (s : State) (e : Nat) (f : EngineSt → EngineSt) (q : Nat) : (State.modEngine s e f).ch q = s.ch q := rfl
@[simp] theorem State.modEngine_bank (s : State) (e : Nat) (f : EngineSt → EngineSt) (q : Nat) : (State.modEngine s e f).bank q = s.bank q := rfl
@[simp] theorem State.modEngine_die (s : State) (e : Nat) (f : EngineSt → EngineSt) (q : Nat) : (State.modEngine s e f).die q = s.die q := rfl
@[simp] theorem State.modEngine_br (s : State) (e : Nat) (f : EngineSt → EngineSt) (q : Nat) : (State.modEngine s e f).br q = s.br q := rfl
@[simp] theorem State.modEngine_pt (s : State) (e : Nat) (f : EngineSt → EngineSt) (q : Nat) : (State.modEngine s e f).pt q = s.pt q := rfl
@[simp] theorem State.modEngine_sp (s : State) (e : Nat) (f : EngineSt → EngineSt) (q : Nat) : (State.modEngine s e f).sp q = s.sp q := rfl
@[simp] theorem State.modEngine_ld (s : State) (e : Nat) (f : EngineSt → EngineSt) (q : Nat) : (State.modEngine s e f).ld q = s.ld q := rfl
@[simp] theorem State.modEngine_lp (s : State) (e : Nat) (f : EngineSt → EngineSt) (q : Nat) : (State.modEngine s e f).lp q = s.lp q := rfl
@[simp] theorem State.modEngine_pulse (s : State) (e : Nat) (f : EngineSt → EngineSt) (q : Nat) : (State.modEngine s e f).pulse q = s.pulse q := rfl
@[simp] theorem State.modEngine_hall (s : State) (e : Nat) (f : EngineSt → EngineSt) (q : Nat) : (State.modEngine s e f).hall q = s.hall q := rfl
@[simp] theorem State.modEngine_uart (s : State) (e : Nat) (f : EngineSt → EngineSt) (q : Nat) : (State.modEngine s e f).uart q = s.uart q := rfl
@[simp] theorem State.modEngine_hank (s : State) (e : Nat) (f : EngineSt → EngineSt) (q : Nat) : (State.modEngine s e f).hank q = s.hank q := rfl
@[simp] theorem State.modEngine_engine_same (s : State) (e : Nat) (f : EngineSt → EngineSt) (hi : e < 4) :
    (State.modEngine s e f).engine e = f (s.engine e) := vget_vmod_same _ _ _ _ hi
@[simp] theorem State.modEngine_engine_other (s : State) (e : Nat) (f : EngineSt → EngineSt) (q : Nat) (hq : q ≠ e) :
    (State.modEngine s e f).engine q = s.engine q := vget_vmod_other _ _ _ _ _ (Ne.symm hq)
@[simp] theorem State.modEngine_outp (s : State) (e : Nat) (f : EngineSt → EngineSt) (q : Nat) : (State.modEngine s e f).outp q = s.outp q := rfl
@[simp] theorem State.modEngine_pN (s : State) (e : Nat) (f : EngineSt → EngineSt) (q q' : Nat) : (State.modEngine s e f).pN q q' = s.pN q q' := rfl
@[simp] theorem State.modEngine_pI (s : State) (e : Nat) (f : EngineSt → EngineSt) (q q' : Nat) : (State.modEngine s e f).pI q q' = s.pI q q' := rfl
@[simp] theorem State.modEngine_pB (s : State) (e : Nat) (f : EngineSt → EngineSt) (q q' : Nat) : (State.modEngine s e f).pB q q' = s.pB q q' := rfl

/-! ### State.modOut -/

@[simp] theorem State.modOut_ch (s : State) (o : Nat) (f : Output → Output) (q : Nat) : (State.modOut s o f).ch q = s.ch q := rfl
@[simp] theorem State.modOut_bank (s : State) (o : Nat) (f : Output → Output) (q : Nat) : (State.modOut s o f).bank q = s.bank q := rfl
@[simp] theorem State.modOut_die (s : State) (o : Nat) (f : Output → Output) (q : Nat) : (State.modOut s o f).die q = s.die q := rfl
@[simp] theorem State.modOut_br (s : State) (o : Nat) (f : Output → Output) (q : Nat) : (State.modOut s o f).br q = s.br q := rfl
@[simp] theorem State.modOut_pt (s : State) (o : Nat) (f : Output → Output) (q : Nat) : (State.modOut s o f).pt q = s.pt q := rfl
@[simp] theorem State.modOut_sp (s : State) (o : Nat) (f : Output → Output) (q : Nat) : (State.modOut s o f).sp q = s.sp q := rfl
@[simp] theorem State.modOut_ld (s : State) (o : Nat) (f : Output → Output) (q : Nat) : (State.modOut s o f).ld q = s.ld q := rfl
@[simp] theorem State.modOut_lp (s : State) (o : Nat) (f : Output → Output) (q : Nat) : (State.modOut s o f).lp q = s.lp q := rfl
@[simp] theorem State.modOut_pulse (s : State) (o : Nat) (f : Output → Output) (q : Nat) : (State.modOut s o f).pulse q = s.pulse q := rfl
@[simp] theorem State.modOut_hall (s : State) (o : Nat) (f : Output → Output) (q : Nat) : (State.modOut s o f).hall q = s.hall q := rfl
@[simp] theorem State.modOut_uart (s : State) (o : Nat) (f : Output → Output) (q : Nat) : (State.modOut s o f).uart q = s.uart q := rfl
@[simp] theorem State.modOut_hank (s : State) (o : Nat) (f : Output → Output) (q : Nat) : (State.modOut s o f).hank q = s.hank q := rfl
@[simp] theorem State.modOut_engine (s : State) (o : Nat) (f : Output → Output) (q : Nat) : (State.modOut s o f).engine q = s.engine q := rfl
@[simp] theorem State.modOut_pN (s : State) (o : Nat) (f : Output → Output) (q q' : Nat) : (State.modOut s o f).pN q q' = s.pN q q' := rfl
@[simp] theorem State.modOut_pI (s : State) (o : Nat) (f : Output → Output) (q q' : Nat) : (State.modOut s o f).pI q q' = s.pI q q' := rfl
@[simp] theorem State.modOut_pB (s : State) (o : Nat) (f : Output → Output) (q q' : Nat) : (State.modOut s o f).pB q q' = s.pB q q' := rfl

end Sys2Proof.Machine
end

