-- ==== Sys2Proof/Laws/Memory.lean ====
section
/-! SUPPORT. The MRAM array: a write keeps the canonical form, reads back what it wrote and leaves every other byte. -/

namespace Sys2Proof.Machine

theorem Memory.cells_mem {a : Nat} {bs : Bytes} {c : Host.Cell} (h : c ∈ Memory.cells a bs) :
    a ≤ c.1 ∧ c.1 < a + bs.length ∧ c.2 ≠ Memory.default := by
  induction bs generalizing a with
  | nil => simp [Memory.cells] at h
  | cons b bs ih =>
    unfold Memory.cells at h
    split at h
    · have := ih h
      simp only [List.length_cons]
      exact ⟨by omega, by omega, this.2.2⟩
    · rcases List.mem_cons.mp h with rfl | h
      · exact ⟨Nat.le_refl _, by simp, by assumption⟩
      · have := ih h
        simp only [List.length_cons]
        exact ⟨by omega, by omega, this.2.2⟩

theorem Memory.cells_sorted (a : Nat) (bs : Bytes) : (Memory.cells a bs).Pairwise (fun x y => x.1 < y.1) := by
  induction bs generalizing a with
  | nil => exact List.Pairwise.nil
  | cons b bs ih =>
    unfold Memory.cells
    split
    · exact ih _
    · exact List.pairwise_cons.mpr ⟨fun c h => (Memory.cells_mem h).1, ih _⟩

/-- Every write keeps the canonical form. -/
theorem Memory.wf_write {m : List Host.Cell} (h : Memory.wf m) (a : Nat) (bs : Bytes) : Memory.wf (Memory.write m a bs) := by
  refine ⟨?_, fun c hc => ?_⟩
  · unfold Memory.write
    rw [List.append_assoc]
    refine List.pairwise_append.mpr ⟨h.1.filter _, List.pairwise_append.mpr
      ⟨Memory.cells_sorted a bs, h.1.filter _, fun x hx y hy => ?_⟩, fun x hx y hy => ?_⟩
    · have := Memory.cells_mem hx
      have := (List.mem_filter.mp hy).2
      simp at this
      omega
    · have hx := (List.mem_filter.mp hx).2
      simp at hx
      rcases List.mem_append.mp hy with hy | hy
      · have := Memory.cells_mem hy
        omega
      · have := (List.mem_filter.mp hy).2
        simp at this
        omega
  · simp only [Memory.write, List.mem_append, List.mem_filter] at hc
    rcases hc with (hc | hc) | hc
    · exact h.2 c hc.1
    · exact (Memory.cells_mem hc).2.2
    · exact h.2 c hc.1

theorem Memory.read_append_of_mem {l r : List Host.Cell} {x : Nat} (h : ∀ c ∈ l, c.1 ≠ x) :
    Memory.read (l ++ r) x = Memory.read r x := by
  induction l with
  | nil => rfl
  | cons c l ih =>
    have h1 := h c (List.mem_cons_self ..)
    simp only [List.cons_append, Memory.read, h1, if_false]
    exact ih fun d hd => h d (List.mem_cons_of_mem _ hd)

theorem Memory.read_append_left {l r : List Host.Cell} {x : Nat} (h : ∀ c ∈ r, c.1 ≠ x) :
    Memory.read (l ++ r) x = Memory.read l x := by
  induction l with
  | nil => simpa [Memory.read] using Memory.read_append_of_mem (r := []) h
  | cons c l ih => simp only [List.cons_append, Memory.read, ih]

theorem Memory.read_filter {m : List Host.Cell} {x : Nat} (p : Host.Cell → Bool) (h : ∀ b, p (x, b) = true) :
    Memory.read (m.filter p) x = Memory.read m x := by
  induction m with
  | nil => rfl
  | cons c m ih =>
    rw [List.filter_cons]
    split
    · simp only [Memory.read, ih]
    · next hp =>
      have : c.1 ≠ x := fun e => hp (by
        have := h c.2
        rwa [← e] at this)
      simp only [Memory.read, this, if_false, ih]

/-- A byte outside the bytes written reads as before. -/
theorem Memory.read_write_other (m : List Host.Cell) (a : Nat) (bs : Bytes) (x : Nat) (h : x < a ∨ a + bs.length ≤ x) :
    Memory.read (Memory.write m a bs) x = Memory.read m x := by
  unfold Memory.write
  have hc : ∀ c ∈ Memory.cells a bs, c.1 ≠ x := fun c hc => by
    have := Memory.cells_mem hc
    omega
  rcases h with h | h
  · rw [List.append_assoc, Memory.read_append_left, Memory.read_filter]
    · intro b; simpa using h
    · intro c hm
      rcases List.mem_append.mp hm with hm | hm
      · exact hc c hm
      · have := (List.mem_filter.mp hm).2
        simp at this
        omega
  · rw [Memory.read_append_of_mem, Memory.read_filter]
    · intro b; simpa using h
    · intro c hm
      rcases List.mem_append.mp hm with hm | hm
      · have := (List.mem_filter.mp hm).2
        simp at this
        omega
      · exact hc c hm

theorem Memory.read_cells (a : Nat) (bs : Bytes) (i : Nat) (h : i < bs.length) :
    Memory.read (Memory.cells a bs) (a + i) = bs[i] := by
  induction bs generalizing a i with
  | nil => simp at h
  | cons b bs ih =>
    unfold Memory.cells
    cases i with
    | zero =>
      split
      · next hb =>
        have := Memory.read_append_of_mem (l := Memory.cells (a + 1) bs) (r := []) (x := a) fun c hc => by
          have := Memory.cells_mem hc
          omega
        simpa [Memory.read, hb] using this
      · simp [Memory.read]
    | succ i =>
      have hi : i < bs.length := by simpa using h
      have := ih (a + 1) i hi
      have e : a + (i + 1) = a + 1 + i := by omega
      split
      · simpa [e] using this
      · simp only [e, Memory.read]
        rw [if_neg (by omega)]
        simpa using this

/-- A byte that was written reads back. -/
theorem Memory.read_write_same (m : List Host.Cell) (a : Nat) (bs : Bytes) (i : Nat) (h : i < bs.length) :
    Memory.read (Memory.write m a bs) (a + i) = bs[i] := by
  unfold Memory.write
  rw [List.append_assoc, Memory.read_append_of_mem, Memory.read_append_left, Memory.read_cells a bs i h]
  · intro c hm
    have := (List.mem_filter.mp hm).2
    simp at this
    omega
  · intro c hm
    have := (List.mem_filter.mp hm).2
    simp at this
    omega

end Sys2Proof.Machine
end

