-- ==== Sys2Proof/Laws/LaterBase.lean ====
section
/-! SUPPORT. The preorder Later: reflexive, transitive, and kept by choices, record updates and folds. Every lemma about an
operation says: a state later than `r` before it is later than `r` after it. -/

namespace Sys2Proof.Machine

theorem Later.refl (s : State) : Later s s :=
  ⟨Nat.le_refl _, id, rfl, Nat.le_refl _, fun _ h => h, Nat.le_refl _, id⟩

theorem Later.trans {a b c : State} (h : Later a b) (k : Later b c) : Later a c :=
  ⟨Nat.le_trans h.it k.it, fun x => k.mem (h.mem x), k.queue.trans h.queue, Nat.le_trans h.roll k.roll,
    fun x e => k.key x (h.key x e), Nat.le_trans h.life k.life, fun x => k.legal (h.legal x)⟩

/-- A step of a proof over an intermediate state. -/
theorem Later.cut {r : State} (x : State) {P : Prop} (h : Later r x) (k : Later r x → P) : P := k h

theorem Later.cut_fst {α : Type} {r : State} (x : State × α) {P : Prop} (h : Later r x.1) (k : Later r x.1 → P) : P := k h

theorem Later.ite {r a b : State} {c : Prop} [Decidable c] (h : Later r a) (k : Later r b) :
    Later r (if c then a else b) := by
  split <;> assumption

theorem Later.ite_fst {α : Type} {r : State} {a b : State × α} {c : Prop} [Decidable c] (h : Later r a.1)
    (k : Later r b.1) : Later r (if c then a else b).1 := by
  split <;> assumption

theorem Later.of_pair {α : Type} {r a : State} {b : α} {p : State × α} (e : p = (a, b)) (h : Later r p.1) : Later r a := by
  subst e
  exact h

/-- A record update of fields `Later` says nothing of. -/
theorem Later.upd {r b : State} (h : Later r b) (time power motion rov spd dis rate chan banks dies bob whorl spin bridges
    ports loads budget therm dict nets skein sup undo freeCtr) :
    Later r ⟨b.it, time, power, motion, rov, spd, dis, rate, chan, banks, dies, bob, whorl, spin, bridges, ports, loads,
      budget, therm, dict, nets, skein, sup, b.card, b.mram, undo, freeCtr, b.pending⟩ :=
  ⟨h.it, h.mem, h.queue, h.roll, h.key, h.life, h.legal⟩

/-- A record update that writes MRAM through `Memory.write`. -/
theorem Later.upd_mem {r b : State} (h : Later r b) (a : Nat) (bs : Bytes) (time power motion rov spd dis rate chan banks
    dies bob whorl spin bridges ports loads budget therm dict nets skein sup undo freeCtr) :
    Later r ⟨b.it, time, power, motion, rov, spd, dis, rate, chan, banks, dies, bob, whorl, spin, bridges, ports, loads,
      budget, therm, dict, nets, skein, sup, b.card, Memory.write b.mram a bs, undo, freeCtr, b.pending⟩ :=
  ⟨h.it, fun w => Memory.wf_write (h.mem w) a bs, h.queue, h.roll, h.key, h.life, h.legal⟩

/-- A record update that moves Izcel time forward. -/
theorem Later.upd_it {r b : State} (h : Later r b) (t : IT) (time power motion rov spd dis rate chan banks
    dies bob whorl spin bridges ports loads budget therm dict nets skein sup undo freeCtr) :
    Later r ⟨max b.it t, time, power, motion, rov, spd, dis, rate, chan, banks, dies, bob, whorl, spin, bridges, ports, loads,
      budget, therm, dict, nets, skein, sup, b.card, b.mram, undo, freeCtr, b.pending⟩ :=
  ⟨Nat.le_trans h.it (Nat.le_max_left _ _), h.mem, h.queue, h.roll, h.key, h.life, h.legal⟩

/-- An update of the carding record that undoes nothing. -/
theorem Later.upd_card {r b : State} (h : Later r b) (c : Carding) (h1 : b.card.rollback ≤ c.rollback)
    (h2 : ∀ k, b.card.key = some k → c.key = some k) (h3 : lifeRank b.card.life ≤ lifeRank c.life)
    (h4 : 1 ≤ b.card.life ∧ b.card.life ≤ 4 → 1 ≤ c.life ∧ c.life ≤ 4) : Later r { b with card := c } :=
  ⟨h.it, h.mem, h.queue, Nat.le_trans h.roll h1, fun k e => h2 k (h.key k e), Nat.le_trans h.life h3, fun x => h4 (h.legal x)⟩

theorem Later.getD {r d : State} {o : Option State} (h : Later r d) (k : ∀ t, o = some t → Later r t) :
    Later r (o.getD d) := by
  cases o with
  | none => exact h
  | some t => exact k t rfl

theorem Later.foldl {α : Type} {r : State} {g : State → α → State} {s : State} {l : List α} (h : Later r s)
    (k : ∀ s a, Later r s → Later r (g s a)) : Later r (l.foldl g s) := by
  induction l generalizing s with
  | nil => exact h
  | cons a l ih => exact ih (k s a h)

theorem Later.foldl_fst {α β : Type} {r : State} {g : State × β → α → State × β} {p : State × β} {l : List α}
    (h : Later r p.1) (k : ∀ p a, Later r p.1 → Later r (g p a).1) : Later r (l.foldl g p).1 := by
  induction l generalizing p with
  | nil => exact h
  | cons a l ih => exact ih (k p a h)

end Sys2Proof.Machine
end

