-- ==== Sys2Proof/Laws/LaterOps.lean ====
section
/-! SUPPORT. What no operation of Ops.lean undoes: each moves the state Later. -/


namespace Sys2Proof.Machine

theorem State.at_later {r0 : State} (s : State) (t : IT) (hL : Later r0 s) : Later r0 (State.at s t) := Later.upd_it hL t ..

theorem State.whenAwake_later {r0 : State} (s : State) (f : State → State) (hL : Later r0 s)
    (k : ∀ s, Later r0 s → Later r0 (f s)) : Later r0 (State.whenAwake s f) := by
  unfold State.whenAwake
  split
  · exact k s hL
  · exact hL

theorem State.draw_later {r0 : State} (s : State) (hL : Later r0 s) : Later r0 (State.draw s) := 
  ⟨hL.it, hL.mem, hL.queue, hL.roll, hL.key, hL.life, hL.legal⟩

theorem State.recordAt_later {r0 : State} (s : State) (code : Nat) (subj : Nat) (det : Bytes) (t : IT) (hL : Later r0 s) : Later r0 (State.recordAt s code subj det t) := 
  ⟨hL.it, hL.mem, hL.queue, hL.roll, hL.key, hL.life, hL.legal⟩

theorem State.record_later {r0 : State} (s : State) (code : Nat) (subj : Nat) (det : Bytes) (hL : Later r0 s) : Later r0 (State.record s code subj det) := 
  ⟨hL.it, hL.mem, hL.queue, hL.roll, hL.key, hL.life, hL.legal⟩

theorem State.recordIf_later {r0 : State} (s : State) (c : Bool) (code : Nat) (subj : Nat) (det : Bytes) (hL : Later r0 s) : Later r0 (State.recordIf s c code subj det) := by
  unfold State.recordIf
  repeat' with_reducible first
    | assumption
    | apply State.record_later
    | apply Later.ite

theorem State.faultEnds_later {r0 : State} (s : State) (code : Nat) (subj : Nat) (hL : Later r0 s) : Later r0 (State.faultEnds s code subj) := 
  ⟨hL.it, hL.mem, hL.queue, hL.roll, hL.key, hL.life, hL.legal⟩

end Sys2Proof.Machine
end

