-- ==== Sys2Proof/Laws/LaterParam.lean ====
section
/-! SUPPORT. What no operation of Param.lean undoes: each moves the state Later. -/


namespace Sys2Proof.Machine

theorem State.reportAt_later {r0 : State} (s : State) (code : Nat) (subj : Nat) (det : Bytes) (t : IT) (hL : Later r0 s) : Later r0 (State.reportAt s code subj det t) := 
  ⟨hL.it, hL.mem, hL.queue, hL.roll, hL.key, hL.life, hL.legal⟩

theorem State.report_later {r0 : State} (s : State) (code : Nat) (subj : Nat) (det : Bytes) (hL : Later r0 s) : Later r0 (State.report s code subj det) := 
  ⟨hL.it, hL.mem, hL.queue, hL.roll, hL.key, hL.life, hL.legal⟩

end Sys2Proof.Machine
end

