-- ==== Sys2Proof/Laws/LaterBanks.lean ====
section
/-! SUPPORT. What no operation of Banks.lean undoes: each moves the state Later. -/


namespace Sys2Proof.Machine

theorem State.modCh_later {r0 : State} (s : State) (n : Nat) (f : Channel → Channel) (hL : Later r0 s) : Later r0 (State.modCh s n f) := 
  ⟨hL.it, hL.mem, hL.queue, hL.roll, hL.key, hL.life, hL.legal⟩

theorem State.dropEdgesOf_later {r0 : State} (s : State) (n : Nat) (hL : Later r0 s) : Later r0 (State.dropEdgesOf s n) := 
  ⟨hL.it, hL.mem, hL.queue, hL.roll, hL.key, hL.life, hL.legal⟩

theorem State.modBank_later {r0 : State} (s : State) (b : Nat) (f : Bank → Bank) (hL : Later r0 s) : Later r0 (State.modBank s b f) := 
  ⟨hL.it, hL.mem, hL.queue, hL.roll, hL.key, hL.life, hL.legal⟩

theorem State.modDie_later {r0 : State} (s : State) (d : Nat) (f : Die → Die) (hL : Later r0 s) : Later r0 (State.modDie s d f) := 
  ⟨hL.it, hL.mem, hL.queue, hL.roll, hL.key, hL.life, hL.legal⟩

theorem State.modSpray_later {r0 : State} (s : State) (o : Nat) (f : List Spray → List Spray) (hL : Later r0 s) : Later r0 (State.modSpray s o f) := 
  ⟨hL.it, hL.mem, hL.queue, hL.roll, hL.key, hL.life, hL.legal⟩

theorem State.sprayStart_later {r0 : State} (s : State) (o : Nat) (pull : IT) (t : IT) (hL : Later r0 s) : Later r0 (State.sprayStart s o pull t) := 
  ⟨hL.it, hL.mem, hL.queue, hL.roll, hL.key, hL.life, hL.legal⟩

theorem State.sprayCmd_later {r0 : State} (s : State) (o : Nat) (t : IT) (hL : Later r0 s) : Later r0 (State.sprayCmd s o t) := 
  ⟨hL.it, hL.mem, hL.queue, hL.roll, hL.key, hL.life, hL.legal⟩

theorem State.sprayEnd_later {r0 : State} (s : State) (o : Nat) (c : IT) (t : IT) (since : IT) (unobs : Bool) (hL : Later r0 s) : Later r0 (State.sprayEnd s o c t since unobs) := 
  ⟨hL.it, hL.mem, hL.queue, hL.roll, hL.key, hL.life, hL.legal⟩

theorem State.sprayVoid_later {r0 : State} (s : State) (o : Nat) (t : IT) (hL : Later r0 s) : Later r0 (State.sprayVoid s o t) := 
  ⟨hL.it, hL.mem, hL.queue, hL.roll, hL.key, hL.life, hL.legal⟩

theorem State.setCommon_later {r0 : State} (s : State) (b : Nat) (hL : Later r0 s) : Later r0 (State.setCommon s b) := by
  unfold State.setCommon
  repeat' with_reducible first
    | assumption
    | (extract_lets +onlyGivenNames a; refine Later.cut (r := r0) a ?_ ?_; (on_goal 2 => intro _; clear_value a); (on_goal 1 => subst a))
    | (extract_lets +onlyGivenNames a; clear_value a)
    | apply State.modBank_later
    | apply Later.ite
    | fail_if_no_progress apply Later.upd
    | fail_if_no_progress apply Later.upd_mem
    | fail_if_no_progress apply Later.upd_it
    | split

theorem State.loseWindow_later {r0 : State} (s : State) (n : Nat) (cl : Closing) (t : IT) (hL : Later r0 s) : Later r0 (State.loseWindow s n cl t) := by
  unfold State.loseWindow
  repeat' with_reducible first
    | assumption
    | (extract_lets +onlyGivenNames a; refine Later.cut (r := r0) a ?_ ?_; (on_goal 2 => intro _; clear_value a); (on_goal 1 => subst a))
    | (extract_lets +onlyGivenNames a; clear_value a)
    | apply State.modCh_later
    | apply State.sprayEnd_later
    | apply Later.ite
    | fail_if_no_progress apply Later.upd
    | fail_if_no_progress apply Later.upd_mem
    | fail_if_no_progress apply Later.upd_it
    | split

theorem State.pullIn_later {r0 : State} (s : State) (n : Nat) (e : DieEdge) (railMv : Nat) (supplyMv : Nat) (hL : Later r0 s) : Later r0 (State.pullIn s n e railMv supplyMv) := by
  unfold State.pullIn
  repeat' with_reducible first
    | assumption
    | (extract_lets +onlyGivenNames a; refine Later.cut (r := r0) a ?_ ?_; (on_goal 2 => intro _; clear_value a); (on_goal 1 => subst a))
    | (extract_lets +onlyGivenNames a; clear_value a)
    | apply State.modCh_later
    | apply State.at_later
    | apply State.loseWindow_later
    | apply State.setCommon_later
    | apply State.modBank_later
    | apply Later.foldl
    | apply Later.foldl_fst
    | apply Later.ite
    | intro _ _ _

theorem execPullInStart_later {r0 : State} (n : Fin 128) (railMv : Nat) (supplyMv : Nat) (s : State) (hL : Later r0 s) : ∃ s', execPullInStart n railMv supplyMv s = .next s' ∧ Later r0 s' := by
  unfold execPullInStart
  refine ⟨_, rfl, ?_⟩
  repeat' with_reducible first
    | assumption
    | apply State.pullIn_later
    | apply Later.ite
    | fail_if_no_progress apply Later.upd
    | fail_if_no_progress apply Later.upd_mem
    | fail_if_no_progress apply Later.upd_it
    | split

theorem execPeakReached_later {r0 : State} (n : Fin 128) (t : IT) (s : State) (hL : Later r0 s) : ∃ s', execPeakReached n t s = .next s' ∧ Later r0 s' := by
  unfold execPeakReached
  refine ⟨_, rfl, ?_⟩
  repeat' with_reducible first
    | assumption
    | (extract_lets +onlyGivenNames a; refine Later.cut (r := r0) a ?_ ?_; (on_goal 2 => intro _; clear_value a); (on_goal 1 => subst a))
    | (extract_lets +onlyGivenNames a; clear_value a)
    | apply State.at_later
    | apply State.modCh_later
    | apply State.sprayStart_later
    | apply Later.ite

theorem State.endReserve_later {r0 : State} (s : State) (n : Nat) (hL : Later r0 s) : Later r0 (State.endReserve s n) := 
  ⟨hL.it, hL.mem, hL.queue, hL.roll, hL.key, hL.life, hL.legal⟩

theorem execPullInWindowEnd_later {r0 : State} (n : Fin 128) (endMa : Nat) (s : State) (hL : Later r0 s) : ∃ s', execPullInWindowEnd n endMa s = .next s' ∧ Later r0 s' := by
  unfold execPullInWindowEnd
  refine ⟨_, rfl, ?_⟩
  repeat' with_reducible first
    | assumption
    | (extract_lets +onlyGivenNames a; refine Later.cut (r := r0) a ?_ ?_; (on_goal 2 => intro _; clear_value a); (on_goal 1 => subst a))
    | (extract_lets +onlyGivenNames a; clear_value a)
    | apply State.endReserve_later
    | apply State.at_later
    | apply State.modCh_later
    | apply State.draw_later
    | apply State.sprayStart_later
    | apply State.setCommon_later
    | apply Later.ite
    | fail_if_no_progress apply Later.upd
    | fail_if_no_progress apply Later.upd_mem
    | fail_if_no_progress apply Later.upd_it
    | split

theorem State.closeWith_later {r0 : State} (s : State) (n : Nat) (t : IT) (how : CloseBy) (c : Nat) (boost : Bool) (hL : Later r0 s) : Later r0 (State.closeWith s n t how c boost) := by
  unfold State.closeWith
  repeat' with_reducible first
    | assumption
    | (extract_lets +onlyGivenNames a; refine Later.cut (r := r0) a ?_ ?_; (on_goal 2 => intro _; clear_value a); (on_goal 1 => subst a))
    | (extract_lets +onlyGivenNames a; clear_value a)
    | apply State.at_later
    | apply State.sprayVoid_later
    | apply State.sprayCmd_later
    | apply State.sprayStart_later
    | apply State.modCh_later
    | apply State.modBank_later
    | apply State.setCommon_later
    | apply State.endReserve_later
    | apply Later.ite
    | fail_if_no_progress apply Later.upd
    | fail_if_no_progress apply Later.upd_mem
    | fail_if_no_progress apply Later.upd_it
    | split

theorem State.closeCh_later {r0 : State} (s : State) (n : Nat) (t : IT) (how : CloseBy) (hL : Later r0 s) : Later r0 (State.closeCh s n t how) := by
  unfold State.closeCh
  repeat' with_reducible first
    | assumption
    | (extract_lets +onlyGivenNames a; refine Later.cut (r := r0) a ?_ ?_; (on_goal 2 => intro _; clear_value a); (on_goal 1 => subst a))
    | (extract_lets +onlyGivenNames a; clear_value a)
    | apply State.closeWith_later
    | apply Later.ite

theorem State.closeTogether_later {r0 : State} (s : State) (l : List Nat) (t : IT) (how : CloseBy) (hL : Later r0 s) : Later r0 (State.closeTogether s l t how) := by
  unfold State.closeTogether
  repeat' with_reducible first
    | assumption
    | (extract_lets +onlyGivenNames a; refine Later.cut (r := r0) a ?_ ?_; (on_goal 2 => intro _; clear_value a); (on_goal 1 => subst a))
    | (extract_lets +onlyGivenNames a; clear_value a)
    | apply State.closeWith_later
    | apply Later.foldl
    | apply Later.foldl_fst
    | apply Later.ite
    | fail_if_no_progress apply Later.upd
    | fail_if_no_progress apply Later.upd_mem
    | fail_if_no_progress apply Later.upd_it
    | intro _ _ _
    | split

theorem execClosingCommand_later {r0 : State} (n : Fin 128) (s : State) (hL : Later r0 s) : ∃ s', execClosingCommand n s = .next s' ∧ Later r0 s' := by
  unfold execClosingCommand
  refine ⟨_, rfl, ?_⟩
  repeat' with_reducible first
    | assumption
    | apply State.modCh_later
    | apply State.at_later
    | apply State.closeWith_later
    | apply Later.ite
    | fail_if_no_progress apply Later.upd
    | fail_if_no_progress apply Later.upd_mem
    | fail_if_no_progress apply Later.upd_it
    | split

theorem State.modClosing_later {r0 : State} (s : State) (n : Nat) (cmd : IT) (f : Closing → Closing) (hL : Later r0 s) : Later r0 (State.modClosing s n cmd f) := 
  ⟨hL.it, hL.mem, hL.queue, hL.roll, hL.key, hL.life, hL.legal⟩

theorem execDecayEnd_later {r0 : State} (n : Fin 128) (t : IT) (s : State) (hL : Later r0 s) : ∃ s', execDecayEnd n t s = .next s' ∧ Later r0 s' := by
  unfold execDecayEnd
  refine ⟨_, rfl, ?_⟩
  repeat' with_reducible first
    | assumption
    | (extract_lets +onlyGivenNames a; refine Later.cut (r := r0) a ?_ ?_; (on_goal 2 => intro _; clear_value a); (on_goal 1 => subst a))
    | (extract_lets +onlyGivenNames a; clear_value a)
    | apply State.modClosing_later
    | apply State.at_later
    | apply State.modCh_later
    | apply State.setCommon_later
    | apply Later.ite
    | fail_if_no_progress apply Later.upd
    | fail_if_no_progress apply Later.upd_mem
    | fail_if_no_progress apply Later.upd_it
    | split

theorem State.openWindow_later {r0 : State} (s : State) (n : Nat) (cl : Closing) (hL : Later r0 s) : Later r0 (State.openWindow s n cl) := by
  unfold State.openWindow
  repeat' with_reducible first
    | assumption
    | (extract_lets +onlyGivenNames a; refine Later.cut (r := r0) a ?_ ?_; (on_goal 2 => intro _; clear_value a); (on_goal 1 => subst a))
    | (extract_lets +onlyGivenNames a; clear_value a)
    | apply State.at_later
    | apply State.modDie_later
    | apply State.modCh_later
    | apply State.modClosing_later
    | apply State.loseWindow_later
    | apply Later.ite
    | fail_if_no_progress apply Later.upd
    | fail_if_no_progress apply Later.upd_mem
    | fail_if_no_progress apply Later.upd_it
    | split

theorem execKinkWindowOpen_later {r0 : State} (n : Fin 128) (s : State) (hL : Later r0 s) : ∃ s', execKinkWindowOpen n s = .next s' ∧ Later r0 s' := by
  unfold execKinkWindowOpen
  refine ⟨_, rfl, ?_⟩
  repeat' with_reducible first
    | assumption
    | (extract_lets +onlyGivenNames a; refine Later.cut (r := r0) a ?_ ?_; (on_goal 2 => intro _; clear_value a); (on_goal 1 => subst a))
    | (extract_lets +onlyGivenNames a; clear_value a)
    | apply State.openWindow_later
    | apply Later.foldl
    | apply Later.foldl_fst
    | apply Later.ite
    | fail_if_no_progress apply Later.upd
    | fail_if_no_progress apply Later.upd_mem
    | fail_if_no_progress apply Later.upd_it
    | intro _ _ _
    | split

theorem execKinkFound_later {r0 : State} (n : Fin 128) (samples : List Int) (s : State) (hL : Later r0 s) : ∃ s', execKinkFound n samples s = .next s' ∧ Later r0 s' := by
  unfold execKinkFound
  refine ⟨_, rfl, ?_⟩
  repeat' with_reducible first
    | assumption
    | (extract_lets +onlyGivenNames a; refine Later.cut (r := r0) a ?_ ?_; (on_goal 2 => intro _; clear_value a); (on_goal 1 => subst a))
    | (extract_lets +onlyGivenNames a; clear_value a)
    | apply State.modClosing_later
    | apply State.at_later
    | apply State.modCh_later
    | apply State.sprayEnd_later
    | apply Later.ite
    | fail_if_no_progress apply Later.upd
    | fail_if_no_progress apply Later.upd_mem
    | fail_if_no_progress apply Later.upd_it
    | split

theorem execKinkWindowClose_later {r0 : State} (n : Fin 128) (s : State) (hL : Later r0 s) : ∃ s', execKinkWindowClose n s = .next s' ∧ Later r0 s' := by
  unfold execKinkWindowClose
  refine ⟨_, rfl, ?_⟩
  repeat' with_reducible first
    | assumption
    | (extract_lets +onlyGivenNames a; refine Later.cut (r := r0) a ?_ ?_; (on_goal 2 => intro _; clear_value a); (on_goal 1 => subst a))
    | (extract_lets +onlyGivenNames a; clear_value a)
    | apply State.modCh_later
    | apply State.at_later
    | apply State.loseWindow_later
    | apply State.modClosing_later
    | apply State.report_later
    | apply Later.ite
    | fail_if_no_progress apply Later.upd
    | fail_if_no_progress apply Later.upd_mem
    | fail_if_no_progress apply Later.upd_it
    | split

theorem execChannelOverCurrent_later {r0 : State} (n : Fin 128) (x : TripIn) (s : State) (hL : Later r0 s) : ∃ s', execChannelOverCurrent n x s = .next s' ∧ Later r0 s' := by
  unfold execChannelOverCurrent
  refine ⟨_, rfl, ?_⟩
  repeat' with_reducible first
    | assumption
    | (extract_lets +onlyGivenNames a; refine Later.cut (r := r0) a ?_ ?_; (on_goal 2 => intro _; clear_value a); (on_goal 1 => subst a))
    | (extract_lets +onlyGivenNames a; clear_value a)
    | apply State.closeCh_later
    | apply State.modCh_later
    | apply State.report_later
    | apply State.record_later
    | apply Later.ite

theorem execBankOverCurrent_later {r0 : State} (b : Fin 16) (x : TripIn) (s : State) (hL : Later r0 s) : ∃ s', execBankOverCurrent b x s = .next s' ∧ Later r0 s' := by
  unfold execBankOverCurrent
  refine ⟨_, rfl, ?_⟩
  repeat' with_reducible first
    | assumption
    | (extract_lets +onlyGivenNames a; refine Later.cut (r := r0) a ?_ ?_; (on_goal 2 => intro _; clear_value a); (on_goal 1 => subst a))
    | (extract_lets +onlyGivenNames a; clear_value a)
    | apply State.closeTogether_later
    | apply State.at_later
    | apply State.modBank_later
    | apply State.setCommon_later
    | apply State.report_later
    | apply Later.ite
    | fail_if_no_progress apply Later.upd
    | fail_if_no_progress apply Later.upd_mem
    | fail_if_no_progress apply Later.upd_it

theorem execBankRetryExpiry_later {r0 : State} (b : Fin 16) (s : State) (hL : Later r0 s) : ∃ s', execBankRetryExpiry b s = .next s' ∧ Later r0 s' := by
  unfold execBankRetryExpiry
  refine ⟨_, rfl, ?_⟩
  repeat' with_reducible first
    | assumption
    | apply State.setCommon_later
    | apply State.modBank_later
    | apply State.at_later
    | apply Later.ite
    | fail_if_no_progress apply Later.upd
    | fail_if_no_progress apply Later.upd_mem
    | fail_if_no_progress apply Later.upd_it
    | split

theorem execChannelStuckOn_later {r0 : State} (n : Fin 128) (s : State) (hL : Later r0 s) : ∃ s', execChannelStuckOn n s = .next s' ∧ Later r0 s' := by
  unfold execChannelStuckOn
  refine ⟨_, rfl, ?_⟩
  repeat' with_reducible first
    | assumption
    | (extract_lets +onlyGivenNames a; refine Later.cut (r := r0) a ?_ ?_; (on_goal 2 => intro _; clear_value a); (on_goal 1 => subst a))
    | (extract_lets +onlyGivenNames a; clear_value a)
    | apply State.at_later
    | apply State.modCh_later
    | apply State.setCommon_later
    | apply State.modBank_later
    | apply State.report_later
    | apply Later.ite
    | fail_if_no_progress apply Later.upd
    | fail_if_no_progress apply Later.upd_mem
    | fail_if_no_progress apply Later.upd_it
    | split

theorem execBankSwitchFault_later {r0 : State} (b : Fin 16) (t : IT) (s : State) (hL : Later r0 s) : ∃ s', execBankSwitchFault b t s = .next s' ∧ Later r0 s' := by
  unfold execBankSwitchFault
  refine ⟨_, rfl, ?_⟩
  repeat' with_reducible first
    | assumption
    | apply State.whenAwake_later
    | apply State.report_later
    | apply State.modBank_later
    | apply State.at_later
    | apply Later.ite
    | fail_if_no_progress apply Later.upd
    | fail_if_no_progress apply Later.upd_mem
    | fail_if_no_progress apply Later.upd_it
    | intro _ _

theorem State.clearChannel_later {r0 : State} (s : State) (n : Nat) (hL : Later r0 s) : Later r0 (State.clearChannel s n) := 
  ⟨hL.it, hL.mem, hL.queue, hL.roll, hL.key, hL.life, hL.legal⟩

theorem State.clearBank_later {r0 : State} (s : State) (b : Nat) (hL : Later r0 s) : Later r0 (State.clearBank s b) := by
  unfold State.clearBank
  repeat' with_reducible first
    | assumption
    | (extract_lets +onlyGivenNames a; refine Later.cut (r := r0) a ?_ ?_; (on_goal 2 => intro _; clear_value a); (on_goal 1 => subst a))
    | (extract_lets +onlyGivenNames a; clear_value a)
    | apply State.setCommon_later
    | apply State.modBank_later
    | apply Later.ite
    | fail_if_no_progress apply Later.upd
    | fail_if_no_progress apply Later.upd_mem
    | fail_if_no_progress apply Later.upd_it
    | split

theorem State.bankBack_later {r0 : State} (s : State) (b : Nat) (hL : Later r0 s) : Later r0 (State.bankBack s b) := by
  unfold State.bankBack
  repeat' with_reducible first
    | assumption
    | (extract_lets +onlyGivenNames a; refine Later.cut (r := r0) a ?_ ?_; (on_goal 2 => intro _; clear_value a); (on_goal 1 => subst a))
    | (extract_lets +onlyGivenNames a; clear_value a)
    | apply State.setCommon_later
    | apply State.modBank_later
    | apply Later.ite
    | fail_if_no_progress apply Later.upd
    | fail_if_no_progress apply Later.upd_mem
    | fail_if_no_progress apply Later.upd_it
    | split

theorem State.resetChannel_later {r0 : State} (s : State) (t : IT) (n : Nat) (hL : Later r0 s) : Later r0 (State.resetChannel s t n) := by
  unfold State.resetChannel
  repeat' with_reducible first
    | assumption
    | (extract_lets +onlyGivenNames a; refine Later.cut (r := r0) a ?_ ?_; (on_goal 2 => intro _; clear_value a); (on_goal 1 => subst a))
    | (extract_lets +onlyGivenNames a; clear_value a)
    | apply State.loseWindow_later
    | apply State.sprayVoid_later
    | apply State.sprayStart_later
    | apply State.sprayEnd_later
    | apply State.sprayCmd_later
    | apply State.modCh_later
    | apply State.modBank_later
    | apply State.endReserve_later
    | apply Later.foldl
    | apply Later.foldl_fst
    | apply Later.ite
    | fail_if_no_progress apply Later.upd
    | fail_if_no_progress apply Later.upd_mem
    | fail_if_no_progress apply Later.upd_it
    | intro _ _ _
    | split

theorem State.dieReset_later {r0 : State} (s : State) (d : Nat) (cause : Nat) (t : IT) (hL : Later r0 s) : Later r0 (State.dieReset s d cause t) := by
  unfold State.dieReset
  repeat' with_reducible first
    | assumption
    | (extract_lets +onlyGivenNames a; refine Later.cut (r := r0) a ?_ ?_; (on_goal 2 => intro _; clear_value a); (on_goal 1 => subst a))
    | (extract_lets +onlyGivenNames a; clear_value a)
    | apply State.resetChannel_later
    | apply State.at_later
    | apply State.modDie_later
    | apply State.recordAt_later
    | apply State.report_later
    | apply Later.foldl
    | apply Later.foldl_fst
    | apply Later.ite
    | fail_if_no_progress apply Later.upd
    | fail_if_no_progress apply Later.upd_mem
    | fail_if_no_progress apply Later.upd_it
    | intro _ _ _

theorem execEdgeWordError_later {r0 : State} (d : Fin 4) (c : EdgeCause) (t : IT) (s : State) (hL : Later r0 s) : ∃ s', execEdgeWordError d c t s = .next s' ∧ Later r0 s' := by
  unfold execEdgeWordError
  refine ⟨_, rfl, ?_⟩
  repeat' with_reducible first
    | assumption
    | apply State.dieReset_later
    | apply Later.ite

theorem State.missDue_later {r0 : State} (s : State) (t : IT) (n : Nat) (hL : Later r0 s) : Later r0 (State.missDue s t n) := 
  ⟨hL.it, hL.mem, hL.queue, hL.roll, hL.key, hL.life, hL.legal⟩

theorem execDieRestartDone_later {r0 : State} (d : Fin 4) (t : IT) (s : State) (hL : Later r0 s) : ∃ s', execDieRestartDone d t s = .next s' ∧ Later r0 s' := by
  unfold execDieRestartDone
  refine ⟨_, rfl, ?_⟩
  repeat' with_reducible first
    | assumption
    | (extract_lets +onlyGivenNames a; refine Later.cut (r := r0) a ?_ ?_; (on_goal 2 => intro _; clear_value a); (on_goal 1 => subst a))
    | (extract_lets +onlyGivenNames a; clear_value a)
    | apply State.modDie_later
    | apply State.at_later
    | apply State.modCh_later
    | apply State.missDue_later
    | apply State.setCommon_later
    | apply State.modBank_later
    | apply Later.foldl
    | apply Later.foldl_fst
    | apply Later.ite
    | fail_if_no_progress apply Later.upd
    | fail_if_no_progress apply Later.upd_mem
    | fail_if_no_progress apply Later.upd_it
    | intro _ _ _

theorem State.learnCh_later {r0 : State} (s : State) (n : Nat) (hL : Later r0 s) : Later r0 (State.learnCh s n) := by
  unfold State.learnCh
  repeat' with_reducible first
    | assumption
    | (extract_lets +onlyGivenNames a; clear_value a)
    | apply State.modCh_later
    | apply State.recordIf_later
    | apply Later.foldl
    | apply Later.foldl_fst
    | apply Later.ite
    | fail_if_no_progress apply Later.upd
    | fail_if_no_progress apply Later.upd_mem
    | fail_if_no_progress apply Later.upd_it
    | intro _ _ _

theorem State.predictCh_later {r0 : State} (s : State) (n : Nat) (railMv : Nat) (supplyMv : Nat) (hL : Later r0 s) : Later r0 (State.predictCh s n railMv supplyMv) := by
  unfold State.predictCh
  repeat' with_reducible first
    | assumption
    | (extract_lets +onlyGivenNames a; clear_value a)
    | apply State.modCh_later
    | apply Later.ite

theorem State.coilStep_later {r0 : State} (s : State) (n : Nat) (ma2 : Nat) (clampNc : Nat) (hL : Later r0 s) : Later r0 (State.coilStep s n ma2 clampNc) := by
  unfold State.coilStep
  repeat' with_reducible first
    | assumption
    | (extract_lets +onlyGivenNames a; clear_value a)
    | apply State.modCh_later
    | apply Later.ite

theorem State.coilThreshold_later {r0 : State} (s : State) (n : Nat) (t : IT) (hL : Later r0 s) : Later r0 (State.coilThreshold s n t) := by
  unfold State.coilThreshold
  repeat' with_reducible first
    | assumption
    | (extract_lets +onlyGivenNames a; refine Later.cut (r := r0) a ?_ ?_; (on_goal 2 => intro _; clear_value a); (on_goal 1 => subst a))
    | (extract_lets +onlyGivenNames a; clear_value a)
    | apply State.modCh_later
    | apply State.recordIf_later
    | apply State.record_later
    | apply State.closeCh_later
    | apply Later.ite

end Sys2Proof.Machine
end

