-- ==== Sys2Proof/Laws/LaterBudget.lean ====
section
/-! SUPPORT. What no operation of Budget.lean undoes: each moves the state Later. -/


namespace Sys2Proof.Machine

theorem State.modLd_later {r0 : State} (s : State) (j : Nat) (f : Load → Load) (hL : Later r0 s) : Later r0 (State.modLd s j f) := 
  ⟨hL.it, hL.mem, hL.queue, hL.roll, hL.key, hL.life, hL.legal⟩

theorem State.refill_later {r0 : State} (s : State) (t : IT) (hL : Later r0 s) : Later r0 (State.refill s t) := 
  ⟨hL.it, hL.mem, hL.queue, hL.roll, hL.key, hL.life, hL.legal⟩

theorem State.releaseClamp_later {r0 : State} (s : State) (j : Nat) (hL : Later r0 s) : Later r0 (State.releaseClamp s j) := 
  ⟨hL.it, hL.mem, hL.queue, hL.roll, hL.key, hL.life, hL.legal⟩

theorem State.loadOff_later {r0 : State} (s : State) (j : Nat) (hL : Later r0 s) : Later r0 (State.loadOff s j) := 
  ⟨hL.it, hL.mem, hL.queue, hL.roll, hL.key, hL.life, hL.legal⟩

theorem State.dropResvs_later {r0 : State} (s : State) (hL : Later r0 s) : Later r0 (State.dropResvs s) := 
  ⟨hL.it, hL.mem, hL.queue, hL.roll, hL.key, hL.life, hL.legal⟩

theorem State.addResv_later {r0 : State} (s : State) (r : Resv) (hL : Later r0 s) : Later r0 (State.addResv s r) := 
  ⟨hL.it, hL.mem, hL.queue, hL.roll, hL.key, hL.life, hL.legal⟩

theorem State.shedLoad_later {r0 : State} (s : State) (j : Nat) (hL : Later r0 s) : Later r0 (State.shedLoad s j) := by
  unfold State.shedLoad
  repeat' with_reducible first
    | assumption
    | (extract_lets +onlyGivenNames a; refine Later.cut (r := r0) a ?_ ?_; (on_goal 2 => intro _; clear_value a); (on_goal 1 => subst a))
    | (extract_lets +onlyGivenNames a; clear_value a)
    | apply State.releaseClamp_later
    | apply State.modLd_later
    | apply State.record_later
    | apply State.addResv_later

theorem State.shedUntil_later {r0 : State} (s : State) (input : Nat) (ma : Nat) (a3 : List Nat) (hL : Later r0 s) : Later r0 (State.shedUntil s input ma a3) := by
  induction a3 generalizing s with
  | nil => simpa [State.shedUntil] using hL
  | cons _ _ ih =>
    unfold State.shedUntil
    repeat' with_reducible first
      | assumption
      | apply ih
      | refine Later.of_pair ‹_› ?_
      | apply Later.ite_fst
      | apply State.shedLoad_later
      | apply Later.ite

theorem State.noteVerdict_later {r0 : State} (s : State) (a : Ask) (v : Verdict) (hL : Later r0 s) : Later r0 (State.noteVerdict s a v) := 
  ⟨hL.it, hL.mem, hL.queue, hL.roll, hL.key, hL.life, hL.legal⟩

theorem State.judge_later {r0 : State} (s : State) (a : Ask) (hL : Later r0 s) : Later r0 (State.judge s a).1 := by
  unfold State.judge
  repeat' with_reducible first
    | assumption
    | (extract_lets +onlyGivenNames a; refine Later.cut (r := r0) a ?_ ?_; (on_goal 2 => intro _; clear_value a); (on_goal 1 => subst a))
    | (extract_lets +onlyGivenNames a; clear_value a)
    | refine Later.of_pair ‹_› ?_
    | apply Later.ite_fst
    | apply State.dropResvs_later
    | apply State.shedUntil_later

theorem State.request_later {r0 : State} (s : State) (a : Ask) (till : IT) (pull : Bool) (hL : Later r0 s) : Later r0 (State.request s a till pull).1 := by
  unfold State.request
  repeat' with_reducible first
    | assumption
    | (extract_lets +onlyGivenNames a; refine Later.cut (r := r0) a ?_ ?_; (on_goal 2 => intro _; clear_value a); (on_goal 1 => subst a))
    | refine Later.of_pair ‹_› ?_
    | apply Later.ite_fst
    | apply State.judge_later
    | apply State.noteVerdict_later
    | apply State.addResv_later
    | apply Later.ite
    | fail_if_no_progress apply Later.upd
    | fail_if_no_progress apply Later.upd_mem
    | fail_if_no_progress apply Later.upd_it
    | split

theorem State.requestPull_later {r0 : State} (s : State) (n : Nat) (t : IT) (hL : Later r0 s) : Later r0 (State.requestPull s n t).1 := by
  unfold State.requestPull
  repeat' with_reducible first
    | assumption
    | (extract_lets +onlyGivenNames a; refine Later.cut (r := r0) a ?_ ?_; (on_goal 2 => intro _; clear_value a); (on_goal 1 => subst a))
    | (extract_lets +onlyGivenNames a; clear_value a)
    | refine Later.of_pair ‹_› ?_
    | apply Later.ite_fst
    | apply State.noteVerdict_later
    | apply State.request_later
    | apply Later.ite
    | fail_if_no_progress apply Later.upd

theorem State.requestTorque_later {r0 : State} (s : State) (o : Nat) (ma : Nat) (till : IT) (hL : Later r0 s) : Later r0 (State.requestTorque s o ma till).1 := by
  unfold State.requestTorque
  repeat' with_reducible first
    | assumption
    | (extract_lets +onlyGivenNames a; clear_value a)
    | refine Later.of_pair ‹_› ?_
    | apply Later.ite_fst
    | apply State.request_later

theorem State.requestLoad_later {r0 : State} (s : State) (j : Nat) (hL : Later r0 s) : Later r0 (State.requestLoad s j).1 := by
  unfold State.requestLoad
  repeat' with_reducible first
    | assumption
    | refine Later.of_pair ‹_› ?_
    | apply Later.ite_fst
    | apply State.request_later

theorem State.measureBudget_later {r0 : State} (s : State) (f : FrameIn) (hL : Later r0 s) : Later r0 (State.measureBudget s f) := 
  ⟨hL.it, hL.mem, hL.queue, hL.roll, hL.key, hL.life, hL.legal⟩

theorem State.shedForBobbin_later {r0 : State} (s : State) (want : Nat) (a2 : List Nat) (hL : Later r0 s) : Later r0 (State.shedForBobbin s want a2) := by
  induction a2 generalizing s with
  | nil => simpa [State.shedForBobbin] using hL
  | cons _ _ ih =>
    unfold State.shedForBobbin
    repeat' with_reducible first
      | assumption
      | apply ih
      | refine Later.of_pair ‹_› ?_
      | apply Later.ite_fst
      | apply State.shedLoad_later
      | apply Later.ite

theorem State.allotBobbin_later {r0 : State} (s : State) (hL : Later r0 s) : Later r0 (State.allotBobbin s) := by
  unfold State.allotBobbin
  repeat' with_reducible first
    | assumption
    | (extract_lets +onlyGivenNames a; refine Later.cut (r := r0) a ?_ ?_; (on_goal 2 => intro _; clear_value a); (on_goal 1 => subst a))
    | (extract_lets +onlyGivenNames a; clear_value a)
    | apply State.shedForBobbin_later
    | apply State.noteVerdict_later
    | apply Later.ite
    | fail_if_no_progress apply Later.upd

theorem State.overBudget_later {r0 : State} (s : State) (hL : Later r0 s) : Later r0 (State.overBudget s) := by
  unfold State.overBudget
  repeat' with_reducible first
    | assumption
    | (extract_lets +onlyGivenNames a; refine Later.cut (r := r0) a ?_ ?_; (on_goal 2 => intro _; clear_value a); (on_goal 1 => subst a))
    | (extract_lets +onlyGivenNames a; clear_value a)
    | apply State.shedLoad_later
    | apply Later.ite
    | fail_if_no_progress apply Later.upd
    | fail_if_no_progress apply Later.upd_mem
    | fail_if_no_progress apply Later.upd_it
    | split

theorem State.showBudget_later {r0 : State} (s : State) (hL : Later r0 s) : Later r0 (State.showBudget s) := 
  ⟨hL.it, hL.mem, hL.queue, hL.roll, hL.key, hL.life, hL.legal⟩

theorem execBudgetOverrun_later {r0 : State} (s : State) (hL : Later r0 s) : ∃ s', execBudgetOverrun s = .next s' ∧ Later r0 s' := by
  unfold execBudgetOverrun
  refine ⟨_, rfl, ?_⟩
  repeat' with_reducible first
    | assumption
    | (extract_lets +onlyGivenNames a; refine Later.cut (r := r0) a ?_ ?_; (on_goal 2 => intro _; clear_value a); (on_goal 1 => subst a))
    | (extract_lets +onlyGivenNames a; clear_value a)
    | apply State.at_later
    | apply State.record_later
    | apply Later.ite
    | fail_if_no_progress apply Later.upd
    | fail_if_no_progress apply Later.upd_mem
    | fail_if_no_progress apply Later.upd_it
    | split

theorem execSupplyFault_later {r0 : State} (x : SupplySubject) (c : SupplyCause) (value : Nat) (t : IT) (s : State) (hL : Later r0 s) : ∃ s', execSupplyFault x c value t s = .next s' ∧ Later r0 s' := by
  unfold execSupplyFault
  refine ⟨_, rfl, ?_⟩
  repeat' with_reducible first
    | assumption
    | (extract_lets +onlyGivenNames a; refine Later.cut (r := r0) a ?_ ?_; (on_goal 2 => intro _; clear_value a); (on_goal 1 => subst a))
    | (extract_lets +onlyGivenNames a; clear_value a)
    | apply State.whenAwake_later
    | apply State.at_later
    | apply State.report_later
    | apply State.record_later
    | apply Later.ite
    | fail_if_no_progress apply Later.upd
    | fail_if_no_progress apply Later.upd_mem
    | fail_if_no_progress apply Later.upd_it
    | intro _ _

theorem execSensorSupplyOverload_later {r0 : State} (i : Fin 2) (t : IT) (s : State) (hL : Later r0 s) : ∃ s', execSensorSupplyOverload i t s = .next s' ∧ Later r0 s' := by
  unfold execSensorSupplyOverload
  refine ⟨_, rfl, ?_⟩
  repeat' with_reducible first
    | assumption
    | (extract_lets +onlyGivenNames a; refine Later.cut (r := r0) a ?_ ?_; (on_goal 2 => intro _; clear_value a); (on_goal 1 => subst a))
    | (extract_lets +onlyGivenNames a; clear_value a)
    | apply State.whenAwake_later
    | apply State.at_later
    | apply State.record_later
    | apply Later.ite
    | fail_if_no_progress apply Later.upd
    | fail_if_no_progress apply Later.upd_mem
    | fail_if_no_progress apply Later.upd_it
    | intro _ _

theorem execSensorSupplyRetry_later {r0 : State} (i : Fin 2) (s : State) (hL : Later r0 s) : ∃ s', execSensorSupplyRetry i s = .next s' ∧ Later r0 s' := by
  unfold execSensorSupplyRetry
  refine ⟨_, rfl, ?_⟩
  repeat' with_reducible first
    | assumption
    | (extract_lets +onlyGivenNames a; refine Later.cut (r := r0) a ?_ ?_; (on_goal 2 => intro _; clear_value a); (on_goal 1 => subst a))
    | (extract_lets +onlyGivenNames a; clear_value a)
    | apply State.at_later
    | apply Later.ite
    | fail_if_no_progress apply Later.upd
    | fail_if_no_progress apply Later.upd_mem
    | fail_if_no_progress apply Later.upd_it
    | split

end Sys2Proof.Machine
end

