-- ==== Sys2Proof/Laws/LaterBobbin.lean ====
section
/-! SUPPORT. What no operation of Bobbin.lean undoes: each moves the state Later. -/


namespace Sys2Proof.Machine

theorem State.modBob_later {r0 : State} (s : State) (f : Bobbin → Bobbin) (hL : Later r0 s) : Later r0 (State.modBob s f) := 
  ⟨hL.it, hL.mem, hL.queue, hL.roll, hL.key, hL.life, hL.legal⟩

theorem State.railHighCh_later {r0 : State} (s : State) (n : Nat) (hL : Later r0 s) : Later r0 (State.railHighCh s n) := by
  unfold State.railHighCh
  repeat' with_reducible first
    | assumption
    | (extract_lets +onlyGivenNames a; refine Later.cut (r := r0) a ?_ ?_; (on_goal 2 => intro _; clear_value a); (on_goal 1 => subst a))
    | (extract_lets +onlyGivenNames a; clear_value a)
    | apply State.modCh_later
    | apply State.modClosing_later
    | apply State.modBank_later
    | apply Later.ite
    | fail_if_no_progress apply Later.upd
    | fail_if_no_progress apply Later.upd_mem
    | fail_if_no_progress apply Later.upd_it
    | split

theorem execRailHigh_later {r0 : State} (t : IT) (s : State) (hL : Later r0 s) : ∃ s', execRailHigh t s = .next s' ∧ Later r0 s' := by
  unfold execRailHigh
  refine ⟨_, rfl, ?_⟩
  repeat' with_reducible first
    | assumption
    | apply State.whenAwake_later
    | apply State.railHighCh_later
    | apply State.modBob_later
    | apply State.at_later
    | apply Later.foldl
    | apply Later.foldl_fst
    | apply Later.ite
    | fail_if_no_progress apply Later.upd
    | fail_if_no_progress apply Later.upd_mem
    | fail_if_no_progress apply Later.upd_it
    | intro _ _ _
    | intro _ _

theorem execRailHighClear_later {r0 : State} (t : IT) (s : State) (hL : Later r0 s) : ∃ s', execRailHighClear t s = .next s' ∧ Later r0 s' := by
  unfold execRailHighClear
  refine ⟨_, rfl, ?_⟩
  repeat' with_reducible first
    | assumption
    | apply State.whenAwake_later
    | apply State.modBob_later
    | apply State.at_later
    | apply Later.ite
    | fail_if_no_progress apply Later.upd
    | fail_if_no_progress apply Later.upd_mem
    | fail_if_no_progress apply Later.upd_it
    | intro _ _

theorem execRailFault_later {r0 : State} (c : RailCause) (t : IT) (s : State) (hL : Later r0 s) : ∃ s', execRailFault c t s = .next s' ∧ Later r0 s' := by
  unfold execRailFault
  refine ⟨_, rfl, ?_⟩
  repeat' with_reducible first
    | assumption
    | (extract_lets +onlyGivenNames a; refine Later.cut (r := r0) a ?_ ?_; (on_goal 2 => intro _; clear_value a); (on_goal 1 => subst a))
    | apply State.whenAwake_later
    | apply State.modBob_later
    | apply State.at_later
    | apply State.report_later
    | apply Later.ite
    | fail_if_no_progress apply Later.upd
    | fail_if_no_progress apply Later.upd_mem
    | fail_if_no_progress apply Later.upd_it
    | intro _ _

theorem execSupplyHigh_later {r0 : State} (t : IT) (s : State) (hL : Later r0 s) : ∃ s', execSupplyHigh t s = .next s' ∧ Later r0 s' := by
  unfold execSupplyHigh
  refine ⟨_, rfl, ?_⟩
  repeat' with_reducible first
    | assumption
    | apply State.whenAwake_later
    | apply State.modBob_later
    | apply State.at_later
    | apply Later.ite
    | fail_if_no_progress apply Later.upd
    | fail_if_no_progress apply Later.upd_mem
    | fail_if_no_progress apply Later.upd_it
    | intro _ _

theorem execSupplyHighClear_later {r0 : State} (t : IT) (s : State) (hL : Later r0 s) : ∃ s', execSupplyHighClear t s = .next s' ∧ Later r0 s' := by
  unfold execSupplyHighClear
  refine ⟨_, rfl, ?_⟩
  repeat' with_reducible first
    | assumption
    | apply State.whenAwake_later
    | apply State.modBob_later
    | apply State.at_later
    | apply Later.ite
    | fail_if_no_progress apply Later.upd
    | fail_if_no_progress apply Later.upd_mem
    | fail_if_no_progress apply Later.upd_it
    | intro _ _

theorem execPrechargeComplete_later {r0 : State} (t : IT) (chargeUc : Nat) (gainedMv : Nat) (s : State) (hL : Later r0 s) : ∃ s', execPrechargeComplete t chargeUc gainedMv s = .next s' ∧ Later r0 s' := by
  unfold execPrechargeComplete
  refine ⟨_, rfl, ?_⟩
  repeat' with_reducible first
    | assumption
    | (extract_lets +onlyGivenNames a; refine Later.cut (r := r0) a ?_ ?_; (on_goal 2 => intro _; clear_value a); (on_goal 1 => subst a))
    | (extract_lets +onlyGivenNames a; clear_value a)
    | apply State.modBob_later
    | apply State.at_later
    | apply State.recordIf_later
    | apply Later.ite

theorem State.startDischarge_later {r0 : State} (s : State) (hL : Later r0 s) : Later r0 (State.startDischarge s) := 
  ⟨hL.it, hL.mem, hL.queue, hL.roll, hL.key, hL.life, hL.legal⟩

theorem State.bobbinEnter_later {r0 : State} (s : State) (d : DevState) (hL : Later r0 s) : Later r0 (State.bobbinEnter s d) := by
  unfold State.bobbinEnter
  repeat' with_reducible first
    | assumption
    | apply State.modBob_later
    | apply State.startDischarge_later
    | apply Later.ite
    | fail_if_no_progress apply Later.upd
    | fail_if_no_progress apply Later.upd_mem
    | fail_if_no_progress apply Later.upd_it
    | split

theorem State.bobbinFollow_later {r0 : State} (s : State) (hL : Later r0 s) : Later r0 (State.bobbinFollow s) := by
  unfold State.bobbinFollow
  repeat' with_reducible first
    | assumption
    | (extract_lets +onlyGivenNames a; refine Later.cut (r := r0) a ?_ ?_; (on_goal 2 => intro _; clear_value a); (on_goal 1 => subst a))
    | (extract_lets +onlyGivenNames a; clear_value a)
    | apply State.bobbinEnter_later
    | apply Later.ite
    | fail_if_no_progress apply Later.upd
    | fail_if_no_progress apply Later.upd_mem
    | fail_if_no_progress apply Later.upd_it
    | split

theorem State.bobbinFrame_later {r0 : State} (s : State) (f : FrameIn) (hL : Later r0 s) : Later r0 (State.bobbinFrame s f) := by
  unfold State.bobbinFrame
  repeat' with_reducible first
    | assumption
    | (extract_lets +onlyGivenNames a; refine Later.cut (r := r0) a ?_ ?_; (on_goal 2 => intro _; clear_value a); (on_goal 1 => subst a))
    | (extract_lets +onlyGivenNames a; clear_value a)
    | apply State.bobbinFollow_later
    | apply State.modBob_later
    | apply Later.ite
    | fail_if_no_progress apply Later.upd
    | fail_if_no_progress apply Later.upd_mem
    | fail_if_no_progress apply Later.upd_it
    | split

end Sys2Proof.Machine
end

