-- ==== Sys2Proof/Laws/LaterLoads.lean ====
section
/-! SUPPORT. What no operation of Loads.lean undoes: each moves the state Later. -/


namespace Sys2Proof.Machine

theorem State.reserveClamp_later {r0 : State} (s : State) (j : Nat) (hL : Later r0 s) : Later r0 (State.reserveClamp s j).1 := by
  unfold State.reserveClamp
  repeat' with_reducible first
    | assumption
    | (extract_lets +onlyGivenNames a; refine Later.cut (r := r0) a ?_ ?_; (on_goal 2 => intro _; clear_value a); (on_goal 1 => subst a))
    | (extract_lets +onlyGivenNames a; clear_value a)
    | refine Later.of_pair ‹_› ?_
    | apply Later.ite_fst
    | apply State.refill_later
    | apply State.modLd_later
    | apply Later.ite
    | fail_if_no_progress apply Later.upd

theorem State.ldTry_later {r0 : State} (s : State) (j : Nat) (hL : Later r0 s) : Later r0 (State.ldTry s j) := by
  unfold State.ldTry
  repeat' with_reducible first
    | assumption
    | (extract_lets +onlyGivenNames a; clear_value a)
    | refine Later.of_pair ‹_› ?_
    | apply Later.ite_fst
    | apply State.reserveClamp_later
    | apply State.requestLoad_later
    | apply State.modLd_later
    | apply Later.ite
    | fail_if_no_progress apply Later.upd
    | fail_if_no_progress apply Later.upd_mem
    | fail_if_no_progress apply Later.upd_it
    | split

theorem State.ldFollow_later {r0 : State} (s : State) (j : Nat) (hL : Later r0 s) : Later r0 (State.ldFollow s j) := by
  unfold State.ldFollow
  repeat' with_reducible first
    | assumption
    | (extract_lets +onlyGivenNames a; clear_value a)
    | apply State.loadOff_later
    | apply State.ldTry_later
    | apply Later.ite

theorem State.clampMeasured_later {r0 : State} (s : State) (j : Nat) (mj : Nat) (hL : Later r0 s) : Later r0 (State.clampMeasured s j mj) := by
  unfold State.clampMeasured
  repeat' with_reducible first
    | assumption
    | (extract_lets +onlyGivenNames a; refine Later.cut (r := r0) a ?_ ?_; (on_goal 2 => intro _; clear_value a); (on_goal 1 => subst a))
    | (extract_lets +onlyGivenNames a; clear_value a)
    | apply State.modLd_later
    | apply State.record_later
    | apply Later.ite

theorem State.ldCommand_later {r0 : State} (s : State) (j : Nat) (hL : Later r0 s) : Later r0 (State.ldCommand s j) := by
  unfold State.ldCommand
  repeat' with_reducible first
    | assumption
    | apply State.ldFollow_later

theorem execLoadTrip_later {r0 : State} (j : Fin 16) (k : LoadTripKind) (t : IT) (clampMj : Nat) (s : State) (hL : Later r0 s) : ∃ s', execLoadTrip j k t clampMj s = .next s' ∧ Later r0 s' := by
  unfold execLoadTrip
  refine ⟨_, rfl, ?_⟩
  repeat' with_reducible first
    | assumption
    | (extract_lets +onlyGivenNames a; refine Later.cut (r := r0) a ?_ ?_; (on_goal 2 => intro _; clear_value a); (on_goal 1 => subst a))
    | (extract_lets +onlyGivenNames a; clear_value a)
    | apply State.loadOff_later
    | apply State.at_later
    | apply State.clampMeasured_later
    | apply State.modLd_later
    | apply State.record_later
    | apply State.recordIf_later
    | apply State.report_later
    | apply Later.ite

theorem execLoadCounterReset_later {r0 : State} (j : Fin 16) (s : State) (hL : Later r0 s) : ∃ s', execLoadCounterReset j s = .next s' ∧ Later r0 s' := by
  unfold execLoadCounterReset
  refine ⟨_, rfl, ?_⟩
  repeat' with_reducible first
    | assumption
    | (extract_lets +onlyGivenNames a; clear_value a)
    | apply State.modLd_later
    | apply State.at_later
    | apply Later.ite

theorem State.clearLoad_later {r0 : State} (s : State) (j : Nat) (v : Nat) (hL : Later r0 s) : Later r0 (State.clearLoad s j v) := 
  ⟨hL.it, hL.mem, hL.queue, hL.roll, hL.key, hL.life, hL.legal⟩

theorem execOpenLoad_later {r0 : State} (j : Fin 16) (t : IT) (s : State) (hL : Later r0 s) : ∃ s', execOpenLoad j t s = .next s' ∧ Later r0 s' := by
  unfold execOpenLoad
  refine ⟨_, rfl, ?_⟩
  split
  · exact hL
  · split
    · exact State.modLd_later _ _ _ (State.at_later _ _ hL)
    · exact hL

theorem State.loadMeasure_later {r0 : State} (s : State) (f : FrameIn) (j : Nat) (hL : Later r0 s) : Later r0 (State.loadMeasure s f j) := by
  unfold State.loadMeasure
  repeat' with_reducible first
    | assumption
    | (extract_lets +onlyGivenNames a; refine Later.cut (r := r0) a ?_ ?_; (on_goal 2 => intro _; clear_value a); (on_goal 1 => subst a))
    | (extract_lets +onlyGivenNames a; clear_value a)
    | apply State.modLd_later
    | apply State.clampMeasured_later
    | apply Later.ite
    | fail_if_no_progress apply Later.upd
    | fail_if_no_progress apply Later.upd_mem
    | fail_if_no_progress apply Later.upd_it
    | split

theorem State.loadFrame_later {r0 : State} (s : State) (j : Nat) (hL : Later r0 s) : Later r0 (State.loadFrame s j) := by
  unfold State.loadFrame
  repeat' with_reducible first
    | assumption
    | (extract_lets +onlyGivenNames a; refine Later.cut (r := r0) a ?_ ?_; (on_goal 2 => intro _; clear_value a); (on_goal 1 => subst a))
    | (extract_lets +onlyGivenNames a; clear_value a)
    | apply State.ldFollow_later
    | apply State.modLd_later
    | apply Later.ite

theorem State.loadsFollow_later {r0 : State} (s : State) (hL : Later r0 s) : Later r0 (State.loadsFollow s) := by
  unfold State.loadsFollow
  repeat' with_reducible first
    | assumption
    | apply State.ldFollow_later
    | apply Later.foldl

theorem State.loadsOff_later {r0 : State} (s : State) (hL : Later r0 s) : Later r0 (State.loadsOff s) := by
  unfold State.loadsOff
  repeat' with_reducible first
    | assumption
    | (extract_lets +onlyGivenNames a; refine Later.cut (r := r0) a ?_ ?_; (on_goal 2 => intro _; clear_value a); (on_goal 1 => subst a))
    | (extract_lets +onlyGivenNames a; clear_value a)
    | apply State.ldFollow_later
    | apply Later.foldl
    | apply Later.foldl_fst
    | apply Later.ite
    | fail_if_no_progress apply Later.upd
    | fail_if_no_progress apply Later.upd_mem
    | fail_if_no_progress apply Later.upd_it
    | intro _ _ _
    | split

end Sys2Proof.Machine
end

