-- ==== Sys2Proof/Laws/LaterThermal.lean ====
section
/-! SUPPORT. What no operation of Thermal.lean undoes: each moves the state Later. -/


namespace Sys2Proof.Machine

theorem State.modTherm_later {r0 : State} (s : State) (f : Thermal → Thermal) (hL : Later r0 s) : Later r0 (State.modTherm s f) := 
  ⟨hL.it, hL.mem, hL.queue, hL.roll, hL.key, hL.life, hL.legal⟩

theorem State.markFailed_later {r0 : State} (s : State) (i : Nat) (cause : Nat) (hL : Later r0 s) : Later r0 (State.markFailed s i cause) := 
  ⟨hL.it, hL.mem, hL.queue, hL.roll, hL.key, hL.life, hL.legal⟩

theorem State.throttleHold_later {r0 : State} (s : State) (d : Nat) (hL : Later r0 s) : Later r0 (State.throttleHold s d) := 
  ⟨hL.it, hL.mem, hL.queue, hL.roll, hL.key, hL.life, hL.legal⟩

theorem State.resubstitute_later {r0 : State} (s : State) (i : Nat) (hL : Later r0 s) : Later r0 (State.resubstitute s i) := by
  unfold State.resubstitute
  dsimp only
  repeat' with_reducible first
    | assumption
    | (extract_lets +onlyGivenNames a; clear_value a)
    | apply State.modTherm_later
    | apply State.recordIf_later
    | apply State.throttleHold_later
    | apply Later.ite
    | fail_if_no_progress apply Later.upd
    | fail_if_no_progress apply Later.upd_mem
    | fail_if_no_progress apply Later.upd_it
    | split

theorem State.noteFailure_later {r0 : State} (s : State) (i : Nat) (cause : Nat) (hottest : Bool) (hL : Later r0 s) : Later r0 (State.noteFailure s i cause hottest) := by
  unfold State.noteFailure
  repeat' with_reducible first
    | assumption
    | (extract_lets +onlyGivenNames a; refine Later.cut (r := r0) a ?_ ?_; (on_goal 2 => intro _; clear_value a); (on_goal 1 => subst a))
    | (extract_lets +onlyGivenNames a; clear_value a)
    | apply State.record_later
    | apply State.report_later
    | apply State.modTherm_later
    | apply State.resubstitute_later
    | apply Later.ite
    | fail_if_no_progress apply Later.upd
    | fail_if_no_progress apply Later.upd_mem
    | fail_if_no_progress apply Later.upd_it
    | split

theorem execSensorUnavailableExpiry_later {r0 : State} (d : Fin 4) (s : State) (hL : Later r0 s) : ∃ s', execSensorUnavailableExpiry d s = .next s' ∧ Later r0 s' := by
  unfold execSensorUnavailableExpiry
  refine ⟨_, rfl, ?_⟩
  repeat' with_reducible first
    | assumption
    | (extract_lets +onlyGivenNames a; refine Later.cut (r := r0) a ?_ ?_; (on_goal 2 => intro _; clear_value a); (on_goal 1 => subst a))
    | apply State.at_later
    | apply State.modTherm_later
    | apply State.markFailed_later
    | apply State.noteFailure_later
    | apply Later.foldl
    | apply Later.foldl_fst
    | apply Later.ite
    | fail_if_no_progress apply Later.upd
    | fail_if_no_progress apply Later.upd_mem
    | fail_if_no_progress apply Later.upd_it
    | intro _ _ _
    | split

theorem execThrottleHoldExpiry_later {r0 : State} (d : Fin 6) (s : State) (hL : Later r0 s) : ∃ s', execThrottleHoldExpiry d s = .next s' ∧ Later r0 s' := by
  unfold execThrottleHoldExpiry
  refine ⟨_, rfl, ?_⟩
  repeat' with_reducible first
    | assumption
    | apply State.modTherm_later
    | apply State.at_later
    | apply Later.ite
    | fail_if_no_progress apply Later.upd
    | fail_if_no_progress apply Later.upd_mem
    | fail_if_no_progress apply Later.upd_it
    | split

theorem State.readSensor_later {r0 : State} (s : State) (f : FrameIn) (failing : List Nat) (i : Nat) (hL : Later r0 s) : Later r0 (State.readSensor s f failing i) := by
  unfold State.readSensor
  repeat' with_reducible first
    | assumption
    | (extract_lets +onlyGivenNames a; refine Later.cut (r := r0) a ?_ ?_; (on_goal 2 => intro _; clear_value a); (on_goal 1 => subst a))
    | (extract_lets +onlyGivenNames a; clear_value a)
    | apply State.modTherm_later
    | apply Later.ite

theorem State.blindCheck_later {r0 : State} (s : State) (d : Nat) (hL : Later r0 s) : Later r0 (State.blindCheck s d) := by
  unfold State.blindCheck
  repeat' with_reducible first
    | assumption
    | (extract_lets +onlyGivenNames a; refine Later.cut (r := r0) a ?_ ?_; (on_goal 2 => intro _; clear_value a); (on_goal 1 => subst a))
    | (extract_lets +onlyGivenNames a; clear_value a)
    | apply State.modTherm_later
    | apply State.report_later
    | apply Later.ite
    | fail_if_no_progress apply Later.upd
    | fail_if_no_progress apply Later.upd_mem
    | fail_if_no_progress apply Later.upd_it
    | split

theorem State.crossCheck_later {r0 : State} (s : State) (d : Nat) (hL : Later r0 s) : Later r0 (State.crossCheck s d).1 := by
  unfold State.crossCheck
  dsimp only
  repeat' with_reducible first
    | assumption
    | (extract_lets +onlyGivenNames a; refine Later.cut (r := r0) a ?_ ?_; (on_goal 2 => intro _; clear_value a); (on_goal 1 => subst a))
    | (extract_lets +onlyGivenNames a; refine Later.cut (r := r0) a.1 ?_ ?_; (on_goal 2 => intro _; clear_value a); (on_goal 1 => subst a))
    | (extract_lets +onlyGivenNames a; refine Later.cut (r := r0) a.s ?_ ?_; (on_goal 2 => intro _; clear_value a); (on_goal 1 => subst a))
    | (extract_lets +onlyGivenNames a; clear_value a)
    | refine Later.of_pair ‹_› ?_
    | apply Later.ite_fst
    | apply State.markFailed_later
    | apply State.modTherm_later
    | apply Later.foldl
    | apply Later.foldl_fst
    | apply Later.ite
    | fail_if_no_progress apply Later.upd
    | fail_if_no_progress apply Later.upd_mem
    | fail_if_no_progress apply Later.upd_it
    | intro _ _ _
    | split

theorem State.setLevel_later {r0 : State} (s : State) (d : Nat) (hL : Later r0 s) : Later r0 (State.setLevel s d) := by
  unfold State.setLevel
  repeat' with_reducible first
    | assumption
    | (extract_lets +onlyGivenNames a; refine Later.cut (r := r0) a ?_ ?_; (on_goal 2 => intro _; clear_value a); (on_goal 1 => subst a))
    | (extract_lets +onlyGivenNames a; clear_value a)
    | apply State.modTherm_later
    | apply State.record_later
    | apply Later.ite

theorem State.shutdownCheck_later {r0 : State} (s : State) (i : Nat) (hL : Later r0 s) : Later r0 (State.shutdownCheck s i) := by
  unfold State.shutdownCheck
  repeat' with_reducible first
    | assumption
    | (extract_lets +onlyGivenNames a; refine Later.cut (r := r0) a ?_ ?_; (on_goal 2 => intro _; clear_value a); (on_goal 1 => subst a))
    | (extract_lets +onlyGivenNames a; clear_value a)
    | apply State.modTherm_later
    | apply State.report_later
    | apply State.record_later
    | apply Later.ite
    | fail_if_no_progress apply Later.upd

theorem State.samplePeriod_later {r0 : State} (s : State) (hL : Later r0 s) : Later r0 (State.samplePeriod s) := by
  unfold State.samplePeriod
  repeat' with_reducible first
    | assumption
    | (extract_lets +onlyGivenNames a; clear_value a)
    | apply State.modTherm_later
    | apply Later.ite

theorem State.thermalShow_later {r0 : State} (s : State) (hL : Later r0 s) : Later r0 (State.thermalShow s) := 
  ⟨hL.it, hL.mem, hL.queue, hL.roll, hL.key, hL.life, hL.legal⟩

theorem State.thermalSample_later {r0 : State} (s : State) (f : FrameIn) (hL : Later r0 s) : Later r0 (State.thermalSample s f) := by
  unfold State.thermalSample
  repeat' with_reducible first
    | assumption
    | (extract_lets +onlyGivenNames a; refine Later.cut (r := r0) a ?_ ?_; (on_goal 2 => intro _; clear_value a); (on_goal 1 => subst a))
    | (extract_lets +onlyGivenNames a; refine Later.cut (r := r0) a.1 ?_ ?_; (on_goal 2 => intro _; clear_value a); (on_goal 1 => subst a))
    | (extract_lets +onlyGivenNames a; refine Later.cut (r := r0) a.s ?_ ?_; (on_goal 2 => intro _; clear_value a); (on_goal 1 => subst a))
    | (extract_lets +onlyGivenNames a; clear_value a)
    | refine Later.of_pair ‹_› ?_
    | apply Later.ite_fst
    | apply State.markFailed_later
    | apply State.readSensor_later
    | apply State.crossCheck_later
    | apply State.noteFailure_later
    | apply State.resubstitute_later
    | apply State.blindCheck_later
    | apply State.shutdownCheck_later
    | apply State.setLevel_later
    | apply State.thermalShow_later
    | apply State.samplePeriod_later
    | apply Later.foldl
    | apply Later.foldl_fst
    | apply Later.ite
    | fail_if_no_progress apply Later.upd
    | fail_if_no_progress apply Later.upd_mem
    | fail_if_no_progress apply Later.upd_it
    | intro _ _ _

theorem State.thermalNotices_later {r0 : State} (s : State) (hL : Later r0 s) : Later r0 (State.thermalNotices s) := 
  ⟨hL.it, hL.mem, hL.queue, hL.roll, hL.key, hL.life, hL.legal⟩

end Sys2Proof.Machine
end

