-- ==== Sys2Proof/Laws/LaterFlyer.lean ====
section
/-! SUPPORT. What no operation of Flyer.lean undoes: each moves the state Later. -/


namespace Sys2Proof.Machine

theorem State.modSp_later {r0 : State} (s : State) (k : Nat) (f : Spinner → Spinner) (hL : Later r0 s) : Later r0 (State.modSp s k f) := 
  ⟨hL.it, hL.mem, hL.queue, hL.roll, hL.key, hL.life, hL.legal⟩

theorem State.spinWrite_later {r0 : State} (s : State) (k : Nat) (f : SpinSet → SpinSet) (hL : Later r0 s) : Later r0 (State.spinWrite s k f) := 
  ⟨hL.it, hL.mem, hL.queue, hL.roll, hL.key, hL.life, hL.legal⟩

theorem State.spinParam_later {r0 : State} (s : State) (k : Nat) (sub : Nat) (hL : Later r0 s) : Later r0 (State.spinParam s k sub) := by
  unfold State.spinParam
  repeat' with_reducible first
    | assumption
    | (extract_lets +onlyGivenNames a; refine Later.cut (r := r0) a ?_ ?_; (on_goal 2 => intro _; clear_value a); (on_goal 1 => subst a))
    | (extract_lets +onlyGivenNames a; clear_value a)
    | apply State.spinWrite_later
    | apply Later.ite
    | fail_if_no_progress apply Later.upd
    | fail_if_no_progress apply Later.upd_mem
    | fail_if_no_progress apply Later.upd_it
    | split

theorem State.spinCap_later {r0 : State} (s : State) (k : Nat) (hL : Later r0 s) : Later r0 (State.spinCap s k) := by
  unfold State.spinCap
  repeat' with_reducible first
    | assumption
    | (extract_lets +onlyGivenNames a; refine Later.cut (r := r0) a ?_ ?_; (on_goal 2 => intro _; clear_value a); (on_goal 1 => subst a))
    | (extract_lets +onlyGivenNames a; clear_value a)
    | apply State.spinWrite_later
    | apply Later.ite
    | fail_if_no_progress apply Later.upd
    | fail_if_no_progress apply Later.upd_mem
    | fail_if_no_progress apply Later.upd_it
    | split

theorem State.spinDest_later {r0 : State} (s : State) (k : Nat) (hL : Later r0 s) : Later r0 (State.spinDest s k) := by
  unfold State.spinDest
  repeat' with_reducible first
    | assumption
    | (extract_lets +onlyGivenNames a; refine Later.cut (r := r0) a ?_ ?_; (on_goal 2 => intro _; clear_value a); (on_goal 1 => subst a))
    | (extract_lets +onlyGivenNames a; clear_value a)
    | apply State.spinWrite_later
    | apply Later.ite
    | fail_if_no_progress apply Later.upd
    | fail_if_no_progress apply Later.upd_mem
    | fail_if_no_progress apply Later.upd_it
    | split

theorem State.spinCommit_later {r0 : State} (s : State) (k : Nat) (hL : Later r0 s) : Later r0 (State.spinCommit s k) := by
  unfold State.spinCommit
  repeat' with_reducible first
    | assumption
    | (extract_lets +onlyGivenNames a; refine Later.cut (r := r0) a ?_ ?_; (on_goal 2 => intro _; clear_value a); (on_goal 1 => subst a))
    | (extract_lets +onlyGivenNames a; clear_value a)
    | apply State.spinWrite_later
    | apply State.modSp_later
    | apply Later.ite

theorem State.followJoin_later {r0 : State} (s : State) (k : Nat) (l : Nat) (hL : Later r0 s) : Later r0 (State.followJoin s k l) := by
  unfold State.followJoin
  repeat' with_reducible first
    | assumption
    | (extract_lets +onlyGivenNames a; refine Later.cut (r := r0) a ?_ ?_; (on_goal 2 => intro _; clear_value a); (on_goal 1 => subst a))
    | (extract_lets +onlyGivenNames a; clear_value a)
    | apply State.spinWrite_later
    | apply State.modSp_later
    | apply Later.ite
    | fail_if_no_progress apply Later.upd
    | fail_if_no_progress apply Later.upd_mem
    | fail_if_no_progress apply Later.upd_it
    | split

theorem State.followCommit_later {r0 : State} (s : State) (k : Nat) (hL : Later r0 s) : Later r0 (State.followCommit s k) := by
  unfold State.followCommit
  repeat' with_reducible first
    | assumption
    | (extract_lets +onlyGivenNames a; refine Later.cut (r := r0) a ?_ ?_; (on_goal 2 => intro _; clear_value a); (on_goal 1 => subst a))
    | (extract_lets +onlyGivenNames a; clear_value a)
    | apply State.followJoin_later
    | apply Later.ite
    | fail_if_no_progress apply Later.upd
    | fail_if_no_progress apply Later.upd_mem
    | fail_if_no_progress apply Later.upd_it
    | split

theorem State.spinLead_later {r0 : State} (s : State) (k : Nat) (hL : Later r0 s) : Later r0 (State.spinLead s k) := by
  unfold State.spinLead
  repeat' with_reducible first
    | assumption
    | (extract_lets +onlyGivenNames a; refine Later.cut (r := r0) a ?_ ?_; (on_goal 2 => intro _; clear_value a); (on_goal 1 => subst a))
    | (extract_lets +onlyGivenNames a; clear_value a)
    | apply State.followJoin_later
    | apply State.modSp_later
    | apply State.spinWrite_later
    | apply Later.ite
    | fail_if_no_progress apply Later.upd
    | fail_if_no_progress apply Later.upd_mem
    | fail_if_no_progress apply Later.upd_it
    | split

theorem State.spinsCommit_later {r0 : State} (s : State) (hL : Later r0 s) : Later r0 (State.spinsCommit s) := by
  unfold State.spinsCommit
  repeat' with_reducible first
    | assumption
    | (extract_lets +onlyGivenNames a; refine Later.cut (r := r0) a ?_ ?_; (on_goal 2 => intro _; clear_value a); (on_goal 1 => subst a))
    | (extract_lets +onlyGivenNames a; clear_value a)
    | apply State.followCommit_later
    | apply State.spinCommit_later
    | apply Later.foldl
    | apply Later.foldl_fst
    | apply Later.ite
    | fail_if_no_progress apply Later.upd
    | fail_if_no_progress apply Later.upd_mem
    | fail_if_no_progress apply Later.upd_it
    | intro _ _ _
    | split

theorem State.spinFollow_later {r0 : State} (s : State) (k : Nat) (hL : Later r0 s) : Later r0 (State.spinFollow s k) := by
  unfold State.spinFollow
  repeat' with_reducible first
    | assumption
    | (extract_lets +onlyGivenNames a; refine Later.cut (r := r0) a ?_ ?_; (on_goal 2 => intro _; clear_value a); (on_goal 1 => subst a))
    | (extract_lets +onlyGivenNames a; clear_value a)
    | apply State.modSp_later
    | apply Later.ite
    | fail_if_no_progress apply Later.upd
    | fail_if_no_progress apply Later.upd_mem
    | fail_if_no_progress apply Later.upd_it
    | split

theorem State.spinsFollow_later {r0 : State} (s : State) (hL : Later r0 s) : Later r0 (State.spinsFollow s) := by
  unfold State.spinsFollow
  repeat' with_reducible first
    | assumption
    | (extract_lets +onlyGivenNames a; refine Later.cut (r := r0) a ?_ ?_; (on_goal 2 => intro _; clear_value a); (on_goal 1 => subst a))
    | (extract_lets +onlyGivenNames a; clear_value a)
    | apply State.spinFollow_later
    | apply State.spinCap_later
    | apply Later.foldl
    | apply Later.foldl_fst
    | apply Later.ite
    | fail_if_no_progress apply Later.upd
    | fail_if_no_progress apply Later.upd_mem
    | fail_if_no_progress apply Later.upd_it
    | intro _ _ _
    | split

theorem State.spinPeriod_later {r0 : State} (s : State) (k : Nat) (hL : Later r0 s) : Later r0 (State.spinPeriod s k) := by
  unfold State.spinPeriod
  repeat' with_reducible first
    | assumption
    | (extract_lets +onlyGivenNames a; clear_value a)
    | apply State.modSp_later
    | apply Later.ite

theorem State.spinTransfer_later {r0 : State} (s : State) (k : Nat) (hL : Later r0 s) : Later r0 (State.spinTransfer s k) := by
  unfold State.spinTransfer
  repeat' with_reducible first
    | assumption
    | (extract_lets +onlyGivenNames a; refine Later.cut (r := r0) a ?_ ?_; (on_goal 2 => intro _; clear_value a); (on_goal 1 => subst a))
    | (extract_lets +onlyGivenNames a; clear_value a)
    | apply State.at_later
    | apply State.modSp_later

theorem execLoadRestart_later {r0 : State} (j : Fin 16) (t : IT) (junction : Int) (s : State) (hL : Later r0 s) : ∃ s', execLoadRestart j t junction s = .next s' ∧ Later r0 s' := by
  unfold execLoadRestart
  refine ⟨_, rfl, ?_⟩
  repeat' with_reducible first
    | assumption
    | (extract_lets +onlyGivenNames a; refine Later.cut (r := r0) a ?_ ?_; (on_goal 2 => intro _; clear_value a); (on_goal 1 => subst a))
    | (extract_lets +onlyGivenNames a; clear_value a)
    | apply State.modLd_later
    | apply State.at_later
    | apply State.spinsFollow_later
    | apply State.ldTry_later
    | apply Later.ite
    | fail_if_no_progress apply Later.upd
    | fail_if_no_progress apply Later.upd_mem
    | fail_if_no_progress apply Later.upd_it
    | split

theorem execLoadShedRetry_later {r0 : State} (j : Fin 16) (s : State) (hL : Later r0 s) : ∃ s', execLoadShedRetry j s = .next s' ∧ Later r0 s' := by
  unfold execLoadShedRetry
  refine ⟨_, rfl, ?_⟩
  repeat' with_reducible first
    | assumption
    | apply State.spinsFollow_later
    | apply State.ldTry_later
    | apply State.modLd_later
    | apply State.at_later
    | apply Later.ite
    | fail_if_no_progress apply Later.upd
    | fail_if_no_progress apply Later.upd_mem
    | fail_if_no_progress apply Later.upd_it
    | split

end Sys2Proof.Machine
end

