-- ==== Sys2Proof/Laws/LaterBridges.lean ====
section
/-! SUPPORT. What no operation of Bridges.lean undoes: each moves the state Later. -/


namespace Sys2Proof.Machine

theorem State.modBr_later {r0 : State} (s : State) (h : Nat) (f : Bridge → Bridge) (hL : Later r0 s) : Later r0 (State.modBr s h f) := 
  ⟨hL.it, hL.mem, hL.queue, hL.roll, hL.key, hL.life, hL.legal⟩

theorem State.modPt_later {r0 : State} (s : State) (g : Nat) (f : Port → Port) (hL : Later r0 s) : Later r0 (State.modPt s g f) := 
  ⟨hL.it, hL.mem, hL.queue, hL.roll, hL.key, hL.life, hL.legal⟩

theorem State.writeDuty_later {r0 : State} (s : State) (d : Nat) (w : Nat) (hL : Later r0 s) : Later r0 (State.writeDuty s d w) := by
  unfold State.writeDuty
  repeat' with_reducible first
    | assumption
    | apply State.spinWrite_later
    | apply Later.ite
    | fail_if_no_progress apply Later.upd
    | fail_if_no_progress apply Later.upd_mem
    | fail_if_no_progress apply Later.upd_it
    | split

theorem State.passDuty_later {r0 : State} (s : State) (h : Nat) (w : Nat) (hL : Later r0 s) : Later r0 (State.passDuty s h w) := by
  unfold State.passDuty
  repeat' with_reducible first
    | assumption
    | (extract_lets +onlyGivenNames a; refine Later.cut (r := r0) a ?_ ?_; (on_goal 2 => intro _; clear_value a); (on_goal 1 => subst a))
    | (extract_lets +onlyGivenNames a; clear_value a)
    | apply State.writeDuty_later
    | apply State.draw_later
    | apply Later.ite
    | fail_if_no_progress apply Later.upd
    | fail_if_no_progress apply Later.upd_mem
    | fail_if_no_progress apply Later.upd_it
    | split

theorem State.bridgeCmd_later {r0 : State} (s : State) (h : Nat) (u : F32) (hL : Later r0 s) : Later r0 (State.bridgeCmd s h u) := by
  unfold State.bridgeCmd
  repeat' with_reducible first
    | assumption
    | (extract_lets +onlyGivenNames a; refine Later.cut (r := r0) a ?_ ?_; (on_goal 2 => intro _; clear_value a); (on_goal 1 => subst a))
    | (extract_lets +onlyGivenNames a; clear_value a)
    | apply State.modBr_later
    | apply State.passDuty_later
    | apply Later.ite

theorem State.commutate_later {r0 : State} (s : State) (g : Nat) (hL : Later r0 s) : Later r0 (State.commutate s g) := 
  ⟨hL.it, hL.mem, hL.queue, hL.roll, hL.key, hL.life, hL.legal⟩

theorem State.portCmd_later {r0 : State} (s : State) (g : Nat) (u : F32) (hL : Later r0 s) : Later r0 (State.portCmd s g u) := by
  unfold State.portCmd
  repeat' with_reducible first
    | assumption
    | (extract_lets +onlyGivenNames a; refine Later.cut (r := r0) a ?_ ?_; (on_goal 2 => intro _; clear_value a); (on_goal 1 => subst a))
    | apply State.modPt_later
    | apply State.writeDuty_later
    | apply State.commutate_later

theorem State.valveStart_later {r0 : State} (s : State) (h : Nat) (opens : Bool) (pct : Nat) (hL : Later r0 s) : Later r0 (State.valveStart s h opens pct) := by
  unfold State.valveStart
  repeat' with_reducible first
    | assumption
    | (extract_lets +onlyGivenNames a; refine Later.cut (r := r0) a ?_ ?_; (on_goal 2 => intro _; clear_value a); (on_goal 1 => subst a))
    | (extract_lets +onlyGivenNames a; clear_value a)
    | apply State.modBr_later
    | apply State.passDuty_later

theorem State.valveAsk_later {r0 : State} (s : State) (h : Nat) (first : IT) (hL : Later r0 s) : Later r0 (State.valveAsk s h first) := by
  unfold State.valveAsk
  dsimp only
  repeat' with_reducible first
    | assumption
    | refine Later.of_pair ‹_› ?_
    | apply Later.ite_fst
    | apply State.requestTorque_later
    | apply State.sprayStart_later
    | apply State.valveStart_later
    | apply State.record_later
    | apply State.modBr_later
    | apply Later.ite
    | fail_if_no_progress apply Later.upd
    | fail_if_no_progress apply Later.upd_mem
    | fail_if_no_progress apply Later.upd_it
    | split

theorem State.valveClose_later {r0 : State} (s : State) (h : Nat) (hL : Later r0 s) : Later r0 (State.valveClose s h) := by
  unfold State.valveClose
  repeat' with_reducible first
    | assumption
    | (extract_lets +onlyGivenNames a; refine Later.cut (r := r0) a ?_ ?_; (on_goal 2 => intro _; clear_value a); (on_goal 1 => subst a))
    | (extract_lets +onlyGivenNames a; clear_value a)
    | apply State.noteVerdict_later
    | apply State.sprayEnd_later
    | apply State.sprayCmd_later
    | apply State.valveStart_later
    | apply State.modBr_later
    | apply Later.ite

theorem State.valveEdge_later {r0 : State} (s : State) (h : Nat) (opens : Bool) (hL : Later r0 s) : Later r0 (State.valveEdge s h opens) := by
  unfold State.valveEdge
  repeat' with_reducible first
    | assumption
    | (extract_lets +onlyGivenNames a; refine Later.cut (r := r0) a ?_ ?_; (on_goal 2 => intro _; clear_value a); (on_goal 1 => subst a))
    | (extract_lets +onlyGivenNames a; clear_value a)
    | apply State.modBr_later
    | apply State.valveAsk_later
    | apply State.valveClose_later
    | apply Later.ite
    | fail_if_no_progress apply Later.upd
    | fail_if_no_progress apply Later.upd_mem
    | fail_if_no_progress apply Later.upd_it
    | split

theorem execValveDriveStart_later {r0 : State} (h : Fin 4) (s : State) (hL : Later r0 s) : ∃ s', execValveDriveStart h s = .next s' ∧ Later r0 s' := by
  unfold execValveDriveStart
  refine ⟨_, rfl, ?_⟩
  repeat' with_reducible first
    | assumption
    | (extract_lets +onlyGivenNames a; refine Later.cut (r := r0) a ?_ ?_; (on_goal 2 => intro _; clear_value a); (on_goal 1 => subst a))
    | apply State.valveEdge_later
    | apply State.modBr_later
    | apply State.at_later
    | apply Later.ite
    | fail_if_no_progress apply Later.upd
    | fail_if_no_progress apply Later.upd_mem
    | fail_if_no_progress apply Later.upd_it
    | split

theorem execValveDriveRetry_later {r0 : State} (h : Fin 4) (s : State) (hL : Later r0 s) : ∃ s', execValveDriveRetry h s = .next s' ∧ Later r0 s' := by
  unfold execValveDriveRetry
  refine ⟨_, rfl, ?_⟩
  repeat' with_reducible first
    | assumption
    | apply State.valveAsk_later
    | apply State.at_later
    | apply Later.ite
    | fail_if_no_progress apply Later.upd
    | fail_if_no_progress apply Later.upd_mem
    | fail_if_no_progress apply Later.upd_it
    | split

theorem execEndOfTravel_later {r0 : State} (h : Fin 4) (x : TravelIn) (s : State) (hL : Later r0 s) : ∃ s', execEndOfTravel h x s = .next s' ∧ Later r0 s' := by
  unfold execEndOfTravel
  refine ⟨_, rfl, ?_⟩
  repeat' with_reducible first
    | assumption
    | (extract_lets +onlyGivenNames a; refine Later.cut (r := r0) a ?_ ?_; (on_goal 2 => intro _; clear_value a); (on_goal 1 => subst a))
    | apply State.modBr_later
    | apply State.at_later
    | apply State.writeDuty_later
    | apply Later.ite
    | fail_if_no_progress apply Later.upd
    | fail_if_no_progress apply Later.upd_mem
    | fail_if_no_progress apply Later.upd_it
    | split

theorem execTravelTimeout_later {r0 : State} (h : Fin 4) (s : State) (hL : Later r0 s) : ∃ s', execTravelTimeout h s = .next s' ∧ Later r0 s' := by
  unfold execTravelTimeout
  refine ⟨_, rfl, ?_⟩
  repeat' with_reducible first
    | assumption
    | (extract_lets +onlyGivenNames a; refine Later.cut (r := r0) a ?_ ?_; (on_goal 2 => intro _; clear_value a); (on_goal 1 => subst a))
    | apply State.modBr_later
    | apply State.at_later
    | apply State.record_later
    | apply State.writeDuty_later
    | apply Later.ite
    | fail_if_no_progress apply Later.upd
    | fail_if_no_progress apply Later.upd_mem
    | fail_if_no_progress apply Later.upd_it
    | split

theorem execMotorStall_later {r0 : State} (g : Fin 2) (t : IT) (s : State) (hL : Later r0 s) : ∃ s', execMotorStall g t s = .next s' ∧ Later r0 s' := by
  unfold execMotorStall
  refine ⟨_, rfl, ?_⟩
  repeat' with_reducible first
    | assumption
    | (extract_lets +onlyGivenNames a; refine Later.cut (r := r0) a ?_ ?_; (on_goal 2 => intro _; clear_value a); (on_goal 1 => subst a))
    | (extract_lets +onlyGivenNames a; clear_value a)
    | apply State.modPt_later
    | apply State.at_later
    | apply State.record_later
    | apply State.commutate_later
    | apply Later.ite

theorem State.bridgeTrip_later {r0 : State} (s : State) (h : Nat) (t : IT) (hL : Later r0 s) : Later r0 (State.bridgeTrip s h t) := by
  unfold State.bridgeTrip
  extract_lets trips latch a b c
  have ha : Later r0 a := by
    subst a
    split
    · exact State.sprayVoid_later _ _ _ hL
    · exact hL
  clear_value a
  split
  · exact State.report_later _ _ _ _ (State.record_later _ _ _ _ (State.modBr_later _ _ _ ha))
  · exact State.modBr_later _ _ _ ha

theorem State.portTrip_later {r0 : State} (s : State) (g : Nat) (k : TripKind) (t : IT) (hL : Later r0 s) : Later r0 (State.portTrip s g k t) := by
  unfold State.portTrip
  extract_lets trips latch a b
  have ha : Later r0 a := State.modPt_later _ _ _ hL
  clear_value a
  refine State.commutate_later _ _ ?_
  subst b
  split
  · exact State.report_later _ _ _ _ (State.record_later _ _ _ _ ha)
  · exact ha

theorem execOutputTrip_later {r0 : State} (o : Fin 6) (k : TripKind) (t : IT) (s : State) (hL : Later r0 s) : ∃ s', execOutputTrip o k t s = .next s' ∧ Later r0 s' := by
  unfold execOutputTrip
  refine ⟨_, rfl, ?_⟩
  repeat' with_reducible first
    | assumption
    | apply State.whenAwake_later
    | apply State.bridgeTrip_later
    | apply State.at_later
    | apply State.portTrip_later
    | apply Later.ite
    | fail_if_no_progress apply Later.upd
    | fail_if_no_progress apply Later.upd_mem
    | fail_if_no_progress apply Later.upd_it
    | intro _ _

theorem State.bridgeResume_later {r0 : State} (s : State) (h : Nat) (hL : Later r0 s) : Later r0 (State.bridgeResume s h) := by
  unfold State.bridgeResume
  repeat' split
  all_goals first
  | exact hL
  | exact State.modBr_later _ _ _ hL
  | exact State.bridgeCmd_later _ _ _ hL
  | exact State.passDuty_later _ _ _ hL
  | exact State.valveAsk_later _ _ _ (State.modBr_later _ _ _ hL)
  | exact State.valveStart_later _ _ _ _ hL
  | exact State.valveClose_later _ _ hL

theorem execOutputRetryExpiry_later {r0 : State} (o : Fin 6) (s : State) (hL : Later r0 s) : ∃ s', execOutputRetryExpiry o s = .next s' ∧ Later r0 s' := by
  unfold execOutputRetryExpiry
  refine ⟨_, rfl, ?_⟩
  repeat' with_reducible first
    | assumption
    | apply State.bridgeResume_later
    | apply State.modBr_later
    | apply State.at_later
    | apply State.commutate_later
    | apply State.modPt_later
    | apply Later.ite
    | fail_if_no_progress apply Later.upd
    | fail_if_no_progress apply Later.upd_mem
    | fail_if_no_progress apply Later.upd_it
    | split

theorem State.clearOutput_later {r0 : State} (s : State) (o : Nat) (hL : Later r0 s) : Later r0 (State.clearOutput s o) := by
  unfold State.clearOutput
  repeat' with_reducible first
    | assumption
    | apply State.bridgeResume_later
    | apply State.modBr_later
    | apply State.commutate_later
    | apply State.modPt_later
    | apply Later.ite

theorem State.bridgeTurn_later {r0 : State} (s : State) (h : Nat) (k : Nat) (hL : Later r0 s) : Later r0 (State.bridgeTurn s h k) := by
  unfold State.bridgeTurn
  repeat' with_reducible first
    | assumption
    | (extract_lets +onlyGivenNames a; refine Later.cut (r := r0) a ?_ ?_; (on_goal 2 => intro _; clear_value a); (on_goal 1 => subst a))
    | (extract_lets +onlyGivenNames a; clear_value a)
    | apply State.modBr_later
    | apply State.passDuty_later
    | apply Later.ite
    | fail_if_no_progress apply Later.upd
    | fail_if_no_progress apply Later.upd_mem
    | fail_if_no_progress apply Later.upd_it
    | split

theorem State.rippleStep_later {r0 : State} (s : State) (h : Nat) (k : Nat) (hL : Later r0 s) : Later r0 (State.rippleStep s h k) := 
  ⟨hL.it, hL.mem, hL.queue, hL.roll, hL.key, hL.life, hL.legal⟩

theorem State.currentLoop_later {r0 : State} (s : State) (h : Nat) (k : Nat) (ma : Int) (hL : Later r0 s) : Later r0 (State.currentLoop s h k ma) := by
  unfold State.currentLoop
  repeat' with_reducible first
    | assumption
    | (extract_lets +onlyGivenNames a; refine Later.cut (r := r0) a ?_ ?_; (on_goal 2 => intro _; clear_value a); (on_goal 1 => subst a))
    | (extract_lets +onlyGivenNames a; clear_value a)
    | apply State.rippleStep_later
    | apply State.passDuty_later
    | apply State.draw_later
    | apply State.modBr_later
    | apply Later.ite
    | fail_if_no_progress apply Later.upd
    | fail_if_no_progress apply Later.upd_mem
    | fail_if_no_progress apply Later.upd_it
    | split

theorem State.bridgeTransfer_later {r0 : State} (s : State) (h : Nat) (k : Nat) (x : StageIn) (hL : Later r0 s) : Later r0 (State.bridgeTransfer s h k x) := by
  unfold State.bridgeTransfer
  repeat' with_reducible first
    | assumption
    | (extract_lets +onlyGivenNames a; refine Later.cut (r := r0) a ?_ ?_; (on_goal 2 => intro _; clear_value a); (on_goal 1 => subst a))
    | (extract_lets +onlyGivenNames a; clear_value a)
    | apply State.modBr_later
    | apply State.bridgeTurn_later
    | apply State.currentLoop_later
    | apply State.passDuty_later
    | apply Later.ite
    | fail_if_no_progress apply Later.upd
    | fail_if_no_progress apply Later.upd_mem
    | fail_if_no_progress apply Later.upd_it
    | split

theorem execSpinnerTransfer_later {r0 : State} (k : Fin 16) (x : StageIn) (s : State) (hL : Later r0 s) : ∃ s', execSpinnerTransfer k x s = .next s' ∧ Later r0 s' := by
  unfold execSpinnerTransfer
  refine ⟨_, rfl, ?_⟩
  repeat' with_reducible first
    | assumption
    | (extract_lets +onlyGivenNames a; refine Later.cut (r := r0) a ?_ ?_; (on_goal 2 => intro _; clear_value a); (on_goal 1 => subst a))
    | (extract_lets +onlyGivenNames a; clear_value a)
    | apply State.spinTransfer_later
    | apply State.bridgeTransfer_later
    | apply State.modPt_later
    | apply State.spinPeriod_later
    | apply Later.ite

theorem State.bridgeStop_later {r0 : State} (s : State) (h : Nat) (st : Nat) (hL : Later r0 s) : Later r0 (State.bridgeStop s h st) := by
  unfold State.bridgeStop
  repeat' with_reducible first
    | assumption
    | (extract_lets +onlyGivenNames a; refine Later.cut (r := r0) a ?_ ?_; (on_goal 2 => intro _; clear_value a); (on_goal 1 => subst a))
    | (extract_lets +onlyGivenNames a; clear_value a)
    | apply State.writeDuty_later
    | apply State.modBr_later
    | apply Later.ite
    | fail_if_no_progress apply Later.upd
    | fail_if_no_progress apply Later.upd_mem
    | fail_if_no_progress apply Later.upd_it
    | split

theorem State.bridgesEnter_later {r0 : State} (s : State) (d : DevState) (hL : Later r0 s) : Later r0 (State.bridgesEnter s d) := by
  unfold State.bridgesEnter
  repeat' with_reducible first
    | assumption
    | (extract_lets +onlyGivenNames a; refine Later.cut (r := r0) a ?_ ?_; (on_goal 2 => intro _; clear_value a); (on_goal 1 => subst a))
    | (extract_lets +onlyGivenNames a; clear_value a)
    | apply State.bridgeResume_later
    | apply State.bridgeStop_later
    | apply State.noteVerdict_later
    | apply State.writeDuty_later
    | apply State.commutate_later
    | apply State.modPt_later
    | apply Later.foldl
    | apply Later.foldl_fst
    | apply Later.ite
    | fail_if_no_progress apply Later.upd
    | fail_if_no_progress apply Later.upd_mem
    | fail_if_no_progress apply Later.upd_it
    | intro _ _ _
    | split

theorem State.bridgeWritten_later {r0 : State} (s : State) (h : Nat) (hL : Later r0 s) : Later r0 (State.bridgeWritten s h) := by
  unfold State.bridgeWritten
  repeat' with_reducible first
    | assumption
    | (extract_lets +onlyGivenNames a; refine Later.cut (r := r0) a ?_ ?_; (on_goal 2 => intro _; clear_value a); (on_goal 1 => subst a))
    | (extract_lets +onlyGivenNames a; clear_value a)
    | apply State.modBr_later
    | apply Later.ite
    | fail_if_no_progress apply Later.upd
    | fail_if_no_progress apply Later.upd_mem
    | fail_if_no_progress apply Later.upd_it
    | split

end Sys2Proof.Machine
end

