-- ==== Sys2Proof/Laws/LaterLog.lean ====
section
/-! SUPPORT. What no operation of Log.lean undoes: each moves the state Later. -/


namespace Sys2Proof.Machine

theorem State.storeRecord_later {r0 : State} (s : State) (b : Bytes) (hL : Later r0 s) : Later r0 (State.storeRecord s b) := by
  unfold State.storeRecord
  dsimp only
  repeat' with_reducible first
    | assumption
    | apply Later.ite
    | fail_if_no_progress apply Later.upd
    | fail_if_no_progress apply Later.upd_mem

theorem State.logResume_later {r0 : State} (s : State) (hL : Later r0 s) : Later r0 (State.logResume s) := 
  ⟨hL.it, hL.mem, hL.queue, hL.roll, hL.key, hL.life, hL.legal⟩

end Sys2Proof.Machine
end

