-- ==== Sys2Proof/Laws/LaterWall.lean ====
section
/-! SUPPORT. What no operation of Wall.lean undoes: each moves the state Later. -/


namespace Sys2Proof.Machine

theorem State.foldSlew_later {r0 : State} (s : State) (hL : Later r0 s) : Later r0 (State.foldSlew s) := 
  ⟨hL.it, hL.mem, hL.queue, hL.roll, hL.key, hL.life, hL.legal⟩

theorem State.noteGoverning_later {r0 : State} (s : State) (hL : Later r0 s) : Later r0 (State.noteGoverning s) := by
  unfold State.noteGoverning
  repeat' with_reducible first
    | assumption
    | (extract_lets +onlyGivenNames a; refine Later.cut (r := r0) a ?_ ?_; (on_goal 2 => intro _; clear_value a); (on_goal 1 => subst a))
    | (extract_lets +onlyGivenNames a; clear_value a)
    | apply Later.ite
    | fail_if_no_progress apply Later.upd
    | fail_if_no_progress apply Later.upd_mem
    | fail_if_no_progress apply Later.upd_it
    | split

theorem State.wallStep_later {r0 : State} (s : State) (src : WallSource) (x : IT) (w : Nat) (hL : Later r0 s) : Later r0 (State.wallStep s src x w) := 
  ⟨hL.it, hL.mem, hL.queue, hL.roll, hL.key, hL.life, hL.legal⟩

theorem State.rateAgainst_later {r0 : State} (s : State) (x : IT) (w : Nat) (hL : Later r0 s) : Later r0 (State.rateAgainst s x w) := by
  unfold State.rateAgainst
  repeat' with_reducible first
    | assumption
    | (extract_lets +onlyGivenNames a; clear_value a)
    | apply Later.ite
    | fail_if_no_progress apply Later.upd
    | fail_if_no_progress apply Later.upd_mem
    | fail_if_no_progress apply Later.upd_it
    | split

theorem State.timeFrom_later {r0 : State} (s : State) (src : WallSource) (x : IT) (w : Nat) (hL : Later r0 s) : Later r0 (State.timeFrom s src x w) := by
  unfold State.timeFrom
  repeat' with_reducible first
    | assumption
    | (extract_lets +onlyGivenNames a; refine Later.cut (r := r0) a ?_ ?_; (on_goal 2 => intro _; clear_value a); (on_goal 1 => subst a))
    | (extract_lets +onlyGivenNames a; clear_value a)
    | apply State.noteGoverning_later
    | apply State.foldSlew_later
    | apply State.rateAgainst_later
    | apply State.wallStep_later
    | apply Later.ite
    | fail_if_no_progress apply Later.upd

theorem State.markEdge_later {r0 : State} (s : State) (x : IT) (sec : Nat) (dated : Bool) (hL : Later r0 s) : Later r0 (State.markEdge s x sec dated) := by
  unfold State.markEdge
  repeat' with_reducible first
    | assumption
    | (extract_lets +onlyGivenNames a; refine Later.cut (r := r0) a ?_ ?_; (on_goal 2 => intro _; clear_value a); (on_goal 1 => subst a))
    | (extract_lets +onlyGivenNames a; clear_value a)
    | apply State.timeFrom_later
    | apply Later.ite
    | fail_if_no_progress apply Later.upd

theorem State.ppsEdge_later {r0 : State} (s : State) (x : IT) (hL : Later r0 s) : Later r0 (State.ppsEdge s x) := by
  unfold State.ppsEdge
  dsimp only
  repeat' with_reducible first
    | assumption
    | apply State.markEdge_later
    | apply Later.ite
    | fail_if_no_progress apply Later.upd
    | fail_if_no_progress apply Later.upd_mem
    | fail_if_no_progress apply Later.upd_it
    | split

theorem execPpsEdge_later {r0 : State} (t : IT) (s : State) (hL : Later r0 s) : ∃ s', execPpsEdge t s = .next s' ∧ Later r0 s' := by
  unfold execPpsEdge
  refine ⟨_, rfl, ?_⟩
  repeat' with_reducible first
    | assumption
    | apply State.whenAwake_later
    | apply State.ppsEdge_later
    | apply State.at_later
    | apply Later.ite
    | fail_if_no_progress apply Later.upd
    | fail_if_no_progress apply Later.upd_mem
    | fail_if_no_progress apply Later.upd_it
    | intro _ _

theorem State.namedSecond_later {r0 : State} (s : State) (paired : Bool) (done : IT) (utc : Nat) (hL : Later r0 s) : Later r0 (State.namedSecond s paired done utc) := by
  unfold State.namedSecond
  repeat' with_reducible first
    | assumption
    | (extract_lets +onlyGivenNames a; refine Later.cut (r := r0) a ?_ ?_; (on_goal 2 => intro _; clear_value a); (on_goal 1 => subst a))
    | (extract_lets +onlyGivenNames a; clear_value a)
    | apply State.markEdge_later
    | apply State.timeFrom_later
    | apply Later.ite
    | fail_if_no_progress apply Later.upd
    | fail_if_no_progress apply Later.upd_mem
    | fail_if_no_progress apply Later.upd_it
    | split

theorem execWallSourceTimeout_later {r0 : State} (w : WallSource) (s : State) (hL : Later r0 s) : ∃ s', execWallSourceTimeout w s = .next s' ∧ Later r0 s' := by
  unfold execWallSourceTimeout
  refine ⟨_, rfl, ?_⟩
  repeat' with_reducible first
    | assumption
    | (extract_lets +onlyGivenNames a; refine Later.cut (r := r0) a ?_ ?_; (on_goal 2 => intro _; clear_value a); (on_goal 1 => subst a))
    | (extract_lets +onlyGivenNames a; clear_value a)
    | apply State.whenAwake_later
    | apply State.at_later
    | apply State.noteGoverning_later
    | apply Later.ite
    | fail_if_no_progress apply Later.upd
    | fail_if_no_progress apply Later.upd_mem
    | fail_if_no_progress apply Later.upd_it
    | intro _ _
    | split

theorem State.timeServe_later {r0 : State} (s : State) (control : Bool) (rx : IT) (p : Bytes) (hL : Later r0 s) : Later r0 (State.timeServe s control rx p).1 := by
  unfold State.timeServe
  repeat' with_reducible first
    | assumption
    | (extract_lets +onlyGivenNames a; refine Later.cut (r := r0) a ?_ ?_; (on_goal 2 => intro _; clear_value a); (on_goal 1 => subst a))
    | (extract_lets +onlyGivenNames a; clear_value a)
    | refine Later.of_pair ‹_› ?_
    | apply Later.ite_fst
    | apply State.wallStep_later
    | apply Later.ite
    | fail_if_no_progress apply Later.upd

theorem State.writeCopy_later {r0 : State} (s : State) (hL : Later r0 s) : Later r0 (State.writeCopy s) := 
  ⟨hL.it, hL.mem, hL.queue, hL.roll, hL.key, hL.life, hL.legal⟩

theorem execEpochCopyWrite_later {r0 : State} (t : IT) (s : State) (hL : Later r0 s) : ∃ s', execEpochCopyWrite t s = .next s' ∧ Later r0 s' := by
  unfold execEpochCopyWrite
  refine ⟨_, rfl, ?_⟩
  repeat' with_reducible first
    | assumption
    | (extract_lets +onlyGivenNames a; refine Later.cut (r := r0) a ?_ ?_; (on_goal 2 => intro _; clear_value a); (on_goal 1 => subst a))
    | (extract_lets +onlyGivenNames a; clear_value a)
    | apply State.whenAwake_later
    | apply State.writeCopy_later
    | apply State.at_later
    | apply Later.ite
    | fail_if_no_progress apply Later.upd
    | fail_if_no_progress apply Later.upd_mem
    | fail_if_no_progress apply Later.upd_it
    | intro _ _

theorem execTimeMark_later {r0 : State} (s : State) (hL : Later r0 s) : ∃ s', execTimeMark s = .next s' ∧ Later r0 s' := by
  unfold execTimeMark
  refine ⟨_, rfl, ?_⟩
  repeat' with_reducible first
    | assumption
    | (extract_lets +onlyGivenNames a; refine Later.cut (r := r0) a ?_ ?_; (on_goal 2 => intro _; clear_value a); (on_goal 1 => subst a))
    | (extract_lets +onlyGivenNames a; clear_value a)
    | apply State.whenAwake_later
    | apply State.at_later
    | apply State.recordAt_later
    | apply Later.ite
    | fail_if_no_progress apply Later.upd
    | fail_if_no_progress apply Later.upd_mem
    | fail_if_no_progress apply Later.upd_it
    | intro _ _

theorem State.writeFinal_later {r0 : State} (s : State) (aon : Nat) (hL : Later r0 s) : Later r0 (State.writeFinal s aon) := 
  ⟨hL.it, hL.mem, hL.queue, hL.roll, hL.key, hL.life, hL.legal⟩

theorem State.epochLost_later {r0 : State} (s : State) (a : Nat) (hL : Later r0 s) : Later r0 (State.epochLost s a) := 
  ⟨hL.it, hL.mem, hL.queue, hL.roll, hL.key, hL.life, hL.legal⟩

theorem State.resumeTime_later {r0 : State} (s : State) (r : Resume) (bad : Vector Bool 5) (hL : Later r0 s) : Later r0 (State.resumeTime s r bad) := by
  unfold State.resumeTime
  dsimp only
  repeat' with_reducible first
    | assumption
    | apply State.writeCopy_later
    | apply Later.ite
    | fail_if_no_progress apply Later.upd
    | fail_if_no_progress apply Later.upd_mem
    | fail_if_no_progress apply Later.upd_it
    | split

theorem State.resumeNote_later {r0 : State} (s : State) (r : Resume) (hL : Later r0 s) : Later r0 (State.resumeNote s r) := by
  unfold State.resumeNote
  repeat' with_reducible first
    | assumption
    | (extract_lets +onlyGivenNames a; refine Later.cut (r := r0) a ?_ ?_; (on_goal 2 => intro _; clear_value a); (on_goal 1 => subst a))
    | (extract_lets +onlyGivenNames a; clear_value a)
    | apply State.record_later
    | apply State.recordIf_later
    | apply Later.ite
    | fail_if_no_progress apply Later.upd
    | fail_if_no_progress apply Later.upd_mem
    | fail_if_no_progress apply Later.upd_it
    | split

end Sys2Proof.Machine
end

