-- ==== Sys2Proof/Laws/LaterMotion.lean ====
section
/-! SUPPORT. What no operation of Motion.lean undoes: each moves the state Later. -/


namespace Sys2Proof.Machine

theorem State.modPulse_later {r0 : State} (s : State) (i : Nat) (f : Pulse → Pulse) (hL : Later r0 s) : Later r0 (State.modPulse s i f) := 
  ⟨hL.it, hL.mem, hL.queue, hL.roll, hL.key, hL.life, hL.legal⟩

theorem State.modHall_later {r0 : State} (s : State) (h : Nat) (f : Hall → Hall) (hL : Later r0 s) : Later r0 (State.modHall s h f) := 
  ⟨hL.it, hL.mem, hL.queue, hL.roll, hL.key, hL.life, hL.legal⟩

theorem State.modeSet_later {r0 : State} (s : State) (i : Nat) (hL : Later r0 s) : Later r0 (State.modeSet s i) := 
  ⟨hL.it, hL.mem, hL.queue, hL.roll, hL.key, hL.life, hL.legal⟩

theorem State.hallSet_later {r0 : State} (s : State) (h : Nat) (hL : Later r0 s) : Later r0 (State.hallSet s h) := 
  ⟨hL.it, hL.mem, hL.queue, hL.roll, hL.key, hL.life, hL.legal⟩

theorem State.beltStep_later {r0 : State} (s : State) (i : Nat) (r : Bool) (hL : Later r0 s) : Later r0 (State.beltStep s i r) := by
  unfold State.beltStep
  repeat' with_reducible first
    | assumption
    | (extract_lets +onlyGivenNames a; refine Later.cut (r := r0) a ?_ ?_; (on_goal 2 => intro _; clear_value a); (on_goal 1 => subst a))
    | (extract_lets +onlyGivenNames a; clear_value a)
    | apply Later.ite
    | fail_if_no_progress apply Later.upd
    | fail_if_no_progress apply Later.upd_mem
    | fail_if_no_progress apply Later.upd_it
    | split

theorem State.doseMark_later {r0 : State} (s : State) (entry : Nat) (t : IT) (hL : Later r0 s) : Later r0 (State.doseMark s entry t) := 
  ⟨hL.it, hL.mem, hL.queue, hL.roll, hL.key, hL.life, hL.legal⟩

theorem State.compareCross_later {r0 : State} (s : State) (i : Nat) (r : Bool) (t : IT) (hL : Later r0 s) : Later r0 (State.compareCross s i r t) := by
  unfold State.compareCross
  repeat' with_reducible first
    | assumption
    | (extract_lets +onlyGivenNames a; refine Later.cut (r := r0) a ?_ ?_; (on_goal 2 => intro _; clear_value a); (on_goal 1 => subst a))
    | apply State.modPulse_later
    | apply State.recordAt_later
    | apply State.doseMark_later
    | apply Later.ite
    | fail_if_no_progress apply Later.upd
    | fail_if_no_progress apply Later.upd_mem
    | fail_if_no_progress apply Later.upd_it
    | split

theorem State.lineGlitch_later {r0 : State} (s : State) (i : Nat) (level : Bool) (hL : Later r0 s) : Later r0 (State.lineGlitch s i level) := 
  ⟨hL.it, hL.mem, hL.queue, hL.roll, hL.key, hL.life, hL.legal⟩

theorem State.countStep_later {r0 : State} (s : State) (i : Nat) (r : Bool) (t : IT) (hL : Later r0 s) : Later r0 (State.countStep s i r t) := by
  unfold State.countStep
  repeat' with_reducible first
    | assumption
    | (extract_lets +onlyGivenNames a; refine Later.cut (r := r0) a ?_ ?_; (on_goal 2 => intro _; clear_value a); (on_goal 1 => subst a))
    | (extract_lets +onlyGivenNames a; clear_value a)
    | apply State.beltStep_later
    | apply State.modPulse_later
    | apply State.compareCross_later
    | apply Later.ite

theorem State.lineEdge_later {r0 : State} (s : State) (i : Nat) (t : IT) (level : Bool) (hL : Later r0 s) : Later r0 (State.lineEdge s i t level) := 
  ⟨hL.it, hL.mem, hL.queue, hL.roll, hL.key, hL.life, hL.legal⟩

theorem State.quadEdge_later {r0 : State} (s : State) (p : Nat) (onA : Bool) (t : IT) (hL : Later r0 s) : Later r0 (State.quadEdge s p onA t) := by
  unfold State.quadEdge
  repeat' with_reducible first
    | assumption
    | (extract_lets +onlyGivenNames a; clear_value a)
    | apply State.countStep_later

theorem State.passedEdge_later {r0 : State} (s : State) (i : Nat) (t : IT) (level : Bool) (both : Bool) (hL : Later r0 s) : Later r0 (State.passedEdge s i t level both) := by
  unfold State.passedEdge
  repeat' with_reducible first
    | assumption
    | (extract_lets +onlyGivenNames a; refine Later.cut (r := r0) a ?_ ?_; (on_goal 2 => intro _; clear_value a); (on_goal 1 => subst a))
    | (extract_lets +onlyGivenNames a; clear_value a)
    | apply State.lineEdge_later
    | apply State.modPulse_later
    | apply State.quadEdge_later
    | apply State.countStep_later
    | apply Later.ite
    | fail_if_no_progress apply Later.upd
    | fail_if_no_progress apply Later.upd_mem
    | fail_if_no_progress apply Later.upd_it
    | split

theorem execPulseEdge_later {r0 : State} (i : Fin 8) (t : IT) (level : Bool) (both : Bool) (held : Nat) (s : State) (hL : Later r0 s) : ∃ s', execPulseEdge i t level both held s = .next s' ∧ Later r0 s' := by
  unfold execPulseEdge
  refine ⟨_, rfl, ?_⟩
  repeat' with_reducible first
    | assumption
    | (extract_lets +onlyGivenNames a; refine Later.cut (r := r0) a ?_ ?_; (on_goal 2 => intro _; clear_value a); (on_goal 1 => subst a))
    | (extract_lets +onlyGivenNames a; clear_value a)
    | apply State.whenAwake_later
    | apply State.passedEdge_later
    | apply State.at_later
    | apply State.lineGlitch_later
    | apply Later.ite
    | fail_if_no_progress apply Later.upd
    | fail_if_no_progress apply Later.upd_mem
    | fail_if_no_progress apply Later.upd_it
    | intro _ _
    | split

theorem State.indexSeen_later {r0 : State} (s : State) (l : Nat) (hL : Later r0 s) : Later r0 (State.indexSeen s l) := by
  unfold State.indexSeen
  repeat' with_reducible first
    | assumption
    | (extract_lets +onlyGivenNames a; refine Later.cut (r := r0) a ?_ ?_; (on_goal 2 => intro _; clear_value a); (on_goal 1 => subst a))
    | (extract_lets +onlyGivenNames a; clear_value a)
    | apply State.modPulse_later
    | apply Later.ite
    | fail_if_no_progress apply Later.upd
    | fail_if_no_progress apply Later.upd_mem
    | fail_if_no_progress apply Later.upd_it
    | split

theorem execIndexEdge_later {r0 : State} (p : Fin 2) (x : IndexIn) (s : State) (hL : Later r0 s) : ∃ s', execIndexEdge p x s = .next s' ∧ Later r0 s' := by
  unfold execIndexEdge
  refine ⟨_, rfl, ?_⟩
  repeat' with_reducible first
    | assumption
    | (extract_lets +onlyGivenNames a; refine Later.cut (r := r0) a ?_ ?_; (on_goal 2 => intro _; clear_value a); (on_goal 1 => subst a))
    | (extract_lets +onlyGivenNames a; clear_value a)
    | apply State.whenAwake_later
    | apply State.lineGlitch_later
    | apply State.at_later
    | apply State.indexSeen_later
    | apply State.modPulse_later
    | apply Later.ite
    | fail_if_no_progress apply Later.upd
    | fail_if_no_progress apply Later.upd_mem
    | fail_if_no_progress apply Later.upd_it
    | intro _ _

theorem execPulseStopTimeout_later {r0 : State} (x : SpeedInput) (s : State) (hL : Later r0 s) : ∃ s', execPulseStopTimeout x s = .next s' ∧ Later r0 s' := by
  unfold execPulseStopTimeout
  dsimp only
  refine ⟨_, rfl, ?_⟩
  repeat' with_reducible first
    | assumption
    | (extract_lets +onlyGivenNames a; clear_value a)
    | apply State.whenAwake_later
    | apply State.modPulse_later
    | apply State.at_later
    | apply State.modHall_later
    | apply Later.ite
    | fail_if_no_progress apply Later.upd
    | fail_if_no_progress apply Later.upd_mem
    | fail_if_no_progress apply Later.upd_it
    | intro _ _
    | split

theorem State.resetUncert_later {r0 : State} (s : State) (i : Nat) (hL : Later r0 s) : Later r0 (State.resetUncert s i) := 
  ⟨hL.it, hL.mem, hL.queue, hL.roll, hL.key, hL.life, hL.legal⟩

theorem State.setCount_later {r0 : State} (s : State) (i : Nat) (v : Int) (hL : Later r0 s) : Later r0 (State.setCount s i v) := 
  ⟨hL.it, hL.mem, hL.queue, hL.roll, hL.key, hL.life, hL.legal⟩

theorem execHallEdge_later {r0 : State} (h : Fin 2) (t : IT) (x : HallIn) (s : State) (hL : Later r0 s) : ∃ s', execHallEdge h t x s = .next s' ∧ Later r0 s' := by
  unfold execHallEdge
  refine ⟨_, rfl, State.whenAwake_later _ _ hL fun s hL => ?_⟩
  dsimp only
  split
  · exact hL
  · split
    · exact hL
    · refine Later.foldl (State.modHall_later _ _ _ (State.at_later _ _ hL)) fun s g h => ?_
      split
      · exact State.commutate_later _ _ h
      · exact h

theorem State.modUart_later {r0 : State} (s : State) (u : Nat) (f : Uart → Uart) (hL : Later r0 s) : Later r0 (State.modUart s u f) := 
  ⟨hL.it, hL.mem, hL.queue, hL.roll, hL.key, hL.life, hL.legal⟩

theorem State.gather_later {r0 : State} (s : State) (m : Meas) (hL : Later r0 s) : Later r0 (State.gather s m) := 
  ⟨hL.it, hL.mem, hL.queue, hL.roll, hL.key, hL.life, hL.legal⟩

theorem State.sogFrom_later {r0 : State} (s : State) (src : Nat) (it : IT) (v : Int) (hL : Later r0 s) : Later r0 (State.sogFrom s src it v) := 
  ⟨hL.it, hL.mem, hL.queue, hL.roll, hL.key, hL.life, hL.legal⟩

theorem State.gatherPos_later {r0 : State} (s : State) (src : Nat) (it : IT) (lat : Int) (lon : Int) (alt : Option Int) (q : Nat) (hL : Later r0 s) : Later r0 (State.gatherPos s src it lat lon alt q) := by
  unfold State.gatherPos
  repeat' with_reducible first
    | assumption
    | (extract_lets +onlyGivenNames a; refine Later.cut (r := r0) a ?_ ?_; (on_goal 2 => intro _; clear_value a); (on_goal 1 => subst a))
    | (extract_lets +onlyGivenNames a; clear_value a)
    | apply State.gather_later
    | apply Later.ite
    | fail_if_no_progress apply Later.upd
    | fail_if_no_progress apply Later.upd_mem
    | fail_if_no_progress apply Later.upd_it
    | split

theorem State.uartPos_later {r0 : State} (s : State) (u : Nat) (it : IT) (lat : Int) (lon : Int) (alt : Option Int) (q : Nat) (hL : Later r0 s) : Later r0 (State.uartPos s u it lat lon alt q) := by
  unfold State.uartPos
  repeat' with_reducible first
    | assumption
    | (extract_lets +onlyGivenNames a; refine Later.cut (r := r0) a ?_ ?_; (on_goal 2 => intro _; clear_value a); (on_goal 1 => subst a))
    | apply State.modUart_later
    | apply State.gatherPos_later
    | apply Later.ite

theorem State.uartCog_later {r0 : State} (s : State) (u : Nat) (it : IT) (course : Nat) (speed : Int) (hL : Later r0 s) : Later r0 (State.uartCog s u it course speed) := by
  unfold State.uartCog
  repeat' with_reducible first
    | assumption
    | apply State.gather_later
    | apply State.sogFrom_later
    | apply Later.ite

theorem State.uartTime_later {r0 : State} (s : State) (u : Nat) (done : IT) (date : Option Nat) (tod : Nat) (utc : Option Nat) (hL : Later r0 s) : Later r0 (State.uartTime s u done date tod utc).1 := by
  unfold State.uartTime
  repeat' with_reducible first
    | assumption
    | (extract_lets +onlyGivenNames a; refine Later.cut (r := r0) a ?_ ?_; (on_goal 2 => intro _; clear_value a); (on_goal 1 => subst a))
    | refine Later.of_pair ‹_› ?_
    | apply Later.ite_fst
    | apply State.namedSecond_later
    | apply State.modUart_later
    | apply Later.ite
    | fail_if_no_progress apply Later.upd
    | fail_if_no_progress apply Later.upd_mem
    | fail_if_no_progress apply Later.upd_it
    | split

theorem State.nmeaGga_later {r0 : State} (s : State) (u : Nat) (done : IT) (f : List Bytes) (hL : Later r0 s) : Later r0 (State.nmeaGga s u done f) := by
  unfold State.nmeaGga
  dsimp only
  repeat' with_reducible first
    | assumption
    | (extract_lets +onlyGivenNames a; clear_value a)
    | refine Later.of_pair ‹_› ?_
    | apply Later.ite_fst
    | apply State.modUart_later
    | apply State.uartTime_later
    | apply State.uartPos_later
    | apply Later.ite
    | fail_if_no_progress apply Later.upd
    | fail_if_no_progress apply Later.upd_mem
    | fail_if_no_progress apply Later.upd_it
    | split

theorem State.nmeaRmc_later {r0 : State} (s : State) (u : Nat) (done : IT) (f : List Bytes) (hL : Later r0 s) : Later r0 (State.nmeaRmc s u done f) := by
  unfold State.nmeaRmc
  dsimp only
  repeat' with_reducible first
    | assumption
    | (extract_lets +onlyGivenNames a; refine Later.cut (r := r0) a ?_ ?_; (on_goal 2 => intro _; clear_value a); (on_goal 1 => subst a))
    | (extract_lets +onlyGivenNames a; clear_value a)
    | refine Later.of_pair ‹_› ?_
    | apply Later.ite_fst
    | apply State.uartTime_later
    | apply State.uartCog_later
    | apply State.uartPos_later
    | apply Later.ite
    | fail_if_no_progress apply Later.upd
    | fail_if_no_progress apply Later.upd_mem
    | fail_if_no_progress apply Later.upd_it
    | split

theorem State.nmeaVtg_later {r0 : State} (s : State) (u : Nat) (done : IT) (f : List Bytes) (hL : Later r0 s) : Later r0 (State.nmeaVtg s u done f) := by
  unfold State.nmeaVtg
  repeat' with_reducible first
    | assumption
    | apply State.uartCog_later
    | apply Later.ite
    | fail_if_no_progress apply Later.upd
    | fail_if_no_progress apply Later.upd_mem
    | fail_if_no_progress apply Later.upd_it
    | split

theorem State.nmeaHdt_later {r0 : State} (s : State) (u : Nat) (done : IT) (f : List Bytes) (hL : Later r0 s) : Later r0 (State.nmeaHdt s u done f) := by
  unfold State.nmeaHdt
  repeat' with_reducible first
    | assumption
    | apply State.gather_later
    | apply Later.ite
    | fail_if_no_progress apply Later.upd
    | fail_if_no_progress apply Later.upd_mem
    | fail_if_no_progress apply Later.upd_it
    | split

theorem State.nmeaGst_later {r0 : State} (s : State) (u : Nat) (done : IT) (f : List Bytes) (hL : Later r0 s) : Later r0 (State.nmeaGst s u done f) := by
  unfold State.nmeaGst
  repeat' with_reducible first
    | assumption
    | refine Later.of_pair ‹_› ?_
    | apply Later.ite_fst
    | apply State.uartTime_later
    | apply State.gather_later
    | apply Later.ite
    | fail_if_no_progress apply Later.upd
    | fail_if_no_progress apply Later.upd_mem
    | fail_if_no_progress apply Later.upd_it
    | split

theorem execNmeaSentence_later {r0 : State} (u : Fin 2) (t : IT) (text : Bytes) (s : State) (hL : Later r0 s) : ∃ s', execNmeaSentence u t text s = .next s' ∧ Later r0 s' := by
  unfold execNmeaSentence
  refine ⟨_, rfl, ?_⟩
  repeat' with_reducible first
    | assumption
    | (extract_lets +onlyGivenNames a; refine Later.cut (r := r0) a ?_ ?_; (on_goal 2 => intro _; clear_value a); (on_goal 1 => subst a))
    | (extract_lets +onlyGivenNames a; clear_value a)
    | apply State.whenAwake_later
    | apply State.at_later
    | apply State.modUart_later
    | apply State.nmeaGga_later
    | apply State.nmeaRmc_later
    | apply State.nmeaVtg_later
    | apply State.nmeaHdt_later
    | apply State.nmeaGst_later
    | apply Later.ite
    | fail_if_no_progress apply Later.upd
    | fail_if_no_progress apply Later.upd_mem
    | fail_if_no_progress apply Later.upd_it
    | intro _ _
    | split

theorem State.n2kAccept_later {r0 : State} (s : State) (hL : Later r0 s) : Later r0 (State.n2kAccept s) := 
  ⟨hL.it, hL.mem, hL.queue, hL.roll, hL.key, hL.life, hL.legal⟩

theorem State.gnssData_later {r0 : State} (s : State) (t : IT) (src : Nat) (b : Bytes) (hL : Later r0 s) : Later r0 (State.gnssData s t src b) := by
  unfold State.gnssData
  repeat' with_reducible first
    | assumption
    | (extract_lets +onlyGivenNames a; refine Later.cut (r := r0) a ?_ ?_; (on_goal 2 => intro _; clear_value a); (on_goal 1 => subst a))
    | (extract_lets +onlyGivenNames a; clear_value a)
    | apply State.n2kAccept_later
    | apply State.gatherPos_later
    | apply Later.ite
    | fail_if_no_progress apply Later.upd

theorem State.fastFrame_later {r0 : State} (s : State) (t : IT) (src : Nat) (d : Bytes) (hL : Later r0 s) : Later r0 (State.fastFrame s t src d) := by
  unfold State.fastFrame
  dsimp only
  repeat' with_reducible first
    | assumption
    | apply State.gnssData_later
    | apply Later.ite
    | fail_if_no_progress apply Later.upd
    | fail_if_no_progress apply Later.upd_mem
    | fail_if_no_progress apply Later.upd_it
    | split

theorem State.isoSpeedMsg_later {r0 : State} (s : State) (t : IT) (d : Bytes) (hL : Later r0 s) : Later r0 (State.isoSpeedMsg s t d) := by
  unfold State.isoSpeedMsg
  repeat' with_reducible first
    | assumption
    | (extract_lets +onlyGivenNames a; refine Later.cut (r := r0) a ?_ ?_; (on_goal 2 => intro _; clear_value a); (on_goal 1 => subst a))
    | (extract_lets +onlyGivenNames a; clear_value a)
    | apply State.gather_later
    | apply Later.ite
    | fail_if_no_progress apply Later.upd

theorem execCanAMotionMessage_later {r0 : State} (t : IT) (pgn : Nat) (src : Nat) (data : Bytes) (s : State) (hL : Later r0 s) : ∃ s', execCanAMotionMessage t pgn src data s = .next s' ∧ Later r0 s' := by
  unfold execCanAMotionMessage
  refine ⟨_, rfl, ?_⟩
  repeat' with_reducible first
    | assumption
    | (extract_lets +onlyGivenNames a; refine Later.cut (r := r0) a ?_ ?_; (on_goal 2 => intro _; clear_value a); (on_goal 1 => subst a))
    | (extract_lets +onlyGivenNames a; clear_value a)
    | apply State.whenAwake_later
    | apply State.at_later
    | apply State.n2kAccept_later
    | apply State.gatherPos_later
    | apply State.gather_later
    | apply State.sogFrom_later
    | apply State.fastFrame_later
    | apply State.isoSpeedMsg_later
    | apply Later.ite
    | fail_if_no_progress apply Later.upd
    | fail_if_no_progress apply Later.upd_mem
    | fail_if_no_progress apply Later.upd_it
    | intro _ _

theorem State.applyJump_later {r0 : State} (s : State) (i : Nat) (hL : Later r0 s) : Later r0 (State.applyJump s i) := by
  unfold State.applyJump
  repeat' with_reducible first
    | assumption
    | apply State.modPulse_later
    | apply Later.ite
    | fail_if_no_progress apply Later.upd
    | fail_if_no_progress apply Later.upd_mem
    | fail_if_no_progress apply Later.upd_it
    | split

theorem State.closeSet_later {r0 : State} (s : State) (hL : Later r0 s) : Later r0 (State.closeSet s) := by
  unfold State.closeSet
  repeat' with_reducible first
    | assumption
    | (extract_lets +onlyGivenNames a; refine Later.cut (r := r0) a ?_ ?_; (on_goal 2 => intro _; clear_value a); (on_goal 1 => subst a))
    | (extract_lets +onlyGivenNames a; clear_value a)
    | apply State.applyJump_later
    | apply Later.foldl
    | apply Later.foldl_fst
    | apply Later.ite
    | fail_if_no_progress apply Later.upd

theorem State.modInert_later {r0 : State} (s : State) (f : Inertial → Inertial) (hL : Later r0 s) : Later r0 (State.modInert s f) := 
  ⟨hL.it, hL.mem, hL.queue, hL.roll, hL.key, hL.life, hL.legal⟩

theorem State.standstill_later {r0 : State} (s : State) (g : Option (Vector Int 3)) (hL : Later r0 s) : Later r0 (State.standstill s g) := by
  unfold State.standstill
  repeat' with_reducible first
    | assumption
    | (extract_lets +onlyGivenNames a; refine Later.cut (r := r0) a ?_ ?_; (on_goal 2 => intro _; clear_value a); (on_goal 1 => subst a))
    | (extract_lets +onlyGivenNames a; clear_value a)
    | apply State.modInert_later
    | apply Later.ite

theorem State.inertialSample_later {r0 : State} (s : State) (f : FrameIn) (hL : Later r0 s) : Later r0 (State.inertialSample s f) := by
  unfold State.inertialSample
  repeat' with_reducible first
    | assumption
    | (extract_lets +onlyGivenNames a; refine Later.cut (r := r0) a ?_ ?_; (on_goal 2 => intro _; clear_value a); (on_goal 1 => subst a))
    | (extract_lets +onlyGivenNames a; clear_value a)
    | apply State.modInert_later
    | apply State.standstill_later
    | apply Later.ite
    | fail_if_no_progress apply Later.upd
    | fail_if_no_progress apply Later.upd_mem
    | fail_if_no_progress apply Later.upd_it
    | split

theorem execInertialSampleLate_later {r0 : State} (s : State) (hL : Later r0 s) : ∃ s', execInertialSampleLate s = .next s' ∧ Later r0 s' := by
  unfold execInertialSampleLate
  refine ⟨_, rfl, ?_⟩
  repeat' with_reducible first
    | assumption
    | apply State.whenAwake_later
    | apply State.modInert_later
    | apply State.at_later
    | apply Later.ite
    | fail_if_no_progress apply Later.upd
    | fail_if_no_progress apply Later.upd_mem
    | fail_if_no_progress apply Later.upd_it
    | intro _ _

theorem execStandstillBias_later {r0 : State} (t : IT) (s : State) (hL : Later r0 s) : ∃ s', execStandstillBias t s = .next s' ∧ Later r0 s' := by
  unfold execStandstillBias
  refine ⟨_, rfl, ?_⟩
  repeat' with_reducible first
    | assumption
    | (extract_lets +onlyGivenNames a; refine Later.cut (r := r0) a ?_ ?_; (on_goal 2 => intro _; clear_value a); (on_goal 1 => subst a))
    | apply State.whenAwake_later
    | apply State.at_later
    | apply State.modInert_later
    | apply Later.ite
    | fail_if_no_progress apply Later.upd
    | fail_if_no_progress apply Later.upd_mem
    | fail_if_no_progress apply Later.upd_it
    | intro _ _
    | split

theorem execBiasStale_later {r0 : State} (t : IT) (s : State) (hL : Later r0 s) : ∃ s', execBiasStale t s = .next s' ∧ Later r0 s' := by
  unfold execBiasStale
  refine ⟨_, rfl, ?_⟩
  repeat' with_reducible first
    | assumption
    | apply State.whenAwake_later
    | apply State.modInert_later
    | apply State.at_later
    | apply Later.ite
    | fail_if_no_progress apply Later.upd
    | fail_if_no_progress apply Later.upd_mem
    | fail_if_no_progress apply Later.upd_it
    | intro _ _
    | split

end Sys2Proof.Machine
end

