-- ==== Sys2Proof/Laws/LaterWhorl.lean ====
section
/-! SUPPORT. What no operation of Whorl.lean undoes: each moves the state Later. -/


namespace Sys2Proof.Machine

theorem State.modLp_later {r0 : State} (s : State) (w : Nat) (f : Loop → Loop) (hL : Later r0 s) : Later r0 (State.modLp s w f) := 
  ⟨hL.it, hL.mem, hL.queue, hL.roll, hL.key, hL.life, hL.legal⟩

theorem State.noteLoad_later {r0 : State} (s : State) (hL : Later r0 s) : Later r0 (State.noteLoad s) := 
  ⟨hL.it, hL.mem, hL.queue, hL.roll, hL.key, hL.life, hL.legal⟩

theorem State.coefWrite_later {r0 : State} (s : State) (w : Nat) (j : Nat) (cs : List (Nat × F32)) (hL : Later r0 s) : Later r0 (State.coefWrite s w j cs) := by
  unfold State.coefWrite
  repeat' with_reducible first
    | assumption
    | (extract_lets +onlyGivenNames a; clear_value a)
    | apply State.modLp_later
    | apply Later.ite

theorem State.shunts_later {r0 : State} (s : State) (w : Nat) (x : LoopIn) (hL : Later r0 s) : Later r0 (State.shunts s w x) := by
  unfold State.shunts
  repeat' with_reducible first
    | assumption
    | (extract_lets +onlyGivenNames a; refine Later.cut (r := r0) a ?_ ?_; (on_goal 2 => intro _; clear_value a); (on_goal 1 => subst a))
    | (extract_lets +onlyGivenNames a; clear_value a)
    | apply Later.foldl
    | apply Later.foldl_fst
    | apply Later.ite
    | fail_if_no_progress apply Later.upd
    | fail_if_no_progress apply Later.upd_mem
    | fail_if_no_progress apply Later.upd_it
    | intro _ _ _
    | split

theorem State.latch_later {r0 : State} (s : State) (w : Nat) (x : LoopIn) (hL : Later r0 s) : Later r0 (State.latch s w x) := by
  unfold State.latch
  repeat' with_reducible first
    | assumption
    | (extract_lets +onlyGivenNames a; refine Later.cut (r := r0) a ?_ ?_; (on_goal 2 => intro _; clear_value a); (on_goal 1 => subst a))
    | (extract_lets +onlyGivenNames a; clear_value a)
    | apply State.shunts_later
    | apply State.modLp_later
    | apply Later.foldl
    | apply Later.foldl_fst
    | apply Later.ite
    | fail_if_no_progress apply Later.upd
    | fail_if_no_progress apply Later.upd_mem
    | fail_if_no_progress apply Later.upd_it
    | intro _ _ _
    | split

theorem State.noticeRef_later {r0 : State} (s : State) (w : Nat) (g : F32) (from_ : Option F32) (hL : Later r0 s) : Later r0 (State.noticeRef s w g from_) := 
  ⟨hL.it, hL.mem, hL.queue, hL.roll, hL.key, hL.life, hL.legal⟩

theorem State.references_later {r0 : State} (s : State) (w : Nat) (start : Bool) (idle : Bool) (hL : Later r0 s) : Later r0 (State.references s w start idle) := 
  ⟨hL.it, hL.mem, hL.queue, hL.roll, hL.key, hL.life, hL.legal⟩

theorem State.limitNotice_later {r0 : State} (s : State) (w : Nat) (hL : Later r0 s) : Later r0 (State.limitNotice s w) := 
  ⟨hL.it, hL.mem, hL.queue, hL.roll, hL.key, hL.life, hL.legal⟩

theorem State.reinit_later {r0 : State} (s : State) (w : Nat) (j : Nat) (u : Vector F32 4) (hL : Later r0 s) : Later r0 (State.reinit s w j u) := 
  ⟨hL.it, hL.mem, hL.queue, hL.roll, hL.key, hL.life, hL.legal⟩

theorem State.regionChange_later {r0 : State} (s : State) (w : Nat) (j : Nat) (hL : Later r0 s) : Later r0 (State.regionChange s w j) := 
  ⟨hL.it, hL.mem, hL.queue, hL.roll, hL.key, hL.life, hL.legal⟩

theorem State.takeCommit_later {r0 : State} (s : State) (w : Nat) (hL : Later r0 s) : Later r0 (State.takeCommit s w) := by
  unfold State.takeCommit
  repeat' with_reducible first
    | assumption
    | (extract_lets +onlyGivenNames a; refine Later.cut (r := r0) a ?_ ?_; (on_goal 2 => intro _; clear_value a); (on_goal 1 => subst a))
    | (extract_lets +onlyGivenNames a; clear_value a)
    | apply State.reinit_later
    | apply State.modLp_later
    | apply Later.ite
    | fail_if_no_progress apply Later.upd
    | fail_if_no_progress apply Later.upd_mem
    | fail_if_no_progress apply Later.upd_it
    | split

theorem State.limitsWritten_later {r0 : State} (s : State) (w : Nat) (hL : Later r0 s) : Later r0 (State.limitsWritten s w) := by
  unfold State.limitsWritten
  repeat' with_reducible first
    | assumption
    | (extract_lets +onlyGivenNames a; refine Later.cut (r := r0) a ?_ ?_; (on_goal 2 => intro _; clear_value a); (on_goal 1 => subst a))
    | (extract_lets +onlyGivenNames a; clear_value a)
    | apply State.limitNotice_later
    | apply Later.ite
    | fail_if_no_progress apply Later.upd
    | fail_if_no_progress apply Later.upd_mem
    | fail_if_no_progress apply Later.upd_it
    | split

theorem State.stepRegion_later {r0 : State} (s : State) (w : Nat) (hL : Later r0 s) : Later r0 (State.stepRegion s w) := by
  unfold State.stepRegion
  repeat' with_reducible first
    | assumption
    | (extract_lets +onlyGivenNames a; refine Later.cut (r := r0) a ?_ ?_; (on_goal 2 => intro _; clear_value a); (on_goal 1 => subst a))
    | (extract_lets +onlyGivenNames a; clear_value a)
    | apply State.takeCommit_later
    | apply State.regionChange_later
    | apply Later.ite

theorem State.correct_later {r0 : State} (s : State) (w : Nat) (j : Nat) (hL : Later r0 s) : Later r0 (State.correct s w j) := 
  ⟨hL.it, hL.mem, hL.queue, hL.roll, hL.key, hL.life, hL.legal⟩

theorem State.filter_later {r0 : State} (s : State) (w : Nat) (j : Nat) (hL : Later r0 s) : Later r0 (State.filter s w j) := 
  ⟨hL.it, hL.mem, hL.queue, hL.roll, hL.key, hL.life, hL.legal⟩

theorem State.integrate_later {r0 : State} (s : State) (w : Nat) (j : Nat) (hL : Later r0 s) : Later r0 (State.integrate s w j) := 
  ⟨hL.it, hL.mem, hL.queue, hL.roll, hL.key, hL.life, hL.legal⟩

theorem State.predictLp_later {r0 : State} (s : State) (w : Nat) (j : Nat) (hL : Later r0 s) : Later r0 (State.predictLp s w j) := 
  ⟨hL.it, hL.mem, hL.queue, hL.roll, hL.key, hL.life, hL.legal⟩

theorem State.blendOut_later {r0 : State} (s : State) (w : Nat) (u : Vector F32 4) (hL : Later r0 s) : Later r0 (State.blendOut s w u).1 := by
  unfold State.blendOut
  repeat' with_reducible first
    | assumption
    | (extract_lets +onlyGivenNames a; clear_value a)
    | refine Later.of_pair ‹_› ?_
    | apply Later.ite_fst
    | apply State.modLp_later
    | apply Later.ite
    | fail_if_no_progress apply Later.upd
    | fail_if_no_progress apply Later.upd_mem
    | fail_if_no_progress apply Later.upd_it
    | split

theorem State.grantOut_later {r0 : State} (s : State) (w : Nat) (i : Nat) (u : F32) (hL : Later r0 s) : Later r0 (State.grantOut s w i u).1 := by
  unfold State.grantOut
  dsimp only
  repeat' with_reducible first
    | assumption
    | refine Later.of_pair ‹_› ?_
    | apply Later.ite_fst
    | apply State.modLp_later
    | apply State.requestTorque_later
    | apply State.record_later
    | apply Later.ite
    | fail_if_no_progress apply Later.upd
    | fail_if_no_progress apply Later.upd_mem
    | fail_if_no_progress apply Later.upd_it
    | split

theorem State.deliver_later {r0 : State} (s : State) (w : Nat) (i : Nat) (u : F32) (hL : Later r0 s) : Later r0 (State.deliver s w i u) := by
  unfold State.deliver
  repeat' with_reducible first
    | assumption
    | (extract_lets +onlyGivenNames a; refine Later.cut (r := r0) a ?_ ?_; (on_goal 2 => intro _; clear_value a); (on_goal 1 => subst a))
    | (extract_lets +onlyGivenNames a; refine Later.cut (r := r0) a.1 ?_ ?_; (on_goal 2 => intro _; clear_value a); (on_goal 1 => subst a))
    | (extract_lets +onlyGivenNames a; refine Later.cut (r := r0) a.s ?_ ?_; (on_goal 2 => intro _; clear_value a); (on_goal 1 => subst a))
    | (extract_lets +onlyGivenNames a; clear_value a)
    | refine Later.of_pair ‹_› ?_
    | apply Later.ite_fst
    | apply State.grantOut_later
    | apply State.modLp_later
    | apply State.bridgeCmd_later
    | apply State.portCmd_later
    | apply Later.ite
    | fail_if_no_progress apply Later.upd
    | fail_if_no_progress apply Later.upd_mem
    | fail_if_no_progress apply Later.upd_it
    | split

theorem State.applyOut_later {r0 : State} (s : State) (w : Nat) (u : Vector F32 4) (hL : Later r0 s) : Later r0 (State.applyOut s w u) := by
  unfold State.applyOut
  repeat' with_reducible first
    | assumption
    | (extract_lets +onlyGivenNames a; refine Later.cut (r := r0) a ?_ ?_; (on_goal 2 => intro _; clear_value a); (on_goal 1 => subst a))
    | (extract_lets +onlyGivenNames a; clear_value a)
    | apply State.modLp_later
    | apply State.deliver_later
    | apply Later.foldl
    | apply Later.foldl_fst
    | apply Later.ite
    | fail_if_no_progress apply Later.upd
    | fail_if_no_progress apply Later.upd_mem
    | fail_if_no_progress apply Later.upd_it
    | intro _ _ _
    | split

theorem State.startBlend_later {r0 : State} (s : State) (w : Nat) (uIn : Vector F32 4) (uOut : Vector F32 4) (hL : Later r0 s) : Later r0 (State.startBlend s w uIn uOut) := by
  unfold State.startBlend
  repeat' with_reducible first
    | assumption
    | apply State.modLp_later
    | apply Later.ite

theorem State.finishAuto_later {r0 : State} (s : State) (w : Nat) (j : Nat) (u : Vector F32 4) (hL : Later r0 s) : Later r0 (State.finishAuto s w j u) := by
  unfold State.finishAuto
  repeat' with_reducible first
    | assumption
    | (extract_lets +onlyGivenNames a; refine Later.cut (r := r0) a ?_ ?_; (on_goal 2 => intro _; clear_value a); (on_goal 1 => subst a))
    | (extract_lets +onlyGivenNames a; clear_value a)
    | refine Later.of_pair ‹_› ?_
    | apply Later.ite_fst
    | apply State.modLp_later
    | apply State.blendOut_later
    | apply State.applyOut_later
    | apply State.predictLp_later

theorem State.finishManual_later {r0 : State} (s : State) (w : Nat) (j : Nat) (hL : Later r0 s) : Later r0 (State.finishManual s w j) := by
  unfold State.finishManual
  repeat' with_reducible first
    | assumption
    | (extract_lets +onlyGivenNames a; refine Later.cut (r := r0) a ?_ ?_; (on_goal 2 => intro _; clear_value a); (on_goal 1 => subst a))
    | (extract_lets +onlyGivenNames a; clear_value a)
    | refine Later.of_pair ‹_› ?_
    | apply Later.ite_fst
    | apply State.modLp_later
    | apply State.blendOut_later
    | apply State.applyOut_later
    | apply State.predictLp_later
    | apply State.reinit_later

theorem State.enterRegion_later {r0 : State} (s : State) (w : Nat) (j : Nat) (idle : Bool) (hL : Later r0 s) : Later r0 (State.enterRegion s w j idle) := 
  ⟨hL.it, hL.mem, hL.queue, hL.roll, hL.key, hL.life, hL.legal⟩

theorem State.handOverStep_later {r0 : State} (s : State) (w : Nat) (m : Nat) (idle : Bool) (hL : Later r0 s) : Later r0 (State.handOverStep s w m idle) := by
  unfold State.handOverStep
  repeat' with_reducible first
    | assumption
    | (extract_lets +onlyGivenNames a; refine Later.cut (r := r0) a ?_ ?_; (on_goal 2 => intro _; clear_value a); (on_goal 1 => subst a))
    | (extract_lets +onlyGivenNames a; clear_value a)
    | apply State.modLp_later
    | apply State.references_later
    | apply State.enterRegion_later
    | apply State.stepRegion_later
    | apply State.filter_later
    | apply State.correct_later
    | apply State.finishManual_later
    | apply State.startBlend_later
    | apply State.reinit_later
    | apply State.finishAuto_later
    | apply Later.ite

theorem State.plainStep_later {r0 : State} (s : State) (w : Nat) (hL : Later r0 s) : Later r0 (State.plainStep s w) := by
  unfold State.plainStep
  repeat' with_reducible first
    | assumption
    | (extract_lets +onlyGivenNames a; refine Later.cut (r := r0) a ?_ ?_; (on_goal 2 => intro _; clear_value a); (on_goal 1 => subst a))
    | (extract_lets +onlyGivenNames a; clear_value a)
    | apply State.stepRegion_later
    | apply State.references_later
    | apply State.filter_later
    | apply State.correct_later
    | apply State.finishManual_later
    | apply State.integrate_later
    | apply State.finishAuto_later
    | apply Later.ite

theorem State.safeOut_later {r0 : State} (s : State) (w : Nat) (hL : Later r0 s) : Later r0 (State.safeOut s w) := by
  unfold State.safeOut
  repeat' with_reducible first
    | assumption
    | apply State.applyOut_later

theorem State.faultStep_later {r0 : State} (s : State) (w : Nat) (hL : Later r0 s) : Later r0 (State.faultStep s w) := by
  unfold State.faultStep
  repeat' with_reducible first
    | assumption
    | (extract_lets +onlyGivenNames a; refine Later.cut (r := r0) a ?_ ?_; (on_goal 2 => intro _; clear_value a); (on_goal 1 => subst a))
    | (extract_lets +onlyGivenNames a; clear_value a)
    | apply State.stepRegion_later
    | apply State.references_later
    | apply State.filter_later
    | apply State.applyOut_later
    | apply State.modLp_later
    | apply Later.ite
    | fail_if_no_progress apply Later.upd
    | fail_if_no_progress apply Later.upd_mem
    | fail_if_no_progress apply Later.upd_it
    | split

theorem State.inputFault_later {r0 : State} (s : State) (w : Nat) (hL : Later r0 s) : Later r0 (State.inputFault s w) := by
  unfold State.inputFault
  repeat' with_reducible first
    | assumption
    | (extract_lets +onlyGivenNames a; refine Later.cut (r := r0) a ?_ ?_; (on_goal 2 => intro _; clear_value a); (on_goal 1 => subst a))
    | apply State.report_later
    | apply State.faultStep_later
    | apply State.modLp_later
    | apply Later.ite

theorem State.lateStep_later {r0 : State} (s : State) (w : Nat) (late : Bool) (hL : Later r0 s) : Later r0 (State.lateStep s w late) := by
  unfold State.lateStep
  repeat' with_reducible first
    | assumption
    | (extract_lets +onlyGivenNames a; refine Later.cut (r := r0) a ?_ ?_; (on_goal 2 => intro _; clear_value a); (on_goal 1 => subst a))
    | (extract_lets +onlyGivenNames a; clear_value a)
    | apply State.record_later
    | apply Later.ite
    | fail_if_no_progress apply Later.upd
    | fail_if_no_progress apply Later.upd_mem
    | fail_if_no_progress apply Later.upd_it
    | split

theorem State.loopStep_later {r0 : State} (s : State) (w : Nat) (x : LoopIn) (hL : Later r0 s) : Later r0 (State.loopStep s w x) := by
  unfold State.loopStep
  repeat' with_reducible first
    | assumption
    | (extract_lets +onlyGivenNames a; refine Later.cut (r := r0) a ?_ ?_; (on_goal 2 => intro _; clear_value a); (on_goal 1 => subst a))
    | (extract_lets +onlyGivenNames a; clear_value a)
    | apply State.at_later
    | apply State.modLp_later
    | apply State.latch_later
    | apply State.lateStep_later
    | apply State.handOverStep_later
    | apply State.faultStep_later
    | apply State.inputFault_later
    | apply State.plainStep_later
    | apply Later.ite

theorem execLoopStep_later {r0 : State} (w : Fin 8) (x : LoopIn) (s : State) (hL : Later r0 s) : ∃ s', execLoopStep w x s = .next s' ∧ Later r0 s' := by
  unfold execLoopStep
  refine ⟨_, rfl, ?_⟩
  repeat' with_reducible first
    | assumption
    | apply State.loopStep_later
    | apply Later.ite

theorem State.modeWritten_later {r0 : State} (s : State) (w : Nat) (changed : Bool) (hL : Later r0 s) : Later r0 (State.modeWritten s w changed) := 
  ⟨hL.it, hL.mem, hL.queue, hL.roll, hL.key, hL.life, hL.legal⟩

theorem State.commitLoop_later {r0 : State} (s : State) (w : Nat) (hL : Later r0 s) : Later r0 (State.commitLoop s w) := 
  ⟨hL.it, hL.mem, hL.queue, hL.roll, hL.key, hL.life, hL.legal⟩

theorem State.postRefs_later {r0 : State} (s : State) (w : Nat) (v : Vector F32 2) (hL : Later r0 s) : Later r0 (State.postRefs s w v) := 
  ⟨hL.it, hL.mem, hL.queue, hL.roll, hL.key, hL.life, hL.legal⟩

theorem State.postRequest_later {r0 : State} (s : State) (w : Nat) (v : F32) (hL : Later r0 s) : Later r0 (State.postRequest s w v) := 
  ⟨hL.it, hL.mem, hL.queue, hL.roll, hL.key, hL.life, hL.legal⟩

theorem State.safeStart_later {r0 : State} (s : State) (w : Nat) (hL : Later r0 s) : Later r0 (State.safeStart s w) := by
  unfold State.safeStart
  repeat' with_reducible first
    | assumption
    | (extract_lets +onlyGivenNames a; refine Later.cut (r := r0) a ?_ ?_; (on_goal 2 => intro _; clear_value a); (on_goal 1 => subst a))
    | (extract_lets +onlyGivenNames a; clear_value a)
    | apply State.deliver_later
    | apply Later.foldl
    | apply Later.foldl_fst
    | apply Later.ite
    | fail_if_no_progress apply Later.upd
    | fail_if_no_progress apply Later.upd_mem
    | fail_if_no_progress apply Later.upd_it
    | intro _ _ _
    | split

theorem State.whorlEnter_later {r0 : State} (s : State) (d : DevState) (hL : Later r0 s) : Later r0 (State.whorlEnter s d) := by
  unfold State.whorlEnter
  repeat' with_reducible first
    | assumption
    | apply State.modLp_later
    | apply State.safeStart_later
    | apply Later.foldl
    | apply Later.foldl_fst
    | apply Later.ite
    | fail_if_no_progress apply Later.upd
    | fail_if_no_progress apply Later.upd_mem
    | fail_if_no_progress apply Later.upd_it
    | intro _ _ _
    | split

theorem State.whorlBare_later {r0 : State} (s : State) (o : Nat) (hL : Later r0 s) : Later r0 (State.whorlBare s o) := by
  unfold State.whorlBare
  repeat' split
  all_goals first
  | exact hL
  | exact State.deliver_later _ _ _ _ hL

theorem State.whorlBareMark_later {r0 : State} (s : State) (f : Loop → Loop) (hL : Later r0 s) : Later r0 (State.whorlBareMark s f) := 
  ⟨hL.it, hL.mem, hL.queue, hL.roll, hL.key, hL.life, hL.legal⟩

end Sys2Proof.Machine
end

