-- ==== Sys2Proof/Laws/LaterRoving.lean ====
section
/-! SUPPORT. What no operation of Roving.lean undoes: each moves the state Later. -/


namespace Sys2Proof.Machine

theorem State.modRov_later {r0 : State} (s : State) (f : Roving → Roving) (hL : Later r0 s) : Later r0 (State.modRov s f) := 
  ⟨hL.it, hL.mem, hL.queue, hL.roll, hL.key, hL.life, hL.legal⟩

theorem State.updateOrigin_later {r0 : State} (s : State) (hL : Later r0 s) : Later r0 (State.updateOrigin s) := by
  unfold State.updateOrigin
  repeat' with_reducible first
    | assumption
    | (extract_lets +onlyGivenNames a; refine Later.cut (r := r0) a ?_ ?_; (on_goal 2 => intro _; clear_value a); (on_goal 1 => subst a))
    | (extract_lets +onlyGivenNames a; clear_value a)
    | apply State.modRov_later
    | apply Later.ite
    | fail_if_no_progress apply Later.upd
    | fail_if_no_progress apply Later.upd_mem
    | fail_if_no_progress apply Later.upd_it
    | split

theorem State.rovReject_later {r0 : State} (s : State) (hL : Later r0 s) : Later r0 (State.rovReject s) := 
  ⟨hL.it, hL.mem, hL.queue, hL.roll, hL.key, hL.life, hL.legal⟩

theorem State.refit_later {r0 : State} (s : State) (t : IT) (p : Fine) (a3 : Fine) (hL : Later r0 s) : Later r0 (State.refit s t p a3) := 
  ⟨hL.it, hL.mem, hL.queue, hL.roll, hL.key, hL.life, hL.legal⟩

theorem State.yawCorrect_later {r0 : State} (s : State) (gyro : Bool) (i : Int) (k : Int) (hL : Later r0 s) : Later r0 (State.yawCorrect s gyro i k) := 
  ⟨hL.it, hL.mem, hL.queue, hL.roll, hL.key, hL.life, hL.legal⟩

theorem State.innovate_later {r0 : State} (s : State) (i : Int) (n : Nat) (hL : Later r0 s) : Later r0 (s.innovate i n).2.2 :=
  State.draw_later _ (State.draw_later _ hL)

theorem State.leak_later {r0 : State} (s : State) (i : Int) (hL : Later r0 s) : Later r0 (s.leak i).2 := State.draw_later _ hL

theorem State.setPos_later {r0 : State} (s : State) (it : IT) (e : Int) (n : Int) (noise : Nat) (hL : Later r0 s) : Later r0 (State.setPos s it e n noise) := by
  unfold State.setPos
  dsimp only
  repeat' with_reducible first
    | assumption
    | apply State.firstHeading_later
    | apply State.rovReject_later
    | apply State.yawCorrect_later
    | apply State.refit_later
    | apply State.modRov_later
    | apply State.draw_later
    | apply State.innovate_later
    | apply State.leak_later
    | split

theorem State.filterPos_later {r0 : State} (s : State) (it : IT) (e : Int) (n : Int) (noise : Nat × Nat) (hL : Later r0 s) : Later r0 (State.filterPos s it e n noise) := by
  unfold State.filterPos
  dsimp only
  repeat' with_reducible first
    | assumption
    | apply State.firstHeading_later
    | apply State.rovReject_later
    | apply State.yawCorrect_later
    | apply State.refit_later
    | apply State.modRov_later
    | apply State.draw_later
    | apply State.innovate_later
    | apply State.leak_later
    | split

theorem State.fusePos_later {r0 : State} (s : State) (src : Nat) (it : IT) (e : Int) (n : Int) (q : Nat) (hL : Later r0 s) : Later r0 (State.fusePos s src it e n q) := by
  unfold State.fusePos
  refine State.modRov_later _ _ ?_
  split
  · exact State.setPos_later _ _ _ _ _ hL
  · exact State.filterPos_later _ _ _ _ _ hL

theorem State.posUnused_later {r0 : State} (s : State) (hL : Later r0 s) : Later r0 (State.posUnused s) := 
  ⟨hL.it, hL.mem, hL.queue, hL.roll, hL.key, hL.life, hL.legal⟩

theorem State.takePos_later {r0 : State} (s : State) (src : Nat) (it : IT) (lat : Int) (lon : Int) (alt : Option Int) (q : Nat) (hL : Later r0 s) : Later r0 (State.takePos s src it lat lon alt q) := by
  unfold State.takePos
  repeat' with_reducible first
    | assumption
    | (extract_lets +onlyGivenNames a; refine Later.cut (r := r0) a ?_ ?_; (on_goal 2 => intro _; clear_value a); (on_goal 1 => subst a))
    | (extract_lets +onlyGivenNames a; clear_value a)
    | apply State.modRov_later
    | apply State.updateOrigin_later
    | apply State.rovReject_later
    | apply State.posUnused_later
    | apply State.fusePos_later
    | apply State.draw_later
    | apply Later.ite
    | fail_if_no_progress apply Later.upd
    | fail_if_no_progress apply Later.upd_mem
    | fail_if_no_progress apply Later.upd_it
    | split

theorem State.firstHeading_later {r0 : State} (s : State) (it : IT) (a : Nat) (byCourse : Bool) (hL : Later r0 s) : Later r0 (State.firstHeading s it a byCourse) := by
  unfold State.firstHeading
  repeat' with_reducible first
    | assumption
    | (extract_lets +onlyGivenNames a; refine Later.cut (r := r0) a ?_ ?_; (on_goal 2 => intro _; clear_value a); (on_goal 1 => subst a))
    | (extract_lets +onlyGivenNames a; clear_value a)
    | apply State.modRov_later
    | apply Later.ite
    | fail_if_no_progress apply Later.upd
    | fail_if_no_progress apply Later.upd_mem
    | fail_if_no_progress apply Later.upd_it
    | split

theorem State.fuseCourse_later {r0 : State} (s : State) (it : IT) (course : Nat) (speed : Int) (hL : Later r0 s) : Later r0 (State.fuseCourse s it course speed) := by
  unfold State.fuseCourse
  dsimp only
  repeat' with_reducible first
    | assumption
    | apply State.firstHeading_later
    | apply State.rovReject_later
    | apply State.yawCorrect_later
    | apply State.refit_later
    | apply State.modRov_later
    | apply State.draw_later
    | apply State.innovate_later
    | apply State.leak_later
    | split

theorem State.fuseTrailed_later {r0 : State} (s : State) (it : IT) (course : Nat) (speed : Int) (hL : Later r0 s) : Later r0 (State.fuseTrailed s it course speed) := by
  unfold State.fuseTrailed
  dsimp only
  repeat' with_reducible first
    | assumption
    | apply State.firstHeading_later
    | apply State.rovReject_later
    | apply State.yawCorrect_later
    | apply State.refit_later
    | apply State.modRov_later
    | apply State.draw_later
    | apply State.innovate_later
    | apply State.leak_later
    | split

theorem State.takeCog_later {r0 : State} (s : State) (src : Nat) (it : IT) (course : Nat) (speed : Int) (hL : Later r0 s) : Later r0 (State.takeCog s src it course speed) := by
  unfold State.takeCog
  repeat' with_reducible first
    | assumption
    | (extract_lets +onlyGivenNames a; refine Later.cut (r := r0) a ?_ ?_; (on_goal 2 => intro _; clear_value a); (on_goal 1 => subst a))
    | (extract_lets +onlyGivenNames a; clear_value a)
    | apply State.modRov_later
    | apply State.firstHeading_later
    | apply State.fuseCourse_later
    | apply State.fuseTrailed_later
    | apply Later.ite

theorem State.takeHeading_later {r0 : State} (s : State) (src : Nat) (it : IT) (angle : Nat) (hL : Later r0 s) : Later r0 (State.takeHeading s src it angle) := by
  unfold State.takeHeading
  dsimp only
  repeat' with_reducible first
    | assumption
    | apply State.firstHeading_later
    | apply State.rovReject_later
    | apply State.yawCorrect_later
    | apply State.refit_later
    | apply State.modRov_later
    | apply State.draw_later
    | apply State.innovate_later
    | apply State.leak_later
    | split

theorem State.takeSpeed_later {r0 : State} (s : State) (it : IT) (v : Int) (y : Int) (noise : Nat) (hL : Later r0 s) : Later r0 (State.takeSpeed s it v y noise) := by
  unfold State.takeSpeed
  dsimp only
  repeat' with_reducible first
    | assumption
    | apply State.firstHeading_later
    | apply State.rovReject_later
    | apply State.yawCorrect_later
    | apply State.refit_later
    | apply State.modRov_later
    | apply State.draw_later
    | apply State.innovate_later
    | apply State.leak_later
    | split

theorem State.fuse_later {r0 : State} (s : State) (m : Meas) (hL : Later r0 s) : Later r0 (State.fuse s m) := by
  unfold State.fuse
  repeat' with_reducible first
    | assumption
    | apply State.takePos_later
    | apply State.takeCog_later
    | apply State.takeHeading_later
    | apply State.modRov_later
    | apply State.takeSpeed_later
    | apply Later.ite
    | fail_if_no_progress apply Later.upd
    | fail_if_no_progress apply Later.upd_mem
    | fail_if_no_progress apply Later.upd_it
    | split

theorem State.fuseAll_later {r0 : State} (s : State) (hL : Later r0 s) : Later r0 (State.fuseAll s) := by
  unfold State.fuseAll
  repeat' with_reducible first
    | assumption
    | (extract_lets +onlyGivenNames a; refine Later.cut (r := r0) a ?_ ?_; (on_goal 2 => intro _; clear_value a); (on_goal 1 => subst a))
    | (extract_lets +onlyGivenNames a; clear_value a)
    | apply State.modRov_later
    | apply State.fuse_later
    | apply Later.foldl

theorem State.plausibleBy_later {r0 : State} (s : State) (fails : List Bool) (hL : Later r0 s) : Later r0 (State.plausibleBy s fails) := by
  unfold State.plausibleBy
  repeat' with_reducible first
    | assumption
    | (extract_lets +onlyGivenNames a; refine Later.cut (r := r0) a ?_ ?_; (on_goal 2 => intro _; clear_value a); (on_goal 1 => subst a))
    | (extract_lets +onlyGivenNames a; clear_value a)
    | apply State.modRov_later
    | apply State.report_later
    | apply Later.ite
    | fail_if_no_progress apply Later.upd
    | fail_if_no_progress apply Later.upd_mem
    | fail_if_no_progress apply Later.upd_it
    | split

theorem State.plausible_later {r0 : State} (s : State) (hL : Later r0 s) : Later r0 (State.plausible s) := by
  unfold State.plausible
  repeat' with_reducible first
    | assumption
    | (extract_lets +onlyGivenNames a; refine Later.cut (r := r0) a ?_ ?_; (on_goal 2 => intro _; clear_value a); (on_goal 1 => subst a))
    | (extract_lets +onlyGivenNames a; clear_value a)
    | apply State.plausibleBy_later
    | apply Later.ite

theorem State.rovPropagate_later {r0 : State} (s : State) (hL : Later r0 s) : Later r0 (State.rovPropagate s) := 
  ⟨hL.it, hL.mem, hL.queue, hL.roll, hL.key, hL.life, hL.legal⟩

theorem State.biasGrow_later {r0 : State} (s : State) (hL : Later r0 s) : Later r0 (State.biasGrow s) := 
  ⟨hL.it, hL.mem, hL.queue, hL.roll, hL.key, hL.life, hL.legal⟩

theorem State.rovTilt_later {r0 : State} (s : State) (hL : Later r0 s) : Later r0 (State.rovTilt s) := by
  unfold State.rovTilt
  repeat' with_reducible first
    | assumption
    | (extract_lets +onlyGivenNames a; refine Later.cut (r := r0) a ?_ ?_; (on_goal 2 => intro _; clear_value a); (on_goal 1 => subst a))
    | (extract_lets +onlyGivenNames a; clear_value a)
    | apply State.draw_later
    | apply State.modRov_later
    | apply Later.ite

theorem State.rovFold_later {r0 : State} (s : State) (hL : Later r0 s) : Later r0 (State.rovFold s) := by
  unfold State.rovFold
  repeat' with_reducible first
    | assumption
    | (extract_lets +onlyGivenNames a; clear_value a)
    | apply State.modRov_later
    | apply Later.ite

theorem State.rovPublish_later {r0 : State} (s : State) (still : Bool) (hL : Later r0 s) : Later r0 (State.rovPublish s still) := 
  ⟨hL.it, hL.mem, hL.queue, hL.roll, hL.key, hL.life, hL.legal⟩

theorem State.rovBelt_later {r0 : State} (s : State) (hL : Later r0 s) : Later r0 (State.rovBelt s) := 
  ⟨hL.it, hL.mem, hL.queue, hL.roll, hL.key, hL.life, hL.legal⟩

theorem State.rovFilter_later {r0 : State} (s : State) (hL : Later r0 s) : Later r0 (State.rovFilter s) := by
  unfold State.rovFilter
  repeat' with_reducible first
    | assumption
    | (extract_lets +onlyGivenNames a; refine Later.cut (r := r0) a ?_ ?_; (on_goal 2 => intro _; clear_value a); (on_goal 1 => subst a))
    | (extract_lets +onlyGivenNames a; clear_value a)
    | apply State.modRov_later
    | apply State.rovTilt_later
    | apply State.updateOrigin_later
    | apply State.fuseAll_later
    | apply State.rovPropagate_later
    | apply State.biasGrow_later
    | apply Later.ite
    | fail_if_no_progress apply Later.upd
    | fail_if_no_progress apply Later.upd_mem
    | fail_if_no_progress apply Later.upd_it
    | split

theorem State.rovFrame_later {r0 : State} (s : State) (hL : Later r0 s) : Later r0 (State.rovFrame s) := by
  unfold State.rovFrame
  repeat' with_reducible first
    | assumption
    | (extract_lets +onlyGivenNames a; refine Later.cut (r := r0) a ?_ ?_; (on_goal 2 => intro _; clear_value a); (on_goal 1 => subst a))
    | (extract_lets +onlyGivenNames a; clear_value a)
    | apply State.rovFold_later
    | apply State.rovBelt_later
    | apply State.modRov_later
    | apply State.plausible_later
    | apply State.rovFilter_later
    | apply State.rovPublish_later
    | apply Later.ite

theorem State.rovStart_later {r0 : State} (s : State) (hL : Later r0 s) : Later r0 (State.rovStart s) := 
  ⟨hL.it, hL.mem, hL.queue, hL.roll, hL.key, hL.life, hL.legal⟩

theorem State.rovStop_later {r0 : State} (s : State) (hL : Later r0 s) : Later r0 (State.rovStop s) := 
  ⟨hL.it, hL.mem, hL.queue, hL.roll, hL.key, hL.life, hL.legal⟩

end Sys2Proof.Machine
end

