-- ==== Sys2Proof/Laws/LaterDistaff.lean ====
section
/-! SUPPORT. What no operation of Distaff.lean undoes: each moves the state Later. -/


namespace Sys2Proof.Machine

theorem State.modDis_later {r0 : State} (s : State) (f : Distaff → Distaff) (hL : Later r0 s) : Later r0 (State.modDis s f) := 
  ⟨hL.it, hL.mem, hL.queue, hL.roll, hL.key, hL.life, hL.legal⟩

theorem State.modHank_later {r0 : State} (s : State) (k : Nat) (f : Hank → Hank) (hL : Later r0 s) : Later r0 (State.modHank s k f) := 
  ⟨hL.it, hL.mem, hL.queue, hL.roll, hL.key, hL.life, hL.legal⟩

theorem State.modFrame_later {r0 : State} (s : State) (t : Nat) (f : Frame → Frame) (hL : Later r0 s) : Later r0 (State.modFrame s t f) := 
  ⟨hL.it, hL.mem, hL.queue, hL.roll, hL.key, hL.life, hL.legal⟩

theorem State.modTile_later {r0 : State} (s : State) (col : Int) (row : Int) (f : CTile → CTile) (hL : Later r0 s) : Later r0 (State.modTile s col row f) := 
  ⟨hL.it, hL.mem, hL.queue, hL.roll, hL.key, hL.life, hL.legal⟩

theorem State.poolNote_later {r0 : State} (s : State) (hL : Later r0 s) : Later r0 (State.poolNote s) := 
  ⟨hL.it, hL.mem, hL.queue, hL.roll, hL.key, hL.life, hL.legal⟩

theorem State.poolCheck_later {r0 : State} (s : State) (hL : Later r0 s) : Later r0 (State.poolCheck s) := by
  unfold State.poolCheck
  repeat' with_reducible first
    | assumption
    | (extract_lets +onlyGivenNames a; refine Later.cut (r := r0) a ?_ ?_; (on_goal 2 => intro _; clear_value a); (on_goal 1 => subst a))
    | (extract_lets +onlyGivenNames a; clear_value a)
    | apply State.recordIf_later
    | apply State.poolNote_later

theorem State.storeTile_later {r0 : State} (s : State) (slot : Nat) (col : Int) (row : Int) (cells : Bytes) (f : Frame → Frame) (hL : Later r0 s) : Later r0 (State.storeTile s slot col row cells f) := by
  unfold State.storeTile
  dsimp only
  repeat' with_reducible first
    | assumption
    | apply State.modFrame_later
    | apply State.draw_later
    | apply State.modDis_later
    | apply Later.ite
    | fail_if_no_progress apply Later.upd
    | fail_if_no_progress apply Later.upd_mem
    | fail_if_no_progress apply Later.upd_it
    | split

theorem State.prefetch_later {r0 : State} (s : State) (wanted : List (Int × Int)) (hL : Later r0 s) : Later r0 (State.prefetch s wanted) := by
  unfold State.prefetch
  repeat' with_reducible first
    | assumption
    | (extract_lets +onlyGivenNames a; clear_value a)
    | apply State.modDis_later
    | apply Later.ite
    | fail_if_no_progress apply Later.upd
    | fail_if_no_progress apply Later.upd_mem
    | fail_if_no_progress apply Later.upd_it
    | split

theorem State.makeRoom_later {r0 : State} (s : State) (mm : Nat) (t : State) (hL : Later r0 s) (hE : (State.makeRoom s mm) = some t) : Later r0 t := by
  unfold State.makeRoom at hE
  dsimp only at hE
  split at hE
  · cases hE
    exact hL
  · split at hE
    · cases hE
    · cases hE
      exact State.modDis_later _ _ hL

theorem State.tileBad_later {r0 : State} (s : State) (f : Frame) (hL : Later r0 s) : Later r0 (State.tileBad s f) := 
  ⟨hL.it, hL.mem, hL.queue, hL.roll, hL.key, hL.life, hL.legal⟩

theorem State.putTile_later {r0 : State} (s : State) (k : Nat) (col : Int) (row : Int) (corrected : Nat) (crcOk : Bool) (hL : Later r0 s) : Later r0 (State.putTile s k col row corrected crcOk) := by
  unfold State.putTile
  repeat' with_reducible first
    | assumption
    | (extract_lets +onlyGivenNames a; refine Later.cut (r := r0) a ?_ ?_; (on_goal 2 => intro _; clear_value a); (on_goal 1 => subst a))
    | (extract_lets +onlyGivenNames a; clear_value a)
    | apply State.modDis_later
    | apply State.tileBad_later
    | apply Later.ite
    | fail_if_no_progress apply Later.upd
    | fail_if_no_progress apply Later.upd_mem
    | fail_if_no_progress apply Later.upd_it
    | split

theorem State.fillDone_later {r0 : State} (s : State) (x : FillIn) (hL : Later r0 s) : Later r0 (State.fillDone s x) := by
  unfold State.fillDone
  repeat' with_reducible first
    | assumption
    | (extract_lets +onlyGivenNames a; refine Later.cut (r := r0) a ?_ ?_; (on_goal 2 => intro _; clear_value a); (on_goal 1 => subst a))
    | (extract_lets +onlyGivenNames a; clear_value a)
    | refine State.makeRoom_later _ _ _ ?_ (by assumption)
    | apply State.putTile_later
    | apply Later.ite
    | fail_if_no_progress apply Later.upd
    | fail_if_no_progress apply Later.upd_mem
    | fail_if_no_progress apply Later.upd_it
    | split

theorem execTileFillDone_later {r0 : State} (col : Int) (row : Int) (t : IT) (corrected : Nat) (crcOk : Bool) (s : State) (hL : Later r0 s) : ∃ s', execTileFillDone col row t corrected crcOk s = .next s' ∧ Later r0 s' := by
  unfold execTileFillDone
  refine ⟨_, rfl, ?_⟩
  repeat' with_reducible first
    | assumption
    | apply State.fillDone_later
    | apply State.at_later
    | apply Later.ite
    | fail_if_no_progress apply Later.upd
    | fail_if_no_progress apply Later.upd_mem
    | fail_if_no_progress apply Later.upd_it
    | split

theorem State.writeBack_later {r0 : State} (s : State) (k : Nat) (c : CTile) (hL : Later r0 s) : Later r0 (State.writeBack s k c) := by
  unfold State.writeBack
  repeat' with_reducible first
    | assumption
    | (extract_lets +onlyGivenNames a; refine Later.cut (r := r0) a ?_ ?_; (on_goal 2 => intro _; clear_value a); (on_goal 1 => subst a))
    | apply State.modTile_later
    | apply State.modDis_later
    | apply State.storeTile_later
    | apply State.poolCheck_later
    | apply Later.ite

theorem execTileWriteBack_later {r0 : State} (col : Int) (row : Int) (t : IT) (s : State) (hL : Later r0 s) : ∃ s', execTileWriteBack col row t s = .next s' ∧ Later r0 s' := by
  unfold execTileWriteBack
  refine ⟨_, rfl, ?_⟩
  repeat' with_reducible first
    | assumption
    | apply State.writeBack_later
    | apply State.modDis_later
    | apply State.at_later
    | apply Later.ite
    | fail_if_no_progress apply Later.upd
    | fail_if_no_progress apply Later.upd_mem
    | fail_if_no_progress apply Later.upd_it
    | split

theorem State.layerNoted_later {r0 : State} (s : State) (slot : Nat) (layer : Nat) (hL : Later r0 s) : Later r0 (State.layerNoted s slot layer) := 
  ⟨hL.it, hL.mem, hL.queue, hL.roll, hL.key, hL.life, hL.legal⟩

theorem State.layerToPool_later {r0 : State} (s : State) (l : LayerRec) (hL : Later r0 s) : Later r0 (State.layerToPool s l) := by
  unfold State.layerToPool
  repeat' with_reducible first
    | assumption
    | (extract_lets +onlyGivenNames a; clear_value a)
    | apply State.poolCheck_later
    | apply State.storeTile_later
    | apply Later.ite

theorem State.layerToCache_later {r0 : State} (s : State) (l : LayerRec) (hL : Later r0 s) : Later r0 (State.layerToCache s l) := by
  unfold State.layerToCache
  repeat' with_reducible first
    | assumption
    | (extract_lets +onlyGivenNames a; refine Later.cut (r := r0) a ?_ ?_; (on_goal 2 => intro _; clear_value a); (on_goal 1 => subst a))
    | (extract_lets +onlyGivenNames a; clear_value a)
    | apply State.layerToPool_later
    | apply State.modTile_later
    | apply State.poolCheck_later
    | apply State.modFrame_later
    | apply Later.ite
    | fail_if_no_progress apply Later.upd
    | fail_if_no_progress apply Later.upd_mem
    | fail_if_no_progress apply Later.upd_it
    | split

theorem State.applyRecord_later {r0 : State} (s : State) (l : LayerRec) (hL : Later r0 s) : Later r0 (State.applyRecord s l) := by
  unfold State.applyRecord
  repeat' with_reducible first
    | assumption
    | (extract_lets +onlyGivenNames a; refine Later.cut (r := r0) a ?_ ?_; (on_goal 2 => intro _; clear_value a); (on_goal 1 => subst a))
    | apply State.layerNoted_later
    | apply State.modDis_later
    | apply State.layerToPool_later
    | apply Later.ite

theorem State.streamRecords_later {r0 : State} (a0 : Nat) (a1 : Bytes) (a2 : State) (hL : Later r0 a2) : Later r0 (State.streamRecords a0 a1 a2) := by
  induction a0 generalizing a1 a2 with
  | zero => simpa [State.streamRecords] using hL
  | succ _ ih =>
    unfold State.streamRecords
    repeat' with_reducible first
      | assumption
      | apply ih
      | (extract_lets +onlyGivenNames a; refine Later.cut (r := r0) a ?_ ?_; (on_goal 2 => intro _; clear_value a); (on_goal 1 => subst a))
      | (extract_lets +onlyGivenNames a; clear_value a)
      | refine Later.of_pair ‹_› ?_
      | apply Later.ite_fst
      | apply State.modDis_later
      | apply State.applyRecord_later
      | apply Later.ite

theorem State.tileStream_later {r0 : State} (s : State) (b : Bytes) (hL : Later r0 s) : Later r0 (State.tileStream s b) := by
  unfold State.tileStream
  repeat' with_reducible first
    | assumption
    | apply State.streamRecords_later
    | apply State.modDis_later

theorem State.applyLayers_later {r0 : State} (s : State) (hL : Later r0 s) : Later r0 (State.applyLayers s) := by
  unfold State.applyLayers
  split
  · exact hL
  · exact Later.foldl (State.modDis_later _ _ hL) fun _ _ h => State.layerToCache_later _ _ h

theorem State.hankCreate_later {r0 : State} (s : State) (slot : Nat) (b : Bytes) (o : Origin) (hL : Later r0 s) : Later r0 (State.hankCreate s slot b o) := 
  ⟨hL.it, hL.mem, hL.queue, hL.roll, hL.key, hL.life, hL.legal⟩

theorem State.hankAccept_later {r0 : State} (s : State) (b : Bytes) (hL : Later r0 s) : Later r0 (State.hankAccept s b) := by
  unfold State.hankAccept
  dsimp only
  repeat' with_reducible first
    | assumption
    | apply State.modDis_later
    | apply State.hankCreate_later
    | apply State.modHank_later
    | apply Later.ite

theorem State.hankCommand_later {r0 : State} (s : State) (b : Bytes) (hL : Later r0 s) : Later r0 (State.hankCommand s b) := by
  unfold State.hankCommand
  repeat' with_reducible first
    | assumption
    | (extract_lets +onlyGivenNames a; clear_value a)
    | apply State.hankAccept_later
    | apply State.modDis_later
    | apply Later.ite

theorem State.closeBegin_later {r0 : State} (s : State) (slot : Nat) (keep : Bool) (hL : Later r0 s) : Later r0 (State.closeBegin s slot keep) := 
  ⟨hL.it, hL.mem, hL.queue, hL.roll, hL.key, hL.life, hL.legal⟩

theorem State.closeAll_later {r0 : State} (s : State) (keep : Bool) (hL : Later r0 s) : Later r0 (State.closeAll s keep) := by
  unfold State.closeAll
  repeat' with_reducible first
    | assumption
    | apply State.modDis_later
    | apply State.closeBegin_later
    | apply Later.ite
    | fail_if_no_progress apply Later.upd
    | fail_if_no_progress apply Later.upd_mem
    | fail_if_no_progress apply Later.upd_it
    | split

theorem State.markResume_later {r0 : State} (s : State) (hL : Later r0 s) : Later r0 (State.markResume s) := by
  unfold State.markResume
  repeat' with_reducible first
    | assumption
    | apply State.modDis_later
    | apply Later.ite
    | fail_if_no_progress apply Later.upd
    | fail_if_no_progress apply Later.upd_mem
    | fail_if_no_progress apply Later.upd_it
    | split

theorem State.hankBoundary_later {r0 : State} (s : State) (hL : Later r0 s) : Later r0 (State.hankBoundary s) := by
  unfold State.hankBoundary
  repeat' with_reducible first
    | assumption
    | (extract_lets +onlyGivenNames a; refine Later.cut (r := r0) a ?_ ?_; (on_goal 2 => intro _; clear_value a); (on_goal 1 => subst a))
    | apply State.modDis_later
    | apply State.hankCreate_later
    | apply State.modHank_later
    | apply State.record_later
    | apply State.closeBegin_later
    | apply Later.ite
    | fail_if_no_progress apply Later.upd
    | fail_if_no_progress apply Later.upd_mem
    | fail_if_no_progress apply Later.upd_it
    | split

theorem State.deleteFrame_later {r0 : State} (s : State) (hL : Later r0 s) : Later r0 (State.deleteFrame s) := by
  unfold State.deleteFrame
  repeat' with_reducible first
    | assumption
    | (extract_lets +onlyGivenNames a; refine Later.cut (r := r0) a ?_ ?_; (on_goal 2 => intro _; clear_value a); (on_goal 1 => subst a))
    | (extract_lets +onlyGivenNames a; clear_value a)
    | apply State.poolNote_later
    | apply State.modDis_later
    | apply State.draw_later
    | apply Later.ite
    | fail_if_no_progress apply Later.upd
    | fail_if_no_progress apply Later.upd_mem
    | fail_if_no_progress apply Later.upd_it
    | split

theorem execHankDeleteDone_later {r0 : State} (slot : Fin 16) (t : IT) (s : State) (hL : Later r0 s) : ∃ s', execHankDeleteDone slot t s = .next s' ∧ Later r0 s' := by
  unfold execHankDeleteDone
  refine ⟨_, rfl, ?_⟩
  repeat' with_reducible first
    | assumption
    | (extract_lets +onlyGivenNames a; refine Later.cut (r := r0) a ?_ ?_; (on_goal 2 => intro _; clear_value a); (on_goal 1 => subst a))
    | apply State.whenAwake_later
    | apply State.modHank_later
    | apply State.at_later
    | apply State.poolCheck_later
    | apply State.modDis_later
    | apply Later.ite
    | intro _ _

theorem State.exportAdvance_later {r0 : State} (s : State) (hL : Later r0 s) : Later r0 (State.exportAdvance s) := by
  unfold State.exportAdvance
  repeat' with_reducible first
    | assumption
    | apply State.modDis_later
    | apply Later.ite
    | fail_if_no_progress apply Later.upd
    | fail_if_no_progress apply Later.upd_mem
    | fail_if_no_progress apply Later.upd_it
    | split

end Sys2Proof.Machine
end

