-- ==== Sys2Proof/Laws/LaterMarking.lean ====
section
/-! SUPPORT. What no operation of Marking.lean undoes: each moves the state Later. -/


namespace Sys2Proof.Machine

theorem State.settleCell_later {r0 : State} (s : State) (k : Nat) (a : Acc) (t : State) (hL : Later r0 s) (hE : (State.settleCell s k a) = some t) : Later r0 t := by
  unfold State.settleCell at hE
  dsimp only at hE
  repeat' split at hE
  all_goals first
    | contradiction
    | (injection hE with hE; subst hE)
  repeat' with_reducible first
    | assumption
    | refine Later.of_pair ‹_› ?_
    | apply Later.ite_fst
    | apply State.poolCheck_later
    | apply State.modHank_later
    | apply State.modTile_later
    | apply State.modDis_later

theorem State.settleOldest_later {r0 : State} (s : State) (k : Nat) (hL : Later r0 s) : Later r0 (State.settleOldest s k) := by
  unfold State.settleOldest
  split
  · exact hL
  · exact Later.getD (State.modDis_later _ _ hL) fun t e => State.settleCell_later _ _ _ t (State.modDis_later _ _ hL) e

theorem State.accOr_later {r0 : State} (s : State) (k : Nat) (x : Int) (y : Int) (bs : BitVec 16) (t : IT) (hL : Later r0 s) : Later r0 (State.accOr s k x y bs t) := by
  unfold State.accOr
  repeat' with_reducible first
    | assumption
    | (extract_lets +onlyGivenNames a; refine Later.cut (r := r0) a ?_ ?_; (on_goal 2 => intro _; clear_value a); (on_goal 1 => subst a))
    | apply State.modDis_later
    | apply State.settleOldest_later
    | apply Later.ite

theorem State.sweepAt_later {r0 : State} (s : State) (f : Foot) (t : IT) (hL : Later r0 s) : Later r0 (State.sweepAt s f t) := by
  unfold State.sweepAt
  repeat' with_reducible first
    | assumption
    | (extract_lets +onlyGivenNames a; clear_value a)
    | apply State.accOr_later
    | apply Later.foldl
    | apply Later.foldl_fst
    | apply Later.ite
    | fail_if_no_progress apply Later.upd
    | fail_if_no_progress apply Later.upd_mem
    | fail_if_no_progress apply Later.upd_it
    | intro _ _ _
    | split

theorem State.unmarkedSpray_later {r0 : State} (s : State) (n : Nat) (a : IT) (c : IT) (hL : Later r0 s) : Later r0 (State.unmarkedSpray s n a c) := 
  ⟨hL.it, hL.mem, hL.queue, hL.roll, hL.key, hL.life, hL.legal⟩

theorem State.markWindow_later {r0 : State} (s : State) (n : Nat) (f : Foot) (a : IT) (c : IT) (ta : Bool) (tc : Bool) (hL : Later r0 s) : Later r0 (State.markWindow s n f a c ta tc) := by
  unfold State.markWindow
  repeat' with_reducible first
    | assumption
    | (extract_lets +onlyGivenNames a; refine Later.cut (r := r0) a ?_ ?_; (on_goal 2 => intro _; clear_value a); (on_goal 1 => subst a))
    | apply State.unmarkedSpray_later
    | apply State.sweepAt_later
    | apply Later.foldl
    | apply Later.foldl_fst
    | apply Later.ite
    | fail_if_no_progress apply Later.upd
    | fail_if_no_progress apply Later.upd_mem
    | fail_if_no_progress apply Later.upd_it
    | intro _ _ _

theorem State.countUnobserved_later {r0 : State} (s : State) (f : Foot) (t : IT) (hL : Later r0 s) : Later r0 (State.countUnobserved s f t) := by
  unfold State.countUnobserved
  repeat' with_reducible first
    | assumption
    | (extract_lets +onlyGivenNames a; refine Later.cut (r := r0) a ?_ ?_; (on_goal 2 => intro _; clear_value a); (on_goal 1 => subst a))
    | (extract_lets +onlyGivenNames a; clear_value a)
    | apply State.modHank_later
    | apply State.modTile_later
    | apply State.modFrame_later
    | apply Later.ite
    | fail_if_no_progress apply Later.upd
    | fail_if_no_progress apply Later.upd_mem
    | fail_if_no_progress apply Later.upd_it
    | split

theorem State.foldNote_later {r0 : State} (s : State) (z : NozzleEntry) (q : IT) (hL : Later r0 s) : Later r0 (State.foldNote s z q) := by
  unfold State.foldNote
  repeat' with_reducible first
    | assumption
    | (extract_lets +onlyGivenNames a; refine Later.cut (r := r0) a ?_ ?_; (on_goal 2 => intro _; clear_value a); (on_goal 1 => subst a))
    | (extract_lets +onlyGivenNames a; clear_value a)
    | apply State.modDis_later
    | apply Later.ite
    | fail_if_no_progress apply Later.upd
    | fail_if_no_progress apply Later.upd_mem
    | fail_if_no_progress apply Later.upd_it
    | split

theorem State.markSpray_later {r0 : State} (s : State) (b : IT) (n : Nat) (z : NozzleEntry) (own : Bool) (known : IT) (x : Spray) (hL : Later r0 s) : Later r0 (State.markSpray s b n z own known x) := by
  unfold State.markSpray
  dsimp only
  repeat' with_reducible first
    | assumption
    | apply State.markWindow_later
    | apply State.countUnobserved_later
    | apply State.foldNote_later
    | apply Later.foldl
    | apply Later.foldl_fst
    | apply Later.ite
    | fail_if_no_progress apply Later.upd
    | fail_if_no_progress apply Later.upd_mem
    | fail_if_no_progress apply Later.upd_it
    | intro _ _ _
    | split

theorem State.foldRecords_later {r0 : State} (s : State) (hL : Later r0 s) : Later r0 (State.foldRecords s) := by
  unfold State.foldRecords
  repeat' with_reducible first
    | assumption
    | (extract_lets +onlyGivenNames a; refine Later.cut (r := r0) a ?_ ?_; (on_goal 2 => intro _; clear_value a); (on_goal 1 => subst a))
    | (extract_lets +onlyGivenNames a; clear_value a)
    | apply State.modDis_later
    | apply State.record_later
    | apply Later.foldl
    | apply Later.foldl_fst
    | apply Later.ite
    | fail_if_no_progress apply Later.upd
    | fail_if_no_progress apply Later.upd_mem
    | fail_if_no_progress apply Later.upd_it
    | intro _ _ _

theorem State.unmarkedCount_later {r0 : State} (s : State) (hL : Later r0 s) : Later r0 (State.unmarkedCount s) := by
  unfold State.unmarkedCount
  repeat' with_reducible first
    | assumption
    | (extract_lets +onlyGivenNames a; refine Later.cut (r := r0) a ?_ ?_; (on_goal 2 => intro _; clear_value a); (on_goal 1 => subst a))
    | (extract_lets +onlyGivenNames a; clear_value a)
    | apply State.modDis_later
    | apply State.modHank_later
    | apply State.record_later
    | apply Later.ite
    | fail_if_no_progress apply Later.upd
    | fail_if_no_progress apply Later.upd_mem
    | fail_if_no_progress apply Later.upd_it
    | split

theorem State.settleAcc_later {r0 : State} (s : State) (b : IT) (hL : Later r0 s) : Later r0 (State.settleAcc s b).1 := by
  unfold State.settleAcc
  split
  · exact hL
  · split
    · exact hL
    · dsimp only
      refine Later.foldl_fst (p := (s, [])) hL fun p a h => ?_
      split
      · dsimp only
        exact State.modDis_later _ _ h
      · split
        · exact h
        · split
          · exact h
          · next e =>
            dsimp only
            exact State.modDis_later _ _ (State.settleCell_later _ _ _ _ h e)

theorem State.markFrame_later {r0 : State} (s : State) (b : IT) (hL : Later r0 s) : Later r0 (State.markFrame s b).1 := by
  unfold State.markFrame
  repeat' with_reducible first
    | assumption
    | (extract_lets +onlyGivenNames a; refine Later.cut (r := r0) a ?_ ?_; (on_goal 2 => intro _; clear_value a); (on_goal 1 => subst a))
    | (extract_lets +onlyGivenNames a; refine Later.cut (r := r0) a.1 ?_ ?_; (on_goal 2 => intro _; clear_value a); (on_goal 1 => subst a))
    | (extract_lets +onlyGivenNames a; refine Later.cut (r := r0) a.s ?_ ?_; (on_goal 2 => intro _; clear_value a); (on_goal 1 => subst a))
    | (extract_lets +onlyGivenNames a; clear_value a)
    | refine Later.of_pair ‹_› ?_
    | apply Later.ite_fst
    | apply State.markSpray_later
    | apply State.modDis_later
    | apply State.foldRecords_later
    | apply State.unmarkedCount_later
    | apply State.settleAcc_later
    | apply Later.foldl
    | apply Later.foldl_fst
    | apply Later.ite
    | fail_if_no_progress apply Later.upd
    | fail_if_no_progress apply Later.upd_mem
    | fail_if_no_progress apply Later.upd_it
    | intro _ _ _
    | split

theorem State.giveUp_later {r0 : State} (s : State) (k : Nat) (hL : Later r0 s) : Later r0 (State.giveUp s k) := by
  unfold State.giveUp
  repeat' with_reducible first
    | assumption
    | (extract_lets +onlyGivenNames a; refine Later.cut (r := r0) a ?_ ?_; (on_goal 2 => intro _; clear_value a); (on_goal 1 => subst a))
    | (extract_lets +onlyGivenNames a; clear_value a)
    | apply State.modDis_later
    | apply State.writeBack_later
    | apply Later.foldl
    | apply Later.foldl_fst
    | apply Later.ite
    | fail_if_no_progress apply Later.upd
    | fail_if_no_progress apply Later.upd_mem
    | fail_if_no_progress apply Later.upd_it
    | intro _ _ _
    | split

theorem State.settleNow_later {r0 : State} (s : State) (k : Nat) (a : Acc) (hL : Later r0 s) : Later r0 (State.settleNow s k a) := by
  unfold State.settleNow
  split
  · next h => exact State.settleCell_later _ _ _ _ hL h
  · dsimp only
    have h1 := State.putTile_later _ k (a.x / 64) (a.y / 64) 0 true
      (Later.ite (c := s.dis.cache.length < s.lapRoom) hL (State.giveUp_later s k hL))
    exact Later.getD h1 fun t e => State.settleCell_later _ _ _ t h1 e

theorem State.disBoot_later {r0 : State} (s : State) (badHdr : Vector Bool 16) (hL : Later r0 s) : Later r0 (State.disBoot s badHdr) := by
  unfold State.disBoot
  repeat' with_reducible first
    | assumption
    | (extract_lets +onlyGivenNames a; refine Later.cut (r := r0) a ?_ ?_; (on_goal 2 => intro _; clear_value a); (on_goal 1 => subst a))
    | (extract_lets +onlyGivenNames a; clear_value a)
    | apply State.modDis_later
    | apply State.poolNote_later
    | apply State.modHank_later
    | apply State.record_later
    | apply Later.foldl
    | apply Later.foldl_fst
    | apply Later.ite
    | fail_if_no_progress apply Later.upd
    | fail_if_no_progress apply Later.upd_mem
    | fail_if_no_progress apply Later.upd_it
    | intro _ _ _

end Sys2Proof.Machine
end

