-- ==== Sys2Proof/Laws/LaterSpindle.lean ====
section
/-! SUPPORT. What no operation of Spindle.lean undoes: each moves the state Later. -/


namespace Sys2Proof.Machine

theorem State.modSpd_later {r0 : State} (s : State) (f : Spindle → Spindle) (hL : Later r0 s) : Later r0 (State.modSpd s f) := 
  ⟨hL.it, hL.mem, hL.queue, hL.roll, hL.key, hL.life, hL.legal⟩

theorem State.modOut_later {r0 : State} (s : State) (o : Nat) (f : Output → Output) (hL : Later r0 s) : Later r0 (State.modOut s o f) := 
  ⟨hL.it, hL.mem, hL.queue, hL.roll, hL.key, hL.life, hL.legal⟩

theorem State.spdCount_later {r0 : State} (s : State) (i : Nat) (k : Nat) (hL : Later r0 s) : Later r0 (State.spdCount s i k) := 
  ⟨hL.it, hL.mem, hL.queue, hL.roll, hL.key, hL.life, hL.legal⟩

theorem State.setDelays_later {r0 : State} (s : State) (o : Nat) (hL : Later r0 s) : Later r0 (State.setDelays s o) := by
  unfold State.setDelays
  repeat' with_reducible first
    | assumption
    | apply State.modOut_later
    | apply State.recordIf_later

theorem State.planEdge_later {r0 : State} (s : State) (o : Nat) (up : Bool) (te : IT) (hL : Later r0 s) : Later r0 (State.planEdge s o up te) := 
  ⟨hL.it, hL.mem, hL.queue, hL.roll, hL.key, hL.life, hL.legal⟩

theorem State.answered_later {r0 : State} (s : State) (o : Nat) (r : WalkFound) (hL : Later r0 s) : Later r0 (State.answered s o r) := by
  unfold State.answered
  repeat' with_reducible first
    | assumption
    | (extract_lets +onlyGivenNames a; refine Later.cut (r := r0) a ?_ ?_; (on_goal 2 => intro _; clear_value a); (on_goal 1 => subst a))
    | (extract_lets +onlyGivenNames a; clear_value a)
    | apply State.modOut_later
    | apply State.planEdge_later
    | apply State.spdCount_later
    | apply Later.ite
    | fail_if_no_progress apply Later.upd
    | fail_if_no_progress apply Later.upd_mem
    | fail_if_no_progress apply Later.upd_it
    | split

theorem State.heldOutput_later {r0 : State} (s : State) (b : IT) (o : Nat) (u : Walked) (hL : Later r0 s) : Later r0 (State.heldOutput s b o u).1 := by
  unfold State.heldOutput
  repeat' with_reducible first
    | assumption
    | (extract_lets +onlyGivenNames a; refine Later.cut (r := r0) a ?_ ?_; (on_goal 2 => intro _; clear_value a); (on_goal 1 => subst a))
    | (extract_lets +onlyGivenNames a; refine Later.cut (r := r0) a.1 ?_ ?_; (on_goal 2 => intro _; clear_value a); (on_goal 1 => subst a))
    | (extract_lets +onlyGivenNames a; refine Later.cut (r := r0) a.s ?_ ?_; (on_goal 2 => intro _; clear_value a); (on_goal 1 => subst a))
    | (extract_lets +onlyGivenNames a; clear_value a)
    | refine Later.of_pair ‹_› ?_
    | apply Later.ite_fst
    | apply State.spdCount_later
    | apply State.modOut_later
    | apply State.recordIf_later
    | apply State.answered_later
    | apply Later.ite
    | fail_if_no_progress apply Later.upd
    | fail_if_no_progress apply Later.upd_mem
    | fail_if_no_progress apply Later.upd_it
    | split

theorem State.evaluate_later {r0 : State} (s : State) (b : IT) (o : Nat) (u : Walked) (hL : Later r0 s) : Later r0 (State.evaluate s b o u).1 := by
  unfold State.evaluate
  dsimp only
  repeat' with_reducible first
    | assumption
    | (extract_lets +onlyGivenNames a; refine Later.cut (r := r0) a.1 ?_ ?_; (on_goal 2 => intro _; clear_value a); (on_goal 1 => subst a))
    | (extract_lets +onlyGivenNames a; refine Later.cut (r := r0) a.s ?_ ?_; (on_goal 2 => intro _; clear_value a); (on_goal 1 => subst a))
    | refine Later.of_pair ‹_› ?_
    | apply Later.ite_fst
    | apply State.modOut_later
    | apply State.heldOutput_later
    | apply State.answered_later
    | apply Later.ite
    | fail_if_no_progress apply Later.upd
    | fail_if_no_progress apply Later.upd_mem
    | fail_if_no_progress apply Later.upd_it
    | split

theorem State.closeNow_later {r0 : State} (s : State) (b : IT) (o : Nat) (hL : Later r0 s) : Later r0 (State.closeNow s b o) := 
  ⟨hL.it, hL.mem, hL.queue, hL.roll, hL.key, hL.life, hL.legal⟩

theorem State.spdEnterState_later {r0 : State} (s : State) (b : IT) (hL : Later r0 s) : Later r0 (State.spdEnterState s b) := by
  unfold State.spdEnterState
  repeat' with_reducible first
    | assumption
    | (extract_lets +onlyGivenNames a; refine Later.cut (r := r0) a ?_ ?_; (on_goal 2 => intro _; clear_value a); (on_goal 1 => subst a))
    | (extract_lets +onlyGivenNames a; clear_value a)
    | apply State.modSpd_later
    | apply State.recordIf_later

theorem State.sectionEdge_later {r0 : State} (s : State) (b : IT) (o : Nat) (a3 : Bool) (rx : IT) (hL : Later r0 s) : Later r0 (State.sectionEdge s b o a3 rx) := by
  unfold State.sectionEdge
  repeat' with_reducible first
    | assumption
    | (extract_lets +onlyGivenNames a; clear_value a)
    | apply State.modOut_later
    | apply State.spdCount_later
    | apply Later.ite

theorem State.sectionStates_later {r0 : State} (s : State) (b : IT) (hL : Later r0 s) : Later r0 (State.sectionStates s b) := by
  unfold State.sectionStates
  repeat' with_reducible first
    | assumption
    | (extract_lets +onlyGivenNames a; refine Later.cut (r := r0) a ?_ ?_; (on_goal 2 => intro _; clear_value a); (on_goal 1 => subst a))
    | (extract_lets +onlyGivenNames a; clear_value a)
    | apply State.modSpd_later
    | apply State.modOut_later
    | apply Later.foldl
    | apply Later.foldl_fst
    | apply Later.ite
    | fail_if_no_progress apply Later.upd
    | fail_if_no_progress apply Later.upd_mem
    | fail_if_no_progress apply Later.upd_it
    | intro _ _ _

theorem State.outputsOut_later {r0 : State} (s : State) (out : Nat → Bool) (hL : Later r0 s) : Later r0 (State.outputsOut s out) := by
  unfold State.outputsOut
  repeat' with_reducible first
    | assumption
    | (extract_lets +onlyGivenNames a; refine Later.cut (r := r0) a ?_ ?_; (on_goal 2 => intro _; clear_value a); (on_goal 1 => subst a))
    | (extract_lets +onlyGivenNames a; clear_value a)
    | apply State.record_later
    | apply State.modSpd_later
    | apply Later.ite
    | fail_if_no_progress apply Later.upd
    | fail_if_no_progress apply Later.upd_mem
    | fail_if_no_progress apply Later.upd_it
    | split

theorem execExternalTimeout_later {r0 : State} (s : State) (hL : Later r0 s) : ∃ s', execExternalTimeout s = .next s' ∧ Later r0 s' := by
  unfold execExternalTimeout
  dsimp only
  refine ⟨_, rfl, ?_⟩
  repeat' with_reducible first
    | assumption
    | (extract_lets +onlyGivenNames a; clear_value a)
    | apply State.outputsOut_later
    | apply State.at_later
    | apply Later.foldl
    | apply Later.foldl_fst
    | apply Later.ite
    | fail_if_no_progress apply Later.upd
    | fail_if_no_progress apply Later.upd_mem
    | fail_if_no_progress apply Later.upd_it
    | intro _ _ _
    | split

theorem State.unqueried_later {r0 : State} (s : State) (o : Nat) (hL : Later r0 s) : Later r0 (State.unqueried s o) := 
  ⟨hL.it, hL.mem, hL.queue, hL.roll, hL.key, hL.life, hL.legal⟩

theorem State.externalOutput_later {r0 : State} (s : State) (b : IT) (o : Nat) (hL : Later r0 s) : Later r0 (State.externalOutput s b o) := by
  unfold State.externalOutput
  repeat' with_reducible first
    | assumption
    | (extract_lets +onlyGivenNames a; refine Later.cut (r := r0) a ?_ ?_; (on_goal 2 => intro _; clear_value a); (on_goal 1 => subst a))
    | (extract_lets +onlyGivenNames a; clear_value a)
    | apply State.closeNow_later
    | apply State.sectionEdge_later
    | apply Later.ite
    | fail_if_no_progress apply Later.upd
    | fail_if_no_progress apply Later.upd_mem
    | fail_if_no_progress apply Later.upd_it
    | split

theorem State.spdOutput_later {r0 : State} (s : State) (b : IT) (o : Nat) (u : Walked) (hL : Later r0 s) : Later r0 (State.spdOutput s b o u).1 := by
  unfold State.spdOutput
  repeat' with_reducible first
    | assumption
    | (extract_lets +onlyGivenNames a; refine Later.cut (r := r0) a ?_ ?_; (on_goal 2 => intro _; clear_value a); (on_goal 1 => subst a))
    | (extract_lets +onlyGivenNames a; refine Later.cut (r := r0) a.1 ?_ ?_; (on_goal 2 => intro _; clear_value a); (on_goal 1 => subst a))
    | (extract_lets +onlyGivenNames a; refine Later.cut (r := r0) a.s ?_ ?_; (on_goal 2 => intro _; clear_value a); (on_goal 1 => subst a))
    | (extract_lets +onlyGivenNames a; clear_value a)
    | refine Later.of_pair ‹_› ?_
    | apply Later.ite_fst
    | apply State.modOut_later
    | apply State.unqueried_later
    | apply State.closeNow_later
    | apply State.externalOutput_later
    | apply State.evaluate_later
    | apply Later.ite

theorem State.spdStands_later {r0 : State} (s : State) (hL : Later r0 s) : Later r0 (State.spdStands s) := by
  unfold State.spdStands
  repeat' with_reducible first
    | assumption
    | (extract_lets +onlyGivenNames a; refine Later.cut (r := r0) a ?_ ?_; (on_goal 2 => intro _; clear_value a); (on_goal 1 => subst a))
    | (extract_lets +onlyGivenNames a; clear_value a)
    | apply State.modSpd_later
    | apply Later.ite
    | fail_if_no_progress apply Later.upd
    | fail_if_no_progress apply Later.upd_mem
    | fail_if_no_progress apply Later.upd_it
    | split

theorem State.noHankNote_later {r0 : State} (s : State) (hL : Later r0 s) : Later r0 (State.noHankNote s) := by
  unfold State.noHankNote
  repeat' with_reducible first
    | assumption
    | (extract_lets +onlyGivenNames a; refine Later.cut (r := r0) a ?_ ?_; (on_goal 2 => intro _; clear_value a); (on_goal 1 => subst a))
    | (extract_lets +onlyGivenNames a; clear_value a)
    | apply State.recordIf_later
    | apply State.modSpd_later
    | apply Later.ite

theorem State.poolExhausted_later {r0 : State} (s : State) (hL : Later r0 s) : Later r0 (State.poolExhausted s) := by
  unfold State.poolExhausted
  repeat' with_reducible first
    | assumption
    | (extract_lets +onlyGivenNames a; clear_value a)
    | apply State.spdCount_later
    | apply State.record_later
    | apply Later.ite
    | fail_if_no_progress apply Later.upd
    | fail_if_no_progress apply Later.upd_mem
    | fail_if_no_progress apply Later.upd_it
    | split

theorem State.walkNote_later {r0 : State} (s : State) (fills : List FillIn) (u : Walked) (hL : Later r0 s) : Later r0 (State.walkNote s fills u) := 
  ⟨hL.it, hL.mem, hL.queue, hL.roll, hL.key, hL.life, hL.legal⟩

theorem State.takeDieClosing_later {r0 : State} (s : State) (n : Nat) (hL : Later r0 s) : Later r0 (State.takeDieClosing s n) := by
  unfold State.takeDieClosing
  repeat' with_reducible first
    | assumption
    | (extract_lets +onlyGivenNames a; refine Later.cut (r := r0) a ?_ ?_; (on_goal 2 => intro _; clear_value a); (on_goal 1 => subst a))
    | (extract_lets +onlyGivenNames a; clear_value a)
    | apply State.modCh_later
    | apply State.modBank_later
    | apply State.modOut_later
    | apply Later.ite
    | fail_if_no_progress apply Later.upd
    | fail_if_no_progress apply Later.upd_mem
    | fail_if_no_progress apply Later.upd_it
    | split

theorem State.takeValveShed_later {r0 : State} (s : State) (h : Nat) (hL : Later r0 s) : Later r0 (State.takeValveShed s h) := by
  unfold State.takeValveShed
  repeat' with_reducible first
    | assumption
    | (extract_lets +onlyGivenNames a; refine Later.cut (r := r0) a ?_ ?_; (on_goal 2 => intro _; clear_value a); (on_goal 1 => subst a))
    | (extract_lets +onlyGivenNames a; clear_value a)
    | apply State.modOut_later
    | apply State.modBr_later
    | apply Later.ite
    | fail_if_no_progress apply Later.upd
    | fail_if_no_progress apply Later.upd_mem
    | fail_if_no_progress apply Later.upd_it
    | split

theorem State.spdEvaluate_later {r0 : State} (s : State) (b : IT) (fills : List FillIn) (hL : Later r0 s) : Later r0 (State.spdEvaluate s b fills) := by
  unfold State.spdEvaluate
  repeat' with_reducible first
    | assumption
    | (extract_lets +onlyGivenNames a; refine Later.cut (r := r0) a ?_ ?_; (on_goal 2 => intro _; clear_value a); (on_goal 1 => subst a))
    | (extract_lets +onlyGivenNames a; refine Later.cut (r := r0) a.1 ?_ ?_; (on_goal 2 => intro _; clear_value a); (on_goal 1 => subst a))
    | (extract_lets +onlyGivenNames a; refine Later.cut (r := r0) a.s ?_ ?_; (on_goal 2 => intro _; clear_value a); (on_goal 1 => subst a))
    | refine Later.of_pair ‹_› ?_
    | apply Later.ite_fst
    | apply State.takeValveShed_later
    | apply State.takeDieClosing_later
    | apply State.spdEnterState_later
    | apply State.setDelays_later
    | apply State.fillDone_later
    | apply State.noHankNote_later
    | apply State.sectionStates_later
    | apply State.spdOutput_later
    | apply State.poolExhausted_later
    | apply State.walkNote_later
    | apply Later.foldl
    | apply Later.foldl_fst
    | apply Later.ite
    | fail_if_no_progress apply Later.upd
    | fail_if_no_progress apply Later.upd_mem
    | fail_if_no_progress apply Later.upd_it
    | intro _ _ _

theorem State.workStates_later {r0 : State} (s : State) (b : IT) (hL : Later r0 s) : Later r0 (State.workStates s b) := by
  unfold State.workStates
  repeat' with_reducible first
    | assumption
    | (extract_lets +onlyGivenNames a; clear_value a)
    | apply State.modSpd_later

theorem State.dropEdges_later {r0 : State} (s : State) (hL : Later r0 s) : Later r0 (State.dropEdges s) := 
  ⟨hL.it, hL.mem, hL.queue, hL.roll, hL.key, hL.life, hL.legal⟩

theorem State.spdRun_later {r0 : State} (s : State) (hL : Later r0 s) : Later r0 (State.spdRun s) := 
  ⟨hL.it, hL.mem, hL.queue, hL.roll, hL.key, hL.life, hL.legal⟩

theorem State.spdIdle_later {r0 : State} (s : State) (hL : Later r0 s) : Later r0 (State.spdIdle s) := 
  ⟨hL.it, hL.mem, hL.queue, hL.roll, hL.key, hL.life, hL.legal⟩

theorem State.spdStop_later {r0 : State} (s : State) (hL : Later r0 s) : Later r0 (State.spdStop s) := 
  ⟨hL.it, hL.mem, hL.queue, hL.roll, hL.key, hL.life, hL.legal⟩

end Sys2Proof.Machine
end

