-- ==== Sys2Proof/Laws/LaterRate.lean ====
section
/-! SUPPORT. What no operation of Rate.lean undoes: each moves the state Later. -/


namespace Sys2Proof.Machine

theorem State.modRate_later {r0 : State} (s : State) (f : RateDose → RateDose) (hL : Later r0 s) : Later r0 (State.modRate s f) := 
  ⟨hL.it, hL.mem, hL.queue, hL.roll, hL.key, hL.life, hL.legal⟩

theorem State.modRz_later {r0 : State} (s : State) (n : Nat) (f : RateNz → RateNz) (hL : Later r0 s) : Later r0 (State.modRz s n f) := 
  ⟨hL.it, hL.mem, hL.queue, hL.roll, hL.key, hL.life, hL.legal⟩

theorem State.rateCount_later {r0 : State} (s : State) (i : Nat) (hL : Later r0 s) : Later r0 (State.rateCount s i) := 
  ⟨hL.it, hL.mem, hL.queue, hL.roll, hL.key, hL.life, hL.legal⟩

theorem State.notePeriod_later {r0 : State} (s : State) (n : Nat) (o : Period) (hL : Later r0 s) : Later r0 (State.notePeriod s n o) := by
  unfold State.notePeriod
  repeat' with_reducible first
    | assumption
    | (extract_lets +onlyGivenNames a; refine Later.cut (r := r0) a ?_ ?_; (on_goal 2 => intro _; clear_value a); (on_goal 1 => subst a))
    | (extract_lets +onlyGivenNames a; clear_value a)
    | apply State.modRz_later
    | apply State.rateCount_later
    | apply State.recordIf_later
    | apply Later.ite

theorem State.notePulse_later {r0 : State} (s : State) (p : PulsePlan) (hL : Later r0 s) : Later r0 (State.notePulse s p) := 
  ⟨hL.it, hL.mem, hL.queue, hL.roll, hL.key, hL.life, hL.legal⟩

theorem State.emptyPeriod_later {r0 : State} (s : State) (n : Nat) (ends : IT) (wanted : Nat) (hL : Later r0 s) : Later r0 (State.emptyPeriod s n ends wanted) := 
  ⟨hL.it, hL.mem, hL.queue, hL.roll, hL.key, hL.life, hL.legal⟩

theorem State.rangeNote_later {r0 : State} (s : State) (n : Nat) (hL : Later r0 s) : Later r0 (State.rangeNote s n) := by
  unfold State.rangeNote
  repeat' with_reducible first
    | assumption
    | (extract_lets +onlyGivenNames a; refine Later.cut (r := r0) a ?_ ?_; (on_goal 2 => intro _; clear_value a); (on_goal 1 => subst a))
    | (extract_lets +onlyGivenNames a; clear_value a)
    | apply State.modRz_later
    | apply Later.ite
    | fail_if_no_progress apply Later.upd
    | fail_if_no_progress apply Later.upd_mem
    | fail_if_no_progress apply Later.upd_it
    | split

theorem State.restNote_later {r0 : State} (s : State) (n : Nat) (hL : Later r0 s) : Later r0 (State.restNote s n) := by
  unfold State.restNote
  repeat' with_reducible first
    | assumption
    | (extract_lets +onlyGivenNames a; refine Later.cut (r := r0) a ?_ ?_; (on_goal 2 => intro _; clear_value a); (on_goal 1 => subst a))
    | (extract_lets +onlyGivenNames a; clear_value a)
    | apply State.modRz_later
    | apply Later.ite
    | fail_if_no_progress apply Later.upd
    | fail_if_no_progress apply Later.upd_mem
    | fail_if_no_progress apply Later.upd_it
    | split

theorem State.latticePulses_later {r0 : State} (s : State) (n : Nat) (need : Need) (limit : Option IT) (last : IT) (fuel : Nat)
    (q : State × List PulsePlan) (hL : Later r0 q.1) : Later r0 (State.latticePulses s n need limit last fuel q).1 := by
  induction fuel generalizing q with
  | zero => exact hL
  | succ fuel ih =>
    obtain ⟨s', l⟩ := q
    unfold State.latticePulses
    repeat' with_reducible first
      | assumption
      | apply ih
      | (extract_lets +onlyGivenNames a; refine Later.cut (r := r0) a ?_ ?_; (on_goal 2 => intro _; clear_value a); (on_goal 1 => subst a))
      | (extract_lets +onlyGivenNames a; clear_value a)
      | refine Later.of_pair ‹_› ?_
      | apply Later.ite_fst
      | apply State.modRz_later
      | apply State.notePeriod_later
      | apply State.emptyPeriod_later
      | apply Later.ite
      | fail_if_no_progress apply Later.upd
      | fail_if_no_progress apply Later.upd_mem
      | fail_if_no_progress apply Later.upd_it
      | split

theorem State.relattice_later {r0 : State} (s : State) (b : IT) (n : Nat) (hL : Later r0 s) : Later r0 (State.relattice s b n) := by
  unfold State.relattice
  repeat' with_reducible first
    | assumption
    | (extract_lets +onlyGivenNames a; refine Later.cut (r := r0) a ?_ ?_; (on_goal 2 => intro _; clear_value a); (on_goal 1 => subst a))
    | (extract_lets +onlyGivenNames a; clear_value a)
    | apply State.modRz_later
    | apply Later.ite
    | fail_if_no_progress apply Later.upd
    | fail_if_no_progress apply Later.upd_mem
    | fail_if_no_progress apply Later.upd_it
    | split

theorem State.firstPulse_later {r0 : State} (s : State) (n : Nat) (need : Need) (t : IT) (ref : IT) (hL : Later r0 s) : Later r0 (State.firstPulse s n need t ref).1 := by
  unfold State.firstPulse
  repeat' with_reducible first
    | assumption
    | (extract_lets +onlyGivenNames a; refine Later.cut (r := r0) a ?_ ?_; (on_goal 2 => intro _; clear_value a); (on_goal 1 => subst a))
    | (extract_lets +onlyGivenNames a; clear_value a)
    | refine Later.of_pair ‹_› ?_
    | apply Later.ite_fst
    | apply State.notePeriod_later
    | apply State.emptyPeriod_later
    | apply Later.ite
    | fail_if_no_progress apply Later.upd
    | fail_if_no_progress apply Later.upd_mem
    | fail_if_no_progress apply Later.upd_it
    | split

theorem State.nozzlePulses_later {r0 : State} (s : State) (b : IT) (n : Nat) (need : Need) (hL : Later r0 s) : Later r0 (State.nozzlePulses s b n need).1 := by
  unfold State.nozzlePulses
  repeat' with_reducible first
    | assumption
    | (extract_lets +onlyGivenNames a; clear_value a)
    | refine Later.of_pair ‹_› ?_
    | apply Later.ite_fst
    | apply State.latticePulses_later
    | apply State.relattice_later
    | apply State.firstPulse_later
    | apply Later.ite
    | fail_if_no_progress apply Later.upd
    | fail_if_no_progress apply Later.upd_mem
    | fail_if_no_progress apply Later.upd_it
    | split

theorem State.headroom_later {r0 : State} (s : State) (b : IT) (needs : List (Nat × Need)) (hL : Later r0 s) : Later r0 (State.headroom s b needs) := by
  unfold State.headroom
  dsimp only
  repeat' with_reducible first
    | assumption
    | (extract_lets +onlyGivenNames a; clear_value a)
    | apply State.modRate_later
    | apply State.postRequest_later
    | apply Later.foldl
    | apply Later.foldl_fst
    | apply Later.ite

theorem State.postRef1_later {r0 : State} (s : State) (w : Nat) (v : F32) (hL : Later r0 s) : Later r0 (State.postRef1 s w v) := 
  ⟨hL.it, hL.mem, hL.queue, hL.roll, hL.key, hL.life, hL.legal⟩

theorem State.achieved_later {r0 : State} (s : State) (b : IT) (n : Nat) (hL : Later r0 s) : Later r0 (State.achieved s b n) := by
  unfold State.achieved
  dsimp only
  repeat' with_reducible first
    | assumption
    | apply State.modRz_later
    | apply Later.foldl
    | apply Later.foldl_fst
    | apply Later.ite
    | fail_if_no_progress apply Later.upd
    | fail_if_no_progress apply Later.upd_mem
    | fail_if_no_progress apply Later.upd_it
    | intro _ _ _
    | split

theorem State.rateError_later {r0 : State} (s : State) (b : IT) (n : Nat) (hL : Later r0 s) : Later r0 (State.rateError s b n) := 
  ⟨hL.it, hL.mem, hL.queue, hL.roll, hL.key, hL.life, hL.legal⟩

theorem State.addDose_later {r0 : State} (s : State) (b : IT) (needs : List (Nat × Need)) (hL : Later r0 s) : Later r0 (State.addDose s b needs) := by
  unfold State.addDose
  repeat' with_reducible first
    | assumption
    | (extract_lets +onlyGivenNames a; clear_value a)
    | apply State.modRate_later
    | apply Later.foldl
    | apply Later.foldl_fst
    | apply Later.ite
    | fail_if_no_progress apply Later.upd
    | fail_if_no_progress apply Later.upd_mem
    | fail_if_no_progress apply Later.upd_it
    | intro _ _ _
    | split

theorem State.flowCheck_later {r0 : State} (s : State) (b : IT) (hL : Later r0 s) : Later r0 (State.flowCheck s b) := by
  unfold State.flowCheck
  extract_lets i
  split
  · exact State.modRate_later _ _ hL
  · split
    · exact hL
    · split
      rename_i t dev e
      have ht : Later r0 t := by
        split at e
        · cases e
          exact State.draw_later _ hL
        · cases e
          exact hL
      exact State.recordIf_later _ _ _ _ _ (State.modRate_later _ _ ht)

theorem State.rateModeOut_later {r0 : State} (s : State) (needs : List (Nat × Need)) (total : Int) (hL : Later r0 s) : Later r0 (State.rateModeOut s needs total) := by
  unfold State.rateModeOut
  repeat' with_reducible first
    | assumption
    | (extract_lets +onlyGivenNames a; refine Later.cut (r := r0) a ?_ ?_; (on_goal 2 => intro _; clear_value a); (on_goal 1 => subst a))
    | (extract_lets +onlyGivenNames a; clear_value a)
    | apply State.postRef1_later
    | apply State.modRate_later
    | apply State.modRz_later
    | apply Later.foldl
    | apply Later.foldl_fst
    | apply Later.ite
    | fail_if_no_progress apply Later.upd
    | fail_if_no_progress apply Later.upd_mem
    | fail_if_no_progress apply Later.upd_it
    | intro _ _ _
    | split

theorem State.rateCompute_later {r0 : State} (s : State) (b : IT) (hL : Later r0 s) : Later r0 (State.rateCompute s b).1 := by
  unfold State.rateCompute
  repeat' with_reducible first
    | assumption
    | (extract_lets +onlyGivenNames a; refine Later.cut (r := r0) a ?_ ?_; (on_goal 2 => intro _; clear_value a); (on_goal 1 => subst a))
    | (extract_lets +onlyGivenNames a; clear_value a)
    | refine Later.of_pair ‹_› ?_
    | apply Later.ite_fst
    | apply State.recordIf_later
    | apply State.modRate_later
    | apply State.modRz_later
    | apply State.rateError_later
    | apply State.achieved_later
    | apply State.headroom_later
    | apply State.flowCheck_later
    | apply State.addDose_later
    | apply State.restNote_later
    | apply State.rangeNote_later
    | apply State.rateModeOut_later
    | apply State.nozzlePulses_later
    | apply Later.foldl
    | apply Later.foldl_fst
    | apply Later.ite
    | fail_if_no_progress apply Later.upd
    | fail_if_no_progress apply Later.upd_mem
    | fail_if_no_progress apply Later.upd_it
    | intro _ _ _

theorem State.rateIdle_later {r0 : State} (s : State) (hL : Later r0 s) : Later r0 (State.rateIdle s) := 
  ⟨hL.it, hL.mem, hL.queue, hL.roll, hL.key, hL.life, hL.legal⟩

theorem State.rateRun_later {r0 : State} (s : State) (hL : Later r0 s) : Later r0 (State.rateRun s) := by
  unfold State.rateRun
  repeat' with_reducible first
    | assumption
    | (extract_lets +onlyGivenNames a; refine Later.cut (r := r0) a ?_ ?_; (on_goal 2 => intro _; clear_value a); (on_goal 1 => subst a))
    | (extract_lets +onlyGivenNames a; clear_value a)
    | apply State.modRate_later
    | apply State.rateIdle_later
    | apply Later.ite
    | fail_if_no_progress apply Later.upd
    | fail_if_no_progress apply Later.upd_mem
    | fail_if_no_progress apply Later.upd_it
    | split

end Sys2Proof.Machine
end

