-- ==== Sys2Proof/Laws/LaterPlacement.lean ====
section
/-! SUPPORT. What no operation of Placement.lean undoes: each moves the state Later. -/


namespace Sys2Proof.Machine

theorem State.addEdge_later {r0 : State} (s : State) (n : Nat) (e : DieEdge) (hL : Later r0 s) : Later r0 (State.addEdge s n e) := 
  ⟨hL.it, hL.mem, hL.queue, hL.roll, hL.key, hL.life, hL.legal⟩

theorem State.takeBack_later {r0 : State} (s : State) (hL : Later r0 s) : Later r0 (State.takeBack s) := by
  unfold State.takeBack
  repeat' with_reducible first
    | assumption
    | (extract_lets +onlyGivenNames a; clear_value a)
    | apply State.modCh_later
    | apply State.modBr_later
    | apply Later.foldl
    | apply Later.foldl_fst
    | apply Later.ite
    | fail_if_no_progress apply Later.upd
    | fail_if_no_progress apply Later.upd_mem
    | fail_if_no_progress apply Later.upd_it
    | intro _ _ _
    | split

theorem State.handPending_later {r0 : State} (s : State) (hL : Later r0 s) : Later r0 (State.handPending s) := by
  unfold State.handPending
  repeat' with_reducible first
    | assumption
    | apply State.addEdge_later
    | apply State.modBr_later
    | apply Later.foldl
    | apply Later.foldl_fst
    | apply Later.ite
    | fail_if_no_progress apply Later.upd
    | fail_if_no_progress apply Later.upd_mem
    | fail_if_no_progress apply Later.upd_it
    | intro _ _ _
    | split

theorem State.fixEdge_later {r0 : State} (s : State) (o : Nat) (hL : Later r0 s) : Later r0 (State.fixEdge s o) := 
  ⟨hL.it, hL.mem, hL.queue, hL.roll, hL.key, hL.life, hL.legal⟩

theorem State.fixClose_later {r0 : State} (s : State) (b : IT) (n : Nat) (t : IT) (hL : Later r0 s) : Later r0 (State.fixClose s b n t) := by
  unfold State.fixClose
  repeat' with_reducible first
    | assumption
    | (extract_lets +onlyGivenNames a; refine Later.cut (r := r0) a ?_ ?_; (on_goal 2 => intro _; clear_value a); (on_goal 1 => subst a))
    | (extract_lets +onlyGivenNames a; clear_value a)
    | apply State.modCh_later
    | apply State.modBank_later
    | apply State.modSpd_later
    | apply State.modRz_later
    | apply State.addEdge_later
    | apply Later.ite

theorem State.replan_later {r0 : State} (s : State) (b : IT) (p : PulsePlan) (deferral : Nat) (hL : Later r0 s) : Later r0 (State.replan s b p deferral) := 
  ⟨hL.it, hL.mem, hL.queue, hL.roll, hL.key, hL.life, hL.legal⟩

theorem State.lostPeriod_later {r0 : State} (s : State) (p : PulsePlan) (hL : Later r0 s) : Later r0 (State.lostPeriod s p) := by
  unfold State.lostPeriod
  repeat' with_reducible first
    | assumption
    | (extract_lets +onlyGivenNames a; refine Later.cut (r := r0) a ?_ ?_; (on_goal 2 => intro _; clear_value a); (on_goal 1 => subst a))
    | (extract_lets +onlyGivenNames a; clear_value a)
    | apply State.emptyPeriod_later
    | apply Later.ite
    | fail_if_no_progress apply Later.upd
    | fail_if_no_progress apply Later.upd_mem
    | fail_if_no_progress apply Later.upd_it
    | split

theorem State.dropPull_later {r0 : State} (s : State) (b : IT) (p : PulsePlan) (deferral : Nat) (hL : Later r0 s) : Later r0 (State.dropPull s b p deferral) := by
  unfold State.dropPull
  repeat' with_reducible first
    | assumption
    | apply State.lostPeriod_later
    | apply State.replan_later
    | apply Later.ite

theorem State.shedPull_later {r0 : State} (s : State) (p : PulsePlan) (hL : Later r0 s) : Later r0 (State.shedPull s p) := by
  unfold State.shedPull
  repeat' with_reducible first
    | assumption
    | (extract_lets +onlyGivenNames a; refine Later.cut (r := r0) a ?_ ?_; (on_goal 2 => intro _; clear_value a); (on_goal 1 => subst a))
    | apply State.record_later
    | apply State.spdCount_later
    | apply State.lostPeriod_later
    | apply State.modOut_later
    | apply Later.ite

theorem State.keepPull_later {r0 : State} (s : State) (p : PulsePlan) (start : IT) (ref : IT) (hL : Later r0 s) : Later r0 (State.keepPull s p start ref) := by
  unfold State.keepPull
  repeat' with_reducible first
    | assumption
    | apply State.modOut_later
    | apply State.modSpd_later
    | apply Later.ite

theorem State.startLattice_later {r0 : State} (s : State) (n : Nat) (t : IT) (dry : Bool) (hL : Later r0 s) : Later r0 (State.startLattice s n t dry) := 
  ⟨hL.it, hL.mem, hL.queue, hL.roll, hL.key, hL.life, hL.legal⟩

theorem State.fixPull_later {r0 : State} (s : State) (p : PulsePlan) (f : Fit) (start : IT) (pct : Nat) (flags : Nat) (hL : Later r0 s) : Later r0 (State.fixPull s p f start pct flags) := by
  unfold State.fixPull
  repeat' with_reducible first
    | assumption
    | (extract_lets +onlyGivenNames a; refine Later.cut (r := r0) a ?_ ?_; (on_goal 2 => intro _; clear_value a); (on_goal 1 => subst a))
    | (extract_lets +onlyGivenNames a; clear_value a)
    | apply State.addEdge_later
    | apply State.modBank_later
    | apply State.modRz_later
    | apply State.notePulse_later
    | apply State.modOut_later
    | apply State.startLattice_later
    | apply Later.ite
    | fail_if_no_progress apply Later.upd
    | fail_if_no_progress apply Later.upd_mem
    | fail_if_no_progress apply Later.upd_it
    | split

theorem State.submit_later {r0 : State} (s : State) (b : IT) (p : PulsePlan) (f : Fit) (ref : IT) (fuel : Nat) (start : IT)
    (flags : Nat) (hL : Later r0 s) : Later r0 (State.submit s b p f ref fuel start flags) := by
  induction fuel generalizing s start flags with
  | zero => exact State.dropPull_later _ _ _ _ hL
  | succ fuel ih =>
    unfold State.submit
    repeat' with_reducible first
      | assumption
      | apply ih
      | refine Later.of_pair ‹_› ?_
      | apply Later.ite_fst
      | apply State.keepPull_later
      | apply State.dropPull_later
      | apply State.rateCount_later
      | apply State.fixPull_later
      | apply State.shedPull_later
      | apply State.spdCount_later
      | apply State.requestPull_later
      | apply Later.ite
      | fail_if_no_progress apply Later.upd
      | fail_if_no_progress apply Later.upd_mem
      | fail_if_no_progress apply Later.upd_it
      | split

theorem State.clampForced_later {r0 : State} (s : State) (n : Nat) (start : IT) (l : List SlotRes) (hL : Later r0 s) : Later r0 (State.clampForced s n start l) := by
  unfold State.clampForced
  repeat' with_reducible first
    | assumption
    | apply State.recordAt_later
    | apply State.spdCount_later
    | apply Later.foldl
    | apply Later.foldl_fst
    | apply Later.ite
    | fail_if_no_progress apply Later.upd
    | fail_if_no_progress apply Later.upd_mem
    | fail_if_no_progress apply Later.upd_it
    | intro _ _ _

theorem State.openDry_later {r0 : State} (s : State) (p : PulsePlan) (hL : Later r0 s) : Later r0 (State.openDry s p) := by
  unfold State.openDry
  repeat' with_reducible first
    | assumption
    | (extract_lets +onlyGivenNames a; refine Later.cut (r := r0) a ?_ ?_; (on_goal 2 => intro _; clear_value a); (on_goal 1 => subst a))
    | (extract_lets +onlyGivenNames a; clear_value a)
    | apply State.modOut_later
    | apply State.fixEdge_later
    | apply State.startLattice_later
    | apply Later.ite

theorem State.place_later {r0 : State} (s : State) (b : IT) (p : PulsePlan) (extra : List (Nat × IT)) (hL : Later r0 s) : Later r0 (State.place s b p extra) := by
  unfold State.place
  repeat' with_reducible first
    | assumption
    | (extract_lets +onlyGivenNames a; refine Later.cut (r := r0) a ?_ ?_; (on_goal 2 => intro _; clear_value a); (on_goal 1 => subst a))
    | (extract_lets +onlyGivenNames a; clear_value a)
    | apply State.openDry_later
    | apply State.submit_later
    | apply State.spdCount_later
    | apply State.clampForced_later
    | apply Later.ite
    | fail_if_no_progress apply Later.upd
    | fail_if_no_progress apply Later.upd_mem
    | fail_if_no_progress apply Later.upd_it
    | split

theorem State.placeAll_later {r0 : State} (b : IT) (a1 : List PulsePlan) (a2 : State) (hL : Later r0 a2) : Later r0 (State.placeAll b a1 a2) := by
  induction a1 generalizing a2 with
  | nil => simpa [State.placeAll] using hL
  | cons _ _ ih =>
    unfold State.placeAll
    repeat' with_reducible first
      | assumption
      | apply ih
      | refine Later.of_pair ‹_› ?_
      | apply Later.ite_fst
      | apply State.place_later

theorem State.fixPlain_later {r0 : State} (s : State) (b : IT) (hL : Later r0 s) : Later r0 (State.fixPlain s b) := by
  unfold State.fixPlain
  repeat' with_reducible first
    | assumption
    | apply State.modBr_later
    | apply State.fixEdge_later
    | apply State.fixClose_later
    | apply Later.foldl
    | apply Later.foldl_fst
    | apply Later.ite
    | fail_if_no_progress apply Later.upd
    | fail_if_no_progress apply Later.upd_mem
    | fail_if_no_progress apply Later.upd_it
    | intro _ _ _
    | split

theorem State.keepUndo_later {r0 : State} (s : State) (hL : Later r0 s) : Later r0 (State.keepUndo s) := 
  ⟨hL.it, hL.mem, hL.queue, hL.roll, hL.key, hL.life, hL.legal⟩

theorem State.spdPlans_later {r0 : State} (s : State) (b : IT) (fills : List FillIn) (hL : Later r0 s) : Later r0 (State.spdPlans s b fills).1 := by
  unfold State.spdPlans
  dsimp only
  repeat' with_reducible first
    | assumption
    | refine Later.of_pair ‹_› ?_
    | apply Later.ite_fst
    | apply State.keepUndo_later
    | apply State.rateCompute_later
    | apply State.spdEvaluate_later
    | apply State.takeBack_later
    | apply State.fixPlain_later
    | apply State.modSpd_later
    | apply Later.ite
    | fail_if_no_progress apply Later.upd

theorem State.ageSlots_later {r0 : State} (s : State) (b : IT) (hL : Later r0 s) : Later r0 (State.ageSlots s b) := 
  ⟨hL.it, hL.mem, hL.queue, hL.roll, hL.key, hL.life, hL.legal⟩

theorem State.spdFrame_later {r0 : State} (s : State) (b : IT) (fills : List FillIn) (hL : Later r0 s) : Later r0 (State.spdFrame s b fills) := by
  unfold State.spdFrame
  dsimp only
  repeat' with_reducible first
    | assumption
    | refine Later.of_pair ‹_› ?_
    | apply Later.ite_fst
    | apply State.spdPlans_later
    | apply State.ageSlots_later
    | apply State.handPending_later
    | apply State.placeAll_later
    | apply State.modSpd_later

theorem State.ungrant_later {r0 : State} (s : State) (u : Undo) (hL : Later r0 s) : Later r0 (State.ungrant s u) := 
  ⟨hL.it, hL.mem, hL.queue, hL.roll, hL.key, hL.life, hL.legal⟩

theorem execFrameOverrun_later {r0 : State} (s : State) (hL : Later r0 s) : ∃ s', execFrameOverrun s = .next s' ∧ Later r0 s' := by
  unfold execFrameOverrun
  dsimp only
  refine ⟨_, rfl, ?_⟩
  repeat' with_reducible first
    | assumption
    | apply State.at_later
    | apply State.modRate_later
    | apply State.modSpd_later
    | apply State.ungrant_later
    | apply State.record_later
    | apply State.spdCount_later
    | apply State.report_later
    | apply Later.ite
    | fail_if_no_progress apply Later.upd
    | fail_if_no_progress apply Later.upd_mem
    | fail_if_no_progress apply Later.upd_it
    | split

end Sys2Proof.Machine
end

