-- ==== Sys2Proof/Laws/LaterSlices.lean ====
section
/-! SUPPORT. What no operation of Slices.lean undoes: each moves the state Later. -/


namespace Sys2Proof.Machine

theorem State.modCard_later {r0 : State} (s : State) (f : Carding → Carding) (hL : Later r0 s)
    (h1 : s.card.rollback ≤ (f s.card).rollback) (h2 : ∀ k, s.card.key = some k → (f s.card).key = some k)
    (h3 : lifeRank s.card.life ≤ lifeRank (f s.card).life)
    (h4 : 1 ≤ s.card.life ∧ s.card.life ≤ 4 → 1 ≤ (f s.card).life ∧ (f s.card).life ≤ 4) : Later r0 (State.modCard s f) := Later.upd_card hL _ h1 h2 h3 h4

theorem State.sliceResult_later {r0 : State} (s : State) (k : Nat) (result : Nat) (repair : Nat) (sig : Nat) (hL : Later r0 s) : Later r0 (State.sliceResult s k result repair sig) := 
  ⟨hL.it, hL.mem, hL.queue, hL.roll, hL.key, hL.life, hL.legal⟩

theorem State.sliceIncomplete_later {r0 : State} (s : State) (k : Nat) (cause : Nat) (hL : Later r0 s) : Later r0 (State.sliceIncomplete s k cause) := 
  ⟨hL.it, hL.mem, hL.queue, hL.roll, hL.key, hL.life, hL.legal⟩

theorem State.startRun_later {r0 : State} (s : State) (todo : List (Nat × Nat)) (shutdown : Bool) (hL : Later r0 s) : Later r0 (State.startRun s todo shutdown) := 
  ⟨hL.it, hL.mem, hL.queue, hL.roll, hL.key, hL.life, hL.legal⟩

theorem State.endRun_later {r0 : State} (s : State) (r : CardRun) (hL : Later r0 s) : Later r0 (State.endRun s r) := by
  unfold State.endRun
  repeat' with_reducible first
    | assumption
    | (extract_lets +onlyGivenNames a; refine Later.cut (r := r0) a ?_ ?_; (on_goal 2 => intro _; clear_value a); (on_goal 1 => subst a))
    | apply State.modCard_later
    | apply State.recordIf_later
    | exact Nat.le_refl _
    | exact fun _ h => h
    | exact fun h => h

theorem State.abortRun_later {r0 : State} (s : State) (cause : Nat) (hL : Later r0 s) : Later r0 (State.abortRun s cause) := by
  unfold State.abortRun
  repeat' with_reducible first
    | assumption
    | (extract_lets +onlyGivenNames a; refine Later.cut (r := r0) a ?_ ?_; (on_goal 2 => intro _; clear_value a); (on_goal 1 => subst a))
    | apply State.endRun_later
    | apply State.sliceIncomplete_later
    | apply Later.ite
    | fail_if_no_progress apply Later.upd
    | fail_if_no_progress apply Later.upd_mem
    | fail_if_no_progress apply Later.upd_it
    | split

theorem State.abortDemand_later {r0 : State} (s : State) (hL : Later r0 s) : Later r0 (State.abortDemand s) := by
  unfold State.abortDemand
  repeat' with_reducible first
    | assumption
    | (extract_lets +onlyGivenNames a; refine Later.cut (r := r0) a ?_ ?_; (on_goal 2 => intro _; clear_value a); (on_goal 1 => subst a))
    | (extract_lets +onlyGivenNames a; clear_value a)
    | apply State.draw_later
    | apply State.abortRun_later
    | apply Later.ite
    | fail_if_no_progress apply Later.upd
    | fail_if_no_progress apply Later.upd_mem
    | fail_if_no_progress apply Later.upd_it
    | split

theorem State.putRepairs_later {r0 : State} (s : State) (l : List Repair) (hL : Later r0 s) : Later r0 (State.putRepairs s l) := by
  unfold State.putRepairs
  repeat' with_reducible first
    | assumption
    | (extract_lets +onlyGivenNames a; refine Later.cut (r := r0) a ?_ ?_; (on_goal 2 => intro _; clear_value a); (on_goal 1 => subst a))
    | (extract_lets +onlyGivenNames a; clear_value a)
    | apply State.modCard_later
    | exact Nat.le_refl _
    | exact fun _ h => h
    | exact fun h => h
    | apply Later.ite
    | fail_if_no_progress apply Later.upd
    | fail_if_no_progress apply Later.upd_mem
    | fail_if_no_progress apply Later.upd_it
    | split

theorem State.repairBoot_later {r0 : State} (s : State) (bad : Vector Bool 2) (hL : Later r0 s) : Later r0 (State.repairBoot s bad) := 
  ⟨hL.it, hL.mem, hL.queue, hL.roll, hL.key, hL.life, hL.legal⟩

theorem State.setLife_later {r0 : State} (s : State) (l : Nat) (hL : Later r0 s) (hR : lifeRank s.card.life ≤ lifeRank l)
    (hR2 : 1 ≤ s.card.life ∧ s.card.life ≤ 4 → 1 ≤ l ∧ l ≤ 4) : Later r0 (State.setLife s l) := by
  unfold State.setLife
  dsimp only
  split
  · exact hL
  · exact State.record_later _ _ _ _ (State.modCard_later _ _ hL (Nat.le_refl _) (fun _ h => h) hR hR2)

end Sys2Proof.Machine
end

