-- ==== Sys2Proof/Laws/LaterSkein.lean ====
section
/-! SUPPORT. What no operation of Skein.lean undoes: each moves the state Later. -/


namespace Sys2Proof.Machine

theorem State.modSkein_later {r0 : State} (s : State) (f : Skein → Skein) (hL : Later r0 s) : Later r0 (State.modSkein s f) := 
  ⟨hL.it, hL.mem, hL.queue, hL.roll, hL.key, hL.life, hL.legal⟩

theorem State.skeinCount_later {r0 : State} (s : State) (i : Nat) (k : Nat) (hL : Later r0 s) : Later r0 (State.skeinCount s i k) := 
  ⟨hL.it, hL.mem, hL.queue, hL.roll, hL.key, hL.life, hL.legal⟩

theorem State.send_later {r0 : State} (s : State) (f : Sent) (hL : Later r0 s) : Later r0 (State.send s f) := by
  unfold State.send
  repeat' with_reducible first
    | assumption
    | apply Later.ite
    | fail_if_no_progress apply Later.upd

theorem State.sendUnasked_later {r0 : State} (s : State) (nets : List Net) (service : Nat) (stream : Nat) (b : Bytes) (hL : Later r0 s) : Later r0 (State.sendUnasked s nets service stream b) := by
  unfold State.sendUnasked
  repeat' with_reducible first
    | assumption
    | (extract_lets +onlyGivenNames a; clear_value a)
    | apply State.draw_later
    | apply State.send_later
    | apply Later.foldl
    | apply Later.foldl_fst
    | apply Later.ite
    | fail_if_no_progress apply Later.upd
    | fail_if_no_progress apply Later.upd_mem
    | fail_if_no_progress apply Later.upd_it
    | intro _ _ _

theorem State.sendAlarm_later {r0 : State} (s : State) (r : Rec) (cls : Nat) (count : Nat) (hL : Later r0 s) : Later r0 (State.sendAlarm s r cls count) := by
  unfold State.sendAlarm
  repeat' with_reducible first
    | assumption
    | (extract_lets +onlyGivenNames a; clear_value a)
    | apply State.skeinCount_later
    | apply State.sendUnasked_later
    | apply Later.ite

theorem State.alarm_later {r0 : State} (s : State) (r : Rec) (cls : Nat) (hL : Later r0 s) : Later r0 (State.alarm s r cls) := by
  unfold State.alarm
  repeat' with_reducible first
    | assumption
    | (extract_lets +onlyGivenNames a; refine Later.cut (r := r0) a ?_ ?_; (on_goal 2 => intro _; clear_value a); (on_goal 1 => subst a))
    | (extract_lets +onlyGivenNames a; clear_value a)
    | apply State.modSkein_later
    | apply State.sendAlarm_later
    | apply Later.ite
    | fail_if_no_progress apply Later.upd
    | fail_if_no_progress apply Later.upd_mem
    | fail_if_no_progress apply Later.upd_it
    | split

theorem State.windowEnd_later {r0 : State} (s : State) (w : AlarmWin) (t : IT) (hL : Later r0 s) : Later r0 (State.windowEnd s w t) := by
  unfold State.windowEnd
  repeat' with_reducible first
    | assumption
    | (extract_lets +onlyGivenNames a; clear_value a)
    | apply State.modSkein_later
    | apply State.sendAlarm_later
    | apply Later.ite

theorem execAlarmWindowEnd_later {r0 : State} (code : Nat) (s : State) (hL : Later r0 s) : ∃ s', execAlarmWindowEnd code s = .next s' ∧ Later r0 s' := by
  unfold execAlarmWindowEnd
  refine ⟨_, rfl, ?_⟩
  repeat' with_reducible first
    | assumption
    | (extract_lets +onlyGivenNames a; refine Later.cut (r := r0) a ?_ ?_; (on_goal 2 => intro _; clear_value a); (on_goal 1 => subst a))
    | apply State.whenAwake_later
    | apply State.at_later
    | apply State.windowEnd_later
    | apply Later.ite
    | fail_if_no_progress apply Later.upd
    | fail_if_no_progress apply Later.upd_mem
    | fail_if_no_progress apply Later.upd_it
    | intro _ _
    | split

theorem State.takeSnapshots_later {r0 : State} (s : State) (r : Rec) (cls : Nat) (hL : Later r0 s) : Later r0 (State.takeSnapshots s r cls) := by
  unfold State.takeSnapshots
  repeat' with_reducible first
    | assumption
    | (extract_lets +onlyGivenNames a; refine Later.cut (r := r0) a ?_ ?_; (on_goal 2 => intro _; clear_value a); (on_goal 1 => subst a))
    | (extract_lets +onlyGivenNames a; clear_value a)
    | apply State.modSkein_later
    | apply State.alarm_later
    | apply Later.foldl
    | apply Later.foldl_fst
    | apply Later.ite
    | fail_if_no_progress apply Later.upd
    | fail_if_no_progress apply Later.upd_mem
    | fail_if_no_progress apply Later.upd_it
    | intro _ _ _

theorem State.enqueue_later {r0 : State} (s : State) (r : Rec) (reps : Nat) (flags : Nat) (lastRep : Nat) (hL : Later r0 s) : Later r0 (State.enqueue s r reps flags lastRep) := by
  unfold State.enqueue
  repeat' with_reducible first
    | assumption
    | (extract_lets +onlyGivenNames a; refine Later.cut (r := r0) a ?_ ?_; (on_goal 2 => intro _; clear_value a); (on_goal 1 => subst a))
    | (extract_lets +onlyGivenNames a; clear_value a)
    | apply State.modSkein_later
    | apply State.takeSnapshots_later
    | apply Later.ite
    | fail_if_no_progress apply Later.upd
    | fail_if_no_progress apply Later.upd_mem
    | fail_if_no_progress apply Later.upd_it
    | split

theorem State.release_later {r0 : State} (s : State) (src : Nat) (hL : Later r0 s) : Later r0 (State.release s src) := by
  unfold State.release
  repeat' with_reducible first
    | assumption
    | apply State.enqueue_later
    | apply State.modSkein_later
    | apply Later.ite
    | fail_if_no_progress apply Later.upd
    | fail_if_no_progress apply Later.upd_mem
    | fail_if_no_progress apply Later.upd_it
    | split

theorem State.releaseAll_later {r0 : State} (s : State) (hL : Later r0 s) : Later r0 (State.releaseAll s) := by
  unfold State.releaseAll
  repeat' with_reducible first
    | assumption
    | apply State.release_later
    | apply Later.foldl

theorem State.ingestOrdinary_later {r0 : State} (s : State) (r : Rec) (hL : Later r0 s) : Later r0 (State.ingestOrdinary s r) := by
  unfold State.ingestOrdinary
  dsimp only
  repeat' with_reducible first
    | assumption
    | apply State.modSkein_later
    | apply State.skeinCount_later
    | apply State.release_later
    | apply Later.ite
    | fail_if_no_progress apply Later.upd
    | fail_if_no_progress apply Later.upd_mem
    | fail_if_no_progress apply Later.upd_it
    | split

theorem State.secondEnd_later {r0 : State} (s : State) (hL : Later r0 s) : Later r0 (State.secondEnd s) := by
  unfold State.secondEnd
  repeat' with_reducible first
    | assumption
    | (extract_lets +onlyGivenNames a; refine Later.cut (r := r0) a ?_ ?_; (on_goal 2 => intro _; clear_value a); (on_goal 1 => subst a))
    | (extract_lets +onlyGivenNames a; clear_value a)
    | apply State.modSkein_later
    | apply State.enqueue_later
    | apply State.alarm_later
    | apply Later.foldl
    | apply Later.foldl_fst
    | apply Later.ite
    | fail_if_no_progress apply Later.upd
    | fail_if_no_progress apply Later.upd_mem
    | fail_if_no_progress apply Later.upd_it
    | intro _ _ _

theorem State.ingestPrivileged_later {r0 : State} (s : State) (r : Rec) (hL : Later r0 s) : Later r0 (State.ingestPrivileged s r) := by
  unfold State.ingestPrivileged
  dsimp only
  repeat' with_reducible first
    | assumption
    | apply State.enqueue_later
    | apply State.modSkein_later
    | apply State.skeinCount_later
    | apply Later.ite
    | fail_if_no_progress apply Later.upd
    | fail_if_no_progress apply Later.upd_mem
    | fail_if_no_progress apply Later.upd_it
    | split

theorem State.ingest_later {r0 : State} (s : State) (r : Rec) (hL : Later r0 s) : Later r0 (State.ingest s r) := by
  unfold State.ingest
  repeat' with_reducible first
    | assumption
    | (extract_lets +onlyGivenNames a; refine Later.cut (r := r0) a ?_ ?_; (on_goal 2 => intro _; clear_value a); (on_goal 1 => subst a))
    | apply State.secondEnd_later
    | apply State.alarm_later
    | apply State.ingestPrivileged_later
    | apply State.ingestOrdinary_later
    | apply Later.ite

theorem State.ingestAll_later {r0 : State} (s : State) (hL : Later r0 s) : Later r0 (State.ingestAll s) := by
  unfold State.ingestAll
  repeat' with_reducible first
    | assumption
    | apply State.ingest_later
    | apply State.modSkein_later
    | apply Later.foldl

theorem execRecordIngest_later {r0 : State} (s : State) (hL : Later r0 s) : ∃ s', execRecordIngest s = .next s' ∧ Later r0 s' := by
  unfold execRecordIngest
  refine ⟨_, rfl, ?_⟩
  repeat' with_reducible first
    | assumption
    | apply State.whenAwake_later
    | apply State.ingest_later
    | apply State.modSkein_later
    | apply Later.ite
    | fail_if_no_progress apply Later.upd
    | fail_if_no_progress apply Later.upd_mem
    | fail_if_no_progress apply Later.upd_it
    | intro _ _
    | split

theorem execHeldRecordRelease_later {r0 : State} (src : Fin 16) (s : State) (hL : Later r0 s) : ∃ s', execHeldRecordRelease src s = .next s' ∧ Later r0 s' := by
  unfold execHeldRecordRelease
  refine ⟨_, rfl, ?_⟩
  repeat' with_reducible first
    | assumption
    | apply State.whenAwake_later
    | apply State.release_later
    | apply State.at_later
    | apply Later.ite
    | fail_if_no_progress apply Later.upd
    | fail_if_no_progress apply Later.upd_mem
    | fail_if_no_progress apply Later.upd_it
    | intro _ _
    | split

theorem execLimitedSecondEnd_later {r0 : State} (s : State) (hL : Later r0 s) : ∃ s', execLimitedSecondEnd s = .next s' ∧ Later r0 s' := by
  unfold execLimitedSecondEnd
  refine ⟨_, rfl, ?_⟩
  repeat' with_reducible first
    | assumption
    | apply State.whenAwake_later
    | apply State.secondEnd_later
    | apply State.at_later
    | apply Later.ite
    | fail_if_no_progress apply Later.upd
    | fail_if_no_progress apply Later.upd_mem
    | fail_if_no_progress apply Later.upd_it
    | intro _ _

theorem execLossRecord_later {r0 : State} (s : State) (hL : Later r0 s) : ∃ s', execLossRecord s = .next s' ∧ Later r0 s' := by
  unfold execLossRecord
  refine ⟨_, rfl, ?_⟩
  repeat' with_reducible first
    | assumption
    | (extract_lets +onlyGivenNames a; refine Later.cut (r := r0) a ?_ ?_; (on_goal 2 => intro _; clear_value a); (on_goal 1 => subst a))
    | (extract_lets +onlyGivenNames a; clear_value a)
    | apply State.whenAwake_later
    | apply State.modSkein_later
    | apply State.enqueue_later
    | apply State.alarm_later
    | apply Later.ite
    | fail_if_no_progress apply Later.upd
    | fail_if_no_progress apply Later.upd_mem
    | fail_if_no_progress apply Later.upd_it
    | intro _ _
    | split

theorem State.writeEntry_later {r0 : State} (s : State) (e : Entry) (hL : Later r0 s) : Later r0 (State.writeEntry s e) := by
  unfold State.writeEntry
  repeat' with_reducible first
    | assumption
    | (extract_lets +onlyGivenNames a; refine Later.cut (r := r0) a ?_ ?_; (on_goal 2 => intro _; clear_value a); (on_goal 1 => subst a))
    | (extract_lets +onlyGivenNames a; clear_value a)
    | apply State.storeRecord_later
    | apply Later.foldl
    | apply Later.foldl_fst
    | apply Later.ite
    | fail_if_no_progress apply Later.upd
    | fail_if_no_progress apply Later.upd_mem
    | fail_if_no_progress apply Later.upd_it
    | intro _ _ _

theorem execRecordWrite_later {r0 : State} (s : State) (hL : Later r0 s) : ∃ s', execRecordWrite s = .next s' ∧ Later r0 s' := by
  unfold execRecordWrite
  refine ⟨_, rfl, ?_⟩
  repeat' with_reducible first
    | assumption
    | apply State.whenAwake_later
    | apply State.writeEntry_later
    | apply State.modSkein_later
    | apply Later.ite
    | fail_if_no_progress apply Later.upd
    | fail_if_no_progress apply Later.upd_mem
    | fail_if_no_progress apply Later.upd_it
    | intro _ _
    | split

theorem State.drain_later {r0 : State} (a0 : Nat) (a1 : State) (hL : Later r0 a1) : Later r0 (State.drain a0 a1) := by
  induction a0 generalizing a1 with
  | zero => simpa [State.drain] using hL
  | succ _ ih =>
    unfold State.drain
    repeat' with_reducible first
      | assumption
      | apply ih
      | refine Later.of_pair ‹_› ?_
      | apply Later.ite_fst
      | apply State.writeEntry_later
      | apply State.modSkein_later
      | apply Later.ite
      | fail_if_no_progress apply Later.upd
      | fail_if_no_progress apply Later.upd_mem
      | fail_if_no_progress apply Later.upd_it
      | split

theorem State.skeinFlush_later {r0 : State} (s : State) (hL : Later r0 s) : Later r0 (State.skeinFlush s) := by
  unfold State.skeinFlush
  extract_lets a
  have ha : Later r0 a := State.releaseAll_later _ (State.ingestAll_later _ (State.releaseAll_later _ hL))
  clear_value a
  split
  · exact ha
  · exact State.drain_later _ _ ha

theorem State.remapLog_later {r0 : State} (s : State) (row : Nat) (spare : Nat) (hL : Later r0 s) : Later r0 (State.remapLog s row spare) := by
  unfold State.remapLog
  repeat' with_reducible first
    | assumption
    | (extract_lets +onlyGivenNames a; refine Later.cut (r := r0) a ?_ ?_; (on_goal 2 => intro _; clear_value a); (on_goal 1 => subst a))
    | (extract_lets +onlyGivenNames a; clear_value a)
    | apply State.putRepairs_later
    | apply State.skeinCount_later
    | apply State.modSkein_later
    | apply Later.ite
    | fail_if_no_progress apply Later.upd
    | fail_if_no_progress apply Later.upd_mem
    | fail_if_no_progress apply Later.upd_it
    | split

theorem State.logSram_later {r0 : State} (s : State) (hL : Later r0 s) : Later r0 (State.logSram s) := by
  unfold State.logSram
  repeat' with_reducible first
    | assumption
    | apply State.record_later
    | apply State.modSkein_later
    | apply Later.ite

theorem State.relocate_later {r0 : State} (s : State) (row : Nat) (hL : Later r0 s) : Later r0 (State.relocate s row) := by
  unfold State.relocate
  repeat' with_reducible first
    | assumption
    | apply State.record_later
    | apply State.remapLog_later
    | apply State.logSram_later
    | apply Later.ite
    | fail_if_no_progress apply Later.upd
    | fail_if_no_progress apply Later.upd_mem
    | fail_if_no_progress apply Later.upd_it
    | split

theorem execLogRowFailure_later {r0 : State} (t : IT) (row : Nat) (s : State) (hL : Later r0 s) : ∃ s', execLogRowFailure t row s = .next s' ∧ Later r0 s' := by
  unfold execLogRowFailure
  refine ⟨_, rfl, ?_⟩
  repeat' with_reducible first
    | assumption
    | (extract_lets +onlyGivenNames a; refine Later.cut (r := r0) a ?_ ?_; (on_goal 2 => intro _; clear_value a); (on_goal 1 => subst a))
    | (extract_lets +onlyGivenNames a; clear_value a)
    | apply State.whenAwake_later
    | apply State.at_later
    | apply State.draw_later
    | apply State.modSkein_later
    | apply State.relocate_later
    | apply Later.ite
    | fail_if_no_progress apply Later.upd
    | fail_if_no_progress apply Later.upd_mem
    | fail_if_no_progress apply Later.upd_it
    | intro _ _

theorem State.skeinBoot_later {r0 : State} (s : State) (hL : Later r0 s) : Later r0 (State.skeinBoot s) := by
  unfold State.skeinBoot
  repeat' with_reducible first
    | assumption
    | (extract_lets +onlyGivenNames a; refine Later.cut (r := r0) a ?_ ?_; (on_goal 2 => intro _; clear_value a); (on_goal 1 => subst a))
    | (extract_lets +onlyGivenNames a; clear_value a)
    | apply State.modSkein_later
    | apply State.logResume_later
    | apply State.storeRecord_later
    | apply Later.ite

end Sys2Proof.Machine
end

