-- ==== Sys2Proof/Laws/LaterStates.lean ====
section
/-! SUPPORT. What no operation of States.lean undoes: each moves the state Later. -/


namespace Sys2Proof.Machine

theorem State.modPower_later {r0 : State} (s : State) (f : Power → Power) (hL : Later r0 s) : Later r0 (State.modPower s f) := 
  ⟨hL.it, hL.mem, hL.queue, hL.roll, hL.key, hL.life, hL.legal⟩

theorem State.modSup_later {r0 : State} (s : State) (f : Super → Super) (hL : Later r0 s) : Later r0 (State.modSup s f) := 
  ⟨hL.it, hL.mem, hL.queue, hL.roll, hL.key, hL.life, hL.legal⟩

theorem State.setDev_later {r0 : State} (s : State) (d : DevState) (cause : Nat) (hL : Later r0 s) : Later r0 (State.setDev s d cause) := by
  unfold State.setDev
  repeat' with_reducible first
    | assumption
    | (extract_lets +onlyGivenNames a; refine Later.cut (r := r0) a ?_ ?_; (on_goal 2 => intro _; clear_value a); (on_goal 1 => subst a))
    | (extract_lets +onlyGivenNames a; clear_value a)
    | apply State.record_later
    | apply State.spinsFollow_later
    | apply State.abortDemand_later
    | apply State.modPower_later
    | apply State.modDis_later
    | apply Later.ite

theorem State.geoStop_later {r0 : State} (s : State) (hL : Later r0 s) : Later r0 (State.geoStop s) := 
  ⟨hL.it, hL.mem, hL.queue, hL.roll, hL.key, hL.life, hL.legal⟩

theorem State.geoStart_later {r0 : State} (s : State) (hL : Later r0 s) : Later r0 (State.geoStart s) := by
  unfold State.geoStart
  repeat' with_reducible first
    | assumption
    | apply State.spdIdle_later
    | apply State.modPower_later
    | apply State.rovStart_later
    | apply Later.ite

theorem State.geoLeave_later {r0 : State} (s : State) (keep : Bool) (hL : Later r0 s) : Later r0 (State.geoLeave s keep) := by
  unfold State.geoLeave
  repeat' with_reducible first
    | assumption
    | (extract_lets +onlyGivenNames a; refine Later.cut (r := r0) a ?_ ?_; (on_goal 2 => intro _; clear_value a); (on_goal 1 => subst a))
    | apply State.closeAll_later
    | apply State.modPower_later
    | apply State.spdIdle_later
    | apply State.geoStop_later
    | apply Later.ite

theorem State.ctlStart_later {r0 : State} (s : State) (hL : Later r0 s) : Later r0 (State.ctlStart s) := by
  unfold State.ctlStart
  repeat' with_reducible first
    | assumption
    | apply State.whorlEnter_later
    | apply State.modPower_later
    | apply Later.ite

theorem State.hankShut_later {r0 : State} (s : State) (k : Nat) (hL : Later r0 s) : Later r0 (State.hankShut s k) := 
  ⟨hL.it, hL.mem, hL.queue, hL.roll, hL.key, hL.life, hL.legal⟩

theorem State.closeDone_later {r0 : State} (s : State) (c : CloseSeq) (hL : Later r0 s) : Later r0 (State.closeDone s c) := by
  unfold State.closeDone
  repeat' with_reducible first
    | assumption
    | (extract_lets +onlyGivenNames a; refine Later.cut (r := r0) a ?_ ?_; (on_goal 2 => intro _; clear_value a); (on_goal 1 => subst a))
    | (extract_lets +onlyGivenNames a; clear_value a)
    | apply State.settleNow_later
    | apply State.writeBack_later
    | apply State.modDis_later
    | apply State.geoStop_later
    | apply State.modPower_later
    | apply State.hankShut_later
    | apply Later.foldl
    | apply Later.foldl_fst
    | apply Later.ite
    | fail_if_no_progress apply Later.upd
    | fail_if_no_progress apply Later.upd_mem
    | fail_if_no_progress apply Later.upd_it
    | intro _ _ _

theorem State.conveyorClose_later {r0 : State} (s : State) (hL : Later r0 s) : Later r0 (State.conveyorClose s) := by
  unfold State.conveyorClose
  repeat' with_reducible first
    | assumption
    | (extract_lets +onlyGivenNames a; refine Later.cut (r := r0) a ?_ ?_; (on_goal 2 => intro _; clear_value a); (on_goal 1 => subst a))
    | (extract_lets +onlyGivenNames a; clear_value a)
    | apply State.writeBack_later
    | apply State.modDis_later
    | apply State.geoStop_later
    | apply State.hankShut_later
    | apply Later.foldl
    | apply Later.foldl_fst
    | apply Later.ite
    | fail_if_no_progress apply Later.upd
    | fail_if_no_progress apply Later.upd_mem
    | fail_if_no_progress apply Later.upd_it
    | intro _ _ _
    | split

theorem execCloseSequenceDone_later {r0 : State} (t : IT) (s : State) (hL : Later r0 s) : ∃ s', execCloseSequenceDone t s = .next s' ∧ Later r0 s' := by
  unfold execCloseSequenceDone
  refine ⟨_, rfl, ?_⟩
  repeat' with_reducible first
    | assumption
    | apply State.closeDone_later
    | apply State.at_later
    | apply Later.ite
    | fail_if_no_progress apply Later.upd
    | fail_if_no_progress apply Later.upd_mem
    | fail_if_no_progress apply Later.upd_it
    | split

theorem State.discardEdges_later {r0 : State} (s : State) (hL : Later r0 s) : Later r0 (State.discardEdges s) := 
  ⟨hL.it, hL.mem, hL.queue, hL.roll, hL.key, hL.life, hL.legal⟩

theorem State.closeChannels_later {r0 : State} (s : State) (hL : Later r0 s) : Later r0 (State.closeChannels s) := by
  unfold State.closeChannels
  repeat' with_reducible first
    | assumption
    | apply State.closeTogether_later
    | apply Later.ite
    | fail_if_no_progress apply Later.upd
    | fail_if_no_progress apply Later.upd_mem
    | fail_if_no_progress apply Later.upd_it

theorem State.enterSafe_later {r0 : State} (s : State) (cause : Nat) (hL : Later r0 s) : Later r0 (State.enterSafe s cause) := by
  unfold State.enterSafe
  repeat' with_reducible first
    | assumption
    | (extract_lets +onlyGivenNames a; refine Later.cut (r := r0) a ?_ ?_; (on_goal 2 => intro _; clear_value a); (on_goal 1 => subst a))
    | apply State.rateIdle_later
    | apply State.discardEdges_later
    | apply State.setDev_later
    | apply State.closeChannels_later
    | apply State.whorlEnter_later
    | apply State.bridgesEnter_later
    | apply State.geoLeave_later
    | apply State.bobbinEnter_later
    | apply State.modSup_later
    | apply State.spinsFollow_later
    | apply State.loadsFollow_later
    | apply Later.ite

theorem State.bareAsk_later {r0 : State} (s : State) (n : Nat) (hL : Later r0 s) : Later r0 (State.bareAsk s n) := by
  unfold State.bareAsk
  dsimp only
  repeat' with_reducible first
    | assumption
    | refine Later.of_pair ‹_› ?_
    | apply Later.ite_fst
    | apply State.modBank_later
    | apply State.addEdge_later
    | apply State.requestPull_later
    | apply State.modCh_later
    | apply Later.ite
    | fail_if_no_progress apply Later.upd
    | fail_if_no_progress apply Later.upd_mem
    | fail_if_no_progress apply Later.upd_it
    | split

theorem State.bareChannel_later {r0 : State} (s : State) (n : Nat) (hL : Later r0 s) : Later r0 (State.bareChannel s n) := by
  unfold State.bareChannel
  repeat' with_reducible first
    | assumption
    | (extract_lets +onlyGivenNames a; refine Later.cut (r := r0) a ?_ ?_; (on_goal 2 => intro _; clear_value a); (on_goal 1 => subst a))
    | apply State.bareAsk_later
    | apply State.modCh_later
    | apply State.modBank_later
    | apply State.closeCh_later
    | apply Later.ite

theorem State.bareValve_later {r0 : State} (s : State) (h : Nat) (hL : Later r0 s) : Later r0 (State.bareValve s h) := by
  unfold State.bareValve
  repeat' with_reducible first
    | assumption
    | (extract_lets +onlyGivenNames a; refine Later.cut (r := r0) a ?_ ?_; (on_goal 2 => intro _; clear_value a); (on_goal 1 => subst a))
    | (extract_lets +onlyGivenNames a; clear_value a)
    | apply State.valveAsk_later
    | apply State.modBr_later
    | apply State.valveClose_later
    | apply Later.ite
    | fail_if_no_progress apply Later.upd
    | fail_if_no_progress apply Later.upd_mem
    | fail_if_no_progress apply Later.upd_it
    | split

theorem State.bareChannels_later {r0 : State} (s : State) (hL : Later r0 s) : Later r0 (State.bareChannels s) := by
  unfold State.bareChannels
  repeat' with_reducible first
    | assumption
    | (extract_lets +onlyGivenNames a; refine Later.cut (r := r0) a ?_ ?_; (on_goal 2 => intro _; clear_value a); (on_goal 1 => subst a))
    | (extract_lets +onlyGivenNames a; clear_value a)
    | apply State.bareChannel_later
    | apply Later.foldl
    | apply Later.foldl_fst
    | apply Later.ite
    | fail_if_no_progress apply Later.upd
    | fail_if_no_progress apply Later.upd_mem
    | fail_if_no_progress apply Later.upd_it
    | intro _ _ _
    | split

theorem State.bareTorque_later {r0 : State} (s : State) (hL : Later r0 s) : Later r0 (State.bareTorque s) := by
  unfold State.bareTorque
  repeat' with_reducible first
    | assumption
    | (extract_lets +onlyGivenNames a; refine Later.cut (r := r0) a ?_ ?_; (on_goal 2 => intro _; clear_value a); (on_goal 1 => subst a))
    | (extract_lets +onlyGivenNames a; clear_value a)
    | apply State.whorlBareMark_later
    | apply State.bareValve_later
    | apply State.whorlBare_later
    | apply Later.foldl
    | apply Later.foldl_fst
    | apply Later.ite
    | fail_if_no_progress apply Later.upd
    | fail_if_no_progress apply Later.upd_mem
    | fail_if_no_progress apply Later.upd_it
    | intro _ _ _
    | split

theorem State.bareArm_later {r0 : State} (s : State) (hL : Later r0 s) : Later r0 (State.bareArm s) := by
  unfold State.bareArm
  repeat' with_reducible first
    | assumption
    | (extract_lets +onlyGivenNames a; clear_value a)
    | apply State.modSup_later
    | apply Later.ite

theorem State.enterBare_later {r0 : State} (s : State) (cause : Nat) (hL : Later r0 s) : Later r0 (State.enterBare s cause) := by
  unfold State.enterBare
  repeat' with_reducible first
    | assumption
    | (extract_lets +onlyGivenNames a; refine Later.cut (r := r0) a ?_ ?_; (on_goal 2 => intro _; clear_value a); (on_goal 1 => subst a))
    | apply State.modSup_later
    | apply State.rateIdle_later
    | apply State.discardEdges_later
    | apply State.spdIdle_later
    | apply State.setDev_later
    | apply State.whorlEnter_later
    | apply State.bridgesEnter_later
    | apply State.closeAll_later
    | apply State.bobbinEnter_later
    | apply State.loadsOff_later
    | apply Later.ite

theorem execBarePullInRetry_later {r0 : State} (n : Fin 128) (s : State) (hL : Later r0 s) : ∃ s', execBarePullInRetry n s = .next s' ∧ Later r0 s' := by
  unfold execBarePullInRetry
  refine ⟨_, rfl, ?_⟩
  repeat' with_reducible first
    | assumption
    | (extract_lets +onlyGivenNames a; refine Later.cut (r := r0) a ?_ ?_; (on_goal 2 => intro _; clear_value a); (on_goal 1 => subst a))
    | apply State.modCh_later
    | apply State.at_later
    | apply State.bareAsk_later
    | apply Later.ite
    | fail_if_no_progress apply Later.upd
    | fail_if_no_progress apply Later.upd_mem
    | fail_if_no_progress apply Later.upd_it
    | split

theorem State.enterReady_later {r0 : State} (s : State) (cause : Nat) (hL : Later r0 s) : Later r0 (State.enterReady s cause) := by
  unfold State.enterReady
  repeat' with_reducible first
    | assumption
    | (extract_lets +onlyGivenNames a; refine Later.cut (r := r0) a ?_ ?_; (on_goal 2 => intro _; clear_value a); (on_goal 1 => subst a))
    | apply State.geoStart_later
    | apply State.setDev_later
    | apply State.ctlStart_later
    | apply State.whorlEnter_later
    | apply State.bridgesEnter_later
    | apply State.loadsFollow_later
    | apply State.bobbinEnter_later

theorem State.enterRun_later {r0 : State} (s : State) (hL : Later r0 s) : Later r0 (State.enterRun s) := by
  unfold State.enterRun
  repeat' with_reducible first
    | assumption
    | (extract_lets +onlyGivenNames a; refine Later.cut (r := r0) a ?_ ?_; (on_goal 2 => intro _; clear_value a); (on_goal 1 => subst a))
    | apply State.discardEdges_later
    | apply State.setDev_later
    | apply State.modSup_later
    | apply State.rateRun_later
    | apply State.spdRun_later
    | apply State.whorlEnter_later
    | apply State.bridgesEnter_later
    | apply State.loadsOff_later
    | apply State.markResume_later
    | apply State.bobbinEnter_later

theorem State.enterService_later {r0 : State} (s : State) (hL : Later r0 s) : Later r0 (State.enterService s) := by
  unfold State.enterService
  extract_lets a b c
  have h : Later r0 c := State.loadsFollow_later _ (State.bobbinEnter_later _ _ (State.whorlEnter_later _ _
    (State.bridgesEnter_later _ _ (State.geoLeave_later _ _ (State.setDev_later _ _ _ hL)))))
  clear_value c
  split
  · next e =>
    refine State.setLife_later _ _ h ?_ ?_
    · rw [e]
      exact Nat.le_refl 2
    · exact fun _ => ⟨Nat.le_of_ble_eq_true rfl, Nat.le_of_ble_eq_true rfl⟩
  · exact h

theorem State.commandEffect_later {r0 : State} (s : State) (hL : Later r0 s) : Later r0 (State.commandEffect s) := by
  unfold State.commandEffect
  repeat' with_reducible first
    | assumption
    | (extract_lets +onlyGivenNames a; refine Later.cut (r := r0) a ?_ ?_; (on_goal 2 => intro _; clear_value a); (on_goal 1 => subst a))
    | apply State.modPower_later
    | apply State.at_later
    | apply State.enterRun_later
    | apply State.enterBare_later
    | apply State.enterReady_later
    | apply State.enterService_later
    | apply Later.ite
    | fail_if_no_progress apply Later.upd
    | fail_if_no_progress apply Later.upd_mem
    | fail_if_no_progress apply Later.upd_it
    | split

theorem execStateCommandEffect_later {r0 : State} (s : State) (hL : Later r0 s) : ∃ s', execStateCommandEffect s = .next s' ∧ Later r0 s' := by
  unfold execStateCommandEffect
  refine ⟨_, rfl, ?_⟩
  repeat' with_reducible first
    | assumption
    | apply State.commandEffect_later

end Sys2Proof.Machine
end

