-- ==== Sys2Proof/Laws/LaterSupervisor.lean ====
section
/-! SUPPORT. What no operation of Supervisor.lean undoes: each moves the state Later. -/


namespace Sys2Proof.Machine

theorem State.coresStop_later {r0 : State} (s : State) (c : StopCause) (hL : Later r0 s) : Later r0 (State.coresStop s c) := by
  unfold State.coresStop
  repeat' with_reducible first
    | assumption
    | (extract_lets +onlyGivenNames a; refine Later.cut (r := r0) a ?_ ?_; (on_goal 2 => intro _; clear_value a); (on_goal 1 => subst a))
    | (extract_lets +onlyGivenNames a; clear_value a)
    | apply State.releaseAll_later
    | apply State.recordIf_later
    | apply State.modSup_later
    | apply State.report_later
    | apply Later.ite
    | fail_if_no_progress apply Later.upd

theorem State.noteFault_later {r0 : State} (s : State) (r : Report) (resp : Nat) (hL : Later r0 s) : Later r0 (State.noteFault s r resp) := 
  ⟨hL.it, hL.mem, hL.queue, hL.roll, hL.key, hL.life, hL.legal⟩

theorem State.faultAction_later {r0 : State} (s : State) (code : Nat) (subj : Nat) (resp : Nat) (hL : Later r0 s) : Later r0 (State.faultAction s code subj resp) := by
  unfold State.faultAction
  repeat' with_reducible first
    | assumption
    | (extract_lets +onlyGivenNames a; refine Later.cut (r := r0) a ?_ ?_; (on_goal 2 => intro _; clear_value a); (on_goal 1 => subst a))
    | apply State.dieReset_later
    | apply State.dropEdgesOf_later
    | apply State.closeCh_later
    | apply Later.ite

theorem State.respond_later {r0 : State} (s : State) (code : Nat) (resp : Nat) (hL : Later r0 s) : Later r0 (State.respond s code resp) := by
  unfold State.respond
  repeat' with_reducible first
    | assumption
    | apply State.enterSafe_later
    | apply State.modSup_later
    | apply Later.ite

theorem State.handleFault_later {r0 : State} (s : State) (r : Report) (hL : Later r0 s) : Later r0 (State.handleFault s r) := by
  unfold State.handleFault
  repeat' with_reducible first
    | assumption
    | (extract_lets +onlyGivenNames a; refine Later.cut (r := r0) a ?_ ?_; (on_goal 2 => intro _; clear_value a); (on_goal 1 => subst a))
    | (extract_lets +onlyGivenNames a; clear_value a)
    | apply State.noteFault_later
    | apply State.modSup_later
    | apply State.respond_later
    | apply State.faultAction_later
    | apply State.coresStop_later
    | apply Later.ite
    | fail_if_no_progress apply Later.upd

theorem execFaultDetected_later {r0 : State} (t : IT) (ext : Option (Nat × Nat)) (s : State) (hL : Later r0 s) : ∃ s', execFaultDetected t ext s = .next s' ∧ Later r0 s' := by
  unfold execFaultDetected
  refine ⟨_, rfl, ?_⟩
  repeat' with_reducible first
    | assumption
    | (extract_lets +onlyGivenNames a; refine Later.cut (r := r0) a ?_ ?_; (on_goal 2 => intro _; clear_value a); (on_goal 1 => subst a))
    | apply State.whenAwake_later
    | apply State.at_later
    | apply State.handleFault_later
    | apply State.modSup_later
    | apply Later.ite
    | fail_if_no_progress apply Later.upd
    | fail_if_no_progress apply Later.upd_mem
    | fail_if_no_progress apply Later.upd_it
    | intro _ _
    | split

theorem State.intoService_later {r0 : State} (s : State) (code : Nat) (subj : Nat) (hL : Later r0 s) : Later r0 (State.intoService s code subj) := by
  unfold State.intoService
  repeat' with_reducible first
    | assumption
    | (extract_lets +onlyGivenNames a; refine Later.cut (r := r0) a ?_ ?_; (on_goal 2 => intro _; clear_value a); (on_goal 1 => subst a))
    | (extract_lets +onlyGivenNames a; clear_value a)
    | apply State.bankBack_later
    | apply State.bridgeResume_later
    | apply State.commutate_later
    | apply Later.ite
    | fail_if_no_progress apply Later.upd
    | fail_if_no_progress apply Later.upd_mem
    | fail_if_no_progress apply Later.upd_it
    | split

theorem State.clearOne_later {r0 : State} (s : State) (a : ActiveFault) (hL : Later r0 s) : Later r0 (State.clearOne s a) := by
  unfold State.clearOne
  repeat' with_reducible first
    | assumption
    | (extract_lets +onlyGivenNames a; refine Later.cut (r := r0) a ?_ ?_; (on_goal 2 => intro _; clear_value a); (on_goal 1 => subst a))
    | apply State.intoService_later
    | apply State.faultEnds_later
    | apply State.record_later
    | apply Later.ite

theorem State.clearFaults_later {r0 : State} (s : State) (hL : Later r0 s) : Later r0 (State.clearFaults s) := by
  unfold State.clearFaults
  repeat' with_reducible first
    | assumption
    | apply State.clearOne_later
    | apply Later.foldl

theorem execCoresStop_later {r0 : State} (t : IT) (c : StopCause) (s : State) (hL : Later r0 s) : ∃ s', execCoresStop t c s = .next s' ∧ Later r0 s' := by
  unfold execCoresStop
  refine ⟨_, rfl, ?_⟩
  repeat' with_reducible first
    | assumption
    | apply State.whenAwake_later
    | apply State.coresStop_later
    | apply State.at_later
    | apply Later.ite
    | fail_if_no_progress apply Later.upd
    | fail_if_no_progress apply Later.upd_mem
    | fail_if_no_progress apply Later.upd_it
    | intro _ _

theorem State.claimMessage_later {r0 : State} (s : State) (hL : Later r0 s) : Later r0 (State.claimMessage s) := by
  unfold State.claimMessage
  repeat' with_reducible first
    | assumption
    | apply State.send_later

theorem State.reclaim_later {r0 : State} (s : State) (hL : Later r0 s) : Later r0 (State.reclaim s) := by
  unfold State.reclaim
  repeat' with_reducible first
    | assumption
    | (extract_lets +onlyGivenNames a; clear_value a)
    | apply State.claimMessage_later
    | apply Later.ite
    | fail_if_no_progress apply Later.upd

theorem State.switchOver_later {r0 : State} (s : State) (c : StopCause) (hL : Later r0 s) : Later r0 (State.switchOver s c) := by
  unfold State.switchOver
  split
  · exact Later.upd_card hL _ (Nat.le_refl _) (fun _ h => h) (Nat.le_refl _) (fun h => h)
  · exact hL

theorem execCoresReturn_later {r0 : State} (t : IT) (s : State) (hL : Later r0 s) : ∃ s', execCoresReturn t s = .next s' ∧ Later r0 s' := by
  unfold execCoresReturn
  dsimp only
  refine ⟨_, rfl, ?_⟩
  repeat' with_reducible first
    | assumption
    | apply State.whenAwake_later
    | apply State.modSup_later
    | apply State.at_later
    | apply State.windowEnd_later
    | apply State.switchOver_later
    | apply State.reclaim_later
    | apply Later.foldl
    | apply Later.foldl_fst
    | apply Later.ite
    | fail_if_no_progress apply Later.upd
    | fail_if_no_progress apply Later.upd_mem
    | fail_if_no_progress apply Later.upd_it
    | intro _ _ _
    | intro _ _
    | split

theorem execCoastWindowExpiry_later {r0 : State} (s : State) (hL : Later r0 s) : ∃ s', execCoastWindowExpiry s = .next s' ∧ Later r0 s' := by
  unfold execCoastWindowExpiry
  refine ⟨_, rfl, ?_⟩
  repeat' with_reducible first
    | assumption
    | (extract_lets +onlyGivenNames a; refine Later.cut (r := r0) a ?_ ?_; (on_goal 2 => intro _; clear_value a); (on_goal 1 => subst a))
    | apply State.at_later
    | apply State.report_later
    | apply State.modSup_later
    | apply Later.ite
    | fail_if_no_progress apply Later.upd
    | fail_if_no_progress apply Later.upd_mem
    | fail_if_no_progress apply Later.upd_it
    | split

theorem execHostLoss_later {r0 : State} (s : State) (hL : Later r0 s) : ∃ s', execHostLoss s = .next s' ∧ Later r0 s' := by
  unfold execHostLoss
  refine ⟨_, rfl, ?_⟩
  repeat' with_reducible first
    | assumption
    | (extract_lets +onlyGivenNames a; refine Later.cut (r := r0) a ?_ ?_; (on_goal 2 => intro _; clear_value a); (on_goal 1 => subst a))
    | (extract_lets +onlyGivenNames a; clear_value a)
    | apply State.at_later
    | apply State.modSup_later
    | apply State.report_later
    | apply Later.ite
    | fail_if_no_progress apply Later.upd
    | fail_if_no_progress apply Later.upd_mem
    | fail_if_no_progress apply Later.upd_it
    | split

theorem execPositionLossHoldExpiry_later {r0 : State} (s : State) (hL : Later r0 s) : ∃ s', execPositionLossHoldExpiry s = .next s' ∧ Later r0 s' := by
  unfold execPositionLossHoldExpiry
  refine ⟨_, rfl, ?_⟩
  repeat' with_reducible first
    | assumption
    | apply State.report_later
    | apply State.at_later
    | apply Later.ite

end Sys2Proof.Machine
end

