-- ==== Sys2Proof/Laws/LaterCarding.lean ====
section
/-! SUPPORT. What no operation of Carding.lean undoes: each moves the state Later. -/


namespace Sys2Proof.Machine

theorem State.modEngine_later {r0 : State} (s : State) (e : Nat) (f : EngineSt → EngineSt) (hL : Later r0 s) : Later r0 (State.modEngine s e f) := 
  ⟨hL.it, hL.mem, hL.queue, hL.roll, hL.key, hL.life, hL.legal⟩

theorem State.retireRow_later {r0 : State} (s : State) (m : Nat) (row : Nat) (hL : Later r0 s) : Later r0 (State.retireRow s m row) := by
  unfold State.retireRow
  repeat' with_reducible first
    | assumption
    | (extract_lets +onlyGivenNames a; refine Later.cut (r := r0) a ?_ ?_; (on_goal 2 => intro _; clear_value a); (on_goal 1 => subst a))
    | (extract_lets +onlyGivenNames a; clear_value a)
    | apply State.modCard_later
    | apply State.poolCheck_later
    | apply State.tileBad_later
    | apply State.logSram_later
    | apply State.modEngine_later
    | apply State.epochLost_later
    | exact Nat.le_refl _
    | exact fun _ h => h
    | exact fun h => h
    | apply Later.foldl
    | apply Later.foldl_fst
    | apply Later.ite
    | intro _ _ _

theorem State.repairRow_later {r0 : State} (s : State) (m : Nat) (row : Nat) (hL : Later r0 s) : Later r0 (State.repairRow s m row).1 := by
  unfold State.repairRow
  repeat' with_reducible first
    | assumption
    | (extract_lets +onlyGivenNames a; refine Later.cut (r := r0) a ?_ ?_; (on_goal 2 => intro _; clear_value a); (on_goal 1 => subst a))
    | (extract_lets +onlyGivenNames a; clear_value a)
    | refine Later.of_pair ‹_› ?_
    | apply Later.ite_fst
    | apply State.remapLog_later
    | apply State.putRepairs_later
    | apply State.record_later
    | apply State.retireRow_later
    | apply State.draw_later
    | apply Later.ite
    | fail_if_no_progress apply Later.upd
    | fail_if_no_progress apply Later.upd_mem
    | fail_if_no_progress apply Later.upd_it
    | split

theorem State.startShutdownRun_later {r0 : State} (s : State) (hL : Later r0 s) : Later r0 (State.startShutdownRun s) := 
  ⟨hL.it, hL.mem, hL.queue, hL.roll, hL.key, hL.life, hL.legal⟩

theorem State.cursorPast_later {r0 : State} (s : State) (r : CardRun) (k : Nat) (hL : Later r0 s) : Later r0 (State.cursorPast s r k) := by
  unfold State.cursorPast
  repeat' with_reducible first
    | assumption
    | apply State.modCard_later
    | exact Nat.le_refl _
    | exact fun _ h => h
    | exact fun h => h
    | apply Later.ite

theorem State.putRun_later {r0 : State} (s : State) (r : CardRun) (hL : Later r0 s) : Later r0 (State.putRun s r) := by
  unfold State.putRun
  repeat' with_reducible first
    | assumption
    | (extract_lets +onlyGivenNames a; clear_value a)
    | apply State.modCard_later
    | apply State.endRun_later
    | exact Nat.le_refl _
    | exact fun _ h => h
    | exact fun h => h
    | apply Later.ite

theorem State.runSlice_later {r0 : State} (s : State) (r : CardRun) (x : SliceIn) (hL : Later r0 s) : Later r0 (State.runSlice s r x) := by
  unfold State.runSlice
  dsimp only
  repeat' with_reducible first
    | assumption
    | refine Later.of_pair ‹_› ?_
    | apply Later.ite_fst
    | apply State.endRun_later
    | apply State.cursorPast_later
    | apply State.draw_later
    | apply State.sliceIncomplete_later
    | apply State.putRun_later
    | apply State.modCard_later
    | apply State.repairRow_later
    | apply State.sliceResult_later
    | apply State.record_later
    | exact Nat.le_refl _
    | exact fun _ h => h
    | exact fun h => h
    | apply Later.ite
    | fail_if_no_progress apply Later.upd
    | fail_if_no_progress apply Later.upd_mem
    | fail_if_no_progress apply Later.upd_it
    | split

theorem State.nextSlice_later {r0 : State} (s : State) (x : SliceIn) (hL : Later r0 s) : Later r0 (State.nextSlice s x) := by
  unfold State.nextSlice
  repeat' with_reducible first
    | assumption
    | (extract_lets +onlyGivenNames a; refine Later.cut (r := r0) a ?_ ?_; (on_goal 2 => intro _; clear_value a); (on_goal 1 => subst a))
    | (extract_lets +onlyGivenNames a; clear_value a)
    | apply State.endRun_later
    | apply State.runSlice_later
    | apply Later.ite
    | fail_if_no_progress apply Later.upd
    | fail_if_no_progress apply Later.upd_mem
    | fail_if_no_progress apply Later.upd_it
    | split

theorem execCardingSlice_later {r0 : State} (t : IT) (x : SliceIn) (s : State) (hL : Later r0 s) : ∃ s', execCardingSlice t x s = .next s' ∧ Later r0 s' := by
  unfold execCardingSlice
  refine ⟨_, rfl, ?_⟩
  repeat' with_reducible first
    | assumption
    | (extract_lets +onlyGivenNames a; refine Later.cut (r := r0) a ?_ ?_; (on_goal 2 => intro _; clear_value a); (on_goal 1 => subst a))
    | apply State.whenAwake_later
    | apply State.skeinFlush_later
    | apply State.at_later
    | apply State.startShutdownRun_later
    | apply State.modPower_later
    | apply State.nextSlice_later
    | apply Later.ite
    | fail_if_no_progress apply Later.upd
    | fail_if_no_progress apply Later.upd_mem
    | fail_if_no_progress apply Later.upd_it
    | intro _ _
    | split

theorem State.burn_later {r0 : State} (s : State) (hL : Later r0 s) : Later r0 (State.burn s) := by
  unfold State.burn
  repeat' with_reducible first
    | assumption
    | (extract_lets +onlyGivenNames a; refine Later.cut (r := r0) a ?_ ?_; (on_goal 2 => intro _; clear_value a); (on_goal 1 => subst a))
    | (extract_lets +onlyGivenNames a; clear_value a)
    | apply State.putRepairs_later
    | apply State.record_later
    | apply Later.foldl
    | apply Later.foldl_fst
    | apply Later.ite
    | fail_if_no_progress apply Later.upd
    | fail_if_no_progress apply Later.upd_mem
    | fail_if_no_progress apply Later.upd_it
    | intro _ _ _

theorem State.lifeBoot_later {r0 : State} (s : State) (hL : Later r0 s) : Later r0 (State.lifeBoot s) := by
  unfold State.lifeBoot
  dsimp only
  have h := State.modCard_later s (fun c => { c with pendLife := 0xFF }) hL (Nat.le_refl _) (fun _ h => h) (Nat.le_refl _) (fun h => h)
  split
  · next e =>
    refine State.setLife_later _ _ h ?_ fun _ => ?_
    · show lifeRank s.card.life ≤ lifeRank s.card.pendLife
      rcases e with ⟨e, e'⟩ | ⟨e | e, e'⟩ <;> simp [e, e', lifeRank]
    · omega
  · split
    · next e =>
      refine State.setLife_later _ _ h ?_ (fun _ => ⟨by decide, by decide⟩)
      show lifeRank s.card.life ≤ lifeRank 2
      simp [e, lifeRank]
    · exact h

theorem State.imageResult_later {r0 : State} (s : State) (res : Nat) (eng : Nat) (slot : Nat) (cause : Nat) (got : Nat) (at_ : IT) (hL : Later r0 s) : Later r0 (State.imageResult s res eng slot cause got at_) := 
  ⟨hL.it, hL.mem, hL.queue, hL.roll, hL.key, hL.life, hL.legal⟩

theorem State.fallback_later {r0 : State} (s : State) (e : Nat) (st : Nat) (cause : Nat) (hL : Later r0 s) : Later r0 (State.fallback s e st cause) := 
  ⟨hL.it, hL.mem, hL.queue, hL.roll, hL.key, hL.life, hL.legal⟩

theorem State.bootEngine_later {r0 : State} (s : State) (e : Nat) (hL : Later r0 s) : Later r0 (State.bootEngine s e) := by
  unfold State.bootEngine
  repeat' with_reducible first
    | assumption
    | (extract_lets +onlyGivenNames a; refine Later.cut (r := r0) a ?_ ?_; (on_goal 2 => intro _; clear_value a); (on_goal 1 => subst a))
    | (extract_lets +onlyGivenNames a; clear_value a)
    | apply State.draw_later
    | apply State.fallback_later
    | apply State.modEngine_later
    | apply Later.ite

theorem State.abandonLoads_later {r0 : State} (s : State) (hL : Later r0 s) : Later r0 (State.abandonLoads s) := by
  unfold State.abandonLoads
  repeat' with_reducible first
    | assumption
    | (extract_lets +onlyGivenNames a; refine Later.cut (r := r0) a ?_ ?_; (on_goal 2 => intro _; clear_value a); (on_goal 1 => subst a))
    | (extract_lets +onlyGivenNames a; clear_value a)
    | apply State.imageResult_later
    | apply State.modEngine_later
    | apply State.modCard_later
    | exact Nat.le_refl _
    | exact fun _ h => h
    | exact fun h => h
    | apply Later.foldl
    | apply Later.foldl_fst
    | apply Later.ite
    | fail_if_no_progress apply Later.upd
    | fail_if_no_progress apply Later.upd_mem
    | fail_if_no_progress apply Later.upd_it
    | intro _ _ _
    | split

theorem State.switched_later {r0 : State} (s : State) (e : Nat) (hL : Later r0 s) : Later r0 (State.switched s e) := 
  ⟨hL.it, hL.mem, hL.queue, hL.roll, hL.key, hL.life, hL.legal⟩

theorem execImageSwitchBoundary_later {r0 : State} (dieReady : Vector Bool 4) (s : State) (hL : Later r0 s) : ∃ s', execImageSwitchBoundary dieReady s = .next s' ∧ Later r0 s' := by
  unfold execImageSwitchBoundary
  refine ⟨_, rfl, ?_⟩
  repeat' with_reducible first
    | assumption
    | (extract_lets +onlyGivenNames a; refine Later.cut (r := r0) a ?_ ?_; (on_goal 2 => intro _; clear_value a); (on_goal 1 => subst a))
    | (extract_lets +onlyGivenNames a; clear_value a)
    | apply State.whenAwake_later
    | apply State.at_later
    | apply State.imageResult_later
    | apply State.modCard_later
    | apply State.switched_later
    | apply State.coresStop_later
    | apply State.modLp_later
    | exact Nat.le_refl _
    | exact fun _ h => h
    | exact fun h => h
    | apply Later.foldl
    | apply Later.foldl_fst
    | apply Later.ite
    | fail_if_no_progress apply Later.upd
    | fail_if_no_progress apply Later.upd_mem
    | fail_if_no_progress apply Later.upd_it
    | intro _ _ _
    | intro _ _
    | split

theorem State.confirmImages_later {r0 : State} (s : State) (hL : Later r0 s) : Later r0 (State.confirmImages s) := by
  unfold State.confirmImages
  extract_lets a ver low old
  have ha : Later r0 a := Later.foldl hL fun s e h => by
    dsimp only
    split
    · exact State.modEngine_later _ _ _ h
    · exact h
  clear_value a
  split
  · exact ha
  · next e =>
    have hl : a.card.rollback ≤ low := Nat.le_of_lt (Nat.lt_of_not_le e)
    clear_value low
    refine State.record_later _ _ _ _ ?_
    refine Later.foldl ?_ fun s i h => ?_
    · exact State.modCard_later _ _ ha hl (fun _ h => h) (Nat.le_refl _) (fun h => h)
    · dsimp only
      split
      · exact State.modEngine_later _ _ _ h
      · exact h

theorem State.markerBoot_later {r0 : State} (s : State) (hL : Later r0 s) : Later r0 (State.markerBoot s) := by
  unfold State.markerBoot
  repeat' with_reducible first
    | assumption
    | (extract_lets +onlyGivenNames a; refine Later.cut (r := r0) a ?_ ?_; (on_goal 2 => intro _; clear_value a); (on_goal 1 => subst a))
    | (extract_lets +onlyGivenNames a; clear_value a)
    | apply State.modCard_later
    | apply State.sliceIncomplete_later
    | exact Nat.le_refl _
    | exact fun _ h => h
    | exact fun h => h
    | apply Later.ite
    | fail_if_no_progress apply Later.upd
    | fail_if_no_progress apply Later.upd_mem
    | fail_if_no_progress apply Later.upd_it
    | split

theorem State.cardingBoot_later {r0 : State} (s : State) (hL : Later r0 s) : Later r0 (State.cardingBoot s) := by
  unfold State.cardingBoot
  repeat' with_reducible first
    | assumption
    | (extract_lets +onlyGivenNames a; refine Later.cut (r := r0) a ?_ ?_; (on_goal 2 => intro _; clear_value a); (on_goal 1 => subst a))
    | apply State.modCard_later
    | apply State.lifeBoot_later
    | apply State.bootEngine_later
    | apply State.recordIf_later
    | exact Nat.le_refl _
    | exact fun _ h => h
    | exact fun h => h
    | apply Later.foldl
    | apply Later.foldl_fst
    | apply Later.ite
    | fail_if_no_progress apply Later.upd
    | fail_if_no_progress apply Later.upd_mem
    | fail_if_no_progress apply Later.upd_it
    | intro _ _ _
    | split

end Sys2Proof.Machine
end

