-- ==== Sys2Proof/Laws/LaterFlags.lean ====
section
/-! SUPPORT. What no operation of Flags.lean undoes: each moves the state Later. -/


namespace Sys2Proof.Machine

theorem State.beatSent_later {r0 : State} (s : State) (i : Nat) (hL : Later r0 s) : Later r0 (State.beatSent s i) := 
  ⟨hL.it, hL.mem, hL.queue, hL.roll, hL.key, hL.life, hL.legal⟩

theorem State.sendBeat_later {r0 : State} (s : State) (n : Net) (hL : Later r0 s) : Later r0 (State.sendBeat s n) := by
  unfold State.sendBeat
  repeat' with_reducible first
    | assumption
    | (extract_lets +onlyGivenNames a; refine Later.cut (r := r0) a ?_ ?_; (on_goal 2 => intro _; clear_value a); (on_goal 1 => subst a))
    | (extract_lets +onlyGivenNames a; clear_value a)
    | apply State.beatSent_later
    | apply State.sendUnasked_later
    | apply Later.ite
    | fail_if_no_progress apply Later.upd
    | fail_if_no_progress apply Later.upd_mem
    | fail_if_no_progress apply Later.upd_it
    | split

theorem State.firstBeat_later {r0 : State} (s : State) (hL : Later r0 s) : Later r0 (State.firstBeat s) := by
  unfold State.firstBeat
  repeat' with_reducible first
    | assumption
    | (extract_lets +onlyGivenNames a; refine Later.cut (r := r0) a ?_ ?_; (on_goal 2 => intro _; clear_value a); (on_goal 1 => subst a))
    | (extract_lets +onlyGivenNames a; clear_value a)
    | apply State.sendBeat_later
    | apply Later.foldl
    | apply Later.foldl_fst
    | apply Later.ite
    | fail_if_no_progress apply Later.upd
    | fail_if_no_progress apply Later.upd_mem
    | fail_if_no_progress apply Later.upd_it
    | intro _ _ _
    | split

end Sys2Proof.Machine
end

