-- ==== Sys2Proof/Laws/LaterPower.lean ====
section
/-! SUPPORT. What no operation of Power.lean undoes: each moves the state Later. -/


namespace Sys2Proof.Machine

theorem State.asleep_later {r0 : State} (s : State) (hL : Later r0 s) : Later r0 (State.asleep s) := 
  ⟨hL.it, hL.mem, hL.queue, hL.roll, hL.key, hL.life, hL.legal⟩

theorem State.gratuitousArp_later {r0 : State} (s : State) (hL : Later r0 s) : Later r0 (State.gratuitousArp s) := by
  unfold State.gratuitousArp
  repeat' with_reducible first
    | assumption
    | apply State.send_later

theorem State.ethStart_later {r0 : State} (s : State) (hL : Later r0 s) : Later r0 (State.ethStart s) := by
  unfold State.ethStart
  repeat' with_reducible first
    | assumption
    | (extract_lets +onlyGivenNames a; refine Later.cut (r := r0) a ?_ ?_; (on_goal 2 => intro _; clear_value a); (on_goal 1 => subst a))
    | (extract_lets +onlyGivenNames a; clear_value a)
    | apply State.modPower_later
    | apply State.gratuitousArp_later
    | apply Later.ite
    | fail_if_no_progress apply Later.upd

theorem State.bootNote_later {r0 : State} (s : State) (src : Nat) (hL : Later r0 s) : Later r0 (State.bootNote s src) := 
  ⟨hL.it, hL.mem, hL.queue, hL.roll, hL.key, hL.life, hL.legal⟩

theorem State.coldStart_later {r0 : State} (s : State) (b : BootIn) (src : Nat) (ign : Bool) (hL : Later r0 s) : Later r0 (State.coldStart s b src ign) := by
  unfold State.coldStart
  dsimp only
  repeat' with_reducible first
    | assumption
    | apply State.asleep_later
    | apply State.resumeNote_later
    | apply State.markerBoot_later
    | apply State.resumeTime_later
    | apply State.repairBoot_later
    | apply State.bootNote_later
    | apply State.modPower_later
    | apply State.disBoot_later
    | apply State.skeinBoot_later
    | apply State.cardingBoot_later
    | apply State.modInert_later
    | apply State.ethStart_later
    | apply Later.ite
    | fail_if_no_progress apply Later.upd

theorem execPowerOn_later {r0 : State} (b : BootIn) (s : State) (hL : Later r0 s) : ∃ s', execPowerOn b s = .next s' ∧ Later r0 s' := by
  unfold execPowerOn
  refine ⟨_, rfl, ?_⟩
  repeat' with_reducible first
    | assumption
    | apply State.coldStart_later
    | apply Later.ite

theorem execCanAWake_later {r0 : State} (b : BootIn) (s : State) (hL : Later r0 s) : ∃ s', execCanAWake b s = .next s' ∧ Later r0 s' := by
  unfold execCanAWake
  refine ⟨_, rfl, ?_⟩
  repeat' with_reducible first
    | assumption
    | apply State.coldStart_later
    | apply Later.ite

theorem State.enterShutdown_later {r0 : State} (s : State) (cause : Nat) (hL : Later r0 s) : Later r0 (State.enterShutdown s cause) := by
  unfold State.enterShutdown
  repeat' with_reducible first
    | assumption
    | (extract_lets +onlyGivenNames a; refine Later.cut (r := r0) a ?_ ?_; (on_goal 2 => intro _; clear_value a); (on_goal 1 => subst a))
    | apply State.rateIdle_later
    | apply State.discardEdges_later
    | apply State.abortRun_later
    | apply State.setDev_later
    | apply State.modPower_later
    | apply State.closeChannels_later
    | apply State.whorlEnter_later
    | apply State.bridgesEnter_later
    | apply State.geoLeave_later
    | apply State.bobbinEnter_later
    | apply State.modSup_later
    | apply State.releaseAll_later
    | apply State.abandonLoads_later
    | apply State.loadsFollow_later

theorem State.downStage_later {r0 : State} (s : State) (hL : Later r0 s) : Later r0 (State.downStage s) := by
  unfold State.downStage
  repeat' with_reducible first
    | assumption
    | apply State.modPower_later
    | apply Later.ite

theorem State.enterStandby_later {r0 : State} (s : State) (hL : Later r0 s) : Later r0 (State.enterStandby s) := by
  unfold State.enterStandby
  repeat' with_reducible first
    | assumption
    | (extract_lets +onlyGivenNames a; refine Later.cut (r := r0) a ?_ ?_; (on_goal 2 => intro _; clear_value a); (on_goal 1 => subst a))
    | (extract_lets +onlyGivenNames a; clear_value a)
    | apply State.skeinFlush_later
    | apply State.draw_later
    | apply State.record_later
    | apply State.modPower_later
    | apply State.asleep_later
    | apply State.coldStart_later
    | apply Later.ite
    | fail_if_no_progress apply Later.upd
    | fail_if_no_progress apply Later.upd_mem
    | fail_if_no_progress apply Later.upd_it
    | split

theorem State.shutdownDone_later {r0 : State} (s : State) (result : Nat) (aon : Nat) (hL : Later r0 s) : Later r0 (State.shutdownDone s result aon) := by
  unfold State.shutdownDone
  repeat' with_reducible first
    | assumption
    | (extract_lets +onlyGivenNames a; refine Later.cut (r := r0) a ?_ ?_; (on_goal 2 => intro _; clear_value a); (on_goal 1 => subst a))
    | apply State.modPower_later
    | apply State.record_later
    | apply State.writeFinal_later
    | apply State.skeinFlush_later

theorem State.finishMap_later {r0 : State} (s : State) (hL : Later r0 s) : Later r0 (State.finishMap s) := by
  unfold State.finishMap
  repeat' with_reducible first
    | assumption
    | (extract_lets +onlyGivenNames a; refine Later.cut (r := r0) a ?_ ?_; (on_goal 2 => intro _; clear_value a); (on_goal 1 => subst a))
    | apply State.closeDone_later
    | apply State.geoStop_later
    | apply Later.ite
    | fail_if_no_progress apply Later.upd
    | fail_if_no_progress apply Later.upd_mem
    | fail_if_no_progress apply Later.upd_it
    | split

theorem State.finishSlices_later {r0 : State} (s : State) (hL : Later r0 s) : Later r0 (State.finishSlices s) := by
  unfold State.finishSlices
  repeat' with_reducible first
    | assumption
    | (extract_lets +onlyGivenNames a; refine Later.cut (r := r0) a ?_ ?_; (on_goal 2 => intro _; clear_value a); (on_goal 1 => subst a))
    | apply State.startShutdownRun_later
    | apply State.nextSlice_later
    | apply State.endRun_later
    | apply Later.foldl
    | apply Later.foldl_fst
    | apply Later.ite
    | fail_if_no_progress apply Later.upd
    | fail_if_no_progress apply Later.upd_mem
    | fail_if_no_progress apply Later.upd_it
    | intro _ _ _
    | split

theorem State.shutdownEnd_later {r0 : State} (s : State) (hL : Later r0 s) : Later r0 (State.shutdownEnd s) := by
  unfold State.shutdownEnd
  repeat' with_reducible first
    | assumption
    | (extract_lets +onlyGivenNames a; refine Later.cut (r := r0) a ?_ ?_; (on_goal 2 => intro _; clear_value a); (on_goal 1 => subst a))
    | (extract_lets +onlyGivenNames a; clear_value a)
    | apply State.enterStandby_later
    | apply State.modBob_later
    | apply State.modPower_later
    | apply Later.ite
    | fail_if_no_progress apply Later.upd
    | fail_if_no_progress apply Later.upd_mem
    | fail_if_no_progress apply Later.upd_it
    | split

theorem execShutdownComplete_later {r0 : State} (t : IT) (aon : Nat) (s : State) (hL : Later r0 s) : ∃ s', execShutdownComplete t aon s = .next s' ∧ Later r0 s' := by
  unfold execShutdownComplete
  refine ⟨_, rfl, ?_⟩
  repeat' with_reducible first
    | assumption
    | (extract_lets +onlyGivenNames a; refine Later.cut (r := r0) a ?_ ?_; (on_goal 2 => intro _; clear_value a); (on_goal 1 => subst a))
    | apply State.at_later
    | apply State.shutdownEnd_later
    | apply State.finishSlices_later
    | apply State.skeinFlush_later
    | apply State.finishMap_later
    | apply State.startDischarge_later
    | apply State.shutdownDone_later
    | apply Later.ite

theorem execShutdownOvertime_later {r0 : State} (t : IT) (aon : Nat) (s : State) (hL : Later r0 s) : ∃ s', execShutdownOvertime t aon s = .next s' ∧ Later r0 s' := by
  unfold execShutdownOvertime
  refine ⟨_, rfl, ?_⟩
  repeat' with_reducible first
    | assumption
    | (extract_lets +onlyGivenNames a; refine Later.cut (r := r0) a ?_ ?_; (on_goal 2 => intro _; clear_value a); (on_goal 1 => subst a))
    | apply State.at_later
    | apply State.draw_later
    | apply State.abortRun_later
    | apply State.modBob_later
    | apply State.shutdownDone_later
    | apply State.enterStandby_later
    | apply Later.ite

theorem execRailDischarged_later {r0 : State} (t : IT) (s : State) (hL : Later r0 s) : ∃ s', execRailDischarged t s = .next s' ∧ Later r0 s' := by
  unfold execRailDischarged
  refine ⟨_, rfl, ?_⟩
  repeat' with_reducible first
    | assumption
    | apply State.whenAwake_later
    | apply State.modBob_later
    | apply State.at_later
    | apply State.shutdownEnd_later
    | apply Later.ite
    | fail_if_no_progress apply Later.upd
    | fail_if_no_progress apply Later.upd_mem
    | fail_if_no_progress apply Later.upd_it
    | intro _ _

theorem execIgnOn_later {r0 : State} (t : IT) (b : BootIn) (s : State) (hL : Later r0 s) : ∃ s', execIgnOn t b s = .next s' ∧ Later r0 s' := by
  unfold execIgnOn
  refine ⟨_, rfl, ?_⟩
  repeat' with_reducible first
    | assumption
    | apply State.coldStart_later
    | apply State.modPower_later
    | apply State.abortRun_later
    | apply State.at_later
    | apply State.shutdownEnd_later
    | apply Later.ite
    | fail_if_no_progress apply Later.upd
    | fail_if_no_progress apply Later.upd_mem
    | fail_if_no_progress apply Later.upd_it
    | split

theorem execIgnOff_later {r0 : State} (t : IT) (s : State) (hL : Later r0 s) : ∃ s', execIgnOff t s = .next s' ∧ Later r0 s' := by
  unfold execIgnOff
  refine ⟨_, rfl, ?_⟩
  repeat' with_reducible first
    | assumption
    | (extract_lets +onlyGivenNames a; refine Later.cut (r := r0) a ?_ ?_; (on_goal 2 => intro _; clear_value a); (on_goal 1 => subst a))
    | apply State.modPower_later
    | apply State.at_later
    | apply State.enterShutdown_later
    | apply Later.ite
    | fail_if_no_progress apply Later.upd
    | fail_if_no_progress apply Later.upd_mem
    | fail_if_no_progress apply Later.upd_it
    | split

theorem execWakeHoldExpiry_later {r0 : State} (s : State) (hL : Later r0 s) : ∃ s', execWakeHoldExpiry s = .next s' ∧ Later r0 s' := by
  unfold execWakeHoldExpiry
  refine ⟨_, rfl, ?_⟩
  repeat' with_reducible first
    | assumption
    | (extract_lets +onlyGivenNames a; refine Later.cut (r := r0) a ?_ ?_; (on_goal 2 => intro _; clear_value a); (on_goal 1 => subst a))
    | apply State.whenAwake_later
    | apply State.modPower_later
    | apply State.at_later
    | apply State.enterShutdown_later
    | apply Later.ite
    | fail_if_no_progress apply Later.upd
    | fail_if_no_progress apply Later.upd_mem
    | fail_if_no_progress apply Later.upd_it
    | intro _ _
    | split

theorem execBootComplete_later {r0 : State} (t : IT) (s : State) (hL : Later r0 s) : ∃ s', execBootComplete t s = .next s' ∧ Later r0 s' := by
  unfold execBootComplete
  refine ⟨_, rfl, ?_⟩
  repeat' with_reducible first
    | assumption
    | (extract_lets +onlyGivenNames a; refine Later.cut (r := r0) a ?_ ?_; (on_goal 2 => intro _; clear_value a); (on_goal 1 => subst a))
    | (extract_lets +onlyGivenNames a; clear_value a)
    | apply State.at_later
    | apply State.modPower_later
    | apply State.setDev_later
    | apply State.enterShutdown_later
    | apply State.firstBeat_later
    | apply State.record_later
    | apply Later.ite
    | fail_if_no_progress apply Later.upd

theorem State.tornWrite_later {r0 : State} (s : State) (col : Int) (row : Int) (hL : Later r0 s) : Later r0 (State.tornWrite s col row) := by
  unfold State.tornWrite
  repeat' with_reducible first
    | assumption
    | (extract_lets +onlyGivenNames a; refine Later.cut (r := r0) a ?_ ?_; (on_goal 2 => intro _; clear_value a); (on_goal 1 => subst a))
    | (extract_lets +onlyGivenNames a; clear_value a)
    | apply Later.ite
    | fail_if_no_progress apply Later.upd
    | fail_if_no_progress apply Later.upd_mem
    | fail_if_no_progress apply Later.upd_it
    | split

theorem execKaCollapse_later {r0 : State} (x : CollapseIn) (s : State) (hL : Later r0 s) : ∃ s', execKaCollapse x s = .next s' ∧ Later r0 s' := by
  unfold execKaCollapse
  refine ⟨_, rfl, ?_⟩
  repeat' with_reducible first
    | assumption
    | (extract_lets +onlyGivenNames a; refine Later.cut (r := r0) a ?_ ?_; (on_goal 2 => intro _; clear_value a); (on_goal 1 => subst a))
    | (extract_lets +onlyGivenNames a; clear_value a)
    | apply State.at_later
    | apply State.tornWrite_later
    | apply State.draw_later
    | apply State.asleep_later
    | apply State.modCard_later
    | apply State.modSkein_later
    | apply State.modBob_later
    | apply State.modPower_later
    | exact Nat.le_refl _
    | exact fun _ h => h
    | exact fun h => h
    | apply Later.ite
    | fail_if_no_progress apply Later.upd
    | fail_if_no_progress apply Later.upd_mem
    | fail_if_no_progress apply Later.upd_it
    | split

theorem execCrystalStartTimeout_later {r0 : State} (t : IT) (s : State) (hL : Later r0 s) : ∃ s', execCrystalStartTimeout t s = .next s' ∧ Later r0 s' := by
  unfold execCrystalStartTimeout
  refine ⟨_, rfl, ?_⟩
  repeat' with_reducible first
    | assumption
    | (extract_lets +onlyGivenNames a; refine Later.cut (r := r0) a ?_ ?_; (on_goal 2 => intro _; clear_value a); (on_goal 1 => subst a))
    | (extract_lets +onlyGivenNames a; clear_value a)
    | apply State.modPower_later
    | apply State.at_later
    | apply State.report_later
    | apply Later.ite
    | fail_if_no_progress apply Later.upd

theorem execCrystalFailure_later {r0 : State} (t : IT) (s : State) (hL : Later r0 s) : ∃ s', execCrystalFailure t s = .next s' ∧ Later r0 s' := by
  unfold execCrystalFailure
  refine ⟨_, rfl, ?_⟩
  repeat' with_reducible first
    | assumption
    | (extract_lets +onlyGivenNames a; refine Later.cut (r := r0) a ?_ ?_; (on_goal 2 => intro _; clear_value a); (on_goal 1 => subst a))
    | (extract_lets +onlyGivenNames a; clear_value a)
    | apply State.whenAwake_later
    | apply State.at_later
    | apply State.report_later
    | apply Later.ite
    | fail_if_no_progress apply Later.upd
    | fail_if_no_progress apply Later.upd_mem
    | fail_if_no_progress apply Later.upd_it
    | intro _ _

end Sys2Proof.Machine
end

