-- ==== Sys2Proof/Laws/LaterCommands.lean ====
section
/-! SUPPORT. What no operation of Commands.lean undoes: each moves the state Later. -/


namespace Sys2Proof.Machine

theorem State.refuseState_later {r0 : State} (s : State) (reason : Nat) (code : Nat) (hL : Later r0 s) : Later r0 (State.refuseState s reason code).1 := 
  ⟨hL.it, hL.mem, hL.queue, hL.roll, hL.key, hL.life, hL.legal⟩

theorem State.acceptState_later {r0 : State} (s : State) (target : Nat) (hL : Later r0 s) : Later r0 (State.acceptState s target).1 := 
  ⟨hL.it, hL.mem, hL.queue, hL.roll, hL.key, hL.life, hL.legal⟩

theorem State.modDict_later {r0 : State} (s : State) (f : Dict → Dict) (hL : Later r0 s) : Later r0 (State.modDict s f) := 
  ⟨hL.it, hL.mem, hL.queue, hL.roll, hL.key, hL.life, hL.legal⟩

theorem State.stateCommand_later {r0 : State} (s : State) (lvl : Nat) (c : Nat) (hL : Later r0 s) : Later r0 (State.stateCommand s lvl c).1 := by
  unfold State.stateCommand
  repeat' with_reducible first
    | assumption
    | refine Later.of_pair ‹_› ?_
    | apply Later.ite_fst
    | apply State.acceptState_later
    | apply State.refuseState_later
    | apply State.enterSafe_later
    | apply State.modPower_later
    | apply Later.ite
    | fail_if_no_progress apply Later.upd
    | fail_if_no_progress apply Later.upd_mem
    | fail_if_no_progress apply Later.upd_it
    | split

theorem State.sessionLevel_later {r0 : State} (s : State) (i : SessionId) (l : Nat) (hL : Later r0 s) : Later r0 (State.sessionLevel s i l) := 
  ⟨hL.it, hL.mem, hL.queue, hL.roll, hL.key, hL.life, hL.legal⟩

theorem State.issueChallenge_later {r0 : State} (s : State) (hL : Later r0 s) : Later r0 (State.issueChallenge s) := 
  ⟨hL.it, hL.mem, hL.queue, hL.roll, hL.key, hL.life, hL.legal⟩

theorem State.useChallenge_later {r0 : State} (s : State) (hL : Later r0 s) : Later r0 (State.useChallenge s) := 
  ⟨hL.it, hL.mem, hL.queue, hL.roll, hL.key, hL.life, hL.legal⟩

theorem State.response_later {r0 : State} (s : State) (who : SessionId) (v : Bytes) (hL : Later r0 s) : Later r0 (State.response s who v).1 := by
  unfold State.response
  repeat' with_reducible first
    | assumption
    | (extract_lets +onlyGivenNames a; refine Later.cut (r := r0) a ?_ ?_; (on_goal 2 => intro _; clear_value a); (on_goal 1 => subst a))
    | (extract_lets +onlyGivenNames a; clear_value a)
    | refine Later.of_pair ‹_› ?_
    | apply Later.ite_fst
    | apply State.useChallenge_later
    | apply State.sessionLevel_later
    | apply State.recordIf_later
    | apply Later.ite
    | fail_if_no_progress apply Later.upd

theorem State.lifecycle_later {r0 : State} (s : State) (lvl : Nat) (v : Bytes) (hL : Later r0 s) : Later r0 (State.lifecycle s lvl v).1 := by
  unfold State.lifecycle
  repeat' with_reducible first
    | assumption
    | (extract_lets +onlyGivenNames a; refine Later.cut (r := r0) a ?_ ?_; (on_goal 2 => intro _; clear_value a); (on_goal 1 => subst a))
    | (extract_lets +onlyGivenNames a; clear_value a)
    | refine Later.of_pair ‹_› ?_
    | apply Later.ite_fst
    | apply State.useChallenge_later
    | apply State.modCard_later
    | exact Nat.le_refl _
    | exact fun _ h => h
    | exact fun h => h

theorem State.protectedKey_later {r0 : State} (s : State) (v : Bytes) (hL : Later r0 s) : Later r0 (State.protectedKey s v).1 := by
  unfold State.protectedKey
  split
  · exact hL
  · next h =>
    dsimp only
    refine State.modCard_later _ _ hL (Nat.le_refl _) (fun k e => ?_) (Nat.le_refl _) (fun h => h)
    simp [e] at h

theorem State.cardingCommand_later {r0 : State} (s : State) (lvl : Nat) (c : Nat) (hL : Later r0 s) : Later r0 (State.cardingCommand s lvl c).1 := by
  unfold State.cardingCommand
  repeat' with_reducible first
    | assumption
    | (extract_lets +onlyGivenNames a; clear_value a)
    | refine Later.of_pair ‹_› ?_
    | apply Later.ite_fst
    | apply State.abortRun_later
    | apply State.burn_later
    | apply State.startRun_later
    | apply Later.ite
    | fail_if_no_progress apply Later.upd
    | fail_if_no_progress apply Later.upd_mem
    | fail_if_no_progress apply Later.upd_it
    | split

theorem State.refuseImage_later {r0 : State} (s : State) (e : Nat) (cause : Nat) (hL : Later r0 s) : Later r0 (State.refuseImage s e cause).1 := 
  ⟨hL.it, hL.mem, hL.queue, hL.roll, hL.key, hL.life, hL.legal⟩

theorem State.imageOpen_later {r0 : State} (s : State) (e : Nat) (total : Nat) (hL : Later r0 s) : Later r0 (State.imageOpen s e total).1 := by
  unfold State.imageOpen
  repeat' with_reducible first
    | assumption
    | (extract_lets +onlyGivenNames a; refine Later.cut (r := r0) a ?_ ?_; (on_goal 2 => intro _; clear_value a); (on_goal 1 => subst a))
    | (extract_lets +onlyGivenNames a; clear_value a)
    | refine Later.of_pair ‹_› ?_
    | apply Later.ite_fst
    | apply State.refuseImage_later
    | apply State.modEngine_later
    | apply State.imageResult_later

theorem State.imageVerify_later {r0 : State} (s : State) (e : Nat) (hL : Later r0 s) : Later r0 (State.imageVerify s e).1 := by
  unfold State.imageVerify
  repeat' with_reducible first
    | assumption
    | (extract_lets +onlyGivenNames a; refine Later.cut (r := r0) a ?_ ?_; (on_goal 2 => intro _; clear_value a); (on_goal 1 => subst a))
    | (extract_lets +onlyGivenNames a; clear_value a)
    | refine Later.of_pair ‹_› ?_
    | apply Later.ite_fst
    | apply State.refuseImage_later
    | apply State.modEngine_later
    | apply State.imageResult_later
    | apply State.record_later

theorem State.imageSwitch_later {r0 : State} (s : State) (e : Nat) (hL : Later r0 s) : Later r0 (State.imageSwitch s e).1 := by
  unfold State.imageSwitch
  repeat' with_reducible first
    | assumption
    | (extract_lets +onlyGivenNames a; refine Later.cut (r := r0) a ?_ ?_; (on_goal 2 => intro _; clear_value a); (on_goal 1 => subst a))
    | (extract_lets +onlyGivenNames a; clear_value a)
    | refine Later.of_pair ‹_› ?_
    | apply Later.ite_fst
    | apply State.refuseImage_later
    | apply State.modCard_later
    | apply State.imageResult_later
    | exact Nat.le_refl _
    | exact fun _ h => h
    | exact fun h => h

theorem State.imageAbandon_later {r0 : State} (s : State) (e : Nat) (hL : Later r0 s) : Later r0 (State.imageAbandon s e).1 := by
  unfold State.imageAbandon
  repeat' with_reducible first
    | assumption
    | (extract_lets +onlyGivenNames a; clear_value a)
    | refine Later.of_pair ‹_› ?_
    | apply Later.ite_fst
    | apply State.imageResult_later
    | apply State.modEngine_later
    | apply State.refuseImage_later

theorem State.imageCommand_later {r0 : State} (s : State) (lvl : Nat) (v : Bytes) (hL : Later r0 s) : Later r0 (State.imageCommand s lvl v).1 := by
  unfold State.imageCommand
  repeat' with_reducible first
    | assumption
    | (extract_lets +onlyGivenNames a; clear_value a)
    | refine Later.of_pair ‹_› ?_
    | apply Later.ite_fst
    | apply State.imageOpen_later
    | apply State.imageVerify_later
    | apply State.imageSwitch_later
    | apply State.imageResult_later
    | apply State.confirmImages_later
    | apply State.imageAbandon_later
    | apply Later.ite
    | fail_if_no_progress apply Later.upd
    | fail_if_no_progress apply Later.upd_mem
    | fail_if_no_progress apply Later.upd_it
    | split

theorem State.imageChunk_later {r0 : State} (s : State) (lvl : Nat) (v : Bytes) (hL : Later r0 s) : Later r0 (State.imageChunk s lvl v).1 := by
  unfold State.imageChunk
  dsimp only
  repeat' with_reducible first
    | assumption
    | refine Later.of_pair ‹_› ?_
    | apply Later.ite_fst
    | apply State.refuseImage_later
    | apply State.modEngine_later
    | apply State.imageResult_later
    | apply Later.ite
    | fail_if_no_progress apply Later.upd
    | fail_if_no_progress apply Later.upd_mem
    | fail_if_no_progress apply Later.upd_it
    | split

theorem State.clearLastWord_later {r0 : State} (s : State) (hL : Later r0 s) : Later r0 (State.clearLastWord s) := 
  ⟨hL.it, hL.mem, hL.queue, hL.roll, hL.key, hL.life, hL.legal⟩

theorem State.discardStaged_later {r0 : State} (s : State) (hL : Later r0 s) : Later r0 (State.discardStaged s) := 
  ⟨hL.it, hL.mem, hL.queue, hL.roll, hL.key, hL.life, hL.legal⟩

theorem State.hankWrite_later {r0 : State} (s : State) (v : Bytes) (hL : Later r0 s) : Later r0 (State.hankWrite s v).1 := by
  unfold State.hankWrite
  repeat' with_reducible first
    | assumption
    | refine Later.of_pair ‹_› ?_
    | apply Later.ite_fst
    | apply State.hankCommand_later

theorem State.tileWrite_later {r0 : State} (s : State) (v : Bytes) (hL : Later r0 s) : Later r0 (State.tileWrite s v).1 := by
  unfold State.tileWrite
  repeat' with_reducible first
    | assumption
    | (extract_lets +onlyGivenNames a; refine Later.cut (r := r0) a ?_ ?_; (on_goal 2 => intro _; clear_value a); (on_goal 1 => subst a))
    | (extract_lets +onlyGivenNames a; refine Later.cut (r := r0) a.1 ?_ ?_; (on_goal 2 => intro _; clear_value a); (on_goal 1 => subst a))
    | (extract_lets +onlyGivenNames a; refine Later.cut (r := r0) a.s ?_ ?_; (on_goal 2 => intro _; clear_value a); (on_goal 1 => subst a))
    | (extract_lets +onlyGivenNames a; clear_value a)
    | refine Later.of_pair ‹_› ?_
    | apply Later.ite_fst
    | apply State.tileStream_later
    | apply Later.ite
    | fail_if_no_progress apply Later.upd
    | fail_if_no_progress apply Later.upd_mem
    | fail_if_no_progress apply Later.upd_it
    | split

theorem State.writeCommand_later {r0 : State} (s : State) (who : SessionId) (lvl : Nat) (idx : Nat) (sub : Nat) (v : Bytes) (hL : Later r0 s) : Later r0 (State.writeCommand s who lvl idx sub v).1 := by
  unfold State.writeCommand
  repeat' with_reducible first
    | assumption
    | refine Later.of_pair ‹_› ?_
    | apply Later.ite_fst
    | apply State.response_later
    | apply State.sessionLevel_later
    | apply State.resetUncert_later
    | apply State.setCount_later
    | apply State.hankWrite_later
    | apply State.tileWrite_later
    | apply State.clearChannel_later
    | apply State.clearBank_later
    | apply State.commitLoop_later
    | apply State.modDict_later
    | apply State.coefWrite_later
    | apply State.clearOutput_later
    | apply State.clearLoad_later
    | apply State.clearLastWord_later
    | apply State.clearFaults_later
    | apply State.cardingCommand_later
    | apply State.lifecycle_later
    | apply State.protectedKey_later
    | apply State.imageCommand_later
    | apply State.imageChunk_later
    | apply State.stateCommand_later
    | apply State.discardStaged_later
    | apply Later.ite

end Sys2Proof.Machine
end

