-- ==== Sys2Proof/Laws/LaterDict.lean ====
section
/-! SUPPORT. What no operation of Dict.lean undoes: each moves the state Later. -/


namespace Sys2Proof.Machine

theorem State.keepOld_later {r0 : State} (s : State) (idx : Nat) (sub : Nat) (hL : Later r0 s) : Later r0 (State.keepOld s idx sub) := by
  unfold State.keepOld
  repeat' with_reducible first
    | assumption
    | (extract_lets +onlyGivenNames a; clear_value a)
    | apply State.modDict_later
    | apply Later.ite

theorem State.storeValue_later {r0 : State} (s : State) (d : Desc) (idx : Nat) (sub : Nat) (v : Bytes) (hL : Later r0 s) : Later r0 (State.storeValue s d idx sub v) := by
  unfold State.storeValue
  repeat' with_reducible first
    | assumption
    | (extract_lets +onlyGivenNames a; refine Later.cut (r := r0) a ?_ ?_; (on_goal 2 => intro _; clear_value a); (on_goal 1 => subst a))
    | (extract_lets +onlyGivenNames a; clear_value a)
    | apply State.modDict_later
    | apply State.keepOld_later
    | apply Later.ite

theorem State.gptpEnable_later {r0 : State} (s : State) (hL : Later r0 s) : Later r0 (State.gptpEnable s) := by
  unfold State.gptpEnable
  repeat' with_reducible first
    | assumption
    | (extract_lets +onlyGivenNames a; refine Later.cut (r := r0) a ?_ ?_; (on_goal 2 => intro _; clear_value a); (on_goal 1 => subst a))
    | (extract_lets +onlyGivenNames a; clear_value a)
    | apply State.noteGoverning_later
    | apply Later.ite
    | fail_if_no_progress apply Later.upd
    | fail_if_no_progress apply Later.upd_mem
    | fail_if_no_progress apply Later.upd_it
    | split

theorem State.isoDisable_later {r0 : State} (s : State) (hL : Later r0 s) : Later r0 (State.isoDisable s) := 
  ⟨hL.it, hL.mem, hL.queue, hL.roll, hL.key, hL.life, hL.legal⟩

theorem State.beforeWrite_later {r0 : State} (s : State) (idx : Nat) (sub : Nat) (hL : Later r0 s) : Later r0 (State.beforeWrite s idx sub) := by
  unfold State.beforeWrite
  repeat' with_reducible first
    | assumption
    | (extract_lets +onlyGivenNames a; refine Later.cut (r := r0) a ?_ ?_; (on_goal 2 => intro _; clear_value a); (on_goal 1 => subst a))
    | (extract_lets +onlyGivenNames a; clear_value a)
    | apply State.foldSlew_later
    | apply Later.ite
    | fail_if_no_progress apply Later.upd
    | fail_if_no_progress apply Later.upd_mem
    | fail_if_no_progress apply Later.upd_it
    | split

theorem State.writeEffect_later {r0 : State} (s : State) (idx : Nat) (sub : Nat) (was : Bytes) (v : Bytes) (hL : Later r0 s) : Later r0 (State.writeEffect s idx sub was v) := by
  unfold State.writeEffect
  repeat' with_reducible first
    | assumption
    | (extract_lets +onlyGivenNames a; clear_value a)
    | apply State.modSkein_later
    | apply State.modDis_later
    | apply State.modDict_later
    | apply State.modCard_later
    | apply State.poolNote_later
    | apply State.modRate_later
    | apply State.gptpEnable_later
    | apply State.isoDisable_later
    | apply State.modeSet_later
    | apply State.hallSet_later
    | apply State.modeWritten_later
    | apply State.limitsWritten_later
    | apply State.coefWrite_later
    | apply State.spinParam_later
    | apply State.spinLead_later
    | apply State.spinDest_later
    | apply State.bridgeWritten_later
    | apply State.commutate_later
    | apply State.conveyorClose_later
    | apply State.noteGoverning_later
    | apply State.spinsFollow_later
    | apply State.loadsFollow_later
    | apply State.ldFollow_later
    | exact Nat.le_refl _
    | exact fun _ h => h
    | exact fun h => h
    | apply Later.ite

theorem State.noteRefusal_later {r0 : State} (s : State) (idx : Nat) (sub : Nat) (code : Nat) (off : Nat) (hL : Later r0 s) : Later r0 (State.noteRefusal s idx sub code off) := 
  ⟨hL.it, hL.mem, hL.queue, hL.roll, hL.key, hL.life, hL.legal⟩

theorem State.refuseWrite_later {r0 : State} (s : State) (idx : Nat) (sub : Nat) (code : Nat) (off : Nat) (hL : Later r0 s) : Later r0 (State.refuseWrite s idx sub code off).s := 
  ⟨hL.it, hL.mem, hL.queue, hL.roll, hL.key, hL.life, hL.legal⟩

theorem State.acceptWrite_later {r0 : State} (s : State) (raised : Bool) (eff : IT) (hL : Later r0 s) : Later r0 (State.acceptWrite s raised eff).s := by
  unfold State.acceptWrite
  repeat' with_reducible first
    | assumption
    | (extract_lets +onlyGivenNames a; refine Later.cut (r := r0) a ?_ ?_; (on_goal 2 => intro _; clear_value a); (on_goal 1 => subst a))
    | (extract_lets +onlyGivenNames a; clear_value a)
    | refine Later.of_pair ‹_› ?_
    | apply Later.ite_fst
    | apply State.modDict_later
    | apply Later.ite
    | fail_if_no_progress apply Later.upd

theorem State.performWrite_later {r0 : State} (s : State) (who : SessionId) (lvl : Nat) (idx : Nat) (sub : Nat) (v : Bytes) (hL : Later r0 s) : Later r0 (State.performWrite s who lvl idx sub v).s := by
  unfold State.performWrite
  dsimp only
  repeat' with_reducible first
    | assumption
    | refine Later.of_pair ‹_› ?_
    | apply Later.ite_fst
    | apply State.refuseWrite_later
    | apply State.writeCommand_later
    | apply State.acceptWrite_later
    | apply State.writeEffect_later
    | apply State.storeValue_later
    | apply State.beforeWrite_later
    | apply Later.ite
    | fail_if_no_progress apply Later.upd
    | fail_if_no_progress apply Later.upd_mem
    | fail_if_no_progress apply Later.upd_it
    | split

theorem State.noteCommit_later {r0 : State} (s : State) (r : CommitResult) (hL : Later r0 s) : Later r0 (State.noteCommit s r) := by
  unfold State.noteCommit
  repeat' with_reducible first
    | assumption
    | (extract_lets +onlyGivenNames a; refine Later.cut (r := r0) a ?_ ?_; (on_goal 2 => intro _; clear_value a); (on_goal 1 => subst a))
    | apply State.modDict_later
    | apply State.noteRefusal_later
    | apply Later.ite

theorem State.acceptCommit_later {r0 : State} (s : State) (who : Option (SessionId × Nat × Nat)) (hL : Later r0 s) : Later r0 (State.acceptCommit s who) := 
  ⟨hL.it, hL.mem, hL.queue, hL.roll, hL.key, hL.life, hL.legal⟩

theorem State.newClaim_later {r0 : State} (s : State) (hL : Later r0 s) : Later r0 (State.newClaim s) := by
  unfold State.newClaim
  repeat' with_reducible first
    | assumption
    | (extract_lets +onlyGivenNames a; clear_value a)
    | apply State.claimMessage_later
    | apply Later.ite
    | fail_if_no_progress apply Later.upd

theorem State.tpMessage_later {r0 : State} (s : State) (ext : Bool) (partner : Nat) (control : Nat) (b : Bytes) (pgn : Nat) (hL : Later r0 s) : Later r0 (State.tpMessage s ext partner control b pgn) := by
  unfold State.tpMessage
  repeat' with_reducible first
    | assumption
    | (extract_lets +onlyGivenNames a; refine Later.cut (r := r0) a ?_ ?_; (on_goal 2 => intro _; clear_value a); (on_goal 1 => subst a))
    | (extract_lets +onlyGivenNames a; clear_value a)
    | apply State.send_later
    | apply Later.ite
    | fail_if_no_progress apply Later.upd
    | fail_if_no_progress apply Later.upd_mem
    | fail_if_no_progress apply Later.upd_it
    | split

theorem State.uploadPool_later {r0 : State} (s : State) (hL : Later r0 s) : Later r0 (State.uploadPool s) := by
  unfold State.uploadPool
  repeat' with_reducible first
    | assumption
    | (extract_lets +onlyGivenNames a; refine Later.cut (r := r0) a ?_ ?_; (on_goal 2 => intro _; clear_value a); (on_goal 1 => subst a))
    | (extract_lets +onlyGivenNames a; clear_value a)
    | apply State.draw_later
    | apply State.tpMessage_later
    | apply Later.ite
    | fail_if_no_progress apply Later.upd

theorem State.toTc_later {r0 : State} (s : State) (b : Bytes) (hL : Later r0 s) : Later r0 (State.toTc s b) := by
  unfold State.toTc
  repeat' with_reducible first
    | assumption
    | apply State.draw_later
    | apply State.send_later

theorem State.newLabel_later {r0 : State} (s : State) (digest : Bytes) (hL : Later r0 s) : Later r0 (State.newLabel s digest) := by
  unfold State.newLabel
  repeat' with_reducible first
    | assumption
    | (extract_lets +onlyGivenNames a; refine Later.cut (r := r0) a ?_ ?_; (on_goal 2 => intro _; clear_value a); (on_goal 1 => subst a))
    | (extract_lets +onlyGivenNames a; clear_value a)
    | apply State.toTc_later
    | apply State.uploadPool_later
    | apply Later.ite
    | fail_if_no_progress apply Later.upd

theorem State.useStaged_later {r0 : State} (s : State) (w : CommitWait) (hL : Later r0 s) : Later r0 (State.useStaged s w) := 
  ⟨hL.it, hL.mem, hL.queue, hL.roll, hL.key, hL.life, hL.legal⟩

theorem State.afterCommit_later {r0 : State} (s : State) (before : Dict) (w : CommitWait) (hL : Later r0 s) : Later r0 (State.afterCommit s before w) := by
  unfold State.afterCommit
  repeat' with_reducible first
    | assumption
    | (extract_lets +onlyGivenNames a; refine Later.cut (r := r0) a ?_ ?_; (on_goal 2 => intro _; clear_value a); (on_goal 1 => subst a))
    | apply State.gratuitousArp_later
    | apply State.newClaim_later
    | apply State.gptpEnable_later
    | apply State.conveyorClose_later
    | apply State.loadsOff_later
    | apply State.newLabel_later
    | apply State.spinsCommit_later
    | apply Later.ite

theorem State.commitEffect_later {r0 : State} (s : State) (w : CommitWait) (hL : Later r0 s) : Later r0 (State.commitEffect s w) := by
  unfold State.commitEffect
  repeat' with_reducible first
    | assumption
    | (extract_lets +onlyGivenNames a; refine Later.cut (r := r0) a ?_ ?_; (on_goal 2 => intro _; clear_value a); (on_goal 1 => subst a))
    | (extract_lets +onlyGivenNames a; clear_value a)
    | apply State.at_later
    | apply State.afterCommit_later
    | apply State.noteLoad_later
    | apply State.useStaged_later
    | apply State.modDict_later
    | apply State.enterReady_later
    | apply State.enterSafe_later
    | apply Later.ite

theorem State.applyEntries_later {r0 : State} (s : State) (who : SessionId) (lvl : Nat) (a3 : List (Nat × Nat × Bytes)) (a4 : Nat) (hL : Later r0 s) : Later r0 (State.applyEntries s who lvl a3 a4).1 := by
  induction a3 generalizing s a4 with
  | nil => exact hL
  | cons p rest ih =>
    obtain ⟨idx, sub, v⟩ := p
    unfold State.applyEntries
    extract_lets w
    have h : Later r0 w.s := by
      subst w
      split
      · exact State.refuseWrite_later _ _ _ _ _ hL
      · exact State.performWrite_later _ _ _ _ _ _ hL
    clear_value w
    split
    · exact ih _ _ h
    · exact h

theorem State.imageCommit_later {r0 : State} (s : State) (lvl : Nat) (n : Nat) (digest : Bytes) (hL : Later r0 s) : Later r0 (State.imageCommit s lvl n digest) := by
  unfold State.imageCommit
  repeat' with_reducible first
    | assumption
    | (extract_lets +onlyGivenNames a; clear_value a)
    | apply State.modDict_later
    | apply State.acceptCommit_later
    | apply State.noteCommit_later
    | apply Later.ite

theorem State.imageApply_later {r0 : State} (s : State) (who : SessionId) (lvl : Nat) (b : Bytes) (l : List (Nat × Nat × Bytes)) (hL : Later r0 s) : Later r0 (State.imageApply s who lvl b l) := by
  unfold State.imageApply
  repeat' with_reducible first
    | assumption
    | (extract_lets +onlyGivenNames a; refine Later.cut (r := r0) a ?_ ?_; (on_goal 2 => intro _; clear_value a); (on_goal 1 => subst a))
    | (extract_lets +onlyGivenNames a; refine Later.cut (r := r0) a.1 ?_ ?_; (on_goal 2 => intro _; clear_value a); (on_goal 1 => subst a))
    | (extract_lets +onlyGivenNames a; refine Later.cut (r := r0) a.s ?_ ?_; (on_goal 2 => intro _; clear_value a); (on_goal 1 => subst a))
    | (extract_lets +onlyGivenNames a; clear_value a)
    | refine Later.of_pair ‹_› ?_
    | apply Later.ite_fst
    | apply State.discardStaged_later
    | apply State.applyEntries_later
    | apply State.modDict_later
    | apply State.imageCommit_later
    | apply Later.ite
    | fail_if_no_progress apply Later.upd
    | fail_if_no_progress apply Later.upd_mem
    | fail_if_no_progress apply Later.upd_it
    | split

theorem State.configImage_later {r0 : State} (s : State) (who : SessionId) (lvl : Nat) (b : Bytes) (hL : Later r0 s) : Later r0 (State.configImage s who lvl b).s := by
  unfold State.configImage
  repeat' with_reducible first
    | assumption
    | (extract_lets +onlyGivenNames a; refine Later.cut (r := r0) a ?_ ?_; (on_goal 2 => intro _; clear_value a); (on_goal 1 => subst a))
    | refine Later.of_pair ‹_› ?_
    | apply Later.ite_fst
    | apply State.refuseWrite_later
    | apply State.modDict_later
    | apply State.acceptWrite_later
    | apply State.imageApply_later
    | apply Later.ite
    | fail_if_no_progress apply Later.upd
    | fail_if_no_progress apply Later.upd_mem
    | fail_if_no_progress apply Later.upd_it
    | split

theorem State.writeAny_later {r0 : State} (s : State) (who : SessionId) (lvl : Nat) (idx : Nat) (sub : Nat) (v : Bytes) (hL : Later r0 s) : Later r0 (State.writeAny s who lvl idx sub v).s := by
  unfold State.writeAny
  repeat' with_reducible first
    | assumption
    | (extract_lets +onlyGivenNames a; clear_value a)
    | refine Later.of_pair ‹_› ?_
    | apply Later.ite_fst
    | apply State.refuseWrite_later
    | apply State.configImage_later
    | apply State.performWrite_later
    | apply Later.ite
    | fail_if_no_progress apply Later.upd
    | fail_if_no_progress apply Later.upd_mem
    | fail_if_no_progress apply Later.upd_it
    | split

theorem execDigestRecheck_later {r0 : State} (t : IT) (found : Bytes) (s : State) (hL : Later r0 s) : ∃ s', execDigestRecheck t found s = .next s' ∧ Later r0 s' := by
  unfold execDigestRecheck
  refine ⟨_, rfl, ?_⟩
  repeat' with_reducible first
    | assumption
    | (extract_lets +onlyGivenNames a; refine Later.cut (r := r0) a ?_ ?_; (on_goal 2 => intro _; clear_value a); (on_goal 1 => subst a))
    | apply State.whenAwake_later
    | apply State.at_later
    | apply State.modDict_later
    | apply State.report_later
    | apply Later.ite
    | fail_if_no_progress apply Later.upd
    | fail_if_no_progress apply Later.upd_mem
    | fail_if_no_progress apply Later.upd_it
    | intro _ _

end Sys2Proof.Machine
end

