-- ==== Sys2Proof/Laws/LaterPagrim.lean ====
section
/-! SUPPORT. What no operation of Pagrim.lean undoes: each moves the state Later. -/


namespace Sys2Proof.Machine

theorem State.frameCount_later {r0 : State} (s : State) (i : Nat) (hL : Later r0 s) : Later r0 (State.frameCount s i) := 
  ⟨hL.it, hL.mem, hL.queue, hL.roll, hL.key, hL.life, hL.legal⟩

theorem State.heard_later {r0 : State} (s : State) (n : Net) (hL : Later r0 s) : Later r0 (State.heard s n) := 
  ⟨hL.it, hL.mem, hL.queue, hL.roll, hL.key, hL.life, hL.legal⟩

theorem State.modSession_later {r0 : State} (s : State) (i : SessionId) (f : Session → Session) (hL : Later r0 s) : Later r0 (State.modSession s i f) := 
  ⟨hL.it, hL.mem, hL.queue, hL.roll, hL.key, hL.life, hL.legal⟩

theorem State.answer_later {r0 : State} (s : State) (r : Req) (service : Nat) (idx : Nat) (sub : Nat) (reply : Bytes) (hL : Later r0 s) : Later r0 (State.answer s r service idx sub reply) := by
  unfold State.answer
  repeat' with_reducible first
    | assumption
    | apply State.send_later
    | apply Later.ite

theorem State.remember_later {r0 : State} (s : State) (r : Req) (reply : Bytes) (hL : Later r0 s) : Later r0 (State.remember s r reply) := 
  ⟨hL.it, hL.mem, hL.queue, hL.roll, hL.key, hL.life, hL.legal⟩

theorem State.execute_later {r0 : State} (s : State) (r : Req) (x : Session) (service : Nat) (idx : Nat) (sub : Nat)
    (f : State → Session → State × Bytes) (hL : Later r0 s) (k : ∀ s x, Later r0 s → Later r0 (f s x).1) :
    Later r0 (State.execute s r x service idx sub f) := by
  unfold State.execute
  exact State.answer_later _ _ _ _ _ _ (State.remember_later _ _ _ (k s x hL))

theorem State.serve_later {r0 : State} (s : State) (r : Req) (service : Nat) (idx : Nat) (sub : Nat)
    (f : State → Session → State × Bytes) (hL : Later r0 s) (k : ∀ s x, Later r0 s → Later r0 (f s x).1) :
    Later r0 (State.serve s r service idx sub f) := by
  unfold State.serve
  repeat' with_reducible first
    | assumption
    | exact k
    | (extract_lets +onlyGivenNames a; refine Later.cut (r := r0) a ?_ ?_; (on_goal 2 => intro _; clear_value a); (on_goal 1 => subst a))
    | refine Later.of_pair ‹_› ?_
    | apply Later.ite_fst
    | apply State.execute_later
    | apply State.answer_later
    | apply State.frameCount_later
    | apply State.heard_later
    | apply State.at_later
    | apply Later.ite
    | fail_if_no_progress apply Later.upd
    | fail_if_no_progress apply Later.upd_mem
    | fail_if_no_progress apply Later.upd_it
    | split

theorem State.discardFrame_later {r0 : State} (s : State) (n : Net) (t : IT) (counter : Nat) (hL : Later r0 s) : Later r0 (State.discardFrame s n t counter) := by
  unfold State.discardFrame
  repeat' with_reducible first
    | assumption
    | apply State.frameCount_later
    | apply State.heard_later
    | apply State.at_later
    | apply Later.ite

theorem State.readBefore_later {r0 : State} (s : State) (idx : Nat) (sub : Nat) (hL : Later r0 s) : Later r0 (State.readBefore s idx sub) := by
  unfold State.readBefore
  repeat' with_reducible first
    | assumption
    | apply State.issueChallenge_later
    | apply Later.ite

theorem State.readAfter_later {r0 : State} (s : State) (idx : Nat) (sub : Nat) (v : Bytes) (hL : Later r0 s) : Later r0 (State.readAfter s idx sub v) := by
  unfold State.readAfter
  repeat' with_reducible first
    | assumption
    | (extract_lets +onlyGivenNames a; clear_value a)
    | apply State.exportAdvance_later
    | apply State.draw_later
    | apply State.modSkein_later
    | apply State.skeinCount_later
    | apply State.modCard_later
    | apply State.modDict_later
    | exact Nat.le_refl _
    | exact fun _ h => h
    | exact fun h => h
    | apply Later.ite

theorem State.takeValue_later {r0 : State} (s : State) (lvl : Nat) (idx : Nat) (sub : Nat) (room : Nat) (hL : Later r0 s) : Later r0 (State.takeValue s lvl idx sub room).1 := by
  unfold State.takeValue
  repeat' with_reducible first
    | assumption
    | (extract_lets +onlyGivenNames a; refine Later.cut (r := r0) a ?_ ?_; (on_goal 2 => intro _; clear_value a); (on_goal 1 => subst a))
    | refine Later.of_pair ‹_› ?_
    | apply Later.ite_fst
    | apply State.noteRefusal_later
    | apply State.readBefore_later
    | apply State.readAfter_later
    | apply Later.ite
    | fail_if_no_progress apply Later.upd
    | fail_if_no_progress apply Later.upd_mem
    | fail_if_no_progress apply Later.upd_it
    | split

theorem State.read_later {r0 : State} (s : State) (r : Req) (idx : Nat) (sub : Nat) (hL : Later r0 s) : Later r0 (State.read s r idx sub) := by
  unfold State.read
  repeat' with_reducible first
    | assumption
    | refine Later.of_pair ‹_› ?_
    | apply Later.ite_fst
    | apply State.serve_later
    | apply State.takeValue_later
    | apply Later.ite
    | fail_if_no_progress apply Later.upd
    | fail_if_no_progress apply Later.upd_mem
    | fail_if_no_progress apply Later.upd_it
    | intro _ _ _
    | split

theorem State.blockRead_later {r0 : State} (s : State) (r : Req) (idx : Nat) (sub : Nat) (off : Nat) (hL : Later r0 s) : Later r0 (State.blockRead s r idx sub off) := by
  unfold State.blockRead
  repeat' with_reducible first
    | assumption
    | (extract_lets +onlyGivenNames a; refine Later.cut (r := r0) a ?_ ?_; (on_goal 2 => intro _; clear_value a); (on_goal 1 => subst a))
    | (extract_lets +onlyGivenNames a; clear_value a)
    | refine Later.of_pair ‹_› ?_
    | apply Later.ite_fst
    | apply State.serve_later
    | apply State.modSession_later
    | apply State.takeValue_later
    | apply State.noteRefusal_later
    | apply Later.ite
    | fail_if_no_progress apply Later.upd
    | fail_if_no_progress apply Later.upd_mem
    | fail_if_no_progress apply Later.upd_it
    | intro _ _ _
    | split

theorem State.hostWrite_later {r0 : State} (s : State) (r : Req) (idx : Nat) (sub : Nat) (v : Bytes) (hL : Later r0 s) : Later r0 (State.hostWrite s r idx sub v) := by
  unfold State.hostWrite
  repeat' with_reducible first
    | assumption
    | (extract_lets +onlyGivenNames a; refine Later.cut (r := r0) a.1 ?_ ?_; (on_goal 2 => intro _; clear_value a); (on_goal 1 => subst a))
    | (extract_lets +onlyGivenNames a; clear_value a)
    | refine Later.of_pair ‹_› ?_
    | apply Later.ite_fst
    | apply State.serve_later
    | apply State.writeAny_later
    | apply Later.ite
    | fail_if_no_progress apply Later.upd
    | fail_if_no_progress apply Later.upd_mem
    | fail_if_no_progress apply Later.upd_it
    | intro _ _ _

theorem State.writeFrame_later {r0 : State} (s : State) (r : Req) (idx : Nat) (sub : Nat) (v : Bytes) (hL : Later r0 s) : Later r0 (State.writeFrame s r idx sub v) := by
  unfold State.writeFrame
  repeat' with_reducible first
    | assumption
    | apply State.discardFrame_later
    | apply State.hostWrite_later
    | apply Later.ite

theorem State.segmentRefused_later {r0 : State} (s : State) (idx : Nat) (sub : Nat) (code : Nat) (hL : Later r0 s) : Later r0 (State.segmentRefused s idx sub code).1 := 
  ⟨hL.it, hL.mem, hL.queue, hL.roll, hL.key, hL.life, hL.legal⟩

theorem State.segment_later {r0 : State} (s : State) (r : Req) (x : Session) (b : BlockWrite) (hL : Later r0 s) : Later r0 (State.segment s r x b).1 := by
  unfold State.segment
  dsimp only
  repeat' with_reducible first
    | assumption
    | refine Later.of_pair ‹_› ?_
    | apply Later.ite_fst
    | apply State.modSession_later
    | apply State.segmentRefused_later
    | apply State.writeAny_later

theorem State.blockWrite_later {r0 : State} (s : State) (r : Req) (idx : Nat) (sub : Nat) (off : Nat) (total : Nat) (data : Bytes) (hL : Later r0 s) : Later r0 (State.blockWrite s r idx sub off total data) := by
  unfold State.blockWrite
  repeat' with_reducible first
    | assumption
    | refine Later.of_pair ‹_› ?_
    | apply Later.ite_fst
    | apply State.discardFrame_later
    | apply State.serve_later
    | apply State.modSession_later
    | apply State.segmentRefused_later
    | apply State.segment_later
    | apply Later.ite
    | fail_if_no_progress apply Later.upd
    | fail_if_no_progress apply Later.upd_mem
    | fail_if_no_progress apply Later.upd_it
    | intro _ _ _
    | split

theorem execBlockWriteTimeout_later {r0 : State} (sid : SessionId) (s : State) (hL : Later r0 s) : ∃ s', execBlockWriteTimeout sid s = .next s' ∧ Later r0 s' := by
  unfold execBlockWriteTimeout
  refine ⟨_, rfl, ?_⟩
  repeat' with_reducible first
    | assumption
    | apply State.modSession_later
    | apply State.at_later
    | apply Later.ite
    | fail_if_no_progress apply Later.upd
    | fail_if_no_progress apply Later.upd_mem
    | fail_if_no_progress apply Later.upd_it
    | split

theorem execBlockReadSnapshotExpiry_later {r0 : State} (sid : SessionId) (s : State) (hL : Later r0 s) : ∃ s', execBlockReadSnapshotExpiry sid s = .next s' ∧ Later r0 s' := by
  unfold execBlockReadSnapshotExpiry
  refine ⟨_, rfl, ?_⟩
  repeat' with_reducible first
    | assumption
    | apply State.modSession_later
    | apply State.at_later
    | apply Later.ite
    | fail_if_no_progress apply Later.upd
    | fail_if_no_progress apply Later.upd_mem
    | fail_if_no_progress apply Later.upd_it
    | split

theorem State.commitRequest_later {r0 : State} (s : State) (r : Req) (p : Bytes) (hL : Later r0 s) : Later r0 (State.commitRequest s r p) := by
  unfold State.commitRequest
  repeat' with_reducible first
    | assumption
    | (extract_lets +onlyGivenNames a; clear_value a)
    | refine Later.of_pair ‹_› ?_
    | apply Later.ite_fst
    | apply State.serve_later
    | apply State.acceptCommit_later
    | apply State.noteCommit_later
    | apply Later.ite
    | fail_if_no_progress apply Later.upd
    | fail_if_no_progress apply Later.upd_mem
    | fail_if_no_progress apply Later.upd_it
    | intro _ _ _

theorem State.commitAnswer_later {r0 : State} (s : State) (w : CommitWait) (hL : Later r0 s) : Later r0 (State.commitAnswer s w) := by
  unfold State.commitAnswer
  repeat' with_reducible first
    | assumption
    | (extract_lets +onlyGivenNames a; refine Later.cut (r := r0) a ?_ ?_; (on_goal 2 => intro _; clear_value a); (on_goal 1 => subst a))
    | (extract_lets +onlyGivenNames a; clear_value a)
    | apply State.modSession_later
    | apply State.answer_later
    | apply Later.ite
    | fail_if_no_progress apply Later.upd
    | fail_if_no_progress apply Later.upd_mem
    | fail_if_no_progress apply Later.upd_it
    | split

theorem State.commitBoundary_later {r0 : State} (s : State) (hL : Later r0 s) : Later r0 (State.commitBoundary s) := by
  unfold State.commitBoundary
  repeat' with_reducible first
    | assumption
    | apply State.commitAnswer_later
    | apply State.commitEffect_later
    | apply Later.ite
    | fail_if_no_progress apply Later.upd
    | fail_if_no_progress apply Later.upd_mem
    | fail_if_no_progress apply Later.upd_it
    | split

theorem execCommitBoundary_later {r0 : State} (s : State) (hL : Later r0 s) : ∃ s', execCommitBoundary s = .next s' ∧ Later r0 s' := by
  unfold execCommitBoundary
  refine ⟨_, rfl, ?_⟩
  repeat' with_reducible first
    | assumption
    | apply State.commitBoundary_later

theorem State.loseControl_later {r0 : State} (s : State) (hL : Later r0 s) : Later r0 (State.loseControl s) := by
  unfold State.loseControl
  repeat' with_reducible first
    | assumption
    | (extract_lets +onlyGivenNames a; refine Later.cut (r := r0) a ?_ ?_; (on_goal 2 => intro _; clear_value a); (on_goal 1 => subst a))
    | (extract_lets +onlyGivenNames a; clear_value a)
    | apply State.sessionLevel_later
    | apply State.report_later
    | apply State.frameCount_later
    | apply State.modSup_later
    | apply Later.ite
    | fail_if_no_progress apply Later.upd
    | fail_if_no_progress apply Later.upd_mem
    | fail_if_no_progress apply Later.upd_it
    | split

theorem State.endSession_later {r0 : State} (s : State) (i : SessionId) (hL : Later r0 s) : Later r0 (State.endSession s i) := by
  unfold State.endSession
  repeat' with_reducible first
    | assumption
    | (extract_lets +onlyGivenNames a; refine Later.cut (r := r0) a ?_ ?_; (on_goal 2 => intro _; clear_value a); (on_goal 1 => subst a))
    | (extract_lets +onlyGivenNames a; clear_value a)
    | apply State.loseControl_later
    | apply Later.ite
    | fail_if_no_progress apply Later.upd

theorem State.control_later {r0 : State} (s : State) (i : SessionId) (ctl : Bool) (rel : Bool) (hL : Later r0 s) : Later r0 (State.control s i ctl rel) := by
  unfold State.control
  repeat' with_reducible first
    | assumption
    | (extract_lets +onlyGivenNames a; refine Later.cut (r := r0) a ?_ ?_; (on_goal 2 => intro _; clear_value a); (on_goal 1 => subst a))
    | (extract_lets +onlyGivenNames a; clear_value a)
    | apply State.loseControl_later
    | apply State.modSup_later
    | apply State.sessionLevel_later
    | apply Later.ite
    | fail_if_no_progress apply Later.upd

theorem State.hostBeat_later {r0 : State} (s : State) (sid : SessionId) (payload : Bytes) (t : IT) (hL : Later r0 s) : Later r0 (State.hostBeat s sid payload t) := by
  unfold State.hostBeat
  repeat' with_reducible first
    | assumption
    | (extract_lets +onlyGivenNames a; refine Later.cut (r := r0) a ?_ ?_; (on_goal 2 => intro _; clear_value a); (on_goal 1 => subst a))
    | (extract_lets +onlyGivenNames a; clear_value a)
    | apply State.heard_later
    | apply State.at_later
    | apply State.frameCount_later
    | apply State.modSession_later
    | apply State.control_later
    | apply Later.ite
    | fail_if_no_progress apply Later.upd
    | fail_if_no_progress apply Later.upd_mem
    | fail_if_no_progress apply Later.upd_it
    | split

theorem execHostHeartbeat_later {r0 : State} (sid : SessionId) (payload : Bytes) (t : IT) (s : State) (hL : Later r0 s) : ∃ s', execHostHeartbeat sid payload t s = .next s' ∧ Later r0 s' := by
  unfold execHostHeartbeat
  refine ⟨_, rfl, ?_⟩
  repeat' with_reducible first
    | assumption
    | (extract_lets +onlyGivenNames a; refine Later.cut (r := r0) a ?_ ?_; (on_goal 2 => intro _; clear_value a); (on_goal 1 => subst a))
    | (extract_lets +onlyGivenNames a; clear_value a)
    | apply State.hostBeat_later
    | apply Later.ite
    | fail_if_no_progress apply Later.upd

theorem execSessionTimeout_later {r0 : State} (sid : SessionId) (s : State) (hL : Later r0 s) : ∃ s', execSessionTimeout sid s = .next s' ∧ Later r0 s' := by
  unfold execSessionTimeout
  refine ⟨_, rfl, ?_⟩
  repeat' with_reducible first
    | assumption
    | apply State.endSession_later
    | apply State.at_later
    | apply Later.ite
    | fail_if_no_progress apply Later.upd
    | fail_if_no_progress apply Later.upd_mem
    | fail_if_no_progress apply Later.upd_it
    | split

theorem execDeviceHeartbeat_later {r0 : State} (net : Option Net) (t : IT) (s : State) (hL : Later r0 s) : ∃ s', execDeviceHeartbeat net t s = .next s' ∧ Later r0 s' := by
  unfold execDeviceHeartbeat
  dsimp only
  refine ⟨_, rfl, ?_⟩
  repeat' with_reducible first
    | assumption
    | apply State.whenAwake_later
    | apply State.at_later
    | apply State.sendBeat_later
    | apply State.beatSent_later
    | apply State.send_later
    | apply Later.ite
    | fail_if_no_progress apply Later.upd
    | fail_if_no_progress apply Later.upd_mem
    | fail_if_no_progress apply Later.upd_it
    | intro _ _
    | split

theorem State.timeRequest_later {r0 : State} (s : State) (r : Req) (p : Bytes) (hL : Later r0 s) : Later r0 (State.timeRequest s r p) := by
  unfold State.timeRequest
  repeat' with_reducible first
    | assumption
    | refine Later.of_pair ‹_› ?_
    | apply Later.ite_fst
    | apply State.discardFrame_later
    | apply State.serve_later
    | apply State.timeServe_later
    | apply Later.ite
    | fail_if_no_progress apply Later.upd
    | fail_if_no_progress apply Later.upd_mem
    | fail_if_no_progress apply Later.upd_it
    | intro _ _ _

theorem execRaisedLevelTimeout_later {r0 : State} (s : State) (hL : Later r0 s) : ∃ s', execRaisedLevelTimeout s = .next s' ∧ Later r0 s' := by
  unfold execRaisedLevelTimeout
  refine ⟨_, rfl, ?_⟩
  repeat' with_reducible first
    | assumption
    | apply State.sessionLevel_later
    | apply State.at_later
    | apply Later.ite
    | fail_if_no_progress apply Later.upd
    | fail_if_no_progress apply Later.upd_mem
    | fail_if_no_progress apply Later.upd_it
    | split

theorem execChallengeLockoutEnd_later {r0 : State} (s : State) (hL : Later r0 s) : ∃ s', execChallengeLockoutEnd s = .next s' ∧ Later r0 s' := by
  unfold execChallengeLockoutEnd
  refine ⟨_, rfl, ?_⟩
  repeat' with_reducible first
    | assumption
    | (extract_lets +onlyGivenNames a; refine Later.cut (r := r0) a ?_ ?_; (on_goal 2 => intro _; clear_value a); (on_goal 1 => subst a))
    | (extract_lets +onlyGivenNames a; clear_value a)
    | apply State.at_later
    | apply Later.ite
    | fail_if_no_progress apply Later.upd
    | fail_if_no_progress apply Later.upd_mem
    | fail_if_no_progress apply Later.upd_it
    | split

theorem State.receive_later {r0 : State} (s : State) (n : Net) (addr : Nat) (port : Nat) (b : Bytes) (hL : Later r0 s) : Later r0 (State.receive s n addr port b) := by
  unfold State.receive
  repeat' with_reducible first
    | assumption
    | (extract_lets +onlyGivenNames a; refine Later.cut (r := r0) a ?_ ?_; (on_goal 2 => intro _; clear_value a); (on_goal 1 => subst a))
    | (extract_lets +onlyGivenNames a; clear_value a)
    | apply State.discardFrame_later
    | apply State.read_later
    | apply State.writeFrame_later
    | apply State.blockRead_later
    | apply State.blockWrite_later
    | apply State.commitRequest_later
    | apply State.hostBeat_later
    | apply State.timeRequest_later
    | apply Later.ite
    | fail_if_no_progress apply Later.upd
    | fail_if_no_progress apply Later.upd_mem
    | fail_if_no_progress apply Later.upd_it
    | split

theorem State.ethDiscard_later {r0 : State} (s : State) (hL : Later r0 s) : Later r0 (State.ethDiscard s) := 
  ⟨hL.it, hL.mem, hL.queue, hL.roll, hL.key, hL.life, hL.legal⟩

theorem execPagrimFrameDiscard_later {r0 : State} (net : Net) (f : RxFrame) (s : State) (hL : Later r0 s) : ∃ s', execPagrimFrameDiscard net f s = .next s' ∧ Later r0 s' := by
  unfold execPagrimFrameDiscard
  refine ⟨_, rfl, ?_⟩
  repeat' with_reducible first
    | assumption
    | apply State.discardFrame_later
    | apply State.receive_later
    | apply State.ethDiscard_later
    | apply Later.ite
    | fail_if_no_progress apply Later.upd
    | fail_if_no_progress apply Later.upd_mem
    | fail_if_no_progress apply Later.upd_it
    | split

end Sys2Proof.Machine
end

