-- ==== Sys2Proof/Laws/LaterNetworks.lean ====
section
/-! SUPPORT. What no operation of Networks.lean undoes: each moves the state Later. -/


namespace Sys2Proof.Machine

theorem State.setBus_later {r0 : State} (s : State) (c : Nat) (n : Nat) (hL : Later r0 s) : Later r0 (State.setBus s c n) := 
  ⟨hL.it, hL.mem, hL.queue, hL.roll, hL.key, hL.life, hL.legal⟩

theorem execCanBusOff_later {r0 : State} (c : Fin 3) (x : CanEvent) (s : State) (hL : Later r0 s) : ∃ s', execCanBusOff c x s = .next s' ∧ Later r0 s' := by
  unfold execCanBusOff
  refine ⟨_, rfl, ?_⟩
  split
  · exact hL
  · have ha := State.at_later s x.at_ hL
    split
    · exact State.setBus_later _ _ _ ha
    · exact State.setBus_later _ _ _ ha
    · exact State.setBus_later _ _ _ ha
    · exact Later.upd ha ..

theorem execBusOffRecovery_later {r0 : State} (c : Fin 3) (t : IT) (s : State) (hL : Later r0 s) : ∃ s', execBusOffRecovery c t s = .next s' ∧ Later r0 s' := by
  unfold execBusOffRecovery
  refine ⟨_, rfl, ?_⟩
  repeat' with_reducible first
    | assumption
    | (extract_lets +onlyGivenNames a; refine Later.cut (r := r0) a ?_ ?_; (on_goal 2 => intro _; clear_value a); (on_goal 1 => subst a))
    | (extract_lets +onlyGivenNames a; clear_value a)
    | apply State.whenAwake_later
    | apply State.at_later
    | apply State.setBus_later
    | apply Later.ite
    | fail_if_no_progress apply Later.upd
    | fail_if_no_progress apply Later.upd_mem
    | fail_if_no_progress apply Later.upd_it
    | intro _ _

theorem State.modEth_later {r0 : State} (s : State) (f : Eth → Eth) (hL : Later r0 s) : Later r0 (State.modEth s f) := 
  ⟨hL.it, hL.mem, hL.queue, hL.roll, hL.key, hL.life, hL.legal⟩

theorem State.ethCount_later {r0 : State} (s : State) (i : Nat) (hL : Later r0 s) : Later r0 (State.ethCount s i) := 
  ⟨hL.it, hL.mem, hL.queue, hL.roll, hL.key, hL.life, hL.legal⟩

theorem execEthLinkUp_later {r0 : State} (t : IT) (s : State) (hL : Later r0 s) : ∃ s', execEthLinkUp t s = .next s' ∧ Later r0 s' := by
  unfold execEthLinkUp
  refine ⟨_, rfl, ?_⟩
  repeat' with_reducible first
    | assumption
    | apply State.ethStart_later
    | apply State.at_later
    | apply Later.ite

theorem execEthLinkDown_later {r0 : State} (t : IT) (s : State) (hL : Later r0 s) : ∃ s', execEthLinkDown t s = .next s' ∧ Later r0 s' := by
  unfold execEthLinkDown
  refine ⟨_, rfl, ?_⟩
  repeat' with_reducible first
    | assumption
    | apply State.whenAwake_later
    | apply State.noteGoverning_later
    | apply State.modEth_later
    | apply State.at_later
    | apply Later.ite
    | fail_if_no_progress apply Later.upd
    | fail_if_no_progress apply Later.upd_mem
    | fail_if_no_progress apply Later.upd_it
    | intro _ _

theorem State.ethHeard_later {r0 : State} (s : State) (t : IT) (hL : Later r0 s) : Later r0 (State.ethHeard s t) := by
  unfold State.ethHeard
  repeat' with_reducible first
    | assumption
    | apply State.ethCount_later
    | apply State.at_later

theorem execArpRequest_later {r0 : State} (t : IT) (senderIp : Nat) (senderMac : Nat) (targetIp : Nat) (s : State) (hL : Later r0 s) : ∃ s', execArpRequest t senderIp senderMac targetIp s = .next s' ∧ Later r0 s' := by
  unfold execArpRequest
  refine ⟨_, rfl, ?_⟩
  repeat' with_reducible first
    | assumption
    | (extract_lets +onlyGivenNames a; refine Later.cut (r := r0) a ?_ ?_; (on_goal 2 => intro _; clear_value a); (on_goal 1 => subst a))
    | apply State.ethHeard_later
    | apply State.send_later
    | apply State.modEth_later
    | apply State.ethCount_later
    | apply Later.ite

theorem execArpCacheExpiry_later {r0 : State} (ip : Nat) (s : State) (hL : Later r0 s) : ∃ s', execArpCacheExpiry ip s = .next s' ∧ Later r0 s' := by
  unfold execArpCacheExpiry
  refine ⟨_, rfl, ?_⟩
  repeat' with_reducible first
    | assumption
    | apply State.whenAwake_later
    | apply State.modEth_later
    | apply State.at_later
    | apply Later.ite
    | fail_if_no_progress apply Later.upd
    | fail_if_no_progress apply Later.upd_mem
    | fail_if_no_progress apply Later.upd_it
    | intro _ _
    | split

theorem execIcmpEcho_later {r0 : State} (t : IT) (srcIp : Nat) (dstIp : Nat) (data : Bytes) (s : State) (hL : Later r0 s) : ∃ s', execIcmpEcho t srcIp dstIp data s = .next s' ∧ Later r0 s' := by
  unfold execIcmpEcho
  refine ⟨_, rfl, ?_⟩
  repeat' with_reducible first
    | assumption
    | (extract_lets +onlyGivenNames a; refine Later.cut (r := r0) a ?_ ?_; (on_goal 2 => intro _; clear_value a); (on_goal 1 => subst a))
    | apply State.ethHeard_later
    | apply State.send_later
    | apply State.ethCount_later
    | apply Later.ite

theorem State.ptpTime_later {r0 : State} (s : State) (rx : IT) (origin : Nat) (corr : Int) (hL : Later r0 s) : Later r0 (State.ptpTime s rx origin corr) := by
  unfold State.ptpTime
  repeat' with_reducible first
    | assumption
    | (extract_lets +onlyGivenNames a; refine Later.cut (r := r0) a ?_ ?_; (on_goal 2 => intro _; clear_value a); (on_goal 1 => subst a))
    | (extract_lets +onlyGivenNames a; clear_value a)
    | apply State.modEth_later
    | apply State.timeFrom_later
    | apply Later.ite

theorem State.gptpServe_later {r0 : State} (s : State) (m : GptpMsg) (hL : Later r0 s) : Later r0 (State.gptpServe s m) := by
  unfold State.gptpServe
  repeat' with_reducible first
    | assumption
    | (extract_lets +onlyGivenNames a; clear_value a)
    | apply State.noteGoverning_later
    | apply State.modEth_later
    | apply State.ethCount_later
    | apply State.ptpTime_later
    | apply State.draw_later
    | apply State.send_later
    | apply Later.ite
    | fail_if_no_progress apply Later.upd
    | fail_if_no_progress apply Later.upd_mem
    | fail_if_no_progress apply Later.upd_it
    | split

theorem execGptpMessage_later {r0 : State} (t : IT) (m : GptpMsg) (s : State) (hL : Later r0 s) : ∃ s', execGptpMessage t m s = .next s' ∧ Later r0 s' := by
  unfold execGptpMessage
  refine ⟨_, rfl, ?_⟩
  repeat' with_reducible first
    | assumption
    | (extract_lets +onlyGivenNames a; refine Later.cut (r := r0) a ?_ ?_; (on_goal 2 => intro _; clear_value a); (on_goal 1 => subst a))
    | apply State.ethHeard_later
    | apply State.gptpServe_later
    | apply State.ethCount_later
    | apply Later.ite

theorem execPeerDelayRequest_later {r0 : State} (t : IT) (s : State) (hL : Later r0 s) : ∃ s', execPeerDelayRequest t s = .next s' ∧ Later r0 s' := by
  unfold execPeerDelayRequest
  refine ⟨_, rfl, ?_⟩
  repeat' with_reducible first
    | assumption
    | (extract_lets +onlyGivenNames a; refine Later.cut (r := r0) a ?_ ?_; (on_goal 2 => intro _; clear_value a); (on_goal 1 => subst a))
    | apply State.at_later
    | apply State.modEth_later
    | apply State.send_later
    | apply Later.ite

theorem State.modIso_later {r0 : State} (s : State) (f : CanA → CanA) (hL : Later r0 s) : Later r0 (State.modIso s f) := 
  ⟨hL.it, hL.mem, hL.queue, hL.roll, hL.key, hL.life, hL.legal⟩

theorem State.claimLost_later {r0 : State} (s : State) (hL : Later r0 s) : Later r0 (State.claimLost s) := by
  unfold State.claimLost
  repeat' with_reducible first
    | assumption
    | (extract_lets +onlyGivenNames a; clear_value a)
    | apply State.claimMessage_later
    | apply State.modIso_later
    | apply Later.ite

theorem State.claimFirst_later {r0 : State} (s : State) (hL : Later r0 s) : Later r0 (State.claimFirst s) := by
  unfold State.claimFirst
  repeat' with_reducible first
    | assumption
    | apply State.claimMessage_later
    | apply State.modIso_later

theorem execAddressClaim_later {r0 : State} (t : IT) (e : ClaimEvent) (s : State) (hL : Later r0 s) : ∃ s', execAddressClaim t e s = .next s' ∧ Later r0 s' := by
  unfold execAddressClaim
  refine ⟨_, rfl, ?_⟩
  repeat' with_reducible first
    | assumption
    | (extract_lets +onlyGivenNames a; refine Later.cut (r := r0) a ?_ ?_; (on_goal 2 => intro _; clear_value a); (on_goal 1 => subst a))
    | apply State.at_later
    | apply State.claimFirst_later
    | apply State.claimMessage_later
    | apply State.claimLost_later
    | apply State.modIso_later
    | apply Later.ite
    | fail_if_no_progress apply Later.upd
    | fail_if_no_progress apply Later.upd_mem
    | fail_if_no_progress apply Later.upd_it
    | split

theorem execAddressRetry_later {r0 : State} (t : IT) (s : State) (hL : Later r0 s) : ∃ s', execAddressRetry t s = .next s' ∧ Later r0 s' := by
  unfold execAddressRetry
  refine ⟨_, rfl, ?_⟩
  repeat' with_reducible first
    | assumption
    | apply State.claimFirst_later
    | apply State.at_later
    | apply Later.ite
    | fail_if_no_progress apply Later.upd
    | fail_if_no_progress apply Later.upd_mem
    | fail_if_no_progress apply Later.upd_it
    | split

theorem State.reportDdi_later {r0 : State} (s : State) (ddi : Nat) (hL : Later r0 s) : Later r0 (State.reportDdi s ddi) := by
  unfold State.reportDdi
  repeat' with_reducible first
    | assumption
    | (extract_lets +onlyGivenNames a; refine Later.cut (r := r0) a ?_ ?_; (on_goal 2 => intro _; clear_value a); (on_goal 1 => subst a))
    | (extract_lets +onlyGivenNames a; clear_value a)
    | apply State.modIso_later
    | apply State.toTc_later

theorem State.pdNack_later {r0 : State} (s : State) (ddi : Nat) (err : Nat) (hL : Later r0 s) : Later r0 (State.pdNack s ddi err) := by
  unfold State.pdNack
  repeat' with_reducible first
    | assumption
    | apply State.toTc_later

theorem State.sectionState_later {r0 : State} (s : State) (c : Nat) (a2 : Bool) (rx : IT) (hL : Later r0 s) : Later r0 (State.sectionState s c a2 rx) := by
  unfold State.sectionState
  repeat' with_reducible first
    | assumption
    | (extract_lets +onlyGivenNames a; clear_value a)
    | apply State.modSpd_later
    | apply Later.ite

theorem State.setpoint_later {r0 : State} (s : State) (g : Nat) (w : BitVec 32) (rx : IT) (hL : Later r0 s) : Later r0 (State.setpoint s g w rx) := by
  unfold State.setpoint
  repeat' with_reducible first
    | assumption
    | apply State.modIso_later
    | apply State.sectionState_later
    | apply Later.foldl
    | apply Later.foldl_fst
    | apply Later.ite
    | fail_if_no_progress apply Later.upd
    | fail_if_no_progress apply Later.upd_mem
    | fail_if_no_progress apply Later.upd_it
    | intro _ _ _
    | split

theorem State.sectionControl_later {r0 : State} (s : State) (a1 : Bool) (rx : IT) (hL : Later r0 s) : Later r0 (State.sectionControl s a1 rx) := by
  unfold State.sectionControl
  repeat' with_reducible first
    | assumption
    | (extract_lets +onlyGivenNames a; refine Later.cut (r := r0) a ?_ ?_; (on_goal 2 => intro _; clear_value a); (on_goal 1 => subst a))
    | (extract_lets +onlyGivenNames a; clear_value a)
    | apply State.modIso_later
    | apply State.sectionState_later
    | apply Later.foldl
    | apply Later.foldl_fst
    | apply Later.ite
    | fail_if_no_progress apply Later.upd
    | fail_if_no_progress apply Later.upd_mem
    | fail_if_no_progress apply Later.upd_it
    | intro _ _ _

theorem execTcMessage_later {r0 : State} (t : IT) (m : TcMsg) (s : State) (hL : Later r0 s) : ∃ s', execTcMessage t m s = .next s' ∧ Later r0 s' := by
  unfold execTcMessage
  refine ⟨_, rfl, ?_⟩
  repeat' with_reducible first
    | assumption
    | (extract_lets +onlyGivenNames a; refine Later.cut (r := r0) a ?_ ?_; (on_goal 2 => intro _; clear_value a); (on_goal 1 => subst a))
    | apply State.at_later
    | apply State.setpoint_later
    | apply State.sectionControl_later
    | apply State.pdNack_later
    | apply State.modIso_later
    | apply State.reportDdi_later
    | apply Later.ite
    | fail_if_no_progress apply Later.upd
    | fail_if_no_progress apply Later.upd_mem
    | fail_if_no_progress apply Later.upd_it
    | split

theorem execTimeIntervalTrigger_later {r0 : State} (ddi : Nat) (t : IT) (s : State) (hL : Later r0 s) : ∃ s', execTimeIntervalTrigger ddi t s = .next s' ∧ Later r0 s' := by
  unfold execTimeIntervalTrigger
  refine ⟨_, rfl, ?_⟩
  repeat' with_reducible first
    | assumption
    | (extract_lets +onlyGivenNames a; refine Later.cut (r := r0) a ?_ ?_; (on_goal 2 => intro _; clear_value a); (on_goal 1 => subst a))
    | apply State.at_later
    | apply State.modIso_later
    | apply State.reportDdi_later
    | apply Later.ite
    | fail_if_no_progress apply Later.upd
    | fail_if_no_progress apply Later.upd_mem
    | fail_if_no_progress apply Later.upd_it
    | split

theorem State.reportChanges_later {r0 : State} (s : State) (b : IT) (hL : Later r0 s) : Later r0 (State.reportChanges s b) := by
  unfold State.reportChanges
  repeat' with_reducible first
    | assumption
    | apply State.reportDdi_later
    | apply Later.foldl
    | apply Later.foldl_fst
    | apply Later.ite
    | fail_if_no_progress apply Later.upd
    | fail_if_no_progress apply Later.upd_mem
    | fail_if_no_progress apply Later.upd_it
    | intro _ _ _
    | split

theorem State.poolActive_later {r0 : State} (s : State) (hL : Later r0 s) : Later r0 (State.poolActive s) := 
  ⟨hL.it, hL.mem, hL.queue, hL.roll, hL.key, hL.life, hL.legal⟩

theorem State.firstPool_later {r0 : State} (s : State) (hL : Later r0 s) : Later r0 (State.firstPool s) := by
  unfold State.firstPool
  repeat' with_reducible first
    | assumption
    | (extract_lets +onlyGivenNames a; refine Later.cut (r := r0) a ?_ ?_; (on_goal 2 => intro _; clear_value a); (on_goal 1 => subst a))
    | (extract_lets +onlyGivenNames a; clear_value a)
    | apply State.uploadPool_later
    | apply Later.ite
    | fail_if_no_progress apply Later.upd
    | fail_if_no_progress apply Later.upd_mem
    | fail_if_no_progress apply Later.upd_it
    | split

theorem State.poolPackets_later {r0 : State} (s : State) (hL : Later r0 s) : Later r0 (State.poolPackets s) := by
  unfold State.poolPackets
  repeat' with_reducible first
    | assumption
    | (extract_lets +onlyGivenNames a; refine Later.cut (r := r0) a ?_ ?_; (on_goal 2 => intro _; clear_value a); (on_goal 1 => subst a))
    | (extract_lets +onlyGivenNames a; clear_value a)
    | apply State.send_later
    | apply State.modIso_later
    | apply Later.ite
    | fail_if_no_progress apply Later.upd
    | fail_if_no_progress apply Later.upd_mem
    | fail_if_no_progress apply Later.upd_it
    | split

theorem State.transport_later {r0 : State} (s : State) (p : Nat) (m : TpMsg) (hL : Later r0 s) : Later r0 (State.transport s p m) := by
  unfold State.transport
  dsimp only
  repeat' with_reducible first
    | assumption
    | (extract_lets +onlyGivenNames a; refine Later.cut (r := r0) a ?_ ?_; (on_goal 2 => intro _; clear_value a); (on_goal 1 => subst a))
    | (extract_lets +onlyGivenNames a; clear_value a)
    | apply State.modIso_later
    | apply State.tpMessage_later
    | apply State.poolPackets_later
    | apply Later.ite
    | fail_if_no_progress apply Later.upd
    | fail_if_no_progress apply Later.upd_mem
    | fail_if_no_progress apply Later.upd_it
    | split

theorem execTaskControllerStatus_later {r0 : State} (t : IT) (m : TcStatus) (s : State) (hL : Later r0 s) : ∃ s', execTaskControllerStatus t m s = .next s' ∧ Later r0 s' := by
  unfold execTaskControllerStatus
  refine ⟨_, rfl, ?_⟩
  repeat' with_reducible first
    | assumption
    | (extract_lets +onlyGivenNames a; refine Later.cut (r := r0) a ?_ ?_; (on_goal 2 => intro _; clear_value a); (on_goal 1 => subst a))
    | (extract_lets +onlyGivenNames a; clear_value a)
    | apply State.at_later
    | apply State.modIso_later
    | apply State.firstPool_later
    | apply State.send_later
    | apply State.toTc_later
    | apply State.poolActive_later
    | apply State.uploadPool_later
    | apply State.transport_later
    | apply Later.ite
    | fail_if_no_progress apply Later.upd
    | fail_if_no_progress apply Later.upd_mem
    | fail_if_no_progress apply Later.upd_it
    | split

theorem execTcDisconnect_later {r0 : State} (t : IT) (s : State) (hL : Later r0 s) : ∃ s', execTcDisconnect t s = .next s' ∧ Later r0 s' := by
  unfold execTcDisconnect
  refine ⟨_, rfl, ?_⟩
  repeat' with_reducible first
    | assumption
    | (extract_lets +onlyGivenNames a; refine Later.cut (r := r0) a ?_ ?_; (on_goal 2 => intro _; clear_value a); (on_goal 1 => subst a))
    | apply State.modIso_later
    | apply State.at_later
    | apply State.outputsOut_later
    | apply Later.ite
    | fail_if_no_progress apply Later.upd
    | fail_if_no_progress apply Later.upd_mem
    | fail_if_no_progress apply Later.upd_it
    | split

theorem execHitchPtoMessage_later {r0 : State} (t : IT) (i : Fin 4) (data : Vector Byte 8) (s : State) (hL : Later r0 s) : ∃ s', execHitchPtoMessage t i data s = .next s' ∧ Later r0 s' := by
  unfold execHitchPtoMessage
  refine ⟨_, rfl, ?_⟩
  repeat' with_reducible first
    | assumption
    | (extract_lets +onlyGivenNames a; refine Later.cut (r := r0) a ?_ ?_; (on_goal 2 => intro _; clear_value a); (on_goal 1 => subst a))
    | apply State.at_later
    | apply State.modIso_later
    | apply Later.ite

end Sys2Proof.Machine
end

