-- ==== Sys2Proof/Laws/LaterFrame.lean ====
section
/-! SUPPORT. What no operation of Frame.lean undoes: each moves the state Later. -/


namespace Sys2Proof.Machine

theorem State.streamsRestart_later {r0 : State} (s : State) (keys : List Nat) (hL : Later r0 s) : Later r0 (State.streamsRestart s keys) := by
  unfold State.streamsRestart
  repeat' with_reducible first
    | assumption
    | (extract_lets +onlyGivenNames a; refine Later.cut (r := r0) a ?_ ?_; (on_goal 2 => intro _; clear_value a); (on_goal 1 => subst a))
    | (extract_lets +onlyGivenNames a; clear_value a)
    | apply Later.ite
    | fail_if_no_progress apply Later.upd
    | fail_if_no_progress apply Later.upd_mem
    | fail_if_no_progress apply Later.upd_it
    | split

theorem State.oldExpire_later {r0 : State} (s : State) (b : IT) (hL : Later r0 s) : Later r0 (State.oldExpire s b) := 
  ⟨hL.it, hL.mem, hL.queue, hL.roll, hL.key, hL.life, hL.legal⟩

theorem State.frameDue_later {r0 : State} (s : State) (b : IT) (hL : Later r0 s) : Later r0 (State.frameDue s b) := by
  unfold State.frameDue
  repeat' with_reducible first
    | assumption
    | (extract_lets +onlyGivenNames a; refine Later.cut (r := r0) a ?_ ?_; (on_goal 2 => intro _; clear_value a); (on_goal 1 => subst a))
    | apply State.commitBoundary_later
    | apply State.oldExpire_later
    | apply State.commandEffect_later
    | apply Later.ite
    | fail_if_no_progress apply Later.upd
    | fail_if_no_progress apply Later.upd_mem
    | fail_if_no_progress apply Later.upd_it
    | split

theorem State.dieTime_later {r0 : State} (s : State) (d : Nat) (ps : Int) (hL : Later r0 s) : Later r0 (State.dieTime s d ps) := by
  unfold State.dieTime
  repeat' with_reducible first
    | assumption
    | (extract_lets +onlyGivenNames a; refine Later.cut (r := r0) a ?_ ?_; (on_goal 2 => intro _; clear_value a); (on_goal 1 => subst a))
    | (extract_lets +onlyGivenNames a; clear_value a)
    | apply State.report_later
    | apply Later.ite
    | fail_if_no_progress apply Later.upd

theorem State.dieTimes_later {r0 : State} (s : State) (devPs : Vector Int 4) (hL : Later r0 s) : Later r0 (State.dieTimes s devPs) := by
  unfold State.dieTimes
  repeat' with_reducible first
    | assumption
    | apply State.dieTime_later
    | apply Later.foldl
    | apply Later.foldl_fst
    | apply Later.ite
    | fail_if_no_progress apply Later.upd
    | fail_if_no_progress apply Later.upd_mem
    | fail_if_no_progress apply Later.upd_it
    | intro _ _ _

theorem execDieTimeStrobe_later {r0 : State} (devPs : Vector Int 4) (s : State) (hL : Later r0 s) : ∃ s', execDieTimeStrobe devPs s = .next s' ∧ Later r0 s' := by
  unfold execDieTimeStrobe
  refine ⟨_, rfl, ?_⟩
  repeat' with_reducible first
    | assumption
    | apply State.whenAwake_later
    | apply State.dieTimes_later
    | apply State.at_later
    | apply Later.ite
    | fail_if_no_progress apply Later.upd
    | fail_if_no_progress apply Later.upd_mem
    | fail_if_no_progress apply Later.upd_it
    | intro _ _

theorem State.switchesSample_later {r0 : State} (s : State) (mv : Vector Nat 16) (hL : Later r0 s) : Later r0 (State.switchesSample s mv) := by
  unfold State.switchesSample
  repeat' with_reducible first
    | assumption
    | (extract_lets +onlyGivenNames a; refine Later.cut (r := r0) a ?_ ?_; (on_goal 2 => intro _; clear_value a); (on_goal 1 => subst a))
    | (extract_lets +onlyGivenNames a; clear_value a)
    | apply State.modSup_later
    | apply Later.ite
    | fail_if_no_progress apply Later.upd
    | fail_if_no_progress apply Later.upd_mem
    | fail_if_no_progress apply Later.upd_it
    | split

theorem State.supplyFrame_later {r0 : State} (s : State) (f : FrameIn) (hL : Later r0 s) : Later r0 (State.supplyFrame s f) := 
  ⟨hL.it, hL.mem, hL.queue, hL.roll, hL.key, hL.life, hL.legal⟩

theorem State.channelFrame_later {r0 : State} (s : State) (f : FrameIn) (n : Nat) (hL : Later r0 s) : Later r0 (State.channelFrame s f n) := by
  unfold State.channelFrame
  repeat' with_reducible first
    | assumption
    | (extract_lets +onlyGivenNames a; refine Later.cut (r := r0) a ?_ ?_; (on_goal 2 => intro _; clear_value a); (on_goal 1 => subst a))
    | (extract_lets +onlyGivenNames a; clear_value a)
    | apply State.learnCh_later
    | apply State.modCh_later
    | apply State.predictCh_later
    | apply State.coilThreshold_later
    | apply State.coilStep_later
    | apply Later.ite

theorem State.frameMeasure_later {r0 : State} (s : State) (f : FrameIn) (hL : Later r0 s) : Later r0 (State.frameMeasure s f) := by
  unfold State.frameMeasure
  dsimp only
  repeat' with_reducible first
    | assumption
    | (extract_lets +onlyGivenNames a; refine Later.cut (r := r0) a ?_ ?_; (on_goal 2 => intro _; clear_value a); (on_goal 1 => subst a))
    | apply State.supplyFrame_later
    | apply State.dieTimes_later
    | apply State.inertialSample_later
    | apply State.closeSet_later
    | apply State.channelFrame_later
    | apply State.switchesSample_later
    | apply Later.foldl
    | apply Later.foldl_fst
    | apply Later.ite
    | fail_if_no_progress apply Later.upd
    | fail_if_no_progress apply Later.upd_mem
    | fail_if_no_progress apply Later.upd_it
    | intro _ _ _

theorem State.frameMap_later {r0 : State} (s : State) (b : IT) (hL : Later r0 s) : Later r0 (State.frameMap s b) := by
  unfold State.frameMap
  repeat' with_reducible first
    | assumption
    | (extract_lets +onlyGivenNames a; refine Later.cut (r := r0) a ?_ ?_; (on_goal 2 => intro _; clear_value a); (on_goal 1 => subst a))
    | refine Later.of_pair ‹_› ?_
    | apply Later.ite_fst
    | apply State.rovFrame_later
    | apply State.deleteFrame_later
    | apply State.applyLayers_later
    | apply State.hankBoundary_later
    | apply State.markFrame_later
    | apply State.prefetch_later
    | apply State.reportChanges_later
    | apply State.workStates_later
    | apply Later.ite

theorem State.dischargeFrame_later {r0 : State} (s : State) (hL : Later r0 s) : Later r0 (State.dischargeFrame s) := by
  unfold State.dischargeFrame
  repeat' with_reducible first
    | assumption
    | apply State.startDischarge_later
    | apply Later.ite

theorem State.framePower_later {r0 : State} (s : State) (f : FrameIn) (hL : Later r0 s) : Later r0 (State.framePower s f) := by
  unfold State.framePower
  repeat' with_reducible first
    | assumption
    | (extract_lets +onlyGivenNames a; refine Later.cut (r := r0) a ?_ ?_; (on_goal 2 => intro _; clear_value a); (on_goal 1 => subst a))
    | apply State.thermalSample_later
    | apply State.thermalNotices_later
    | apply State.measureBudget_later
    | apply State.bobbinFrame_later
    | apply State.loadMeasure_later
    | apply Later.foldl
    | apply Later.foldl_fst
    | apply Later.ite
    | fail_if_no_progress apply Later.upd
    | fail_if_no_progress apply Later.upd_mem
    | fail_if_no_progress apply Later.upd_it
    | intro _ _ _

theorem State.frameRequests_later {r0 : State} (s : State) (hL : Later r0 s) : Later r0 (State.frameRequests s) := by
  unfold State.frameRequests
  repeat' with_reducible first
    | assumption
    | (extract_lets +onlyGivenNames a; refine Later.cut (r := r0) a ?_ ?_; (on_goal 2 => intro _; clear_value a); (on_goal 1 => subst a))
    | (extract_lets +onlyGivenNames a; clear_value a)
    | apply State.bareChannels_later
    | apply State.bareArm_later
    | apply State.dischargeFrame_later
    | apply State.overBudget_later
    | apply State.allotBobbin_later
    | apply State.bareTorque_later
    | apply State.showBudget_later
    | apply State.loadFrame_later
    | apply Later.foldl
    | apply Later.foldl_fst
    | apply Later.ite
    | fail_if_no_progress apply Later.upd
    | fail_if_no_progress apply Later.upd_mem
    | fail_if_no_progress apply Later.upd_it
    | intro _ _ _
    | split

theorem State.frameStates_later {r0 : State} (s : State) (hL : Later r0 s) : Later r0 (State.frameStates s) := by
  unfold State.frameStates
  dsimp only
  repeat' with_reducible first
    | assumption
    | (extract_lets +onlyGivenNames a; clear_value a)
    | apply State.enterBare_later
    | apply State.downStage_later
    | apply State.ctlStart_later
    | apply State.spinsFollow_later
    | apply State.frameRequests_later
    | apply Later.ite
    | fail_if_no_progress apply Later.upd
    | fail_if_no_progress apply Later.upd_mem
    | fail_if_no_progress apply Later.upd_it
    | split

theorem State.modStream_later {r0 : State} (s : State) (i : Nat) (f : Stream → Stream) (hL : Later r0 s) : Later r0 (State.modStream s i f) := 
  ⟨hL.it, hL.mem, hL.queue, hL.roll, hL.key, hL.life, hL.legal⟩

theorem State.streamSample_later {r0 : State} (s : State) (b : IT) (i : Nat) (hL : Later r0 s) : Later r0 (State.streamSample s b i) := by
  unfold State.streamSample
  repeat' with_reducible first
    | assumption
    | (extract_lets +onlyGivenNames a; refine Later.cut (r := r0) a ?_ ?_; (on_goal 2 => intro _; clear_value a); (on_goal 1 => subst a))
    | (extract_lets +onlyGivenNames a; clear_value a)
    | apply State.modStream_later
    | apply Later.ite
    | fail_if_no_progress apply Later.upd
    | fail_if_no_progress apply Later.upd_mem
    | fail_if_no_progress apply Later.upd_it
    | split

theorem State.streamSend_later {r0 : State} (s : State) (i : Nat) (hL : Later r0 s) : Later r0 (State.streamSend s i) := by
  unfold State.streamSend
  repeat' with_reducible first
    | assumption
    | (extract_lets +onlyGivenNames a; refine Later.cut (r := r0) a ?_ ?_; (on_goal 2 => intro _; clear_value a); (on_goal 1 => subst a))
    | (extract_lets +onlyGivenNames a; clear_value a)
    | apply State.sendUnasked_later
    | apply State.modStream_later
    | apply Later.ite
    | fail_if_no_progress apply Later.upd
    | fail_if_no_progress apply Later.upd_mem
    | fail_if_no_progress apply Later.upd_it
    | split

theorem State.publish_later {r0 : State} (s : State) (b : IT) (i : Nat) (hL : Later r0 s) : Later r0 (State.publish s b i) := by
  unfold State.publish
  repeat' with_reducible first
    | assumption
    | (extract_lets +onlyGivenNames a; refine Later.cut (r := r0) a ?_ ?_; (on_goal 2 => intro _; clear_value a); (on_goal 1 => subst a))
    | (extract_lets +onlyGivenNames a; clear_value a)
    | apply State.streamSend_later
    | apply State.streamSample_later
    | apply Later.ite

theorem State.frameStreams_later {r0 : State} (s : State) (b : IT) (hL : Later r0 s) : Later r0 (State.frameStreams s b) := by
  unfold State.frameStreams
  repeat' with_reducible first
    | assumption
    | apply State.publish_later
    | apply Later.foldl
    | apply Later.foldl_fst
    | apply Later.ite
    | fail_if_no_progress apply Later.upd
    | fail_if_no_progress apply Later.upd_mem
    | fail_if_no_progress apply Later.upd_it
    | intro _ _ _

theorem State.frame_later {r0 : State} (s : State) (b : IT) (f : FrameIn) (hL : Later r0 s) : Later r0 (State.frame s b f) := by
  unfold State.frame
  repeat' with_reducible first
    | assumption
    | (extract_lets +onlyGivenNames a; refine Later.cut (r := r0) a ?_ ?_; (on_goal 2 => intro _; clear_value a); (on_goal 1 => subst a))
    | (extract_lets +onlyGivenNames a; clear_value a)
    | apply State.at_later
    | apply State.frameDue_later
    | apply State.frameStates_later
    | apply State.framePower_later
    | apply State.frameMeasure_later
    | apply State.frameMap_later
    | apply State.spdFrame_later
    | apply State.spdStands_later
    | apply State.frameStreams_later
    | apply Later.ite
    | fail_if_no_progress apply Later.upd

theorem execFrameBoundary_later {r0 : State} (f : FrameIn) (s : State) (hL : Later r0 s) : ∃ s', execFrameBoundary f s = .next s' ∧ Later r0 s' := by
  unfold execFrameBoundary
  refine ⟨_, rfl, ?_⟩
  repeat' with_reducible first
    | assumption
    | apply State.whenAwake_later
    | apply State.frame_later
    | apply Later.ite
    | fail_if_no_progress apply Later.upd
    | fail_if_no_progress apply Later.upd_mem
    | fail_if_no_progress apply Later.upd_it
    | intro _ _

end Sys2Proof.Machine
end

