-- ==== Sys2Proof/Laws/LaterRequests.lean ====
section
/-! SUPPORT. What no operation of Requests.lean undoes: each moves the state Later. -/


namespace Sys2Proof.Machine

theorem execClearChannelLatch_later {r0 : State} (r : Req) (n : Fin 128) (s : State) (hL : Later r0 s) : ∃ s', execClearChannelLatch r n s = .next s' ∧ Later r0 s' := by
  unfold execClearChannelLatch
  refine ⟨_, rfl, ?_⟩
  repeat' with_reducible first
    | assumption
    | apply State.hostWrite_later

theorem execClearBankLatch_later {r0 : State} (r : Req) (b : Fin 16) (s : State) (hL : Later r0 s) : ∃ s', execClearBankLatch r b s = .next s' ∧ Later r0 s' := by
  unfold execClearBankLatch
  refine ⟨_, rfl, ?_⟩
  repeat' with_reducible first
    | assumption
    | apply State.hostWrite_later

theorem execLoopModeCommand_later {r0 : State} (r : Req) (w : Fin 8) (mode : Byte) (s : State) (hL : Later r0 s) : ∃ s', execLoopModeCommand r w mode s = .next s' ∧ Later r0 s' := by
  unfold execLoopModeCommand
  refine ⟨_, rfl, ?_⟩
  repeat' with_reducible first
    | assumption
    | apply State.hostWrite_later

theorem execRegionTableWrite_later {r0 : State} (r : Req) (w : Fin 8) (j : Fin 8) (v : Bytes) (s : State) (hL : Later r0 s) : ∃ s', execRegionTableWrite r w j v s = .next s' ∧ Later r0 s' := by
  unfold execRegionTableWrite
  refine ⟨_, rfl, ?_⟩
  repeat' with_reducible first
    | assumption
    | apply State.hostWrite_later

theorem execCoefficientPatch_later {r0 : State} (r : Req) (w : Fin 8) (j : Fin 8) (v : Bytes) (s : State) (hL : Later r0 s) : ∃ s', execCoefficientPatch r w j v s = .next s' ∧ Later r0 s' := by
  unfold execCoefficientPatch
  refine ⟨_, rfl, ?_⟩
  repeat' with_reducible first
    | assumption
    | apply State.hostWrite_later

theorem execCommitLoop_later {r0 : State} (r : Req) (w : Fin 8) (s : State) (hL : Later r0 s) : ∃ s', execCommitLoop r w s = .next s' ∧ Later r0 s' := by
  unfold execCommitLoop
  refine ⟨_, rfl, ?_⟩
  repeat' with_reducible first
    | assumption
    | apply State.hostWrite_later

theorem execClearOutputLatch_later {r0 : State} (r : Req) (o : Fin 6) (s : State) (hL : Later r0 s) : ∃ s', execClearOutputLatch r o s = .next s' ∧ Later r0 s' := by
  unfold execClearOutputLatch
  refine ⟨_, rfl, ?_⟩
  repeat' with_reducible first
    | assumption
    | apply State.hostWrite_later
    | apply Later.ite

theorem execLoadSwitchCommand_later {r0 : State} (r : Req) (j : Fin 16) (v : Byte) (s : State) (hL : Later r0 s) : ∃ s', execLoadSwitchCommand r j v s = .next s' ∧ Later r0 s' := by
  unfold execLoadSwitchCommand
  refine ⟨_, rfl, ?_⟩
  repeat' with_reducible first
    | assumption
    | apply State.hostWrite_later

theorem execClearLoadLatches_later {r0 : State} (r : Req) (j : Fin 16) (v : Byte) (s : State) (hL : Later r0 s) : ∃ s', execClearLoadLatches r j v s = .next s' ∧ Later r0 s' := by
  unfold execClearLoadLatches
  refine ⟨_, rfl, ?_⟩
  repeat' with_reducible first
    | assumption
    | apply State.hostWrite_later

theorem execResetUncertainty_later {r0 : State} (r : Req) (i : Fin 8) (s : State) (hL : Later r0 s) : ∃ s', execResetUncertainty r i s = .next s' ∧ Later r0 s' := by
  unfold execResetUncertainty
  refine ⟨_, rfl, ?_⟩
  repeat' with_reducible first
    | assumption
    | apply State.hostWrite_later

theorem execSetCount_later {r0 : State} (r : Req) (i : Fin 8) (v : Bytes) (s : State) (hL : Later r0 s) : ∃ s', execSetCount r i v s = .next s' ∧ Later r0 s' := by
  unfold execSetCount
  refine ⟨_, rfl, ?_⟩
  repeat' with_reducible first
    | assumption
    | apply State.hostWrite_later

theorem execFoldStateWrite_later {r0 : State} (r : Req) (v : Byte) (s : State) (hL : Later r0 s) : ∃ s', execFoldStateWrite r v s = .next s' ∧ Later r0 s' := by
  unfold execFoldStateWrite
  refine ⟨_, rfl, ?_⟩
  repeat' with_reducible first
    | assumption
    | apply State.hostWrite_later

theorem execHankCreate_later {r0 : State} (r : Req) (body : Bytes) (s : State) (hL : Later r0 s) : ∃ s', execHankCreate r body s = .next s' ∧ Later r0 s' := by
  unfold execHankCreate
  refine ⟨_, rfl, ?_⟩
  repeat' with_reducible first
    | assumption
    | apply State.hostWrite_later

theorem execHankOpen_later {r0 : State} (r : Req) (body : Bytes) (s : State) (hL : Later r0 s) : ∃ s', execHankOpen r body s = .next s' ∧ Later r0 s' := by
  unfold execHankOpen
  refine ⟨_, rfl, ?_⟩
  repeat' with_reducible first
    | assumption
    | apply State.hostWrite_later

theorem execHankClose_later {r0 : State} (r : Req) (body : Bytes) (s : State) (hL : Later r0 s) : ∃ s', execHankClose r body s = .next s' ∧ Later r0 s' := by
  unfold execHankClose
  refine ⟨_, rfl, ?_⟩
  repeat' with_reducible first
    | assumption
    | apply State.hostWrite_later

theorem execHankDelete_later {r0 : State} (r : Req) (body : Bytes) (s : State) (hL : Later r0 s) : ∃ s', execHankDelete r body s = .next s' ∧ Later r0 s' := by
  unfold execHankDelete
  refine ⟨_, rfl, ?_⟩
  repeat' with_reducible first
    | assumption
    | apply State.hostWrite_later

theorem execTileStream_later {r0 : State} (r : Req) (v : Bytes) (s : State) (hL : Later r0 s) : ∃ s', execTileStream r v s = .next s' ∧ Later r0 s' := by
  unfold execTileStream
  refine ⟨_, rfl, ?_⟩
  repeat' with_reducible first
    | assumption
    | apply State.hostWrite_later

theorem execTileExportRead_later {r0 : State} (r : Req) (s : State) (hL : Later r0 s) : ∃ s', execTileExportRead r s = .next s' ∧ Later r0 s' := by
  unfold execTileExportRead
  refine ⟨_, rfl, ?_⟩
  repeat' with_reducible first
    | assumption
    | apply State.blockRead_later

theorem execParameterRead_later {r0 : State} (r : Req) (idx : Nat) (sub : Nat) (s : State) (hL : Later r0 s) : ∃ s', execParameterRead r idx sub s = .next s' ∧ Later r0 s' := by
  unfold execParameterRead
  refine ⟨_, rfl, ?_⟩
  repeat' with_reducible first
    | assumption
    | apply State.read_later

theorem execParameterWrite_later {r0 : State} (r : Req) (idx : Nat) (sub : Nat) (v : Bytes) (s : State) (hL : Later r0 s) : ∃ s', execParameterWrite r idx sub v s = .next s' ∧ Later r0 s' := by
  unfold execParameterWrite
  refine ⟨_, rfl, ?_⟩
  repeat' with_reducible first
    | assumption
    | apply State.writeFrame_later

theorem execBlockWriteSegment_later {r0 : State} (r : Req) (idx : Nat) (sub : Nat) (off : Nat) (total : Nat) (data : Bytes) (s : State) (hL : Later r0 s) : ∃ s', execBlockWriteSegment r idx sub off total data s = .next s' ∧ Later r0 s' := by
  unfold execBlockWriteSegment
  refine ⟨_, rfl, ?_⟩
  repeat' with_reducible first
    | assumption
    | apply State.blockWrite_later

theorem execBlockRead_later {r0 : State} (r : Req) (idx : Nat) (sub : Nat) (off : Nat) (s : State) (hL : Later r0 s) : ∃ s', execBlockRead r idx sub off s = .next s' ∧ Later r0 s' := by
  unfold execBlockRead
  refine ⟨_, rfl, ?_⟩
  repeat' with_reducible first
    | assumption
    | apply State.blockRead_later

theorem execCommit_later {r0 : State} (r : Req) (payload : Bytes) (s : State) (hL : Later r0 s) : ∃ s', execCommit r payload s = .next s' ∧ Later r0 s' := by
  unfold execCommit
  refine ⟨_, rfl, ?_⟩
  repeat' with_reducible first
    | assumption
    | apply State.commitRequest_later

theorem execDiscardStaged_later {r0 : State} (r : Req) (s : State) (hL : Later r0 s) : ∃ s', execDiscardStaged r s = .next s' ∧ Later r0 s' := by
  unfold execDiscardStaged
  refine ⟨_, rfl, ?_⟩
  repeat' with_reducible first
    | assumption
    | apply State.hostWrite_later

theorem execConfigurationImage_later {r0 : State} (r : Req) (v : Bytes) (s : State) (hL : Later r0 s) : ∃ s', execConfigurationImage r v s = .next s' ∧ Later r0 s' := by
  unfold execConfigurationImage
  refine ⟨_, rfl, ?_⟩
  repeat' with_reducible first
    | assumption
    | apply State.hostWrite_later

theorem execDescriptionBlockRead_later {r0 : State} (r : Req) (s : State) (hL : Later r0 s) : ∃ s', execDescriptionBlockRead r s = .next s' ∧ Later r0 s' := by
  unfold execDescriptionBlockRead
  refine ⟨_, rfl, ?_⟩
  repeat' with_reducible first
    | assumption
    | apply State.blockRead_later

theorem execTimeService_later {r0 : State} (r : Req) (payload : Bytes) (s : State) (hL : Later r0 s) : ∃ s', execTimeService r payload s = .next s' ∧ Later r0 s' := by
  unfold execTimeService
  refine ⟨_, rfl, ?_⟩
  repeat' with_reducible first
    | assumption
    | apply State.timeRequest_later

theorem execChallengeRead_later {r0 : State} (r : Req) (s : State) (hL : Later r0 s) : ∃ s', execChallengeRead r s = .next s' ∧ Later r0 s' := by
  unfold execChallengeRead
  refine ⟨_, rfl, ?_⟩
  repeat' with_reducible first
    | assumption
    | apply State.read_later

theorem execResponseWrite_later {r0 : State} (r : Req) (v : Bytes) (s : State) (hL : Later r0 s) : ∃ s', execResponseWrite r v s = .next s' ∧ Later r0 s' := by
  unfold execResponseWrite
  refine ⟨_, rfl, ?_⟩
  repeat' with_reducible first
    | assumption
    | apply State.hostWrite_later

theorem execRelock_later {r0 : State} (r : Req) (s : State) (hL : Later r0 s) : ∃ s', execRelock r s = .next s' ∧ Later r0 s' := by
  unfold execRelock
  refine ⟨_, rfl, ?_⟩
  repeat' with_reducible first
    | assumption
    | apply State.hostWrite_later

theorem execExportBlockRead_later {r0 : State} (r : Req) (b : Bool) (s : State) (hL : Later r0 s) : ∃ s', execExportBlockRead r b s = .next s' ∧ Later r0 s' := by
  unfold execExportBlockRead
  refine ⟨_, rfl, ?_⟩
  repeat' with_reducible first
    | assumption
    | apply State.blockRead_later

theorem execClearLastWord_later {r0 : State} (r : Req) (s : State) (hL : Later r0 s) : ∃ s', execClearLastWord r s = .next s' ∧ Later r0 s' := by
  unfold execClearLastWord
  refine ⟨_, rfl, ?_⟩
  repeat' with_reducible first
    | assumption
    | apply State.hostWrite_later

theorem execClearFaults_later {r0 : State} (r : Req) (s : State) (hL : Later r0 s) : ∃ s', execClearFaults r s = .next s' ∧ Later r0 s' := by
  unfold execClearFaults
  refine ⟨_, rfl, ?_⟩
  repeat' with_reducible first
    | assumption
    | apply State.hostWrite_later

theorem execCmdRun_later {r0 : State} (r : Req) (s : State) (hL : Later r0 s) : ∃ s', execCmdRun r s = .next s' ∧ Later r0 s' := by
  unfold execCmdRun
  refine ⟨_, rfl, ?_⟩
  repeat' with_reducible first
    | assumption
    | apply State.hostWrite_later

theorem execCmdBare_later {r0 : State} (r : Req) (s : State) (hL : Later r0 s) : ∃ s', execCmdBare r s = .next s' ∧ Later r0 s' := by
  unfold execCmdBare
  refine ⟨_, rfl, ?_⟩
  repeat' with_reducible first
    | assumption
    | apply State.hostWrite_later

theorem execCmdSafe_later {r0 : State} (r : Req) (s : State) (hL : Later r0 s) : ∃ s', execCmdSafe r s = .next s' ∧ Later r0 s' := by
  unfold execCmdSafe
  refine ⟨_, rfl, ?_⟩
  repeat' with_reducible first
    | assumption
    | apply State.hostWrite_later

theorem execCmdReady_later {r0 : State} (r : Req) (s : State) (hL : Later r0 s) : ∃ s', execCmdReady r s = .next s' ∧ Later r0 s' := by
  unfold execCmdReady
  refine ⟨_, rfl, ?_⟩
  repeat' with_reducible first
    | assumption
    | apply State.hostWrite_later

theorem execCmdService_later {r0 : State} (r : Req) (s : State) (hL : Later r0 s) : ∃ s', execCmdService r s = .next s' ∧ Later r0 s' := by
  unfold execCmdService
  refine ⟨_, rfl, ?_⟩
  repeat' with_reducible first
    | assumption
    | apply State.hostWrite_later

theorem execCardingRunAll_later {r0 : State} (r : Req) (s : State) (hL : Later r0 s) : ∃ s', execCardingRunAll r s = .next s' ∧ Later r0 s' := by
  unfold execCardingRunAll
  refine ⟨_, rfl, ?_⟩
  repeat' with_reducible first
    | assumption
    | apply State.hostWrite_later

theorem execCardingRunCore_later {r0 : State} (r : Req) (s : State) (hL : Later r0 s) : ∃ s', execCardingRunCore r s = .next s' ∧ Later r0 s' := by
  unfold execCardingRunCore
  refine ⟨_, rfl, ?_⟩
  repeat' with_reducible first
    | assumption
    | apply State.hostWrite_later

theorem execCardingRunRange_later {r0 : State} (r : Req) (s : State) (hL : Later r0 s) : ∃ s', execCardingRunRange r s = .next s' ∧ Later r0 s' := by
  unfold execCardingRunRange
  refine ⟨_, rfl, ?_⟩
  repeat' with_reducible first
    | assumption
    | apply State.hostWrite_later

theorem execCardingStop_later {r0 : State} (r : Req) (s : State) (hL : Later r0 s) : ∃ s', execCardingStop r s = .next s' ∧ Later r0 s' := by
  unfold execCardingStop
  refine ⟨_, rfl, ?_⟩
  repeat' with_reducible first
    | assumption
    | apply State.hostWrite_later

theorem execBurnRepairs_later {r0 : State} (r : Req) (s : State) (hL : Later r0 s) : ∃ s', execBurnRepairs r s = .next s' ∧ Later r0 s' := by
  unfold execBurnRepairs
  refine ⟨_, rfl, ?_⟩
  repeat' with_reducible first
    | assumption
    | apply State.hostWrite_later

theorem execLifecycleCommand_later {r0 : State} (r : Req) (v : Bytes) (s : State) (hL : Later r0 s) : ∃ s', execLifecycleCommand r v s = .next s' ∧ Later r0 s' := by
  unfold execLifecycleCommand
  refine ⟨_, rfl, ?_⟩
  repeat' with_reducible first
    | assumption
    | apply State.hostWrite_later

theorem execProtectedKeyWrite_later {r0 : State} (r : Req) (v : Bytes) (s : State) (hL : Later r0 s) : ∃ s', execProtectedKeyWrite r v s = .next s' ∧ Later r0 s' := by
  unfold execProtectedKeyWrite
  refine ⟨_, rfl, ?_⟩
  repeat' with_reducible first
    | assumption
    | apply State.hostWrite_later

theorem execImageOpen_later {r0 : State} (r : Req) (engine : Nat) (len : Nat) (s : State) (hL : Later r0 s) : ∃ s', execImageOpen r engine len s = .next s' ∧ Later r0 s' := by
  unfold execImageOpen
  refine ⟨_, rfl, ?_⟩
  repeat' with_reducible first
    | assumption
    | apply State.hostWrite_later

theorem execImageChunk_later {r0 : State} (r : Req) (v : Bytes) (s : State) (hL : Later r0 s) : ∃ s', execImageChunk r v s = .next s' ∧ Later r0 s' := by
  unfold execImageChunk
  refine ⟨_, rfl, ?_⟩
  repeat' with_reducible first
    | assumption
    | apply State.hostWrite_later

theorem execImageVerify_later {r0 : State} (r : Req) (engine : Nat) (s : State) (hL : Later r0 s) : ∃ s', execImageVerify r engine s = .next s' ∧ Later r0 s' := by
  unfold execImageVerify
  refine ⟨_, rfl, ?_⟩
  repeat' with_reducible first
    | assumption
    | apply State.hostWrite_later

theorem execImageSwitch_later {r0 : State} (r : Req) (engine : Nat) (s : State) (hL : Later r0 s) : ∃ s', execImageSwitch r engine s = .next s' ∧ Later r0 s' := by
  unfold execImageSwitch
  refine ⟨_, rfl, ?_⟩
  repeat' with_reducible first
    | assumption
    | apply State.hostWrite_later

theorem execImageConfirm_later {r0 : State} (r : Req) (s : State) (hL : Later r0 s) : ∃ s', execImageConfirm r s = .next s' ∧ Later r0 s' := by
  unfold execImageConfirm
  refine ⟨_, rfl, ?_⟩
  repeat' with_reducible first
    | assumption
    | apply State.hostWrite_later

theorem execImageAbandon_later {r0 : State} (r : Req) (engine : Nat) (s : State) (hL : Later r0 s) : ∃ s', execImageAbandon r engine s = .next s' ∧ Later r0 s' := by
  unfold execImageAbandon
  refine ⟨_, rfl, ?_⟩
  repeat' with_reducible first
    | assumption
    | apply State.hostWrite_later

end Sys2Proof.Machine
end

