-- ==== Sys2Proof/Laws/Requests.lean ====
section
/-! SUPPORT. How a host's request is served: a new request of a session runs its effect in the served state, a write of a WO
parameter comes down to its command, and what the reply leaves behind. -/

namespace Sys2Proof.Machine

variable {s u : State} {r : Req} {x : Session}

@[simp] theorem State.served_session (i : SessionId) : (s.served r).session i = s.session i := by
  unfold State.served State.heard State.frameCount State.session State.at
  split <;> rfl

@[simp] theorem State.served_dict : (s.served r).dict = s.dict := rfl
@[simp] theorem State.served_power : (s.served r).power = s.power := rfl
@[simp] theorem State.served_it : (s.served r).it = max s.it r.rx := rfl
@[simp] theorem State.served_card : (s.served r).card = s.card := rfl

theorem State.served_eq : ∃ n, s.served r = { s with it := max s.it r.rx, nets := n } ∧ n.sessions = s.nets.sessions ∧
    n.ctrl = s.nets.ctrl ∧ n.canA = s.nets.canA ∧ n.challenge = s.nets.challenge ∧ n.lockUntil = s.nets.lockUntil ∧
    n.badRow = s.nets.badRow ∧ n.bad = s.nets.bad ∧ n.raisedAt = s.nets.raisedAt ∧ n.tx = s.nets.tx := by
  refine ⟨(s.served r).nets, ?_, ?_⟩
  · unfold State.served State.heard State.frameCount State.at; rfl
  · unfold State.served State.heard State.frameCount State.at
    split <;> simp [Nets.ethCount, Nets.canCount]

/-- The receipt of a request does not change how many of a session wait. -/
theorem State.served_outstanding (i : SessionId) : (s.served r).outstanding i = s.outstanding i := by
  unfold State.outstanding
  rw [State.served_session, State.served_dict]

/-- A new request is executed in the served state (R401 to R403). -/
theorem State.serve_new (h : s.Serves r x) (service i sub : Nat) (f : State → Session → State × Bytes) :
    s.serve r service i sub f = (s.served r).execute r x service i sub f := by
  have h1 : (s.served r).session r.sid = some x := by rw [State.served_session]; exact h.known
  unfold State.serve
  rw [if_neg (by simp [h.net, h.cores])]
  show (if r.sid.byte = 0 then _ else match (s.served r).session r.sid with | none => _ | some x => _) = _
  rw [if_neg h.byte, h1]
  simp only [h.fresh]
  show (if 16 ≤ (s.served r).outstanding r.sid then _ else _) = _
  rw [State.served_outstanding, if_neg (by have := h.few; omega)]
  rfl

/-- A write of a WO parameter that passes the checks of its value is its command (R371, R372). -/
theorem State.performWrite_command {who : SessionId} {lvl i sub : Nat} {v : Bytes} {d : Desc}
    (hstore : s.dict.storeBad = false) (hlvl : lvl ≠ 0) (hdev : s.power.dev ≠ .boot) (huse : indexInUse i = true) (hsub : sub ≠ 0)
    (hd : findDesc i sub = some d) (hacc : d.acc = 2) (hcls : d.cls = 1) (hprot : protectedParam i sub = false)
    (hval : valueFail d i sub v = none) (hlist : i < 0x2030 ∨ 0x2038 ≤ i)
    (hcoef : i < 0x3210 ∨ 0x3250 ≤ i ∨ s.coefHeld = false) :
    s.performWrite who lvl i sub v =
      (if (s.writeCommand who lvl i sub v).2 = 0
        then (s.writeCommand who lvl i sub v).1.acceptWrite (needsRaised i sub v s.card.life) s.it
        else (s.writeCommand who lvl i sub v).1.refuseWrite i sub (s.writeCommand who lvl i sub v).2 0) := by
  have hw : s.writesServed i sub = true := by simp [State.writesServed, hdev]
  have hl : s.listMisplaced i sub = false := by
    unfold State.listMisplaced
    rcases hlist with h | h
    · simp [show ¬ 0x2030 ≤ i by omega]
    · simp [show ¬ i < 0x2038 by omega]
  have hk : (decide (0x3210 ≤ i) && decide (i < 0x3250) && s.coefHeld) = false := by
    rcases hcoef with h | h | h
    · simp [show ¬ 0x3210 ≤ i by omega]
    · simp [show ¬ i < 0x3250 by omega]
    · simp [h]
  have hc : s.writeCheck lvl i sub v = (0, 0) := by
    simp only [State.writeCheck, State.valueCheck, hstore, huse, hsub, hd, hlvl, hprot, hw, hval, hl, hk]
    simp [hcls, hacc]
  simp [State.performWrite, hc, hd, hacc]

/-- The same for a whole value that a host writes. -/
theorem State.hostWrite_command {i sub : Nat} {v : Bytes} {d : Desc} (h : s.Takes r x)
    (huse : indexInUse i = true) (hsub : sub ≠ 0) (hd : findDesc i sub = some d) (hacc : d.acc = 2) (hcls : d.cls = 1)
    (hprot : protectedParam i sub = false) (hval : valueFail d i sub v = none) (hlist : i < 0x2030 ∨ 0x2038 ≤ i)
    (hcoef : i < 0x3210 ∨ 0x3250 ≤ i ∨ s.coefHeld = false) (himg : i ≠ 0x4402) {c : Nat} (hcmd : (s.served r).writeCommand r.sid x.level i sub v = (u, c)) :
    s.hostWrite r i sub v =
      let fits := decide (v.length ≤ maxPayload r.sid.net)
      let w := if c = 0 then u.acceptWrite (needsRaised i sub v s.card.life) (max s.it r.rx) else u.refuseWrite i sub c 0
      let b := if fits then writeReply w.code (max s.it r.rx) w.eff else lastAck w.code v.length (max s.it r.rx)
      (w.s.remember r b).answer r (if fits then 2 else 4) i sub b := by
  unfold State.hostWrite
  rw [State.serve_new h.toServes]
  have hp : (s.served r).writeAny r.sid x.level i sub v =
      (if c = 0 then u.acceptWrite (needsRaised i sub v s.card.life) (max s.it r.rx) else u.refuseWrite i sub c 0) := by
    unfold State.writeAny
    rw [if_neg (by simp [h.commit]), if_neg (by simp [himg]),
      State.performWrite_command (s := s.served r) h.store (by have := h.level; omega) h.dev huse hsub hd hacc hcls hprot hval hlist
        hcoef, hcmd]
    rfl
  unfold State.execute
  simp only [hp, himg, if_false]
  rfl

/-- A session found by its identity is the one changed under it. -/
theorem State.find_mod {l : List Session} {i : SessionId} {y : Session} (f : Session → Session) (hf : ∀ x, (f x).id = x.id)
    (h : l.find? (fun x => x.id == i) = some y) :
    (l.map (fun x => if x.id == i then f x else x)).find? (fun x => x.id == i) = some (f y) := by
  induction l with
  | nil => simp at h
  | cons a l ih =>
    rw [List.map_cons, List.find?_cons]
    by_cases ha : (a.id == i) = true
    · rw [List.find?_cons, ha] at h
      cases h
      simp only [ha, if_true, hf]
    · rw [Bool.not_eq_true] at ha
      rw [List.find?_cons, ha] at h
      simp only [ha, Bool.false_eq_true, if_false]
      exact ih h

/-- What a reply leaves of the networks. -/
theorem State.remember_answer (b : Bytes) (sv i sub : Nat) {y : Session} (hy : u.session r.sid = some y) :
    ∃ n, (u.remember r b).answer r sv i sub b = { u with nets := n } ∧ n.ctrl = u.nets.ctrl ∧ n.challenge = u.nets.challenge ∧
      n.lockUntil = u.nets.lockUntil ∧ n.badRow = u.nets.badRow ∧ n.bad = u.nets.bad ∧ n.raisedAt = u.nets.raisedAt ∧
      n.canA = u.nets.canA ∧
      n.sessions.find? (fun x => x.id == r.sid) = some { y with done := (⟨r.seq, r.crc, b⟩ :: y.done).take 32 } ∧
      (b ≠ [] → u.netUp r.sid.net = true → n.tx.getLast? =
        some (u.pagrimSent r.sid.net r.sid.addr r.sid.port r.sid.byte r.seq (sv + 128) i sub 0 b)) := by
  have hm := State.find_mod (fun x => { x with done := (⟨r.seq, r.crc, b⟩ :: x.done).take 32 }) (fun _ => rfl) hy
  have hc : (u.remember r b).carries (u.pagrimSent r.sid.net r.sid.addr r.sid.port r.sid.byte r.seq (sv + 128) i sub 0 b) =
      u.netUp r.sid.net := by
    unfold State.pagrimSent
    cases r.sid.net <;> rfl
  have hp : (u.remember r b).pagrimSent r.sid.net r.sid.addr r.sid.port r.sid.byte r.seq (sv + 128) i sub 0 b =
      u.pagrimSent r.sid.net r.sid.addr r.sid.port r.sid.byte r.seq (sv + 128) i sub 0 b := rfl
  by_cases hb : b = []
  · refine ⟨(u.remember r b).nets, ?_, rfl, rfl, rfl, rfl, rfl, rfl, rfl, hm, fun h => absurd hb h⟩
    rw [State.answer, if_pos (by simp [hb])]; rfl
  · by_cases hn : u.netUp r.sid.net = true
    · refine ⟨(u.remember r b).nets.put (u.pagrimSent r.sid.net r.sid.addr r.sid.port r.sid.byte r.seq (sv + 128) i sub 0 b), ?_, ?_⟩
      · rw [State.answer, if_neg (by simpa using hb), State.send, hp, hc, if_pos hn]; rfl
      · unfold State.pagrimSent
        cases r.sid.net <;>
          (refine ⟨rfl, rfl, rfl, rfl, rfl, rfl, rfl, hm, fun _ _ => ?_⟩
           simp [Nets.put, Nets.canCount, Nets.ethCount])
    · refine ⟨(u.remember r b).nets, ?_, rfl, rfl, rfl, rfl, rfl, rfl, rfl, hm, fun _ h => absurd h hn⟩
      rw [State.answer, if_neg (by simpa using hb), State.send, hp, hc, if_neg hn]; rfl

/-- An accepted command of a host: its effect `u`, counted and answered. -/
theorem State.hostWrite_accepted {i sub : Nat} {v : Bytes} {d : Desc} {y : Session} (h : s.Takes r x)
    (huse : indexInUse i = true) (hsub : sub ≠ 0) (hd : findDesc i sub = some d) (hacc : d.acc = 2) (hcls : d.cls = 1)
    (hprot : protectedParam i sub = false) (hval : valueFail d i sub v = none) (hlist : i < 0x2030 ∨ 0x2038 ≤ i)
    (hcoef : i < 0x3210 ∨ 0x3250 ≤ i ∨ s.coefHeld = false) (himg : i ≠ 0x4402) (hcmd : (s.served r).writeCommand r.sid x.level i sub v = (u, 0))
    (hy : u.session r.sid = some y) (hit : u.it = max s.it r.rx) (hdict : u.dict.accepted = s.dict.accepted)
    (href : u.dict.refused = s.dict.refused) :
    ∃ n, s.hostWrite r i sub v = { u with dict := { u.dict with accepted := sat32 (u.dict.accepted + 1) }, nets := n } ∧
      s.Accepted (s.hostWrite r i sub v) r ∧ n.ctrl = u.nets.ctrl ∧ n.challenge = u.nets.challenge ∧
      n.lockUntil = u.nets.lockUntil ∧ n.badRow = u.nets.badRow ∧ n.bad = u.nets.bad ∧
      n.raisedAt = (if needsRaised i sub v s.card.life then u.it else u.nets.raisedAt) ∧
      (n.sessions.find? (fun x => x.id == r.sid)).map (·.level) = some y.level := by
  have hw := State.hostWrite_command h huse hsub hd hacc hcls hprot hval hlist hcoef himg hcmd
  simp only [if_true] at hw
  have hy' : (u.acceptWrite (needsRaised i sub v s.card.life) (max s.it r.rx)).s.session r.sid = some y := by
    unfold State.acceptWrite; dsimp only; split <;> exact hy
  obtain ⟨n, hn, h1, h2, h3, h4, h5, h6, h7, h8, h9⟩ := State.remember_answer
    (u := (u.acceptWrite (needsRaised i sub v s.card.life) (max s.it r.rx)).s) (r := r)
    (if decide (v.length ≤ maxPayload r.sid.net) then writeReply 0 (max s.it r.rx) (max s.it r.rx) else lastAck 0 v.length (max s.it r.rx))
    (if decide (v.length ≤ maxPayload r.sid.net) then 2 else 4) i sub hy'
  have e : s.hostWrite r i sub v = { u with dict := { u.dict with accepted := sat32 (u.dict.accepted + 1) }, nets := n } := by
    rw [hw]
    refine Eq.trans hn ?_
    unfold State.acceptWrite State.modDict
    dsimp only
    split <;> rfl
  refine ⟨n, e, ?acc, h1.trans ?_, h2.trans ?_, h3.trans ?_, h4.trans ?_, h5.trans ?_, h6.trans ?_, by rw [h8]; rfl⟩
  case acc =>
    rw [e]
    refine ⟨by simp [hdict], by simp [href], hit, _, _, h8, rfl, rfl, rfl, ?_⟩
    dsimp only
    split <;> rfl
  all_goals (unfold State.acceptWrite; dsimp only; split <;> rfl)

end Sys2Proof.Machine
end

