-- ==== Sys2Proof/WellFormed.lean ====
section
/-! DEFINITION. Which commands can come from outside the module: every operand within the width that its wire or its
message gives it. A meaning is total without these checks; statements about wire formats use them. -/

namespace Sys2Proof

/-- A session identity on a CAN network has no address and port; on ETH they are an IPv4 address and a UDP port (R401). -/
def SessionId.wf (i : SessionId) : Bool :=
  decide (i.byte < 256) &&
  (match i.net with
    | .eth => decide (i.addr < 4294967296) && decide (i.port < 65536)
    | _ => i.addr == 0 && i.port == 0)

/-- A request's header (R399): sequence number U16, CRC-32C. -/
def Req.wf (r : Req) : Bool := r.sid.wf && decide (r.seq < 65536) && decide (r.crc < 4294967296)

/-- The largest payload of a frame on a network (R398): 64-byte CAN FD frames, 1,472-byte datagrams, less 16 bytes. -/
def Net.room : Net → Nat
  | .eth => 1456
  | _ => 48

/-- A parameter's number (R369): index U16, sub-index U8. -/
def paramWf (idx sub : Nat) : Bool := decide (idx < 65536) && decide (sub < 256)

/-- A block segment (R407, R408): offsets and lengths U32. -/
def segmentWf (off total : Nat) : Bool := decide (off < 4294967296) && decide (total < 4294967296)

/-- A hank command's body: 64 bytes with the command byte in front (R156). -/
def bodyWf (b : Bytes) : Bool := b.length == 63

/-- A classical CAN frame's data (R422). -/
def canDataWf (b : Bytes) : Bool := decide (b.length ≤ 8)

/-- A block value's length (R407: U32). -/
def blockWf (b : Bytes) : Bool := decide (b.length < 4294967296)

/-- An IPv4 address. -/
def ipWf (a : Nat) : Bool := decide (a < 4294967296)

/-- Whether a command is well formed. -/
def Instr.wf : Instr → Bool
  | .cmdRun r => r.wf
  | .cmdBare r => r.wf
  | .cmdSafe r => r.wf
  | .cmdReady r => r.wf
  | .cmdService r => r.wf
  | .clearChannelLatch r _ => r.wf
  | .clearBankLatch r _ => r.wf
  | .loopModeCommand r _ _ => r.wf
  | .regionTableWrite r _ _ v => r.wf && blockWf v
  | .coefficientPatch r _ _ v => r.wf && blockWf v
  | .commitLoop r _ => r.wf
  | .clearOutputLatch r _ => r.wf
  | .loadSwitchCommand r _ _ => r.wf
  | .clearLoadLatches r _ _ => r.wf
  | .resetUncertainty r _ => r.wf
  | .setCount r _ v => r.wf && blockWf v
  | .foldStateWrite r _ => r.wf
  | .hankCreate r b => r.wf && bodyWf b
  | .hankOpen r b => r.wf && bodyWf b
  | .hankClose r b => r.wf && bodyWf b
  | .hankDelete r b => r.wf && bodyWf b
  | .nmeaSentence _ _ _ => true
  | .canAMotionMessage _ pgn src d => decide (pgn < 262144) && decide (src < 256) && canDataWf d
  | .tileStream r v => r.wf && blockWf v
  | .tileExportRead r => r.wf
  | .parameterRead r idx sub => r.wf && paramWf idx sub
  | .parameterWrite r idx sub v => r.wf && paramWf idx sub && decide (v.length ≤ r.sid.net.room)
  | .blockWriteSegment r idx sub off total d =>
    r.wf && paramWf idx sub && segmentWf off total && decide (d.length + 8 ≤ r.sid.net.room)
  | .blockWriteTimeout i => i.wf
  | .blockRead r idx sub off => r.wf && paramWf idx sub && segmentWf off 0
  | .blockReadSnapshotExpiry i => i.wf
  | .commit r p => r.wf && decide (p.length ≤ r.sid.net.room)
  | .discardStaged r => r.wf
  | .configurationImage r v => r.wf && blockWf v
  | .digestRecheck _ d => d.length == 32
  | .descriptionBlockRead r => r.wf
  | .hostHeartbeat i p _ => i.wf && decide (p.length ≤ i.net.room)
  | .sessionTimeout i => i.wf
  | .timeService r p => r.wf && decide (p.length ≤ r.sid.net.room)
  | .challengeRead r => r.wf
  | .responseWrite r v => r.wf && blockWf v
  | .relock r => r.wf
  | .arpRequest _ ip mac tip => ipWf ip && decide (mac < 281474976710656) && ipWf tip
  | .icmpEcho _ ip dip d => ipWf ip && ipWf dip && decide (d.length ≤ 1472)
  | .arpCacheExpiry ip => ipWf ip
  | .exportBlockRead r _ => r.wf
  | .clearLastWord r => r.wf
  | .clearFaults r => r.wf
  | .cardingRunAll r => r.wf
  | .cardingRunCore r => r.wf
  | .cardingRunRange r => r.wf
  | .cardingStop r => r.wf
  | .burnRepairs r => r.wf
  | .lifecycleCommand r v => r.wf && blockWf v
  | .protectedKeyWrite r v => r.wf && blockWf v
  | .imageOpen r e n => r.wf && decide (e < 256) && decide (n < 4294967296)
  | .imageChunk r v => r.wf && blockWf v
  | .imageVerify r e => r.wf && decide (e < 256)
  | .imageSwitch r e => r.wf && decide (e < 256)
  | .imageConfirm r => r.wf
  | .imageAbandon r e => r.wf && decide (e < 256)
  | .timeIntervalTrigger ddi _ => decide (ddi < 65536)
  | .powerOn b => decide (b.aon < 18446744073709551616)
  | .ignOn _ b => decide (b.aon < 18446744073709551616)
  | .canAWake b => decide (b.aon < 18446744073709551616)
  | .ignOff _ => true
  | .wakeHoldExpiry => true
  | .kaCollapse _ => true
  | .bootComplete _ => true
  | .crystalStartTimeout _ => true
  | .crystalFailure _ => true
  | .shutdownComplete _ _ => true
  | .shutdownOvertime _ _ => true
  | .stateCommandEffect => true
  | .frameBoundary _ => true
  | .frameOverrun => true
  | .dieTimeStrobe _ => true
  | .pullInStart _ _ _ => true
  | .peakReached _ _ => true
  | .pullInWindowEnd _ _ => true
  | .closingCommand _ => true
  | .decayEnd _ _ => true
  | .kinkWindowOpen _ => true
  | .kinkFound _ _ => true
  | .kinkWindowClose _ => true
  | .channelOverCurrent _ _ => true
  | .bankOverCurrent _ _ => true
  | .bankRetryExpiry _ => true
  | .channelStuckOn _ => true
  | .bankSwitchFault _ _ => true
  | .edgeWordError _ _ _ => true
  | .dieRestartDone _ _ => true
  | .railHigh _ => true
  | .railHighClear _ => true
  | .railFault _ _ => true
  | .supplyHigh _ => true
  | .prechargeComplete _ _ _ => true
  | .railDischarged _ => true
  | .loopStep _ _ => true
  | .spinnerTransfer _ _ => true
  | .valveDriveStart _ => true
  | .endOfTravel _ _ => true
  | .travelTimeout _ => true
  | .valveDriveRetry _ => true
  | .motorStall _ _ => true
  | .outputTrip _ _ _ => true
  | .outputRetryExpiry _ => true
  | .loadTrip _ _ _ _ => true
  | .loadRestart _ _ _ => true
  | .loadCounterReset _ => true
  | .loadShedRetry _ => true
  | .openLoad _ _ => true
  | .budgetOverrun => true
  | .supplyFault _ _ _ _ => true
  | .sensorSupplyOverload _ _ => true
  | .sensorSupplyRetry _ => true
  | .throttleHoldExpiry _ => true
  | .sensorUnavailableExpiry _ => true
  | .pulseEdge _ _ _ _ _ => true
  | .indexEdge _ _ => true
  | .pulseStopTimeout _ => true
  | .hallEdge _ _ _ => true
  | .ppsEdge _ => true
  | .inertialSampleLate => true
  | .standstillBias _ => true
  | .biasStale _ => true
  | .positionLossHoldExpiry => true
  | .externalTimeout => true
  | .closeSequenceDone _ => true
  | .hankDeleteDone _ _ => true
  | .tileFillDone _ _ _ _ _ => true
  | .tileWriteBack _ _ _ => true
  | .commitBoundary => true
  | .pagrimFrameDiscard _ _ => true
  | .deviceHeartbeat _ _ => true
  | .hostLoss => true
  | .raisedLevelTimeout => true
  | .challengeLockoutEnd => true
  | .canBusOff _ _ => true
  | .ethLinkUp _ => true
  | .gptpMessage _ _ => true
  | .wallSourceTimeout _ => true
  | .addressClaim _ _ => true
  | .addressRetry _ => true
  | .tcMessage _ _ => true
  | .tcDisconnect _ => true
  | .hitchPtoMessage _ _ _ => true
  | .recordIngest => true
  | .heldRecordRelease _ => true
  | .limitedSecondEnd => true
  | .lossRecord => true
  | .recordWrite => true
  | .logRowFailure _ _ => true
  | .alarmWindowEnd _ => true
  | .epochCopyWrite _ => true
  | .timeMark => true
  | .faultDetected _ _ => true
  | .coresStop _ _ => true
  | .coresReturn _ => true
  | .coastWindowExpiry => true
  | .cardingSlice _ _ => true
  | .imageSwitchBoundary _ => true
  | .barePullInRetry _ => true
  | .supplyHighClear _ => true
  | .ethLinkDown _ => true
  | .busOffRecovery _ _ => true
  | .taskControllerStatus _ _ => true
  | .peerDelayRequest _ => true

end Sys2Proof
end

