-- ==== Sys2Proof/Tests/Slice0.lean ====
section
/-! SUPPORT. Tests: states that meet the hypotheses of the statements, ill-formed commands, single steps. -/

namespace Sys2Proof.Tests

set_option Elab.async false

open Sys2Proof Sys2Proof.Machine

/-! ### Small states -/

/-- The reset state in another device state. -/
def inState (d : DevState) : State := { State.reset with power := { State.reset.power with dev := d } }

/-- One parameter at a value of `n` bytes, the configuration committed. -/
def setP (s : State) (i sub n v : Nat) : State :=
  { s with dict := { s.dict with ever := true, store := aput (pkey i sub) (le n v) s.dict.store } }

/-- One block parameter. -/
def setB (s : State) (i sub : Nat) (v : Bytes) : State :=
  { s with dict := { s.dict with store := aput (pkey i sub) v s.dict.store } }

/-- A request on the host network. -/
def rq : Req := ⟨⟨.canB, 1, 0, 0⟩, 7, 99, 62000000000⟩

/-- Its sender's session, at level CONTROL. -/
def ss : Session := ⟨rq.sid, 1, 61000000000, [], none, none⟩

/-- The same at level SERVICE. -/
def ss3 : Session := { ss with level := 3 }

/-- One session open. -/
def host (s : State) (x : Session) : State := { s with nets := { s.nets with sessions := [x] } }

theorem serves_of {s : State} {r : Req} {x : Session} (h : s.netUp r.sid.net = true ∧ s.coresAbsent = false ∧
    s.session r.sid = some x ∧ x.done.find? (fun d => d.seq == r.seq) = none ∧ r.sid.byte ≠ 0 ∧ s.outstanding r.sid < 16) :
    s.Serves r x :=
  ⟨h.1, h.2.1, h.2.2.1, h.2.2.2.1, h.2.2.2.2.1, h.2.2.2.2.2⟩

theorem takes_of {s : State} {r : Req} {x : Session} (h : (s.netUp r.sid.net = true ∧ s.coresAbsent = false ∧
    s.session r.sid = some x ∧ x.done.find? (fun d => d.seq == r.seq) = none ∧ r.sid.byte ≠ 0 ∧ s.outstanding r.sid < 16) ∧
    1 ≤ x.level ∧ s.dict.storeBad = false ∧ s.dict.commit = none ∧ s.power.dev ≠ .boot) : s.Takes r x :=
  ⟨serves_of h.1, h.2.1, h.2.2.1, h.2.2.2.1, h.2.2.2.2⟩

/-- What a cold start meets. -/
def boot0 : BootIn := ⟨1000, true, true, false, Vector.replicate 16 false, Vector.replicate 5 false, Vector.replicate 2 false⟩

/-- A frame with nothing measured. -/
def frame0 : FrameIn :=
  { vKA := 12000, vA := 12000, vB := 12000, iA := 0, iB := 0, railMv := 0, bobbinMa := 0, bankMa := Vector.replicate 16 0,
    coilMa2 := Vector.replicate 128 0, clampNc := Vector.replicate 128 0, linkMa := Vector.replicate 2 0, loadMa := Vector.replicate 16 0,
    junction := Vector.replicate 16 250, svMa := Vector.replicate 2 0, temps := Vector.replicate 12 250,
    tempSelfOk := Vector.replicate 12 true, switchMv := Vector.replicate 16 0, imu := none,
    dieDevPs := Vector.replicate 4 0, fills := [], energy := Vector.replicate 4 0,
    pullInUj := Vector.replicate 128 0, clampMj := Vector.replicate 16 0, railsOk := true }

/-- A bridge with an opening due (1), or a request that waits (2). -/
def valveState (k : Nat) : State :=
  (inState .run).modBr 3 (fun b => if k = 1 then { b with edges := [⟨true, 80000000000, 100, 0⟩] }
    else { b with asked := some (80000000000, 90000000000) })

/-- One coefficient, 1.0 at place 199. -/
def patch0 : Bytes := [199, 0, 1, 0, 0, 0, 0x80, 0x3F]

/-- A hank command for slot 15. -/
def hankBody : Bytes := [15, 1] ++ List.replicate 61 0

/-- A hank open with a tile on its way. -/
def fillState : State :=
  (((inState .run).modHank 15 (fun h => { h with state := 2 })).modDis (fun d => { d with fills := [(-1, 7)] })).modPower
    (fun p => { p with geo := true })

/-- A stored tile of hank 0, and the state that holds it. -/
def frame1 : Frame := ⟨0, 0, -1, 7, false, false, true, 0, 5, 0⟩
def exportState : State := (host (inState .ready) ss).modDis (fun d => { d with frames := [frame1] })

/-- The row of P 0x1200.01. -/
def writeDesc : Desc := ⟨0x1200, 1, 0x01, 2, 2, false, 1, 1, 1, 0, 10, 1000, 0x0, 1, 2, 0x64⟩

/-- The row of P 0x1200.02. -/
def imageDesc : Desc := ⟨0x1200, 1, 0x02, 2, 2, false, 1, 1, 1, 0, 10, 1000, 0x0, 1, 2, 0x64⟩

/-- A configuration image of one entry, P 0x1200.02 at 10. -/
def imageHead : Bytes := le 4 1 ++ le 4 1 ++ le 4 76 ++ [0, 0, 0, 0] ++ List.replicate 44 0
def imageTail : Bytes := [0x00, 0x12, 2, 0, 2, 0, 0, 0, 10, 0, 0, 0]
def image0 : Bytes := imageHead ++ le 4 (crc32 (imageHead ++ imageTail)) ++ imageTail
def imageState : State × Nat × Option (Nat × Nat) :=
  ((host (inState .ready) ss).served rq).applyEntries rq.sid 1 [(0x1200, 2, [10, 0])] 0

theorem image_applied : ((host (inState .ready) ss).served rq).applyEntries rq.sid 1 [(0x1200, 2, [10, 0])] 0 = (imageState.1, 1, none) := by
  have h : imageState.2 = (1, none) := by decide +kernel
  change imageState = _
  rw [← h]

/-- HEHDT,123.4,T in its sentence. -/
def hdtBody : Bytes := [0x48, 0x45, 0x48, 0x44, 0x54, 0x2C, 0x31, 0x32, 0x33, 0x2E, 0x34, 0x2C, 0x54]
def hdt : Bytes := [0x24] ++ hdtBody ++ [0x2A, 0x32, 0x42, 0x0D, 0x0A]

/-- The Ethernet link up. -/
def ethOn : State :=
  { inState .ready with
    power := { (inState .ready).power with eth := true }, nets := { Nets.reset with eth := { Eth.reset with up := true } } }

/-- A nozzle table of one nozzle of bare group 1; what is past its end reads as absent. -/
def oneNozzle (s : State) : State :=
  setB s 0x2110 1 [0, 0, 0, 0, 0, 0, 0, 0, 100, 0, 100, 0, 0, 0, 0, 0, 0, 1, 0, 0]

/-- External control with a timeout. -/
def externalState : State := setP (setP (oneNozzle (inState .run)) 0x2200 2 1 1) 0x2200 18 4 500

/-- BARE armed and asked for, nozzle 0 waiting to be tried again. -/
def bareState : State :=
  ((setP (oneNozzle (inState .bare)) 0x3000 1 1 1).modSup (fun x => { x with
    bare := .armed, switches := Vector.replicate _ ⟨true, true, 0, true⟩ })).modCh 0 (fun c => { c with retryAt := some 90000000000 })
def bareAfter : State := (bareState.at 90000000000).modCh (0 : Fin 128) (fun c => { c with retryAt := none })


/-- A closing whose kink window is still to open, and the state that waits for it. -/
def closing1 : Closing := ⟨80000000000, 0, 0, some 80000400000, 80000500000, 80001500000, true, false, false, true, none⟩
def closingState : State := (inState .run).modCh 127 (fun c => { c with closings := [closing1] })

theorem window_due : closingState.windowsDue ((127 : Fin 128).val / 32) closing1.opensAt ((127 : Fin 128)).val = [((127 : Fin 128).val, closing1)] := by
  have h : (((dieChannels 3).flatMap (fun m => ((closingState.ch m).closings.filter (·.waits)).map (fun x => (m, x)))).filter (fun p =>
      decide (p.2.opensAt < 80000500000) || (p.2.opensAt == 80000500000 && decide (p.1 ≤ 127)))) = [(127, closing1)] := by decide +kernel
  change List.mergeSort _ _ = _
  refine Eq.trans (congrArg (fun l => List.mergeSort l _) h) (List.mergeSort_singleton _)

/-- A motor that stands still under torque. -/
def stallState : State :=
  (setP ((inState .run).modPt 1 (fun p => { p with stallAt := some 80000000000 })) 0x3509 1 1 1).modHall 0 (fun p => { p with status := 1 })

/-- What an overrun frame puts back. -/
def undo0 : Undo :=
  ⟨Vector.replicate 132 Output.reset, State.reset.rate, [], [], Vector.replicate 128 [], Vector.replicate 128 none, Vector.replicate 16 [],
    Vector.replicate 4 [], Vector.replicate 4 none, [], [], Vector.replicate 8 ⟨Vector.replicate 2 0, none, 0, none⟩⟩

/-- A HEARTBEAT of session 1, of good form; the same with its CRC-32C wrong. -/
def beatFrame : Bytes := pagrimBytes 1 7 8 0 0 [0, 0, 0, 0, 0, 0, 0, 0]
def badFrame : Bytes := beatFrame.take 20 ++ [0, 0, 0, 0]

/-- A self-test slice with nothing to answer. -/
def slice0 : SliceIn := ⟨[], 0, none⟩

/-- A host that is current, at the controller's place. -/
def ssNow : Session := { ss with beat := 62000000000 }

/-- A state that takes RUN: the staged configuration is the committed one. -/
def runDict : Dict := { Dict.reset with ever := true }
def runState : State :=
  { host (inState .ready) ssNow with
    nets := { (host (inState .ready) ssNow).nets with ctrl := some rq.sid }
    dict := { runDict with digest := runDict.imageDigest }
    power := { (inState .ready).power with ign := true } }

theorem run_committed : (runState.served rq).dict.state = 1 := by
  change (if (runDict.imageDigest == runDict.imageDigest) = true then 1 else 2) = 1
  rw [if_pos (beq_self_eq_true _)]

theorem run_ready : (runState.served rq).runRefusal = 0 := by
  unfold State.runRefusal
  rw [if_neg (by decide +kernel), if_neg (by rw [run_committed]; exact fun h => h rfl)]
  repeat rw [if_neg (by decide +kernel)]
/-! ### Values that no evaluation reaches: a sorted table, a digest -/

/-- The description read from beyond its end. -/
def describeState : State := (host (inState .ready) ss).modDict (fun d => { d with descCur := 4294967295 })

theorem describe_fold (l : List (Nat × Desc)) (a : Nat × List Bytes) :
    (l.foldl (fun (acc : Nat × List Bytes) p =>
      (p.1 / 256, (if acc.1 = p.1 / 256 then [p.2.entry (p.1 / 256)]
        else [p.2.entry (p.1 / 256), subZeroEntry (p.1 / 256)]) ++ acc.2)) a).2.length ≤ a.2.length + 2 * l.length := by
  induction l generalizing a with
  | nil => simp
  | cons p l ih =>
    refine le_trans (ih _) ?_
    simp only [List.length_append, List.length_cons]
    split <;> simp <;> omega

theorem describe_length : (describeFrom 4294967295).length ≤ 65536 := by
  have h : describeAll.length ≤ 4294967295 := by
    have h1 : allParams.length ≤ 100000 := by
      simp only [allParams, List.length_mergeSort]
      decide +kernel
    have h2 := describe_fold allParams (0, [])
    simp only [describeAll, List.length_reverse]
    simp only [List.length_nil] at h2
    omega
  simp [describeFrom, List.drop_eq_nil_of_le h]

theorem read_block {s : State} {lvl idx sub : Nat} {v : Bytes} (h1 : indexInUse idx = true) (h0 : sub ≠ 0)
    (h2 : (findDesc idx sub).map (·.acc) = some 0) (h4 : s.notStarted idx sub = false) (h5 : s.readRO lvl idx sub = v) :
    s.readParam lvl idx sub = .inr (0, v) := by
  cases h : findDesc idx sub with
  | none => simp [h] at h2
  | some d =>
    simp only [h, Option.map_some, Option.some.injEq] at h2
    simp [State.readParam, h1, h0, h, h2, h4, h5]

theorem describe_read :
    (describeState.servedBlock rq).readParam ss.level 0x4403 2 = .inr (0, describeFrom 4294967295) :=
  read_block (by decide +kernel) (by decide) (by decide +kernel) (by decide +kernel) rfl

theorem export_frames : exportState.exportFrames = [frame1] := by
  have h : exportState.dis.frames.filter (fun f => f.slot == exportState.pN 0x2312 1 &&
    decide (exportState.dis.cursor ≤ f.frame)) = [frame1] := by decide +kernel
  simp [State.exportFrames, h]

theorem export_length : exportState.exportTiles.length ≤ 65536 := by
  simp only [State.exportTiles, export_frames]
  decide +kernel

theorem export_read : (exportState.servedBlock rq).readParam ss.level 0x2312 3 = .inr (0, exportState.exportTiles) :=
  read_block (by decide +kernel) (by decide) (by decide +kernel) (by decide +kernel) rfl

/-- A state that takes a COMMIT of its own digest. -/
def commitState : State := host (inState .ready) ss

theorem leNat_zeros (m : Nat) : leNat (List.replicate m (0 : Byte)) = 0 := by
  induction m with
  | zero => rfl
  | succ m ih => simpa [List.replicate_succ, leNat] using ih

theorem bytesAt_zeros (n o k : Nat) : bytesAt (List.replicate n 0) o k = List.replicate k 0 := by
  have h : min k (n - o) + (k - min k (n - o)) = k := by omega
  simp only [bytesAt, List.drop_replicate, List.take_replicate, List.length_replicate, List.replicate_append_replicate, h]

theorem natAt_zeros (n o k : Nat) : natAt (List.replicate n 0) o k = 0 := by
  rw [natAt, bytesAt_zeros, leNat_zeros]

theorem nozzles_zeros (m n k : Nat) : entriesFail (List.replicate m 0) 20 nozzleFields n k = none := by
  induction n generalizing k with
  | zero => rfl
  | succ n ih =>
    simp only [entriesFail, bytesAt_zeros, nozzleFields, natAt_zeros, if_true, fieldsFail, scalarCode, leNat_zeros, ih]

theorem rules_kept (rs : List Rule) (g : Getter) (h : ∀ r ∈ rs, r.ok g = true) :
    rs.foldl (fun (a : Option (Nat × Nat)) r =>
      let first := match a with
        | some p => decide (r.key < p.1)
        | none => true
      if first && !(r.ok g) then some (r.key, if r.code = 0x13 then 0x13 else 0x10) else a) none = none := by
  induction rs with
  | nil => rfl
  | cons r rs ih =>
    simp only [List.foldl_cons, h r (by simp), Bool.not_true, Bool.and_false, Bool.false_eq_true, if_false]
    exact ih (fun x hx => h x (by simp [hx]))

theorem plan_kept (g : Getter) (m : Nat) (h1 : g 0x2110 1 = List.replicate m 0)
    (h3 : g.n 0x2200 4 < g.n 0x2200 3) (h4 : g.n 0x2300 2 ≤ g.n 0x2300 3) : ∀ r ∈ rulesPlan, r.ok g = true := by
  have h : g.present = [] := by
    simp only [Getter.present, Getter.nz, h1, natAt_zeros, bne_self_eq_false, List.filter_false]
  simp only [rulesPlan, Rule.plain, List.forall_mem_cons, h, h1, nozzles_zeros, h3, h4, List.all_nil, List.isEmpty_nil,
    Option.isNone_none, Bool.true_or, decide_true, List.not_mem_nil, false_imp_iff, implies_true, and_self]

theorem no_rule_broken : commitFail (commitState.served rq).imageValue = none := by
  refine rules_kept _ _ ?_
  have h : ∀ rs : List Rule, rs.all (fun r => r.ok (commitState.served rq).imageValue) = true →
      ∀ r ∈ rs, r.ok (commitState.served rq).imageValue = true := fun _ => List.all_eq_true.mp
  simp only [crossRules, List.forall_mem_append, and_assoc]
  refine ⟨h _ ?_, h _ ?_, plan_kept _ 2560 ?_ ?_ ?_, h _ ?_, h _ ?_, h _ ?_, h _ ?_, h _ ?_, h _ ?_⟩ <;> decide +kernel

theorem tail_zeros (b : Bytes) (h : b.length = 32) : natAt (b ++ [0, 0, 0, 0]) 32 1 = 0 ∧ natAt (b ++ [0, 0, 0, 0]) 33 3 = 0 := by
  have h1 : b.drop 33 = [] := List.drop_eq_nil_of_le (by omega)
  simp [natAt, bytesAt, h, h1, leNat, List.drop_append]

theorem validated (s : State) (b : Bytes) (h3 : s.dict.imageDigest = b) (h4 : commitFail s.imageValue = none) :
    (s.validate b false).res = 0 := by
  delta State.validate
  generalize commitFail s.imageValue = o at *
  generalize s.dict.imageDigest = d at *
  subst h3 h4
  show (if d ≠ d then (⟨1, 0xF, 0⟩ : CommitResult) else ⟨0, 0, 0⟩).res = 0
  rw [if_neg (fun h => h rfl)]

theorem judged_last (s : State) (p : Bytes) (h1 : s.dict.commit = none) (h2 : s.commitServed = true) (h5 : p.length = 36)
    (h6 : natAt p 32 1 = 0 ∧ natAt p 33 3 = 0) : s.commitJudge 1 p = s.validate (p.take 32) (natAt p 32 1 == 1) := by
  unfold State.commitJudge
  rw [if_neg (by omega)]
  rw [if_neg (by rw [h1]; simp)]
  rw [if_neg (by rw [h2]; simp)]
  rw [if_neg (by rw [h5]; simp)]
  rw [if_neg (by rw [h6.1, h6.2]; simp)]

theorem judged (s : State) (p b : Bytes) (h : s.commitJudge 1 p = s.validate (p.take 32) (natAt p 32 1 == 1))
    (h6 : natAt p 32 1 = 0) (h7 : p.take 32 = b) (h8 : (s.validate b false).res = 0) : (s.commitJudge 1 p).res = 0 := by
  have h9 : (natAt p 32 1 == 1) = false := by rw [h6]; rfl
  rw [h, h7, h9]
  exact h8

theorem digest_length (d : Dict) : d.imageDigest.length = 32 := by simp [Dict.imageDigest, sha256, be4, le]

theorem commit_judged :
    ((commitState.served rq).commitJudge ss.level (commitState.dict.imageDigest ++ [0, 0, 0, 0])).res = 0 :=
  judged _ _ _ (judged_last _ _ (by decide +kernel) (by decide +kernel) (by rw [List.length_append, digest_length]; rfl)
    (tail_zeros _ (digest_length _))) (tail_zeros _ (digest_length _)).1 (List.take_left' (digest_length _))
    (validated _ _ rfl no_rule_broken)

/-! ### Ill-formed commands -/

theorem test_wf_accepts : Instr.wf (.parameterWrite rq 0x2200 4 [40]) = true := by decide
theorem test_wf_session_byte : Instr.wf (.sessionTimeout ⟨.canB, 256, 0, 0⟩) = false := by decide
theorem test_wf_can_session_address : Instr.wf (.sessionTimeout ⟨.canC, 1, 5, 0⟩) = false := by decide
theorem test_wf_can_session_port : Instr.wf (.blockWriteTimeout ⟨.canC, 1, 0, 5⟩) = false := by decide
theorem test_wf_eth_session_address : Instr.wf (.sessionTimeout ⟨.eth, 1, 4294967296, 0⟩) = false := by decide
theorem test_wf_eth_session_port : Instr.wf (.blockReadSnapshotExpiry ⟨.eth, 1, 5, 65536⟩) = false := by decide
theorem test_wf_sequence : Instr.wf (.cmdRun { rq with seq := 65536 }) = false := by decide
theorem test_wf_crc : Instr.wf (.cmdRun { rq with crc := 4294967296 }) = false := by decide
theorem test_wf_index : Instr.wf (.parameterRead rq 65536 1) = false := by decide
theorem test_wf_sub_index : Instr.wf (.parameterRead rq 0x2200 256) = false := by decide
theorem test_wf_room : Instr.wf (.parameterWrite rq 0x2200 4 (List.replicate 49 0)) = false := by decide
theorem test_wf_segment_offset : Instr.wf (.blockRead rq 0x2110 1 4294967296) = false := by decide
theorem test_wf_segment_total : Instr.wf (.blockWriteSegment rq 0x2110 1 0 4294967296 []) = false := by decide
theorem test_wf_segment_room : Instr.wf (.blockWriteSegment rq 0x2110 1 0 41 (List.replicate 41 0)) = false := by decide
theorem test_wf_body : Instr.wf (.hankCreate rq (List.replicate 64 0)) = false := by decide
theorem test_wf_block (v : Bytes) (h : v.length = 4294967296) : Instr.wf (.tileStream rq v) = false := by
  simp [Instr.wf, blockWf, h]
theorem test_wf_pgn : Instr.wf (.canAMotionMessage 0 262144 1 []) = false := by decide
theorem test_wf_source : Instr.wf (.canAMotionMessage 0 127250 256 []) = false := by decide
theorem test_wf_can_data : Instr.wf (.canAMotionMessage 0 127250 1 (List.replicate 9 0)) = false := by decide
theorem test_wf_commit_room : Instr.wf (.commit rq (List.replicate 49 0)) = false := by decide
theorem test_wf_heartbeat_room : Instr.wf (.hostHeartbeat rq.sid (List.replicate 49 0) 0) = false := by decide
theorem test_wf_time_room : Instr.wf (.timeService rq (List.replicate 49 0)) = false := by decide
theorem test_wf_digest : Instr.wf (.digestRecheck 0 (List.replicate 31 0)) = false := by decide
theorem test_wf_ip : Instr.wf (.arpCacheExpiry 4294967296) = false := by decide
theorem test_wf_mac : Instr.wf (.arpRequest 0 1 281474976710656 2) = false := by decide
theorem test_wf_echo : Instr.wf (.icmpEcho 0 1 2 (List.replicate 1473 0)) = false := by decide +kernel
theorem test_wf_engine : Instr.wf (.imageVerify rq 256) = false := by decide
theorem test_wf_image_length : Instr.wf (.imageOpen rq 0 4294967296) = false := by decide
theorem test_wf_ddi : Instr.wf (.timeIntervalTrigger 65536 0) = false := by decide
theorem test_wf_aon : Instr.wf (.powerOn { boot0 with aon := 18446744073709551616 }) = false := by decide

/-! ### Standard values: CRC-32C and CRC-32 of the digits 1 to 9, SHA-256 of abc, binary32 sums -/

def digits : Bytes := [0x31, 0x32, 0x33, 0x34, 0x35, 0x36, 0x37, 0x38, 0x39]

theorem test_crc32c : crc32c digits = 0xE3069283 := by decide +kernel
theorem test_crc32 : crc32 digits = 0xCBF43926 := by decide +kernel
theorem test_sha256 : (sha256 [0x61, 0x62, 0x63]).take 4 = [0xBA, 0x78, 0x16, 0xBF] := by decide +kernel
theorem test_f32_add : f32Add 0x3F800000 0x40000000 = 0x40400000 := by decide +kernel
theorem test_f32_div : f32Div 0x3F800000 0x40400000 = 0x3EAAAAAB := by decide +kernel
theorem test_f32_sqrt : f32Sqrt 0x40000000 = 0x3FB504F3 := by decide +kernel

/-! ### Single steps -/

/-- What one step of command `c` leaves of a state, if it answers a next state. -/
def after {α : Type} (c : Instr) (s : State) (f : State → α) : Option α :=
  match step { s with pending := [c] } with
  | .next t => some (f t)
  | _ => none

/-- Abort code and first bytes of the reply remembered for `rq`. -/
def replyOf (n : Nat) (t : State) : Option Bytes :=
  ((t.session rq.sid).bind (fun x => x.done.head?)).map (fun d => d.reply.take n)

theorem test_ign_on_boots : after (.ignOn 90000000000 boot0) (inState .standby) (fun t => t.power.dev) = some .boot := by
  decide +kernel
theorem test_collapse : after (.kaCollapse ⟨90000000000, none, false⟩) (inState .run) (fun t => t.power.dev) = some .noSupply := by
  decide +kernel
theorem test_cmd_safe : after (.cmdSafe rq) (host (inState .run) ss) (fun t => t.power.dev) = some .safe := by decide +kernel
theorem test_cmd_run_uncommitted : after (.cmdRun rq) (host (inState .ready) ss) (fun t => t.power.cmdResult) = some 2 := by
  decide +kernel
theorem test_cmd_ready_effect :
    after .stateCommandEffect ((inState .safe).modPower (fun p => { p with cmd := some ⟨4, 90000000000⟩ })) (fun t => t.power.dev) =
      some .ready := by decide +kernel
/-- Step 1 of the example of writes during RUN: class F, accepted, not yet in use. -/
theorem test_write_waits : after (.parameterWrite rq 0x2200 4 [40]) (host (inState .run) ss)
    (fun t => (replyOf 1 t, alookup (pkey 0x2200 4) t.dict.store, t.pN 0x2200 4)) = some (some [0], some [40], 45) := by
  decide +kernel
/-- Step 3 of the same example. -/
theorem test_write_refused_in_run : after (.parameterWrite rq 0x2400 1 [1]) (host (inState .run) ss) (replyOf 1) =
    some (some [0x0E]) := by decide +kernel
theorem test_write_monitor : after (.parameterWrite rq 0x2200 4 [40]) (host (inState .run) { ss with level := 0 }) (replyOf 1) =
    some (some [0x0B]) := by decide +kernel
theorem test_read_unused_index : after (.parameterRead rq 0x1234 1) (host (inState .run) ss) (replyOf 1) = some (some [1]) := by
  decide +kernel
theorem test_read_default : after (.parameterRead rq 0x2200 4) (host (inState .run) ss) (fun t => (replyOf 5 t).map (·.drop 4)) =
    some (some [45]) := by decide +kernel
theorem test_pull_in : after (.pullInStart 0 55000 13500)
    ((setP (inState .run) 0x3000 1 1 1).modCh 0 (fun c => { c with edges := [⟨true, 80000000000, 100, 0⟩] }))
    (fun t => ((t.ch 0).state, (t.ch 0).pull.start, (t.ch 0).edges)) = some (1, 80000000000, []) := by decide +kernel
theorem test_edge_counts : after (.pulseEdge 7 62000000000 true false 1000000) (setP (setP (inState .run) 0x2017 1 1 1) 0x2017 2 1 0)
    (fun t => (t.pulse 7).count) = some 1 := by decide +kernel
theorem test_other_edge_ignored :
    after (.pulseEdge 7 62000000000 false false 1000000) (setP (setP (inState .run) 0x2017 1 1 1) 0x2017 2 1 0)
    (fun t => (t.pulse 7).count) = some 0 := by decide +kernel
theorem test_hank_deleted : after (.hankDeleteDone 15 90000000000) ((inState .run).modHank 15 (fun h => { h with state := 3 }))
    (fun t => (t.hank 15).state) = some 0 := by decide +kernel
theorem test_claim_first_address : after (.addressClaim 90000000000 .start) (setP (inState .ready) 0x1230 1 1 1)
    (fun t => t.nets.canA.trying) = some 128 := by decide +kernel
theorem test_load_trip_turns_off :
    after (.loadTrip 15 (.overTemperature 1750) 90000000000 5) ((inState .run).modLd 15 (fun l => { l with on := true }))
    (fun t => (t.ld 15).on) = some false := by decide +kernel
theorem test_die_reset : after (.edgeWordError 3 .parity 90000000000) ((inState .run).modDie 3 (fun d => { d with state := 1 }))
    (fun t => (t.die 3).state) = some 2 := by decide +kernel
theorem test_first_row_relocated : after (.logRowFailure 90000000000 16383) (inState .run) (fun t => t.skein.remap) =
    some [(16383, 384)] := by decide +kernel
theorem test_heading_sentence :
    after (.nmeaSentence 1 90000000000 hdt) (setP (setP (inState .run) 0x2051 3 1 0x1F) 0x2051 1 1 2)
    (fun t => ((t.uart 1).accepted, (t.uart 1).csFail)) = some (1, 0) := by decide +kernel
/-- The example of a WRITE and its reply on CAN-B: the first 13 bytes, the length padded, the two identifiers. -/
theorem test_example_frame : (pagrimBytes 0x3C 0x0102 2 0x2200 4 [0x28]).take 13 =
    [0x01, 0x3C, 0x02, 0x01, 0x02, 0x00, 0x22, 0x04, 0x01, 0x00, 0x00, 0x00, 0x28] := by decide +kernel
theorem test_example_padded : (canPad (pagrimBytes 0x3C 0x0102 2 0x2200 4 [0x28])).length = 20 := by decide +kernel
theorem test_example_identifiers : canId 2 0 false = 0x08000000 ∧ canId 0x82 0 true = 0x0A000000 := by decide
theorem test_alarm_identifier : canId 7 0 true = 0x02040000 := by decide
theorem test_short_level_is_a_glitch : after (.pulseEdge 7 62000000000 true false 99) (setP (setP (inState .run) 0x2017 1 1 1) 0x2017 3 4 100)
    (fun t => (t.pulse 7).count) = some 0 := by decide +kernel
theorem test_read_identity : after (.parameterRead rq 0x1000 5) (host (inState .run) ss) (replyOf 1) = some (some [0]) := by
  decide +kernel
theorem test_idle : step (inState .run) = .next (inState .run) := rfl

/-! ### The hypotheses of the statements can be met -/

theorem test_hypotheses_EmptyQueueIdles :
    ∃ (s : State), s.pending = [] :=
  ⟨State.reset, by decide +kernel⟩

theorem test_hypotheses_NothingIsUndone :
    ∃ (s : State) (t : State), step s = .next t :=
  ⟨State.reset, State.reset, rfl⟩

theorem test_hypotheses_SoundKept :
    ∃ (s : State) (t : State), s.sound ∧ step s = .next t :=
  ⟨State.reset, State.reset, ⟨by decide +kernel, by unfold State.lifeLegal; decide +kernel⟩, rfl⟩

theorem test_hypotheses_PullInEdges :
    (∃ (n : Fin 128) (e : DieEdge) (s : State), (s.ch n).nextOpen = some e ∧ (s.ch n).state ≠ 1 ∧ (s.ch n).state ≠ 2 ∧ s.chEnabled n = true ∧ s.pullRefused n e.pct = false) ∧
    (∃ (n : Fin 128) (e : DieEdge) (s : State), (s.ch n).nextOpen = some e ∧ (s.ch n).state ≠ 1 ∧ (s.ch n).state ≠ 2 ∧ s.chEnabled n = true ∧ s.pullRefused n e.pct = true) ∧
    (∃ (n : Fin 128) (e : DieEdge) (s : State), (s.ch n).nextOpen = some e ∧ ((s.ch n).state = 1 ∨ (s.ch n).state = 2 ∨ s.chEnabled n = false)) :=
  ⟨⟨127, ⟨true, 80000000000, 100, 0⟩, setP ((inState .run).modCh 127 (fun c => { c with edges := [⟨true, 80000000000, 100, 0⟩] })) 0x307F 1 1 1, by decide +kernel⟩,
   ⟨0, ⟨true, 80000000000, 100, 0⟩, setP ((inState .run).modCh 0 (fun c => { c with edges := [⟨true, 80000000000, 100, 0⟩], ocLatch := true })) 0x3000 1 1 1, by decide +kernel⟩,
   ⟨127, ⟨true, 80000000000, 100, 0⟩, (inState .run).modCh 127 (fun c => { c with edges := [⟨true, 80000000000, 100, 0⟩], state := 2 }), by decide +kernel⟩⟩

theorem test_hypotheses_PullInWindow :
    (∃ (n : Fin 128) (s : State), (s.ch n).state = 1 ∧ (s.ch n).pull.reach = none) ∧
    (∃ (n : Fin 128) (s : State), (s.ch n).state = 1) :=
  ⟨⟨127, (inState .run).modCh 127 (fun c => { c with state := 1 }), by decide +kernel⟩,
   ⟨0, (inState .run).modCh 0 (fun c => { c with state := 1 }), by decide +kernel⟩⟩

theorem test_hypotheses_NozzleClosing :
    (∃ (n : Fin 128) (e : DieEdge) (s : State), (s.ch n).nextClose = some e ∧ ((s.ch n).state = 1 ∨ (s.ch n).state = 2)) ∧
    (∃ (n : Fin 128) (cl : Closing) (s : State), (s.ch n).decaying = some cl) :=
  ⟨⟨127, ⟨false, 80000000000, 100, 0⟩, (inState .run).modCh 127 (fun c => { c with state := 2, edges := [⟨false, 80000000000, 100, 0⟩] }), by decide +kernel⟩,
   ⟨127, ⟨80000000000, 0, 0, none, 80000500000, 80001500000, true, false, false, true, none⟩, (inState .run).modCh 127 (fun c => { c with state := 3, closings := [⟨80000000000, 0, 0, none, 80000500000, 80001500000, true, false, false, true, none⟩] }), by decide +kernel⟩⟩

theorem test_hypotheses_KinkWindow :
    (∃ (n : Fin 128) (cl : Closing) (s : State), (s.ch n).closings.find? (·.waits) = some cl ∧ cl.kink = none ∧ s.windowsDue (n.val / 32) cl.opensAt n = [(n.val, cl)]) ∧
    (∃ (n : Fin 128) (l : List Int) (cl : Closing) (i : Nat) (s : State), (s.ch n).closings.find? (fun y => y.convOn && y.kink.isNone) = some cl ∧ kinkIndex (s.pN (0x3000 + n.val) 0xB) l 0 = some i) ∧
    (∃ (n : Fin 128) (cl : Closing) (s : State), (s.ch n).closings.find? (·.window) = some cl ∧ cl.kink = none) :=
  ⟨⟨127, closing1, closingState, by decide +kernel, by decide +kernel, window_due⟩,
   ⟨127, [0, 0, 1000000], ⟨80000000000, 0, 0, some 80000400000, 80000500000, 80001500000, true, true, false, true, none⟩, 1, (inState .run).modCh 127 (fun c => { c with closings := [⟨80000000000, 0, 0, some 80000400000, 80000500000, 80001500000, true, true, false, true, none⟩] }), by decide +kernel⟩,
   ⟨127, ⟨80000000000, 0, 0, some 80000400000, 80000500000, 80001500000, true, true, false, true, none⟩, (inState .run).modCh 127 (fun c => { c with closings := [⟨80000000000, 0, 0, some 80000400000, 80000500000, 80001500000, true, true, false, true, none⟩] }), by decide +kernel⟩⟩

theorem test_hypotheses_ChannelTrips :
    (∃ (n : Fin 128) (x : TripIn) (s : State), ((s.ch n).state = 1 ∨ (s.ch n).state = 2) ∧ s.ocThreshold n < x.ma ∧ max (s.ch n).pull.start x.onAt + 1000 ≤ x.at_) ∧
    (∃ (n : Fin 128) (c : IT) (s : State), (s.ch n).lastCmd = some c ∧ (s.ch n).state ≠ 1 ∧ (s.ch n).state ≠ 2) :=
  ⟨⟨127, ⟨90000000000, 1000000, 0⟩, (inState .run).modCh 127 (fun c => { c with state := 2 }), by decide +kernel⟩,
   ⟨127, 80000000000, (inState .run).modCh 127 (fun c => { c with lastCmd := some 80000000000 }), by decide +kernel⟩⟩

theorem test_hypotheses_BankTrips :
    (∃ (b : Fin 16) (x : TripIn) (s : State), s.bankOut b = false ∧ (s.bank b).limit < x.ma) ∧
    (∃ (b : Fin 16) (x : IT) (s : State), (s.bank b).tripTill = some x) :=
  ⟨⟨15, ⟨90000000000, 1000000, 0⟩, inState .run, by decide +kernel⟩,
   ⟨15, 90000000000, (inState .run).modBank 15 (fun b => { b with tripTill := some 90000000000 }), by decide +kernel⟩⟩

theorem test_hypotheses_SwitchFault :
    ∃ (b : Fin 16) (at_ : IT) (s : State), s.power.dev.awake = true ∧ s.commonAt b at_ = 0 :=
  ⟨15, 90000000000, inState .run, by decide +kernel⟩

theorem test_hypotheses_DieResets :
    (∃ (d : Fin 4) (s : State), (s.die d).state = 1) ∧
    (∃ (d : Fin 4) (s : State), (s.die d).state = 2) :=
  ⟨⟨3, (inState .run).modDie 3 (fun d => { d with state := 1 }), by decide +kernel⟩,
   ⟨3, (inState .run).modDie 3 (fun d => { d with state := 2 }), by decide +kernel⟩⟩

theorem test_hypotheses_RailState :
    (∃ (s : State), s.power.dev.awake = true ∧ s.bob.railHigh = false) ∧
    (∃ (s : State), s.power.dev.awake = true) ∧
    (∃ (s : State), s.power.dev.awake = true) ∧
    (∃ (s : State), s.power.dev.awake = true) ∧
    (∃ (c : RailCause) (s : State), s.power.dev.awake = true ∧ (c = .underVoltage → s.power.dev = .run ∨ s.power.dev = .bare)) ∧
    (∃ (s : State), s.bob.state = 1) ∧
    (∃ (s : State), s.power.dev.awake = true ∧ s.bob.discharging = true ∧ s.bob.state ≠ 5 ∧ s.power.dev ≠ .shutdown) ∧
    (∃ (s : State), s.power.dev.awake = true ∧ s.bob.discharging = true ∧ s.bob.state ≠ 5 ∧ s.power.dev = .shutdown ∧ s.power.stage < 5) :=
  ⟨⟨inState .run, by decide +kernel⟩,
   ⟨inState .run, by decide +kernel⟩,
   ⟨inState .run, by decide +kernel⟩,
   ⟨inState .run, by decide +kernel⟩,
   ⟨.underVoltage, inState .run, by decide +kernel⟩,
   ⟨(inState .ready).modBob (fun b => { b with state := 1 }), by decide +kernel⟩,
   ⟨(inState .ready).modBob (fun b => { b with discharging := true }), by decide +kernel⟩,
   ⟨(inState .shutdown).modBob (fun b => { b with discharging := true }), by decide +kernel⟩⟩

theorem test_hypotheses_LoopSteps :
    ∃ (w : Fin 8) (s : State), s.power.dev = .run ∧ s.lpOn w = true :=
  ⟨7, setP (inState .run) 0x3107 1 1 1, by decide +kernel⟩

theorem test_hypotheses_SpinnerTransfers :
    ∃ (k : Fin 16) (d : Nat) (s : State), (s.sp k).live = true ∧ d = s.pN (0x3400 + k.val) 1 :=
  ⟨15, 0, (inState .run).modSp 15 (fun x => { x with live := true }), by decide +kernel⟩

theorem test_hypotheses_ValveDrives :
    (∃ (h : Fin 4) (e : DieEdge) (es : List DieEdge) (s : State), (s.br h).edges = e :: es ∧ s.brFree h = true ∧ e.opens = false) ∧
    (∃ (h : Fin 4) (e : DieEdge) (es : List DieEdge) (s : State), (s.br h).edges = e :: es ∧ s.brFree h = false) ∧
    (∃ (h : Fin 4) (x : TravelIn) (o : Bool) (t0 : IT) (p : Nat) (s : State), (s.br h).drive = some (o, t0, p) ∧ t0 + 120000000 ≤ x.at_ ∧ s.pN (0x3500 + h.val) 7 < x.ma) ∧
    (∃ (h : Fin 4) (o : Bool) (t0 : IT) (p : Nat) (s : State), (s.br h).drive = some (o, t0, p)) ∧
    (∃ (h : Fin 4) (e : DieEdge) (es : List DieEdge) (s : State) (u : State), (s.br h).edges = e :: es ∧ s.brFree h = true ∧ e.opens = true ∧ ((s.at e.it).modBr h (fun x => { x with edges := es })).requestTorque h (s.pEl 0x1400 8 4 h * s.pN (0x3500 + h.val) 6 / 100) (secondBoundary (((s.at e.it).modBr h (fun x => { x with edges := es })).takesAt (1 + h.val))) = (u, .granted)) ∧
    (∃ (h : Fin 4) (first : IT) (x : IT) (s : State) (u : State), (s.br h).asked = some (first, x) ∧ (s.at x).requestTorque h (s.pEl 0x1400 8 4 h * s.pN (0x3500 + h.val) 6 / 100) (secondBoundary ((s.at x).takesAt (1 + h.val))) = (u, .granted)) :=
  ⟨⟨3, ⟨false, 80000000000, 100, 0⟩, [], (inState .run).modBr 3 (fun b => { b with edges := [⟨false, 80000000000, 100, 0⟩] }), by decide +kernel⟩,
   ⟨3, ⟨false, 80000000000, 100, 0⟩, [], (inState .run).modBr 3 (fun b => { b with edges := [⟨false, 80000000000, 100, 0⟩], latch := true }), by decide +kernel⟩,
   ⟨3, ⟨90000000000, 1000000⟩, true, 80000000000, 100, (inState .run).modBr 3 (fun b => { b with drive := some (true, 80000000000, 100) }), by decide +kernel⟩,
   ⟨3, true, 80000000000, 100, (inState .run).modBr 3 (fun b => { b with drive := some (true, 80000000000, 100) }), by decide +kernel⟩,
   ⟨3, ⟨true, 80000000000, 100, 0⟩, [], valveState 1, ((((valveState 1).at 80000000000).modBr (3 : Fin 4) (fun x => { x with edges := [] })).requestTorque (3 : Fin 4) ((valveState 1).pEl 0x1400 8 4 (3 : Fin 4) * (valveState 1).pN (0x3500 + (3 : Fin 4).val) 6 / 100) (secondBoundary ((((valveState 1).at 80000000000).modBr (3 : Fin 4) (fun x => { x with edges := [] })).takesAt (1 + (3 : Fin 4).val)))).1, by decide +kernel, by decide +kernel, by decide +kernel, Prod.ext rfl (by decide +kernel)⟩,
   ⟨3, 80000000000, 90000000000, valveState 2, (((valveState 2).at 90000000000).requestTorque (3 : Fin 4) ((valveState 2).pEl 0x1400 8 4 (3 : Fin 4) * (valveState 2).pN (0x3500 + (3 : Fin 4).val) 6 / 100) (secondBoundary (((valveState 2).at 90000000000).takesAt (1 + (3 : Fin 4).val)))).1, by decide +kernel, Prod.ext rfl (by decide +kernel)⟩⟩

theorem test_hypotheses_OutputTrips :
    (∃ (o : Fin 6) (ma : Nat) (s : State), s.power.dev.awake = true ∧ o.val < 4 ∧ 16000 < ma) ∧
    (∃ (o : Fin 6) (k : TripKind) (s : State), s.power.dev.awake = true ∧ 4 ≤ o.val ∧ ((∃ mv ns, k = .desaturation mv ns ∧ s.pN (0x3504 + o.val) 5 < mv ∧ s.pN (0x3504 + o.val) 6 ≤ ns) ∨ (∃ ma, k = .linkCurrent ma ∧ s.pN (0x3504 + o.val) 8 < ma) ∨ (∃ mv, k = .gateSupply mv ∧ mv < 9000))) ∧
    (∃ (o : Fin 6) (k : TripKind) (s : State), s.tripsOutput o k = false) ∧
    (∃ (o : Fin 6) (x : IT) (s : State), o.val < 4 ∧ (s.br o).tripTill = some x) ∧
    (∃ (o : Fin 6) (x : IT) (s : State), 4 ≤ o.val ∧ (s.pt (o.val - 4)).tripTill = some x) ∧
    (∃ (g : Fin 2) (x : IT) (s : State), s.stallDue g x = true) :=
  ⟨⟨3, 16001, inState .run, by decide +kernel⟩,
   ⟨5, .gateSupply 8999, inState .run, by decide +kernel, by decide +kernel, .inr (.inr ⟨8999, rfl, by decide⟩)⟩,
   ⟨3, .overCurrent 16000, inState .run, by decide +kernel⟩,
   ⟨3, 90000000000, (inState .run).modBr 3 (fun b => { b with tripTill := some 90000000000 }), by decide +kernel⟩,
   ⟨5, 90000000000, (inState .run).modPt 1 (fun b => { b with tripTill := some 90000000000 }), by decide +kernel⟩,
   ⟨1, 90000000000, stallState, by decide +kernel⟩⟩

theorem test_hypotheses_LoadTripsAndRestarts :
    (∃ (j : Fin 16) (k : LoadTripKind) (x : IT) (s : State), s.tripMet j k x = true) ∧
    (∃ (j : Fin 16) (x : IT) (x0 : IT) (q : Int) (s : State), (s.ld j).tripAt = some x0 ∧ x0 + s.pN (0x3600 + j.val) 0xC * 1000000 ≤ x ∧ (s.ld j).retries ≤ s.pN (0x3600 + j.val) 0xB ∧ (s.pN (0x3600 + j.val) 9 = 1 ∨ s.ldJunction j q < 1750 - 10 * s.pN (0x3600 + j.val) 0xA) ∧ (s.ld j).therm = false ∧ (s.ld j).retryL = false ∧ s.ldThermHold j = false ∧ s.ldWant j = true ∧ s.contained 0xE005 (7 + j.val) = false ∧ (s.ld j).on = false) ∧
    (∃ (j : Fin 16) (x : IT) (s : State), (s.ld j).waitTill = some x ∧ s.ldThermHold j = false ∧ s.ldWant j = true ∧ (s.ld j).therm = false ∧ (s.ld j).retryL = false ∧ (s.ld j).tripAt = none ∧ s.contained 0xE005 (7 + j.val) = false ∧ (s.ld j).on = false) ∧
    (∃ (j : Fin 16) (x : IT) (s : State), (s.ld j).waitTill = some x ∧ s.ldWant j = false) ∧
    (∃ (j : Fin 16) (s : State), (s.ld j).on = true ∧ (s.ld j).therm = false) ∧
    (∃ (j : Fin 16) (x : IT) (a : IT) (s : State), (s.ld j).on = true ∧ s.pN (0x3600 + j.val) 2 = 0 ∧ (s.ld j).current < s.pN (0x3600 + j.val) 0x12 ∧ (s.ld j).lowAt = some a ∧ x < max (s.ld j).onSince a + 100000000) ∧
    (∃ (j : Fin 16) (x : IT) (a : IT) (s : State), (s.ld j).on = true ∧ s.pN (0x3600 + j.val) 2 = 0 ∧ (s.ld j).current < s.pN (0x3600 + j.val) 0x12 ∧ (s.ld j).lowAt = some a ∧ max (s.ld j).onSince a + 100000000 ≤ x) :=
  ⟨⟨15, .overTemperature 1750, 90000000000, (inState .run).modLd 15 (fun l => { l with on := true }), by decide +kernel⟩,
   ⟨15, 200000000000, 80000000000, 3, (setP (setP (setP (inState .run) 0x360F 1 1 1) 0x360F 0x10 1 1) 0x360F 9 1 1).modLd 15 (fun l => { l with tripAt := some 80000000000 }), by decide +kernel⟩,
   ⟨15, 90000000000, (setP (setP (inState .run) 0x360F 1 1 1) 0x360F 0x10 1 1).modLd 15 (fun l => { l with waitTill := some 90000000000 }), by decide +kernel⟩,
   ⟨15, 90000000000, (inState .run).modLd 15 (fun l => { l with waitTill := some 90000000000 }), by decide +kernel⟩,
   ⟨15, (inState .run).modLd 15 (fun l => { l with on := true }), by decide +kernel⟩,
   ⟨15, 80099999999, 80000000000, (setP (setP (inState .run) 0x360F 2 1 0) 0x360F 0x12 2 1).modLd 15 (fun l => { l with on := true, lowAt := some 80000000000 }), by decide +kernel⟩,
   ⟨15, 80100000000, 80000000000, (setP (setP (inState .run) 0x360F 2 1 0) 0x360F 0x12 2 1).modLd 15 (fun l => { l with on := true, lowAt := some 80000000000 }), by decide +kernel⟩⟩

theorem test_hypotheses_BudgetSuppliesTimers :
    (∃ (x : IT) (s : State), s.budget.overAt = some x ∧ s.budget.shedC2 = false) ∧
    (∃ (y : SupplySubject) (c : SupplyCause) (v : Nat) (s : State), s.power.dev.awake = true ∧ s.supplyMeets y c v = true) ∧
    (∃ (s : State), s.power.dev.awake = true) ∧
    (∃ (i : Fin 2) (x : IT) (s : State), vget s.budget.svOff i none = some x) ∧
    (∃ (d : Fin 6) (x : IT) (s : State), vget s.therm.hold d none = some x) ∧
    (∃ (d : Fin 4) (x : IT) (s : State), vget s.therm.unavail d none = some x) :=
  ⟨⟨90000000000, { inState .run with budget := { Budget.reset with overAt := some 90000000000 } }, by decide +kernel⟩,
   ⟨.ka, .low, 5, inState .run, by decide +kernel⟩,
   ⟨inState .run, by decide +kernel⟩,
   ⟨1, 90000000000, { inState .run with budget := { Budget.reset with svOff := Vector.replicate 2 (some 90000000000) } }, by decide +kernel⟩,
   ⟨5, 90000000000, (inState .run).modTherm (fun t => { t with hold := Vector.replicate 6 (some 90000000000) }), by decide +kernel⟩,
   ⟨3, 90000000000, (inState .run).modTherm (fun t => { t with unavail := Vector.replicate 4 (some 90000000000) }), by decide +kernel⟩⟩

theorem test_hypotheses_NozzleLatchClears :
    (∃ (r : Req) (x : Session) (s : State), s.Takes r x) ∧
    (∃ (r : Req) (x : Session) (s : State), s.Takes r x) :=
  ⟨⟨rq, ss, host (inState .ready) ss, takes_of (by decide +kernel)⟩,
   ⟨rq, ss, host (inState .ready) ss, takes_of (by decide +kernel)⟩⟩

theorem test_hypotheses_OutputCommands :
    (∃ (r : Req) (x : Session) (o : Fin 6) (s : State), s.Takes r x ∧ o.val < 4) ∧
    (∃ (r : Req) (x : Session) (o : Fin 6) (s : State), s.Takes r x ∧ 4 ≤ o.val) ∧
    (∃ (r : Req) (x : Session) (v : Byte) (s : State), s.Takes r x ∧ v.toNat < 4) ∧
    (∃ (r : Req) (x : Session) (j : Fin 16) (v : Byte) (s : State), s.Takes r x ∧ v.toNat < 2 ∧ writeFail (s.proposed (pkey (0x3600 + j.val) 0x10) [v]) (pkey (0x3600 + j.val) 0x10) s.strict = 0) :=
  ⟨⟨rq, ss, 3, host (inState .ready) ss, takes_of (by decide +kernel), by decide +kernel⟩,
   ⟨rq, ss, 5, host (inState .ready) ss, takes_of (by decide +kernel), by decide +kernel⟩,
   ⟨rq, ss, 3, host (inState .ready) ss, takes_of (by decide +kernel), by decide +kernel⟩,
   ⟨rq, ss, 15, 1, host (inState .ready) ss, takes_of (by decide +kernel), by decide +kernel⟩⟩

theorem test_hypotheses_SmallWrites :
    (∃ (r : Req) (x : Session) (s : State), s.Takes r x) ∧
    (∃ (r : Req) (x : Session) (v : Bytes) (s : State), s.Takes r x ∧ v.length = 4) ∧
    (∃ (r : Req) (x : Session) (s : State), s.Takes r x) ∧
    (∃ (r : Req) (x : Session) (v : Byte) (s : State), s.Takes r x ∧ writeFail (s.proposed (pkey 0x2110 3) [v]) (pkey 0x2110 3) s.strict = 0) :=
  ⟨⟨rq, ss, host (inState .ready) ss, takes_of (by decide +kernel)⟩,
   ⟨rq, ss, [0xFF, 0xFF, 0xFF, 0x7F], host (inState .ready) ss, takes_of (by decide +kernel), by decide +kernel⟩,
   ⟨rq, ss, host (inState .ready) ss, takes_of (by decide +kernel)⟩,
   ⟨rq, ss, 0, host (inState .ready) ss, takes_of (by decide +kernel), by decide +kernel⟩⟩

theorem test_hypotheses_LoopWrites :
    (∃ (r : Req) (x : Session) (w : Fin 8) (m : Byte) (s : State), s.Takes r x ∧ m.toNat < 3 ∧ writeFail (s.proposed (pkey (0x3100 + w.val) 0xF) [m]) (pkey (0x3100 + w.val) 0xF) s.strict = 0) ∧
    (∃ (r : Req) (x : Session) (w : Fin 8) (j : Fin 8) (v : Bytes) (ks : List (Nat × F32)) (c : Instr) (sub : Nat) (s : State), s.Takes r x ∧ (c = .regionTableWrite r w j v ∧ sub = 1 ∧ ks = (tableCoefs v).map (fun p => (j.val * 200 + p.1, p.2)) ∧ writeFail (s.proposed (pkey (0x3210 + 8 * w.val + j.val) 1) v) (pkey (0x3210 + 8 * w.val + j.val) 1) s.strict = 0 ∨ c = .coefficientPatch r w j v ∧ sub = 2 ∧ ks = (patchCoefs v).map (fun p => (j.val * 200 + p.1, p.2))) ∧ s.coefHeld = false ∧ (findDesc (0x3210 + 8 * w.val + j.val) sub).bind (fun d => valueFail d (0x3210 + 8 * w.val + j.val) sub v) = none) ∧
    (∃ (r : Req) (x : Session) (s : State), s.Takes r x) :=
  ⟨⟨rq, ss, 7, 1, host (inState .ready) ss, takes_of (by decide +kernel), by decide +kernel⟩,
   ⟨rq, ss, 7, 7, patch0, (patchCoefs patch0).map (fun p => (7 * 200 + p.1, p.2)), .coefficientPatch rq 7 7 patch0, 2, host (inState .ready) ss, takes_of (by decide +kernel), by decide +kernel⟩,
   ⟨rq, ss, host (inState .ready) ss, takes_of (by decide +kernel)⟩⟩

theorem test_hypotheses_HankAndTileCommands :
    (∃ (r : Req) (x : Session) (b : Bytes) (s : State), s.Takes r x ∧ b.length = 63 ∧ s.dis.result ≠ 1 ∧ s.hankJudge (1 :: b) = 0 ∧ s.sliceAt (headerAt (natAt b 0 1)) 4096 = false) ∧
    (∃ (r : Req) (x : Session) (b : Bytes) (s : State), s.Takes r x ∧ b.length = 63 ∧ s.dis.result ≠ 1 ∧ s.sliceAt (headerAt (natAt b 0 1)) 4096 = false ∧ s.hankJudge (2 :: b) = 0) ∧
    (∃ (r : Req) (x : Session) (b : Bytes) (s : State), s.Takes r x ∧ b.length = 63 ∧ s.dis.result ≠ 1 ∧ s.sliceAt (headerAt (natAt b 0 1)) 4096 = false ∧ s.hankJudge (3 :: b) = 0) ∧
    (∃ (r : Req) (x : Session) (b : Bytes) (s : State), s.Takes r x ∧ b.length = 63 ∧ s.dis.result ≠ 1 ∧ s.sliceAt (headerAt (natAt b 0 1)) 4096 = false ∧ s.hankJudge (4 :: b) = 0) ∧
    (∃ (r : Req) (x : Session) (v : Bytes) (s : State), s.Takes r x ∧ v.length = 16 + natAt v 12 2 ∧ v.length ≤ 65536 ∧ s.mramHeld = false ∧ s.sliceAt (headerAt (natAt v 0 1)) 4096 = false ∧ s.backHeld (natAt v 0 1) (intAt v 4 2) (intAt v 6 2) = false) :=
  ⟨⟨rq, ss, hankBody, (host (inState .run) ss).modHank 15 (fun h => { h with state := 0 }), takes_of (by decide +kernel), by decide +kernel⟩,
   ⟨rq, ss, hankBody, (host (inState .run) ss).modHank 15 (fun h => { h with state := 1 }), takes_of (by decide +kernel), by decide +kernel⟩,
   ⟨rq, ss, hankBody, (host (inState .run) ss).modHank 15 (fun h => { h with state := 2 }), takes_of (by decide +kernel), by decide +kernel⟩,
   ⟨rq, ss, hankBody, (host (inState .run) ss).modHank 15 (fun h => { h with state := 1 }), takes_of (by decide +kernel), by decide +kernel⟩,
   ⟨rq, ss, List.replicate 16 0, host (inState .ready) ss, takes_of (by decide +kernel), by decide +kernel⟩⟩

theorem test_hypotheses_HankEngine :
    (∃ (k : Fin 16) (s : State), s.power.dev.awake = true ∧ (s.hank k).state = 3 ∧ s.sliceAt (headerAt k.val) 4096 = false) ∧
    (∃ (c : CloseSeq) (s : State), s.dis.close = some c ∧ (s.power.geo = true → c.at_ < s.dis.horizon) ∧ c.slot < 16 ∧ s.closeHeld c.slot = false) ∧
    (∃ (c : Int) (r : Int) (x : IT) (k : Nat) (s : State) (u : State), s.heldHank = some k ∧ (c, r) ∈ s.dis.fills ∧ s.power.geo = true ∧ s.lapHeld = false ∧ (s.at x).makeRoom (s.hank k).mm = some u) ∧
    (∃ (c : Int) (r : Int) (x : IT) (d : IT) (k : Nat) (w : CTile) (s : State), s.heldHank = some k ∧ s.cached c r = some w ∧ w.dirty = some d ∧ (s.dis.fills = [] ∨ s.dis.backs < 15) ∧ s.lapHeld = false ∧ s.backHeld k c r = false ∧ (w.noAlloc = true ∧ 0 < s.freeTiles ∨ w.noAlloc = false ∧ (w.changed + s.pN 0x2300 2 * 1000000 ≤ x ∨ d + s.pN 0x2300 3 * 1000000 ≤ x))) ∧
    (∃ (c : Int) (r : Int) (k : Nat) (w : CTile) (s : State), s.heldHank = some k ∧ s.cached c r = some w ∧ w.noAlloc = true ∧ w.dirty = none ∧ 0 < s.freeTiles ∧ (s.dis.fills = [] ∨ s.dis.backs < 15) ∧ s.lapHeld = false ∧ s.backHeld k c r = false) :=
  ⟨⟨15, (host (inState .run) ss).modHank 15 (fun h => { h with state := 3 }), by decide +kernel⟩,
   ⟨⟨15, 80000000000, false⟩, (inState .run).modDis (fun d => { d with close := some ⟨15, 80000000000, false⟩ }), by decide +kernel⟩,
   ⟨-1, 7, 90000000000, 15, fillState, (fillState.at 90000000000), by decide +kernel, by decide +kernel, by decide +kernel, by decide +kernel, if_pos (by decide +kernel)⟩,
   ⟨-1, 7, 9000000000000, 80000000000, 15, (⟨-1, 7, List.replicate 64 0, some 80000000000, 80000000000, 0, false, true, false, 0⟩ : CTile), ((inState .run).modHank 15 (fun h => { h with state := 2 })).modDis (fun d => { d with cache := [(⟨-1, 7, List.replicate 64 0, some 80000000000, 80000000000, 0, false, true, false, 0⟩ : CTile)] }), by decide +kernel⟩,
   ⟨-1, 7, 15, (⟨-1, 7, List.replicate 64 0, none, 80000000000, 0, true, true, false, 0⟩ : CTile), ((inState .run).modHank 15 (fun h => { h with state := 2 })).modDis (fun d => { d with cache := [(⟨-1, 7, List.replicate 64 0, none, 80000000000, 0, true, true, false, 0⟩ : CTile)] }), by decide +kernel⟩⟩

theorem test_hypotheses_Reads :
    (∃ (r : Req) (x : Session) (i : Nat) (sub : Nat) (st : Nat) (v : Bytes) (s : State), s.Serves r x ∧ s.inBootRom = false ∧ (s.mramHeld = false ∨ mramRead i sub = false) ∧ pkey i sub ∉ [pkey 0x1201 1, pkey 0x2312 3, pkey 0x4002 3, pkey 0x4002 4, pkey 0x4201 7, pkey 0x4403 2] ∧ (s.served r).readParam x.level i sub = .inr (st, v) ∧ v.length ≤ maxPayload r.sid.net - 4) ∧
    (∃ (r : Req) (x : Session) (i : Nat) (sub : Nat) (st : Nat) (v : Bytes) (s : State), s.Serves r x ∧ s.inBootRom = false ∧ (s.servedBlock r).readParam x.level i sub = .inr (st, v) ∧ v.length ≤ 65536) ∧
    (∃ (r : Req) (x : Session) (b : BlockSnap) (off : Nat) (s : State), s.Serves r x ∧ x.bs = some b ∧ off ≠ 0 ∧ max s.it r.rx < b.last + 1000000000) ∧
    (∃ (r : Req) (x : Session) (i : Nat) (sub : Nat) (c : Nat) (s : State), s.Serves r x ∧ pkey i sub ≠ pkey 0x1201 1 ∧ s.inBootRom = false ∧ (s.mramHeld = false ∨ mramRead i sub = false) ∧ (s.served r).readParam x.level i sub = .inl c) :=
  ⟨⟨rq, ss, 0x1200, 1, 0, [100, 0], host (inState .ready) ss, serves_of (by decide +kernel), by decide +kernel⟩,
   ⟨rq, ss, 0x1200, 1, 0, [100, 0], host (inState .ready) ss, serves_of (by decide +kernel), by decide +kernel⟩,
   ⟨rq, { ss with bs := some ⟨0x4003, 1, 0, List.replicate 64 0, 89000000001⟩ }, ⟨0x4003, 1, 0, List.replicate 64 0, 89000000001⟩, 40, host (inState .ready) ({ ss with bs := some ⟨0x4003, 1, 0, List.replicate 64 0, 89000000001⟩ }), serves_of (by decide +kernel), by decide +kernel⟩,
   ⟨rq, ss, 0x1200, 99, 2, host (inState .ready) ss, serves_of (by decide +kernel), by decide +kernel⟩⟩

theorem test_hypotheses_CursorReads :
    (∃ (r : Req) (x : Session) (v : Bytes) (s : State), s.Serves r x ∧ v.length ≤ 65536 ∧ s.inBootRom = false ∧ (s.servedBlock r).readParam x.level 0x4403 2 = .inr (0, v)) ∧
    (∃ (r : Req) (x : Session) (v : Bytes) (f : Frame) (s : State), s.Serves r x ∧ v.length ≤ 65536 ∧ s.mramHeld = false ∧ s.inBootRom = false ∧ (s.servedBlock r).readParam x.level 0x2312 3 = .inr (0, v) ∧ s.exportFrames.getLast? = some f) ∧
    (∃ (r : Req) (x : Session) (b : Bool) (v : Bytes) (s : State), s.Serves r x ∧ v.length ≤ 65536 ∧ s.mramHeld = false ∧ s.inBootRom = false ∧ (s.servedBlock r).readParam x.level 0x4002 (if b then 4 else 3) = .inr (0, v)) :=
  ⟨⟨rq, ss, describeFrom 4294967295, describeState, serves_of (by decide +kernel), describe_length, by decide +kernel, describe_read⟩,
   ⟨rq, ss, exportState.exportTiles, frame1, exportState, serves_of (by decide +kernel), export_length, by decide +kernel, by decide +kernel, export_read, by rw [export_frames]; rfl⟩,
   ⟨rq, ss, true, ((host (inState .ready) ss).servedBlock rq).readRO ss.level 0x4002 4, host (inState .ready) ss, serves_of (by decide +kernel), by decide +kernel, by decide +kernel, by decide +kernel, read_block (by decide +kernel) (by decide) (by decide +kernel) (by decide +kernel) rfl⟩⟩

theorem test_hypotheses_RaisedLevel :
    (∃ (r : Req) (x : Session) (s : State), s.Serves r x ∧ s.nets.lockUntil = none) ∧
    (∃ (r : Req) (x : Session) (v : Bytes) (s : State), s.Takes r x ∧ v.length = 68 ∧ natAt v 1 3 = 0 ∧ (natAt v 0 1 = 2 ∨ natAt v 0 1 = 3)) ∧
    (∃ (r : Req) (x : Session) (s : State), s.Takes r x) ∧
    (∃ (i : SessionId) (x : Session) (s : State), s.nets.ctrl = some i ∧ s.session i = some x ∧ 1 < x.level) ∧
    (∃ (x : IT) (s : State), s.nets.lockUntil = some x) :=
  ⟨⟨rq, ss, host (inState .ready) ss, serves_of (by decide +kernel), by decide +kernel⟩,
   ⟨rq, ss, 3 :: List.replicate 67 0, host (inState .ready) ss, takes_of (by decide +kernel), by decide +kernel⟩,
   ⟨rq, ss, host (inState .ready) ss, takes_of (by decide +kernel)⟩,
   ⟨rq.sid, ss3, { host (inState .ready) ss3 with nets := { (host (inState .ready) ss3).nets with ctrl := some rq.sid } }, by decide +kernel⟩,
   ⟨90000000000, { inState .ready with nets := { Nets.reset with lockUntil := some 90000000000 } }, by decide +kernel⟩⟩

theorem test_hypotheses_Writes :
    (∃ (r : Req) (x : Session) (i : Nat) (sub : Nat) (v : Bytes) (d : Desc) (s : State), s.Takes r x ∧ v.length ≤ maxPayload r.sid.net ∧ (s.served r).writeCheck x.level i sub v = (0, 0) ∧ findDesc i sub = some d ∧ (d.acc = 1 ∨ d.acc = 3)) ∧
    (∃ (r : Req) (x : Session) (i : Nat) (sub : Nat) (c : Nat) (off : Nat) (v : Bytes) (s : State), s.Takes r x ∧ v.length ≤ maxPayload r.sid.net ∧ (s.served r).writeCheck x.level i sub v = (c, off) ∧ c ≠ 0) :=
  ⟨⟨rq, ss3, 0x1200, 1, [10, 0], writeDesc, host (inState .ready) ss3, takes_of (by decide +kernel), by decide +kernel⟩,
   ⟨rq, ss, 0x1200, 1, 11, 0, [10, 0], host (inState .ready) ss, takes_of (by decide +kernel), by decide +kernel⟩⟩

theorem test_hypotheses_BlockTransfers :
    (∃ (r : Req) (x : Session) (i : Nat) (sub : Nat) (total : Nat) (data : Bytes) (s : State), s.Takes r x ∧ data.length ≤ writeRoom r.sid.net ∧ data.length < total ∧ blockFail i sub total data.length = 0) ∧
    (∃ (r : Req) (x : Session) (b : BlockWrite) (off : Nat) (data : Bytes) (s : State), s.Takes r x ∧ data.length ≤ writeRoom r.sid.net ∧ x.bw = some b ∧ off ≠ 0 ∧ blockFail b.idx b.sub b.total (b.data.length + data.length) = 0 ∧ max s.it r.rx < b.last + 1000000000 ∧ off = b.data.length ∧ off + data.length < b.total) ∧
    (∃ (r : Req) (x : Session) (b : BlockWrite) (off : Nat) (data : Bytes) (s : State), s.Takes r x ∧ data.length ≤ writeRoom r.sid.net ∧ x.bw = some b ∧ off ≠ 0 ∧ blockFail b.idx b.sub b.total (b.data.length + data.length) = 0 ∧ max s.it r.rx < b.last + 1000000000 ∧ off ≠ b.data.length) ∧
    (∃ (i : SessionId) (x : Session) (b : BlockWrite) (s : State), s.session i = some x ∧ x.bw = some b) ∧
    (∃ (i : SessionId) (x : Session) (b : BlockSnap) (s : State), s.session i = some x ∧ x.bs = some b) :=
  ⟨⟨rq, ss, 0x2110, 1, 20, List.replicate 19 0, host (inState .ready) ss, takes_of (by decide +kernel), by decide +kernel⟩,
   ⟨rq, { ss with bw := some ⟨0x2110, 1, 40, List.replicate 20 0, 1, 0, 62000000000⟩ }, ⟨0x2110, 1, 40, List.replicate 20 0, 1, 0, 62000000000⟩, 20, List.replicate 19 0, host (inState .ready) ({ ss with bw := some ⟨0x2110, 1, 40, List.replicate 20 0, 1, 0, 62000000000⟩ }), takes_of (by decide +kernel), by decide +kernel⟩,
   ⟨rq, { ss with bw := some ⟨0x2110, 1, 40, List.replicate 20 0, 1, 0, 62000000000⟩ }, ⟨0x2110, 1, 40, List.replicate 20 0, 1, 0, 62000000000⟩, 19, List.replicate 19 0, host (inState .ready) ({ ss with bw := some ⟨0x2110, 1, 40, List.replicate 20 0, 1, 0, 62000000000⟩ }), takes_of (by decide +kernel), by decide +kernel⟩,
   ⟨rq.sid, { ss with bw := some ⟨0x2110, 1, 40, List.replicate 20 0, 1, 0, 62000000000⟩ }, ⟨0x2110, 1, 40, List.replicate 20 0, 1, 0, 62000000000⟩, host (inState .ready) ({ ss with bw := some ⟨0x2110, 1, 40, List.replicate 20 0, 1, 0, 62000000000⟩ }), by decide +kernel⟩,
   ⟨rq.sid, { ss with bs := some ⟨0x4003, 1, 0, List.replicate 64 0, 89000000001⟩ }, ⟨0x4003, 1, 0, List.replicate 64 0, 89000000001⟩, host (inState .ready) ({ ss with bs := some ⟨0x4003, 1, 0, List.replicate 64 0, 89000000001⟩ }), by decide +kernel⟩⟩

theorem test_hypotheses_CommitTakesEffect :
    (∃ (r : Req) (x : Session) (p : Bytes) (s : State), s.Serves r x ∧ ((s.served r).commitJudge x.level p).res = 0) ∧
    (∃ (w : CommitWait) (s : State), s.dict.commit = some w) ∧
    (∃ (r : Req) (x : Session) (s : State), s.Takes r x) :=
  ⟨⟨rq, ss, commitState.dict.imageDigest ++ [0, 0, 0, 0], commitState, serves_of (by decide +kernel), commit_judged⟩,
   ⟨⟨none, List.replicate 32 0, 90000000000⟩, (inState .unconfigured).modDict (fun d => { d with commit := some ⟨none, List.replicate 32 0, 90000000000⟩ }), by decide +kernel⟩,
   ⟨rq, ss, host (inState .ready) ss, takes_of (by decide +kernel)⟩⟩

theorem test_hypotheses_ConfigurationImages :
    (∃ (r : Req) (x : Session) (b : Bytes) (l : List (Nat × Nat × Bytes)) (u : State) (n : Nat) (s : State), s.Takes r x ∧ 64 ≤ b.length ∧ b.length ≤ 262144 ∧ imageParts b = some l ∧ bit (natAt b 12 1) 0 = false ∧ (if bit (natAt b 12 1) 1 then (s.served r).discardStaged else s.served r).applyEntries r.sid x.level l 0 = (u, n, none)) ∧
    (∃ (r : Req) (x : Session) (b : Bytes) (v : Bytes) (i : Nat) (sub : Nat) (d : Desc) (u : State) (s : State), s.Takes r x ∧ 64 ≤ b.length ∧ b.length ≤ 262144 ∧ imageParts b = some [(i, sub, v)] ∧ bit (natAt b 12 1) 0 = false ∧ u = (if bit (natAt b 12 1) 1 then (s.served r).discardStaged else s.served r) ∧ u.writeCheck x.level i sub v = (0, 0) ∧ i ≠ 0x4402 ∧ findDesc i sub = some d ∧ (d.acc = 1 ∨ d.acc = 3)) ∧
    (∃ (r : Req) (x : Session) (b : Bytes) (s : State), s.Takes r x ∧ 64 ≤ b.length ∧ b.length ≤ 262144 ∧ imageParts b = none) ∧
    (∃ (f : Bytes) (s : State), s.power.dev.awake = true ∧ f = s.dict.imageDigest) ∧
    (∃ (f : Bytes) (s : State), s.power.dev.awake = true ∧ f ≠ s.dict.imageDigest) :=
  ⟨⟨rq, ss, image0, [(0x1200, 2, [10, 0])], imageState.1, 1, host (inState .ready) ss, takes_of (by decide +kernel), by decide +kernel, by decide +kernel, by decide +kernel, by decide +kernel, by rw [if_neg (by decide +kernel)]; exact image_applied⟩,
   ⟨rq, ss, image0, [10, 0], 0x1200, 2, imageDesc, (host (inState .ready) ss).served rq, host (inState .ready) ss, takes_of (by decide +kernel), by decide +kernel, by decide +kernel, by decide +kernel, by decide +kernel, (if_neg (by decide +kernel)).symm, by decide +kernel⟩,
   ⟨rq, ss, List.replicate 64 0, host (inState .ready) ss, takes_of (by decide +kernel), by decide +kernel⟩,
   ⟨(inState .run).dict.imageDigest, inState .run, by decide +kernel, rfl⟩,
   ⟨[], inState .run, by decide +kernel, fun h => absurd (congrArg List.length h) (by rw [digest_length]; decide)⟩⟩

theorem test_hypotheses_CardingOnDemand :
    (∃ (r : Req) (x : Session) (c : Instr) (n : Nat) (s : State), s.Takes r x ∧ s.card.run = none ∧ (s.card.life = 1 ∧ (s.power.dev = .unconfigured ∨ s.power.dev = .ready) ∨ s.card.life = 3 ∧ s.power.dev = .service ∧ 3 ≤ x.level) ∧ (c = .cardingRunAll r ∧ n = cardSlices ∨ c = .cardingRunCore r ∧ n = 36 ∨ c = .cardingRunRange r ∧ n = min (s.pN 0x4200 3) (cardSlices - s.pN 0x4200 2))) ∧
    (∃ (r : Req) (x : Session) (s : State), s.Takes r x ∧ (s.card.life = 1 ∧ (s.power.dev = .unconfigured ∨ s.power.dev = .ready) ∨ s.card.life = 3 ∧ s.power.dev = .service ∧ 3 ≤ x.level)) ∧
    (∃ (r : Req) (x : Session) (s : State), s.Takes r x) ∧
    (∃ (i : SliceIn) (w : CardRun) (k : Nat) (l : List (Nat × Nat)) (s : State), s.power.dev.awake = true ∧ s.card.run = some w ∧ w.shutdown = false ∧ w.next = some (k, l) ∧ i.badRow = none ∧ s.coresAbsent = false) :=
  ⟨⟨rq, ss, .cardingRunCore rq, 36, (host (inState .ready) ss).modCard (fun c => { c with life := 1 }), takes_of (by decide +kernel), by decide +kernel⟩,
   ⟨rq, ss, (host (inState .ready) ss).modCard (fun c => { c with life := 1 }), takes_of (by decide +kernel), by decide +kernel⟩,
   ⟨rq, ss, (host (inState .ready) ss).modCard (fun c => { c with life := 1 }), takes_of (by decide +kernel)⟩,
   ⟨slice0, ⟨[(16547, 1)], 0, false, none, 1, 0, 0, 0, 0, 0, [], 0⟩, 16547, [], (inState .ready).modCard (fun c => { c with life := 1, run := some ⟨[(16547, 1)], 0, false, none, 1, 0, 0, 0, 0, 0, [], 0⟩ }), by decide +kernel⟩⟩

theorem test_hypotheses_LifeAndKey :
    (∃ (r : Req) (x : Session) (v : Bytes) (s : State), s.Takes r x ∧ v.length = 68 ∧ natAt v 1 3 = 0 ∧ (s.card.life = 1 ∧ natAt v 0 1 = 2 ∧ 3 ≤ x.level ∨ (s.card.life = 2 ∨ s.card.life = 3) ∧ natAt v 0 1 = 4 ∧ 2 ≤ x.level)) ∧
    (∃ (r : Req) (x : Session) (v : Bytes) (s : State), s.Takes r x ∧ v.length = 64 ∧ (s.card.life = 1 ∨ s.card.life = 2) ∧ s.card.key = none) :=
  ⟨⟨rq, ss3, 2 :: List.replicate 67 0, (host (inState .ready) ss3).modCard (fun c => { c with life := 1 }), takes_of (by decide +kernel), by decide +kernel⟩,
   ⟨rq, ss, List.replicate 64 1, host (inState .ready) ss, takes_of (by decide +kernel), by decide +kernel⟩⟩

theorem test_hypotheses_ImageLoads :
    (∃ (r : Req) (x : Session) (e : Fin 4) (n : Nat) (s : State), s.Takes r x ∧ 2 ≤ x.level ∧ s.imagesServed = true ∧ (s.engine e).slotA.state ≠ 5 ∧ (s.engine e).slotB.state ≠ 5 ∧ 256 < n ∧ n ≤ 256 + bodyMax) ∧
    (∃ (r : Req) (x : Session) (e : Nat) (k : Nat) (v : Bytes) (s : State), s.Takes r x ∧ 2 ≤ x.level ∧ s.imagesServed = true ∧ s.loadEngine = some e ∧ e < 4 ∧ k = (s.engine e).other ∧ 5 ≤ v.length ∧ v.length ≤ 65536 ∧ natAt v 0 4 = ((s.engine e).slot k).got ∧ natAt v 0 4 + (v.length - 4) ≤ ((s.engine e).slot k).total ∧ s.sliceAt (slotBase e k + natAt v 0 4) (v.length - 4) = false ∧ s.mramHeld = false) ∧
    (∃ (r : Req) (x : Session) (e : Fin 4) (s : State), s.Takes r x ∧ 2 ≤ x.level ∧ s.imagesServed = true ∧ 2 ≤ ((s.engine e).slot (s.engine e).other).state ∧ ((s.engine e).slot (s.engine e).other).state ≠ 6) ∧
    (∃ (r : Req) (x : Session) (e : Fin 4) (s : State), s.Takes r x ∧ 2 ≤ x.level ∧ s.imagesServed = true ∧ ((s.engine e).slot (s.engine e).other).state = 6) ∧
    (∃ (r : Req) (x : Session) (e : Fin 4) (s : State), s.Takes r x ∧ 2 ≤ x.level ∧ s.imagesServed = true ∧ (((s.engine e).slot (s.engine e).other).state = 1 ∨ ((s.engine e).slot (s.engine e).other).state = 2)) :=
  ⟨⟨rq, ss3, 3, 257, host (inState .ready) ss3, takes_of (by decide +kernel), by decide +kernel⟩,
   ⟨rq, ss3, 3, 1, [0, 0, 0, 0, 1], ((host (inState .ready) ss3).modCard (fun c => { c with cmdEng := 3 })).modEngine 3 (fun e => { e with slotB := ⟨1, 257, 0⟩ }), takes_of (by decide +kernel), by decide +kernel⟩,
   ⟨rq, ss3, 3, (host (inState .ready) ss3).modEngine 3 (fun e => { e with slotB := ⟨2, 257, 257⟩ }), takes_of (by decide +kernel), by decide +kernel⟩,
   ⟨rq, ss3, 3, (host (inState .ready) ss3).modEngine 3 (fun e => { e with slotB := ⟨6, 257, 257⟩ }), takes_of (by decide +kernel), by decide +kernel⟩,
   ⟨rq, ss3, 3, (host (inState .ready) ss3).modEngine 3 (fun e => { e with slotB := ⟨1, 257, 5⟩ }), takes_of (by decide +kernel), by decide +kernel⟩⟩

theorem test_hypotheses_ImageSwitches :
    (∃ (r : Req) (x : Session) (e : Fin 4) (s : State), s.Takes r x ∧ 2 ≤ x.level ∧ s.imagesServed = true ∧ s.card.switch = none ∧ s.switchCause e = 0) ∧
    (∃ (d : Vector Bool 4) (w : SwitchWait) (s : State), s.power.dev.awake = true ∧ s.card.switch = some w ∧ w.engine < 4 ∧ ((s.engine w.engine).slot (s.engine w.engine).other).state = 3 ∧ (w.engine = 3 → ∀ b ∈ d.toList, b = true)) ∧
    (∃ (d : Vector Bool 4) (w : SwitchWait) (s : State), s.power.dev.awake = true ∧ s.card.switch = some w ∧ w.engine = 3 ∧ ((s.engine 3).slot (s.engine 3).other).state = 3 ∧ false ∈ d.toList) ∧
    (∃ (r : Req) (x : Session) (s : State), s.Takes r x ∧ 2 ≤ x.level ∧ s.imagesServed = true) :=
  ⟨⟨rq, ss3, 0, (host (inState .ready) ss3).modEngine 0 (fun e => { e with slotB := ⟨3, 257, 257⟩, factoryB := true }), takes_of (by decide +kernel), by decide +kernel⟩,
   ⟨Vector.replicate 4 true, ⟨2, 90000000000, 0⟩, ((inState .ready).modCard (fun c => { c with switch := some ⟨2, 90000000000, 0⟩ })).modEngine 2 (fun e => { e with slotB := ⟨3, 257, 257⟩ }), by decide +kernel⟩,
   ⟨Vector.replicate 4 false, ⟨3, 90000000000, 98⟩, ((inState .ready).modCard (fun c => { c with switch := some ⟨3, 90000000000, 98⟩ })).modEngine 3 (fun e => { e with slotB := ⟨3, 257, 257⟩ }), by decide +kernel⟩,
   ⟨rq, ss3, host (inState .ready) ss3, takes_of (by decide +kernel), by decide +kernel⟩⟩

theorem test_hypotheses_PulseEdges :
    (∃ (i : Fin 8) (l : Bool) (h : Nat) (e : Nat) (s : State), s.power.dev.awake = true ∧ (s.pulse i).level ≠ some l ∧ s.filterTime i ≤ h ∧ (s.pulseMode i = 1 ∨ s.pulseMode i = 2) ∧ e = s.pN (0x2010 + i.val) 2 ∧ (e = 2 ∨ (e = 0 ∧ l = true) ∨ (e = 1 ∧ l = false))) ∧
    (∃ (i : Fin 8) (l : Bool) (h : Nat) (s : State), s.power.dev.awake = true ∧ (s.pulse i).level ≠ some l ∧ h < s.filterTime i ∧ s.pulseMode i ≠ 5) ∧
    (∃ (i : Fin 8) (l : Bool) (h : Nat) (p : Nat) (s : State), s.power.dev.awake = true ∧ (s.pulse i).level ≠ some l ∧ s.filterTime i ≤ h ∧ s.pulseMode i ≠ 5 ∧ p = s.leadOf i ∧ s.pulseMode p = 3) ∧
    (∃ (s : State), s.power.dev.awake = true) ∧
    (∃ (p : Fin 2) (x : IndexIn) (s : State), s.power.dev.awake = true ∧ s.pulseMode (4 + p.val) = 5 ∧ s.pulseMode (2 * p.val) = 3 ∧ ((s.pulse (4 + p.val)).level ≠ some true ∨ s.filterTime (4 + p.val) ≤ x.low) ∧ s.filterTime (4 + p.val) ≤ x.held) ∧
    (∃ (p : Fin 2) (x : IndexIn) (s : State), s.power.dev.awake = true ∧ s.pulseMode (4 + p.val) = 5 ∧ s.pulseMode (2 * p.val) = 3 ∧ ((s.pulse (4 + p.val)).level = some true ∧ x.low < s.filterTime (4 + p.val) ∨ (s.pulse (4 + p.val)).level ≠ some true ∧ x.held < s.filterTime (4 + p.val))) ∧
    (∃ (i : Fin 8) (s : State), s.power.dev.awake = true ∧ 1 < (s.pulse i).status) :=
  ⟨⟨7, true, 1000000, 0, setP (setP (inState .run) 0x2017 1 1 2) 0x2017 2 1 0, by decide +kernel⟩,
   ⟨7, true, 0, setP (inState .run) 0x2017 3 4 100, by decide +kernel⟩,
   ⟨7, true, 1000000, 6, setP (setP (inState .run) 0x2016 1 1 3) 0x2017 1 1 4, by decide +kernel⟩,
   ⟨setP (setP (inState .run) 0x2016 1 1 3) 0x2017 1 1 4, by decide +kernel⟩,
   ⟨1, ⟨90000000000, 1000000, 1000000⟩, setP (setP (inState .run) 0x2012 1 1 3) 0x2015 1 1 5, by decide +kernel⟩,
   ⟨1, ⟨90000000000, 1000000, 0⟩, setP (setP (setP (inState .run) 0x2012 1 1 3) 0x2015 1 1 5) 0x2015 3 2 100, by decide +kernel⟩,
   ⟨7, (inState .run).modPulse 7 (fun p => { p with status := 3 }), by decide +kernel⟩⟩

theorem test_hypotheses_HallMoves :
    ∃ (h : Fin 2) (q : HallIn) (o : BitVec 3) (a : Int) (s : State), s.power.dev.awake = true ∧ s.pB (0x2040 + h.val) 1 = true ∧ (∀ k, k < 3 → s.pN (0x2040 + h.val) 4 ≤ vget q.held k 0) ∧ (s.hall h).code = some o ∧ o ≠ q.code ∧ a = (if s.pN (0x2040 + h.val) 2 = 1 then -1 else 1) :=
  ⟨1, ⟨5, Vector.replicate 3 1000000⟩, 4, 1, (setP (inState .run) 0x2041 1 1 1).modHall 1 (fun x => { x with code := some 4, sector := 5 }), by decide +kernel⟩

theorem test_hypotheses_HallAndInertial :
    (∃ (h : Fin 2) (q : HallIn) (s : State), s.power.dev.awake = true ∧ (s.hall h).code.isSome = true ∧ (∀ k, k < 3 → vget q.held k 0 < s.pN (0x2040 + h.val) 4)) ∧
    (∃ (h : Fin 2) (s : State), s.power.dev.awake = true ∧ 1 < (s.hall h).status) ∧
    (∃ (s : State), s.power.dev.awake = true) ∧
    (∃ (x : IT) (t0 : IT) (s : State), s.power.dev.awake = true ∧ s.motion.inert.still = some t0 ∧ s.motion.inert.n ≠ 0 ∧ t0 + s.pN 0x2060 5 * 1000000 ≤ x) ∧
    (∃ (x : IT) (s : State), s.power.dev.awake = true ∧ s.motion.inert.still = none ∧ s.motion.inert.status = 2 ∧ s.motion.inert.stillAt + s.pN 0x2060 7 * 1000000000 ≤ x) :=
  ⟨⟨1, ⟨5, Vector.replicate 3 0⟩, (inState .run).modHall 1 (fun x => { x with code := some 4 }), by decide +kernel⟩,
   ⟨1, (inState .run).modHall 1 (fun p => { p with status := 3 }), by decide +kernel⟩,
   ⟨inState .run, by decide +kernel⟩,
   ⟨900000000000, 62000000000, (inState .run).modInert (fun p => { p with still := some 62000000000, n := 1 }), by decide +kernel⟩,
   ⟨90000000000000, (inState .run).modInert (fun p => { p with status := 2 }), by decide +kernel⟩⟩

theorem test_hypotheses_MotionMessages :
    (∃ (b : Bytes) (s : State), s.power.dev.awake = true ∧ (b.head? ≠ some 0x24 ∨ 82 < b.length)) ∧
    (∃ (b : Bytes) (s : State), s.power.dev.awake = true ∧ b.head? = some 0x24 ∧ b.length ≤ 82 ∧ checkedBody b = none) ∧
    (∃ (u : Fin 2) (b : Bytes) (s : State) (c : Bytes) (a : Int), s.power.dev.awake = true ∧ b.head? = some 0x24 ∧ b.length ≤ 82 ∧ checkedBody b = some c ∧ fieldOf (splitComma c) 0 = [0x48, 0x45, 0x48, 0x44, 0x54] ∧ bit (s.pN (0x2050 + u.val) 3) 3 = true ∧ decimalOf (fieldOf (splitComma c) 1) 9 = some a ∧ s.roleHas u 2 = true) ∧
    (∃ (src : Nat) (d : Bytes) (s : State), s.power.dev.awake = true ∧ bit (s.pN 0x2058 1) 2 = true ∧ (s.pN 0x2058 2 = 255 ∨ s.pN 0x2058 2 = src) ∧ natAt d 7 1 % 4 = 0 ∧ natAt d 1 2 ≤ 0xFFFC) :=
  ⟨⟨[], inState .run, by decide +kernel⟩,
   ⟨[0x24], inState .run, by decide +kernel⟩,
   ⟨1, hdt, setP (setP (inState .run) 0x2051 3 1 0x1F) 0x2051 1 1 2, hdtBody, 123400000000, by decide +kernel⟩,
   ⟨255, [0, 0xFC, 0xFF, 0, 0, 0, 0, 0xFC], setP (setP (inState .run) 0x2058 1 1 7) 0x2058 2 1 255, by decide +kernel⟩⟩

theorem test_hypotheses_TimeEvents :
    (∃ (s : State), s.power.dev.awake = true ∧ s.ppsPaired = true ∧ s.time.ppsSeen = false) ∧
    (∃ (x : IT) (s : State), s.power.dev.awake = true ∧ s.ppsPaired = true ∧ s.time.ppsSeen = true ∧ x ≤ s.time.ppsLast + 3000000000 ∧ (x + 200000 < s.time.ppsLast + 1000000000 ∨ s.time.ppsLast + 1000200000 < x)) ∧
    (∃ (r : Req) (x : Session) (p : Bytes) (s : State), s.Serves r x ∧ 1 ≤ x.level ∧ p.length = 16 ∧ natAt p 12 1 = 1 ∧ s.inBootRom = false ∧ .host ∈ s.priorities ∧ (∀ w ∈ s.priorities.takeWhile (fun w => w != .host), (s.served r).sourceValid w = false) ∧ (wallFloor : Int) ≤ (natAt p 0 8 : Int) + intAt p 8 4) ∧
    (∃ (s : State), s.power.dev.awake = true ∧ s.sliceAt 0xFFC00000 0x100000 = false) ∧
    (∃ (s : State), s.power.dev.awake = true) ∧
    (∃ (w : WallSource) (l : IT) (s : State), s.power.dev.awake = true ∧ s.lastFrom w = some l) :=
  ⟨⟨setP (inState .run) 0x2051 4 1 1, by decide +kernel⟩,
   ⟨63000000000, { setP (inState .run) 0x2051 4 1 1 with time := { TimeBase.reset with ppsSeen := true, ppsLast := 60000000000 } }, by decide +kernel⟩,
   ⟨rq, ss, le 8 1800000000000000000 ++ [0, 0, 0, 0, 1, 0, 0, 0], host (inState .ready) ss, serves_of (by decide +kernel), by decide +kernel⟩,
   ⟨inState .run, by decide +kernel⟩,
   ⟨inState .run, by decide +kernel⟩,
   ⟨.gptp, 62000000000, { inState .run with time := { TimeBase.reset with lastGptp := some 62000000000 } }, by decide +kernel⟩⟩

theorem test_hypotheses_Heartbeats :
    (∃ (i : SessionId) (p : Bytes) (s : State) (y : Session), s.netUp i.net = true ∧ i.byte ≠ 0 ∧ p.length = 8 ∧ s.session i = some y ∧ s.nets.ctrl ≠ some i ∧ bit (natAt p 0 1) 0 = false) ∧
    (∃ (i : SessionId) (p : Bytes) (s : State), s.netUp i.net = true ∧ i.byte ≠ 0 ∧ p.length = 8 ∧ s.session i = none ∧ s.mayOpen i.net = true ∧ s.nets.ctrl ≠ some i ∧ bit (natAt p 0 1) 0 = false) ∧
    (∃ (i : SessionId) (p : Bytes) (s : State) (y : Session), s.netUp i.net = true ∧ i.byte ≠ 0 ∧ p.length = 8 ∧ s.session i = some y ∧ s.nets.ctrl = none ∧ bit (natAt p 0 1) 0 = true ∧ bit (natAt p 0 1) 1 = false) ∧
    (∃ (i : SessionId) (p : Bytes) (s : State) (y : Session), s.netUp i.net = true ∧ i.byte ≠ 0 ∧ p.length = 8 ∧ s.session i = some y ∧ s.nets.ctrl = some i ∧ bit (natAt p 0 1) 1 = true) ∧
    (∃ (n : Net) (x : IT) (s : State), s.power.dev.awake = true ∧ s.netUp n = true ∧ n ∈ s.netsWithSession ∧ (s.at x).beatDue (Net.bitNo n) = true) ∧
    (∃ (x : IT) (s : State), s.power.dev.awake = true ∧ s.canUp 2 = true ∧ s.nets.canA.claimed ≠ 0xFE ∧ s.pB 0x1230 0xB = true ∧ (s.at x).beatDue 3 = true) ∧
    (∃ (i : SessionId) (y : Session) (s : State), s.session i = some y) ∧
    (∃ (i : SessionId) (y : Session) (s : State), s.nets.ctrl = some i ∧ s.session i = some y ∧ s.sup.hostGone = false) ∧
    (∃ (n : Net) (b : Bytes) (c : Nat) (s : State), n ≠ .eth ∧ s.netUp n = true ∧ s.coresAbsent = false ∧ frameFail n b = some c) ∧
    (∃ (n : Net) (ext : Bool) (fd : Bool) (s : State), n ≠ .eth ∧ s.netUp n = true ∧ s.coresAbsent = false ∧ (ext && fd) = false) ∧
    (∃ (n : Net) (b : Bytes), n ≠ .eth ∧ frameFail n b = none ∧ natAt b 4 1 = 8) ∧
    (∃ (b : Bytes) (s : State), s.ethUp = true ∧ ethKind (s.pN 0x1220 1) b = .bad) :=
  ⟨⟨rq.sid, [0, 0, 0, 0, 0, 0, 0, 0], host (inState .ready) ss, ss, by decide +kernel⟩,
   ⟨rq.sid, [0, 0, 0, 0, 0, 0, 0, 0], inState .ready, by decide +kernel⟩,
   ⟨rq.sid, [1, 0, 0, 0, 0, 0, 0, 0], host (inState .ready) ss, ss, by decide +kernel⟩,
   ⟨rq.sid, [2, 0, 0, 0, 0, 0, 0, 0], { host (inState .run) ss with nets := { (host (inState .run) ss).nets with ctrl := some rq.sid } }, ss, by decide +kernel⟩,
   ⟨.canB, 90000000000, host (inState .ready) ss, by decide +kernel⟩,
   ⟨90000000000, { setP (inState .ready) 0x1230 0xB 1 1 with nets := { Nets.reset with canA := { CanA.reset with claimed := 0x80 } } }, by decide +kernel⟩,
   ⟨rq.sid, ss, host (inState .ready) ss, by decide +kernel⟩,
   ⟨rq.sid, ss, { host (inState .run) ss with nets := { (host (inState .run) ss).nets with ctrl := some rq.sid } }, by decide +kernel⟩,
   ⟨.canB, badFrame, 1, inState .ready, by decide +kernel⟩,
   ⟨.canB, false, true, inState .ready, by decide +kernel⟩,
   ⟨.canB, beatFrame, by decide +kernel⟩,
   ⟨List.replicate 1515 0, ethOn, by decide +kernel⟩⟩

theorem test_hypotheses_CanNetworks :
    (∃ (c : Fin 3) (s : State), s.canUp c = true) ∧
    (∃ (c : Fin 3) (d : CanNet) (s : State), s.power.dev.awake = true ∧ (vget s.nets.can c d).bus = 2) ∧
    (∃ (s : State), s.isoOn = true ∧ s.nets.canA.retryAt = none ∧ s.nets.canA.trying = 0xFE) ∧
    (∃ (s : State), s.isoOn = true ∧ s.nets.canA.retryAt = none ∧ s.nets.canA.trying ≠ 0xFE ∧ s.nets.canA.tried + 1 < 120) ∧
    (∃ (s : State), s.isoOn = true ∧ s.nets.canA.retryAt = none ∧ s.nets.canA.trying ≠ 0xFE ∧ 120 ≤ s.nets.canA.tried + 1) ∧
    (∃ (s : State), s.isoOn = true ∧ s.nets.canA.retryAt = none ∧ s.nets.canA.trying ≠ 0xFE) ∧
    (∃ (x : IT) (y : IT) (s : State), s.isoOn = true ∧ s.nets.canA.retryAt = some y ∧ y ≤ x) ∧
    (∃ (s : State), s.canAServed = true) :=
  ⟨⟨2, inState .run, by decide +kernel⟩,
   ⟨2, ⟨0, Vector.replicate 4 0⟩, { inState .run with nets := { Nets.reset with can := Vector.replicate 3 ⟨2, Vector.replicate 4 0⟩ } }, by decide +kernel⟩,
   ⟨{ setP (inState .ready) 0x1230 1 1 1 with nets := { Nets.reset with canA := { CanA.reset with trying := 0xFE } } }, by decide +kernel⟩,
   ⟨{ setP (inState .ready) 0x1230 1 1 1 with nets := { Nets.reset with canA := { CanA.reset with trying := 0xF7, tried := 118 } } }, by decide +kernel⟩,
   ⟨{ setP (inState .ready) 0x1230 1 1 1 with nets := { Nets.reset with canA := { CanA.reset with trying := 0xF7, tried := 119 } } }, by decide +kernel⟩,
   ⟨{ setP (inState .ready) 0x1230 1 1 1 with nets := { Nets.reset with canA := { CanA.reset with trying := 0x80 } } }, by decide +kernel⟩,
   ⟨90000000000, 90000000000, { setP (inState .ready) 0x1230 1 1 1 with nets := { Nets.reset with canA := { CanA.reset with retryAt := some 90000000000 } } }, by decide +kernel⟩,
   ⟨inState .ready, by decide +kernel⟩⟩

theorem test_hypotheses_Ethernet :
    (∃ (s : State), s.power.dev.awake = true ∧ s.power.dev ≠ .shutdown ∧ s.power.crystalOk = true ∧ s.nets.eth.up = false) ∧
    (∃ (s : State), s.power.dev.awake = true ∧ s.nets.eth.up = true) ∧
    (∃ (dst : Nat) (s : State), s.stackUp = true ∧ dst = s.pN 0x1220 1) ∧
    (∃ (dst : Nat) (s : State), s.stackUp = true ∧ dst ≠ s.pN 0x1220 1) ∧
    (∃ (ip : Nat) (mac : Nat) (y : IT) (s : State), s.power.dev.awake = true ∧ s.nets.eth.arp.find? (fun e => e.1 == ip) = some (ip, mac, y)) ∧
    (∃ (dst : Nat) (d : Bytes) (s : State), s.stackUp = true ∧ dst = s.pN 0x1220 1 ∧ d.length ≤ 1472) ∧
    (∃ (s : State), s.stackUp = true ∧ s.pB 0x1220 5 = true) ∧
    (∃ (s : State), s.stackUp = true ∧ s.pB 0x1220 5 = true) ∧
    (∃ (s : State), s.stackUp = true ∧ s.pB 0x1220 5 = false) ∧
    (∃ (s : State), s.stackUp = true ∧ s.pB 0x1220 5 = true) :=
  ⟨⟨inState .ready, by decide +kernel⟩,
   ⟨ethOn, by decide +kernel⟩,
   ⟨ethOn.pN 0x1220 1, ethOn, by decide +kernel⟩,
   ⟨ethOn.pN 0x1220 1 + 1, ethOn, by decide +kernel⟩,
   ⟨5, 6, 62000000000, { inState .ready with nets := { Nets.reset with eth := { Eth.reset with arp := [(5, 6, 62000000000)] } } }, by decide +kernel⟩,
   ⟨ethOn.pN 0x1220 1, List.replicate 1472 0, ethOn, by decide +kernel⟩,
   ⟨setP ethOn 0x1220 5 1 1, by decide +kernel⟩,
   ⟨setP ethOn 0x1220 5 1 1, by decide +kernel⟩,
   ⟨setP ethOn 0x1220 5 1 0, by decide +kernel⟩,
   ⟨setP ethOn 0x1220 5 1 1, by decide +kernel⟩⟩

theorem test_hypotheses_TaskController :
    (∃ (n : Nat) (s : State), s.clientOn = true ∧ n = s.pN 0x1231 1) ∧
    (∃ (v : Nat) (n : Nat) (s : State), s.clientOn = true ∧ n = s.pN 0x1231 1 ∧ (v = 3 ∨ v = 4) ∧ s.nets.canA.tcOn = false ∧ s.dict.ever = true) ∧
    (∃ (g : Nat) (ms : Nat) (s : State), s.clientOn = true ∧ s.nets.canA.tcOn = true ∧ reported g = true ∧ ms ≠ 0) ∧
    (∃ (g : Nat) (s : State), s.clientOn = true ∧ s.nets.canA.tcOn = true ∧ reported g = true) ∧
    (∃ (s : State), s.clientOn = true ∧ s.nets.canA.tcOn = true) ∧
    (∃ (s : State), s.clientOn = true ∧ s.nets.canA.tcOn = true) ∧
    (∃ (x : IT) (y : IT) (g : Nat) (ms : Nat) (s : State), s.clientOn = true ∧ s.nets.canA.tcOn = true ∧ y ≤ x ∧ s.nets.canA.triggers.find? (fun e => e.1 == g) = some (g, ms, y)) ∧
    (∃ (x : IT) (y : IT) (s : State), s.nets.canA.tcSeen = some y ∧ s.power.dev.awake = true ∧ s.coresAbsent = false ∧ s.nets.canA.tcOn = true ∧ y + 6000000000 ≤ x) :=
  ⟨⟨({ setP (inState .ready) 0x1230 1 1 1 with nets := { Nets.reset with canA := { CanA.reset with claimed := 0x80, tcOn := true, triggers := [(160, 100, 80000000000)], tcSeen := some 70000000000 } } }).pN 0x1231 1, { setP (inState .ready) 0x1230 1 1 1 with nets := { Nets.reset with canA := { CanA.reset with claimed := 0x80, tcOn := true, triggers := [(160, 100, 80000000000)], tcSeen := some 70000000000 } } }, by decide +kernel⟩,
   ⟨4, ({ setP (inState .ready) 0x1230 1 1 1 with nets := { Nets.reset with canA := { CanA.reset with claimed := 0x80, tcOn := false, triggers := [(160, 100, 80000000000)], tcSeen := some 70000000000 } } }).pN 0x1231 1, { setP (inState .ready) 0x1230 1 1 1 with nets := { Nets.reset with canA := { CanA.reset with claimed := 0x80, tcOn := false, triggers := [(160, 100, 80000000000)], tcSeen := some 70000000000 } } }, by decide +kernel⟩,
   ⟨160, 100, { setP (inState .ready) 0x1230 1 1 1 with nets := { Nets.reset with canA := { CanA.reset with claimed := 0x80, tcOn := true, triggers := [(160, 100, 80000000000)], tcSeen := some 70000000000 } } }, by decide +kernel⟩,
   ⟨160, { setP (inState .ready) 0x1230 1 1 1 with nets := { Nets.reset with canA := { CanA.reset with claimed := 0x80, tcOn := true, triggers := [(160, 100, 80000000000)], tcSeen := some 70000000000 } } }, by decide +kernel⟩,
   ⟨{ setP (inState .ready) 0x1230 1 1 1 with nets := { Nets.reset with canA := { CanA.reset with claimed := 0x80, tcOn := true, triggers := [(160, 100, 80000000000)], tcSeen := some 70000000000 } } }, by decide +kernel⟩,
   ⟨{ setP (inState .ready) 0x1230 1 1 1 with nets := { Nets.reset with canA := { CanA.reset with claimed := 0x80, tcOn := true, triggers := [(160, 100, 80000000000)], tcSeen := some 70000000000 } } }, by decide +kernel⟩,
   ⟨90000000000, 80000000000, 160, 100, { setP (inState .ready) 0x1230 1 1 1 with nets := { Nets.reset with canA := { CanA.reset with claimed := 0x80, tcOn := true, triggers := [(160, 100, 80000000000)], tcSeen := some 70000000000 } } }, by decide +kernel⟩,
   ⟨90000000000, 70000000000, { setP (inState .ready) 0x1230 1 1 1 with nets := { Nets.reset with canA := { CanA.reset with claimed := 0x80, tcOn := true, triggers := [(160, 100, 80000000000)], tcSeen := some 70000000000 } } }, by decide +kernel⟩⟩

theorem test_hypotheses_RecordPath :
    (∃ (r : Rec) (l : List Rec) (s : State), s.power.dev.awake = true ∧ s.skein.arriving = r :: l) ∧
    (∃ (k : Fin 16) (h : Entry) (s : State), s.power.dev.awake = true ∧ s.skein.heldOf k = some h ∧ s.skein.hasRoom (spareCode h.r.code) = true ∧ s.snapSets h.r.code = []) ∧
    (∃ (s : State), s.power.dev.awake = true) ∧
    (∃ (x : IT) (c : Nat) (s : State), s.power.dev.awake = true ∧ s.skein.lossFirst = some (x, c) ∧ s.skein.general ≤ 7168 ∧ s.snapSets 3 = []) ∧
    (∃ (c : Nat) (w : AlarmWin) (s : State), s.power.dev.awake = true ∧ s.coresAbsent = false ∧ s.skein.windows.find? (fun w => w.code == c) = some w) ∧
    (∃ (e : Entry) (l : List Entry) (s : State), s.power.dev.awake = true ∧ s.coresAbsent = false ∧ takeLowest s.skein.queue = some (e, l) ∧ e.snaps = [] ∧ s.skein.sramOnly = false) ∧
    (∃ (s : State), s.power.dev.awake = true ∧ s.skein.sramOnly = false) :=
  ⟨⟨(⟨0x6003, 62000000000, 1, 127, []⟩ : Rec), [], (inState .run).modSkein (fun k => { k with arriving := [(⟨0x6003, 62000000000, 1, 127, []⟩ : Rec)] }), by decide +kernel⟩,
   ⟨6, ⟨(⟨0x6003, 62000000000, 1, 127, []⟩ : Rec), 0, 0, 1, 0, 0, 0, [], false⟩, (inState .run).modSkein (fun k => { k with holding := vset k.holding 6 (some ⟨(⟨0x6003, 62000000000, 1, 127, []⟩ : Rec), 0, 0, 1, 0, 0, 0, [], false⟩) }), by decide +kernel⟩,
   ⟨inState .run, by decide +kernel⟩,
   ⟨90000000000, 5, (inState .run).modSkein (fun k => { k with lossFirst := some (90000000000, 5) }), by decide +kernel⟩,
   ⟨0x6003, ⟨0x6003, 90000000000, (⟨0x6003, 62000000000, 1, 127, []⟩ : Rec), 1, 0⟩, (inState .run).modSkein (fun k => { k with windows := [⟨0x6003, 90000000000, (⟨0x6003, 62000000000, 1, 127, []⟩ : Rec), 1, 0⟩] }), by decide +kernel⟩,
   ⟨⟨(⟨0x6003, 62000000000, 1, 127, []⟩ : Rec), 0, 0, 1, 0, 0, 0, [], false⟩, [], (inState .run).modSkein (fun k => { k with queue := [⟨(⟨0x6003, 62000000000, 1, 127, []⟩ : Rec), 0, 0, 1, 0, 0, 0, [], false⟩] }), by decide +kernel⟩,
   ⟨inState .run, by decide +kernel⟩⟩

theorem test_hypotheses_FaultsHandled :
    (∃ (r : Report) (l : List Report) (s : State), s.power.dev.awake = true ∧ s.sup.reported = r :: l ∧ r.code ≠ 0xE001) ∧
    (∃ (k : Nat) (s : State), s.power.dev.awake = true ∧ k < 6) ∧
    (∃ (r : Req) (x : Session) (s : State), s.Takes r x) :=
  ⟨⟨⟨0xE015, 62000000000, 0, [], 5, 1⟩, [], (inState .run).modSup (fun x => { x with reported := [⟨0xE015, 62000000000, 0, [], 5, 1⟩] }), by decide +kernel⟩,
   ⟨5, inState .run, by decide +kernel⟩,
   ⟨rq, ss, host (inState .ready) ss, takes_of (by decide +kernel)⟩⟩

theorem test_hypotheses_CoresAndLosses :
    (∃ (s : State), s.power.dev.awake = true ∧ s.coresAbsent = false) ∧
    (∃ (c : CoreStop) (s : State), s.power.dev.awake = true ∧ s.sup.stop = some c) ∧
    (∃ (c : CoreStop) (s : State), s.sup.stop = some c ∧ c.coast = true) ∧
    (∃ (s : State), s.power.dev = .run ∧ s.spd.holding = true) ∧
    (∃ (y : IT) (l : List IT) (s : State), s.power.dev = .run ∧ s.external = true ∧ (List.range 132).filterMap s.outputEnds = y :: l) ∧
    (∃ (u : Undo) (s : State), s.undo = some u) :=
  ⟨⟨inState .run, by decide +kernel⟩,
   ⟨⟨62000000000, .warmReset, true, 4, 1, []⟩, (inState .run).modSup (fun x => { x with stop := some ⟨62000000000, .warmReset, true, 4, 1, []⟩ }), by decide +kernel⟩,
   ⟨⟨62000000000, .warmReset, true, 4, 1, []⟩, (inState .run).modSup (fun x => { x with stop := some ⟨62000000000, .warmReset, true, 4, 1, []⟩ }), by decide +kernel⟩,
   ⟨(inState .run).modSpd (fun d => { d with holding := true }), by decide +kernel⟩,
   ⟨externalState.power.entered + externalState.pN 0x2200 18 * 1000000, [], externalState, by decide +kernel⟩,
   ⟨undo0, { inState .run with undo := some undo0 }, by decide +kernel⟩⟩

theorem test_hypotheses_StateCommands :
    (∃ (r : Req) (x : Session) (c : Instr) (n : Nat) (s : State), s.Takes r x ∧ (c = .cmdRun r ∧ n = 1 ∧ (s.served r).runRefusal = 0 ∨ c = .cmdBare r ∧ n = 2 ∧ s.power.dev = .run ∧ s.sup.thermal = false ∨ c = .cmdReady r ∧ n = 4 ∧ s.power.dev = .safe ∧ s.sup.thermal = false ∧ s.safeFault = false ∨ c = .cmdService r ∧ n = 5 ∧ 3 ≤ x.level ∧ (s.power.dev = .ready ∨ s.power.dev = .safe) ∧ (s.card.life = 2 ∨ s.card.life = 3) ∧ (s.power.dev = .safe → s.safeFault = false))) ∧
    (∃ (r : Req) (x : Session) (s : State), s.Takes r x ∧ (s.served r).runRefusal ≠ 0) ∧
    (∃ (r : Req) (x : Session) (s : State), s.Takes r x ∧ (s.power.dev = .ready ∨ s.power.dev = .run ∨ s.power.dev = .bare)) ∧
    (∃ (c : StateCmd) (d : DevState) (s : State), s.power.cmd = some c ∧ (s.sup.thermal = true → c.target = 5) ∧ (c.target = 1 ∧ (s.power.dev = .ready ∨ s.power.dev = .bare) ∧ d = .run ∨ c.target = 2 ∧ s.power.dev = .run ∧ d = .bare ∨ c.target = 4 ∧ s.power.dev = .safe ∧ d = .ready ∨ c.target = 5 ∧ (s.power.dev = .ready ∨ s.power.dev = .safe) ∧ (s.card.life = 2 ∨ s.card.life = 3) ∧ d = .service)) ∧
    (∃ (c : StateCmd) (s : State), s.power.cmd = some c ∧ s.sup.thermal = true ∧ c.target ≠ 5) ∧
    (∃ (n : Fin 128) (x : IT) (s : State) (u : State), s.power.dev = .bare ∧ (s.ch n).retryAt = some x ∧ u = (s.at x).modCh n (fun c => { c with retryAt := none }) ∧ (u.bareWants n && u.bareIdle n) = false) ∧
    (∃ (n : Fin 128) (x : IT) (s : State) (u : State) (v : State), s.power.dev = .bare ∧ (s.ch n).retryAt = some x ∧ u = (s.at x).modCh n (fun c => { c with retryAt := none }) ∧ u.bareWants n = true ∧ u.bareIdle n = true ∧ u.requestPull n (u.bareStart n) = (v, .granted)) :=
  ⟨⟨rq, ss, .cmdBare rq, 2, host (inState .run) ss, takes_of (by decide +kernel), by decide +kernel⟩,
   ⟨rq, ss, host (inState .run) ss, takes_of (by decide +kernel), by decide +kernel⟩,
   ⟨rq, ss, host (inState .run) ss, takes_of (by decide +kernel), by decide +kernel⟩,
   ⟨⟨4, 90000000000⟩, .ready, (inState .safe).modPower (fun p => { p with cmd := some ⟨4, 90000000000⟩ }), by decide +kernel⟩,
   ⟨⟨1, 90000000000⟩, ((inState .ready).modSup (fun x => { x with thermal := true })).modPower (fun p => { p with cmd := some ⟨1, 90000000000⟩ }), by decide +kernel⟩,
   ⟨127, 90000000000, (inState .bare).modCh 127 (fun c => { c with retryAt := some 90000000000 }), (((inState .bare).modCh 127 (fun c => { c with retryAt := some 90000000000 })).at 90000000000).modCh (127 : Fin 128) (fun c => { c with retryAt := none }), by decide +kernel, by decide +kernel, rfl, by decide +kernel⟩,
   ⟨0, 90000000000, bareState, bareAfter, (bareAfter.requestPull (0 : Fin 128) (bareAfter.bareStart (0 : Fin 128))).1, by decide +kernel, by decide +kernel, rfl, by decide +kernel, by decide +kernel, Prod.ext rfl (by decide +kernel)⟩⟩

theorem test_hypotheses_WakeAndKey :
    (∃ (b : BootIn) (x : IT) (c : Instr) (s : State), (c = .powerOn b ∧ s.power.dev = .noSupply ∨ c = .ignOn x b ∧ s.power.dev = .standby ∨ c = .canAWake b ∧ s.power.dev = .standby ∧ s.power.listening = true)) ∧
    (∃ (s : State), s.power.dev.awake = true ∧ s.power.dev ≠ .shutdown) ∧
    (∃ (s : State), s.power.dev.awake = true ∧ s.power.dev = .shutdown ∧ 5 ≤ s.power.stage) ∧
    (∃ (s : State), s.power.dev.awake = true ∧ s.power.dev = .shutdown ∧ s.power.stage < 5) ∧
    (∃ (s : State), (s.power.dev = .unconfigured ∨ s.power.dev = .ready ∨ s.power.dev = .run ∨ s.power.dev = .bare ∨ s.power.dev = .safe ∨ s.power.dev = .service) ∧ s.power.wakeHold = none) ∧
    (∃ (x : IT) (s : State), s.power.wakeHold = some x ∧ (s.power.dev = .unconfigured ∨ s.power.dev = .ready ∨ s.power.dev = .safe ∨ s.power.dev = .service) ∧ s.power.ign = true) ∧
    (∃ (x : IT) (s : State), s.power.wakeHold = some x ∧ (s.power.dev = .unconfigured ∨ s.power.dev = .ready ∨ s.power.dev = .safe ∨ s.power.dev = .service) ∧ s.power.ign = false) ∧
    (∃ (s : State), s.power.dev = .boot ∧ s.bootRom = false) :=
  ⟨⟨boot0, 90000000000, .canAWake boot0, (inState .standby).modPower (fun p => { p with listening := true }), by decide +kernel⟩,
   ⟨inState .safe, by decide +kernel⟩,
   ⟨(inState .shutdown).modPower (fun p => { p with stage := 5 }), by decide +kernel⟩,
   ⟨inState .shutdown, by decide +kernel⟩,
   ⟨inState .service, by decide +kernel⟩,
   ⟨90000000000, (inState .service).modPower (fun p => { p with wakeHold := some 90000000000, ign := true }), by decide +kernel⟩,
   ⟨90000000000, (inState .service).modPower (fun p => { p with wakeHold := some 90000000000 }), by decide +kernel⟩,
   ⟨State.reset, by decide +kernel⟩⟩

theorem test_hypotheses_PowerEnds :
    (∃ (s : State), s.power.dev ≠ .noSupply) ∧
    (∃ (s : State), s.power.dev = .boot ∧ s.power.crystalOk = true) ∧
    (∃ (s : State), s.power.dev.awake = true ∧ s.time.rc = false) ∧
    (∃ (s : State), s.power.dev = .shutdown ∧ s.power.wakeAgain = none ∧ s.coresAbsent = false ∧ s.power.stage < 5 ∧ s.railDown = true) ∧
    (∃ (s : State), s.power.dev = .shutdown ∧ s.power.wakeAgain = none ∧ s.coresAbsent = false ∧ s.power.stage < 5 ∧ s.railDown = false) ∧
    (∃ (s : State), s.power.dev = .shutdown ∧ s.power.wakeAgain = none ∧ s.coresAbsent = true) ∧
    (∃ (s : State), s.power.dev = .shutdown ∧ s.power.wakeAgain = none) ∧
    (∃ (s : State) (b : BootIn), s.power.dev = .shutdown ∧ s.power.wakeAgain = some b ∧ s.coresAbsent = false) ∧
    (∃ (s : State) (b : BootIn), s.power.dev = .shutdown ∧ s.power.wakeAgain = some b) :=
  ⟨⟨inState .run, by decide +kernel⟩,
   ⟨inState .boot, by decide +kernel⟩,
   ⟨inState .run, by decide +kernel⟩,
   ⟨inState .shutdown, by decide +kernel⟩,
   ⟨(inState .shutdown).modBob (fun b => { b with state := 1, rail := 60000 }), by decide +kernel⟩,
   ⟨(inState .shutdown).modSup (fun x => { x with stop := some ⟨62000000000, .warmReset, true, 4, 1, []⟩ }), by decide +kernel⟩,
   ⟨inState .shutdown, by decide +kernel⟩,
   ⟨(inState .shutdown).modPower (fun p => { p with wakeAgain := some boot0 }), boot0, by decide +kernel⟩,
   ⟨(inState .shutdown).modPower (fun p => { p with wakeAgain := some boot0 }), boot0, by decide +kernel⟩⟩

theorem test_hypotheses_FrameAndStrobe :
    (∃ (s : State), s.power.dev.awake = true) ∧
    (∃ (s : State), s.power.dev.awake = true) :=
  ⟨⟨inState .run, by decide +kernel⟩,
   ⟨inState .run, by decide +kernel⟩⟩

theorem test_hypotheses_CompletesStates :
    (∃ (s : State), s.power.dev = .noSupply) ∧
    (∃ (s : State), s.power.dev = .standby) ∧
    (∃ (s : State), (s.power.dev = .unconfigured ∨ s.power.dev = .ready ∨ s.power.dev = .run ∨ s.power.dev = .bare ∨ s.power.dev = .safe ∨ s.power.dev = .service) ∧ s.power.wakeHold = none) ∧
    (∃ (s : State), s.power.dev = .standby ∧ s.power.listening = true) ∧
    (∃ (x : IT) (s : State), s.power.wakeHold = some x ∧ s.power.ign = false ∧ (s.power.dev = .unconfigured ∨ s.power.dev = .ready ∨ s.power.dev = .safe ∨ s.power.dev = .service)) ∧
    (∃ (s : State), s.power.dev ≠ .noSupply) ∧
    (∃ (s : State), s.power.dev = .boot ∧ s.bootRom = false ∧ s.power.ign = true) ∧
    (∃ (s : State), s.power.dev = .boot ∧ s.power.crystalOk = true) ∧
    (∃ (s : State), s.power.dev.awake = true ∧ s.time.rc = false) ∧
    (∃ (s : State), s.power.dev = .shutdown ∧ s.power.wakeAgain = none ∧ s.coresAbsent = false ∧ s.power.stage < 5 ∧ s.railDown = true) ∧
    (∃ (s : State), s.power.dev = .shutdown ∧ s.power.wakeAgain = none) ∧
    (∃ (r : Req) (x : Session) (s : State), s.Takes r x ∧ (s.served r).runRefusal = 0) ∧
    (∃ (r : Req) (x : Session) (s : State), s.Takes r x ∧ s.power.dev = .run ∧ s.sup.thermal = false) ∧
    (∃ (r : Req) (x : Session) (s : State), s.Takes r x ∧ (s.power.dev = .ready ∨ s.power.dev = .run ∨ s.power.dev = .bare)) ∧
    (∃ (r : Req) (x : Session) (s : State), s.Takes r x ∧ s.power.dev = .safe ∧ s.sup.thermal = false ∧ s.safeFault = false) ∧
    (∃ (r : Req) (x : Session) (s : State), s.Takes r x ∧ 3 ≤ x.level ∧ (s.power.dev = .ready ∨ s.power.dev = .safe) ∧ (s.card.life = 2 ∨ s.card.life = 3) ∧ (s.power.dev = .safe → s.safeFault = false)) ∧
    (∃ (c : StateCmd) (s : State), s.power.cmd = some c ∧ c.target = 2 ∧ s.power.dev = .run ∧ s.sup.thermal = false) ∧
    (∃ (s : State), s.power.dev.awake = true) ∧
    (∃ (u : Undo) (s : State), s.undo = some u) ∧
    (∃ (s : State), s.power.dev.awake = true) ∧
    (∃ (q : Report) (l : List Report) (s : State), s.power.dev.awake = true ∧ s.sup.reported = q :: l ∧ q.code ≠ 0xE001) ∧
    (∃ (r : Req) (x : Session) (s : State), s.Takes r x) ∧
    (∃ (s : State), s.power.dev.awake = true ∧ s.coresAbsent = false) ∧
    (∃ (c : CoreStop) (s : State), s.power.dev.awake = true ∧ s.sup.stop = some c) ∧
    (∃ (c : CoreStop) (s : State), s.sup.stop = some c ∧ c.coast = true) ∧
    (∃ (i : SessionId) (y : Session) (s : State), s.nets.ctrl = some i ∧ s.session i = some y ∧ s.sup.hostGone = false) ∧
    (∃ (s : State), s.power.dev = .run ∧ s.spd.holding = true) ∧
    (∃ (n : Fin 128) (x : IT) (s : State) (u : State) (v : State), s.power.dev = .bare ∧ (s.ch n).retryAt = some x ∧ u = (s.at x).modCh n (fun c => { c with retryAt := none }) ∧ u.bareWants n = true ∧ u.bareIdle n = true ∧ u.requestPull n (u.bareStart n) = (v, .granted)) :=
  ⟨⟨inState .noSupply, by decide +kernel⟩,
   ⟨inState .standby, by decide +kernel⟩,
   ⟨inState .service, by decide +kernel⟩,
   ⟨(inState .standby).modPower (fun p => { p with listening := true }), by decide +kernel⟩,
   ⟨90000000000, (inState .service).modPower (fun p => { p with wakeHold := some 90000000000 }), by decide +kernel⟩,
   ⟨inState .run, by decide +kernel⟩,
   ⟨(inState .boot).modPower (fun p => { p with ign := true }), by decide +kernel⟩,
   ⟨inState .boot, by decide +kernel⟩,
   ⟨inState .run, by decide +kernel⟩,
   ⟨inState .shutdown, by decide +kernel⟩,
   ⟨inState .shutdown, by decide +kernel⟩,
   ⟨rq, ssNow, runState, takes_of (by decide +kernel), run_ready⟩,
   ⟨rq, ss, host (inState .run) ss, takes_of (by decide +kernel), by decide +kernel⟩,
   ⟨rq, ss, host (inState .run) ss, takes_of (by decide +kernel), by decide +kernel⟩,
   ⟨rq, ss, host (inState .safe) ss, takes_of (by decide +kernel), by decide +kernel⟩,
   ⟨rq, ss3, (host (inState .ready) ss3).modCard (fun c => { c with life := 2 }), takes_of (by decide +kernel), by decide +kernel⟩,
   ⟨⟨2, 90000000000⟩, (inState .run).modPower (fun p => { p with cmd := some ⟨2, 90000000000⟩ }), by decide +kernel⟩,
   ⟨inState .run, by decide +kernel⟩,
   ⟨undo0, { inState .run with undo := some undo0 }, by decide +kernel⟩,
   ⟨inState .run, by decide +kernel⟩,
   ⟨⟨0xE015, 62000000000, 0, [], 5, 1⟩, [], (inState .run).modSup (fun x => { x with reported := [⟨0xE015, 62000000000, 0, [], 5, 1⟩] }), by decide +kernel⟩,
   ⟨rq, ss, host (inState .ready) ss, takes_of (by decide +kernel)⟩,
   ⟨inState .run, by decide +kernel⟩,
   ⟨⟨62000000000, .warmReset, true, 4, 1, []⟩, (inState .run).modSup (fun x => { x with stop := some ⟨62000000000, .warmReset, true, 4, 1, []⟩ }), by decide +kernel⟩,
   ⟨⟨62000000000, .warmReset, true, 4, 1, []⟩, (inState .run).modSup (fun x => { x with stop := some ⟨62000000000, .warmReset, true, 4, 1, []⟩ }), by decide +kernel⟩,
   ⟨rq.sid, ss, { host (inState .run) ss with nets := { (host (inState .run) ss).nets with ctrl := some rq.sid } }, by decide +kernel⟩,
   ⟨(inState .run).modSpd (fun d => { d with holding := true }), by decide +kernel⟩,
   ⟨0, 90000000000, bareState, bareAfter, (bareAfter.requestPull (0 : Fin 128) (bareAfter.bareStart (0 : Fin 128))).1, by decide +kernel, by decide +kernel, rfl, by decide +kernel, by decide +kernel, Prod.ext rfl (by decide +kernel)⟩⟩

theorem test_hypotheses_CompletesBanks :
    (∃ (n : Fin 128) (e : DieEdge) (s : State), (s.ch n).nextOpen = some e ∧ (s.ch n).state ≠ 1 ∧ (s.ch n).state ≠ 2 ∧ s.chEnabled n = true ∧ s.pullRefused n e.pct = false) ∧
    (∃ (n : Fin 128) (s : State), (s.ch n).state = 1 ∧ (s.ch n).pull.reach = none) ∧
    (∃ (n : Fin 128) (s : State), (s.ch n).state = 1) ∧
    (∃ (n : Fin 128) (e : DieEdge) (s : State), (s.ch n).nextClose = some e ∧ ((s.ch n).state = 1 ∨ (s.ch n).state = 2)) ∧
    (∃ (n : Fin 128) (cl : Closing) (s : State), (s.ch n).decaying = some cl) ∧
    (∃ (n : Fin 128) (cl : Closing) (s : State), (s.ch n).closings.find? (·.waits) = some cl ∧ cl.kink = none ∧ s.windowsDue (n.val / 32) cl.opensAt n = [(n.val, cl)]) ∧
    (∃ (n : Fin 128) (l : List Int) (cl : Closing) (i : Nat) (s : State), (s.ch n).closings.find? (fun y => y.convOn && y.kink.isNone) = some cl ∧ kinkIndex (s.pN (0x3000 + n.val) 0xB) l 0 = some i) ∧
    (∃ (n : Fin 128) (cl : Closing) (s : State), (s.ch n).closings.find? (·.window) = some cl ∧ cl.kink = none) ∧
    (∃ (n : Fin 128) (x : TripIn) (s : State), ((s.ch n).state = 1 ∨ (s.ch n).state = 2) ∧ s.ocThreshold n < x.ma ∧ max (s.ch n).pull.start x.onAt + 1000 ≤ x.at_) ∧
    (∃ (b : Fin 16) (x : TripIn) (s : State), s.bankOut b = false ∧ (s.bank b).limit < x.ma) ∧
    (∃ (b : Fin 16) (x : IT) (s : State), (s.bank b).tripTill = some x) ∧
    (∃ (n : Fin 128) (c : IT) (s : State), (s.ch n).lastCmd = some c ∧ (s.ch n).state ≠ 1 ∧ (s.ch n).state ≠ 2) ∧
    (∃ (b : Fin 16) (x : IT) (s : State), s.power.dev.awake = true ∧ s.commonAt b x = 0) ∧
    (∃ (d : Fin 4) (s : State), (s.die d).state = 1) ∧
    (∃ (d : Fin 4) (s : State), (s.die d).state = 2) ∧
    (∃ (r : Req) (x : Session) (s : State), s.Takes r x) ∧
    (∃ (r : Req) (x : Session) (s : State), s.Takes r x) ∧
    (∃ (s : State), s.power.dev.awake = true ∧ s.bob.railHigh = false) ∧
    (∃ (s : State), s.power.dev.awake = true) ∧
    (∃ (c : RailCause) (s : State), s.power.dev.awake = true ∧ c ≠ .underVoltage) ∧
    (∃ (s : State), s.power.dev.awake = true) ∧
    (∃ (s : State), s.power.dev.awake = true) ∧
    (∃ (s : State), s.bob.state = 1) ∧
    (∃ (s : State), s.power.dev.awake = true ∧ s.bob.discharging = true ∧ s.bob.state ≠ 5 ∧ s.power.dev ≠ .shutdown) ∧
    (∃ (w : Fin 8) (s : State), s.power.dev = .run ∧ s.lpOn w = true) ∧
    (∃ (r : Req) (x : Session) (w : Fin 8) (m : Byte) (s : State), s.Takes r x ∧ m.toNat < 3 ∧ writeFail (s.proposed (pkey (0x3100 + w.val) 0xF) [m]) (pkey (0x3100 + w.val) 0xF) s.strict = 0) ∧
    (∃ (r : Req) (x : Session) (w : Fin 8) (j : Fin 8) (v : Bytes) (s : State), s.Takes r x ∧ s.coefHeld = false ∧ (findDesc (0x3210 + 8 * w.val + j.val) 1).bind (fun d => valueFail d (0x3210 + 8 * w.val + j.val) 1 v) = none ∧ writeFail (s.proposed (pkey (0x3210 + 8 * w.val + j.val) 1) v) (pkey (0x3210 + 8 * w.val + j.val) 1) s.strict = 0 ∧ s.stepping w = false) ∧
    (∃ (r : Req) (x : Session) (w : Fin 8) (j : Fin 8) (v : Bytes) (s : State), s.Takes r x ∧ s.coefHeld = false ∧ (findDesc (0x3210 + 8 * w.val + j.val) 2).bind (fun d => valueFail d (0x3210 + 8 * w.val + j.val) 2 v) = none ∧ s.stepping w = false) ∧
    (∃ (r : Req) (x : Session) (s : State), s.Takes r x) ∧
    (∃ (k : Fin 16) (s : State), (s.sp k).live = true) :=
  ⟨⟨127, ⟨true, 80000000000, 100, 0⟩, setP ((inState .run).modCh 127 (fun c => { c with edges := [⟨true, 80000000000, 100, 0⟩] })) 0x307F 1 1 1, by decide +kernel⟩,
   ⟨127, (inState .run).modCh 127 (fun c => { c with state := 1 }), by decide +kernel⟩,
   ⟨0, (inState .run).modCh 0 (fun c => { c with state := 1 }), by decide +kernel⟩,
   ⟨127, ⟨false, 80000000000, 100, 0⟩, (inState .run).modCh 127 (fun c => { c with state := 2, edges := [⟨false, 80000000000, 100, 0⟩] }), by decide +kernel⟩,
   ⟨127, ⟨80000000000, 0, 0, none, 80000500000, 80001500000, true, false, false, true, none⟩, (inState .run).modCh 127 (fun c => { c with state := 3, closings := [⟨80000000000, 0, 0, none, 80000500000, 80001500000, true, false, false, true, none⟩] }), by decide +kernel⟩,
   ⟨127, closing1, closingState, by decide +kernel, by decide +kernel, window_due⟩,
   ⟨127, [0, 0, 1000000], ⟨80000000000, 0, 0, some 80000400000, 80000500000, 80001500000, true, true, false, true, none⟩, 1, (inState .run).modCh 127 (fun c => { c with closings := [⟨80000000000, 0, 0, some 80000400000, 80000500000, 80001500000, true, true, false, true, none⟩] }), by decide +kernel⟩,
   ⟨127, ⟨80000000000, 0, 0, some 80000400000, 80000500000, 80001500000, true, true, false, true, none⟩, (inState .run).modCh 127 (fun c => { c with closings := [⟨80000000000, 0, 0, some 80000400000, 80000500000, 80001500000, true, true, false, true, none⟩] }), by decide +kernel⟩,
   ⟨127, ⟨90000000000, 1000000, 0⟩, (inState .run).modCh 127 (fun c => { c with state := 2 }), by decide +kernel⟩,
   ⟨15, ⟨90000000000, 1000000, 0⟩, inState .run, by decide +kernel⟩,
   ⟨15, 90000000000, (inState .run).modBank 15 (fun b => { b with tripTill := some 90000000000 }), by decide +kernel⟩,
   ⟨127, 80000000000, (inState .run).modCh 127 (fun c => { c with lastCmd := some 80000000000 }), by decide +kernel⟩,
   ⟨15, 90000000000, inState .run, by decide +kernel⟩,
   ⟨3, (inState .run).modDie 3 (fun d => { d with state := 1 }), by decide +kernel⟩,
   ⟨3, (inState .run).modDie 3 (fun d => { d with state := 2 }), by decide +kernel⟩,
   ⟨rq, ss, host (inState .ready) ss, takes_of (by decide +kernel)⟩,
   ⟨rq, ss, host (inState .ready) ss, takes_of (by decide +kernel)⟩,
   ⟨inState .run, by decide +kernel⟩,
   ⟨inState .run, by decide +kernel⟩,
   ⟨.overVoltage, inState .run, by decide +kernel⟩,
   ⟨inState .run, by decide +kernel⟩,
   ⟨inState .run, by decide +kernel⟩,
   ⟨(inState .ready).modBob (fun b => { b with state := 1 }), by decide +kernel⟩,
   ⟨(inState .ready).modBob (fun b => { b with discharging := true }), by decide +kernel⟩,
   ⟨7, setP (inState .run) 0x3107 1 1 1, by decide +kernel⟩,
   ⟨rq, ss, 7, 1, host (inState .ready) ss, takes_of (by decide +kernel), by decide +kernel⟩,
   ⟨rq, ss, 7, 7, List.replicate 800 0, host (inState .ready) ss, takes_of (by decide +kernel), by decide +kernel⟩,
   ⟨rq, ss, 7, 7, patch0, host (inState .ready) ss, takes_of (by decide +kernel), by decide +kernel⟩,
   ⟨rq, ss, host (inState .ready) ss, takes_of (by decide +kernel)⟩,
   ⟨15, (inState .run).modSp 15 (fun x => { x with live := true }), by decide +kernel⟩⟩

theorem test_hypotheses_CompletesOutputs :
    (∃ (h : Fin 4) (e : DieEdge) (es : List DieEdge) (s : State), (s.br h).edges = e :: es ∧ s.brFree h = true ∧ e.opens = false) ∧
    (∃ (h : Fin 4) (x : TravelIn) (o : Bool) (t0 : IT) (p : Nat) (s : State), (s.br h).drive = some (o, t0, p) ∧ t0 + 120000000 ≤ x.at_ ∧ s.pN (0x3500 + h.val) 7 < x.ma) ∧
    (∃ (h : Fin 4) (o : Bool) (t0 : IT) (p : Nat) (s : State), (s.br h).drive = some (o, t0, p)) ∧
    (∃ (h : Fin 4) (first : IT) (x : IT) (s : State) (u : State), (s.br h).asked = some (first, x) ∧ (s.at x).requestTorque h (s.pEl 0x1400 8 4 h * s.pN (0x3500 + h.val) 6 / 100) (secondBoundary ((s.at x).takesAt (1 + h.val))) = (u, .granted)) ∧
    (∃ (g : Fin 2) (x : IT) (s : State), s.stallDue g x = true) ∧
    (∃ (o : Fin 6) (ma : Nat) (s : State), s.power.dev.awake = true ∧ o.val < 4 ∧ 16000 < ma) ∧
    (∃ (o : Fin 6) (x : IT) (s : State), o.val < 4 ∧ (s.br o).tripTill = some x) ∧
    (∃ (r : Req) (x : Session) (o : Fin 6) (s : State), s.Takes r x ∧ 4 ≤ o.val) ∧
    (∃ (r : Req) (x : Session) (j : Fin 16) (v : Byte) (s : State), s.Takes r x ∧ v.toNat < 2 ∧ writeFail (s.proposed (pkey (0x3600 + j.val) 0x10) [v]) (pkey (0x3600 + j.val) 0x10) s.strict = 0) ∧
    (∃ (j : Fin 16) (k : LoadTripKind) (x : IT) (s : State), s.tripMet j k x = true) ∧
    (∃ (j : Fin 16) (x : IT) (x0 : IT) (q : Int) (s : State), (s.ld j).tripAt = some x0 ∧ x0 + s.pN (0x3600 + j.val) 0xC * 1000000 ≤ x ∧ (s.ld j).retries ≤ s.pN (0x3600 + j.val) 0xB ∧ (s.pN (0x3600 + j.val) 9 = 1 ∨ s.ldJunction j q < 1750 - 10 * s.pN (0x3600 + j.val) 0xA) ∧ (s.ld j).therm = false ∧ (s.ld j).retryL = false ∧ s.ldThermHold j = false ∧ s.ldWant j = true ∧ s.contained 0xE005 (7 + j.val) = false ∧ (s.ld j).on = false) ∧
    (∃ (j : Fin 16) (s : State), (s.ld j).on = true ∧ (s.ld j).therm = false) ∧
    (∃ (j : Fin 16) (x : IT) (s : State), (s.ld j).waitTill = some x ∧ s.ldThermHold j = false ∧ s.ldWant j = true ∧ (s.ld j).therm = false ∧ (s.ld j).retryL = false ∧ (s.ld j).tripAt = none ∧ s.contained 0xE005 (7 + j.val) = false ∧ (s.ld j).on = false) ∧
    (∃ (r : Req) (x : Session) (v : Byte) (s : State), s.Takes r x ∧ v.toNat < 4) ∧
    (∃ (j : Fin 16) (x : IT) (a : IT) (s : State), (s.ld j).on = true ∧ s.pN (0x3600 + j.val) 2 = 0 ∧ (s.ld j).current < s.pN (0x3600 + j.val) 0x12 ∧ (s.ld j).lowAt = some a ∧ max (s.ld j).onSince a + 100000000 ≤ x) ∧
    (∃ (x : IT) (s : State), s.budget.overAt = some x ∧ s.budget.shedC2 = false) ∧
    (∃ (y : SupplySubject) (c : SupplyCause) (v : Nat) (s : State), s.power.dev.awake = true ∧ s.supplyMeets y c v = true) ∧
    (∃ (s : State), s.power.dev.awake = true) ∧
    (∃ (i : Fin 2) (x : IT) (s : State), vget s.budget.svOff i none = some x) ∧
    (∃ (d : Fin 6) (x : IT) (s : State), vget s.therm.hold d none = some x) ∧
    (∃ (d : Fin 4) (x : IT) (s : State), vget s.therm.unavail d none = some x) ∧
    (∃ (r : Req) (x : Session) (v : Byte) (s : State), s.Takes r x ∧ writeFail (s.proposed (pkey 0x2110 3) [v]) (pkey 0x2110 3) s.strict = 0) ∧
    (∃ (y : IT) (l : List IT) (s : State), s.power.dev = .run ∧ s.external = true ∧ (List.range 132).filterMap s.outputEnds = y :: l) ∧
    (∃ (r : Req) (x : Session) (b : Bytes) (s : State), s.Takes r x ∧ b.length = 63 ∧ s.dis.result ≠ 1 ∧ s.hankJudge (1 :: b) = 0 ∧ natAt b 3 1 = 0 ∧ s.sliceAt (headerAt (natAt b 0 1)) 4096 = false) ∧
    (∃ (r : Req) (x : Session) (b : Bytes) (s : State), s.Takes r x ∧ b.length = 63 ∧ s.dis.result ≠ 1 ∧ s.hankJudge (2 :: b) = 0 ∧ s.sliceAt (headerAt (natAt b 0 1)) 4096 = false) ∧
    (∃ (r : Req) (x : Session) (b : Bytes) (s : State), s.Takes r x ∧ b.length = 63 ∧ s.dis.result ≠ 1 ∧ s.hankJudge (3 :: b) = 0 ∧ s.sliceAt (headerAt (natAt b 0 1)) 4096 = false) ∧
    (∃ (r : Req) (x : Session) (b : Bytes) (s : State), s.Takes r x ∧ b.length = 63 ∧ s.dis.result ≠ 1 ∧ s.hankJudge (4 :: b) = 0 ∧ s.sliceAt (headerAt (natAt b 0 1)) 4096 = false) ∧
    (∃ (c : CloseSeq) (s : State), s.dis.close = some c ∧ (s.power.geo = true → c.at_ < s.dis.horizon) ∧ s.closeHeld c.slot = false) ∧
    (∃ (k : Fin 16) (s : State), s.power.dev.awake = true ∧ (s.hank k).state = 3 ∧ s.sliceAt (headerAt k.val) 4096 = false) ∧
    (∃ (r : Req) (x : Session) (v : Bytes) (s : State), s.Takes r x ∧ v.length = 16 + natAt v 12 2 ∧ v.length ≤ 65536 ∧ s.streamCause v = 0 ∧ s.mramHeld = false ∧ s.sliceAt (headerAt (natAt v 0 1)) 4096 = false ∧ s.backHeld (natAt v 0 1) (intAt v 4 2) (intAt v 6 2) = false) ∧
    (∃ (c : Int) (r : Int) (x : IT) (k : Nat) (s : State) (u : State), s.heldHank = some k ∧ (c, r) ∈ s.dis.fills ∧ s.power.geo = true ∧ s.lapHeld = false ∧ (s.at x).makeRoom (s.hank k).mm = some u) ∧
    (∃ (c : Int) (r : Int) (x : IT) (d : IT) (k : Nat) (w : CTile) (s : State), s.heldHank = some k ∧ s.cached c r = some w ∧ w.dirty = some d ∧ w.noAlloc = false ∧ s.dis.fills = [] ∧ w.changed + s.pN 0x2300 2 * 1000000 ≤ x ∧ s.lapHeld = false ∧ s.backHeld k c r = false ∧ Memory.wf s.mram) :=
  ⟨⟨3, ⟨false, 80000000000, 100, 0⟩, [], (inState .run).modBr 3 (fun b => { b with edges := [⟨false, 80000000000, 100, 0⟩] }), by decide +kernel⟩,
   ⟨3, ⟨90000000000, 1000000⟩, true, 80000000000, 100, (inState .run).modBr 3 (fun b => { b with drive := some (true, 80000000000, 100) }), by decide +kernel⟩,
   ⟨3, true, 80000000000, 100, (inState .run).modBr 3 (fun b => { b with drive := some (true, 80000000000, 100) }), by decide +kernel⟩,
   ⟨3, 80000000000, 90000000000, valveState 2, (((valveState 2).at 90000000000).requestTorque (3 : Fin 4) ((valveState 2).pEl 0x1400 8 4 (3 : Fin 4) * (valveState 2).pN (0x3500 + (3 : Fin 4).val) 6 / 100) (secondBoundary (((valveState 2).at 90000000000).takesAt (1 + (3 : Fin 4).val)))).1, by decide +kernel, Prod.ext rfl (by decide +kernel)⟩,
   ⟨1, 90000000000, stallState, by decide +kernel⟩,
   ⟨3, 16001, inState .run, by decide +kernel⟩,
   ⟨3, 90000000000, (inState .run).modBr 3 (fun b => { b with tripTill := some 90000000000 }), by decide +kernel⟩,
   ⟨rq, ss, 5, host (inState .ready) ss, takes_of (by decide +kernel), by decide +kernel⟩,
   ⟨rq, ss, 15, 1, host (inState .ready) ss, takes_of (by decide +kernel), by decide +kernel⟩,
   ⟨15, .overTemperature 1750, 90000000000, (inState .run).modLd 15 (fun l => { l with on := true }), by decide +kernel⟩,
   ⟨15, 200000000000, 80000000000, 3, (setP (setP (setP (inState .run) 0x360F 1 1 1) 0x360F 0x10 1 1) 0x360F 9 1 1).modLd 15 (fun l => { l with tripAt := some 80000000000 }), by decide +kernel⟩,
   ⟨15, (inState .run).modLd 15 (fun l => { l with on := true }), by decide +kernel⟩,
   ⟨15, 90000000000, (setP (setP (inState .run) 0x360F 1 1 1) 0x360F 0x10 1 1).modLd 15 (fun l => { l with waitTill := some 90000000000 }), by decide +kernel⟩,
   ⟨rq, ss, 3, host (inState .ready) ss, takes_of (by decide +kernel), by decide +kernel⟩,
   ⟨15, 80100000000, 80000000000, (setP (setP (inState .run) 0x360F 2 1 0) 0x360F 0x12 2 1).modLd 15 (fun l => { l with on := true, lowAt := some 80000000000 }), by decide +kernel⟩,
   ⟨90000000000, { inState .run with budget := { Budget.reset with overAt := some 90000000000 } }, by decide +kernel⟩,
   ⟨.ka, .low, 5, inState .run, by decide +kernel⟩,
   ⟨inState .run, by decide +kernel⟩,
   ⟨1, 90000000000, { inState .run with budget := { Budget.reset with svOff := Vector.replicate 2 (some 90000000000) } }, by decide +kernel⟩,
   ⟨5, 90000000000, (inState .run).modTherm (fun t => { t with hold := Vector.replicate 6 (some 90000000000) }), by decide +kernel⟩,
   ⟨3, 90000000000, (inState .run).modTherm (fun t => { t with unavail := Vector.replicate 4 (some 90000000000) }), by decide +kernel⟩,
   ⟨rq, ss, 0, host (inState .ready) ss, takes_of (by decide +kernel), by decide +kernel⟩,
   ⟨externalState.power.entered + externalState.pN 0x2200 18 * 1000000, [], externalState, by decide +kernel⟩,
   ⟨rq, ss, hankBody, (host (inState .run) ss).modHank 15 (fun h => { h with state := 0 }), takes_of (by decide +kernel), by decide +kernel⟩,
   ⟨rq, ss, hankBody, (host (inState .run) ss).modHank 15 (fun h => { h with state := 1 }), takes_of (by decide +kernel), by decide +kernel⟩,
   ⟨rq, ss, hankBody, (host (inState .run) ss).modHank 15 (fun h => { h with state := 2 }), takes_of (by decide +kernel), by decide +kernel⟩,
   ⟨rq, ss, hankBody, (host (inState .run) ss).modHank 15 (fun h => { h with state := 1 }), takes_of (by decide +kernel), by decide +kernel⟩,
   ⟨⟨15, 80000000000, false⟩, (inState .run).modDis (fun d => { d with close := some ⟨15, 80000000000, false⟩ }), by decide +kernel⟩,
   ⟨15, (host (inState .run) ss).modHank 15 (fun h => { h with state := 3 }), by decide +kernel⟩,
   ⟨rq, ss, [15, 1, 2, 0, 1, 0, 1, 0] ++ List.replicate 8 0, (host (inState .ready) ss).modHank 15 (fun h => { h with state := 1 }), takes_of (by decide +kernel), by decide +kernel⟩,
   ⟨-1, 7, 90000000000, 15, fillState, (fillState.at 90000000000), by decide +kernel, by decide +kernel, by decide +kernel, by decide +kernel, if_pos (by decide +kernel)⟩,
   ⟨-1, 7, 9000000000000, 80000000000, 15, (⟨-1, 7, List.replicate 64 0, some 80000000000, 80000000000, 0, false, true, false, 0⟩ : CTile), ((inState .run).modHank 15 (fun h => { h with state := 2 })).modDis (fun d => { d with cache := [(⟨-1, 7, List.replicate 64 0, some 80000000000, 80000000000, 0, false, true, false, 0⟩ : CTile)] }), by decide +kernel⟩⟩

theorem test_hypotheses_CompletesInputs :
    (∃ (i : Fin 8) (l : Bool) (h : Nat) (s : State), s.power.dev.awake = true ∧ (s.pulse i).level ≠ some l ∧ s.filterTime i ≤ h ∧ s.pulseMode i = 2 ∧ s.pN (0x2010 + i.val) 2 = 2) ∧
    (∃ (p : Fin 2) (x : IndexIn) (s : State), s.power.dev.awake = true ∧ s.pulseMode (4 + p.val) = 5 ∧ s.pulseMode (2 * p.val) = 3 ∧ (s.pulse (4 + p.val)).level ≠ some true ∧ s.filterTime (4 + p.val) ≤ x.held) ∧
    (∃ (i : Fin 8) (s : State), s.power.dev.awake = true ∧ 1 < (s.pulse i).status) ∧
    (∃ (h : Fin 2) (q : HallIn) (s : State), s.power.dev.awake = true ∧ s.pB (0x2040 + h.val) 1 = true ∧ (∀ k, k < 3 → s.pN (0x2040 + h.val) 4 ≤ vget q.held k 0) ∧ (s.hall h).code ≠ some q.code) ∧
    (∃ (r : Req) (x : Session) (s : State), s.Takes r x) ∧
    (∃ (r : Req) (x : Session) (v : Bytes) (s : State), s.Takes r x ∧ v.length = 4) ∧
    (∃ (u : Fin 2) (b : Bytes) (c : Bytes) (a : Int) (s : State), s.power.dev.awake = true ∧ b.head? = some 0x24 ∧ b.length ≤ 82 ∧ checkedBody b = some c ∧ fieldOf (splitComma c) 0 = [0x48, 0x45, 0x48, 0x44, 0x54] ∧ bit (s.pN (0x2050 + u.val) 3) 3 = true ∧ decimalOf (fieldOf (splitComma c) 1) 9 = some a ∧ s.roleHas u 2 = true) ∧
    (∃ (s : State), s.power.dev.awake = true ∧ s.ppsPaired = true ∧ s.time.ppsSeen = false) ∧
    (∃ (d : Bytes) (s : State), s.power.dev.awake = true ∧ bit (s.pN 0x2058 1) 2 = true ∧ s.pN 0x2058 2 = 255 ∧ natAt d 7 1 % 4 = 0 ∧ natAt d 1 2 ≤ 0xFFFC) ∧
    (∃ (s : State), s.power.dev.awake = true) ∧
    (∃ (x : IT) (t0 : IT) (s : State), s.power.dev.awake = true ∧ s.motion.inert.still = some t0 ∧ s.motion.inert.n ≠ 0 ∧ t0 + s.pN 0x2060 5 * 1000000 ≤ x) ∧
    (∃ (x : IT) (s : State), s.power.dev.awake = true ∧ s.motion.inert.still = none ∧ s.motion.inert.status = 2 ∧ s.motion.inert.stillAt + s.pN 0x2060 7 * 1000000000 ≤ x) ∧
    (∃ (w : WallSource) (l : IT) (s : State), s.power.dev.awake = true ∧ s.lastFrom w = some l) ∧
    (∃ (r : Req) (x : Session) (p : Bytes) (s : State), s.Serves r x ∧ 1 ≤ x.level ∧ p.length = 16 ∧ natAt p 12 1 = 1 ∧ s.inBootRom = false ∧ s.priorities.head? = some .host ∧ (wallFloor : Int) ≤ (natAt p 0 8 : Int) + intAt p 8 4) ∧
    (∃ (s : State), s.power.dev.awake = true ∧ s.sliceAt 0xFFC00000 0x100000 = false) ∧
    (∃ (s : State), s.power.dev.awake = true) ∧
    (∃ (c : Fin 3) (s : State), s.canUp c = true) ∧
    (∃ (c : Fin 3) (d : CanNet) (s : State), s.power.dev.awake = true ∧ (vget s.nets.can c d).bus = 2) ∧
    (∃ (s : State), s.power.dev.awake = true ∧ s.power.dev ≠ .shutdown ∧ s.power.crystalOk = true ∧ s.nets.eth.up = false) ∧
    (∃ (s : State), s.power.dev.awake = true ∧ s.nets.eth.up = true) ∧
    (∃ (s : State), s.stackUp = true) ∧
    (∃ (ip : Nat) (mac : Nat) (y : IT) (s : State), s.power.dev.awake = true ∧ s.nets.eth.arp.find? (fun e => e.1 == ip) = some (ip, mac, y)) ∧
    (∃ (d : Bytes) (s : State), s.stackUp = true ∧ d.length ≤ 1472) ∧
    (∃ (s : State), s.stackUp = true ∧ s.pB 0x1220 5 = true) ∧
    (∃ (s : State), s.stackUp = true ∧ s.pB 0x1220 5 = true) ∧
    (∃ (s : State), s.isoOn = true ∧ s.nets.canA.retryAt = none ∧ s.nets.canA.trying = 0xFE) ∧
    (∃ (x : IT) (y : IT) (s : State), s.isoOn = true ∧ s.nets.canA.retryAt = some y ∧ y ≤ x) ∧
    (∃ (s : State), s.clientOn = true) ∧
    (∃ (g : Nat) (ms : Nat) (s : State), s.clientOn = true ∧ s.nets.canA.tcOn = true ∧ reported g = true ∧ ms ≠ 0) ∧
    (∃ (x : IT) (y : IT) (g : Nat) (ms : Nat) (s : State), s.clientOn = true ∧ s.nets.canA.tcOn = true ∧ y ≤ x ∧ s.nets.canA.triggers.find? (fun e => e.1 == g) = some (g, ms, y)) ∧
    (∃ (x : IT) (y : IT) (s : State), s.nets.canA.tcSeen = some y ∧ s.power.dev.awake = true ∧ s.coresAbsent = false ∧ s.nets.canA.tcOn = true ∧ y + 6000000000 ≤ x) ∧
    (∃ (s : State), s.canAServed = true) :=
  ⟨⟨7, true, 1000000, setP (setP (inState .run) 0x2017 1 1 2) 0x2017 2 1 2, by decide +kernel⟩,
   ⟨1, ⟨90000000000, 1000000, 1000000⟩, setP (setP (inState .run) 0x2012 1 1 3) 0x2015 1 1 5, by decide +kernel⟩,
   ⟨7, (inState .run).modPulse 7 (fun p => { p with status := 3 }), by decide +kernel⟩,
   ⟨1, ⟨5, Vector.replicate 3 1000000⟩, (setP (inState .run) 0x2041 1 1 1).modHall 1 (fun x => { x with code := some 4, sector := 5 }), by decide +kernel⟩,
   ⟨rq, ss, host (inState .ready) ss, takes_of (by decide +kernel)⟩,
   ⟨rq, ss, [0xFF, 0xFF, 0xFF, 0x7F], host (inState .ready) ss, takes_of (by decide +kernel), by decide +kernel⟩,
   ⟨1, hdt, hdtBody, 123400000000, setP (setP (inState .run) 0x2051 3 1 0x1F) 0x2051 1 1 2, by decide +kernel⟩,
   ⟨setP (inState .run) 0x2051 4 1 1, by decide +kernel⟩,
   ⟨[0, 0xFC, 0xFF, 0, 0, 0, 0, 0xFC], setP (setP (inState .run) 0x2058 1 1 7) 0x2058 2 1 255, by decide +kernel⟩,
   ⟨inState .run, by decide +kernel⟩,
   ⟨900000000000, 62000000000, (inState .run).modInert (fun p => { p with still := some 62000000000, n := 1 }), by decide +kernel⟩,
   ⟨90000000000000, (inState .run).modInert (fun p => { p with status := 2 }), by decide +kernel⟩,
   ⟨.gptp, 62000000000, { inState .run with time := { TimeBase.reset with lastGptp := some 62000000000 } }, by decide +kernel⟩,
   ⟨rq, ss, le 8 1800000000000000000 ++ [0, 0, 0, 0, 1, 0, 0, 0], setP (host (inState .ready) ss) 0x1101 1 1 2, serves_of (by decide +kernel), by decide +kernel⟩,
   ⟨inState .run, by decide +kernel⟩,
   ⟨inState .run, by decide +kernel⟩,
   ⟨2, inState .run, by decide +kernel⟩,
   ⟨2, ⟨0, Vector.replicate 4 0⟩, { inState .run with nets := { Nets.reset with can := Vector.replicate 3 ⟨2, Vector.replicate 4 0⟩ } }, by decide +kernel⟩,
   ⟨inState .ready, by decide +kernel⟩,
   ⟨ethOn, by decide +kernel⟩,
   ⟨ethOn, by decide +kernel⟩,
   ⟨5, 6, 62000000000, { inState .ready with nets := { Nets.reset with eth := { Eth.reset with arp := [(5, 6, 62000000000)] } } }, by decide +kernel⟩,
   ⟨List.replicate 1472 0, ethOn, by decide +kernel⟩,
   ⟨setP ethOn 0x1220 5 1 1, by decide +kernel⟩,
   ⟨setP ethOn 0x1220 5 1 1, by decide +kernel⟩,
   ⟨{ setP (inState .ready) 0x1230 1 1 1 with nets := { Nets.reset with canA := { CanA.reset with trying := 0xFE } } }, by decide +kernel⟩,
   ⟨90000000000, 90000000000, { setP (inState .ready) 0x1230 1 1 1 with nets := { Nets.reset with canA := { CanA.reset with retryAt := some 90000000000 } } }, by decide +kernel⟩,
   ⟨{ setP (inState .ready) 0x1230 1 1 1 with nets := { Nets.reset with canA := { CanA.reset with claimed := 0x80, tcOn := true, triggers := [(160, 100, 80000000000)], tcSeen := some 70000000000 } } }, by decide +kernel⟩,
   ⟨160, 100, { setP (inState .ready) 0x1230 1 1 1 with nets := { Nets.reset with canA := { CanA.reset with claimed := 0x80, tcOn := true, triggers := [(160, 100, 80000000000)], tcSeen := some 70000000000 } } }, by decide +kernel⟩,
   ⟨90000000000, 80000000000, 160, 100, { setP (inState .ready) 0x1230 1 1 1 with nets := { Nets.reset with canA := { CanA.reset with claimed := 0x80, tcOn := true, triggers := [(160, 100, 80000000000)], tcSeen := some 70000000000 } } }, by decide +kernel⟩,
   ⟨90000000000, 70000000000, { setP (inState .ready) 0x1230 1 1 1 with nets := { Nets.reset with canA := { CanA.reset with claimed := 0x80, tcOn := true, triggers := [(160, 100, 80000000000)], tcSeen := some 70000000000 } } }, by decide +kernel⟩,
   ⟨inState .ready, by decide +kernel⟩⟩

theorem test_hypotheses_CompletesRequests :
    (∃ (r : Req) (x : Session) (i : Nat) (sub : Nat) (st : Nat) (v : Bytes) (s : State), s.Serves r x ∧ s.inBootRom = false ∧ (s.mramHeld = false ∨ mramRead i sub = false) ∧ pkey i sub ∉ [pkey 0x1201 1, pkey 0x2312 3, pkey 0x4002 3, pkey 0x4002 4, pkey 0x4201 7, pkey 0x4403 2] ∧ (s.served r).readParam x.level i sub = .inr (st, v) ∧ v.length ≤ maxPayload r.sid.net - 4) ∧
    (∃ (r : Req) (x : Session) (i : Nat) (sub : Nat) (v : Bytes) (d : Desc) (s : State), s.Takes r x ∧ v.length ≤ maxPayload r.sid.net ∧ (s.served r).writeCheck x.level i sub v = (0, 0) ∧ findDesc i sub = some d ∧ d.acc = 1) ∧
    (∃ (r : Req) (x : Session) (i : Nat) (sub : Nat) (total : Nat) (data : Bytes) (s : State), s.Takes r x ∧ data.length ≤ writeRoom r.sid.net ∧ data.length < total ∧ blockFail i sub total data.length = 0) ∧
    (∃ (i : SessionId) (x : Session) (b : BlockWrite) (s : State), s.session i = some x ∧ x.bw = some b) ∧
    (∃ (r : Req) (x : Session) (i : Nat) (sub : Nat) (st : Nat) (v : Bytes) (s : State), s.Serves r x ∧ s.inBootRom = false ∧ (s.mramHeld = false ∨ mramRead i sub = false) ∧ pkey i sub ∉ [pkey 0x1201 1, pkey 0x2312 3, pkey 0x4002 3, pkey 0x4002 4, pkey 0x4201 7, pkey 0x4403 2] ∧ (s.servedBlock r).readParam x.level i sub = .inr (st, v) ∧ v.length ≤ 65536) ∧
    (∃ (i : SessionId) (x : Session) (b : BlockSnap) (s : State), s.session i = some x ∧ x.bs = some b) ∧
    (∃ (r : Req) (x : Session) (v : Bytes) (f : Frame) (s : State), s.Serves r x ∧ v.length ≤ 65536 ∧ s.mramHeld = false ∧ s.inBootRom = false ∧ (s.servedBlock r).readParam x.level 0x2312 3 = .inr (0, v) ∧ s.exportFrames.getLast? = some f) ∧
    (∃ (r : Req) (x : Session) (v : Bytes) (s : State), s.Serves r x ∧ v.length ≤ 65536 ∧ s.inBootRom = false ∧ (s.servedBlock r).readParam x.level 0x4403 2 = .inr (0, v)) ∧
    (∃ (r : Req) (x : Session) (v : Bytes) (s : State), s.Serves r x ∧ v.length ≤ 65536 ∧ s.mramHeld = false ∧ s.inBootRom = false ∧ (s.servedBlock r).readParam x.level 0x4002 3 = .inr (0, v)) ∧
    (∃ (r : Req) (x : Session) (p : Bytes) (s : State), s.Serves r x ∧ ((s.served r).commitJudge x.level p).res = 0) ∧
    (∃ (w : CommitWait) (s : State), s.dict.commit = some w) ∧
    (∃ (r : Req) (x : Session) (s : State), s.Takes r x) ∧
    (∃ (r : Req) (x : Session) (b : Bytes) (l : List (Nat × Nat × Bytes)) (u : State) (n : Nat) (s : State), s.Takes r x ∧ 64 ≤ b.length ∧ b.length ≤ 262144 ∧ imageParts b = some l ∧ natAt b 12 1 = 0 ∧ (s.served r).applyEntries r.sid x.level l 0 = (u, n, none)) ∧
    (∃ (f : Bytes) (s : State), s.power.dev.awake = true ∧ f ≠ s.dict.imageDigest) ∧
    (∃ (n : Net) (b : Bytes) (c : Nat) (s : State), n ≠ .eth ∧ s.netUp n = true ∧ s.coresAbsent = false ∧ frameFail n b = some c) ∧
    (∃ (i : SessionId) (p : Bytes) (s : State), s.netUp i.net = true ∧ i.byte ≠ 0 ∧ p.length = 8 ∧ s.session i = none ∧ s.mayOpen i.net = true ∧ s.nets.ctrl ≠ some i ∧ bit (natAt p 0 1) 0 = false) ∧
    (∃ (n : Net) (x : IT) (s : State), s.power.dev.awake = true ∧ s.netUp n = true ∧ n ∈ s.netsWithSession ∧ (s.at x).beatDue (Net.bitNo n) = true) ∧
    (∃ (i : SessionId) (y : Session) (s : State), s.session i = some y) ∧
    (∃ (r : Req) (x : Session) (s : State), s.Serves r x ∧ s.nets.lockUntil = none) ∧
    (∃ (r : Req) (x : Session) (v : Bytes) (s : State), s.Takes r x ∧ v.length = 68 ∧ natAt v 1 3 = 0 ∧ (natAt v 0 1 = 2 ∨ natAt v 0 1 = 3)) ∧
    (∃ (r : Req) (x : Session) (s : State), s.Takes r x) ∧
    (∃ (i : SessionId) (x : Session) (s : State), s.nets.ctrl = some i ∧ s.session i = some x ∧ 1 < x.level) ∧
    (∃ (x : IT) (s : State), s.nets.lockUntil = some x) :=
  ⟨⟨rq, ss, 0x1200, 1, 0, [100, 0], host (inState .ready) ss, serves_of (by decide +kernel), by decide +kernel⟩,
   ⟨rq, ss3, 0x1200, 1, [10, 0], writeDesc, host (inState .ready) ss3, takes_of (by decide +kernel), by decide +kernel⟩,
   ⟨rq, ss, 0x2110, 1, 20, List.replicate 19 0, host (inState .ready) ss, takes_of (by decide +kernel), by decide +kernel⟩,
   ⟨rq.sid, { ss with bw := some ⟨0x2110, 1, 40, List.replicate 20 0, 1, 0, 62000000000⟩ }, ⟨0x2110, 1, 40, List.replicate 20 0, 1, 0, 62000000000⟩, host (inState .ready) ({ ss with bw := some ⟨0x2110, 1, 40, List.replicate 20 0, 1, 0, 62000000000⟩ }), by decide +kernel⟩,
   ⟨rq, ss, 0x1200, 1, 0, [100, 0], host (inState .ready) ss, serves_of (by decide +kernel), by decide +kernel⟩,
   ⟨rq.sid, { ss with bs := some ⟨0x4003, 1, 0, List.replicate 64 0, 89000000001⟩ }, ⟨0x4003, 1, 0, List.replicate 64 0, 89000000001⟩, host (inState .ready) ({ ss with bs := some ⟨0x4003, 1, 0, List.replicate 64 0, 89000000001⟩ }), by decide +kernel⟩,
   ⟨rq, ss, exportState.exportTiles, frame1, exportState, serves_of (by decide +kernel), export_length, by decide +kernel, by decide +kernel, export_read, by rw [export_frames]; rfl⟩,
   ⟨rq, ss, describeFrom 4294967295, describeState, serves_of (by decide +kernel), describe_length, by decide +kernel, describe_read⟩,
   ⟨rq, ss, ((host (inState .ready) ss).servedBlock rq).readRO ss.level 0x4002 3, host (inState .ready) ss, serves_of (by decide +kernel), by decide +kernel, by decide +kernel, by decide +kernel, read_block (by decide +kernel) (by decide) (by decide +kernel) (by decide +kernel) rfl⟩,
   ⟨rq, ss, commitState.dict.imageDigest ++ [0, 0, 0, 0], commitState, serves_of (by decide +kernel), commit_judged⟩,
   ⟨⟨none, List.replicate 32 0, 90000000000⟩, (inState .unconfigured).modDict (fun d => { d with commit := some ⟨none, List.replicate 32 0, 90000000000⟩ }), by decide +kernel⟩,
   ⟨rq, ss, host (inState .ready) ss, takes_of (by decide +kernel)⟩,
   ⟨rq, ss, image0, [(0x1200, 2, [10, 0])], imageState.1, 1, host (inState .ready) ss, takes_of (by decide +kernel), by decide +kernel, by decide +kernel, by decide +kernel, by decide +kernel, image_applied⟩,
   ⟨[], inState .run, by decide +kernel, fun h => absurd (congrArg List.length h) (by rw [digest_length]; decide)⟩,
   ⟨.canB, badFrame, 1, inState .ready, by decide +kernel⟩,
   ⟨rq.sid, [0, 0, 0, 0, 0, 0, 0, 0], inState .ready, by decide +kernel⟩,
   ⟨.canB, 90000000000, host (inState .ready) ss, by decide +kernel⟩,
   ⟨rq.sid, ss, host (inState .ready) ss, by decide +kernel⟩,
   ⟨rq, ss, host (inState .ready) ss, serves_of (by decide +kernel), by decide +kernel⟩,
   ⟨rq, ss, 3 :: List.replicate 67 0, host (inState .ready) ss, takes_of (by decide +kernel), by decide +kernel⟩,
   ⟨rq, ss, host (inState .ready) ss, takes_of (by decide +kernel)⟩,
   ⟨rq.sid, ss3, { host (inState .ready) ss3 with nets := { (host (inState .ready) ss3).nets with ctrl := some rq.sid } }, by decide +kernel⟩,
   ⟨90000000000, { inState .ready with nets := { Nets.reset with lockUntil := some 90000000000 } }, by decide +kernel⟩⟩

theorem test_hypotheses_CompletesStores :
    (∃ (q : Rec) (l : List Rec) (s : State), s.power.dev.awake = true ∧ s.skein.arriving = q :: l) ∧
    (∃ (k : Fin 16) (h : Entry) (s : State), s.power.dev.awake = true ∧ s.skein.heldOf k = some h ∧ s.skein.hasRoom (spareCode h.r.code) = true ∧ s.snapSets h.r.code = []) ∧
    (∃ (s : State), s.power.dev.awake = true) ∧
    (∃ (x : IT) (c : Nat) (s : State), s.power.dev.awake = true ∧ s.skein.lossFirst = some (x, c) ∧ s.skein.general ≤ 7168 ∧ s.snapSets 3 = []) ∧
    (∃ (e : Entry) (l : List Entry) (s : State), s.power.dev.awake = true ∧ s.coresAbsent = false ∧ takeLowest s.skein.queue = some (e, l) ∧ e.snaps = [] ∧ s.skein.sramOnly = false ∧ Memory.wf s.mram) ∧
    (∃ (s : State), s.power.dev.awake = true ∧ s.skein.sramOnly = false) ∧
    (∃ (c : Nat) (w : AlarmWin) (s : State), s.power.dev.awake = true ∧ s.coresAbsent = false ∧ s.skein.windows.find? (fun w => w.code == c) = some w ∧ w.count = 0) ∧
    (∃ (r : Req) (x : Session) (s : State), s.Takes r x) ∧
    (∃ (i : SliceIn) (w : CardRun) (k : Nat) (l : List (Nat × Nat)) (s : State), s.power.dev.awake = true ∧ s.card.run = some w ∧ w.shutdown = false ∧ w.next = some (k, l) ∧ i.badRow = none ∧ s.coresAbsent = false) ∧
    (∃ (r : Req) (x : Session) (s : State), s.Takes r x ∧ s.card.run = none ∧ (s.card.life = 1 ∧ (s.power.dev = .unconfigured ∨ s.power.dev = .ready) ∨ s.card.life = 3 ∧ s.power.dev = .service ∧ 3 ≤ x.level)) ∧
    (∃ (r : Req) (x : Session) (s : State), s.Takes r x ∧ s.card.run = none ∧ (s.card.life = 1 ∧ (s.power.dev = .unconfigured ∨ s.power.dev = .ready) ∨ s.card.life = 3 ∧ s.power.dev = .service ∧ 3 ≤ x.level)) ∧
    (∃ (r : Req) (x : Session) (s : State), s.Takes r x ∧ s.card.run = none ∧ (s.card.life = 1 ∧ (s.power.dev = .unconfigured ∨ s.power.dev = .ready) ∨ s.card.life = 3 ∧ s.power.dev = .service ∧ 3 ≤ x.level)) ∧
    (∃ (r : Req) (x : Session) (s : State), s.Takes r x ∧ (s.card.life = 1 ∧ (s.power.dev = .unconfigured ∨ s.power.dev = .ready) ∨ s.card.life = 3 ∧ s.power.dev = .service ∧ 3 ≤ x.level)) ∧
    (∃ (r : Req) (x : Session) (y : Repair) (l : List Repair) (s : State), s.Takes r x ∧ (s.card.life = 1 ∧ (s.power.dev = .unconfigured ∨ s.power.dev = .ready) ∨ s.card.life = 3 ∧ s.power.dev = .service ∧ 3 ≤ x.level) ∧ s.card.repairs = y :: l ∧ (s.card.repairs.filter (fun z => z.memory == y.memory && z.fuse)).length < fuseRows y.memory) ∧
    (∃ (r : Req) (x : Session) (v : Bytes) (s : State), s.Takes r x ∧ v.length = 68 ∧ natAt v 1 3 = 0 ∧ s.card.life = 2 ∧ natAt v 0 1 = 4 ∧ 2 ≤ x.level) ∧
    (∃ (r : Req) (x : Session) (v : Bytes) (s : State), s.Takes r x ∧ v.length = 64 ∧ (s.card.life = 1 ∨ s.card.life = 2) ∧ s.card.key = none) ∧
    (∃ (r : Req) (x : Session) (e : Fin 4) (n : Nat) (s : State), s.Takes r x ∧ 2 ≤ x.level ∧ s.imagesServed = true ∧ (s.engine e).slotA.state ≠ 5 ∧ (s.engine e).slotB.state ≠ 5 ∧ 256 < n ∧ n ≤ 256 + bodyMax) ∧
    (∃ (r : Req) (x : Session) (e : Nat) (k : Nat) (v : Bytes) (s : State), s.Takes r x ∧ 2 ≤ x.level ∧ s.imagesServed = true ∧ s.loadEngine = some e ∧ e < 4 ∧ k = (s.engine e).other ∧ 5 ≤ v.length ∧ v.length ≤ 65536 ∧ natAt v 0 4 = ((s.engine e).slot k).got ∧ natAt v 0 4 + (v.length - 4) ≤ ((s.engine e).slot k).total ∧ s.sliceAt (slotBase e k + natAt v 0 4) (v.length - 4) = false ∧ s.mramHeld = false) ∧
    (∃ (r : Req) (x : Session) (e : Fin 4) (s : State), s.Takes r x ∧ 2 ≤ x.level ∧ s.imagesServed = true ∧ 2 ≤ ((s.engine e).slot (s.engine e).other).state ∧ ((s.engine e).slot (s.engine e).other).state ≠ 6) ∧
    (∃ (r : Req) (x : Session) (e : Fin 4) (s : State), s.Takes r x ∧ 2 ≤ x.level ∧ s.imagesServed = true ∧ s.card.switch = none ∧ s.switchCause e = 0) ∧
    (∃ (w : SwitchWait) (s : State), s.power.dev.awake = true ∧ s.card.switch = some w ∧ w.engine < 3 ∧ ((s.engine w.engine).slot (s.engine w.engine).other).state = 3) ∧
    (∃ (r : Req) (x : Session) (s : State), s.Takes r x ∧ 2 ≤ x.level ∧ s.imagesServed = true) ∧
    (∃ (r : Req) (x : Session) (e : Fin 4) (s : State), s.Takes r x ∧ 2 ≤ x.level ∧ s.imagesServed = true ∧ (((s.engine e).slot (s.engine e).other).state = 1 ∨ ((s.engine e).slot (s.engine e).other).state = 2)) :=
  ⟨⟨(⟨0x6003, 62000000000, 1, 127, []⟩ : Rec), [], (inState .run).modSkein (fun k => { k with arriving := [(⟨0x6003, 62000000000, 1, 127, []⟩ : Rec)] }), by decide +kernel⟩,
   ⟨6, ⟨(⟨0x6003, 62000000000, 1, 127, []⟩ : Rec), 0, 0, 1, 0, 0, 0, [], false⟩, (inState .run).modSkein (fun k => { k with holding := vset k.holding 6 (some ⟨(⟨0x6003, 62000000000, 1, 127, []⟩ : Rec), 0, 0, 1, 0, 0, 0, [], false⟩) }), by decide +kernel⟩,
   ⟨inState .run, by decide +kernel⟩,
   ⟨90000000000, 5, (inState .run).modSkein (fun k => { k with lossFirst := some (90000000000, 5) }), by decide +kernel⟩,
   ⟨⟨(⟨0x6003, 62000000000, 1, 127, []⟩ : Rec), 0, 0, 1, 0, 0, 0, [], false⟩, [], (inState .run).modSkein (fun k => { k with queue := [⟨(⟨0x6003, 62000000000, 1, 127, []⟩ : Rec), 0, 0, 1, 0, 0, 0, [], false⟩] }), by decide +kernel⟩,
   ⟨inState .run, by decide +kernel⟩,
   ⟨0x6003, ⟨0x6003, 90000000000, (⟨0x6003, 62000000000, 1, 127, []⟩ : Rec), 1, 0⟩, (inState .run).modSkein (fun k => { k with windows := [⟨0x6003, 90000000000, (⟨0x6003, 62000000000, 1, 127, []⟩ : Rec), 1, 0⟩] }), by decide +kernel⟩,
   ⟨rq, ss, (host (inState .ready) ss).modCard (fun c => { c with life := 1 }), takes_of (by decide +kernel)⟩,
   ⟨slice0, ⟨[(16547, 1)], 0, false, none, 1, 0, 0, 0, 0, 0, [], 0⟩, 16547, [], (inState .ready).modCard (fun c => { c with life := 1, run := some ⟨[(16547, 1)], 0, false, none, 1, 0, 0, 0, 0, 0, [], 0⟩ }), by decide +kernel⟩,
   ⟨rq, ss, (host (inState .ready) ss).modCard (fun c => { c with life := 1 }), takes_of (by decide +kernel), by decide +kernel⟩,
   ⟨rq, ss, (host (inState .ready) ss).modCard (fun c => { c with life := 1 }), takes_of (by decide +kernel), by decide +kernel⟩,
   ⟨rq, ss, (host (inState .ready) ss).modCard (fun c => { c with life := 1 }), takes_of (by decide +kernel), by decide +kernel⟩,
   ⟨rq, ss, (host (inState .ready) ss).modCard (fun c => { c with life := 1 }), takes_of (by decide +kernel), by decide +kernel⟩,
   ⟨rq, ss, ⟨7, false, 5, 256, 1⟩, [], (host (inState .ready) ss).modCard (fun c => { c with life := 1, repairs := [⟨7, false, 5, 256, 1⟩] }), takes_of (by decide +kernel), by decide +kernel⟩,
   ⟨rq, ss3, 4 :: List.replicate 67 0, (host (inState .ready) ss3).modCard (fun c => { c with life := 2 }), takes_of (by decide +kernel), by decide +kernel⟩,
   ⟨rq, ss, List.replicate 64 1, host (inState .ready) ss, takes_of (by decide +kernel), by decide +kernel⟩,
   ⟨rq, ss3, 3, 257, host (inState .ready) ss3, takes_of (by decide +kernel), by decide +kernel⟩,
   ⟨rq, ss3, 3, 1, [0, 0, 0, 0, 1], ((host (inState .ready) ss3).modCard (fun c => { c with cmdEng := 3 })).modEngine 3 (fun e => { e with slotB := ⟨1, 257, 0⟩ }), takes_of (by decide +kernel), by decide +kernel⟩,
   ⟨rq, ss3, 3, (host (inState .ready) ss3).modEngine 3 (fun e => { e with slotB := ⟨2, 257, 257⟩ }), takes_of (by decide +kernel), by decide +kernel⟩,
   ⟨rq, ss3, 0, (host (inState .ready) ss3).modEngine 0 (fun e => { e with slotB := ⟨3, 257, 257⟩, factoryB := true }), takes_of (by decide +kernel), by decide +kernel⟩,
   ⟨⟨2, 90000000000, 0⟩, ((inState .ready).modCard (fun c => { c with switch := some ⟨2, 90000000000, 0⟩ })).modEngine 2 (fun e => { e with slotB := ⟨3, 257, 257⟩ }), by decide +kernel⟩,
   ⟨rq, ss3, host (inState .ready) ss3, takes_of (by decide +kernel), by decide +kernel⟩,
   ⟨rq, ss3, 3, (host (inState .ready) ss3).modEngine 3 (fun e => { e with slotB := ⟨1, 257, 5⟩ }), takes_of (by decide +kernel), by decide +kernel⟩⟩

end Sys2Proof.Tests
end

section

namespace Sys2Proof.Machine

/-! # What the operations of the model leave unchanged

The parts that an operation may change are forgotten (`State.mask`), and what is left is as it was. Each lemma names the
parts its operation may change; a larger list will do as well, so that the lemmas of several operations join by `simp`. They
stand in the order of the model's files. -/

variable {ps : List Part}

/-- The state with the listed parts forgotten: each stands as at reset. -/
def State.mask (ps : List Part) (s : State) : State where
  it := if .it ∈ ps then State.reset.it else s.it
  time := if .time ∈ ps then State.reset.time else s.time
  power := if .power ∈ ps then State.reset.power else s.power
  motion := if .motion ∈ ps then State.reset.motion else s.motion
  rov := if .rov ∈ ps then State.reset.rov else s.rov
  spd := if .spd ∈ ps then State.reset.spd else s.spd
  dis := if .dis ∈ ps then State.reset.dis else s.dis
  rate := if .rate ∈ ps then State.reset.rate else s.rate
  chan := if .chan ∈ ps then State.reset.chan else s.chan
  banks := if .banks ∈ ps then State.reset.banks else s.banks
  dies := if .dies ∈ ps then State.reset.dies else s.dies
  bob := if .bob ∈ ps then State.reset.bob else s.bob
  whorl := if .whorl ∈ ps then State.reset.whorl else s.whorl
  spin := if .spin ∈ ps then State.reset.spin else s.spin
  bridges := if .bridges ∈ ps then State.reset.bridges else s.bridges
  ports := if .ports ∈ ps then State.reset.ports else s.ports
  loads := if .loads ∈ ps then State.reset.loads else s.loads
  budget := if .budget ∈ ps then State.reset.budget else s.budget
  therm := if .therm ∈ ps then State.reset.therm else s.therm
  dict := if .dict ∈ ps then State.reset.dict else s.dict
  nets := if .nets ∈ ps then State.reset.nets else s.nets
  skein := if .skein ∈ ps then State.reset.skein else s.skein
  sup := if .sup ∈ ps then State.reset.sup else s.sup
  card := if .card ∈ ps then State.reset.card else s.card
  mram := if .mram ∈ ps then State.reset.mram else s.mram
  undo := if .undo ∈ ps then State.reset.undo else s.undo
  freeCtr := if .freeCtr ∈ ps then State.reset.freeCtr else s.freeCtr
  pending := if .pending ∈ ps then State.reset.pending else s.pending

/-- Two states that agree once some parts are forgotten differ in those parts at most. -/
theorem Unchanged.of_mask {ps : List Part} {s t : State} (h : t.mask ps = s.mask ps) : Unchanged ps s t := by
  intro p hp
  simp only [State.mask, State.mk.injEq] at h
  cases p <;> simp_all [Part.same]

/-! A part that is forgotten may be set. -/

@[simp] theorem mask_set_it (s : State) (x) (h : .it ∈ ps) :
    State.mask ps { s with it := x } = s.mask ps := by simp [State.mask, h]
@[simp] theorem mask_set_time (s : State) (x) (h : .time ∈ ps) :
    State.mask ps { s with time := x } = s.mask ps := by simp [State.mask, h]
@[simp] theorem mask_set_power (s : State) (x) (h : .power ∈ ps) :
    State.mask ps { s with power := x } = s.mask ps := by simp [State.mask, h]
@[simp] theorem mask_set_motion (s : State) (x) (h : .motion ∈ ps) :
    State.mask ps { s with motion := x } = s.mask ps := by simp [State.mask, h]
@[simp] theorem mask_set_spd (s : State) (x) (h : .spd ∈ ps) :
    State.mask ps { s with spd := x } = s.mask ps := by simp [State.mask, h]
@[simp] theorem mask_set_dis (s : State) (x) (h : .dis ∈ ps) :
    State.mask ps { s with dis := x } = s.mask ps := by simp [State.mask, h]
@[simp] theorem mask_set_rate (s : State) (x) (h : .rate ∈ ps) :
    State.mask ps { s with rate := x } = s.mask ps := by simp [State.mask, h]
@[simp] theorem mask_set_chan (s : State) (x) (h : .chan ∈ ps) :
    State.mask ps { s with chan := x } = s.mask ps := by simp [State.mask, h]
@[simp] theorem mask_set_banks (s : State) (x) (h : .banks ∈ ps) :
    State.mask ps { s with banks := x } = s.mask ps := by simp [State.mask, h]
@[simp] theorem mask_set_dies (s : State) (x) (h : .dies ∈ ps) :
    State.mask ps { s with dies := x } = s.mask ps := by simp [State.mask, h]
@[simp] theorem mask_set_bridges (s : State) (x) (h : .bridges ∈ ps) :
    State.mask ps { s with bridges := x } = s.mask ps := by simp [State.mask, h]
@[simp] theorem mask_set_loads (s : State) (x) (h : .loads ∈ ps) :
    State.mask ps { s with loads := x } = s.mask ps := by simp [State.mask, h]
@[simp] theorem mask_set_budget (s : State) (x) (h : .budget ∈ ps) :
    State.mask ps { s with budget := x } = s.mask ps := by simp [State.mask, h]
@[simp] theorem mask_set_whorl (s : State) (x) (h : .whorl ∈ ps) :
    State.mask ps { s with whorl := x } = s.mask ps := by simp [State.mask, h]
@[simp] theorem mask_set_therm (s : State) (x) (h : .therm ∈ ps) :
    State.mask ps { s with therm := x } = s.mask ps := by simp [State.mask, h]
@[simp] theorem mask_set_nets (s : State) (x) (h : .nets ∈ ps) :
    State.mask ps { s with nets := x } = s.mask ps := by simp [State.mask, h]
@[simp] theorem mask_set_skein (s : State) (x) (h : .skein ∈ ps) :
    State.mask ps { s with skein := x } = s.mask ps := by simp [State.mask, h]
@[simp] theorem mask_set_sup (s : State) (x) (h : .sup ∈ ps) :
    State.mask ps { s with sup := x } = s.mask ps := by simp [State.mask, h]
@[simp] theorem mask_set_card (s : State) (x) (h : .card ∈ ps) :
    State.mask ps { s with card := x } = s.mask ps := by simp [State.mask, h]
@[simp] theorem mask_set_mram (s : State) (x) (h : .mram ∈ ps) :
    State.mask ps { s with mram := x } = s.mask ps := by simp [State.mask, h]
@[simp] theorem mask_set_undo (s : State) (x) (h : .undo ∈ ps) :
    State.mask ps { s with undo := x } = s.mask ps := by simp [State.mask, h]
@[simp] theorem mask_set_freeCtr (s : State) (x) (h : .freeCtr ∈ ps) :
    State.mask ps { s with freeCtr := x } = s.mask ps := by simp [State.mask, h]

@[simp] theorem ite_mask (c : Prop) [Decidable c] (s t : State) :
    (if c then s else t).mask ps = if c then s.mask ps else t.mask ps := apply_ite _ _ _ _

/-- A fold forgets what its step forgets. -/
@[simp] theorem foldl_mask {α : Type} (g : State → α → State) (l : List α) (s : State)
    (hg : ∀ s a, (g s a).mask ps = s.mask ps) : (l.foldl g s).mask ps = s.mask ps := by
  induction l generalizing s with
  | nil => rfl
  | cons a l ih => exact (ih (g s a)).trans (hg s a)

/-- The same for a fold that carries a value beside the state. -/
@[simp] theorem foldl_fst_mask {α β : Type} (g : State × β → α → State × β) (l : List α) (p : State × β)
    (hg : ∀ p a, (g p a).1.mask ps = p.1.mask ps) : (l.foldl g p).1.mask ps = p.1.mask ps := by
  induction l generalizing p with
  | nil => rfl
  | cons a l ih => exact (ih (g p a)).trans (hg p a)

/-! ### Machine/Ops.lean -/

@[simp] theorem State.at_mask (s : State) (t : IT) (h : [.it] ⊆ ps) :
    (s.at t).mask ps = s.mask ps := by
  simp at h
  simp [State.at, h]

@[simp] theorem State.draw_mask (s : State) (h : [.freeCtr] ⊆ ps) :
    s.draw.mask ps = s.mask ps := by
  simp at h
  simp [State.draw, h]

@[simp] theorem State.recordAt_mask (s : State) (code subj : Nat) (det : Bytes) (t : IT) (h : [.skein] ⊆ ps) :
    (s.recordAt code subj det t).mask ps = s.mask ps := by
  simp at h
  simp [State.recordAt, h]

@[simp] theorem State.record_mask (s : State) (code subj : Nat) (det : Bytes) (h : [.skein] ⊆ ps) :
    (s.record code subj det).mask ps = s.mask ps := by
  simp at h
  simp [State.record, h]

@[simp] theorem State.recordIf_mask (s : State) (c : Bool) (code subj : Nat) (det : Bytes) (h : [.skein] ⊆ ps) :
    (s.recordIf c code subj det).mask ps = s.mask ps := by
  simp at h
  simp [State.recordIf, h]

@[simp] theorem State.faultEnds_mask (s : State) (code subj : Nat) (h : [.sup] ⊆ ps) :
    (s.faultEnds code subj).mask ps = s.mask ps := by
  simp at h
  simp [State.faultEnds, h]

/-! ### Machine/Param.lean -/

@[simp] theorem State.reportAt_mask (s : State) (code subj : Nat) (det : Bytes) (t : IT) (h : [.sup] ⊆ ps) :
    (s.reportAt code subj det t).mask ps = s.mask ps := by
  simp at h
  simp [State.reportAt, h]

@[simp] theorem State.report_mask (s : State) (code subj : Nat) (det : Bytes) (h : [.sup] ⊆ ps) :
    (s.report code subj det).mask ps = s.mask ps := by
  simp at h
  simp [State.report, h]

/-! ### Machine/Banks.lean -/

@[simp] theorem State.modCh_mask (s : State) (n : Nat) (f : Channel → Channel) (h : [.chan] ⊆ ps) :
    (s.modCh n f).mask ps = s.mask ps := by
  simp at h
  simp [State.modCh, h]

@[simp] theorem State.modBank_mask (s : State) (b : Nat) (f : Bank → Bank) (h : [.banks] ⊆ ps) :
    (s.modBank b f).mask ps = s.mask ps := by
  simp at h
  simp [State.modBank, h]

@[simp] theorem State.modDie_mask (s : State) (d : Nat) (f : Die → Die) (h : [.dies] ⊆ ps) :
    (s.modDie d f).mask ps = s.mask ps := by
  simp at h
  simp [State.modDie, h]

@[simp] theorem State.modSpray_mask (s : State) (o : Nat) (f : List Spray → List Spray) (h : [.dis] ⊆ ps) :
    (s.modSpray o f).mask ps = s.mask ps := by
  simp at h
  simp [State.modSpray, h]

@[simp] theorem State.sprayStart_mask (s : State) (o : Nat) (pull t : IT) (h : [.dis] ⊆ ps) :
    (s.sprayStart o pull t).mask ps = s.mask ps := by
  simp at h
  simp [State.sprayStart, h]

@[simp] theorem State.sprayCmd_mask (s : State) (o : Nat) (t : IT) (h : [.dis] ⊆ ps) :
    (s.sprayCmd o t).mask ps = s.mask ps := by
  simp at h
  simp [State.sprayCmd, h]

@[simp] theorem State.sprayEnd_mask (s : State) (o : Nat) (c t since : IT) (unobs : Bool) (h : [.dis] ⊆ ps) :
    (s.sprayEnd o c t since unobs).mask ps = s.mask ps := by
  simp at h
  simp [State.sprayEnd, h]

@[simp] theorem State.sprayVoid_mask (s : State) (o : Nat) (t : IT) (h : [.dis] ⊆ ps) :
    (s.sprayVoid o t).mask ps = s.mask ps := by
  simp at h
  simp [State.sprayVoid, h]

@[simp] theorem State.setCommon_mask (s : State) (b : Nat) (h : [.banks] ⊆ ps) :
    (s.setCommon b).mask ps = s.mask ps := by
  simp at h
  simp [State.setCommon, h]

@[simp] theorem State.loseWindow_mask (s : State) (n : Nat) (cl : Closing) (t : IT) (h : [.dis, .chan] ⊆ ps) :
    (s.loseWindow n cl t).mask ps = s.mask ps := by
  simp at h
  simp [State.loseWindow, h]

@[simp] theorem State.endReserve_mask (s : State) (n : Nat) (h : [.budget] ⊆ ps) :
    (s.endReserve n).mask ps = s.mask ps := by
  simp at h
  simp [State.endReserve, h]

@[simp] theorem State.closeWith_mask (s : State) (n : Nat) (t : IT) (how : CloseBy) (c : Nat) (boost : Bool)
    (h : [.it, .dis, .chan, .banks, .budget] ⊆ ps) :
    (s.closeWith n t how c boost).mask ps = s.mask ps := by
  simp at h
  simp [State.closeWith, h]

@[simp] theorem State.closeCh_mask (s : State) (n : Nat) (t : IT) (how : CloseBy) (h : [.it, .dis, .chan, .banks, .budget] ⊆ ps) :
    (s.closeCh n t how).mask ps = s.mask ps := by
  simp at h
  simp [State.closeCh, h]

@[simp] theorem State.closeTogether_mask (s : State) (l : List Nat) (t : IT) (how : CloseBy)
    (h : [.it, .dis, .chan, .banks, .budget] ⊆ ps) :
    (s.closeTogether l t how).mask ps = s.mask ps := by
  simp at h
  simp [State.closeTogether, h]

@[simp] theorem State.bankBack_mask (s : State) (b : Nat) (h : [.banks] ⊆ ps) :
    (s.bankBack b).mask ps = s.mask ps := by
  simp at h
  simp [State.bankBack, h]

@[simp] theorem State.resetChannel_mask (s : State) (t : IT) (n : Nat) (h : [.dis, .chan, .banks, .budget] ⊆ ps) :
    (s.resetChannel t n).mask ps = s.mask ps := by
  simp at h
  simp [State.resetChannel, h]

@[simp] theorem State.learnCh_mask (s : State) (n : Nat) (h : [.chan, .skein] ⊆ ps) :
    (s.learnCh n).mask ps = s.mask ps := by
  simp at h
  simp [State.learnCh, h]

@[simp] theorem State.predictCh_mask (s : State) (n railMv supplyMv : Nat) (h : [.chan] ⊆ ps) :
    (s.predictCh n railMv supplyMv).mask ps = s.mask ps := by
  simp at h
  simp [State.predictCh, h]

@[simp] theorem State.coilStep_mask (s : State) (n ma2 clampNc : Nat) (h : [.chan] ⊆ ps) :
    (s.coilStep n ma2 clampNc).mask ps = s.mask ps := by
  simp at h
  simp [State.coilStep, h]

@[simp] theorem State.coilThreshold_mask (s : State) (n : Nat) (t : IT) (h : [.it, .dis, .chan, .banks, .budget, .skein] ⊆ ps) :
    (s.coilThreshold n t).mask ps = s.mask ps := by
  simp at h
  simp [State.coilThreshold, h]

/-! ### Machine/Budget.lean -/

@[simp] theorem State.modLd_mask (s : State) (j : Nat) (f : Load → Load) (h : [.loads] ⊆ ps) :
    (s.modLd j f).mask ps = s.mask ps := by
  simp at h
  simp [State.modLd, h]

@[simp] theorem State.refill_mask (s : State) (t : IT) (h : [.loads] ⊆ ps) :
    (s.refill t).mask ps = s.mask ps := by
  simp at h
  simp [State.refill, h]

@[simp] theorem State.releaseClamp_mask (s : State) (j : Nat) (h : [.loads] ⊆ ps) :
    (s.releaseClamp j).mask ps = s.mask ps := by
  simp at h
  simp [State.releaseClamp, h]

@[simp] theorem State.loadOff_mask (s : State) (j : Nat) (h : [.loads] ⊆ ps) :
    (s.loadOff j).mask ps = s.mask ps := by
  simp at h
  simp [State.loadOff, h]

@[simp] theorem State.dropResvs_mask (s : State) (h : [.budget] ⊆ ps) :
    s.dropResvs.mask ps = s.mask ps := by
  simp at h
  simp [State.dropResvs, h]

@[simp] theorem State.addResv_mask (s : State) (r : Resv) (h : [.budget] ⊆ ps) :
    (s.addResv r).mask ps = s.mask ps := by
  simp at h
  simp [State.addResv, h]

@[simp] theorem State.shedLoad_mask (s : State) (j : Nat) (h : [.loads, .budget, .skein] ⊆ ps) :
    (s.shedLoad j).mask ps = s.mask ps := by
  simp at h
  simp [State.shedLoad, h]

@[simp] theorem State.shedUntil_mask (s : State) (input ma : Nat) (l : List Nat) (h : [.loads, .budget, .skein] ⊆ ps) :
    (s.shedUntil input ma l).mask ps = s.mask ps := by
  simp at h
  induction l generalizing s with
  | nil => rfl
  | cons j l ih =>
    unfold State.shedUntil
    split
    · rfl
    · simp [ih, h]

@[simp] theorem State.noteVerdict_mask (s : State) (a : Ask) (v : Verdict) (h : [.budget] ⊆ ps) :
    (s.noteVerdict a v).mask ps = s.mask ps := by
  simp at h
  simp [State.noteVerdict, h]

@[simp] theorem State.judge_mask (s : State) (a : Ask) (h : [.loads, .budget, .skein] ⊆ ps) :
    (s.judge a).1.mask ps = s.mask ps := by
  simp at h
  unfold State.judge
  dsimp only
  (repeat' split) <;> simp [h]

@[simp] theorem State.request_mask (s : State) (a : Ask) (till : IT) (pull : Bool) (h : [.loads, .budget, .skein] ⊆ ps) :
    (s.request a till pull).1.mask ps = s.mask ps := by
  simp at h
  have hj := State.judge_mask (ps := ps) s a (by simp [h])
  unfold State.request
  rcases hv : s.judge a with ⟨u, v⟩
  rw [hv] at hj
  cases v <;> simpa [h] using hj

@[simp] theorem State.requestPull_mask (s : State) (n : Nat) (t : IT) (h : [.loads, .budget, .skein] ⊆ ps) :
    (s.requestPull n t).1.mask ps = s.mask ps := by
  unfold State.requestPull
  simp at h
  dsimp only
  (repeat' split) <;> simp [h]

@[simp] theorem State.requestTorque_mask (s : State) (o ma : Nat) (till : IT) (h : [.loads, .budget, .skein] ⊆ ps) :
    (s.requestTorque o ma till).1.mask ps = s.mask ps := by
  simp at h
  simp [State.requestTorque, h]

@[simp] theorem State.requestLoad_mask (s : State) (j : Nat) (h : [.loads, .budget, .skein] ⊆ ps) :
    (s.requestLoad j).1.mask ps = s.mask ps := by
  simp at h
  simp [State.requestLoad, h]

@[simp] theorem State.measureBudget_mask (s : State) (f : FrameIn) (h : [.budget] ⊆ ps) :
    (s.measureBudget f).mask ps = s.mask ps := by
  simp at h
  simp [State.measureBudget, h]

@[simp] theorem State.shedForBobbin_mask (s : State) (want : Nat) (l : List Nat) (h : [.loads, .budget, .skein] ⊆ ps) :
    (s.shedForBobbin want l).mask ps = s.mask ps := by
  simp at h
  induction l generalizing s with
  | nil => rfl
  | cons j l ih =>
    unfold State.shedForBobbin
    split
    · rfl
    · simp [ih, h]

@[simp] theorem State.allotBobbin_mask (s : State) (h : [.loads, .budget, .skein] ⊆ ps) :
    s.allotBobbin.mask ps = s.mask ps := by
  simp at h
  simp [State.allotBobbin, h]

@[simp] theorem State.overBudget_mask (s : State) (h : [.loads, .budget, .skein] ⊆ ps) :
    s.overBudget.mask ps = s.mask ps := by
  unfold State.overBudget
  simp at h
  dsimp only
  (repeat' split) <;> simp [h]

@[simp] theorem State.showBudget_mask (s : State) (h : [.budget] ⊆ ps) :
    s.showBudget.mask ps = s.mask ps := by
  simp at h
  simp [State.showBudget, h]

/-! ### Machine/Bobbin.lean -/

@[simp] theorem State.modBob_mask (s : State) (f : Bobbin → Bobbin) (h : [.bob] ⊆ ps) :
    (s.modBob f).mask ps = s.mask ps := by
  simp at h
  simp [State.mask, State.modBob, h]

@[simp] theorem State.startDischarge_mask (s : State) (h : [.bob] ⊆ ps) :
    s.startDischarge.mask ps = s.mask ps := by
  simp at h
  simp [State.startDischarge, h]

@[simp] theorem State.bobbinEnter_mask (s : State) (d : DevState) (h : [.bob] ⊆ ps) :
    (s.bobbinEnter d).mask ps = s.mask ps := by
  unfold State.bobbinEnter
  simp at h
  (repeat' split) <;> simp [h]

@[simp] theorem State.bobbinFollow_mask (s : State) (h : [.bob] ⊆ ps) :
    s.bobbinFollow.mask ps = s.mask ps := by
  simp at h
  simp [State.bobbinFollow, h]

@[simp] theorem State.bobbinFrame_mask (s : State) (f : FrameIn) (h : [.bob] ⊆ ps) :
    (s.bobbinFrame f).mask ps = s.mask ps := by
  simp at h
  simp [State.bobbinFrame, h]

/-! ### Machine/Loads.lean -/

@[simp] theorem State.reserveClamp_mask (s : State) (j : Nat) (h : [.loads] ⊆ ps) :
    (s.reserveClamp j).1.mask ps = s.mask ps := by
  unfold State.reserveClamp
  simp at h
  dsimp only
  (repeat' split) <;> simp [h]

@[simp] theorem State.ldTry_mask (s : State) (j : Nat) (h : [.loads, .budget, .skein] ⊆ ps) :
    (s.ldTry j).mask ps = s.mask ps := by
  unfold State.ldTry
  simp at h
  dsimp only
  (repeat' split) <;> simp [h]

@[simp] theorem State.ldFollow_mask (s : State) (j : Nat) (h : [.loads, .budget, .skein] ⊆ ps) :
    (s.ldFollow j).mask ps = s.mask ps := by
  simp at h
  simp [State.ldFollow, h]

@[simp] theorem State.clampMeasured_mask (s : State) (j mj : Nat) (h : [.loads, .skein] ⊆ ps) :
    (s.clampMeasured j mj).mask ps = s.mask ps := by
  simp at h
  simp [State.clampMeasured, h]

@[simp] theorem State.loadMeasure_mask (s : State) (f : FrameIn) (j : Nat) (h : [.loads, .skein] ⊆ ps) :
    (s.loadMeasure f j).mask ps = s.mask ps := by
  simp at h
  simp [State.loadMeasure, h]

@[simp] theorem State.loadFrame_mask (s : State) (j : Nat) (h : [.loads, .budget, .skein] ⊆ ps) :
    (s.loadFrame j).mask ps = s.mask ps := by
  simp at h
  simp [State.loadFrame, h]

@[simp] theorem State.loadsFollow_mask (s : State) (h : [.loads, .budget, .skein] ⊆ ps) :
    s.loadsFollow.mask ps = s.mask ps := by
  simp at h
  simp [State.loadsFollow, h]

@[simp] theorem State.loadsOff_mask (s : State) (h : [.loads, .budget, .skein] ⊆ ps) :
    s.loadsOff.mask ps = s.mask ps := by
  simp at h
  simp [State.loadsOff, h]

/-! ### Machine/Thermal.lean -/

@[simp] theorem State.modTherm_mask (s : State) (f : Thermal → Thermal) (h : [.therm] ⊆ ps) :
    (s.modTherm f).mask ps = s.mask ps := by
  simp at h
  simp [State.modTherm, h]

@[simp] theorem State.markFailed_mask (s : State) (i cause : Nat) (h : [.therm] ⊆ ps) :
    (s.markFailed i cause).mask ps = s.mask ps := by
  simp at h
  simp [State.markFailed, h]

@[simp] theorem State.throttleHold_mask (s : State) (d : Nat) (h : [.therm, .skein] ⊆ ps) :
    (s.throttleHold d).mask ps = s.mask ps := by
  simp at h
  simp [State.throttleHold, h]

@[simp] theorem State.resubstitute_mask (s : State) (i : Nat) (h : [.therm, .skein] ⊆ ps) :
    (s.resubstitute i).mask ps = s.mask ps := by
  unfold State.resubstitute
  simp at h
  dsimp only
  (repeat' split) <;> simp [h]

@[simp] theorem State.noteFailure_mask (s : State) (i cause : Nat) (hottest : Bool) (h : [.therm, .skein, .sup] ⊆ ps) :
    (s.noteFailure i cause hottest).mask ps = s.mask ps := by
  unfold State.noteFailure
  simp at h
  dsimp only
  (repeat' split) <;> simp [h]

@[simp] theorem State.readSensor_mask (s : State) (f : FrameIn) (failing : List Nat) (i : Nat) (h : [.therm] ⊆ ps) :
    (s.readSensor f failing i).mask ps = s.mask ps := by
  simp at h
  simp [State.readSensor, h]

@[simp] theorem State.blindCheck_mask (s : State) (d : Nat) (h : [.therm, .sup] ⊆ ps) :
    (s.blindCheck d).mask ps = s.mask ps := by
  unfold State.blindCheck
  simp at h
  dsimp only
  (repeat' split) <;> simp [h]

@[simp] theorem State.crossCheck_mask (s : State) (d : Nat) (h : [.therm] ⊆ ps) :
    (s.crossCheck d).1.mask ps = s.mask ps := by
  unfold State.crossCheck
  simp at h
  dsimp only
  (repeat' split) <;> simp [h]

@[simp] theorem State.setLevel_mask (s : State) (d : Nat) (h : [.therm, .skein] ⊆ ps) :
    (s.setLevel d).mask ps = s.mask ps := by
  simp at h
  simp [State.setLevel, h]

@[simp] theorem State.shutdownCheck_mask (s : State) (i : Nat) (h : [.therm, .skein, .sup] ⊆ ps) :
    (s.shutdownCheck i).mask ps = s.mask ps := by
  unfold State.shutdownCheck
  simp at h
  dsimp only
  (repeat' split) <;> simp [State.mask, h]

@[simp] theorem State.samplePeriod_mask (s : State) (h : [.therm] ⊆ ps) :
    s.samplePeriod.mask ps = s.mask ps := by
  simp at h
  simp [State.samplePeriod, h]

@[simp] theorem State.thermalShow_mask (s : State) (h : [.therm] ⊆ ps) :
    s.thermalShow.mask ps = s.mask ps := by
  simp at h
  simp [State.thermalShow, h]

@[simp] theorem State.thermalSample_mask (s : State) (f : FrameIn) (h : [.therm, .skein, .sup] ⊆ ps) :
    (s.thermalSample f).mask ps = s.mask ps := by
  simp at h
  simp [State.thermalSample, h]

@[simp] theorem State.thermalNotices_mask (s : State) (h : [.therm] ⊆ ps) :
    s.thermalNotices.mask ps = s.mask ps := by
  simp at h
  simp [State.thermalNotices, h]

/-! ### Machine/Flyer.lean -/

@[simp] theorem State.modSp_mask (s : State) (k : Nat) (f : Spinner → Spinner) (h : [.spin] ⊆ ps) :
    (s.modSp k f).mask ps = s.mask ps := by
  simp at h
  simp [State.mask, State.modSp, h]

@[simp] theorem State.spinWrite_mask (s : State) (k : Nat) (f : SpinSet → SpinSet) (h : [.spin] ⊆ ps) :
    (s.spinWrite k f).mask ps = s.mask ps := by
  simp at h
  simp [State.spinWrite, h]

@[simp] theorem State.spinCap_mask (s : State) (k : Nat) (h : [.spin] ⊆ ps) :
    (s.spinCap k).mask ps = s.mask ps := by
  simp at h
  simp [State.spinCap, h]

@[simp] theorem State.spinCommit_mask (s : State) (k : Nat) (h : [.spin] ⊆ ps) :
    (s.spinCommit k).mask ps = s.mask ps := by
  simp at h
  simp [State.spinCommit, h]

@[simp] theorem State.followJoin_mask (s : State) (k l : Nat) (h : [.spin] ⊆ ps) :
    (s.followJoin k l).mask ps = s.mask ps := by
  simp at h
  simp [State.followJoin, h]

@[simp] theorem State.followCommit_mask (s : State) (k : Nat) (h : [.spin] ⊆ ps) :
    (s.followCommit k).mask ps = s.mask ps := by
  unfold State.followCommit
  simp at h
  (repeat' split) <;> simp [h]

@[simp] theorem State.spinsCommit_mask (s : State) (h : [.spin] ⊆ ps) :
    s.spinsCommit.mask ps = s.mask ps := by
  simp at h
  simp [State.spinsCommit, h]

@[simp] theorem State.spinFollow_mask (s : State) (k : Nat) (h : [.spin] ⊆ ps) :
    (s.spinFollow k).mask ps = s.mask ps := by
  simp at h
  simp [State.spinFollow, h]

@[simp] theorem State.spinsFollow_mask (s : State) (h : [.spin] ⊆ ps) :
    s.spinsFollow.mask ps = s.mask ps := by
  simp at h
  simp [State.spinsFollow, h]

/-! ### Machine/Bridges.lean -/

@[simp] theorem State.modBr_mask (s : State) (h_ : Nat) (f : Bridge → Bridge) (h : [.bridges] ⊆ ps) :
    (s.modBr h_ f).mask ps = s.mask ps := by
  simp at h
  simp [State.modBr, h]

@[simp] theorem State.modPt_mask (s : State) (g : Nat) (f : Port → Port) (h : [.ports] ⊆ ps) :
    (s.modPt g f).mask ps = s.mask ps := by
  simp at h
  simp [State.mask, State.modPt, h]

@[simp] theorem State.writeDuty_mask (s : State) (d w : Nat) (h : [.spin] ⊆ ps) :
    (s.writeDuty d w).mask ps = s.mask ps := by
  unfold State.writeDuty
  simp at h
  (repeat' split) <;> simp [h]

@[simp] theorem State.passDuty_mask (s : State) (h_ w : Nat) (h : [.spin, .freeCtr] ⊆ ps) :
    (s.passDuty h_ w).mask ps = s.mask ps := by
  simp at h
  simp [State.passDuty, h]

@[simp] theorem State.bridgeCmd_mask (s : State) (h_ : Nat) (u : F32) (h : [.spin, .bridges, .freeCtr] ⊆ ps) :
    (s.bridgeCmd h_ u).mask ps = s.mask ps := by
  simp at h
  simp [State.bridgeCmd, h]

@[simp] theorem State.commutate_mask (s : State) (g : Nat) (h : [.ports] ⊆ ps) :
    (s.commutate g).mask ps = s.mask ps := by
  simp at h
  simp [State.commutate, h]

@[simp] theorem State.portCmd_mask (s : State) (g : Nat) (u : F32) (h : [.spin, .ports] ⊆ ps) :
    (s.portCmd g u).mask ps = s.mask ps := by
  simp at h
  simp [State.portCmd, h]

@[simp] theorem State.valveStart_mask (s : State) (h_ : Nat) (opens : Bool) (pct : Nat) (h : [.spin, .bridges, .freeCtr] ⊆ ps) :
    (s.valveStart h_ opens pct).mask ps = s.mask ps := by
  simp at h
  simp [State.valveStart, h]

@[simp] theorem State.valveAsk_mask (s : State) (h_ : Nat) (first : IT)
    (h : [.dis, .spin, .bridges, .loads, .budget, .skein, .freeCtr] ⊆ ps) :
    (s.valveAsk h_ first).mask ps = s.mask ps := by
  unfold State.valveAsk
  simp at h
  dsimp only
  (repeat' split) <;> simp [h]

@[simp] theorem State.valveClose_mask (s : State) (h_ : Nat) (h : [.dis, .spin, .bridges, .budget, .freeCtr] ⊆ ps) :
    (s.valveClose h_).mask ps = s.mask ps := by
  simp at h
  simp [State.valveClose, h]

@[simp] theorem State.bridgeResume_mask (s : State) (h_ : Nat)
    (h : [.dis, .spin, .bridges, .loads, .budget, .skein, .freeCtr] ⊆ ps) :
    (s.bridgeResume h_).mask ps = s.mask ps := by
  unfold State.bridgeResume
  simp at h
  (repeat' split) <;> simp [h]

@[simp] theorem State.bridgeStop_mask (s : State) (h_ st : Nat) (h : [.spin, .bridges] ⊆ ps) :
    (s.bridgeStop h_ st).mask ps = s.mask ps := by
  simp at h
  simp [State.bridgeStop, h]

@[simp] theorem State.bridgesEnter_mask (s : State) (d : DevState)
    (h : [.dis, .spin, .bridges, .ports, .loads, .budget, .skein, .freeCtr] ⊆ ps) :
    (s.bridgesEnter d).mask ps = s.mask ps := by
  unfold State.bridgesEnter
  simp at h
  dsimp only
  (repeat' split) <;> simp [h]

/-! ### Machine/Log.lean -/

@[simp] theorem State.storeRecord_mask (s : State) (b : Bytes) (h : [.skein, .mram] ⊆ ps) :
    (s.storeRecord b).mask ps = s.mask ps := by
  unfold State.storeRecord
  simp at h
  dsimp only
  (repeat' split) <;> simp [State.mask, h]

@[simp] theorem State.logResume_mask (s : State) (h : [.skein] ⊆ ps) :
    s.logResume.mask ps = s.mask ps := by
  simp at h
  simp [State.logResume, h]

/-! ### Machine/Wall.lean -/

@[simp] theorem State.foldSlew_mask (s : State) (h : [.time] ⊆ ps) :
    s.foldSlew.mask ps = s.mask ps := by
  simp at h
  simp [State.foldSlew, h]

@[simp] theorem State.noteGoverning_mask (s : State) (h : [.time] ⊆ ps) :
    s.noteGoverning.mask ps = s.mask ps := by
  unfold State.noteGoverning
  simp at h
  dsimp only
  (repeat' split) <;> simp [h]

@[simp] theorem State.writeCopy_mask (s : State) (h : [.time] ⊆ ps) :
    s.writeCopy.mask ps = s.mask ps := by
  simp at h
  simp [State.writeCopy, h]

@[simp] theorem State.writeFinal_mask (s : State) (aon : Nat) (h : [.time] ⊆ ps) :
    (s.writeFinal aon).mask ps = s.mask ps := by
  simp at h
  simp [State.writeFinal, h]

@[simp] theorem State.epochLost_mask (s : State) (a : Nat) (h : [.time] ⊆ ps) :
    (s.epochLost a).mask ps = s.mask ps := by
  simp at h
  simp [State.epochLost, h]

@[simp] theorem State.resumeTime_mask (s : State) (r : Resume) (bad : Vector Bool 5) (h : [.it, .time] ⊆ ps) :
    (s.resumeTime r bad).mask ps = s.mask ps := by
  simp at h
  unfold State.resumeTime
  dsimp only
  rw [State.writeCopy_mask _ (by simp [h])]
  simp [State.mask, h]

@[simp] theorem State.resumeNote_mask (s : State) (r : Resume) (h : [.skein] ⊆ ps) :
    (s.resumeNote r).mask ps = s.mask ps := by
  unfold State.resumeNote
  simp at h
  dsimp only
  (repeat' split) <;> simp [h]

/-! ### Machine/Motion.lean -/

@[simp] theorem State.applyJump_mask (s : State) (i : Nat) (h : [.motion, .rate] ⊆ ps) :
    (s.applyJump i).mask ps = s.mask ps := by
  unfold State.applyJump
  simp at h
  dsimp only
  (repeat' split) <;> simp [State.mask, h]

@[simp] theorem State.closeSet_mask (s : State) (h : [.motion, .rate] ⊆ ps) :
    s.closeSet.mask ps = s.mask ps := by
  simp at h
  simp [State.closeSet, h]

@[simp] theorem State.modInert_mask (s : State) (f : Inertial → Inertial) (h : [.motion] ⊆ ps) :
    (s.modInert f).mask ps = s.mask ps := by
  simp at h
  simp [State.modInert, h]

@[simp] theorem State.standstill_mask (s : State) (g : Option (Vector Int 3)) (h : [.motion] ⊆ ps) :
    (s.standstill g).mask ps = s.mask ps := by
  simp at h
  simp [State.standstill, h]

@[simp] theorem State.inertialSample_mask (s : State) (f : FrameIn) (h : [.motion] ⊆ ps) :
    (s.inertialSample f).mask ps = s.mask ps := by
  unfold State.inertialSample
  simp at h
  dsimp only
  (repeat' split) <;> simp [h]

/-! ### Machine/Whorl.lean -/

@[simp] theorem State.modLp_mask (s : State) (w : Nat) (f : Loop → Loop) (h : [.whorl] ⊆ ps) :
    (s.modLp w f).mask ps = s.mask ps := by
  simp at h
  simp [State.modLp, h]

@[simp] theorem State.noteLoad_mask (s : State) (h : [.whorl] ⊆ ps) :
    s.noteLoad.mask ps = s.mask ps := by
  simp at h
  simp [State.noteLoad, h]

@[simp] theorem State.grantOut_mask (s : State) (w i : Nat) (u : F32) (h : [.whorl, .loads, .budget, .skein] ⊆ ps) :
    (s.grantOut w i u).1.mask ps = s.mask ps := by
  unfold State.grantOut
  simp at h
  dsimp only
  (repeat' split) <;> simp [h]

@[simp] theorem State.deliver_mask (s : State) (w i : Nat) (u : F32)
    (h : [.whorl, .spin, .bridges, .ports, .loads, .budget, .skein, .freeCtr] ⊆ ps) :
    (s.deliver w i u).mask ps = s.mask ps := by
  unfold State.deliver
  simp at h
  dsimp only
  (repeat' split) <;> simp [h]

@[simp] theorem State.postRefs_mask (s : State) (w : Nat) (v : Vector F32 2) (h : [.whorl] ⊆ ps) :
    (s.postRefs w v).mask ps = s.mask ps := by
  simp at h
  simp [State.postRefs, h]

@[simp] theorem State.postRequest_mask (s : State) (w : Nat) (v : F32) (h : [.whorl] ⊆ ps) :
    (s.postRequest w v).mask ps = s.mask ps := by
  simp at h
  simp [State.postRequest, h]

@[simp] theorem State.safeStart_mask (s : State) (w : Nat)
    (h : [.whorl, .spin, .bridges, .ports, .loads, .budget, .skein, .freeCtr] ⊆ ps) :
    (s.safeStart w).mask ps = s.mask ps := by
  simp at h
  simp [State.safeStart, h]

@[simp] theorem State.whorlEnter_mask (s : State) (d : DevState)
    (h : [.whorl, .spin, .bridges, .ports, .loads, .budget, .skein, .freeCtr] ⊆ ps) :
    (s.whorlEnter d).mask ps = s.mask ps := by
  simp at h
  unfold State.whorlEnter
  refine foldl_mask _ _ _ fun s w => ?_
  dsimp only
  (repeat' split) <;> simp [h]

@[simp] theorem State.whorlBare_mask (s : State) (o : Nat)
    (h : [.whorl, .spin, .bridges, .ports, .loads, .budget, .skein, .freeCtr] ⊆ ps) :
    (s.whorlBare o).mask ps = s.mask ps := by
  unfold State.whorlBare
  simp at h
  (repeat' split) <;> simp [h]

@[simp] theorem State.whorlBareMark_mask (s : State) (f : Loop → Loop) (h : [.whorl] ⊆ ps) :
    (s.whorlBareMark f).mask ps = s.mask ps := by
  simp at h
  simp [State.whorlBareMark, h]

/-! ### Machine/Roving.lean -/

@[simp] theorem State.modRov_mask (s : State) (f : Roving → Roving) (h : [.rov] ⊆ ps) :
    (s.modRov f).mask ps = s.mask ps := by
  simp at h
  simp [State.mask, State.modRov, h]

@[simp] theorem State.updateOrigin_mask (s : State) (h : [.rov] ⊆ ps) :
    s.updateOrigin.mask ps = s.mask ps := by
  unfold State.updateOrigin
  simp at h
  dsimp only
  (repeat' split) <;> simp [h]

@[simp] theorem State.rovReject_mask (s : State) (h : [.rov] ⊆ ps) :
    s.rovReject.mask ps = s.mask ps := by
  simp at h
  simp [State.rovReject, h]

@[simp] theorem State.refit_mask (s : State) (t : IT) (p p' : Fine) (h : [.rov] ⊆ ps) :
    (s.refit t p p').mask ps = s.mask ps := by
  simp at h
  simp [State.refit, h]

@[simp] theorem State.innovate_mask (s : State) (innov : Int) (noise : Nat) (h : [.freeCtr] ⊆ ps) :
    (s.innovate innov noise).2.2.mask ps = s.mask ps := by
  simp at h
  simp [State.innovate, h]

@[simp] theorem State.leak_mask (s : State) (innov : Int) (h : [.freeCtr] ⊆ ps) :
    (s.leak innov).2.mask ps = s.mask ps := by
  simp at h
  simp [State.leak, h]

@[simp] theorem State.yawCorrect_mask (s : State) (gyro : Bool) (i k : Int) (h : [.rov] ⊆ ps) :
    (s.yawCorrect gyro i k).mask ps = s.mask ps := by
  simp at h
  simp [State.yawCorrect, h]

@[simp] theorem State.setPos_mask (s : State) (it : IT) (e n : Int) (noise : Nat) (h : [.rov] ⊆ ps) :
    (s.setPos it e n noise).mask ps = s.mask ps := by
  simp at h
  simp [State.setPos, h]

@[simp] theorem State.filterPos_mask (s : State) (it : IT) (e n : Int) (noise : Nat × Nat) (h : [.rov, .freeCtr] ⊆ ps) :
    (s.filterPos it e n noise).mask ps = s.mask ps := by
  unfold State.filterPos
  simp at h
  dsimp only
  (repeat' split) <;> simp [h]

@[simp] theorem State.fusePos_mask (s : State) (src : Nat) (it : IT) (e n : Int) (q : Nat) (h : [.rov, .freeCtr] ⊆ ps) :
    (s.fusePos src it e n q).mask ps = s.mask ps := by
  simp at h
  simp [State.fusePos, h]

@[simp] theorem State.posUnused_mask (s : State) (h : [.rov] ⊆ ps) :
    s.posUnused.mask ps = s.mask ps := by
  simp at h
  simp [State.posUnused, h]

@[simp] theorem State.takePos_mask (s : State) (src : Nat) (it : IT) (lat lon : Int) (alt : Option Int) (q : Nat)
    (h : [.rov, .freeCtr] ⊆ ps) :
    (s.takePos src it lat lon alt q).mask ps = s.mask ps := by
  unfold State.takePos
  simp at h
  dsimp only
  (repeat' split) <;> simp [h]

@[simp] theorem State.firstHeading_mask (s : State) (it : IT) (a : Nat) (byCourse : Bool) (h : [.rov] ⊆ ps) :
    (s.firstHeading it a byCourse).mask ps = s.mask ps := by
  simp at h
  simp [State.firstHeading, h]

@[simp] theorem State.fuseCourse_mask (s : State) (it : IT) (course : Nat) (speed : Int) (h : [.rov, .freeCtr] ⊆ ps) :
    (s.fuseCourse it course speed).mask ps = s.mask ps := by
  simp at h
  simp [State.fuseCourse, h]

@[simp] theorem State.fuseTrailed_mask (s : State) (it : IT) (course : Nat) (speed : Int) (h : [.rov, .freeCtr] ⊆ ps) :
    (s.fuseTrailed it course speed).mask ps = s.mask ps := by
  simp at h
  simp [State.fuseTrailed, h]

@[simp] theorem State.takeCog_mask (s : State) (src : Nat) (it : IT) (course : Nat) (speed : Int) (h : [.rov, .freeCtr] ⊆ ps) :
    (s.takeCog src it course speed).mask ps = s.mask ps := by
  simp at h
  simp [State.takeCog, h]

@[simp] theorem State.takeHeading_mask (s : State) (src : Nat) (it : IT) (angle : Nat) (h : [.rov, .freeCtr] ⊆ ps) :
    (s.takeHeading src it angle).mask ps = s.mask ps := by
  simp at h
  simp [State.takeHeading, h]

@[simp] theorem State.takeSpeed_mask (s : State) (it : IT) (v y : Int) (noise : Nat) (h : [.rov, .freeCtr] ⊆ ps) :
    (s.takeSpeed it v y noise).mask ps = s.mask ps := by
  simp at h
  simp [State.takeSpeed, h]

@[simp] theorem State.fuse_mask (s : State) (m : Meas) (h : [.rov, .freeCtr] ⊆ ps) :
    (s.fuse m).mask ps = s.mask ps := by
  unfold State.fuse
  simp at h
  (repeat' split) <;> simp [h]

@[simp] theorem State.fuseAll_mask (s : State) (h : [.rov, .freeCtr] ⊆ ps) :
    s.fuseAll.mask ps = s.mask ps := by
  simp at h
  simp [State.fuseAll, h]

@[simp] theorem State.plausibleBy_mask (s : State) (fails : List Bool) (h : [.rov, .sup] ⊆ ps) :
    (s.plausibleBy fails).mask ps = s.mask ps := by
  simp at h
  simp [State.plausibleBy, h]

@[simp] theorem State.plausible_mask (s : State) (h : [.rov, .sup] ⊆ ps) :
    s.plausible.mask ps = s.mask ps := by
  simp at h
  simp [State.plausible, h]

@[simp] theorem State.rovPropagate_mask (s : State) (h : [.rov, .freeCtr] ⊆ ps) :
    s.rovPropagate.mask ps = s.mask ps := by
  simp at h
  simp [State.rovPropagate, h]

@[simp] theorem State.biasGrow_mask (s : State) (h : [.rov] ⊆ ps) :
    s.biasGrow.mask ps = s.mask ps := by
  simp at h
  simp [State.biasGrow, h]

@[simp] theorem State.rovTilt_mask (s : State) (h : [.rov, .freeCtr] ⊆ ps) :
    s.rovTilt.mask ps = s.mask ps := by
  simp at h
  simp [State.rovTilt, h]

@[simp] theorem State.rovFold_mask (s : State) (h : [.rov] ⊆ ps) :
    s.rovFold.mask ps = s.mask ps := by
  simp at h
  simp [State.rovFold, h]

@[simp] theorem State.rovPublish_mask (s : State) (still : Bool) (h : [.rov] ⊆ ps) :
    (s.rovPublish still).mask ps = s.mask ps := by
  simp at h
  simp [State.rovPublish, h]

@[simp] theorem State.rovBelt_mask (s : State) (h : [.rov, .sup] ⊆ ps) :
    s.rovBelt.mask ps = s.mask ps := by
  simp at h
  simp [State.rovBelt, h]

@[simp] theorem State.rovFilter_mask (s : State) (h : [.rov, .freeCtr] ⊆ ps) :
    s.rovFilter.mask ps = s.mask ps := by
  simp at h
  simp [State.rovFilter, h]

@[simp] theorem State.rovFrame_mask (s : State) (h : [.rov, .sup, .freeCtr] ⊆ ps) :
    s.rovFrame.mask ps = s.mask ps := by
  simp at h
  simp [State.rovFrame, h]

@[simp] theorem State.rovStart_mask (s : State) (h : [.rov] ⊆ ps) :
    s.rovStart.mask ps = s.mask ps := by
  simp at h
  simp [State.rovStart, h]

@[simp] theorem State.rovStop_mask (s : State) (h : [.rov] ⊆ ps) :
    s.rovStop.mask ps = s.mask ps := by
  simp at h
  simp [State.rovStop, h]

/-! ### Machine/Distaff.lean -/

@[simp] theorem State.modDis_mask (s : State) (f : Distaff → Distaff) (h : [.dis] ⊆ ps) :
    (s.modDis f).mask ps = s.mask ps := by
  simp at h
  simp [State.modDis, h]

@[simp] theorem State.modHank_mask (s : State) (k : Nat) (f : Hank → Hank) (h : [.dis] ⊆ ps) :
    (s.modHank k f).mask ps = s.mask ps := by
  simp at h
  simp [State.modHank, h]

@[simp] theorem State.modFrame_mask (s : State) (t : Nat) (f : Frame → Frame) (h : [.dis] ⊆ ps) :
    (s.modFrame t f).mask ps = s.mask ps := by
  simp at h
  simp [State.modFrame, h]

@[simp] theorem State.modTile_mask (s : State) (col row : Int) (f : CTile → CTile) (h : [.dis] ⊆ ps) :
    (s.modTile col row f).mask ps = s.mask ps := by
  simp at h
  simp [State.modTile, h]

@[simp] theorem State.poolNote_mask (s : State) (h : [.dis] ⊆ ps) :
    s.poolNote.mask ps = s.mask ps := by
  simp at h
  simp [State.poolNote, h]

@[simp] theorem State.poolCheck_mask (s : State) (h : [.dis, .skein] ⊆ ps) :
    s.poolCheck.mask ps = s.mask ps := by
  simp at h
  simp [State.poolCheck, h]

@[simp] theorem State.storeTile_mask (s : State) (slot : Nat) (col row : Int) (cells : Bytes) (f : Frame → Frame)
    (h : [.dis, .mram, .freeCtr] ⊆ ps) :
    (s.storeTile slot col row cells f).mask ps = s.mask ps := by
  simp at h
  unfold State.storeTile
  split
  · rw [State.modFrame_mask _ _ _ (by simp [h]), mask_set_mram _ _ (by simp [h])]
  · rw [State.modDis_mask _ _ (by simp [h]), mask_set_mram _ _ (by simp [h]), State.draw_mask _ (by simp [h])]

@[simp] theorem State.prefetch_mask (s : State) (wanted : List (Int × Int)) (h : [.dis] ⊆ ps) :
    (s.prefetch wanted).mask ps = s.mask ps := by
  unfold State.prefetch
  simp at h
  dsimp only
  (repeat' split) <;> simp [h]

theorem State.makeRoom_mask (s t : State) (mm : Nat) (h : [.dis] ⊆ ps) (ht : s.makeRoom mm = some t) :
    t.mask ps = s.mask ps := by
  simp at h
  unfold State.makeRoom at ht
  dsimp only at ht
  (repeat' split at ht) <;> cases ht <;> simp [h]

@[simp] theorem State.tileBad_mask (s : State) (f : Frame) (h : [.dis, .skein] ⊆ ps) :
    (s.tileBad f).mask ps = s.mask ps := by
  simp at h
  simp [State.tileBad, h]

@[simp] theorem State.putTile_mask (s : State) (k : Nat) (col row : Int) (corrected : Nat) (crcOk : Bool)
    (h : [.dis, .skein] ⊆ ps) :
    (s.putTile k col row corrected crcOk).mask ps = s.mask ps := by
  unfold State.putTile
  simp at h
  dsimp only
  (repeat' split) <;> simp [h]

@[simp] theorem State.fillDone_mask (s : State) (x : FillIn) (h : [.dis, .skein] ⊆ ps) :
    (s.fillDone x).mask ps = s.mask ps := by
  have hm := h
  simp at h
  unfold State.fillDone
  split
  · rfl
  split
  · rfl
  split
  · rfl
  next u hu =>
    rw [State.putTile_mask _ _ _ _ _ _ hm]
    exact State.makeRoom_mask _ _ _ (by simp [h]) hu

@[simp] theorem State.writeBack_mask (s : State) (k : Nat) (c : CTile) (h : [.dis, .skein, .mram, .freeCtr] ⊆ ps) :
    (s.writeBack k c).mask ps = s.mask ps := by
  simp at h
  simp [State.writeBack, h]

@[simp] theorem State.layerToPool_mask (s : State) (l : LayerRec) (h : [.dis, .skein, .mram, .freeCtr] ⊆ ps) :
    (s.layerToPool l).mask ps = s.mask ps := by
  simp at h
  simp [State.layerToPool, h]

@[simp] theorem State.layerToCache_mask (s : State) (l : LayerRec) (h : [.dis, .skein, .mram, .freeCtr] ⊆ ps) :
    (s.layerToCache l).mask ps = s.mask ps := by
  unfold State.layerToCache
  simp at h
  dsimp only
  (repeat' split) <;> simp [h]

@[simp] theorem State.applyLayers_mask (s : State) (h : [.dis, .skein, .mram, .freeCtr] ⊆ ps) :
    s.applyLayers.mask ps = s.mask ps := by
  simp at h
  simp [State.applyLayers, h]

@[simp] theorem State.hankCreate_mask (s : State) (slot : Nat) (b : Bytes) (o : Origin) (h : [.dis] ⊆ ps) :
    (s.hankCreate slot b o).mask ps = s.mask ps := by
  simp at h
  simp [State.hankCreate, h]

@[simp] theorem State.closeBegin_mask (s : State) (slot : Nat) (keep : Bool) (h : [.dis] ⊆ ps) :
    (s.closeBegin slot keep).mask ps = s.mask ps := by
  simp at h
  simp [State.closeBegin, h]

@[simp] theorem State.closeAll_mask (s : State) (keep : Bool) (h : [.dis] ⊆ ps) :
    (s.closeAll keep).mask ps = s.mask ps := by
  unfold State.closeAll
  simp at h
  (repeat' split) <;> simp [h]

@[simp] theorem State.markResume_mask (s : State) (h : [.dis] ⊆ ps) :
    s.markResume.mask ps = s.mask ps := by
  unfold State.markResume
  simp at h
  (repeat' split) <;> simp [h]

@[simp] theorem State.hankBoundary_mask (s : State) (h : [.dis, .skein] ⊆ ps) :
    s.hankBoundary.mask ps = s.mask ps := by
  unfold State.hankBoundary
  simp at h
  dsimp only
  (repeat' split) <;> simp [h]

@[simp] theorem State.deleteFrame_mask (s : State) (h : [.dis, .freeCtr] ⊆ ps) :
    s.deleteFrame.mask ps = s.mask ps := by
  simp at h
  simp [State.deleteFrame, h]

/-! ### Machine/Marking.lean -/

theorem State.settleCell_mask (s t : State) (k : Nat) (a : Acc) (h : [.dis, .skein] ⊆ ps) (ht : s.settleCell k a = some t) :
    t.mask ps = s.mask ps := by
  simp at h
  unfold State.settleCell at ht
  dsimp only at ht
  (repeat' split at ht) <;> cases ht <;> simp [h]

@[simp] theorem State.settleOldest_mask (s : State) (k : Nat) (h : [.dis, .skein] ⊆ ps) :
    (s.settleOldest k).mask ps = s.mask ps := by
  unfold State.settleOldest
  split
  · rfl
  next a as ha =>
    cases hc : (s.modDis (fun d => { d with acc := as, overflow := sat32 (d.overflow + 1) })).settleCell k a with
    | none => simp_all
    | some t =>
      have := State.settleCell_mask _ _ _ _ h hc
      simp_all

@[simp] theorem State.accOr_mask (s : State) (k : Nat) (x y : Int) (bs : BitVec 16) (t : IT) (h : [.dis, .skein] ⊆ ps) :
    (s.accOr k x y bs t).mask ps = s.mask ps := by
  simp at h
  simp [State.accOr, h]

@[simp] theorem State.sweepAt_mask (s : State) (f : Foot) (t : IT) (h : [.dis, .skein] ⊆ ps) :
    (s.sweepAt f t).mask ps = s.mask ps := by
  unfold State.sweepAt
  simp at h
  dsimp only
  (repeat' split) <;> simp [h]

@[simp] theorem State.unmarkedSpray_mask (s : State) (n : Nat) (a c : IT) (h : [.dis] ⊆ ps) :
    (s.unmarkedSpray n a c).mask ps = s.mask ps := by
  simp at h
  simp [State.unmarkedSpray, h]

@[simp] theorem State.markWindow_mask (s : State) (n : Nat) (f : Foot) (a c : IT) (ta tc : Bool) (h : [.dis, .skein] ⊆ ps) :
    (s.markWindow n f a c ta tc).mask ps = s.mask ps := by
  simp at h
  simp [State.markWindow, h]

@[simp] theorem State.countUnobserved_mask (s : State) (f : Foot) (t : IT) (h : [.dis] ⊆ ps) :
    (s.countUnobserved f t).mask ps = s.mask ps := by
  unfold State.countUnobserved
  simp at h
  dsimp only
  (repeat' split) <;> simp [h]

@[simp] theorem State.foldNote_mask (s : State) (z : NozzleEntry) (q : IT) (h : [.dis] ⊆ ps) :
    (s.foldNote z q).mask ps = s.mask ps := by
  simp at h
  simp [State.foldNote, h]

@[simp] theorem State.markSpray_mask (s : State) (b : IT) (n : Nat) (z : NozzleEntry) (own : Bool) (known : IT) (x : Spray)
    (h : [.dis, .skein] ⊆ ps) :
    (s.markSpray b n z own known x).mask ps = s.mask ps := by
  simp at h
  unfold State.markSpray
  extract_lets e e1 a f ta tc s1 known1 s2
  have h1 : s1.mask ps = s.mask ps := by
    unfold s1
    split <;> simp [h]
  have h2 : s2.mask ps = s1.mask ps := by
    unfold s2
    split
    · split <;> simp [h]
    · rfl
  split
  · split <;> simp [h, h1, h2]
  · exact h2.trans h1

@[simp] theorem State.foldRecords_mask (s : State) (h : [.dis, .skein] ⊆ ps) :
    s.foldRecords.mask ps = s.mask ps := by
  simp at h
  simp [State.foldRecords, h]

@[simp] theorem State.unmarkedCount_mask (s : State) (h : [.dis, .skein] ⊆ ps) :
    s.unmarkedCount.mask ps = s.mask ps := by
  unfold State.unmarkedCount
  simp at h
  dsimp only
  (repeat' split) <;> simp [h]

@[simp] theorem State.settleAcc_mask (s : State) (b : IT) (h : [.dis, .skein] ⊆ ps) :
    (s.settleAcc b).1.mask ps = s.mask ps := by
  unfold State.settleAcc
  split
  · rfl
  split
  · rfl
  refine foldl_fst_mask _ _ _ fun q a => ?_
  dsimp only
  split
  · simp_all
  split
  · rfl
  split
  · rfl
  next t ht => simpa using (State.modDis_mask t _ (by simp_all)).trans (State.settleCell_mask _ _ _ _ h ht)

@[simp] theorem State.markFrame_mask (s : State) (b : IT) (h : [.dis, .skein] ⊆ ps) :
    (s.markFrame b).1.mask ps = s.mask ps := by
  have hw := h
  simp at h
  unfold State.markFrame
  extract_lets tab known horizon s1 s2 s3 r
  have h1 : s1.mask ps = s.mask ps := by
    refine foldl_mask _ _ _ fun u n => ?_
    split
    · rfl
    split
    · rfl
    split
    · rfl
    · simp [h]
  have h3 : s3.mask ps = s.mask ps := by simp [s3, s2, h, h1]
  have hr : r.1.mask ps = s3.mask ps := State.settleAcc_mask _ _ hw
  split
  · exact h3
  · simp [h, hr, h3]

@[simp] theorem State.giveUp_mask (s : State) (k : Nat) (h : [.dis, .skein, .mram, .freeCtr] ⊆ ps) :
    (s.giveUp k).mask ps = s.mask ps := by
  unfold State.giveUp
  simp at h
  dsimp only
  (repeat' split) <;> simp [h]

@[simp] theorem State.settleNow_mask (s : State) (k : Nat) (a : Acc) (h : [.dis, .skein, .mram, .freeCtr] ⊆ ps) :
    (s.settleNow k a).mask ps = s.mask ps := by
  have hd := h
  simp at h
  unfold State.settleNow
  split
  next u hu => exact State.settleCell_mask _ _ _ _ (by simp [h]) hu
  extract_lets s1
  have h1 : s1.mask ps = s.mask ps := by
    unfold s1
    split <;> simp [h]
  cases hc : s1.settleCell k a with
  | none => exact h1
  | some u => exact (State.settleCell_mask _ _ _ _ (by simp [h]) hc).trans h1

@[simp] theorem State.disBoot_mask (s : State) (badHdr : Vector Bool 16) (h : [.dis, .skein] ⊆ ps) :
    (s.disBoot badHdr).mask ps = s.mask ps := by
  simp at h
  simp [State.disBoot, h]

/-! ### Machine/Spindle.lean -/

@[simp] theorem State.modSpd_mask (s : State) (f : Spindle → Spindle) (h : [.spd] ⊆ ps) :
    (s.modSpd f).mask ps = s.mask ps := by
  simp at h
  simp [State.modSpd, h]

@[simp] theorem State.modOut_mask (s : State) (o : Nat) (f : Output → Output) (h : [.spd] ⊆ ps) :
    (s.modOut o f).mask ps = s.mask ps := by
  simp at h
  simp [State.modOut, h]

@[simp] theorem State.spdCount_mask (s : State) (i k : Nat) (h : [.spd] ⊆ ps) :
    (s.spdCount i k).mask ps = s.mask ps := by
  simp at h
  simp [State.spdCount, h]

@[simp] theorem State.setDelays_mask (s : State) (o : Nat) (h : [.spd, .skein] ⊆ ps) :
    (s.setDelays o).mask ps = s.mask ps := by
  simp at h
  simp [State.setDelays, h]

@[simp] theorem State.planEdge_mask (s : State) (o : Nat) (up : Bool) (te : IT) (h : [.spd] ⊆ ps) :
    (s.planEdge o up te).mask ps = s.mask ps := by
  simp at h
  simp [State.planEdge, h]

@[simp] theorem State.answered_mask (s : State) (o : Nat) (r : WalkFound) (h : [.spd] ⊆ ps) :
    (s.answered o r).mask ps = s.mask ps := by
  unfold State.answered
  simp at h
  dsimp only
  (repeat' split) <;> simp [h]

@[simp] theorem State.heldOutput_mask (s : State) (b : IT) (o : Nat) (u : Walked) (h : [.spd, .skein] ⊆ ps) :
    (s.heldOutput b o u).1.mask ps = s.mask ps := by
  unfold State.heldOutput
  simp at h
  dsimp only
  (repeat' split) <;> simp [h]

@[simp] theorem State.evaluate_mask (s : State) (b : IT) (o : Nat) (u : Walked) (h : [.spd, .skein] ⊆ ps) :
    (s.evaluate b o u).1.mask ps = s.mask ps := by
  have hm := h
  simp at h
  unfold State.evaluate
  extract_lets x
  generalize (if x.on = true then x.offDelay else x.onDelay) = d
  split
  · exact State.modOut_mask (ps := ps) s _ _ (by simp [h])
  split
  · exact State.heldOutput_mask _ _ _ _ hm
  · simp [h]

@[simp] theorem State.closeNow_mask (s : State) (b : IT) (o : Nat) (h : [.spd] ⊆ ps) :
    (s.closeNow b o).mask ps = s.mask ps := by
  simp at h
  simp [State.closeNow, h]

@[simp] theorem State.spdEnterState_mask (s : State) (b : IT) (h : [.spd, .skein] ⊆ ps) :
    (s.spdEnterState b).mask ps = s.mask ps := by
  simp at h
  simp [State.spdEnterState, h]

@[simp] theorem State.sectionEdge_mask (s : State) (b : IT) (o : Nat) (on : Bool) (rx : IT) (h : [.spd] ⊆ ps) :
    (s.sectionEdge b o on rx).mask ps = s.mask ps := by
  simp at h
  simp [State.sectionEdge, h]

@[simp] theorem State.sectionStates_mask (s : State) (b : IT) (h : [.spd] ⊆ ps) :
    (s.sectionStates b).mask ps = s.mask ps := by
  simp at h
  unfold State.sectionStates
  dsimp only
  rw [foldl_mask _ _ _ fun s c => ?_, State.modSpd_mask _ _ (by simp [h])]
  refine foldl_mask _ _ _ fun s o => ?_
  split
  · simp [h]
  · rfl

@[simp] theorem State.unqueried_mask (s : State) (o : Nat) (h : [.spd] ⊆ ps) :
    (s.unqueried o).mask ps = s.mask ps := by
  simp at h
  simp [State.unqueried, h]

@[simp] theorem State.externalOutput_mask (s : State) (b : IT) (o : Nat) (h : [.spd] ⊆ ps) :
    (s.externalOutput b o).mask ps = s.mask ps := by
  unfold State.externalOutput
  simp at h
  (repeat' split) <;> simp [h]

@[simp] theorem State.spdOutput_mask (s : State) (b : IT) (o : Nat) (u : Walked) (h : [.spd, .skein] ⊆ ps) :
    (s.spdOutput b o u).1.mask ps = s.mask ps := by
  unfold State.spdOutput
  simp at h
  dsimp only
  (repeat' split) <;> simp [h]

@[simp] theorem State.spdStands_mask (s : State) (h : [.spd] ⊆ ps) :
    s.spdStands.mask ps = s.mask ps := by
  simp at h
  simp [State.spdStands, h]

@[simp] theorem State.noHankNote_mask (s : State) (h : [.spd, .skein] ⊆ ps) :
    s.noHankNote.mask ps = s.mask ps := by
  simp at h
  simp [State.noHankNote, h]

@[simp] theorem State.poolExhausted_mask (s : State) (h : [.spd, .skein] ⊆ ps) :
    s.poolExhausted.mask ps = s.mask ps := by
  unfold State.poolExhausted
  simp at h
  dsimp only
  (repeat' split) <;> simp [h]

@[simp] theorem State.walkNote_mask (s : State) (fills : List FillIn) (u : Walked) (h : [.dis] ⊆ ps) :
    (s.walkNote fills u).mask ps = s.mask ps := by
  simp at h
  simp [State.walkNote, h]

@[simp] theorem State.takeDieClosing_mask (s : State) (n : Nat) (h : [.spd, .rate, .chan, .banks] ⊆ ps) :
    (s.takeDieClosing n).mask ps = s.mask ps := by
  simp at h
  unfold State.takeDieClosing
  split
  · rfl
  extract_lets keep stays s1 s2 s3
  have h3 : s3.mask ps = s.mask ps := by simp [s3, s2, s1, h]
  rw [← h3]
  simp [State.mask, h]

@[simp] theorem State.takeValveShed_mask (s : State) (h_ : Nat) (h : [.spd, .bridges] ⊆ ps) :
    (s.takeValveShed h_).mask ps = s.mask ps := by
  unfold State.takeValveShed
  simp at h
  dsimp only
  (repeat' split) <;> simp [h]

@[simp] theorem State.spdEvaluate_mask (s : State) (b : IT) (fills : List FillIn)
    (h : [.spd, .dis, .rate, .chan, .banks, .bridges, .skein] ⊆ ps) :
    (s.spdEvaluate b fills).mask ps = s.mask ps := by
  simp at h
  simp [State.spdEvaluate, h]

@[simp] theorem State.workStates_mask (s : State) (b : IT) (h : [.spd] ⊆ ps) :
    (s.workStates b).mask ps = s.mask ps := by
  simp at h
  simp [State.workStates, h]

@[simp] theorem State.dropEdges_mask (s : State) (h : [.chan, .banks, .bridges] ⊆ ps) :
    s.dropEdges.mask ps = s.mask ps := by
  simp at h
  simp [State.mask, State.dropEdges, h]

@[simp] theorem State.spdRun_mask (s : State) (h : [.spd] ⊆ ps) :
    s.spdRun.mask ps = s.mask ps := by
  simp at h
  simp [State.spdRun, h]

@[simp] theorem State.spdIdle_mask (s : State) (h : [.spd] ⊆ ps) :
    s.spdIdle.mask ps = s.mask ps := by
  simp at h
  simp [State.spdIdle, h]

@[simp] theorem State.spdStop_mask (s : State) (h : [.spd] ⊆ ps) :
    s.spdStop.mask ps = s.mask ps := by
  simp at h
  simp [State.spdStop, h]

/-! ### Machine/Rate.lean -/

@[simp] theorem State.modRate_mask (s : State) (f : RateDose → RateDose) (h : [.rate] ⊆ ps) :
    (s.modRate f).mask ps = s.mask ps := by
  simp at h
  simp [State.modRate, h]

@[simp] theorem State.modRz_mask (s : State) (n : Nat) (f : RateNz → RateNz) (h : [.rate] ⊆ ps) :
    (s.modRz n f).mask ps = s.mask ps := by
  simp at h
  simp [State.modRz, h]

@[simp] theorem State.rateCount_mask (s : State) (i : Nat) (h : [.rate] ⊆ ps) :
    (s.rateCount i).mask ps = s.mask ps := by
  simp at h
  simp [State.rateCount, h]

@[simp] theorem State.notePeriod_mask (s : State) (n : Nat) (o : Period) (h : [.rate, .skein] ⊆ ps) :
    (s.notePeriod n o).mask ps = s.mask ps := by
  simp at h
  simp [State.notePeriod, h]

@[simp] theorem State.notePulse_mask (s : State) (p : PulsePlan) (h : [.rate] ⊆ ps) :
    (s.notePulse p).mask ps = s.mask ps := by
  simp at h
  simp [State.notePulse, h]

@[simp] theorem State.emptyPeriod_mask (s : State) (n : Nat) (ends : IT) (wanted : Nat) (h : [.rate] ⊆ ps) :
    (s.emptyPeriod n ends wanted).mask ps = s.mask ps := by
  simp at h
  simp [State.emptyPeriod, h]

@[simp] theorem State.rangeNote_mask (s : State) (n : Nat) (h : [.rate] ⊆ ps) :
    (s.rangeNote n).mask ps = s.mask ps := by
  simp at h
  simp [State.rangeNote, h]

@[simp] theorem State.restNote_mask (s : State) (n : Nat) (h : [.rate] ⊆ ps) :
    (s.restNote n).mask ps = s.mask ps := by
  simp at h
  simp [State.restNote, h]

@[simp] theorem State.latticePulses_mask (s : State) (n : Nat) (need : Need) (limit : Option IT) (last : IT) (k : Nat) (q : State × List PulsePlan)
    (h : [.rate, .skein] ⊆ ps) :
    (s.latticePulses n need limit last k q).1.mask ps = q.1.mask ps := by
  simp at h
  induction k generalizing q with
  | zero => rfl
  | succ k ih =>
    unfold State.latticePulses
    dsimp only
    (repeat' split) <;> simp [h, ih]

@[simp] theorem State.relattice_mask (s : State) (b : IT) (n : Nat) (h : [.rate] ⊆ ps) :
    (s.relattice b n).mask ps = s.mask ps := by
  simp at h
  simp [State.relattice, h]

@[simp] theorem State.firstPulse_mask (s : State) (n : Nat) (need : Need) (t ref : IT) (h : [.rate, .skein] ⊆ ps) :
    (s.firstPulse n need t ref).1.mask ps = s.mask ps := by
  unfold State.firstPulse
  simp at h
  dsimp only
  (repeat' split) <;> simp [h]

@[simp] theorem State.nozzlePulses_mask (s : State) (b : IT) (n : Nat) (need : Need) (h : [.rate, .skein] ⊆ ps) :
    (s.nozzlePulses b n need).1.mask ps = s.mask ps := by
  unfold State.nozzlePulses
  simp at h
  dsimp only
  (repeat' split) <;> simp [h]

@[simp] theorem State.headroom_mask (s : State) (b : IT) (needs : List (Nat × Need)) (h : [.rate, .whorl] ⊆ ps) :
    (s.headroom b needs).mask ps = s.mask ps := by
  simp at h
  simp [State.headroom, h]

@[simp] theorem State.postRef1_mask (s : State) (w : Nat) (v : F32) (h : [.whorl] ⊆ ps) :
    (s.postRef1 w v).mask ps = s.mask ps := by
  simp at h
  simp [State.postRef1, h]

@[simp] theorem State.achieved_mask (s : State) (b : IT) (n : Nat) (h : [.rate] ⊆ ps) :
    (s.achieved b n).mask ps = s.mask ps := by
  simp at h
  unfold State.achieved
  refine foldl_mask _ _ _ fun s p => ?_
  obtain ⟨t, per, want⟩ := p
  have hd : ∀ g, ((s.modRz n (fun z => { z with planned := z.planned.erase (t, per, want) })).modRz n g).mask ps =
      s.mask ps := fun g => by simp [h]
  dsimp only
  split
  · split
    · rfl
    split
    · rfl
    · exact hd _
  · split
    · rfl
    · exact hd _

@[simp] theorem State.rateError_mask (s : State) (b : IT) (n : Nat) (h : [.rate] ⊆ ps) :
    (s.rateError b n).mask ps = s.mask ps := by
  simp at h
  simp [State.rateError, h]

@[simp] theorem State.addDose_mask (s : State) (b : IT) (needs : List (Nat × Need)) (h : [.rate] ⊆ ps) :
    (s.addDose b needs).mask ps = s.mask ps := by
  simp at h
  unfold State.addDose
  refine foldl_mask _ _ _ fun s p => ?_
  split
  · rfl
  · simp [h]

@[simp] theorem State.flowCheck_mask (s : State) (b : IT) (h : [.rate, .skein, .freeCtr] ⊆ ps) :
    (s.flowCheck b).mask ps = s.mask ps := by
  simp at h
  unfold State.flowCheck
  extract_lets i cnt dt meas vol was pred
  split
  · simp [h]
  split
  · rfl
  split
  next u dev hu =>
    have hd : u.mask ps = s.mask ps := by
      split at hu <;> cases hu <;> simp [h]
    simp [h, hd]

@[simp] theorem State.rateModeOut_mask (s : State) (needs : List (Nat × Need)) (total : Int) (h : [.rate, .whorl] ⊆ ps) :
    (s.rateModeOut needs total).mask ps = s.mask ps := by
  simp at h
  unfold State.rateModeOut
  dsimp only
  split
  · split <;> simp [h]
  · refine foldl_mask _ _ _ fun s g => ?_
    split <;> simp [h]
  · split <;> simp [h]
  · rfl

@[simp] theorem State.rateCompute_mask (s : State) (b : IT) (h : [.rate, .whorl, .skein, .freeCtr] ⊆ ps) :
    (s.rateCompute b).1.mask ps = s.mask ps := by
  simp at h
  unfold State.rateCompute
  extract_lets stale s1
  split
  extract_lets s2 total onN share needs s3 s4 s5 s6 s7
  have h3 : s3.mask ps = s.mask ps := by simp [s3, s2, s1, h]
  have h5 : s5.mask ps = s3.mask ps := by simp [s5, s4, h]
  have h7 : s7.mask ps = s5.mask ps := by simp [s7, s6, h]
  split
  next u l hu =>
    have hr : u.mask ps = s7.mask ps := by
      have := congrArg (fun p => State.mask ps p.1) hu
      exact this.symm.trans (foldl_fst_mask _ _ _ fun a q => by simp [h])
    simp [h, hr, h7, h5, h3]

@[simp] theorem State.rateIdle_mask (s : State) (h : [.rate] ⊆ ps) :
    s.rateIdle.mask ps = s.mask ps := by
  simp at h
  simp [State.rateIdle, h]

@[simp] theorem State.rateRun_mask (s : State) (h : [.rate] ⊆ ps) :
    s.rateRun.mask ps = s.mask ps := by
  simp at h
  simp [State.rateRun, h]

/-! ### Machine/Placement.lean -/

@[simp] theorem State.addEdge_mask (s : State) (n : Nat) (e : DieEdge) (h : [.chan] ⊆ ps) :
    (s.addEdge n e).mask ps = s.mask ps := by
  simp at h
  simp [State.addEdge, h]

@[simp] theorem State.takeBack_mask (s : State) (h : [.chan, .bridges] ⊆ ps) :
    s.takeBack.mask ps = s.mask ps := by
  simp at h
  unfold State.takeBack
  refine foldl_mask _ _ _ fun s o => ?_
  split
  · rfl
  (repeat' split) <;> simp [h]

@[simp] theorem State.handPending_mask (s : State) (h : [.chan, .bridges] ⊆ ps) :
    s.handPending.mask ps = s.mask ps := by
  simp at h
  unfold State.handPending
  refine foldl_mask _ _ _ fun s o => ?_
  split
  · rfl
  (repeat' split) <;> simp [h]

@[simp] theorem State.fixEdge_mask (s : State) (o : Nat) (h : [.spd] ⊆ ps) :
    (s.fixEdge o).mask ps = s.mask ps := by
  simp at h
  simp [State.fixEdge, h]

@[simp] theorem State.fixClose_mask (s : State) (b : IT) (n : Nat) (t : IT) (h : [.spd, .rate, .chan, .banks] ⊆ ps) :
    (s.fixClose b n t).mask ps = s.mask ps := by
  simp at h
  simp [State.fixClose, h]

@[simp] theorem State.replan_mask (s : State) (b : IT) (p : PulsePlan) (deferral : Nat) (h : [.spd, .skein] ⊆ ps) :
    (s.replan b p deferral).mask ps = s.mask ps := by
  simp at h
  simp [State.replan, h]

@[simp] theorem State.lostPeriod_mask (s : State) (p : PulsePlan) (h : [.rate] ⊆ ps) :
    (s.lostPeriod p).mask ps = s.mask ps := by
  simp at h
  simp [State.lostPeriod, h]

@[simp] theorem State.dropPull_mask (s : State) (b : IT) (p : PulsePlan) (deferral : Nat) (h : [.spd, .rate, .skein] ⊆ ps) :
    (s.dropPull b p deferral).mask ps = s.mask ps := by
  simp at h
  simp [State.dropPull, h]

@[simp] theorem State.shedPull_mask (s : State) (p : PulsePlan) (h : [.spd, .rate, .skein] ⊆ ps) :
    (s.shedPull p).mask ps = s.mask ps := by
  simp at h
  simp [State.shedPull, h]

@[simp] theorem State.keepPull_mask (s : State) (p : PulsePlan) (start ref : IT) (h : [.spd] ⊆ ps) :
    (s.keepPull p start ref).mask ps = s.mask ps := by
  simp at h
  simp [State.keepPull, h]

@[simp] theorem State.startLattice_mask (s : State) (n : Nat) (t : IT) (dry : Bool) (h : [.rate] ⊆ ps) :
    (s.startLattice n t dry).mask ps = s.mask ps := by
  simp at h
  simp [State.startLattice, h]

@[simp] theorem State.fixPull_mask (s : State) (p : PulsePlan) (f : Fit) (start : IT) (pct flags : Nat)
    (h : [.spd, .rate, .chan, .banks] ⊆ ps) :
    (s.fixPull p f start pct flags).mask ps = s.mask ps := by
  unfold State.fixPull
  simp at h
  dsimp only
  (repeat' split) <;> simp [h]

@[simp] theorem State.submit_mask (s : State) (b : IT) (p : PulsePlan) (f : Fit) (ref : IT) (k : Nat) (t : IT) (m : Nat)
    (h : [.spd, .rate, .chan, .banks, .loads, .budget, .skein] ⊆ ps) :
    (s.submit b p f ref k t m).mask ps = s.mask ps := by
  simp at h
  induction k generalizing s t m with
  | zero => simp [State.submit, h]
  | succ k ih =>
    have hr := State.requestPull_mask (ps := ps) s p.ch t (by simp [h])
    rw [State.submit]
    rcases hv : s.requestPull p.ch t with ⟨u, v⟩
    rw [hv] at hr
    cases v <;> simp [h, ih, hr]

@[simp] theorem State.clampForced_mask (s : State) (n : Nat) (start : IT) (l : List SlotRes) (h : [.spd, .skein] ⊆ ps) :
    (s.clampForced n start l).mask ps = s.mask ps := by
  simp at h
  simp [State.clampForced, h]

@[simp] theorem State.openDry_mask (s : State) (p : PulsePlan) (h : [.spd, .rate] ⊆ ps) :
    (s.openDry p).mask ps = s.mask ps := by
  simp at h
  simp [State.openDry, h]

@[simp] theorem State.place_mask (s : State) (b : IT) (p : PulsePlan) (extra : List (Nat × IT))
    (h : [.spd, .rate, .chan, .banks, .loads, .budget, .skein] ⊆ ps) :
    (s.place b p extra).mask ps = s.mask ps := by
  unfold State.place
  simp at h
  dsimp only
  (repeat' split) <;> simp [h]

@[simp] theorem State.placeAll_mask (b : IT) (l : List PulsePlan) (s : State)
    (h : [.spd, .rate, .chan, .banks, .loads, .budget, .skein] ⊆ ps) :
    (State.placeAll b l s).mask ps = s.mask ps := by
  induction l generalizing s with
  | nil => rfl
  | cons p l ih =>
    rw [State.placeAll, ih]
    simp at h
    simp [h]

@[simp] theorem State.fixPlain_mask (s : State) (b : IT) (h : [.spd, .rate, .chan, .banks, .bridges] ⊆ ps) :
    (s.fixPlain b).mask ps = s.mask ps := by
  simp at h
  unfold State.fixPlain
  refine foldl_mask _ _ _ fun s o => ?_
  split
  · rfl
  (repeat' split) <;> simp [h]

@[simp] theorem State.keepUndo_mask (s : State) (h : [.undo] ⊆ ps) :
    s.keepUndo.mask ps = s.mask ps := by
  simp at h
  simp [State.keepUndo, h]

@[simp] theorem State.spdPlans_mask (s : State) (b : IT) (fills : List FillIn)
    (h : [.spd, .dis, .rate, .chan, .banks, .whorl, .bridges, .skein, .sup, .undo, .freeCtr] ⊆ ps) :
    (s.spdPlans b fills).1.mask ps = s.mask ps := by
  simp at h
  simp [State.spdPlans, h]

@[simp] theorem State.ageSlots_mask (s : State) (b : IT) (h : [.banks] ⊆ ps) :
    (s.ageSlots b).mask ps = s.mask ps := by
  simp at h
  simp [State.ageSlots, h]

@[simp] theorem State.spdFrame_mask (s : State) (b : IT) (fills : List FillIn)
    (h : [.spd, .dis, .rate, .chan, .banks, .whorl, .bridges, .loads, .budget, .skein, .sup, .undo, .freeCtr] ⊆ ps) :
    (s.spdFrame b fills).mask ps = s.mask ps := by
  simp at h
  simp [State.spdFrame, h]

/-! ### Machine/Slices.lean -/

@[simp] theorem State.modCard_mask (s : State) (f : Carding → Carding) (h : [.card] ⊆ ps) :
    (s.modCard f).mask ps = s.mask ps := by
  simp at h
  simp [State.modCard, h]

@[simp] theorem State.sliceResult_mask (s : State) (k result repair sig : Nat) (h : [.card] ⊆ ps) :
    (s.sliceResult k result repair sig).mask ps = s.mask ps := by
  simp at h
  simp [State.sliceResult, h]

@[simp] theorem State.sliceIncomplete_mask (s : State) (k cause : Nat) (h : [.skein, .card, .freeCtr] ⊆ ps) :
    (s.sliceIncomplete k cause).mask ps = s.mask ps := by
  simp at h
  simp [State.sliceIncomplete, h]

@[simp] theorem State.startRun_mask (s : State) (todo : List (Nat × Nat)) (shutdown : Bool) (h : [.card] ⊆ ps) :
    (s.startRun todo shutdown).mask ps = s.mask ps := by
  simp at h
  simp [State.startRun, h]

@[simp] theorem State.endRun_mask (s : State) (r : CardRun) (h : [.skein, .card] ⊆ ps) :
    (s.endRun r).mask ps = s.mask ps := by
  simp at h
  simp [State.endRun, h]

@[simp] theorem State.abortRun_mask (s : State) (cause : Nat) (h : [.skein, .card, .freeCtr] ⊆ ps) :
    (s.abortRun cause).mask ps = s.mask ps := by
  unfold State.abortRun
  simp at h
  dsimp only
  (repeat' split) <;> simp [h]

@[simp] theorem State.abortDemand_mask (s : State) (h : [.skein, .card, .freeCtr] ⊆ ps) :
    s.abortDemand.mask ps = s.mask ps := by
  unfold State.abortDemand
  simp at h
  (repeat' split) <;> simp [h]

@[simp] theorem State.putRepairs_mask (s : State) (l : List Repair) (h : [.card] ⊆ ps) :
    (s.putRepairs l).mask ps = s.mask ps := by
  simp at h
  simp [State.putRepairs, h]

@[simp] theorem State.repairBoot_mask (s : State) (bad : Vector Bool 2) (h : [.card] ⊆ ps) :
    (s.repairBoot bad).mask ps = s.mask ps := by
  simp at h
  simp [State.repairBoot, h]

@[simp] theorem State.setLife_mask (s : State) (l : Nat) (h : [.skein, .card] ⊆ ps) :
    (s.setLife l).mask ps = s.mask ps := by
  simp at h
  simp [State.setLife, h]

/-! ### Machine/Skein.lean -/

@[simp] theorem State.modSkein_mask (s : State) (f : Skein → Skein) (h : [.skein] ⊆ ps) :
    (s.modSkein f).mask ps = s.mask ps := by
  simp at h
  simp [State.modSkein, h]

@[simp] theorem State.skeinCount_mask (s : State) (i k : Nat) (h : [.skein] ⊆ ps) :
    (s.skeinCount i k).mask ps = s.mask ps := by
  simp at h
  simp [State.skeinCount, h]

@[simp] theorem State.send_mask (s : State) (f : Sent) (h : [.nets] ⊆ ps) :
    (s.send f).mask ps = s.mask ps := by
  simp at h
  simp [State.send, h]

@[simp] theorem State.sendUnasked_mask (s : State) (nets : List Net) (service stream : Nat) (b : Bytes)
    (h : [.nets, .freeCtr] ⊆ ps) :
    (s.sendUnasked nets service stream b).mask ps = s.mask ps := by
  simp at h
  simp [State.sendUnasked, h]

@[simp] theorem State.sendAlarm_mask (s : State) (r : Rec) (cls count : Nat) (h : [.nets, .skein, .freeCtr] ⊆ ps) :
    (s.sendAlarm r cls count).mask ps = s.mask ps := by
  simp at h
  simp [State.sendAlarm, h]

@[simp] theorem State.alarm_mask (s : State) (r : Rec) (cls : Nat) (h : [.nets, .skein, .freeCtr] ⊆ ps) :
    (s.alarm r cls).mask ps = s.mask ps := by
  unfold State.alarm
  simp at h
  dsimp only
  (repeat' split) <;> simp [h]

@[simp] theorem State.windowEnd_mask (s : State) (w : AlarmWin) (t : IT) (h : [.nets, .skein, .freeCtr] ⊆ ps) :
    (s.windowEnd w t).mask ps = s.mask ps := by
  simp at h
  simp [State.windowEnd, h]

@[simp] theorem State.takeSnapshots_mask (s : State) (r : Rec) (cls : Nat) (h : [.nets, .skein, .freeCtr] ⊆ ps) :
    (s.takeSnapshots r cls).mask ps = s.mask ps := by
  simp at h
  unfold State.takeSnapshots
  refine foldl_mask _ _ _ fun s t => ?_
  dsimp only
  rw [foldl_mask _ _ _ fun s i => State.alarm_mask _ _ _ (by simp [h])]
  simp [h]

@[simp] theorem State.enqueue_mask (s : State) (r : Rec) (reps flags lastRep : Nat) (h : [.nets, .skein, .freeCtr] ⊆ ps) :
    (s.enqueue r reps flags lastRep).mask ps = s.mask ps := by
  unfold State.enqueue
  simp at h
  dsimp only
  (repeat' split) <;> simp [h]

@[simp] theorem State.release_mask (s : State) (src : Nat) (h : [.nets, .skein, .freeCtr] ⊆ ps) :
    (s.release src).mask ps = s.mask ps := by
  unfold State.release
  simp at h
  (repeat' split) <;> simp [h]

@[simp] theorem State.releaseAll_mask (s : State) (h : [.nets, .skein, .freeCtr] ⊆ ps) :
    s.releaseAll.mask ps = s.mask ps := by
  simp at h
  simp [State.releaseAll, h]

@[simp] theorem State.ingestOrdinary_mask (s : State) (r : Rec) (h : [.nets, .skein, .freeCtr] ⊆ ps) :
    (s.ingestOrdinary r).mask ps = s.mask ps := by
  unfold State.ingestOrdinary
  simp at h
  dsimp only
  (repeat' split) <;> simp [h]

@[simp] theorem State.secondEnd_mask (s : State) (h : [.nets, .skein, .freeCtr] ⊆ ps) :
    s.secondEnd.mask ps = s.mask ps := by
  simp at h
  simp [State.secondEnd, h]

@[simp] theorem State.ingestPrivileged_mask (s : State) (r : Rec) (h : [.nets, .skein, .freeCtr] ⊆ ps) :
    (s.ingestPrivileged r).mask ps = s.mask ps := by
  unfold State.ingestPrivileged
  simp at h
  dsimp only
  (repeat' split) <;> simp [h]

@[simp] theorem State.ingest_mask (s : State) (r : Rec) (h : [.nets, .skein, .freeCtr] ⊆ ps) :
    (s.ingest r).mask ps = s.mask ps := by
  simp at h
  simp [State.ingest, h]

@[simp] theorem State.ingestAll_mask (s : State) (h : [.nets, .skein, .freeCtr] ⊆ ps) :
    s.ingestAll.mask ps = s.mask ps := by
  simp at h
  simp [State.ingestAll, h]

@[simp] theorem State.writeEntry_mask (s : State) (e : Entry) (h : [.skein, .mram] ⊆ ps) :
    (s.writeEntry e).mask ps = s.mask ps := by
  simp at h
  unfold State.writeEntry
  extract_lets sram late seq vals s1
  rw [foldl_mask _ _ _ fun s p => foldl_mask _ _ _ fun s i => State.storeRecord_mask _ _ (by simp [h])]
  simp [s1, h]

@[simp] theorem State.drain_mask (k : Nat) (s : State) (h : [.skein, .mram] ⊆ ps) :
    (State.drain k s).mask ps = s.mask ps := by
  simp at h
  induction k generalizing s with
  | zero => rfl
  | succ k ih =>
    unfold State.drain
    split <;> simp [h, ih]

@[simp] theorem State.skeinFlush_mask (s : State) (h : [.nets, .skein, .mram, .freeCtr] ⊆ ps) :
    s.skeinFlush.mask ps = s.mask ps := by
  simp at h
  simp [State.skeinFlush, h]

@[simp] theorem State.remapLog_mask (s : State) (row spare : Nat) (h : [.skein, .card] ⊆ ps) :
    (s.remapLog row spare).mask ps = s.mask ps := by
  simp at h
  simp [State.remapLog, h]

@[simp] theorem State.logSram_mask (s : State) (h : [.skein] ⊆ ps) :
    s.logSram.mask ps = s.mask ps := by
  simp at h
  simp [State.logSram, h]

@[simp] theorem State.skeinBoot_mask (s : State) (h : [.skein, .mram] ⊆ ps) :
    s.skeinBoot.mask ps = s.mask ps := by
  simp at h
  simp [State.skeinBoot, h]

/-! ### Machine/States.lean -/

@[simp] theorem State.modPower_mask (s : State) (f : Power → Power) (h : [.power] ⊆ ps) :
    (s.modPower f).mask ps = s.mask ps := by
  simp at h
  simp [State.modPower, h]

@[simp] theorem State.modSup_mask (s : State) (f : Super → Super) (h : [.sup] ⊆ ps) :
    (s.modSup f).mask ps = s.mask ps := by
  simp at h
  simp [State.modSup, h]

@[simp] theorem State.setDev_mask (s : State) (d : DevState) (cause : Nat)
    (h : [.power, .dis, .spin, .skein, .card, .freeCtr] ⊆ ps) :
    (s.setDev d cause).mask ps = s.mask ps := by
  simp at h
  simp [State.setDev, h]

@[simp] theorem State.geoStop_mask (s : State) (h : [.power, .rov, .spd, .dis] ⊆ ps) :
    s.geoStop.mask ps = s.mask ps := by
  simp at h
  simp [State.geoStop, h]

@[simp] theorem State.geoStart_mask (s : State) (h : [.power, .rov, .spd] ⊆ ps) :
    s.geoStart.mask ps = s.mask ps := by
  simp at h
  simp [State.geoStart, h]

@[simp] theorem State.geoLeave_mask (s : State) (keep : Bool) (h : [.power, .rov, .spd, .dis] ⊆ ps) :
    (s.geoLeave keep).mask ps = s.mask ps := by
  simp at h
  simp [State.geoLeave, h]

@[simp] theorem State.ctlStart_mask (s : State)
    (h : [.power, .whorl, .spin, .bridges, .ports, .loads, .budget, .skein, .freeCtr] ⊆ ps) :
    s.ctlStart.mask ps = s.mask ps := by
  simp at h
  simp [State.ctlStart, h]

@[simp] theorem State.hankShut_mask (s : State) (k : Nat) (h : [.dis, .skein] ⊆ ps) :
    (s.hankShut k).mask ps = s.mask ps := by
  simp at h
  simp [State.hankShut, h]

@[simp] theorem State.closeDone_mask (s : State) (c : CloseSeq) (h : [.power, .rov, .spd, .dis, .skein, .mram, .freeCtr] ⊆ ps) :
    (s.closeDone c).mask ps = s.mask ps := by
  unfold State.closeDone
  simp at h
  dsimp only
  (repeat' split) <;> simp [h]

@[simp] theorem State.conveyorClose_mask (s : State) (h : [.power, .rov, .spd, .dis, .skein, .mram, .freeCtr] ⊆ ps) :
    s.conveyorClose.mask ps = s.mask ps := by
  unfold State.conveyorClose
  simp at h
  dsimp only
  (repeat' split) <;> simp [h]

@[simp] theorem State.discardEdges_mask (s : State) (h : [.chan, .banks, .bridges, .budget, .sup, .undo] ⊆ ps) :
    s.discardEdges.mask ps = s.mask ps := by
  simp at h
  have hd := State.dropEdges_mask (ps := ps) s (by simp [h])
  unfold State.mask at hd
  simp_all [State.discardEdges, State.mask]

@[simp] theorem State.closeChannels_mask (s : State) (h : [.it, .dis, .chan, .banks, .budget] ⊆ ps) :
    s.closeChannels.mask ps = s.mask ps := by
  simp at h
  simp [State.closeChannels, h]

@[simp] theorem State.enterSafe_mask (s : State) (cause : Nat)
    (h : [.it, .power, .rov, .spd, .dis, .rate, .chan, .banks, .bob, .whorl, .spin, .bridges, .ports, .loads, .budget, .skein,
      .sup, .card, .undo, .freeCtr] ⊆ ps) :
    (s.enterSafe cause).mask ps = s.mask ps := by
  simp at h
  simp [State.enterSafe, h]

@[simp] theorem State.bareAsk_mask (s : State) (n : Nat) (h : [.chan, .banks, .loads, .budget, .skein] ⊆ ps) :
    (s.bareAsk n).mask ps = s.mask ps := by
  unfold State.bareAsk
  simp at h
  dsimp only
  (repeat' split) <;> simp [h]

@[simp] theorem State.bareChannel_mask (s : State) (n : Nat) (h : [.it, .dis, .chan, .banks, .loads, .budget, .skein] ⊆ ps) :
    (s.bareChannel n).mask ps = s.mask ps := by
  simp at h
  simp [State.bareChannel, h]

@[simp] theorem State.bareValve_mask (s : State) (h_ : Nat)
    (h : [.dis, .spin, .bridges, .loads, .budget, .skein, .freeCtr] ⊆ ps) :
    (s.bareValve h_).mask ps = s.mask ps := by
  unfold State.bareValve
  simp at h
  dsimp only
  (repeat' split) <;> simp [h]

@[simp] theorem State.bareChannels_mask (s : State) (h : [.it, .dis, .chan, .banks, .loads, .budget, .skein] ⊆ ps) :
    s.bareChannels.mask ps = s.mask ps := by
  simp at h
  simp [State.bareChannels, h]

@[simp] theorem State.bareTorque_mask (s : State)
    (h : [.dis, .whorl, .spin, .bridges, .ports, .loads, .budget, .skein, .freeCtr] ⊆ ps) :
    s.bareTorque.mask ps = s.mask ps := by
  simp at h
  simp [State.bareTorque, h]

@[simp] theorem State.bareArm_mask (s : State) (h : [.sup] ⊆ ps) :
    s.bareArm.mask ps = s.mask ps := by
  simp at h
  simp [State.bareArm, h]

@[simp] theorem State.enterBare_mask (s : State) (cause : Nat)
    (h : [.power, .spd, .dis, .rate, .chan, .banks, .bob, .whorl, .spin, .bridges, .ports, .loads, .budget, .skein, .sup,
      .card, .undo, .freeCtr] ⊆ ps) :
    (s.enterBare cause).mask ps = s.mask ps := by
  simp at h
  simp [State.enterBare, h]

@[simp] theorem State.enterReady_mask (s : State) (cause : Nat)
    (h : [.power, .rov, .spd, .dis, .bob, .whorl, .spin, .bridges, .ports, .loads, .budget, .skein, .card, .freeCtr] ⊆ ps) :
    (s.enterReady cause).mask ps = s.mask ps := by
  simp at h
  simp [State.enterReady, h]

@[simp] theorem State.enterRun_mask (s : State)
    (h : [.power, .spd, .dis, .rate, .chan, .banks, .bob, .whorl, .spin, .bridges, .ports, .loads, .budget, .skein, .sup,
      .card, .undo, .freeCtr] ⊆ ps) :
    s.enterRun.mask ps = s.mask ps := by
  simp at h
  simp [State.enterRun, h]

@[simp] theorem State.enterService_mask (s : State)
    (h : [.power, .rov, .spd, .dis, .bob, .whorl, .spin, .bridges, .ports, .loads, .budget, .skein, .card, .freeCtr] ⊆ ps) :
    s.enterService.mask ps = s.mask ps := by
  simp at h
  simp [State.enterService, h]

@[simp] theorem State.commandEffect_mask (s : State)
    (h : [.it, .power, .rov, .spd, .dis, .rate, .chan, .banks, .bob, .whorl, .spin, .bridges, .ports, .loads, .budget, .skein,
      .sup, .card, .undo, .freeCtr] ⊆ ps) :
    s.commandEffect.mask ps = s.mask ps := by
  unfold State.commandEffect
  simp at h
  dsimp only
  (repeat' split) <;> simp [h]

/-! ### Machine/Supervisor.lean -/

@[simp] theorem State.coresStop_mask (s : State) (c : StopCause) (h : [.dict, .nets, .skein, .sup, .freeCtr] ⊆ ps) :
    (s.coresStop c).mask ps = s.mask ps := by
  simp at h
  unfold State.coresStop
  split
  · rfl
  extract_lets n moving cfg s1 dict nets canA s2 s3 zero s4
  have h1 : s1.mask ps = s.mask ps := by
    unfold s1
    split <;> simp [h]
  have h2 : s2.mask ps = s1.mask ps := by simp [s2, State.mask, h]
  split <;> simp [s4, s3, h, h1, h2]

@[simp] theorem State.intoService_mask (s : State) (code subj : Nat)
    (h : [.dis, .banks, .spin, .bridges, .ports, .loads, .budget, .skein, .freeCtr] ⊆ ps) :
    (s.intoService code subj).mask ps = s.mask ps := by
  simp at h
  simp [State.intoService, h]

@[simp] theorem State.clearOne_mask (s : State) (a : ActiveFault)
    (h : [.dis, .banks, .spin, .bridges, .ports, .loads, .budget, .skein, .sup, .freeCtr] ⊆ ps) :
    (s.clearOne a).mask ps = s.mask ps := by
  simp at h
  simp [State.clearOne, h]

@[simp] theorem State.clearFaults_mask (s : State)
    (h : [.dis, .banks, .spin, .bridges, .ports, .loads, .budget, .skein, .sup, .freeCtr] ⊆ ps) :
    s.clearFaults.mask ps = s.mask ps := by
  simp at h
  simp [State.clearFaults, h]

@[simp] theorem State.claimMessage_mask (s : State) (h : [.nets] ⊆ ps) :
    s.claimMessage.mask ps = s.mask ps := by
  simp at h
  simp [State.claimMessage, h]

@[simp] theorem State.reclaim_mask (s : State) (h : [.nets] ⊆ ps) :
    s.reclaim.mask ps = s.mask ps := by
  simp at h
  simp [State.reclaim, h]

@[simp] theorem State.switchOver_mask (s : State) (c : StopCause) (h : [.card] ⊆ ps) :
    (s.switchOver c).mask ps = s.mask ps := by
  simp at h
  simp [State.switchOver, h]

/-! ### Machine/Carding.lean -/

@[simp] theorem State.modEngine_mask (s : State) (e : Nat) (f : EngineSt → EngineSt) (h : [.card] ⊆ ps) :
    (s.modEngine e f).mask ps = s.mask ps := by
  simp at h
  simp [State.modEngine, h]

@[simp] theorem State.retireRow_mask (s : State) (m row : Nat) (h : [.time, .dis, .skein, .card] ⊆ ps) :
    (s.retireRow m row).mask ps = s.mask ps := by
  simp at h
  simp [State.retireRow, h]

@[simp] theorem State.repairRow_mask (s : State) (m row : Nat) (h : [.time, .dis, .skein, .card, .freeCtr] ⊆ ps) :
    (s.repairRow m row).1.mask ps = s.mask ps := by
  unfold State.repairRow
  simp at h
  dsimp only
  (repeat' split) <;> simp [h]

@[simp] theorem State.startShutdownRun_mask (s : State) (h : [.card] ⊆ ps) :
    s.startShutdownRun.mask ps = s.mask ps := by
  simp at h
  simp [State.startShutdownRun, h]

@[simp] theorem State.cursorPast_mask (s : State) (r : CardRun) (k : Nat) (h : [.card] ⊆ ps) :
    (s.cursorPast r k).mask ps = s.mask ps := by
  simp at h
  simp [State.cursorPast, h]

@[simp] theorem State.putRun_mask (s : State) (r : CardRun) (h : [.skein, .card] ⊆ ps) :
    (s.putRun r).mask ps = s.mask ps := by
  simp at h
  simp [State.putRun, h]

@[simp] theorem State.runSlice_mask (s : State) (r : CardRun) (x : SliceIn) (h : [.time, .dis, .skein, .card, .freeCtr] ⊆ ps) :
    (s.runSlice r x).mask ps = s.mask ps := by
  unfold State.runSlice
  simp at h
  dsimp only
  (repeat' split) <;> simp [h]

@[simp] theorem State.nextSlice_mask (s : State) (x : SliceIn) (h : [.time, .dis, .skein, .card, .freeCtr] ⊆ ps) :
    (s.nextSlice x).mask ps = s.mask ps := by
  unfold State.nextSlice
  simp at h
  (repeat' split) <;> simp [h]

@[simp] theorem State.lifeBoot_mask (s : State) (h : [.skein, .card] ⊆ ps) :
    s.lifeBoot.mask ps = s.mask ps := by
  simp at h
  simp [State.lifeBoot, h]

@[simp] theorem State.imageResult_mask (s : State) (res eng slot cause got : Nat) (at_ : IT) (h : [.card] ⊆ ps) :
    (s.imageResult res eng slot cause got at_).mask ps = s.mask ps := by
  simp at h
  simp [State.imageResult, h]

@[simp] theorem State.fallback_mask (s : State) (e st cause : Nat) (h : [.skein, .card] ⊆ ps) :
    (s.fallback e st cause).mask ps = s.mask ps := by
  simp at h
  simp [State.fallback, h]

@[simp] theorem State.bootEngine_mask (s : State) (e : Nat) (h : [.skein, .card, .freeCtr] ⊆ ps) :
    (s.bootEngine e).mask ps = s.mask ps := by
  simp at h
  simp [State.bootEngine, h]

@[simp] theorem State.abandonLoads_mask (s : State) (h : [.card] ⊆ ps) :
    s.abandonLoads.mask ps = s.mask ps := by
  unfold State.abandonLoads
  simp at h
  dsimp only
  (repeat' split) <;> simp [h]

@[simp] theorem State.markerBoot_mask (s : State) (h : [.skein, .card, .freeCtr] ⊆ ps) :
    s.markerBoot.mask ps = s.mask ps := by
  unfold State.markerBoot
  simp at h
  (repeat' split) <;> simp [h]

@[simp] theorem State.cardingBoot_mask (s : State) (h : [.skein, .card, .freeCtr] ⊆ ps) :
    s.cardingBoot.mask ps = s.mask ps := by
  simp at h
  simp [State.cardingBoot, h]

/-! ### Machine/Flags.lean -/

@[simp] theorem State.beatSent_mask (s : State) (i : Nat) (h : [.nets] ⊆ ps) :
    (s.beatSent i).mask ps = s.mask ps := by
  simp at h
  simp [State.beatSent, h]

@[simp] theorem State.sendBeat_mask (s : State) (n : Net) (h : [.nets, .freeCtr] ⊆ ps) :
    (s.sendBeat n).mask ps = s.mask ps := by
  simp at h
  simp [State.sendBeat, h]

@[simp] theorem State.firstBeat_mask (s : State) (h : [.nets, .freeCtr] ⊆ ps) :
    s.firstBeat.mask ps = s.mask ps := by
  simp at h
  simp [State.firstBeat, h]

/-! ### Machine/Power.lean -/

@[simp] theorem State.gratuitousArp_mask (s : State) (h : [.nets] ⊆ ps) :
    s.gratuitousArp.mask ps = s.mask ps := by
  simp at h
  simp [State.gratuitousArp, h]

@[simp] theorem State.ethStart_mask (s : State) (h : [.power, .nets] ⊆ ps) :
    s.ethStart.mask ps = s.mask ps := by
  simp at h
  unfold State.ethStart
  extract_lets s1 nets eth s2
  have h2 : s2.mask ps = s1.mask ps := mask_set_nets s1 _ (by simp [h])
  simp [h, h2, s1]

@[simp] theorem State.bootNote_mask (s : State) (src : Nat) (h : [.skein, .freeCtr] ⊆ ps) :
    (s.bootNote src).mask ps = s.mask ps := by
  simp at h
  simp [State.bootNote, h]

@[simp] theorem State.downStage_mask (s : State) (h : [.power] ⊆ ps) :
    s.downStage.mask ps = s.mask ps := by
  simp at h
  simp [State.downStage, h]

@[simp] theorem State.shutdownDone_mask (s : State) (result aon : Nat)
    (h : [.time, .power, .nets, .skein, .mram, .freeCtr] ⊆ ps) :
    (s.shutdownDone result aon).mask ps = s.mask ps := by
  simp at h
  simp [State.shutdownDone, h]

@[simp] theorem State.finishMap_mask (s : State) (h : [.power, .rov, .spd, .dis, .skein, .mram, .freeCtr] ⊆ ps) :
    s.finishMap.mask ps = s.mask ps := by
  unfold State.finishMap
  simp at h
  dsimp only
  (repeat' split) <;> simp [h]

@[simp] theorem State.finishSlices_mask (s : State) (h : [.time, .dis, .skein, .card, .freeCtr] ⊆ ps) :
    s.finishSlices.mask ps = s.mask ps := by
  unfold State.finishSlices
  simp at h
  dsimp only
  (repeat' split) <;> simp [h]

/-! ### Machine/Dict.lean -/

@[simp] theorem State.gptpEnable_mask (s : State) (h : [.time, .nets] ⊆ ps) :
    s.gptpEnable.mask ps = s.mask ps := by
  simp at h
  simp [State.gptpEnable, h]

@[simp] theorem State.newClaim_mask (s : State) (h : [.nets] ⊆ ps) :
    s.newClaim.mask ps = s.mask ps := by
  simp at h
  simp [State.newClaim, h]

@[simp] theorem State.tpMessage_mask (s : State) (ext : Bool) (partner control : Nat) (b : Bytes) (pgn : Nat) (h : [.nets] ⊆ ps) :
    (s.tpMessage ext partner control b pgn).mask ps = s.mask ps := by
  simp at h
  simp [State.tpMessage, h]

@[simp] theorem State.uploadPool_mask (s : State) (h : [.nets, .freeCtr] ⊆ ps) :
    s.uploadPool.mask ps = s.mask ps := by
  simp at h
  simp [State.uploadPool, h]

@[simp] theorem State.toTc_mask (s : State) (b : Bytes) (h : [.nets, .freeCtr] ⊆ ps) :
    (s.toTc b).mask ps = s.mask ps := by
  simp at h
  simp [State.toTc, h]

@[simp] theorem State.newLabel_mask (s : State) (digest : Bytes) (h : [.nets, .freeCtr] ⊆ ps) :
    (s.newLabel digest).mask ps = s.mask ps := by
  simp at h
  simp [State.newLabel, h]

@[simp] theorem State.afterCommit_mask (s : State) (before : Dict) (w : CommitWait)
    (h : [.time, .power, .rov, .spd, .dis, .spin, .loads, .budget, .nets, .skein, .mram, .freeCtr] ⊆ ps) :
    (s.afterCommit before w).mask ps = s.mask ps := by
  simp at h
  simp [State.afterCommit, h]

/-! ### Machine/Pagrim.lean -/

@[simp] theorem State.modSession_mask (s : State) (i : SessionId) (f : Session → Session) (h : [.nets] ⊆ ps) :
    (s.modSession i f).mask ps = s.mask ps := by
  simp at h
  simp [State.modSession, h]

@[simp] theorem State.answer_mask (s : State) (r : Req) (service idx sub : Nat) (reply : Bytes) (h : [.nets] ⊆ ps) :
    (s.answer r service idx sub reply).mask ps = s.mask ps := by
  simp at h
  simp [State.answer, h]

@[simp] theorem State.commitAnswer_mask (s : State) (w : CommitWait) (h : [.nets] ⊆ ps) :
    (s.commitAnswer w).mask ps = s.mask ps := by
  unfold State.commitAnswer
  simp at h
  dsimp only
  (repeat' split) <;> simp [h]

/-! ### Machine/Networks.lean -/

@[simp] theorem State.modIso_mask (s : State) (f : CanA → CanA) (h : [.nets] ⊆ ps) :
    (s.modIso f).mask ps = s.mask ps := by
  simp at h
  simp [State.modIso, h]

@[simp] theorem State.reportDdi_mask (s : State) (ddi : Nat) (h : [.nets, .freeCtr] ⊆ ps) :
    (s.reportDdi ddi).mask ps = s.mask ps := by
  simp at h
  simp [State.reportDdi, h]

@[simp] theorem State.reportChanges_mask (s : State) (b : IT) (h : [.nets, .freeCtr] ⊆ ps) :
    (s.reportChanges b).mask ps = s.mask ps := by
  simp at h
  unfold State.reportChanges
  split
  · rfl
  refine foldl_mask _ _ _ fun s ddi => ?_
  split
  · rfl
  split
  · split <;> simp [h]
  · rfl

/-! ### Machine/Frame.lean -/

@[simp] theorem State.dieTime_mask (s : State) (d : Nat) (ps_ : Int) (h : [.time, .sup] ⊆ ps) :
    (s.dieTime d ps_).mask ps = s.mask ps := by
  simp at h
  simp [State.dieTime, h]

@[simp] theorem State.dieTimes_mask (s : State) (devPs : Vector Int 4) (h : [.time, .sup] ⊆ ps) :
    (s.dieTimes devPs).mask ps = s.mask ps := by
  simp at h
  simp [State.dieTimes, h]

@[simp] theorem State.switchesSample_mask (s : State) (mv : Vector Nat 16) (h : [.sup] ⊆ ps) :
    (s.switchesSample mv).mask ps = s.mask ps := by
  simp at h
  simp [State.switchesSample, h]

@[simp] theorem State.channelFrame_mask (s : State) (f : FrameIn) (n : Nat)
    (h : [.it, .dis, .chan, .banks, .budget, .skein] ⊆ ps) :
    (s.channelFrame f n).mask ps = s.mask ps := by
  simp at h
  simp [State.channelFrame, h]

@[simp] theorem State.frameMap_mask (s : State) (b : IT) (h : [.rov, .spd, .dis, .nets, .skein, .sup, .mram, .freeCtr] ⊆ ps) :
    (s.frameMap b).mask ps = s.mask ps := by
  simp at h
  simp [State.frameMap, h]

@[simp] theorem State.dischargeFrame_mask (s : State) (h : [.bob] ⊆ ps) :
    s.dischargeFrame.mask ps = s.mask ps := by
  simp at h
  simp [State.dischargeFrame, h]

@[simp] theorem State.framePower_mask (s : State) (f : FrameIn) (h : [.bob, .loads, .budget, .therm, .skein, .sup] ⊆ ps) :
    (s.framePower f).mask ps = s.mask ps := by
  simp at h
  simp [State.framePower, h]

@[simp] theorem State.frameRequests_mask (s : State)
    (h : [.it, .dis, .chan, .banks, .bob, .whorl, .spin, .bridges, .ports, .loads, .budget, .skein, .sup, .freeCtr] ⊆ ps) :
    s.frameRequests.mask ps = s.mask ps := by
  simp at h
  simp [State.frameRequests, h]

@[simp] theorem State.frameStates_mask (s : State)
    (h : [.it, .power, .spd, .dis, .rate, .chan, .banks, .bob, .whorl, .spin, .bridges, .ports, .loads, .budget, .skein, .sup,
      .card, .undo, .freeCtr] ⊆ ps) :
    s.frameStates.mask ps = s.mask ps := by
  unfold State.frameStates
  simp at h
  dsimp only
  (repeat' split) <;> simp [h]

end Sys2Proof.Machine

end

section

namespace Sys2Proof.Machine

/-! # A step on an empty queue -/

/-- Settles O2. -/
theorem emptyQueueIdles : Obligations.EmptyQueueIdles := by
  intro s h
  simp [step, h]

end Sys2Proof.Machine

end

section

namespace Sys2Proof.Machine

/-! # Nozzles: a closing edge and the end of its decay (R216, R225, R226) -/

@[simp] theorem State.endReserve_ch (s : State) (n q : Nat) : (s.endReserve n).ch q = s.ch q := rfl
@[simp] theorem State.sprayStart_ch (s : State) (o : Nat) (p t : IT) (q : Nat) : (s.sprayStart o p t).ch q = s.ch q := rfl
@[simp] theorem State.sprayCmd_ch (s : State) (o : Nat) (t : IT) (q : Nat) : (s.sprayCmd o t).ch q = s.ch q := rfl
@[simp] theorem State.sprayVoid_ch (s : State) (o : Nat) (t : IT) (q : Nat) : (s.sprayVoid o t).ch q = s.ch q := rfl
@[simp] theorem State.endReserve_bank (s : State) (n q : Nat) : (s.endReserve n).bank q = s.bank q := rfl
@[simp] theorem State.sprayStart_bank (s : State) (o : Nat) (p t : IT) (q : Nat) : (s.sprayStart o p t).bank q = s.bank q := rfl
@[simp] theorem State.sprayCmd_bank (s : State) (o : Nat) (t : IT) (q : Nat) : (s.sprayCmd o t).bank q = s.bank q := rfl
@[simp] theorem State.sprayVoid_bank (s : State) (o : Nat) (t : IT) (q : Nat) : (s.sprayVoid o t).bank q = s.bank q := rfl

theorem State.closeWith_ch_other (s : State) (n : Nat) (t : IT) (how : CloseBy) (c : Nat) (boost : Bool) (m : Nat) (h : m ≠ n) :
    (s.closeWith n t how c boost).ch m = s.ch m := by
  unfold State.closeWith
  dsimp only
  split
  · rfl
  · (repeat' split) <;> simp [h]

theorem State.setCommon_bank_other (s : State) (b c : Nat) (h : c ≠ b) : (s.setCommon b).bank c = s.bank c := by
  unfold State.setCommon
  split
  · rfl
  · exact State.modBank_bank_other _ _ _ _ h

theorem State.closeWith_bank_other (s : State) (n : Nat) (t : IT) (how : CloseBy) (c : Nat) (boost : Bool) (b : Nat) (h : b ≠ n / 8) :
    (s.closeWith n t how c boost).bank b = s.bank b := by
  unfold State.closeWith
  dsimp only
  split
  · rfl
  · rw [State.setCommon_bank_other _ _ _ h]
    (repeat' split) <;> simp [h]

/-- The closing that a command at `t` with the delay `c` adds to a driven channel (R216, R226). -/
theorem State.closeWith_ch_same (s : State) (n : Nat) (t : IT) (how : CloseBy) (c : Nat) (boost : Bool) (hn : n < 128)
    (hs : (s.ch n).state = 1 ∨ (s.ch n).state = 2) :
    ∃ cl : Closing, cl.cmd = t ∧ cl.opensAt = t + (c - s.kinkHalf n) ∧ cl.endsAt = t + c + s.kinkHalf n ∧
      ((s.closeWith n t how c boost).ch n).closings = (s.ch n).closings ++ [cl] ∧
      ((s.closeWith n t how c boost).ch n).state = 3 ∧
      ((s.closeWith n t how c boost).ch n).ocCount = (if how.byDie then (s.ch n).ocCount else 0) ∧
      ((s.closeWith n t how c boost).ch n).edges = (s.ch n).edges := by
  unfold State.closeWith
  extract_lets s0 x b clamp opens early w cl s1 s2 s3
  rw [if_neg (by simp only [x, s0, State.at_ch]; rcases hs with h | h <;> simp [h])]
  have h1 : s1.ch n = s.ch n := by
    simp only [s1]
    (repeat' split) <;> rfl
  have h3 : s3.ch n = s2.ch n := by
    simp only [s3]
    split <;> rfl
  refine ⟨cl, rfl, rfl, rfl, ?_⟩
  simp only [State.setCommon_ch, State.endReserve_ch, h3, s2, State.modCh_ch_same _ _ _ hn, h1]
  refine ⟨?_, ?_, ?_, ?_⟩ <;> (repeat' split) <;> rfl

theorem State.closeWith_it (s : State) (n : Nat) (t : IT) (how : CloseBy) (c : Nat) (boost : Bool) :
    (s.closeWith n t how c boost).it = max s.it t := by
  unfold State.closeWith
  extract_lets s0 x b clamp opens early w cl s1 s2 s3
  split
  · rfl
  · have h1 : s1.it = s0.it := by
      simp only [s1]
      (repeat' split) <;> rfl
    have h3 : s3.it = s2.it := by
      simp only [s3]
      split <;> rfl
    rw [State.setCommon_it]
    exact h3.trans h1

/-- Taking an edge off a channel's list does not move its kink window half-width (R226). -/
theorem State.kinkHalf_edges (s : State) (t : IT) (n : Nat) (e : DieEdge) (hn : n < 128) :
    ((s.at t).modCh n (fun c => { c with edges := c.edges.erase e })).kinkHalf n = s.kinkHalf n := by
  simp [State.kinkHalf, hn]

/-- CLOSING_COMMAND on a driven channel closes it with the delay of its first closing edge (R216, R226). -/
theorem execClosingCommand_driven (n : Fin 128) (e : DieEdge) (s : State) (he : (s.ch n).nextClose = some e)
    (hs : (s.ch n).state = 1 ∨ (s.ch n).state = 2) :
    ∃ t, exec (.closingCommand n) s = .next t ∧
      (t.ch n).state = 3 ∧ (t.ch n).ocCount = 0 ∧ t.it = max s.it e.it ∧
      (t.ch n).closings.getLast?.map (fun y => (y.cmd, y.opensAt, y.endsAt)) =
        some (e.it, e.it + (e.c - s.kinkHalf n), e.it + e.c + s.kinkHalf n) ∧
      (t.ch n).edges = (s.ch n).edges.erase e ∧
      (∀ m, m ≠ n.val → t.ch m = s.ch m) ∧ (∀ b, b ≠ n.val / 8 → t.bank b = s.bank b) ∧
      Unchanged [.it, .chan, .banks, .dis, .budget] s t := by
  let s1 := (s.at e.it).modCh n (fun c => { c with edges := c.edges.erase e })
  have hc : s1.ch n = { s.ch n with edges := (s.ch n).edges.erase e } := State.modCh_ch_same _ _ _ n.isLt
  obtain ⟨cl, h1, h2, h3, hcl, hst, hoc, hed⟩ :=
    s1.closeWith_ch_same n e.it .edge e.c (s1.boostAt n e.it) n.isLt (by rw [hc]; exact hs)
  rw [State.kinkHalf_edges _ _ _ _ n.isLt] at h2 h3
  refine ⟨s1.closeWith n e.it .edge e.c (s1.boostAt n e.it), ?_, hst, hoc, ?_, ?_, by rw [hed, hc], fun m hm => ?_, fun b hb => ?_,
    Unchanged.of_mask (by simp [s1])⟩
  · simp only [exec, execClosingCommand, he]; rfl
  · rw [State.closeWith_it]; simp [s1]
  · simp [hcl, h1, h2, h3]
  · rw [State.closeWith_ch_other _ _ _ _ _ _ _ hm]; simp [s1, hm]
  · rw [State.closeWith_bank_other _ _ _ _ _ _ _ hb]; rfl

/-- DECAY_END turns a decaying channel off (R216). -/
theorem execDecayEnd_decaying (n : Fin 128) (at_ : IT) (cl : Closing) (s : State) (hd : (s.ch n).decaying = some cl) :
    ∃ t, exec (.decayEnd n at_) s = .next t ∧ (t.ch n).state = 0 ∧
      (t.ch n).closings = ((s.ch n).closings.map (fun y =>
        if y.cmd = cl.cmd then { y with decayed := some at_, opensAt := max y.opensAt (at_ + 50000) } else y)).filter
          (fun y => y.window || y.decayed.isNone) ∧
      (t.ch n).decays = (if cl.clamped then (s.ch n).decays else ((at_ - cl.cmd) :: (s.ch n).decays).take 16) ∧
      (∀ m, m ≠ n.val → t.ch m = s.ch m) ∧ Unchanged [.it, .chan, .banks] s t := by
  refine ⟨_, by simp only [exec, execDecayEnd, hd]; rfl, ?_⟩
  have hn := n.isLt
  refine ⟨?_, ?_, ?_, fun m hm => ?_, Unchanged.of_mask (by simp [State.modClosing])⟩
  all_goals simp [State.modClosing, *]

/-- Settles O9: a closing edge and the end of its decay, each from what its command does to the channel. -/
theorem nozzleClosing : Obligations.NozzleClosing :=
  ⟨execClosingCommand_driven, execDecayEnd_decaying⟩

end Sys2Proof.Machine

end

section

namespace Sys2Proof.Machine

/-! # The Ethernet port (R12, R418, R419) -/

/-! ### Frames handed to a network -/

/-- What a frame sent leaves of the networks: the port but for its counters. -/
theorem Nets.put_eq (n : Nets) (f : Sent) :
    ∃ c k, n.put f = { n with tx := n.tx ++ [f], can := c, eth := { n.eth with counters := k } } := by
  unfold Nets.put
  dsimp only
  split <;> exact ⟨_, _, rfl⟩

@[simp] theorem Nets.put_tx (n : Nets) (f : Sent) : (n.put f).tx = n.tx ++ [f] := by
  obtain ⟨c, k, h⟩ := n.put_eq f
  rw [h]

@[simp] theorem Nets.put_arp (n : Nets) (f : Sent) : (n.put f).eth.arp = n.eth.arp := by
  obtain ⟨c, k, h⟩ := n.put_eq f
  rw [h]

@[simp] theorem Nets.put_up (n : Nets) (f : Sent) : (n.put f).eth.up = n.eth.up := by
  obtain ⟨c, k, h⟩ := n.put_eq f
  rw [h]

@[simp] theorem Nets.put_gptp (n : Nets) (f : Sent) : (n.put f).eth.gptp = n.eth.gptp := by
  obtain ⟨c, k, h⟩ := n.put_eq f
  rw [h]

@[simp] theorem Nets.put_reqSeq (n : Nets) (f : Sent) : (n.put f).eth.reqSeq = n.eth.reqSeq := by
  obtain ⟨c, k, h⟩ := n.put_eq f
  rw [h]

@[simp] theorem Nets.put_reqTx (n : Nets) (f : Sent) : (n.put f).eth.reqTx = n.eth.reqTx := by
  obtain ⟨c, k, h⟩ := n.put_eq f
  rw [h]

/-- A frame goes out where its network carries frames (R416). -/
theorem State.send_eq (s : State) (f : Sent) (h : s.carries f = true) : s.send f = { s with nets := s.nets.put f } := if_pos h

/-- The state with a frame handed to the networks. -/
def State.putNets (s : State) (f : Sent) : State := { s with nets := s.nets.put f }

/-- A frame sent leaves the port up. -/
theorem State.putNets_ethUp (s : State) (f : Sent) : (s.putNets f).ethUp = s.ethUp := by
  simp [State.ethUp, State.putNets]

@[simp] theorem State.modEth_mask {ps : List Part} (s : State) (f : Eth → Eth) (h : [.nets] ⊆ ps) : (s.modEth f).mask ps = s.mask ps := by
  simp at h
  simp [State.modEth, h]

@[simp] theorem State.ethCount_mask {ps : List Part} (s : State) (i : Nat) (h : [.nets] ⊆ ps) : (s.ethCount i).mask ps = s.mask ps := by
  simp at h
  simp [State.ethCount, h]

@[simp] theorem State.ethHeard_mask {ps : List Part} (s : State) (t : IT) (h : [.it, .nets] ⊆ ps) : (s.ethHeard t).mask ps = s.mask ps := by
  simp at h
  simp [State.ethHeard, h]

@[simp] theorem State.ethHeard_pN (s : State) (t : IT) (k i : Nat) : (s.ethHeard t).pN k i = s.pN k i := rfl
@[simp] theorem State.ethHeard_pB (s : State) (t : IT) (k i : Nat) : (s.ethHeard t).pB k i = s.pB k i := rfl
@[simp] theorem State.ethHeard_tx (s : State) (t : IT) : (s.ethHeard t).nets.tx = s.nets.tx := rfl

/-- The discards are counted apart from the frames received. -/
@[simp] theorem State.ethHeard_discards (s : State) (t : IT) : vget (s.ethHeard t).nets.eth.counters 2 0 = vget s.nets.eth.counters 2 0 :=
  vget_vmod_other _ _ _ _ _ (by decide)

@[simp] theorem State.ethCount_discards (s : State) :
    vget (s.ethCount 2).nets.eth.counters 2 0 = sat32 (vget s.nets.eth.counters 2 0 + 1) :=
  vget_vmod_same _ _ _ _ (by decide)

/-- The stack serves frames only with the port up. -/
theorem State.ethUp_of_stackUp {s : State} (h : s.stackUp = true) : s.ethUp = true := by
  simp only [State.stackUp, Bool.and_eq_true] at h
  exact h.1

/-! ### The link (R12, R418) -/

/-- ETH_LINK_UP on a port whose link is down starts it. -/
theorem execEthLinkUp_down (x : IT) (s : State) (ha : s.power.dev.awake = true) (hd : s.power.dev ≠ .shutdown)
    (hc : s.power.crystalOk = true) (hu : s.nets.eth.up = false) :
    ∃ t, exec (.ethLinkUp x) s = .next t ∧
      t.nets.eth.up = true ∧ t.power = { s.power with eth := true } ∧
      t.nets.eth.gptp = (if s.pB 0x1220 5 then 1 else 0) ∧
      t.nets.tx.getLast? = some (.arp false Config.macAddress (s.pN 0x1220 1) 0xFFFFFFFFFFFF (s.pN 0x1220 1)) ∧
      Unchanged [.it, .power, .nets] s t := by
  refine ⟨(s.at x).ethStart, by simp [exec, execEthLinkUp, ha, hd, hc, hu], ?_⟩
  refine ⟨?_, ?_, ?_, ?_, Unchanged.of_mask (by simp)⟩
  all_goals
    unfold State.ethStart State.gratuitousArp
    rw [State.send_eq _ _ (by simp [State.carries, State.ethUp, ha, hc])]
  · exact Nets.put_up _ _
  · rfl
  · exact Nets.put_gptp _ _
  · exact (congrArg List.getLast? (Nets.put_tx _ _)).trans List.getLast?_concat

/-- ETH_LINK_DOWN on a port whose link is up ends it. -/
theorem execEthLinkDown_up (x : IT) (s : State) (ha : s.power.dev.awake = true) (hu : s.nets.eth.up = true) :
    ∃ t, exec (.ethLinkDown x) s = .next t ∧ t.nets = { s.nets with eth := { s.nets.eth with
        up := false, gptp := min 1 s.nets.eth.gptp, syncRx := none, respT2 := none } } ∧ Unchanged [.it, .time, .nets] s t := by
  refine ⟨_, by simp [exec, execEthLinkDown, State.whenAwake, ha, hu]; rfl, ?_, Unchanged.of_mask (by simp)⟩
  exact Unchanged.of_mask (State.noteGoverning_mask (ps := [.time]) _ (by simp)) .nets (by simp)

/-! ### ARP and echo (R418) -/

/-- An ARP_REQUEST for the module's address is answered and its sender cached. -/
theorem execArpRequest_own (x : IT) (ip mac dst : Nat) (s : State) (h : s.stackUp = true) (hd : dst = s.pN 0x1220 1) :
    ∃ t, exec (.arpRequest x ip mac dst) s = .next t ∧
      t.nets.eth.arp = arpPut ip mac (max s.it x) s.nets.eth.arp ∧ t.nets.tx.getLast? = some (.arp true Config.macAddress dst mac ip) ∧
      Unchanged [.it, .nets] s t := by
  refine ⟨_, by
    simp only [exec, execArpRequest, h, Bool.not_true, Bool.false_eq_true, if_false, State.ethHeard_pN]
    exact congrArg _ (if_pos hd), ?_⟩
  refine ⟨?_, ?_, Unchanged.of_mask (by simp)⟩
  all_goals rw [State.send_eq _ _ (by exact State.ethUp_of_stackUp h)]
  · exact Nets.put_arp _ _
  · exact (congrArg List.getLast? (Nets.put_tx _ _)).trans List.getLast?_concat

/-- Another ARP_REQUEST is discarded and counted. -/
theorem execArpRequest_other (x : IT) (ip mac dst : Nat) (s : State) (h : s.stackUp = true) (hd : dst ≠ s.pN 0x1220 1) :
    ∃ t, exec (.arpRequest x ip mac dst) s = .next t ∧ t.nets.tx = s.nets.tx ∧
      t.nets.eth.arp = s.nets.eth.arp ∧ vget t.nets.eth.counters 2 0 = sat32 (vget s.nets.eth.counters 2 0 + 1) ∧
      Unchanged [.it, .nets] s t := by
  refine ⟨(s.ethHeard x).ethCount 2, ?_, rfl, rfl, by simp, Unchanged.of_mask (by simp)⟩
  simp [exec, execArpRequest, h, hd]

/-- ARP_CACHE_EXPIRY drops a cached address. -/
theorem execArpCacheExpiry_cached (ip mac : Nat) (y : IT) (s : State) (ha : s.power.dev.awake = true)
    (hf : s.nets.eth.arp.find? (fun e => e.1 == ip) = some (ip, mac, y)) :
    ∃ t, exec (.arpCacheExpiry ip) s = .next t ∧ t.nets.eth.arp = s.nets.eth.arp.filter (fun e => e.1 != ip) ∧
      t.it = max s.it (y + 300000000000) ∧ Unchanged [.it, .nets] s t := by
  refine ⟨_, by simp only [exec, execArpCacheExpiry, State.whenAwake, ha, if_true, hf]; rfl, rfl, rfl, Unchanged.of_mask (by simp)⟩

/-- ICMP_ECHO to the module is answered. -/
theorem execIcmpEcho_own (x : IT) (src dst : Nat) (d : Bytes) (s : State) (h : s.stackUp = true) (hd : dst = s.pN 0x1220 1)
    (hl : d.length ≤ 1472) :
    ∃ t, exec (.icmpEcho x src dst d) s = .next t ∧ t.nets.tx.getLast? = some (.echo src d) ∧ Unchanged [.it, .nets] s t := by
  refine ⟨(s.ethHeard x).send (.echo src d), by simp [exec, execIcmpEcho, h, hd, hl], ?_, Unchanged.of_mask (by simp)⟩
  rw [State.send_eq (s.ethHeard x) (.echo src d) (State.ethUp_of_stackUp h)]
  exact (congrArg List.getLast? (Nets.put_tx _ _)).trans List.getLast?_concat

/-! ### gPTP (R419) -/

/-- With gPTP enabled a message is served once it is counted as received. -/
theorem execGptpMessage_enabled (x : IT) (m : GptpMsg) (s : State) (h : s.stackUp = true) (hg : s.pB 0x1220 5 = true) :
    exec (.gptpMessage x m) s = .next ((s.ethHeard x).gptpServe m) := by
  simp [exec, execGptpMessage, h, hg]

/-- A Sync is kept with its receive stamp. -/
theorem execGptpMessage_sync (x : IT) (n : Nat) (s : State) (h : s.stackUp = true) (hg : s.pB 0x1220 5 = true) :
    ∃ t, exec (.gptpMessage x (.sync n)) s = .next t ∧ t.nets.eth.syncSeq = n ∧
      t.nets.eth.syncRx = some (max s.it x) ∧ Unchanged [.it, .nets] s t :=
  ⟨_, execGptpMessage_enabled x _ s h hg, rfl, rfl, Unchanged.of_mask (by simp [State.gptpServe])⟩

/-- A peer-delay request is answered with a response and its follow-up. -/
theorem execGptpMessage_pdelayReq (x : IT) (n : Nat) (s : State) (h : s.stackUp = true) (hg : s.pB 0x1220 5 = true) :
    ∃ t q, exec (.gptpMessage x (.pdelayReq n)) s = .next t ∧
      t.nets.tx = s.nets.tx ++ [.gptp 1 n (max s.it x), .gptp 2 n q] ∧ Unchanged [.it, .nets, .freeCtr] s t := by
  refine ⟨_, s.drawn, execGptpMessage_enabled x _ s h hg, ?_, Unchanged.of_mask (by simp [State.gptpServe])⟩
  have hup := State.ethUp_of_stackUp h
  have h1 : (s.ethHeard x).send (.gptp 1 n (max s.it x)) = ((s.ethHeard x).putNets (.gptp 1 n (max s.it x))) := State.send_eq _ _ hup
  have h2 : ((s.ethHeard x).putNets (.gptp 1 n (max s.it x))).send (.gptp 2 n s.drawn) =
      ((s.ethHeard x).putNets (.gptp 1 n (max s.it x))).putNets (.gptp 2 n s.drawn) :=
    State.send_eq _ _ ((State.putNets_ethUp _ _).trans hup)
  have h3 : (s.ethHeard x).gptpServe (.pdelayReq n) =
      (((s.ethHeard x).send (.gptp 1 n (max s.it x))).send (.gptp 2 n s.drawn)).draw := rfl
  rw [h3, h1, h2]
  simp [State.putNets, State.draw]

/-- With gPTP disabled a message is discarded and counted. -/
theorem execGptpMessage_disabled (x : IT) (m : GptpMsg) (s : State) (h : s.stackUp = true) (hg : s.pB 0x1220 5 = false) :
    ∃ t, exec (.gptpMessage x m) s = .next t ∧ t.nets.tx = s.nets.tx ∧
      vget t.nets.eth.counters 2 0 = sat32 (vget s.nets.eth.counters 2 0 + 1) ∧ Unchanged [.it, .nets] s t := by
  refine ⟨(s.ethHeard x).ethCount 2, ?_, rfl, by simp, Unchanged.of_mask (by simp)⟩
  simp [exec, execGptpMessage, h, hg]

/-- PEER_DELAY_REQUEST sends a request with the next sequence number. -/
theorem execPeerDelayRequest_enabled (x : IT) (s : State) (h : s.stackUp = true) (hg : s.pB 0x1220 5 = true) :
    ∃ t, exec (.peerDelayRequest x) s = .next t ∧
      t.nets.eth.reqSeq = (s.nets.eth.reqSeq + 1) % 65536 ∧ t.nets.eth.reqTx = max s.it x ∧
      t.nets.tx.getLast? = some (.gptp 0 ((s.nets.eth.reqSeq + 1) % 65536) (max s.it x)) ∧ Unchanged [.it, .nets] s t := by
  refine ⟨_, by simp [exec, execPeerDelayRequest, h, hg]; rfl, ?_⟩
  refine ⟨?_, ?_, ?_, Unchanged.of_mask (by simp)⟩
  all_goals rw [State.send_eq _ _ (by exact State.ethUp_of_stackUp h)]
  · exact Nets.put_reqSeq _ _
  · exact Nets.put_reqTx _ _
  · exact (congrArg List.getLast? (Nets.put_tx _ _)).trans List.getLast?_concat

/-- Settles O46, each event of the port by the theorem about its command. -/
theorem ethernet : Obligations.Ethernet :=
  ⟨fun x s ha => ⟨execEthLinkUp_down x s ha, execEthLinkDown_up x s ha⟩,
   fun x ip mac dst s h => ⟨execArpRequest_own x ip mac dst s h, execArpRequest_other x ip mac dst s h⟩,
   execArpCacheExpiry_cached,
   execIcmpEcho_own,
   fun x n s h => ⟨execGptpMessage_sync x n s h, execGptpMessage_pdelayReq x n s h,
     fun hg m => execGptpMessage_disabled x m s h hg, execPeerDelayRequest_enabled x s h⟩⟩

end Sys2Proof.Machine

end

section

namespace Sys2Proof.Machine

/-! # Valve drives (R309 to R311, R316, R345) -/

/-! ### What a bridge is left with -/

theorem State.br_of_bridges {s t : State} (h : t.bridges = s.bridges) (g : Nat) : t.br g = s.br g := by
  simp [State.br, h]

theorem State.pN_of_dict {s t : State} (h : t.dict = s.dict) (k i : Nat) : t.pN k i = s.pN k i := by
  simp [State.pN, h]

theorem State.writeDuty_br (s : State) (d w g : Nat) : (s.writeDuty d w).br g = s.br g :=
  State.br_of_bridges (Unchanged.of_mask (State.writeDuty_mask (ps := [.spin]) s d w (by simp)) .bridges (by simp)) g

theorem State.writeDuty_it (s : State) (d w : Nat) : (s.writeDuty d w).it = s.it :=
  Unchanged.of_mask (State.writeDuty_mask (ps := [.spin]) s d w (by simp)) .it (by simp)

theorem State.passDuty_br (s : State) (h w g : Nat) : (s.passDuty h w).br g = s.br g :=
  State.br_of_bridges (Unchanged.of_mask (State.passDuty_mask (ps := [.spin, .freeCtr]) s h w (by simp)) .bridges (by simp)) g

/-- A bridge whose drive begins. -/
def Bridge.driven (b : Bridge) (opens : Bool) (t : IT) (share : Nat) : Bridge :=
  { b with
    drive := some (opens, t, share), asked := none, again := none, valve := if opens then 3 else 4, state := if opens then 1 else 2,
    sign := !opens, timeout := false, endTrav := false }

theorem State.valveStart_br_same (s : State) (h : Nat) (opens : Bool) (pct : Nat) (hh : h < 4) :
    (s.valveStart h opens pct).br h = (s.br h).driven opens s.it (s.pN (0x3500 + h) 6 * pct) :=
  (State.passDuty_br _ _ _ _).trans (State.modBr_br_same _ _ _ hh)

theorem State.valveStart_br_other (s : State) (h : Nat) (opens : Bool) (pct g : Nat) (hg : g ≠ h) :
    (s.valveStart h opens pct).br g = s.br g :=
  (State.passDuty_br _ _ _ _).trans (State.modBr_br_other _ _ _ _ hg)

/-- What keeps a bridge from driving is not its list of edges. -/
theorem State.brFree_edges (s : State) (t : IT) (h : Nat) (es : List DieEdge) (hh : h < 4) :
    ((s.at t).modBr h (fun x => { x with edges := es })).brFree h = s.brFree h := by
  unfold State.brFree
  rw [State.modBr_br_same _ _ _ hh]
  rfl

/-! ### The closing drive (R309 to R311) -/

/-- A closing drive of a bridge without a running opening. -/
theorem State.valveClose_br_same (s : State) (h : Nat) (hh : h < 4) :
    ∃ c, (s.valveClose h).br h = { (s.br h).driven false s.it (s.pN (0x3500 + h) 6 * 100) with state := c } := by
  unfold State.valveClose
  extract_lets t opening s1 s2 s3
  have h3 : s3.br h = (s.br h).driven false s.it (s.pN (0x3500 + h) 6 * 100) := State.valveStart_br_same _ _ _ _ hh
  split
  · exact ⟨3, (State.modBr_br_same _ _ _ hh).trans (by rw [h3])⟩
  · exact ⟨2, h3⟩

theorem State.valveClose_br_other (s : State) (h g : Nat) (hg : g ≠ h) : (s.valveClose h).br g = s.br g := by
  unfold State.valveClose
  extract_lets t opening s1 s2 s3
  have h3 : s3.br g = s.br g := State.valveStart_br_other _ _ _ _ _ hg
  split
  · exact (State.modBr_br_other _ _ _ _ hg).trans h3
  · exact h3

theorem State.valveClose_it (s : State) (h : Nat) : (s.valveClose h).it = s.it :=
  Unchanged.of_mask (State.valveClose_mask (ps := [.dis, .spin, .bridges, .budget, .freeCtr]) s h (by simp)) .it (by simp)

/-- The state in which bridge `h` takes its first edge `e`, the rest of them `es`. -/
abbrev State.edgeTaken (s : State) (h : Nat) (e : DieEdge) (es : List DieEdge) : State :=
  (s.at e.it).modBr h (fun x => { x with edges := es })

/-- VALVE_DRIVE_START takes the first edge of its bridge. -/
theorem execValveDriveStart_edge (h : Fin 4) (e : DieEdge) (es : List DieEdge) (s : State) (he : (s.br h).edges = e :: es) :
    exec (.valveDriveStart h) s = .next ((s.edgeTaken h e es).valveEdge h e.opens) := by
  simp only [exec, execValveDriveStart, he]

/-- A closing edge of a free bridge begins its drive. -/
theorem execValveDriveStart_closes (h : Fin 4) (e : DieEdge) (es : List DieEdge) (s : State) (he : (s.br h).edges = e :: es)
    (hf : s.brFree h = true) (ho : e.opens = false) :
    ∃ t, exec (.valveDriveStart h) s = .next t ∧ t.it = max s.it e.it ∧
      (t.br h).drive = some (false, max s.it e.it, s.pN (0x3500 + h.val) 6 * 100) ∧ (t.br h).valve = 4 ∧
      (t.br h).edges = es ∧ (∀ g, g ≠ h.val → t.br g = s.br g) ∧ Unchanged [.it, .dis, .spin, .bridges, .budget, .freeCtr] s t := by
  have hx : (s.edgeTaken h e es).valveEdge h e.opens = (s.edgeTaken h e es).valveClose h := by
    simp [State.valveEdge, State.brFree_edges _ _ _ _ h.isLt, hf, ho]
  obtain ⟨c, hc⟩ := (s.edgeTaken h e es).valveClose_br_same h h.isLt
  have hb : (s.edgeTaken h e es).br h = { s.br h with edges := es } := State.modBr_br_same _ _ _ h.isLt
  rw [hb] at hc
  refine ⟨_, (execValveDriveStart_edge h e es s he).trans (congrArg _ hx), ?_⟩
  refine ⟨State.valveClose_it _ _, by rw [hc]; rfl, by rw [hc]; rfl, by rw [hc]; rfl, fun g hg => ?_, Unchanged.of_mask (by simp)⟩
  exact (State.valveClose_br_other _ _ _ hg).trans (State.modBr_br_other _ _ _ _ hg)

/-- An edge of a bridge that may not drive waits for its resumption (R316). -/
theorem execValveDriveStart_waits (h : Fin 4) (e : DieEdge) (es : List DieEdge) (s : State) (he : (s.br h).edges = e :: es)
    (hf : s.brFree h = false) :
    ∃ t, exec (.valveDriveStart h) s = .next t ∧ t.br h = { s.br h with edges := es, again := some (e.opens, false) } ∧
      (∀ g, g ≠ h.val → t.br g = s.br g) ∧ Unchanged [.it, .bridges] s t := by
  have hx : (s.edgeTaken h e es).valveEdge h e.opens =
      (s.edgeTaken h e es).modBr h (fun x => { x with again := some (e.opens, false) }) := by
    simp [State.valveEdge, State.brFree_edges _ _ _ _ h.isLt, hf]
  refine ⟨_, (execValveDriveStart_edge h e es s he).trans (congrArg _ hx), ?_, fun g hg => ?_, Unchanged.of_mask (by simp)⟩
  · rw [State.modBr_br_same _ _ _ h.isLt, State.modBr_br_same _ _ _ h.isLt]
    rfl
  · exact (State.modBr_br_other _ _ _ _ hg).trans (State.modBr_br_other _ _ _ _ hg)

/-! ### The end of a drive (R309) -/

/-- END_OF_TRAVEL late enough and above the stall current. -/
theorem execEndOfTravel_stalled (h : Fin 4) (x : TravelIn) (o : Bool) (t0 : IT) (p : Nat) (s : State)
    (hd : (s.br h).drive = some (o, t0, p)) (ht : t0 + 120000000 ≤ x.at_) (hm : s.pN (0x3500 + h.val) 7 < x.ma) :
    ∃ t, exec (.endOfTravel h x) s = .next t ∧ (t.br h).drive = none ∧ (t.br h).endTrav = true ∧
      (t.br h).valve = (if o then 1 else 2) ∧ (t.br h).state = 4 ∧
      (∀ g, g ≠ h.val → t.br g = s.br g) ∧ Unchanged [.it, .spin, .bridges] s t := by
  have hc : ¬ (x.at_ < t0 + 120000000 ∨ x.ma ≤ s.pN (0x3500 + h.val) 7) :=
    not_or.mpr ⟨Nat.not_lt.mpr ht, Nat.not_le.mpr hm⟩
  refine ⟨_, by simp only [exec, execEndOfTravel, hd, if_neg hc]; rfl, ?_⟩
  rw [State.writeDuty_br, State.modBr_br_same _ _ _ h.isLt]
  refine ⟨rfl, rfl, rfl, rfl, fun g hg => ?_, Unchanged.of_mask (by simp)⟩
  exact (State.writeDuty_br _ _ _ _).trans (State.modBr_br_other _ _ _ _ hg)

/-- TRAVEL_TIMEOUT ends a running drive. -/
theorem execTravelTimeout_driven (h : Fin 4) (o : Bool) (t0 : IT) (p : Nat) (s : State)
    (hd : (s.br h).drive = some (o, t0, p)) :
    ∃ t, exec (.travelTimeout h) s = .next t ∧ t.it = max s.it (t0 + s.pN (0x3500 + h.val) 8 * 1000000) ∧
      (t.br h).drive = none ∧ (t.br h).timeout = true ∧ (t.br h).valve = (if o then 1 else 2) ∧ (t.br h).state = 4 ∧
      t.skein.arriving = s.skein.arriving ++ [⟨0x9001, t.it, s.time.boot, h, []⟩] ∧
      (∀ g, g ≠ h.val → t.br g = s.br g) ∧ Unchanged [.it, .spin, .bridges, .skein] s t := by
  refine ⟨_, by simp only [exec, execTravelTimeout, hd]; rfl, ?_⟩
  rw [State.record_br, State.writeDuty_br, State.modBr_br_same _ _ _ h.isLt, State.record_it, State.record_skein]
  have hw := Unchanged.of_mask (State.writeDuty_mask (ps := [.spin]) (((s.at (t0 + s.pN (0x3500 + h.val) 8 * 1000000)).modBr h (fun x => ({ x with
        drive := none, valve := if o then 1 else 2, timeout := true, state := 4 } : Bridge).count 2))) (1 + h.val) 0 (by simp))
  have hsk := hw .skein (by simp)
  have htm := hw .time (by simp)
  simp only [Part.same] at hsk htm
  refine ⟨State.writeDuty_it _ _ _, rfl, rfl, rfl, rfl, ?_, fun g hg => ?_, Unchanged.of_mask (by simp)⟩
  · rw [hsk, htm]
    rfl
  · rw [State.record_br, State.writeDuty_br]
    exact State.modBr_br_other _ _ _ _ hg

/-! ### The opening drive (R310, R345) -/

/-- An opening that the budget grants as a whole begins at once. -/
theorem State.valveAsk_granted (s u : State) (h : Nat) (first : IT) (hh : h < 4)
    (hr : s.requestTorque h (s.pEl 0x1400 8 4 h * s.pN (0x3500 + h) 6 / 100) (secondBoundary (s.takesAt (1 + h))) = (u, .granted)) :
    (s.valveAsk h first).br h = (s.br h).driven true s.it (s.pN (0x3500 + h) 6 * 100) ∧
      ∀ g, g ≠ h → (s.valveAsk h first).br g = s.br g := by
  have hu : u = (s.requestTorque h (s.pEl 0x1400 8 4 h * s.pN (0x3500 + h) 6 / 100) (secondBoundary (s.takesAt (1 + h)))).1 := by
    rw [hr]
  have hm : Unchanged [.loads, .budget, .skein] s u := by
    rw [hu]
    exact Unchanged.of_mask (State.requestTorque_mask _ _ _ _ (by simp))
  have hit : u.it = s.it := hm .it (by simp)
  have hbr : ∀ g, u.br g = s.br g := State.br_of_bridges (hm .bridges (by simp))
  have hpn : u.pN (0x3500 + h) 6 = s.pN (0x3500 + h) 6 := State.pN_of_dict (hm .dict (by simp)) _ _
  have hx : ∀ g, (s.valveAsk h first).br g = (u.valveStart h true 100).br g := by
    intro g
    simp only [State.valveAsk, hr]
    rfl
  refine ⟨?_, fun g hg => ?_⟩
  · rw [hx, State.valveStart_br_same _ _ _ _ hh, hit, hbr, hpn]
  · rw [hx, State.valveStart_br_other _ _ _ _ _ hg, hbr]

/-- An opening edge that the budget grants. -/
theorem execValveDriveStart_opens (h : Fin 4) (e : DieEdge) (es : List DieEdge) (s u : State) (he : (s.br h).edges = e :: es)
    (hf : s.brFree h = true) (ho : e.opens = true)
    (hr : ((s.at e.it).modBr h (fun x => { x with edges := es })).requestTorque h (s.pEl 0x1400 8 4 h * s.pN (0x3500 + h.val) 6 / 100)
      (secondBoundary (((s.at e.it).modBr h (fun x => { x with edges := es })).takesAt (1 + h.val))) = (u, .granted)) :
    ∃ t, exec (.valveDriveStart h) s = .next t ∧ (t.br h).valve = 3 ∧ (t.br h).state = 1 ∧ (t.br h).asked = none ∧
      (t.br h).edges = es ∧ (t.br h).drive = some (true, max s.it e.it, s.pN (0x3500 + h.val) 6 * 100) ∧
      (∀ g, g ≠ h.val → t.br g = s.br g) ∧ Unchanged [.it, .dis, .spin, .bridges, .loads, .budget, .skein, .freeCtr] s t := by
  have hx : (s.edgeTaken h e es).valveEdge h e.opens = (s.edgeTaken h e es).valveAsk h (max s.it e.it) := by
    simp [State.valveEdge, State.brFree_edges _ _ _ _ h.isLt, hf, ho]
  obtain ⟨hs, hother⟩ := (s.edgeTaken h e es).valveAsk_granted u h (max s.it e.it) h.isLt hr
  have hb : (s.edgeTaken h e es).br h = { s.br h with edges := es } := State.modBr_br_same _ _ _ h.isLt
  rw [hb] at hs
  refine ⟨_, (execValveDriveStart_edge h e es s he).trans (congrArg _ hx), ?_⟩
  rw [hs]
  refine ⟨rfl, rfl, rfl, rfl, rfl, fun g hg => ?_, Unchanged.of_mask (by simp)⟩
  exact (hother g hg).trans (State.modBr_br_other _ _ _ _ hg)

/-- The retry of a deferred opening that the budget grants. -/
theorem execValveDriveRetry_opens (h : Fin 4) (first x : IT) (s u : State) (ha : (s.br h).asked = some (first, x))
    (hr : (s.at x).requestTorque h (s.pEl 0x1400 8 4 h * s.pN (0x3500 + h.val) 6 / 100)
      (secondBoundary ((s.at x).takesAt (1 + h.val))) = (u, .granted)) :
    ∃ t, exec (.valveDriveRetry h) s = .next t ∧ (t.br h).valve = 3 ∧ (t.br h).state = 1 ∧ (t.br h).asked = none ∧
      (t.br h).drive = some (true, max s.it x, s.pN (0x3500 + h.val) 6 * 100) ∧
      (∀ g, g ≠ h.val → t.br g = s.br g) ∧ Unchanged [.it, .dis, .spin, .bridges, .loads, .budget, .skein, .freeCtr] s t := by
  obtain ⟨hs, hother⟩ := (s.at x).valveAsk_granted u h first h.isLt hr
  refine ⟨(s.at x).valveAsk h first, by simp only [exec, execValveDriveRetry, ha], ?_⟩
  rw [hs]
  exact ⟨rfl, rfl, rfl, rfl, hother, Unchanged.of_mask (by simp)⟩

/-- Settles O18: the closing drive, the edge that waits, the two ends of a drive and the two openings that are granted. -/
theorem valveDrives : Obligations.ValveDrives :=
  ⟨execValveDriveStart_closes, execValveDriveStart_waits, execEndOfTravel_stalled, execTravelTimeout_driven,
   execValveDriveStart_opens, execValveDriveRetry_opens⟩

end Sys2Proof.Machine

end

section

namespace Sys2Proof.Machine

/-! # The cores, the losses and an overrun (R20, R139, R145, R390, R461) -/

/-! ### Vectors mapped with their index -/

@[simp] theorem vget_vmapi {α β : Type} {n : Nat} (v : Vector α n) (f : Nat → α → β) (i : Nat) (d : β) (e : α) (h : i < n) :
    vget (vmapi v f) i d = f i (vget v i e) := by
  simp [vget, vmapi, h]

/-! ### The cores stop and return (R390, R461) -/

/-- What a fault of the cores carries depends on the device state alone. -/
theorem State.faultNow_coast {s t : State} (h : t.power = s.power) (y : IT) : t.faultNow 0xE014 0 [] y = s.faultNow 0xE014 0 [] y := by
  simp [State.faultNow, State.faultResponse, h]

/-- The cores stop: what waited for a COMMIT is lost, and the coast window opens in RUN and BARE (R390, R461). -/
theorem State.coresStop_running (s : State) (c : StopCause) (hr : s.coresAbsent = false) :
    (s.coresStop c).coresAbsent = true ∧ (s.coresStop c).dict = { s.dict with staged := [], commit := none } ∧
      (s.coresStop c).sup.stop.map (fun w => (w.since, w.cause, w.coast)) = some (s.it, c,
        (s.power.dev == .run || s.power.dev == .bare) && !(s.pN 0x4100 1 == 0)) ∧
      (s.coresStop c).sup.reported = s.sup.reported ++
        (if (s.power.dev = .run ∨ s.power.dev = .bare) ∧ s.pN 0x4100 1 = 0 then [s.faultNow 0xE014 0 [] s.it] else []) := by
  unfold State.coresStop
  rw [if_neg (by simp [hr])]
  extract_lets n moving cfg s1 dict nets canA s2 s3 zero s4
  have hs1 : Unchanged [.nets, .skein, .freeCtr] s s1 := Unchanged.of_mask (by unfold s1; split <;> simp)
  have hs3 : Unchanged [.skein] s2 s3 := Unchanged.of_mask (State.recordIf_mask _ _ _ _ _ (by simp))
  have hd : s3.dict = { s.dict with staged := [], commit := none } := by
    have h := hs1 .dict (by simp)
    have h' := hs3 .dict (by simp)
    simp only [Part.same] at h h'
    rw [h']
    simp only [s2, dict, h]
  have hpn : s3.pN 0x4100 1 = s.pN 0x4100 1 := by
    simp only [State.pN, hd]
    rfl
  have hit : s3.it = s.it := (hs3 .it (by simp)).trans (hs1 .it (by simp))
  have hpw : s3.power = s.power := (hs3 .power (by simp)).trans (hs1 .power (by simp))
  have hsup : s3.sup = s.sup := (hs3 .sup (by simp)).trans (hs1 .sup (by simp))
  have hz : zero = (moving && s.pN 0x4100 1 == 0) := by rw [← hpn]
  have h4 : s4.sup.reported = s.sup.reported := by
    show s3.sup.reported = _
    rw [hsup]
  have hst : s4.sup.stop.map (fun w => (w.since, w.cause, w.coast)) = some (s.it, c, moving && !(s.pN 0x4100 1 == 0)) := by
    show some (s3.it, c, moving && !zero) = _
    rw [hit, hz]
    cases moving <;> simp
  have hab : s4.coresAbsent = true := rfl
  have hf : s4.faultNow 0xE014 0 [] s4.it = s.faultNow 0xE014 0 [] s.it := by
    rw [State.faultNow_coast (s := s) (t := s4) hpw]
    exact congrArg _ hit
  have hzero : zero = true ↔ (s.power.dev = .run ∨ s.power.dev = .bare) ∧ s.pN 0x4100 1 = 0 := by
    rw [hz]
    simp [moving]
  split
  next h => exact ⟨hab, hd, hst, by rw [if_pos (hzero.mp h), ← hf, ← h4]; rfl⟩
  next h => exact ⟨hab, hd, hst, by rw [if_neg (fun q => h (hzero.mpr q)), h4, List.append_nil]⟩

theorem execCoresStop_running (x : IT) (c : StopCause) (s : State) (ha : s.power.dev.awake = true) (hr : s.coresAbsent = false) :
    ∃ t, exec (.coresStop x c) s = .next t ∧ t.coresAbsent = true ∧ t.dict.staged = [] ∧ t.dict.commit = none ∧
      t.sup.stop.map (fun w => (w.since, w.cause, w.coast)) = some (max s.it x, c,
        (s.power.dev == .run || s.power.dev == .bare) && !(s.pN 0x4100 1 == 0)) ∧
      t.sup.reported = s.sup.reported ++
        (if (s.power.dev = .run ∨ s.power.dev = .bare) ∧ s.pN 0x4100 1 = 0 then [s.faultNow 0xE014 0 [] (max s.it x)] else []) ∧
      Unchanged [.it, .dict, .nets, .skein, .sup, .freeCtr] s t := by
  obtain ⟨hab, hd, hst, hrep⟩ := (s.at x).coresStop_running c hr
  refine ⟨(s.at x).coresStop c, by simp [exec, execCoresStop, State.whenAwake, ha, hr], hab, ?_, ?_, hst, hrep, Unchanged.of_mask (by simp)⟩
  · rw [hd]
  · rw [hd]

/-- What the cores do at their return, once the stop is over. -/
def State.coresBack (s : State) (c : StopCause) : State :=
  (((s.skein.windows.filter (fun w => decide (w.ends ≤ s.it))).foldl (fun s w => s.windowEnd w s.it) s).reclaim).switchOver c

@[simp] theorem State.coresBack_mask {ps : List Part} (s : State) (c : StopCause) (h : [.nets, .skein, .card, .freeCtr] ⊆ ps) :
    (s.coresBack c).mask ps = s.mask ps := by
  simp at h
  simp [State.coresBack, h]

/-- CORES_RETURN ends the stop. -/
theorem execCoresReturn_stopped (x : IT) (c : CoreStop) (s : State) (ha : s.power.dev.awake = true) (hs : s.sup.stop = some c) :
    ∃ t, exec (.coresReturn x) s = .next t ∧ t.sup = { s.sup with stop := none } ∧ t.it = max s.it x ∧
      Unchanged [.it, .nets, .skein, .sup, .card, .freeCtr] s t := by
  have hk : Unchanged [.nets, .skein, .card, .freeCtr] ((s.at x).modSup (fun f => { f with stop := none }))
      (((s.at x).modSup (fun f => { f with stop := none })).coresBack c.cause) := Unchanged.of_mask (by simp)
  refine ⟨((s.at x).modSup (fun f => { f with stop := none })).coresBack c.cause, ?_, hk .sup (by simp), hk .it (by simp),
    Unchanged.of_mask (by simp)⟩
  simp only [exec, execCoresReturn, State.whenAwake, ha, hs, if_true]
  rfl

/-- COAST_WINDOW_EXPIRY with the coast window open. -/
theorem execCoastWindowExpiry_open (c : CoreStop) (s : State) (hs : s.sup.stop = some c) (hc : c.coast = true) :
    ∃ t, exec .coastWindowExpiry s = .next t ∧ t.it = max s.it (c.since + s.pN 0x4100 1 * 1000000) ∧
      t.sup = { s.sup with stop := some { c with coast := false }, reported := s.sup.reported ++ [s.faultNow 0xE014 0 [] t.it] } ∧
      Unchanged [.it, .sup] s t := by
  refine ⟨((s.at (c.since + s.pN 0x4100 1 * 1000000)).modSup (fun f => { f with stop := some { c with coast := false } })).report 0xE014 0 [],
    ?_, rfl, ?_, Unchanged.of_mask (by simp)⟩
  · simp only [exec, execCoastWindowExpiry, hs, hc, Bool.not_true, Bool.false_eq_true, if_false]
  · exact congrArg (fun r => { s.sup with stop := some { c with coast := false }, reported := s.sup.reported ++ [r] })
      (State.faultNow_coast rfl _)

/-! ### Position loss, timeouts and overruns (R20, R145, R150) -/

/-- POSITION_LOSS_HOLD_EXPIRY in RUN, with the hold running. -/
theorem execPositionLossHoldExpiry_holding (s : State) (hr : s.power.dev = .run) (hh : s.spd.holding = true) :
    ∃ t, exec .positionLossHoldExpiry s = .next t ∧ t.it = max s.it (s.spd.holdIt + s.pN 0x2200 0xB * 1000000) ∧
      t.sup = { s.sup with reported := s.sup.reported ++ [s.faultNow 0xE00B 0 [] t.it] } ∧ Unchanged [.it, .sup] s t := by
  refine ⟨(s.at (s.spd.holdIt + s.pN 0x2200 0xB * 1000000)).report 0xE00B 0 [], ?_, rfl, rfl, Unchanged.of_mask (by simp)⟩
  simp [exec, execPositionLossHoldExpiry, hr, hh]

/-- The outputs that time out are marked, and no other. -/
theorem State.outputsOut_outp (s : State) (out : Nat → Bool) (o : Nat) (h : o < 132) :
    (s.outputsOut out).outp o = if out o then { s.outp o with extOut := true, ext := none } else s.outp o := by
  unfold State.outputsOut State.outp
  rw [State.record_spd, State.modSpd_spd, vget_vmapi _ _ _ _ _ h]

/-- Whether the timeout of output `o` has ended by `t`. -/
def State.timedOut (s : State) (t : IT) (o : Nat) : Bool :=
  match s.outputEnds o with
  | some e => decide (e ≤ t)
  | none => false

theorem State.timedOut_iff (s : State) (t : IT) (o : Nat) : s.timedOut t o = true ↔ ∃ d, s.outputEnds o = some d ∧ d ≤ t := by
  unfold State.timedOut
  cases s.outputEnds o <;> simp

/-- EXTERNAL_TIMEOUT at the earliest time that an output's timeout ends. -/
theorem execExternalTimeout_due (y : IT) (l : List IT) (s : State) (hr : s.power.dev = .run) (he : s.external = true)
    (hl : (List.range 132).filterMap s.outputEnds = y :: l) :
    ∃ t, exec .externalTimeout s = .next t ∧ t.it = max s.it (l.foldl min y) ∧
      (∀ o, o < 132 → (∃ d, s.outputEnds o = some d ∧ d ≤ t.it) → t.outp o = { s.outp o with extOut := true, ext := none }) ∧
      (∀ o, o < 132 → (∀ d, s.outputEnds o = some d → t.it < d) → t.outp o = s.outp o) ∧
      t.skein.arriving = s.skein.arriving ++ [⟨0x300B, t.it, s.time.boot, 0, []⟩] ∧ Unchanged [.it, .spd, .skein] s t := by
  refine ⟨(s.at (l.foldl min y)).outputsOut (s.timedOut (max s.it (l.foldl min y))), ?_, rfl, fun o ho hd => ?_, fun o ho hd => ?_, rfl,
    Unchanged.of_mask (by simp [State.outputsOut])⟩
  · simp only [exec, execExternalTimeout, hl, he, hr, ne_eq, not_true_eq_false, decide_false, Bool.not_true, Bool.or_self,
      Bool.false_eq_true, if_false]
    rfl
  · rw [State.outputsOut_outp _ _ _ ho]
    exact if_pos ((s.timedOut_iff _ _).mpr hd)
  · rw [State.outputsOut_outp _ _ _ ho]
    refine if_neg fun h => ?_
    obtain ⟨d, hd', hle⟩ := (s.timedOut_iff _ _).mp h
    exact Nat.not_le.mpr (hd d hd') hle

/-- A report made on a condition, as an update of the reported faults. -/
theorem State.ite_report {c d : Prop} [Decidable c] [Decidable d] (h : c ↔ d) (s : State) (code subj : Nat) (det : Bytes) (r : Report)
    (hr : s.faultNow code subj det s.it = r) :
    (if c then s.report code subj det else s) =
      { s with sup := { s.sup with reported := s.sup.reported ++ if d then [r] else [] } } := by
  by_cases hd : d
  · rw [if_pos hd, if_pos (h.mpr hd), ← hr]
    rfl
  · rw [if_neg hd, if_neg (fun q => hd (h.mp q)), List.append_nil]

/-- What an overrun's report carries depends on the device state and the dictionary alone. -/
theorem State.faultNow_overrun {s t : State} (hp : t.power = s.power) (hd : t.dict = s.dict) (y : IT) :
    t.faultNow 0xE00C 0 [] y = s.faultNow 0xE00C 0 [] y := by
  simp [State.faultNow, State.faultResponse, hp, State.pN_of_dict hd]

/-- FRAME_OVERRUN takes back what the frame under way decided. -/
theorem execFrameOverrun_undone (u : Undo) (s : State) (hu : s.undo = some u) :
    ∃ t, exec .frameOverrun s = .next t ∧ t.undo = none ∧ t.it = max s.it (s.time.frame + 950000) ∧
      (∀ o, o < 132 → t.outp o = { vget u.outs o (s.outp o) with
        clampRec := (vget u.outs o (s.outp o)).clampRec || (s.outp o).clampRec,
        extOut := (vget u.outs o (s.outp o)).extOut || (s.outp o).extOut, late := (s.outp o).late, lateRec := (s.outp o).lateRec,
        ext := if (s.outp o).extOut then none else (vget u.outs o (s.outp o)).ext }) ∧
      (∀ w, w < 8 → t.lp w = (s.lp w).undoFrame (vget u.posts w ⟨(s.lp w).posted, (s.lp w).postNext, (s.lp w).request, (s.lp w).reqNext⟩)) ∧
      t.spd.waiting = u.waiting ∧ t.rate.nz = u.rate.nz ∧
      (∀ r, r ∈ t.budget.resvs → r ∈ s.budget.resvs ∧ (r.pull = true → r ∈ u.resvs)) ∧ t.sup.overruns = s.sup.overruns + 1 ∧
      t.skein.arriving = s.skein.arriving ++ [⟨0x3001, t.it, s.time.boot, 0, []⟩] ∧
      t.sup.reported = s.sup.reported ++ (if s.sup.overruns = 2 then [s.faultNow 0xE00C 0 [] t.it] else []) ∧
      Unchanged [.it, .spd, .rate, .chan, .banks, .whorl, .bridges, .budget, .skein, .sup, .undo] s t := by
  show ∃ t, execFrameOverrun s = .next t ∧ _
  unfold execFrameOverrun
  rw [hu]
  dsimp -zeta only
  extract_lets b1 s1 s2 s3 w s4 s5 n sup s6
  have hit : s6.it = max s.it (s.time.frame + 950000) := rfl
  have houts : s6.spd.outs = (s.spd.undoFrame u).outs := rfl
  have hloops : s6.whorl.loops = vmapi s.whorl.loops (fun w l =>
      l.undoFrame (vget u.posts w ⟨l.posted, l.postNext, l.request, l.reqNext⟩)) := rfl
  have hresvs : s6.budget.resvs = s.budget.resvs.filter (fun r => !r.pull || u.resvs.contains r) := rfl
  have hrep : s6.sup.reported = s.sup.reported := rfl
  have harr : s6.skein.arriving = s.skein.arriving ++ [⟨0x3001, s6.it, s.time.boot, 0, []⟩] :=
    congrArg Skein.arriving (State.record_skein (s4.spdCount 0 1) 0x3001 0 [])
  have hpw : s6.power = s.power := rfl
  have hdc : s6.dict = s.dict := rfl
  have hn : n = s.sup.overruns + 1 := rfl
  have hf : s6.faultNow 0xE00C 0 [] s6.it = s.faultNow 0xE00C 0 [] s6.it :=
    State.faultNow_overrun (s := s) (t := s6) hpw hdc s6.it
  have hc : n = 3 ↔ s.sup.overruns = 2 := by rw [hn]; simp
  have hm : ∀ ps, [Part.it, .spd, .rate, .chan, .banks, .whorl, .bridges, .budget, .skein, .sup, .undo] ⊆ ps → s6.mask ps = s.mask ps := by
    intro ps h
    simp at h
    have h1 : s1.mask ps = s.mask ps := by simp [s1, h]
    have h2 : s2.mask ps = s1.mask ps := by simp [s2, State.mask, h]
    have h3 : s3.mask ps = s2.mask ps := by simp [s3, State.ungrant, h]
    have h4 : s4.mask ps = s3.mask ps := by simp [s4, h]
    have h5 : s5.mask ps = s4.mask ps := by simp [s5, h]
    have h6 : s6.mask ps = s5.mask ps := by simp [s6, h]
    rw [h6, h5, h4, h3, h2, h1]
  refine ⟨_, rfl, ?_⟩
  rw [State.ite_report hc s6 _ _ _ _ hf]
  refine ⟨rfl, hit, fun o ho => ?_, fun w hw => ?_, rfl, rfl, fun r hr => ?_, hn, harr, ?_, ?_⟩
  · show vget s6.spd.outs o Output.reset = _
    rw [houts, Spindle.undoFrame, vget_vmapi _ _ _ _ Output.reset ho]
    rfl
  · show vget s6.whorl.loops w Loop.reset = _
    rw [hloops, vget_vmapi _ _ _ _ Loop.reset hw]
    rfl
  · have hr' : r ∈ s6.budget.resvs := hr
    rw [hresvs, List.mem_filter] at hr'
    simp only [Bool.or_eq_true, Bool.not_eq_true', List.contains_iff_mem] at hr'
    exact ⟨hr'.1, fun hp => hr'.2.resolve_left (by simp [hp])⟩
  · exact congrArg (· ++ _) hrep
  · exact Unchanged.of_mask ((mask_set_sup _ _ (by simp)).trans (hm _ (by simp)))

/-- Settles O50: the cores' stop and return, the expiries, and what an overrun takes back, each by its command. -/
theorem coresAndLosses : Obligations.CoresAndLosses :=
  ⟨execCoresStop_running, execCoresReturn_stopped, execCoastWindowExpiry_open, execPositionLossHoldExpiry_holding,
   execExternalTimeout_due, execFrameOverrun_undone⟩

end Sys2Proof.Machine

end

section

namespace Sys2Proof.Machine

/-! # The power unit under the moves between device states (R474 to R482) -/

/-! ### What the moves between device states do to the power unit -/

/-- Every part but the power unit. -/
abbrev Part.butPower : List Part :=
  [.it, .time, .motion, .rov, .spd, .dis, .rate, .chan, .banks, .dies, .bob, .whorl, .spin, .bridges, .ports, .loads, .budget,
   .therm, .dict, .nets, .skein, .sup, .card, .mram, .undo, .freeCtr, .pending]

theorem State.power_of_mask {s t : State} (h : t.mask Part.butPower = s.mask Part.butPower) : t.power = s.power :=
  Unchanged.of_mask h .power (by simp)

/-- The power unit but for what runs of the domains and how far SHUTDOWN is. -/
def Power.sansDomains (p : Power) : Power :=
  { p with geo := false, geoFlush := false, ctl := false, stage := 0, supplyLow := .replicate 4 false }

theorem Power.dev_of_sans {p q : Power} (h : p.sansDomains = q.sansDomains) : p.dev = q.dev := by
  simpa only [Power.sansDomains] using congrArg Power.dev h

theorem Power.ign_of_sans {p q : Power} (h : p.sansDomains = q.sansDomains) : p.ign = q.ign := by
  simpa only [Power.sansDomains] using congrArg Power.ign h

theorem Power.cmd_of_sans {p q : Power} (h : p.sansDomains = q.sansDomains) : p.cmd = q.cmd := by
  simpa only [Power.sansDomains] using congrArg Power.cmd h

theorem Power.downAt_of_sans {p q : Power} (h : p.sansDomains = q.sansDomains) : p.downAt = q.downAt := by
  simpa only [Power.sansDomains] using congrArg Power.downAt h

theorem Power.wakeHold_of_sans {p q : Power} (h : p.sansDomains = q.sansDomains) : p.wakeHold = q.wakeHold := by
  simpa only [Power.sansDomains] using congrArg Power.wakeHold h

theorem Power.wakeAgain_of_sans {p q : Power} (h : p.sansDomains = q.sansDomains) : p.wakeAgain = q.wakeAgain := by
  simpa only [Power.sansDomains] using congrArg Power.wakeAgain h


@[simp] theorem State.abortDemand_power (s : State) : s.abortDemand.power = s.power := State.power_of_mask (by simp)
@[simp] theorem State.spinsFollow_power (s : State) : s.spinsFollow.power = s.power := State.power_of_mask (by simp)
@[simp] theorem State.spdIdle_power (s : State) : s.spdIdle.power = s.power := State.power_of_mask (by simp)
@[simp] theorem State.rovStart_power (s : State) : s.rovStart.power = s.power := State.power_of_mask (by simp)
@[simp] theorem State.rovStop_power (s : State) : s.rovStop.power = s.power := State.power_of_mask (by simp)
@[simp] theorem State.spdStop_power (s : State) : s.spdStop.power = s.power := State.power_of_mask (by simp)
@[simp] theorem State.closeChannels_power (s : State) : s.closeChannels.power = s.power := State.power_of_mask (by simp)
@[simp] theorem State.discardEdges_power (s : State) : s.discardEdges.power = s.power := State.power_of_mask (by simp)
@[simp] theorem State.loadsFollow_power (s : State) : s.loadsFollow.power = s.power := State.power_of_mask (by simp)
@[simp] theorem State.skeinFlush_power (s : State) : s.skeinFlush.power = s.power := State.power_of_mask (by simp)
@[simp] theorem State.finishSlices_power (s : State) : s.finishSlices.power = s.power := State.power_of_mask (by simp)
@[simp] theorem State.startDischarge_power (s : State) : s.startDischarge.power = s.power := State.power_of_mask (by simp)
@[simp] theorem State.closeAll_power (s : State) (keep : Bool) : (s.closeAll keep).power = s.power := State.power_of_mask (by simp)
@[simp] theorem State.bridgesEnter_power (s : State) (d : DevState) : (s.bridgesEnter d).power = s.power := State.power_of_mask (by simp)
@[simp] theorem State.whorlEnter_power (s : State) (d : DevState) : (s.whorlEnter d).power = s.power := State.power_of_mask (by simp)
@[simp] theorem State.bobbinEnter_power (s : State) (d : DevState) : (s.bobbinEnter d).power = s.power := State.power_of_mask (by simp)
@[simp] theorem State.writeFinal_power (s : State) (a : Nat) : (s.writeFinal a).power = s.power := State.power_of_mask (by simp)

@[simp] theorem State.setDev_power (s : State) (d : DevState) (cause : Nat) :
    (s.setDev d cause).power = { s.power with dev := d, entered := s.it } := by
  unfold State.setDev
  extract_lets old s1 s2 s3
  have h2 : s2.power = { s.power with dev := d, entered := s.it } := by
    simp only [s2, State.spinsFollow_power, State.abortDemand_power, State.modPower_power, s1, State.record_power, State.record_it]
  have h3 : s3.power = s2.power := by
    simp only [s3]
    split
    · exact State.modDis_power _ _
    · rfl
  rw [← h2, ← h3]
  split
  · exact State.modDis_power _ _
  · rfl

@[simp] theorem State.geoStop_power (s : State) : s.geoStop.power = { s.power with geo := false, geoFlush := false } := by
  simp [State.geoStop]

@[simp] theorem State.geoStart_sans (s : State) : s.geoStart.power.sansDomains = s.power.sansDomains := by
  unfold State.geoStart
  split <;> simp [Power.sansDomains]

@[simp] theorem State.geoLeave_sans (s : State) (keep : Bool) : (s.geoLeave keep).power.sansDomains = s.power.sansDomains := by
  unfold State.geoLeave
  extract_lets s1
  have h1 : s1.power = s.power := State.closeAll_power s keep
  rw [← h1]
  (repeat' split) <;> simp [Power.sansDomains]

@[simp] theorem State.ctlStart_sans (s : State) : s.ctlStart.power.sansDomains = s.power.sansDomains := by
  unfold State.ctlStart
  split <;> simp [Power.sansDomains]

theorem State.closeDone_sans (s : State) (c : CloseSeq) : (s.closeDone c).power.sansDomains = s.power.sansDomains := by
  unfold State.closeDone
  extract_lets k s1 s2 s3 s4 s5
  have h3 : s3.power = s.power := State.power_of_mask (by simp [s3, s2, s1])
  have h4 : s4.power.sansDomains = s.power.sansDomains := by
    rw [← h3]
    simp only [s4]
    split
    · rw [State.geoStop_power]
      rfl
    · rfl
  have h5 : s5.power.sansDomains = s4.power.sansDomains := by
    simp only [s5]
    split <;> rfl
  split
  · exact h5.trans h4
  · exact (congrArg Power.sansDomains (State.power_of_mask (by simp))).trans (h5.trans h4)

theorem State.finishMap_sans (s : State) : s.finishMap.power.sansDomains = s.power.sansDomains := by
  unfold State.finishMap
  extract_lets s1
  have h1 : s1.power.sansDomains = s.power.sansDomains := by
    simp only [s1]
    split
    · exact s.closeDone_sans _
    · rfl
  split
  · rw [State.geoStop_power]
    exact h1
  · exact h1

/-- Entry to SHUTDOWN notes its time and drops a waiting state command and a wake hold (R479). -/
theorem State.enterShutdown_sans (s : State) (cause : Nat) :
    (s.enterShutdown cause).power.sansDomains =
      { s.power with dev := .shutdown, entered := s.it, downAt := s.it, cmd := none, wakeHold := none }.sansDomains := by
  unfold State.enterShutdown
  extract_lets s1 s2 s3 s4 s5 s6 s7
  have hm : Unchanged [.rate, .chan, .banks, .bridges, .budget, .sup, .undo, .skein, .card, .freeCtr] s s1 :=
    Unchanged.of_mask (by simp [s1])
  have h1 : s1.power = s.power := hm .power (by simp)
  have hi1 : s1.it = s.it := hm .it (by simp)
  have h2 : s2.power = { s.power with dev := .shutdown, entered := s.it } := by
    simp only [s2, State.setDev_power, h1, hi1]
  have hi2 : s2.it = s.it :=
    (Unchanged.of_mask (State.setDev_mask (ps := [.power, .dis, .spin, .skein, .card, .freeCtr]) s1 _ _ (by simp)) .it (by simp)).trans hi1
  have h3 : s3.power = { s.power with dev := .shutdown, entered := s.it, stage := 1, downAt := s.it, cmd := none, wakeHold := none } := by
    simp only [s3, State.modPower, h2, hi2]
  have h5 : (s5.bobbinEnter .shutdown).power = s3.power := State.power_of_mask (by simp [s5, s4])
  have h6 : s6.power.sansDomains = s3.power.sansDomains := by
    simp only [s6]
    rw [State.geoLeave_sans, h5]
  have h7 : s7.loadsFollow.abandonLoads.releaseAll.power = s6.power := State.power_of_mask (by simp [s7])
  rw [h7, h6, h3]
  rfl

/-! ### The other moves -/

theorem State.enterReady_sans (s : State) (cause : Nat) :
    (s.enterReady cause).power.sansDomains = { s.power with dev := .ready, entered := s.it }.sansDomains := by
  unfold State.enterReady
  extract_lets s1 s2 s3
  have h1 : s1.power.sansDomains = { s.power with dev := .ready, entered := s.it }.sansDomains := by
    simp only [s1, State.geoStart_sans, State.setDev_power]
  have h2 : s2.power.sansDomains = s1.power.sansDomains := State.ctlStart_sans _
  rw [← h1, ← h2]
  simp [s3]

theorem State.enterRun_power (s : State) : s.enterRun.power = { s.power with dev := .run, entered := s.it } := by
  unfold State.enterRun
  extract_lets s1 s2 s3 s4
  have h2 : s2.power = { s.power with dev := .run, entered := s.it } := by
    simp only [s2, s1, State.modSup_power, State.discardEdges_power, State.setDev_power]
  rw [← h2]
  exact State.power_of_mask (by simp [s4, s3])

theorem State.enterService_sans (s : State) :
    s.enterService.power.sansDomains = { s.power with dev := .service, entered := s.it }.sansDomains := by
  unfold State.enterService
  extract_lets s1 s2 s3
  have h1 : s1.power.sansDomains = { s.power with dev := .service, entered := s.it }.sansDomains := by
    simp only [s1, State.geoLeave_sans, State.setDev_power]
  have h3 : s3.power = s1.power := by simp only [s3, s2, State.loadsFollow_power, State.bobbinEnter_power, State.whorlEnter_power,
    State.bridgesEnter_power]
  rw [← h1, ← h3]
  split
  · exact congrArg Power.sansDomains (State.power_of_mask (by simp))
  · rfl

theorem State.enterBare_power (s : State) (cause : Nat) (h : s.power.dev = .run) :
    (s.enterBare cause).power = { s.power with dev := .bare, entered := s.it } := by
  unfold State.enterBare
  rw [if_neg (by simp [h])]
  extract_lets s1 s2 s3 s4 s5
  have hm : Unchanged [.rate, .chan, .banks, .bridges, .budget, .sup, .undo] s s1 := Unchanged.of_mask (by simp [s1])
  have hi : s1.it = s.it := hm .it (by simp)
  have h1 : s1.power = s.power := hm .power (by simp)
  have h2 : s2.power = { s.power with dev := .bare, entered := s.it } := by
    simp only [s2, State.spdIdle_power, State.setDev_power, hi, h1]
  rw [← h2]
  exact State.power_of_mask (by simp [s5, s4, s3])

theorem State.enterSafe_sans (s : State) (cause : Nat) (h : s.power.dev = .ready ∨ s.power.dev = .run ∨ s.power.dev = .bare) :
    (s.enterSafe cause).power.sansDomains = { s.power with dev := .safe, entered := s.it }.sansDomains := by
  unfold State.enterSafe
  rw [if_neg (by rcases h with h | h | h <;> simp [h])]
  extract_lets s1 s2 s3 s4 s5 s6
  have hm : Unchanged [.rate, .chan, .banks, .bridges, .budget, .sup, .undo] s s1 := Unchanged.of_mask (by simp [s1])
  have hi : s1.it = s.it := hm .it (by simp)
  have h1 : s1.power = s.power := hm .power (by simp)
  have h4 : (s4.bobbinEnter .safe).power = { s.power with dev := .safe, entered := s.it } := by
    simp only [s4, s3, s2, State.bobbinEnter_power, State.whorlEnter_power, State.bridgesEnter_power, State.closeChannels_power,
      State.setDev_power, hi, h1]
  have h5 : s5.power.sansDomains = { s.power with dev := .safe, entered := s.it }.sansDomains := by
    simp only [s5, State.geoLeave_sans, h4]
  rw [← h5]
  exact congrArg Power.sansDomains (State.power_of_mask (t := s6.loadsFollow.spinsFollow) (by simp [s6]))

/-- Closing several channels at one instant does not pass it. -/
theorem State.closeTogether_it (s : State) (l : List Nat) (t : IT) (how : CloseBy) (h : t ≤ s.it) :
    (s.closeTogether l t how).it = s.it := by
  have hf : ∀ u : State, t ≤ u.it →
      (l.foldl (fun s' n => s'.closeWith n t how (s.closingDelay n) (s.boostAt n t)) u).it = u.it := by
    induction l with
    | nil => exact fun u _ => rfl
    | cons n l ih =>
      intro u hu
      have h1 : (u.closeWith n t how (s.closingDelay n) (s.boostAt n t)).it = u.it := by
        rw [State.closeWith_it]
        exact Nat.max_eq_left hu
      exact (ih _ (by rw [h1]; exact hu)).trans h1
  exact hf s h

@[simp] theorem State.closeChannels_it (s : State) : s.closeChannels.it = s.it := s.closeTogether_it _ _ _ (Nat.le_refl _)

/-! ### The ends of a power cycle (R478 to R482) -/

@[simp] theorem State.asleep_it (s : State) : s.asleep.it = s.it := rfl
@[simp] theorem State.asleep_power (s : State) : s.asleep.power = s.power := rfl
@[simp] theorem State.asleep_discharging (s : State) : s.asleep.bob.discharging = s.bob.discharging := rfl

theorem State.ethStart_power (s : State) : s.ethStart.power = { s.power with eth := true } := by
  unfold State.ethStart
  extract_lets s1 nets eth s2
  exact State.power_of_mask (s := s1) (by simp [s2])

/-- A cold start is in BOOT, with the key as it was read. -/
theorem State.coldStart_power (s : State) (b : BootIn) (src : Nat) (ign : Bool) :
    ∃ y e, (s.coldStart b src ign).power = { Power.reset with ign := ign, wakeSrc := src, entered := y, eth := e } := by
  unfold State.coldStart
  extract_lets keys aon slept time power s' r s1 s2 s3 s4
  have h1 : s1.power = { Power.reset with ign := ign, wakeSrc := src } := State.power_of_mask (s := s') (by simp [s1])
  have h2 : s2.power = { Power.reset with ign := ign, wakeSrc := src, entered := s1.it } :=
    (State.power_of_mask (s := s1.modPower (fun p => { p with entered := s1.it })) (by simp [s2])).trans (by simp [h1])
  have h4 : s4.power = { Power.reset with ign := ign, wakeSrc := src, entered := s1.it } := by
    rw [← h2]
    refine State.power_of_mask ?_
    simp only [s4, s3]
    split <;> simp
  split
  · refine ⟨s1.it, true, ?_⟩
    rw [State.ethStart_power, h4]
  · exact ⟨s1.it, Power.reset.eth, h4⟩

theorem State.coldStart_dev (s : State) (b : BootIn) (src : Nat) (ign : Bool) : (s.coldStart b src ign).power.dev = .boot := by
  obtain ⟨y, e, h⟩ := s.coldStart_power b src ign
  rw [h]
  rfl

theorem State.coldStart_ign (s : State) (b : BootIn) (src : Nat) (ign : Bool) : (s.coldStart b src ign).power.ign = ign := by
  obtain ⟨y, e, h⟩ := s.coldStart_power b src ign
  rw [h]

theorem State.coldStart_wakeSrc (s : State) (b : BootIn) (src : Nat) (ign : Bool) : (s.coldStart b src ign).power.wakeSrc = src := by
  obtain ⟨y, e, h⟩ := s.coldStart_power b src ign
  rw [h]

/-- Without a wake on its way the domains end in STANDBY, with the result of SHUTDOWN. -/
theorem State.enterStandby_power (s : State) (h : s.power.wakeAgain = none) :
    s.enterStandby.power.dev = .standby ∧ s.enterStandby.power.downRes = s.power.downRes ∧ s.enterStandby.it = s.it ∧
      s.enterStandby.bob.discharging = s.bob.discharging := by
  unfold State.enterStandby
  extract_lets listening again s1 reset s2
  have hm : Unchanged [.nets, .skein, .mram, .freeCtr] s s1 := Unchanged.of_mask (by simp [s1])
  have hp : s1.power = s.power := hm .power (by simp)
  have hi : s1.it = s.it := hm .it (by simp)
  have hb : s1.bob = s.bob := hm .bob (by simp)
  have ha : again = none := h
  simp [ha, s2, hp, hi, hb]

/-- With a wake on its way they end in a new cold start (R481). -/
theorem State.enterStandby_wakes (s : State) (b : BootIn) (h : s.power.wakeAgain = some b) :
    s.enterStandby.power.dev = .boot ∧ s.enterStandby.power.ign = b.ign := by
  unfold State.enterStandby
  extract_lets listening again s1 reset s2
  have ha : again = some b := h
  rw [ha]
  exact ⟨State.coldStart_dev _ _ _ _, State.coldStart_ign _ _ _ _⟩

end Sys2Proof.Machine

end

section

namespace Sys2Proof.Machine

/-! # The loss of supply, the crystal and the end of SHUTDOWN (R14, R15, R465, R479 to R481) -/

/-! ### What stands at reset -/

@[simp] theorem vget_replicate {α : Type} (n i : Nat) (x : α) : vget (Vector.replicate n x) i x = x := by
  unfold vget
  split <;> simp


/-- Without its domains the module stands at reset but for what is kept (R482). -/
theorem State.asleep_reset (s : State) :
    Unchanged [.it, .time, .power, .dis, .bob, .nets, .skein, .card, .mram, .freeCtr, .pending] State.reset s.asleep :=
  Unchanged.of_mask (by simp [State.mask, State.asleep])

theorem Unchanged.trans {ps : List Part} {s t u : State} (h : Unchanged ps s t) (k : Unchanged ps t u) : Unchanged ps s u := by
  intro p hp
  have h' := h p hp
  have k' := k p hp
  cases p
  case mram => exact fun a => (k' a).trans (h' a)
  all_goals simp only [Part.same] at h' k' ⊢
  all_goals rw [k', h']

theorem Unchanged.mono {ps qs : List Part} {s t : State} (h : Unchanged ps s t) (hs : ps ⊆ qs) : Unchanged qs s t :=
  fun p hp => h p (fun q => hp (hs q))

/-- A torn write changes MRAM alone. -/
@[simp] theorem State.tornWrite_mask {ps : List Part} (s : State) (col row : Int) (h : [.mram] ⊆ ps) :
    (s.tornWrite col row).mask ps = s.mask ps := by
  simp at h
  unfold State.tornWrite
  (repeat' split) <;> simp [h]

/-- KA_COLLAPSE: every output off, every unit without supply at its reset, and what has not reached MRAM lost (R465). -/
theorem execKaCollapse_supplied (x : CollapseIn) (s : State) (h : s.power.dev ≠ .noSupply) :
    ∃ t, exec (.kaCollapse x) s = .next t ∧ t.power.dev = .noSupply ∧
      (∀ n, n < 128 → (t.ch n).state = 0 ∧ (t.ch n).edges = []) ∧ (∀ b, b < 16 → (t.bank b).common = 0) ∧
      (∀ h, h < 4 → (t.br h).drive = none ∧ (t.br h).state = 0) ∧ (∀ g, g < 2 → (t.pt g).driving = false) ∧
      (∀ j, j < 16 → (t.ld j).on = false) ∧ t.skein.arriving = [] ∧ t.skein.queue = [] ∧
      t.skein.holding = Vector.replicate 16 none ∧ t.skein.lastWord = (if x.sram then s.skein.lastWord else []) ∧
      t.card.run = none ∧ t.time.marker = (s.time.marker && x.sram) ∧
      (x.torn = none → t.mram = s.mram) ∧ t.dis.hanks = s.dis.hanks ∧ t.dis.frames = s.dis.frames ∧ t.bob.discharging = false ∧
      t.pending = s.pending ∧
      ∀ p ∈ [Part.motion, .rov, .spd, .rate, .chan, .banks, .dies, .whorl, .spin, .bridges, .ports, .loads, .budget, .therm, .dict,
        .sup, .undo], p.same State.reset t := by
  show ∃ t, execKaCollapse x s = .next t ∧ _
  unfold execKaCollapse
  split
  next h' => exact absurd h' h
  next d hd =>
    extract_lets s1 s2 mark s3 s4 s5 time s6 s7 power
    have hk : Unchanged [.it, .mram] s s2 :=
      Unchanged.of_mask (by simp only [s2, s1]; (repeat' split) <;> simp)
    have ht : x.torn = none → s2.mram = s.mram := by
      intro hn
      simp only [s2, hn, s1]
      split <;> rfl
    have h5 : s5.mask [.time, .power, .bob, .skein, .card, .freeCtr] = s2.asleep.mask [.time, .power, .bob, .skein, .card, .freeCtr] := by
      simp [s5, s4, s3]
    have h6 : s6.mask [.time, .power, .bob, .skein, .card, .freeCtr] = s5.mask [.time, .power, .bob, .skein, .card, .freeCtr] :=
      mask_set_time _ _ (by simp)
    have h7 : s7.mask [.time, .power, .bob, .skein, .card, .freeCtr] = s6.mask [.time, .power, .bob, .skein, .card, .freeCtr] := by
      simp [s7]
    have hr : Unchanged [.it, .time, .power, .dis, .bob, .nets, .skein, .card, .mram, .freeCtr, .pending] State.reset s7 :=
      s2.asleep_reset.trans ((Unchanged.of_mask (h7.trans (h6.trans h5))).mono (by simp))
    have hch : s7.chan = State.reset.chan := hr .chan (by simp)
    have hbk : s7.banks = State.reset.banks := hr .banks (by simp)
    have hbr : s7.bridges = State.reset.bridges := hr .bridges (by simp)
    have hpt : s7.ports = State.reset.ports := hr .ports (by simp)
    have hld : s7.loads = State.reset.loads := hr .loads (by simp)
    have hsk : s2.skein = s.skein := hk .skein (by simp)
    have hdi : s2.dis = s.dis := hk .dis (by simp)
    have htm : s2.time = s.time := hk .time (by simp)
    refine ⟨_, rfl, rfl, fun n _ => ?_, fun b _ => ?_, fun h _ => ?_, fun g _ => ?_, fun j _ => ?_, rfl, rfl, rfl, ?_, rfl, ?_, ?_, ?_, ?_,
      rfl, ?_, fun p hp => ?_⟩
    · simp [State.ch, hch, State.reset, Channel.reset]
    · simp [State.bank, hbk, State.reset, Bank.reset]
    · simp [State.br, hbr, State.reset, Bridge.reset]
    · simp [State.pt, hpt, State.reset, Port.reset]
    · simp [State.ld, hld, State.reset, Loads.reset, Load.reset]
    · show (if x.sram then s2.skein.lastWord else []) = _
      rw [hsk]
    · exact congrArg (fun k => TimeBase.marker k && x.sram) htm
    · exact ht
    · show s2.dis.hanks = _
      rw [hdi]
    · show s2.dis.frames = _
      rw [hdi]
    · exact hk .pending (by simp)
    · have hr' := hr.trans ((Unchanged.of_mask (ps := [.power]) (t := s7.modPower (fun p => { Power.reset with
          dev := .noSupply, entered := s7.it, wakeSrc := p.wakeSrc })) (by simp)).mono (by simp))
      have hd : ∀ p ∈ [Part.motion, .rov, .spd, .rate, .chan, .banks, .dies, .whorl, .spin, .bridges, .ports, .loads, .budget,
          .therm, .dict, .sup, .undo],
          p ∉ [Part.it, .time, .power, .dis, .bob, .nets, .skein, .card, .mram, .freeCtr, .pending] := by decide
      exact hr' p (hd p hp)

/-- What a clock fault carries depends on the device state alone. -/
theorem State.faultNow_clock {s t : State} (h : t.power.dev = s.power.dev) (y : IT) :
    t.faultNow 0xE002 255 [] y = s.faultNow 0xE002 255 [] y := by
  simp [State.faultNow, State.faultResponse, h]

/-- CRYSTAL_START_TIMEOUT in BOOT (R15). -/
theorem execCrystalStartTimeout_boot (x : IT) (s : State) (hb : s.power.dev = .boot) (hc : s.power.crystalOk = true) :
    ∃ t, exec (.crystalStartTimeout x) s = .next t ∧ t.power = { s.power with crystalOk := false, eth := false } ∧
      t.time.rc = true ∧ t.sup.reported = s.sup.reported ++ [s.faultNow 0xE002 255 [] (max s.it x)] ∧
      (∀ c, t.canUp c = false) ∧ t.ethUp = false ∧ Unchanged [.it, .time, .power, .nets, .sup] s t := by
  show ∃ t, execCrystalStartTimeout x s = .next t ∧ _
  unfold execCrystalStartTimeout
  rw [if_neg (by simp [hb, hc])]
  extract_lets s1 time nets eth s2
  have h1 : s1.mask [.it, .time, .power, .nets, .sup] = s.mask [.it, .time, .power, .nets, .sup] := by simp [s1]
  have h2 : s2.mask [.it, .time, .power, .nets, .sup] = s1.mask [.it, .time, .power, .nets, .sup] := by simp [s2, State.mask]
  refine ⟨_, rfl, rfl, rfl, ?_, fun c => rfl, rfl, Unchanged.of_mask ((State.report_mask _ _ _ _ (by simp)).trans (h2.trans h1))⟩
  exact congrArg (fun r => s.sup.reported ++ [r]) (State.faultNow_clock (t := s2) rfl _)

/-- CRYSTAL_FAILURE while the crystal is in use (R14). -/
theorem execCrystalFailure_running (x : IT) (s : State) (ha : s.power.dev.awake = true) (hr : s.time.rc = false) :
    ∃ t, exec (.crystalFailure x) s = .next t ∧ t.time = { s.time with rc := true } ∧
      t.sup.reported = s.sup.reported ++ [s.faultNow 0xE002 255 [] (max s.it x)] ∧ Unchanged [.it, .time, .sup] s t := by
  refine ⟨_, by simp only [exec, execCrystalFailure, State.whenAwake, ha, hr, if_true]; rfl, rfl, ?_,
    Unchanged.of_mask (by simp [State.mask])⟩
  exact congrArg (fun r => s.sup.reported ++ [r]) (State.faultNow_clock rfl _)

/-! ### The end of SHUTDOWN (R479 to R481) -/

/-- Step 5 leaves the power unit with its result. -/
theorem State.shutdownDone_power (s : State) (result aon : Nat) :
    (s.shutdownDone result aon).power = { s.power with stage := 5, downRes := result } := by
  unfold State.shutdownDone
  extract_lets s1 ran s2
  rw [State.writeFinal_power, State.skeinFlush_power]
  rfl

theorem State.shutdownDone_keeps (s : State) (result aon : Nat) :
    (s.shutdownDone result aon).it = s.it ∧ (s.shutdownDone result aon).bob = s.bob := by
  have hm : Unchanged [.time, .power, .nets, .skein, .mram, .freeCtr] s (s.shutdownDone result aon) := Unchanged.of_mask (by simp)
  exact ⟨hm .it (by simp), hm .bob (by simp)⟩

/-- A discharge begun does not bring the rail down by itself. -/
theorem State.startDischarge_railDown (s : State) (h : s.bob.state = 3) : s.startDischarge.railDown = s.railDown := by
  simp [State.railDown, State.startDischarge, h]

/-- A return of energy still under way gives place to the active discharge (R255). -/
def State.railOff (s : State) : State := if s.bob.state = 3 then s.startDischarge else s

/-- SHUTDOWN's step 5 on its way: what is still to do before its record. -/
def State.shutdownSettled (s : State) : State :=
  s.finishMap.skeinFlush.finishSlices.railOff

theorem State.shutdownSettled_keeps (s : State) :
    s.shutdownSettled.power.sansDomains = s.power.sansDomains ∧ s.shutdownSettled.it = s.it ∧ s.shutdownSettled.railDown = s.railDown := by
  unfold State.shutdownSettled
  set s1 := s.finishMap.skeinFlush.finishSlices with hs1
  have hm : Unchanged [.time, .power, .rov, .spd, .dis, .nets, .card, .skein, .mram, .freeCtr] s s1 := Unchanged.of_mask (by simp [hs1])
  have hi : s1.it = s.it := hm .it (by simp)
  have hb : s1.bob = s.bob := hm .bob (by simp)
  have hp : s1.power.sansDomains = s.power.sansDomains := by
    simp only [hs1, State.finishSlices_power, State.skeinFlush_power, State.finishMap_sans]
  have hr : s1.railDown = s.railDown := by simp only [State.railDown, hb]
  clear_value s1
  unfold State.railOff
  split
  next h3 =>
    rw [State.startDischarge_railDown s1 h3, State.startDischarge_power]
    exact ⟨hp, hi, hr⟩
  next => exact ⟨hp, hi, hr⟩

/-- The state in which SHUTDOWN's step 5 is done, with its result: COMPLETE, or ABORTED where IGN came back (R481). -/
def State.shutdownClosed (s : State) (aon : Nat) : State :=
  s.shutdownSettled.shutdownDone (if s.shutdownSettled.power.wakeAgain.isSome then 1 else 0) aon

theorem State.shutdownClosed_keeps (s : State) (aon : Nat) :
    (s.shutdownClosed aon).power.dev = s.power.dev ∧ (s.shutdownClosed aon).power.wakeAgain = s.power.wakeAgain ∧
      (s.power.wakeAgain = none → (s.shutdownClosed aon).power.downRes = 0) ∧ (s.shutdownClosed aon).it = s.it ∧
      (s.shutdownClosed aon).railDown = s.railDown := by
  obtain ⟨hp, hi, hr⟩ := s.shutdownSettled_keeps
  obtain ⟨hi', hb'⟩ := s.shutdownSettled.shutdownDone_keeps (if s.shutdownSettled.power.wakeAgain.isSome then 1 else 0) aon
  have hd : s.shutdownSettled.power.dev = s.power.dev := Power.dev_of_sans hp
  have hw : s.shutdownSettled.power.wakeAgain = s.power.wakeAgain := Power.wakeAgain_of_sans hp
  unfold State.shutdownClosed
  rw [State.shutdownDone_power]
  dsimp only
  refine ⟨hd, hw, fun h => ?_, hi'.trans hi, ?_⟩
  · simp [hw, h]
  · rw [← hr]
    simp only [State.railDown, hb']

/-- Before step 5 SHUTDOWN_COMPLETE does it, and ends SHUTDOWN where step 6 is reached. -/
theorem execShutdownComplete_early (x : IT) (a : Nat) (s : State) (hd : s.power.dev = .shutdown) (hc : s.coresAbsent = false)
    (hs : s.power.stage < 5) : exec (.shutdownComplete x a) s = .next ((s.at x).shutdownClosed a).shutdownEnd := by
  show execShutdownComplete x a s = _
  unfold execShutdownComplete
  rw [if_neg (by simp [hd, hc])]
  have h5 : ¬ 5 ≤ (s.at x).power.stage := Nat.not_le.mpr hs
  have hu : ∀ u : State, (
        let v := if u.bob.state = 3 then u.startDischarge else u
        (v.shutdownDone (if v.power.wakeAgain.isSome then 1 else 0) a).shutdownEnd) =
      (u.railOff.shutdownDone (if u.railOff.power.wakeAgain.isSome then 1 else 0) a).shutdownEnd := fun u => rfl
  refine congrArg Host.Outcome.next ((if_neg h5).trans ?_)
  unfold State.shutdownClosed State.shutdownSettled
  exact hu (s.at x).finishMap.skeinFlush.finishSlices

/-- With the rail down and no wake on its way SHUTDOWN ends in STANDBY. -/
theorem State.shutdownEnd_standby (s : State) (hw : s.power.wakeAgain = none) (hr : s.railDown = true) :
    s.shutdownEnd.power.dev = .standby ∧ s.shutdownEnd.power.downRes = s.power.downRes ∧ s.shutdownEnd.it = s.it ∧
      s.shutdownEnd.bob.discharging = false := by
  unfold State.shutdownEnd
  rw [if_neg (by simp [hw]), if_pos hr]
  exact State.enterStandby_power (s.modBob (fun b => { b with discharging := false })) hw

/-- With a wake on its way it ends in a new cold start, whatever the rail. -/
theorem State.shutdownEnd_wakes (s : State) (b : BootIn) (hw : s.power.wakeAgain = some b) :
    s.shutdownEnd.power.dev = .boot ∧ s.shutdownEnd.power.ign = b.ign := by
  unfold State.shutdownEnd
  rw [if_pos (by simp [hw])]
  exact s.enterStandby_wakes b hw

/-- SHUTDOWN_COMPLETE with the rail down ends in STANDBY. -/
theorem execShutdownComplete_standby (x : IT) (a : Nat) (s : State) (hd : s.power.dev = .shutdown) (hw : s.power.wakeAgain = none)
    (hc : s.coresAbsent = false) (hs : s.power.stage < 5) (hr : s.railDown = true) :
    ∃ t, exec (.shutdownComplete x a) s = .next t ∧ t.power.dev = .standby ∧ t.power.downRes = 0 ∧ t.it = max s.it x ∧
      t.bob.discharging = false := by
  obtain ⟨-, hw', hres, hit, hrail⟩ := (s.at x).shutdownClosed_keeps a
  obtain ⟨h1, h2, h3, h4⟩ := ((s.at x).shutdownClosed a).shutdownEnd_standby (hw'.trans hw) (hrail.trans hr)
  exact ⟨_, execShutdownComplete_early x a s hd hc hs, h1, h2.trans (hres hw), h3.trans hit, h4⟩

/-- SHUTDOWN_COMPLETE with the rail up waits for it. -/
theorem execShutdownComplete_waits (x : IT) (a : Nat) (s : State) (hd : s.power.dev = .shutdown) (hw : s.power.wakeAgain = none)
    (hc : s.coresAbsent = false) (hs : s.power.stage < 5) (hr : s.railDown = false) :
    ∃ t, exec (.shutdownComplete x a) s = .next t ∧ t.power.dev = .shutdown ∧ t.power.stage = 6 ∧ t.power.downRes = 0 ∧
      t.it = max s.it x := by
  obtain ⟨hdev, hw', hres, hit, hrail⟩ := (s.at x).shutdownClosed_keeps a
  have he : ((s.at x).shutdownClosed a).shutdownEnd = ((s.at x).shutdownClosed a).modPower (fun p => { p with stage := 6 }) := by
    unfold State.shutdownEnd
    have hw2 : ((s.at x).shutdownClosed a).power.wakeAgain = none := hw'.trans hw
    have hr2 : ((s.at x).shutdownClosed a).railDown = false := hrail.trans hr
    rw [if_neg (by simp [hw2]), if_neg (by simp [hr2])]
  refine ⟨_, (execShutdownComplete_early x a s hd hc hs).trans (congrArg Host.Outcome.next he), ?_⟩
  rw [State.modPower_power, State.modPower_it]
  dsimp only
  exact ⟨hdev.trans hd, rfl, hres hw, hit⟩

/-- SHUTDOWN_COMPLETE waits for the cores that write its records. -/
theorem execShutdownComplete_coresAbsent (x : IT) (a : Nat) (s : State) (hc : s.coresAbsent = true) :
    exec (.shutdownComplete x a) s = .next s := by
  simp [exec, execShutdownComplete, hc]

/-- SHUTDOWN_COMPLETE with a wake on its way, before step 5 or past it. -/
theorem execShutdownComplete_wakes (x : IT) (a : Nat) (b : BootIn) (s : State) (hd : s.power.dev = .shutdown)
    (hw : s.power.wakeAgain = some b) (hc : s.coresAbsent = false) :
    ∃ t, exec (.shutdownComplete x a) s = .next t ∧ t.power.dev = .boot ∧ t.power.ign = b.ign := by
  by_cases hs : s.power.stage < 5
  · obtain ⟨-, hw', -⟩ := (s.at x).shutdownClosed_keeps a
    exact ⟨_, execShutdownComplete_early x a s hd hc hs, State.shutdownEnd_wakes _ b (hw'.trans hw)⟩
  · refine ⟨(s.at x).shutdownEnd, ?_, State.shutdownEnd_wakes _ b hw⟩
    show execShutdownComplete x a s = _
    unfold execShutdownComplete
    rw [if_neg (by simp [hd, hc])]
    exact congrArg Host.Outcome.next (if_pos (Nat.not_lt.mp hs))

/-- The state in which SHUTDOWN_OVERTIME has ended Carding and written the result. -/
def State.overtime (s : State) (x : IT) (aon : Nat) : State :=
  let s := s.at (max x s.overAt)
  let s := (s.abortRun (s.drawn % 256)).draw
  (s.shutdownDone 2 aon).modBob (fun b => { b with discharging := false })

theorem State.overtime_keeps (s : State) (x : IT) (aon : Nat) :
    (s.overtime x aon).power.wakeAgain = s.power.wakeAgain ∧ (s.overtime x aon).power.downRes = 2 ∧
      (s.overtime x aon).it = max s.it (max x s.overAt) ∧ (s.overtime x aon).bob.discharging = false := by
  unfold State.overtime
  extract_lets s1 s2
  have hm : Unchanged [.skein, .card, .freeCtr] s1 s2 := Unchanged.of_mask (by simp [s2])
  have hp : s2.power = s1.power := hm .power (by simp)
  have hi : s2.it = s1.it := hm .it (by simp)
  have hd : ((s2.shutdownDone 2 aon).modBob (fun b => { b with discharging := false })).power = { s2.power with stage := 5, downRes := 2 } :=
    (State.modBob_power _ _).trans (s2.shutdownDone_power 2 aon)
  rw [hd, hp, State.modBob_it]
  dsimp only
  exact ⟨rfl, rfl, (s2.shutdownDone_keeps 2 aon).1.trans hi, rfl⟩

/-- SHUTDOWN_OVERTIME ends SHUTDOWN, whatever its stage. -/
theorem execShutdownOvertime_eq (x : IT) (a : Nat) (s : State) (hd : s.power.dev = .shutdown) :
    exec (.shutdownOvertime x a) s = .next (s.overtime x a).enterStandby := by
  show execShutdownOvertime x a s = _
  unfold execShutdownOvertime
  rw [if_neg (by simp [hd])]
  rfl

/-- SHUTDOWN_OVERTIME ends in STANDBY (R480). -/
theorem execShutdownOvertime_standby (x : IT) (a : Nat) (s : State) (hd : s.power.dev = .shutdown) (hw : s.power.wakeAgain = none) :
    ∃ t, exec (.shutdownOvertime x a) s = .next t ∧ t.power.dev = .standby ∧ t.power.downRes = 2 ∧
      t.it = max s.it (max x (s.power.downAt + 4200000000 + s.pN 0x4400 8 * 1000000)) ∧ t.bob.discharging = false := by
  obtain ⟨hw', hres, hit, hdis⟩ := s.overtime_keeps x a
  obtain ⟨h1, h2, h3, h4⟩ := (s.overtime x a).enterStandby_power (hw'.trans hw)
  exact ⟨_, execShutdownOvertime_eq x a s hd, h1, h2.trans hres, h3.trans hit, h4.trans hdis⟩

/-- With a wake on its way it ends in a new cold start. -/
theorem execShutdownOvertime_wakes (x : IT) (a : Nat) (b : BootIn) (s : State) (hd : s.power.dev = .shutdown)
    (hw : s.power.wakeAgain = some b) :
    ∃ t, exec (.shutdownOvertime x a) s = .next t ∧ t.power.dev = .boot ∧ t.power.ign = b.ign := by
  obtain ⟨hw', -⟩ := s.overtime_keeps x a
  exact ⟨_, execShutdownOvertime_eq x a s hd, (s.overtime x a).enterStandby_wakes b (hw'.trans hw)⟩

/-- Settles O53: the collapse, the crystal, and the ends of SHUTDOWN, each from what its command does. -/
theorem powerEnds : Obligations.PowerEnds := by
  refine ⟨execKaCollapse_supplied, execCrystalStartTimeout_boot, execCrystalFailure_running, fun x a s hd => ⟨fun hw => ?_, fun b hw => ?_⟩⟩
  · refine ⟨fun hc hs hr => ?_, execShutdownComplete_waits x a s hd hw, execShutdownComplete_coresAbsent x a s, ?_⟩
    · obtain ⟨t, h, hdev, hres, hit, -⟩ := execShutdownComplete_standby x a s hd hw hc hs hr
      exact ⟨t, h, hdev, hres, hit⟩
    · obtain ⟨t, h, hdev, hres, hit, -⟩ := execShutdownOvertime_standby x a s hd hw
      exact ⟨t, h, hdev, hres, hit⟩
  · exact ⟨execShutdownComplete_wakes x a b s hd hw, execShutdownOvertime_wakes x a b s hd hw⟩

end Sys2Proof.Machine

end

section

namespace Sys2Proof.Machine

/-! # The frame and the time strobe (R16 to R18) -/

/-! ### The instant of a boundary (R17) -/

/-- The first boundary of the lattice above the last one processed that Izcel time has not passed. -/
theorem State.frameAt_first (s : State) (h : s.time.frame % 1000000 = 0) :
    s.frameAt % 1000000 = 0 ∧ s.time.frame < s.frameAt ∧ s.it ≤ s.frameAt ∧
      ∀ y, y % 1000000 = 0 → s.time.frame < y → s.it ≤ y → s.frameAt ≤ y := by
  unfold State.frameAt boundaryAtOrAfter
  generalize s.time.frame = a at *
  generalize s.it = b at *
  unfold IT at *
  split <;> refine ⟨?_, ?_, ?_, fun y hy h1 h2 => ?_⟩ <;> omega

/-! ### What waits for a boundary (R373, R379, R475) -/

/-- Nothing that waits for a boundary waits for one up to `b`. -/
structure State.Served (s : State) (b : IT) : Prop where
  commit : ∀ w, s.dict.commit = some w → b < w.boundary
  cmd    : ∀ c, s.power.cmd = some c → b < c.boundary
  old    : ∀ o ∈ s.dict.old, b < o.2.2

theorem State.dict_of_mask {s t : State} {ps : List Part} (hd : .dict ∉ ps) (h : t.mask ps = s.mask ps) : t.dict = s.dict :=
  Unchanged.of_mask h .dict hd

/-- A commit boundary leaves no COMMIT on its way. -/
theorem State.commitBoundary_commit (s : State) : s.commitBoundary.dict.commit = none := by
  unfold State.commitBoundary
  split
  next h => exact h
  next w h =>
    have ha : ((s.commitEffect w).commitAnswer w).dict = (s.commitEffect w).dict :=
      State.dict_of_mask (ps := [.nets]) (by simp) (by simp)
    rw [ha]
    unfold State.commitEffect
    extract_lets s1 before s2 s3 s4
    have h2 : s2.dict = (s1.useStaged w).dict :=
      State.dict_of_mask (ps := [.time, .power, .rov, .spd, .dis, .spin, .loads, .budget, .nets, .skein, .mram, .freeCtr, .whorl]) (by simp)
        (by simp [s2])
    have h3 : s3.dict.commit = none := by
      have hu : (s1.useStaged w).dict.commit = none := rfl
      rw [← h2] at hu
      simp only [s3]
      split
      · rw [State.modDict_dict]
        dsimp only
        exact hu
      · exact hu
    have h4 : s4.dict = s3.dict :=
      State.dict_of_mask (ps := [.power, .rov, .spd, .dis, .bob, .whorl, .spin, .bridges, .ports, .loads, .budget, .skein, .card, .freeCtr])
        (by simp) (by simp [s4])
    have h5 : (s4.enterSafe 6).dict = s4.dict :=
      State.dict_of_mask (ps := [.it, .power, .rov, .spd, .dis, .rate, .chan, .banks, .bob, .whorl, .spin, .bridges, .ports, .loads, .budget,
        .skein, .sup, .card, .undo, .freeCtr]) (by simp) (by simp)
    (repeat' split)
    · rw [h5, h4, h3]
    · rw [h4, h3]
    · exact h3

theorem State.enterBare_cmd (s : State) (cause : Nat) : (s.enterBare cause).power.cmd = s.power.cmd := by
  by_cases h : s.power.dev = .run
  · rw [State.enterBare_power _ _ h]
  · unfold State.enterBare
    rw [if_pos h]
    rfl

/-- A state command that has acted waits no longer. -/
theorem State.commandEffect_cmd (s : State) : s.commandEffect.power.cmd = none := by
  unfold State.commandEffect
  cases hc : s.power.cmd with
  | none => exact hc
  | some c =>
    dsimp -zeta only
    extract_lets s1
    have h1 : s1.power.cmd = none := rfl
    clear_value s1
    split
    · exact h1
    · split
      · rw [State.enterRun_power]
        exact h1
      · rw [State.enterRun_power]
        exact h1
      · rw [State.enterBare_cmd, h1]
      · exact (Power.cmd_of_sans (s1.enterReady_sans 0)).trans h1
      · split
        · exact (Power.cmd_of_sans s1.enterService_sans).trans h1
        · exact h1
      · split
        · exact (Power.cmd_of_sans s1.enterService_sans).trans h1
        · exact h1
      · exact h1

/-- What was due at `b` has been served. -/
theorem State.frameDue_served (s : State) (b : IT) : (s.frameDue b).Served b := by
  unfold State.frameDue
  extract_lets s1 s2
  have h1 : ∀ w, s1.dict.commit = some w → b < w.boundary := by
    simp only [s1]
    cases hc : s.dict.commit with
    | none => simp [hc]
    | some w =>
      dsimp only
      split
      · simp [State.commitBoundary_commit]
      next hb =>
        intro w' hw'
        rw [hc] at hw'
        cases hw'
        exact Nat.not_le.mp hb
  have h2 : ∀ w, s2.dict.commit = some w → b < w.boundary := h1
  have h3 : ∀ o ∈ s2.dict.old, b < o.2.2 := by
    intro o ho
    have ho' : o ∈ s1.dict.old.filter (fun o => decide (b < o.2.2)) := ho
    exact of_decide_eq_true (List.mem_filter.mp ho').2
  clear_value s2
  cases hc : s2.power.cmd with
  | none => exact ⟨h2, by simp [hc], h3⟩
  | some c =>
    dsimp only
    split
    · have hd : s2.commandEffect.dict = s2.dict :=
        State.dict_of_mask (ps := [.it, .power, .rov, .spd, .dis, .rate, .chan, .banks, .bob, .whorl, .spin, .bridges, .ports, .loads,
          .budget, .skein, .sup, .card, .undo, .freeCtr]) (by simp) (by simp)
      refine ⟨?_, ?_, ?_⟩
      · rw [hd]; exact h2
      · simp [State.commandEffect_cmd]
      · rw [hd]; exact h3
    next hb =>
      refine ⟨h2, fun c' hc' => ?_, h3⟩
      rw [hc] at hc'
      cases hc'
      exact Nat.not_le.mp hb

/-! ### The steps of the frame (R18) -/

theorem State.dieTime_frame (s : State) (d : Nat) (ps : Int) : (s.dieTime d ps).time.frame = s.time.frame := by
  unfold State.dieTime
  split
  · rfl
  · extract_lets ok time s1
    split <;> rfl

/-- The dies' comparison leaves the frame's instant. -/
theorem State.dieTimes_frame (s : State) (p : Vector Int 4) : (s.dieTimes p).time.frame = s.time.frame := by
  unfold State.dieTimes
  generalize List.range 4 = l
  induction l generalizing s with
  | nil => rfl
  | cons d l ih => exact (ih _).trans (s.dieTime_frame d _)

/-- What waits for a boundary, and the last boundary processed. -/
def State.waits (s : State) : Option CommitWait × List (Nat × Bytes × IT) × Option StateCmd × IT :=
  (s.dict.commit, s.dict.old, s.power.cmd, s.time.frame)

/-- Every part but those that hold what waits for a boundary. -/
abbrev Part.butWaits : List Part :=
  [.it, .motion, .rov, .spd, .dis, .rate, .chan, .banks, .dies, .bob, .whorl, .spin, .bridges, .ports, .loads, .budget,
   .therm, .nets, .skein, .sup, .card, .mram, .undo, .freeCtr, .pending]

theorem State.waits_of_mask {s t : State} (h : t.mask Part.butWaits = s.mask Part.butWaits) : t.waits = s.waits := by
  have hd : t.dict = s.dict := Unchanged.of_mask h .dict (by simp)
  have hp : t.power = s.power := Unchanged.of_mask h .power (by simp)
  have ht : t.time = s.time := Unchanged.of_mask h .time (by simp)
  simp only [State.waits, hd, hp, ht]

theorem State.dieTimes_waits (s : State) (p : Vector Int 4) : (s.dieTimes p).waits = s.waits := by
  have hm : Unchanged [.time, .sup] s (s.dieTimes p) := Unchanged.of_mask (by simp)
  have hd : (s.dieTimes p).dict = s.dict := hm .dict (by simp)
  have hp : (s.dieTimes p).power = s.power := hm .power (by simp)
  simp only [State.waits, hd, hp, State.dieTimes_frame]

theorem State.supplyFrame_waits (s : State) (f : FrameIn) : (s.supplyFrame f).waits = s.waits := by
  unfold State.supplyFrame
  simp only [State.waits, State.modPower_power, State.modPower_dict, State.modPower_time]

theorem State.frameMeasure_waits (s : State) (f : FrameIn) : (s.frameMeasure f).waits = s.waits := by
  unfold State.frameMeasure
  extract_lets s1 s2
  have h2 : ((List.range 128).foldl (fun s n => s.channelFrame f n) (s2.switchesSample f.switchMv)).waits = s1.waits :=
    State.waits_of_mask (by simp [s2])
  have h0 : (s.closeSet.inertialSample f).waits = s.waits := State.waits_of_mask (by simp)
  rw [h2, State.supplyFrame_waits, State.dieTimes_waits, h0]

/-- A state's waits depend on the power unit through its command alone. -/
theorem State.waits_of_cmd {s t : State} {ps : List Part} (h : t.mask ps = s.mask ps) (hd : .dict ∉ ps) (ht : .time ∉ ps)
    (hc : t.power.cmd = s.power.cmd) : t.waits = s.waits := by
  have hd' : t.dict = s.dict := Unchanged.of_mask h .dict hd
  have ht' : t.time = s.time := Unchanged.of_mask h .time ht
  simp only [State.waits, hd', ht', hc]

theorem State.downStage_cmd (s : State) : s.downStage.power.cmd = s.power.cmd := by
  unfold State.downStage
  split
  · rfl
  · rw [State.modPower_power]

theorem State.frameStates_cmd (s : State) : s.frameStates.power.cmd = s.power.cmd := by
  unfold State.frameStates
  extract_lets s1
  have h1 : s1.power.cmd = s.power.cmd := by
    simp only [s1]
    split
    · exact State.enterBare_cmd _ _
    · rfl
  have h2 : s1.frameRequests.spinsFollow.power = s1.power := State.power_of_mask (by simp)
  rw [State.downStage_cmd, Power.cmd_of_sans (State.ctlStart_sans _), h2, h1]

theorem State.frameStates_waits (s : State) : s.frameStates.waits = s.waits :=
  State.waits_of_cmd (ps := [.it, .power, .spd, .dis, .rate, .chan, .banks, .bob, .whorl, .spin, .bridges, .ports, .loads, .budget, .skein,
    .sup, .card, .undo, .freeCtr]) (by simp) (by simp) (by simp) s.frameStates_cmd

theorem State.modStream_waits (s : State) (i : Nat) (f : Stream → Stream) : (s.modStream i f).waits = s.waits := rfl

theorem State.publish_waits (s : State) (b : IT) (i : Nat) : (s.publish b i).waits = s.waits := by
  have h1 : (s.streamSample b i).waits = s.waits := by
    unfold State.streamSample
    split
    · rfl
    · exact State.modStream_waits _ _ _
  rw [← h1]
  unfold State.publish State.streamSend
  generalize s.streamSample b i = u
  extract_lets x
  split
  · rfl
  · split
    · rfl
    · rw [State.modStream_waits]
      exact State.waits_of_mask (by simp)

/-- The streams leave what waits for a boundary. -/
theorem State.frameStreams_waits (s : State) (b : IT) : (s.frameStreams b).waits = s.waits := by
  have hf : ∀ (l : List Nat) (u : State), (l.foldl (fun s i => s.publish b i) u).waits = u.waits := by
    intro l
    induction l with
    | nil => exact fun u => rfl
    | cons i l ih => exact fun u => (ih _).trans (u.publish_waits b i)
  unfold State.frameStreams
  split
  · rfl
  · exact hf _ _

/-- The units' steps of a frame, from the measurements to the streams. -/
def State.frameSteps (s : State) (b : IT) (f : FrameIn) : State :=
  let s := (((s.frameMeasure f).framePower f).frameStates).frameMap b
  let s := if s.power.dev = .run then s.spdFrame b f.fills else { s.spdStands with undo := none }
  s.frameStreams b

theorem State.frameSteps_waits (s : State) (b : IT) (f : FrameIn) : (s.frameSteps b f).waits = s.waits := by
  unfold State.frameSteps
  extract_lets s1 s2 s3
  have h1 : s1.waits = s.waits := by
    have hp : ((s.frameMeasure f).framePower f).waits = (s.frameMeasure f).waits := State.waits_of_mask (by simp)
    have hm : s1.waits = ((s.frameMeasure f).framePower f).frameStates.waits := State.waits_of_mask (by simp [s1])
    rw [hm, State.frameStates_waits, hp, State.frameMeasure_waits]
  have h3 : s3.waits = s1.waits := by
    simp only [s3, s2]
    clear_value s1
    split
    · exact State.waits_of_mask (by simp)
    · exact State.waits_of_mask (by simp)
  rw [State.frameStreams_waits, h3, h1]

theorem State.frameSteps_later {r : State} (s : State) (b : IT) (f : FrameIn) (h : Later r s) : Later r (s.frameSteps b f) := by
  unfold State.frameSteps
  extract_lets s1 s2 s3
  have h1 : Later r s1 := State.frameMap_later _ b (State.frameStates_later _ (State.framePower_later _ f (State.frameMeasure_later _ f h)))
  have h3 : Later r s3 := by
    simp only [s3, s2]
    split
    · exact State.spdFrame_later _ _ _ h1
    · exact (State.spdStands_later _ h1).upd _ _ _ _ _ _ _ _ _ _ _ _ _ _ _ _ _ _ _ _ _ _ _ _
  exact State.frameStreams_later _ b h3

/-- A frame is at its boundary and leaves nothing waiting for one up to it. -/
theorem State.frame_served (s : State) (b : IT) (f : FrameIn) :
    (s.frame b f).time.frame = b ∧ b ≤ (s.frame b f).it ∧ (s.frame b f).Served b := by
  obtain ⟨hcommit, hcmd, hold⟩ := s.frameDue_served b
  generalize hu : s.frameDue b = u at *
  have he : s.frame b f = State.frameSteps { u.at b with time := { (u.at b).time with frame := b } } b f := by
    simp only [State.frame, State.frameSteps, hu]
  have hw := State.frameSteps_waits { u.at b with time := { (u.at b).time with frame := b } } b f
  have hl := State.frameSteps_later { u.at b with time := { (u.at b).time with frame := b } } b f (Later.refl _)
  rw [← he] at hw hl
  simp only [State.waits, Prod.mk.injEq] at hw
  obtain ⟨hwc, hwo, hwm, hwf⟩ := hw
  refine ⟨hwf, Nat.le_trans (Nat.le_max_right u.it b) hl.it, ?_, ?_, ?_⟩
  · rw [hwc]; exact hcommit
  · rw [hwm]; exact hcmd
  · rw [hwo]; exact hold

/-- FRAME_BOUNDARY (R17, R18). -/
theorem execFrameBoundary_awake (f : FrameIn) (s : State) (ha : s.power.dev.awake = true) :
    ∃ t, exec (.frameBoundary f) s = .next t ∧ t.time.frame = s.frameAt ∧ s.frameAt ≤ t.it ∧ t.Served s.frameAt := by
  refine ⟨s.frame s.frameAt f, ?_, s.frame_served s.frameAt f⟩
  simp only [exec, execFrameBoundary, State.whenAwake, ha, if_true]

/-! ### The time strobe (R16) -/

/-- A comparison does not touch the dies. -/
theorem State.dieTime_die (s : State) (d e : Nat) (ps : Int) : (s.dieTime d ps).die e = s.die e := by
  have hm : (s.dieTime d ps).dies = s.dies := Unchanged.of_mask (ps := [.time, .sup]) (by simp) .dies (by simp)
  simp only [State.die, hm]

/-- Whether the local time of a die agrees, as a comparison notes it. -/
theorem State.dieTime_ok (s : State) (d e : Nat) (ps : Int) (hd : d < 4) :
    vget (s.dieTime d ps).time.strobeOk e true =
      if e = d ∧ (s.die d).state ≠ 2 then decide (ps.natAbs ≤ 12500) else vget s.time.strobeOk e true := by
  unfold State.dieTime
  split
  next h => rw [if_neg (fun q => q.2 h)]
  next h =>
    extract_lets ok time s1
    have h1 : s1.time.strobeOk = vset s.time.strobeOk d ok := rfl
    have h2 : (if ok then s1 else s1.report 0xE002 d []).time.strobeOk = vset s.time.strobeOk d ok := by
      split
      · exact h1
      · rw [State.report_time, h1]
    rw [h2]
    by_cases he : e = d
    · rw [he, vget_vset_same _ _ _ _ hd, if_pos ⟨rfl, h⟩]
    · rw [vget_vset_other _ _ _ _ _ (Ne.symm he), if_neg (fun q => he q.1)]

/-- What a comparison of the four dies notes of each that runs. -/
theorem State.dieTimes_ok (s : State) (p : Vector Int 4) (d : Nat) (hd : d < 4) (hs : (s.die d).state ≠ 2) :
    vget (s.dieTimes p).time.strobeOk d true = decide ((vget p d 0).natAbs ≤ 12500) := by
  have hf : ∀ (l : List Nat) (u : State), (∀ e ∈ l, e < 4) → (u.die d).state ≠ 2 →
      vget (l.foldl (fun s d => s.dieTime d (vget p d 0)) u).time.strobeOk d true =
        if d ∈ l then decide ((vget p d 0).natAbs ≤ 12500) else vget u.time.strobeOk d true := by
    intro l
    induction l with
    | nil => exact fun u _ _ => rfl
    | cons e l ih =>
      intro u hl hu
      refine (ih _ (fun q hq => hl q (List.mem_cons_of_mem _ hq)) (by rw [State.dieTime_die]; exact hu)).trans ?_
      rw [State.dieTime_ok u e d _ (hl e List.mem_cons_self)]
      by_cases he : d = e
      · subst he
        simp [hu]
      · simp [he]
  unfold State.dieTimes
  rw [hf _ s (fun e he => List.mem_range.mp he) hs, if_pos (List.mem_range.mpr hd)]

theorem State.dieTimes_it (s : State) (p : Vector Int 4) : (s.dieTimes p).it = s.it :=
  Unchanged.of_mask (s := s) (State.dieTimes_mask (ps := [.time, .sup]) s p (by simp)) .it (by simp)

/-- DIE_TIME_STROBE (R16). -/
theorem execDieTimeStrobe_awake (p : Vector Int 4) (s : State) (ha : s.power.dev.awake = true) :
    ∃ t, exec (.dieTimeStrobe p) s = .next t ∧ t.it = (s.it / 25000 + 1) * 25000 ∧
      (∀ d, d < 4 → (s.die d).state ≠ 2 → vget t.time.strobeOk d true = decide ((vget p d 0).natAbs ≤ 12500)) ∧
      Unchanged [.it, .time, .sup] s t := by
  refine ⟨(s.at ((s.it / 25000 + 1) * 25000)).dieTimes p, by simp only [exec, execDieTimeStrobe, State.whenAwake, ha, if_true], ?_,
    fun d hd hs => State.dieTimes_ok _ p d hd hs, Unchanged.of_mask (by simp)⟩
  rw [State.dieTimes_it, State.at_it]
  generalize s.it = a
  unfold IT at *
  omega

/-- Settles O54: the frame by what it leaves waiting and the lattice's next point, the strobe die by die. -/
theorem frameAndStrobe : Obligations.FrameAndStrobe := by
  refine ⟨fun f s ha => ?_, execDieTimeStrobe_awake⟩
  obtain ⟨t, he, hf, hi, ⟨hcommit, hcmd, hold⟩⟩ := execFrameBoundary_awake f s ha
  exact ⟨t, he, hf, hi, s.frameAt_first, hcommit, hcmd, hold⟩

end Sys2Proof.Machine

end

section

namespace Sys2Proof.Machine

/-! # Power, states, the frame and the supervisor: their commands complete -/

/-! ### Supply, key and wake (R474, R478, R483) -/

/-- POWER_ON without supply is a cold start. -/
theorem execPowerOn_noSupply (b : BootIn) (s : State) (h : s.power.dev = .noSupply) :
    ∃ t, exec (.powerOn b) s = .next t ∧ t.power.dev = .boot ∧ t.power.ign = b.ign :=
  ⟨s.coldStart b 0 b.ign, by simp only [exec, execPowerOn, h, if_true], State.coldStart_dev _ _ _ _, State.coldStart_ign _ _ _ _⟩

/-- IGN_ON in STANDBY is a cold start with the key on. -/
theorem execIgnOn_standby (x : IT) (b : BootIn) (s : State) (h : s.power.dev = .standby) :
    ∃ t, exec (.ignOn x b) s = .next t ∧ t.power.dev = .boot ∧ t.power.ign = true :=
  ⟨s.coldStart b 1 true, by simp only [exec, execIgnOn, h], State.coldStart_dev _ _ _ _, State.coldStart_ign _ _ _ _⟩

/-- CAN_A_WAKE in a STANDBY that listens is a cold start. -/
theorem execCanAWake_standby (b : BootIn) (s : State) (h : s.power.dev = .standby) (hl : s.power.listening = true) :
    ∃ t, exec (.canAWake b) s = .next t ∧ t.power.dev = .boot ∧ t.power.wakeSrc = 2 := by
  refine ⟨s.coldStart b 2 b.ign, ?_, State.coldStart_dev _ _ _ _, State.coldStart_wakeSrc _ _ _ _⟩
  simp [exec, execCanAWake, h, hl]

/-- What an entry to SHUTDOWN leaves of the power unit. -/
theorem State.enterShutdown_power (s : State) (cause : Nat) :
    (s.enterShutdown cause).power.dev = .shutdown ∧ (s.enterShutdown cause).power.ign = s.power.ign ∧
      (s.enterShutdown cause).power.downAt = s.it ∧ (s.enterShutdown cause).power.wakeHold = none := by
  have h := s.enterShutdown_sans cause
  exact ⟨Power.dev_of_sans h, (Power.ign_of_sans h).trans rfl, Power.downAt_of_sans h, Power.wakeHold_of_sans h⟩

/-- IGN_OFF without a wake hold enters SHUTDOWN from every state that runs. -/
theorem execIgnOff_awake (x : IT) (s : State)
    (h : s.power.dev = .unconfigured ∨ s.power.dev = .ready ∨ s.power.dev = .run ∨ s.power.dev = .bare ∨ s.power.dev = .safe ∨
      s.power.dev = .service) (hw : s.power.wakeHold = none) :
    ∃ t, exec (.ignOff x) s = .next t ∧ t.power.dev = .shutdown ∧ t.power.ign = false ∧ t.power.downAt = max s.it x := by
  obtain ⟨hd, hi, ha, -⟩ := ((s.at x).modPower (fun p => { p with ign := false })).enterShutdown_power 4
  refine ⟨_, ?_, hd, hi, ha⟩
  rcases h with h | h | h | h | h | h <;> simp [exec, execIgnOff, h, hw]

/-- WAKE_HOLD_EXPIRY with the key off enters SHUTDOWN. -/
theorem execWakeHoldExpiry_ignOff (x : IT) (s : State) (hw : s.power.wakeHold = some x) (hi : s.power.ign = false)
    (h : s.power.dev = .unconfigured ∨ s.power.dev = .ready ∨ s.power.dev = .safe ∨ s.power.dev = .service) :
    ∃ t, exec .wakeHoldExpiry s = .next t ∧ t.power.dev = .shutdown ∧ t.power.wakeHold = none ∧ t.power.downAt = max s.it x := by
  obtain ⟨hd, -, ha, hn⟩ := ((s.at x).modPower (fun p => { p with wakeHold := none })).enterShutdown_power 7
  refine ⟨_, ?_, hd, hn, ha⟩
  rcases h with h | h | h | h <;> simp [exec, execWakeHoldExpiry, State.whenAwake, DevState.awake, h, hw, hi]

/-- BOOT_COMPLETE with the key on: UNCONFIGURED, the dies running. -/
theorem execBootComplete_ignOn (x : IT) (s : State) (h : s.power.dev = .boot) (hr : s.bootRom = false) (hi : s.power.ign = true) :
    ∃ t, exec (.bootComplete x) s = .next t ∧ t.power.dev = .unconfigured ∧ (∀ d, d < 4 → (t.die d).state = 1) := by
  show ∃ t, execBootComplete x s = .next t ∧ _
  unfold execBootComplete
  rw [if_neg (by simp [h, hr])]
  extract_lets s1 s2 hold s3
  have h2 : s2.power.ign = true := hi
  have h3 : s3 = (s2.setDev .unconfigured 5).modPower (fun p => { p with wakeHold := hold }) := by
    simp only [s3]
    rw [if_pos (by simp [h2])]
  have ht : Unchanged [.nets, .freeCtr, .skein] s3 ((s3.record 0xF002 0 (le 1 s3.power.wakeSrc)).firstBeat) := Unchanged.of_mask (by simp)
  have hp : ((s3.record 0xF002 0 (le 1 s3.power.wakeSrc)).firstBeat).power = s3.power := ht .power (by simp)
  have hd : ((s3.record 0xF002 0 (le 1 s3.power.wakeSrc)).firstBeat).dies = s3.dies := ht .dies (by simp)
  have hd3 : s3.dies = s2.dies := by
    rw [h3]
    exact Unchanged.of_mask (ps := [.power, .dis, .spin, .skein, .card, .freeCtr]) (s := s2) (by simp) .dies (by simp)
  refine ⟨_, rfl, ?_, fun d hd4 => ?_⟩
  · rw [hp, h3, State.modPower_power, State.setDev_power]
  · unfold State.die
    rw [hd, hd3]
    simp [s2, vget, hd4]

/-! ### State commands (R475, R476) -/

/-- The descriptor of P 0x4400.02. -/
def stateCommandDesc : Desc :=
  { base := 0x4400, count := 1, sub := 2, ty := 9, size := 1, var := false, unit := 1, acc := 2, cls := 1, el := 0, lo := 0, hi := 0,
    mask := 62, dn := 1, dw := 1, dv := 0 }

theorem findDesc_stateCommand : findDesc 0x4400 2 = some stateCommandDesc := by decide +kernel

/-- A state command that is accepted, from what it does to the state in which it is served. -/
theorem State.hostWrite_stateCommand {s u : State} {r : Req} {x : Session} (h : s.Takes r x) (b : Byte)
    (hb : valueFail stateCommandDesc 0x4400 2 [b] = none) (hc : (s.served r).stateCommand x.level b.toNat = (u, 0))
    (hm : Unchanged [.it, .power, .rov, .spd, .dis, .rate, .chan, .banks, .bob, .whorl, .spin, .bridges, .ports, .loads, .budget,
      .skein, .sup, .card, .undo, .freeCtr] (s.served r) u) (hit : u.it = max s.it r.rx) :
    (s.hostWrite r 0x4400 2 [b]).power = u.power ∧ s.Accepted (s.hostWrite r 0x4400 2 [b]) r := by
  have hcmd : (s.served r).writeCommand r.sid x.level 0x4400 2 [b] = (u, 0) := by
    rw [← hc]
    simp [State.writeCommand, leNat]
  have hn : u.nets = (s.served r).nets := hm .nets (by simp)
  have hd : u.dict = (s.served r).dict := hm .dict (by simp)
  have hy : u.session r.sid = some x := by
    rw [State.session, hn]
    exact (State.served_session r.sid).trans h.known
  obtain ⟨n, he, hacc, -⟩ := State.hostWrite_accepted h (by decide +kernel) (by decide) findDesc_stateCommand rfl rfl (by decide +kernel) hb
    (by decide) (.inr (.inl (by decide))) (by decide) hcmd hy hit (by rw [hd]; rfl) (by rw [hd]; rfl)
  refine ⟨?_, hacc⟩
  rw [he]

/-- A state command that waits for its boundary. -/
theorem State.hostWrite_acceptState {s : State} {r : Req} {x : Session} (h : s.Takes r x) (b : Byte) (n : Nat)
    (hb : valueFail stateCommandDesc 0x4400 2 [b] = none)
    (hc : (s.served r).stateCommand x.level b.toNat = (s.served r).acceptState n) :
    (s.hostWrite r 0x4400 2 [b]).power.cmd = some ⟨n, boundaryAtOrAfter (max s.it r.rx + 100000)⟩ ∧
      s.Accepted (s.hostWrite r 0x4400 2 [b]) r := by
  obtain ⟨hp, ha⟩ := State.hostWrite_stateCommand h b hb hc (Unchanged.of_mask (by simp)) rfl
  exact ⟨by rw [hp]; rfl, ha⟩

theorem execCmdRun_accepted (r : Req) (x : Session) (s : State) (h : s.Takes r x) (hr : (s.served r).runRefusal = 0) :
    ∃ t, exec (.cmdRun r) s = .next t ∧ t.power.cmd = some ⟨1, boundaryAtOrAfter (max s.it r.rx + 100000)⟩ ∧ s.Accepted t r :=
  ⟨_, rfl, State.hostWrite_acceptState h 1 1 (by decide +kernel) (if_pos hr)⟩

theorem execCmdBare_accepted (r : Req) (x : Session) (s : State) (h : s.Takes r x) (hd : s.power.dev = .run) (ht : s.sup.thermal = false) :
    ∃ t, exec (.cmdBare r) s = .next t ∧ t.power.cmd = some ⟨2, boundaryAtOrAfter (max s.it r.rx + 100000)⟩ ∧ s.Accepted t r := by
  refine ⟨_, rfl, State.hostWrite_acceptState h 2 2 (by decide +kernel) ?_⟩
  have ht' : (s.served r).sup.thermal = false := ht
  simp [State.stateCommand, hd, ht']

theorem execCmdReady_accepted (r : Req) (x : Session) (s : State) (h : s.Takes r x) (hd : s.power.dev = .safe)
    (ht : s.sup.thermal = false) (hf : s.safeFault = false) :
    ∃ t, exec (.cmdReady r) s = .next t ∧ t.power.cmd = some ⟨4, boundaryAtOrAfter (max s.it r.rx + 100000)⟩ ∧ s.Accepted t r := by
  refine ⟨_, rfl, State.hostWrite_acceptState h 4 4 (by decide +kernel) ?_⟩
  have ht' : (s.served r).sup.thermal = false := ht
  have hf' : (s.served r).safeFault = false := hf
  simp [State.stateCommand, hd, ht', hf']

theorem execCmdService_accepted (r : Req) (x : Session) (s : State) (h : s.Takes r x) (hl : 3 ≤ x.level)
    (hd : s.power.dev = .ready ∨ s.power.dev = .safe) (hc : s.card.life = 2 ∨ s.card.life = 3)
    (hf : s.power.dev = .safe → s.safeFault = false) :
    ∃ t, exec (.cmdService r) s = .next t ∧ t.power.cmd = some ⟨5, boundaryAtOrAfter (max s.it r.rx + 100000)⟩ ∧ s.Accepted t r := by
  refine ⟨_, rfl, State.hostWrite_acceptState h 5 5 (by decide +kernel) ?_⟩
  have hf' : s.power.dev = .safe → (s.served r).safeFault = false := hf
  show (if x.level < 3 then _ else if _ then _ else if _ then _ else _) = _
  rw [if_neg (Nat.not_lt.mpr hl), if_neg ?_, if_neg ?_]
  · simp only [State.served_power]
    rintro ⟨h1, h2⟩
    rw [hf' h1] at h2
    cases h2
  · rcases hd with hd | hd <;> rcases hc with hc | hc <;> simp [hd, hc]

/-- Entry to SAFE takes no time. -/
theorem State.enterSafe_it (s : State) (cause : Nat) : (s.enterSafe cause).it = s.it := by
  unfold State.enterSafe
  split
  · rfl
  · extract_lets s1 s2 s3 s4 s5 s6
    have h2 : s2.it = s.it :=
      Unchanged.of_mask (s := s) (t := s2) (ps := [.power, .dis, .spin, .skein, .card, .freeCtr, .rate, .chan, .banks, .bridges, .budget,
        .sup, .undo]) (by simp [s2, s1]) .it (by simp)
    have h3 : s3.it = s2.it := State.closeChannels_it s2
    have h6 : s6.loadsFollow.spinsFollow.it = s3.it :=
      Unchanged.of_mask (s := s3) (t := s6.loadsFollow.spinsFollow) (ps := [.power, .rov, .spd, .dis, .bob, .whorl, .spin, .bridges, .ports,
        .loads, .budget, .skein, .sup, .freeCtr]) (by simp [s6, s5, s4]) .it (by simp)
    rw [h6, h3, h2]

theorem execCmdSafe_accepted (r : Req) (x : Session) (s : State) (h : s.Takes r x)
    (hd : s.power.dev = .ready ∨ s.power.dev = .run ∨ s.power.dev = .bare) :
    ∃ t, exec (.cmdSafe r) s = .next t ∧ t.power.dev = .safe ∧ t.power.cmd = none ∧ s.Accepted t r := by
  have hs := State.enterSafe_sans ((s.served r).modPower (fun p => { p with cmdResult := 0, cmd := none })) 0 hd
  obtain ⟨hp, ha⟩ := State.hostWrite_stateCommand h 3 (by decide +kernel)
    (u := ((s.served r).modPower (fun p => { p with cmdResult := 0, cmd := none })).enterSafe 0)
    (if_neg (by rcases hd with hd | hd | hd <;> simp [hd])) (Unchanged.of_mask (by simp)) (State.enterSafe_it _ _)
  refine ⟨_, rfl, ?_, ?_, ha⟩
  · rw [hp, Power.dev_of_sans hs]
  · rw [hp, Power.cmd_of_sans hs]
    rfl

/-- STATE_COMMAND_EFFECT of BARE in RUN. -/
theorem execStateCommandEffect_bare (c : StateCmd) (s : State) (hc : s.power.cmd = some c) (ht : c.target = 2)
    (hd : s.power.dev = .run) (hth : s.sup.thermal = false) :
    ∃ t, exec .stateCommandEffect s = .next t ∧ t.power.dev = .bare ∧ t.power.cmd = none ∧ max s.it c.boundary ≤ t.it := by
  have he : s.commandEffect = ((s.at c.boundary).modPower (fun p => { p with cmd := none })).enterBare 0 := by
    simp [State.commandEffect, hc, ht, hd, hth]
  have hi : (((s.at c.boundary).modPower (fun p => { p with cmd := none })).enterBare 0).it = max s.it c.boundary :=
    Unchanged.of_mask (s := (s.at c.boundary).modPower (fun p => { p with cmd := none })) (State.enterBare_mask (ps := [.power, .spd, .dis, .rate,
      .chan, .banks, .bob, .whorl, .spin, .bridges, .ports, .loads, .budget, .skein, .sup, .card, .undo, .freeCtr]) _ 0 (by simp)) .it (by simp)
  refine ⟨s.commandEffect, rfl, ?_, State.commandEffect_cmd s, ?_⟩
  · have hp := State.enterBare_power ((s.at c.boundary).modPower (fun p => { p with cmd := none })) 0 hd
    rw [he, hp]
  · rw [he, hi]

/-! ### Faults detected and cleared (R455, R458) -/

theorem State.enterSafe_active (s : State) (cause : Nat) : (s.enterSafe cause).sup.active = s.sup.active := by
  unfold State.enterSafe
  split
  · rfl
  · extract_lets s1 s2 s3 s4 s5 s6
    have h1 : s1.sup.active = s.sup.active := by
      have hr : s1.sup = s.discardEdges.sup :=
        Unchanged.of_mask (s := s.discardEdges) (t := s1) (ps := [.rate]) (by simp [s1]) .sup (by simp)
      rw [hr]
      rfl
    have h5 : s5.sup = s1.sup :=
      Unchanged.of_mask (s := s1) (t := s5) (ps := [.it, .power, .rov, .spd, .dis, .chan, .banks, .bob, .whorl, .spin, .bridges, .ports, .loads,
        .budget, .skein, .card, .freeCtr]) (by simp [s5, s4, s3, s2]) .sup (by simp)
    have h6 : s6.loadsFollow.spinsFollow.sup = s6.sup :=
      Unchanged.of_mask (s := s6) (t := s6.loadsFollow.spinsFollow) (ps := [.spin, .loads, .budget, .skein]) (by simp) .sup (by simp)
    have h6' : s6.sup.active = s5.sup.active := by
      simp only [s6, State.modSup_sup]
    rw [h6, h6', h5, h1]

theorem State.respond_active (s : State) (code resp : Nat) : (s.respond code resp).sup.active = s.sup.active := by
  unfold State.respond
  split
  · exact s.enterSafe_active _
  · split <;> rfl

/-- A die reset may report; it clears no fault. -/
theorem State.dieReset_active (s : State) (d cause : Nat) (t : IT) : (s.dieReset d cause t).sup.active = s.sup.active := by
  unfold State.dieReset
  split
  · rfl
  · extract_lets s1 recent s2 therm s3 s4
    have h2 : s2.sup = s.sup :=
      Unchanged.of_mask (s := s) (t := s2) (ps := [.it, .dis, .chan, .banks, .dies, .budget]) (by simp [s2, s1]) .sup (by simp)
    clear_value s2
    have h4 : s4.sup = s.sup := h2
    rw [← h4]
    split <;> rfl

theorem State.faultAction_active (s : State) (code subj resp : Nat) : (s.faultAction code subj resp).sup.active = s.sup.active := by
  unfold State.faultAction
  split
  · exact s.dieReset_active _ _ _
  · split
    · extract_lets s1
      have h1 : s1.sup.active = s.sup.active := by rfl
      split
      · have hc : (s1.closeCh subj s1.it .ordered).sup = s1.sup :=
          Unchanged.of_mask (s := s1) (State.closeCh_mask (ps := [.it, .dis, .chan, .banks, .budget]) s1 _ _ _ (by simp)) .sup (by simp)
        rw [hc, h1]
      · exact h1
    · rfl

/-- A fault noted is active, with its response. -/
theorem State.noteFault_active (s : State) (r : Report) (resp : Nat) :
    ∃ a ∈ (s.noteFault r resp).sup.active, a.code = r.code ∧ a.subj = r.subj ∧ a.resp = resp := by
  refine ⟨⟨r.it, r.code, r.subj, resp⟩, ?_, rfl, rfl, rfl⟩
  unfold State.noteFault
  extract_lets s1 a
  show a ∈ (if s1.sup.active.any (fun x => x.code == r.code && x.subj == r.subj)
      then s1.sup.active.map (fun x => if x.code == r.code && x.subj == r.subj then a else x) else s1.sup.active ++ [a])
  split
  next h =>
    obtain ⟨y, hy, hm⟩ := List.any_eq_true.mp h
    exact List.mem_map.mpr ⟨y, hy, if_pos hm⟩
  next => exact List.mem_append_right _ (List.mem_singleton.mpr rfl)

/-- Handling a fault other than LOCKSTEP notes it with its own response. -/
theorem State.handleFault_active (s : State) (r : Report) (h : r.code ≠ 0xE001) :
    (s.handleFault r).sup.active = (s.noteFault r r.resp).sup.active := by
  unfold State.handleFault
  extract_lets resp s1 s2 dict s3 s4
  have hr : resp = r.resp := by simp [resp, h]
  have h1 : s1 = s.noteFault r r.resp := by simp only [s1, hr]
  have h2 : s2 = s1 := if_neg (by simp [h])
  have h3 : s3.sup = s2.sup := by
    simp only [s3]
    split <;> rfl
  have h4 : s4.sup.active = s3.sup.active := (State.respond_active _ _ _).trans (State.faultAction_active _ _ _ _)
  rw [if_neg (fun q => h q.1), h4, h3, h2, h1]

/-- FAULT_DETECTED takes the oldest report. -/
theorem execFaultDetected_reported (q : Report) (l : List Report) (x : IT) (s : State) (ha : s.power.dev.awake = true)
    (hq : s.sup.reported = q :: l) (hc : q.code ≠ 0xE001) :
    ∃ t, exec (.faultDetected x none) s = .next t ∧
      ∃ a ∈ t.sup.active, (a.code = q.code ∧ a.subj = q.subj ∧ a.resp = q.resp) := by
  refine ⟨((s.at x).modSup (fun f => { f with reported := l })).handleFault q, ?_, ?_⟩
  · simp only [exec, execFaultDetected, State.whenAwake, ha, hq, if_true]
  · rw [State.handleFault_active _ _ hc]
    exact State.noteFault_active _ _ _

/-- The descriptor of P 0x4100.08. -/
def clearFaultsDesc : Desc :=
  { base := 0x4100, count := 1, sub := 8, ty := 1, size := 1, var := false, unit := 1, acc := 2, cls := 1, el := 0, lo := 1, hi := 1,
    mask := 0, dn := 1, dw := 1, dv := 0 }

theorem findDesc_clearFaults : findDesc 0x4100 8 = some clearFaultsDesc := by decide +kernel

/-- A fault cleared leaves the active faults, and no other does. -/
theorem State.clearOne_active (s : State) (a : ActiveFault) :
    (s.clearOne a).sup.active = s.sup.active.filter (fun b => !(b.code == a.code && b.subj == a.subj)) := by
  unfold State.clearOne
  extract_lets s1
  have h1 : s1.sup = (s.faultEnds a.code a.subj).sup :=
    Unchanged.of_mask (s := s.faultEnds a.code a.subj) (t := s1)
      (ps := [.dis, .banks, .spin, .bridges, .ports, .loads, .budget, .skein, .freeCtr]) (by simp [s1]) .sup (by simp)
  rw [State.record_sup, h1]
  rfl

/-- Several faults cleared, one after the other. -/
theorem State.clearOnes_active (l : List ActiveFault) (s : State) :
    (l.foldl State.clearOne s).sup.active = s.sup.active.filter (fun b => !(l.any (fun a => b.code == a.code && b.subj == a.subj))) := by
  induction l generalizing s with
  | nil => simp
  | cons a l ih =>
    rw [List.foldl_cons, ih, State.clearOne_active, List.filter_filter]
    simp [Bool.and_comm]

/-- A request's receipt does not move what a fault's cause depends on. -/
theorem State.served_causeGone (s : State) (r : Req) (a : ActiveFault) : (s.served r).causeGone a = s.causeGone a := by
  obtain ⟨n, he, -, hc, -⟩ := State.served_eq (s := s) (r := r)
  rw [he]
  unfold State.causeGone
  dsimp only
  rw [hc]
  rfl

theorem State.served_sup (s : State) (r : Req) : (s.served r).sup = s.sup := rfl

/-- The faults that a host's clearing leaves active. -/
theorem State.clearFaults_active (s : State) :
    s.clearFaults.sup.active = s.sup.active.filter (fun a => !(s.sup.active.any (fun b =>
      b.code == a.code && b.subj == a.subj && !(coldOnly b.code b.subj) && s.causeGone b))) := by
  unfold State.clearFaults
  rw [State.clearOnes_active]
  congr 1
  funext a
  rw [List.any_filter]
  congr 2
  funext b
  rw [BEq.comm (a := a.code), BEq.comm (a := a.subj)]
  simp only [Bool.and_comm, Bool.and_assoc]

/-- CLEAR_FAULTS. -/
theorem execClearFaults_accepted (r : Req) (x : Session) (s : State) (h : s.Takes r x) :
    ∃ t, exec (.clearFaults r) s = .next t ∧ s.Accepted t r ∧
      t.sup.active = s.sup.active.filter (fun a => !(s.sup.active.any (fun b =>
        b.code == a.code && b.subj == a.subj && !(coldOnly b.code b.subj) && s.causeGone b))) := by
  have hcmd : (s.served r).writeCommand r.sid x.level 0x4100 8 [1] = ((s.served r).clearFaults, 0) := by
    simp [State.writeCommand]
  have hm : Unchanged [.dis, .banks, .spin, .bridges, .ports, .loads, .budget, .skein, .sup, .freeCtr] (s.served r) (s.served r).clearFaults :=
    Unchanged.of_mask (by simp)
  have hn : (s.served r).clearFaults.nets = (s.served r).nets := hm .nets (by simp)
  have hd : (s.served r).clearFaults.dict = (s.served r).dict := hm .dict (by simp)
  have hy : (s.served r).clearFaults.session r.sid = some x := by
    rw [State.session, hn]
    exact (State.served_session r.sid).trans h.known
  obtain ⟨n, he, hacc, -⟩ := State.hostWrite_accepted h (by decide +kernel) (by decide) findDesc_clearFaults rfl rfl (by decide +kernel)
    (by decide +kernel) (by decide) (.inr (.inl (by decide))) (by decide) hcmd hy (hm .it (by simp)) (by rw [hd]; rfl) (by rw [hd]; rfl)
  refine ⟨_, rfl, hacc, ?_⟩
  have ht : (s.hostWrite r 0x4100 8 [1]).sup = (s.served r).clearFaults.sup := by rw [he]
  rw [ht, State.clearFaults_active]
  simp only [State.served_causeGone, State.served_sup]

/-! ### The cores, the host and the pull-ins of the bare mode -/

/-- HOST_LOSS of a controlling session. -/
theorem execHostLoss_controlled (i : SessionId) (y : Session) (s : State) (hc : s.nets.ctrl = some i) (hy : s.session i = some y)
    (hg : s.sup.hostGone = false) :
    ∃ t, exec .hostLoss s = .next t ∧ t.sup.hostGone = true ∧ t.it = max s.it (y.beat + s.pN 0x1200 1 * 1500000) := by
  have hb : s.nets.ctrl.bind s.session = some y := by rw [hc]; exact hy
  refine ⟨_, by simp only [exec, execHostLoss, hb, hg]; rfl, rfl, rfl⟩

/-- BARE_PULL_IN_RETRY that the budget grants. -/
theorem execBarePullInRetry_granted (n : Fin 128) (x : IT) (s u : State) (hd : s.power.dev = .bare) (hr : (s.ch n).retryAt = some x)
    (hu : u = (s.at x).modCh n (fun c => { c with retryAt := none })) (hw : u.bareWants n = true) (hi : u.bareIdle n = true) (v : State)
    (hv : u.requestPull n (u.bareStart n) = (v, .granted)) :
    ∃ t, exec (.barePullInRetry n) s = .next t ∧ (t.ch n).retryAt = none ∧
      (t.ch n).edges = insertEdge ⟨true, u.bareStart n, 100, 0⟩ (v.ch n).edges := by
  have hx : exec (.barePullInRetry n) s = .next (u.bareAsk n) := by
    rw [hu] at hw hi
    simp only [exec, execBarePullInRetry, hr, hd, ne_eq, not_true_eq_false, if_false, hw, hi, Bool.and_self, if_true, hu]
  have hvu : v.chan = u.chan := by
    have h := Unchanged.of_mask (State.requestPull_mask (ps := [.loads, .budget, .skein]) u n (u.bareStart n) (by simp)) .chan (by simp)
    rw [hv] at h
    exact h
  have hch : (u.bareAsk n).ch n = { v.ch n with edges := insertEdge ⟨true, u.bareStart n, 100, 0⟩ (v.ch n).edges } := by
    simp only [State.bareAsk, hv, State.addEdge, State.modBank_ch, State.modCh_ch_same _ _ _ n.isLt]
  refine ⟨_, hx, ?_, by rw [hch]⟩
  rw [hch]
  dsimp only
  rw [State.ch, hvu, hu]
  exact congrArg Channel.retryAt (State.modCh_ch_same _ _ _ n.isLt)

/-- Settles O55: the commands whose effects O50, O53 and O54 state in full, and those of the key, the states and the faults. -/
theorem completesStates : Obligations.CompletesStates := by
  refine ⟨execPowerOn_noSupply, execIgnOn_standby, execIgnOff_awake, execCanAWake_standby, execWakeHoldExpiry_ignOff, fun x s h => ?_,
    execBootComplete_ignOn, fun x s hb hc => ?_, fun x s ha hr => ?_, fun x a s hd hw hc hs hr => ?_, fun x a s hd hw => ?_,
    execCmdRun_accepted, execCmdBare_accepted, execCmdSafe_accepted, execCmdReady_accepted, execCmdService_accepted,
    execStateCommandEffect_bare, fun f s ha => ?_, fun u s hu => ?_, fun p s ha => ?_, execFaultDetected_reported,
    execClearFaults_accepted, fun x c s ha hr => ?_, fun x c s ha hs => ?_, fun c s hs hc => ?_, execHostLoss_controlled,
    fun s hr hh => ?_, execBarePullInRetry_granted⟩
  · obtain ⟨t, he, hd, hch, -, -, -, -, -, hq, -⟩ := execKaCollapse_supplied x s h
    exact ⟨t, he, hd, fun n hn => (hch n hn).1, hq⟩
  · obtain ⟨t, he, hp, hrc, hrep, -⟩ := execCrystalStartTimeout_boot x s hb hc
    exact ⟨t, he, hrc, by rw [hp], hrep⟩
  · obtain ⟨t, he, ht, hrep, -⟩ := execCrystalFailure_running x s ha hr
    exact ⟨t, he, by rw [ht], hrep⟩
  · obtain ⟨t, he, hdev, hres, -, hdis⟩ := execShutdownComplete_standby x a s hd hw hc hs hr
    exact ⟨t, he, hdev, hres, hdis⟩
  · obtain ⟨t, he, hdev, hres, -, hdis⟩ := execShutdownOvertime_standby x a s hd hw
    exact ⟨t, he, hdev, hres, hdis⟩
  · obtain ⟨t, he, hf, hi, -⟩ := execFrameBoundary_awake f s ha
    exact ⟨t, he, hf, hi⟩
  · obtain ⟨t, he, hun, -, -, -, hwait, -, -, hov, -⟩ := execFrameOverrun_undone u s hu
    exact ⟨t, he, hun, hwait, hov⟩
  · obtain ⟨t, he, hi, hok, -⟩ := execDieTimeStrobe_awake p s ha
    exact ⟨t, he, hi, hok⟩
  · obtain ⟨t, he, hab, hst, hcm, -⟩ := execCoresStop_running x c s ha hr
    exact ⟨t, he, hab, hst, hcm⟩
  · obtain ⟨t, he, hsup, hi, -⟩ := execCoresReturn_stopped x c s ha hs
    exact ⟨t, he, by rw [State.coresAbsent, hsup]; rfl, hi⟩
  · obtain ⟨t, he, hi, hsup, -⟩ := execCoastWindowExpiry_open c s hs hc
    exact ⟨t, he, by rw [hsup, hi]⟩
  · obtain ⟨t, he, hi, hsup, -⟩ := execPositionLossHoldExpiry_holding s hr hh
    exact ⟨t, he, hi, by rw [hsup]⟩

end Sys2Proof.Machine

end

section

namespace Sys2Proof.Machine

/-! # What no step undoes (R34, R486, R489, R495) -/

/-- Every command answers a next state, later than the one it began from: case by case what its unit's operations keep. -/
theorem exec_later (c : Instr) (s : State) : ∃ t, exec c s = .next t ∧ Later s t :=
  match c with
  | .powerOn b => execPowerOn_later b s (.refl s)
  | .ignOn t b => execIgnOn_later t b s (.refl s)
  | .ignOff t => execIgnOff_later t s (.refl s)
  | .canAWake b => execCanAWake_later b s (.refl s)
  | .wakeHoldExpiry => execWakeHoldExpiry_later s (.refl s)
  | .kaCollapse x => execKaCollapse_later x s (.refl s)
  | .bootComplete t => execBootComplete_later t s (.refl s)
  | .crystalStartTimeout t => execCrystalStartTimeout_later t s (.refl s)
  | .crystalFailure t => execCrystalFailure_later t s (.refl s)
  | .shutdownComplete t aon => execShutdownComplete_later t aon s (.refl s)
  | .shutdownOvertime t aon => execShutdownOvertime_later t aon s (.refl s)
  | .cmdRun r => execCmdRun_later r s (.refl s)
  | .cmdBare r => execCmdBare_later r s (.refl s)
  | .cmdSafe r => execCmdSafe_later r s (.refl s)
  | .cmdReady r => execCmdReady_later r s (.refl s)
  | .cmdService r => execCmdService_later r s (.refl s)
  | .stateCommandEffect => execStateCommandEffect_later s (.refl s)
  | .frameBoundary f => execFrameBoundary_later f s (.refl s)
  | .frameOverrun => execFrameOverrun_later s (.refl s)
  | .dieTimeStrobe devPs => execDieTimeStrobe_later devPs s (.refl s)
  | .pullInStart n railMv supplyMv => execPullInStart_later n railMv supplyMv s (.refl s)
  | .peakReached n t => execPeakReached_later n t s (.refl s)
  | .pullInWindowEnd n endMa => execPullInWindowEnd_later n endMa s (.refl s)
  | .closingCommand n => execClosingCommand_later n s (.refl s)
  | .decayEnd n t => execDecayEnd_later n t s (.refl s)
  | .kinkWindowOpen n => execKinkWindowOpen_later n s (.refl s)
  | .kinkFound n samples => execKinkFound_later n samples s (.refl s)
  | .kinkWindowClose n => execKinkWindowClose_later n s (.refl s)
  | .channelOverCurrent n x => execChannelOverCurrent_later n x s (.refl s)
  | .bankOverCurrent b x => execBankOverCurrent_later b x s (.refl s)
  | .bankRetryExpiry b => execBankRetryExpiry_later b s (.refl s)
  | .channelStuckOn n => execChannelStuckOn_later n s (.refl s)
  | .bankSwitchFault b t => execBankSwitchFault_later b t s (.refl s)
  | .edgeWordError d c t => execEdgeWordError_later d c t s (.refl s)
  | .dieRestartDone d t => execDieRestartDone_later d t s (.refl s)
  | .clearChannelLatch r n => execClearChannelLatch_later r n s (.refl s)
  | .clearBankLatch r b => execClearBankLatch_later r b s (.refl s)
  | .railHigh t => execRailHigh_later t s (.refl s)
  | .railHighClear t => execRailHighClear_later t s (.refl s)
  | .railFault c t => execRailFault_later c t s (.refl s)
  | .supplyHigh t => execSupplyHigh_later t s (.refl s)
  | .prechargeComplete t chargeUc gainedMv => execPrechargeComplete_later t chargeUc gainedMv s (.refl s)
  | .railDischarged t => execRailDischarged_later t s (.refl s)
  | .loopStep w x => execLoopStep_later w x s (.refl s)
  | .loopModeCommand r w mode => execLoopModeCommand_later r w mode s (.refl s)
  | .regionTableWrite r w j v => execRegionTableWrite_later r w j v s (.refl s)
  | .coefficientPatch r w j v => execCoefficientPatch_later r w j v s (.refl s)
  | .commitLoop r w => execCommitLoop_later r w s (.refl s)
  | .spinnerTransfer k x => execSpinnerTransfer_later k x s (.refl s)
  | .valveDriveStart h => execValveDriveStart_later h s (.refl s)
  | .endOfTravel h t => execEndOfTravel_later h t s (.refl s)
  | .travelTimeout h => execTravelTimeout_later h s (.refl s)
  | .valveDriveRetry h => execValveDriveRetry_later h s (.refl s)
  | .motorStall g t => execMotorStall_later g t s (.refl s)
  | .outputTrip o k t => execOutputTrip_later o k t s (.refl s)
  | .outputRetryExpiry o => execOutputRetryExpiry_later o s (.refl s)
  | .clearOutputLatch r o => execClearOutputLatch_later r o s (.refl s)
  | .loadSwitchCommand r j v => execLoadSwitchCommand_later r j v s (.refl s)
  | .loadTrip j k t clampMj => execLoadTrip_later j k t clampMj s (.refl s)
  | .loadRestart j t junction => execLoadRestart_later j t junction s (.refl s)
  | .loadCounterReset j => execLoadCounterReset_later j s (.refl s)
  | .loadShedRetry j => execLoadShedRetry_later j s (.refl s)
  | .clearLoadLatches r j v => execClearLoadLatches_later r j v s (.refl s)
  | .openLoad j t => execOpenLoad_later j t s (.refl s)
  | .budgetOverrun => execBudgetOverrun_later s (.refl s)
  | .supplyFault x c value t => execSupplyFault_later x c value t s (.refl s)
  | .sensorSupplyOverload a t => execSensorSupplyOverload_later a t s (.refl s)
  | .sensorSupplyRetry a => execSensorSupplyRetry_later a s (.refl s)
  | .throttleHoldExpiry d => execThrottleHoldExpiry_later d s (.refl s)
  | .sensorUnavailableExpiry d => execSensorUnavailableExpiry_later d s (.refl s)
  | .pulseEdge a t level both held => execPulseEdge_later a t level both held s (.refl s)
  | .indexEdge p x => execIndexEdge_later p x s (.refl s)
  | .pulseStopTimeout x => execPulseStopTimeout_later x s (.refl s)
  | .hallEdge h t x => execHallEdge_later h t x s (.refl s)
  | .resetUncertainty r a => execResetUncertainty_later r a s (.refl s)
  | .setCount r a v => execSetCount_later r a v s (.refl s)
  | .nmeaSentence u t text => execNmeaSentence_later u t text s (.refl s)
  | .ppsEdge t => execPpsEdge_later t s (.refl s)
  | .canAMotionMessage t pgn src data => execCanAMotionMessage_later t pgn src data s (.refl s)
  | .inertialSampleLate => execInertialSampleLate_later s (.refl s)
  | .standstillBias t => execStandstillBias_later t s (.refl s)
  | .biasStale t => execBiasStale_later t s (.refl s)
  | .positionLossHoldExpiry => execPositionLossHoldExpiry_later s (.refl s)
  | .foldStateWrite r v => execFoldStateWrite_later r v s (.refl s)
  | .externalTimeout => execExternalTimeout_later s (.refl s)
  | .hankCreate r body => execHankCreate_later r body s (.refl s)
  | .hankOpen r body => execHankOpen_later r body s (.refl s)
  | .hankClose r body => execHankClose_later r body s (.refl s)
  | .hankDelete r body => execHankDelete_later r body s (.refl s)
  | .closeSequenceDone t => execCloseSequenceDone_later t s (.refl s)
  | .hankDeleteDone slot t => execHankDeleteDone_later slot t s (.refl s)
  | .tileStream r v => execTileStream_later r v s (.refl s)
  | .tileFillDone col row t corrected crcOk => execTileFillDone_later col row t corrected crcOk s (.refl s)
  | .tileWriteBack col row t => execTileWriteBack_later col row t s (.refl s)
  | .tileExportRead r => execTileExportRead_later r s (.refl s)
  | .parameterRead r idx sub => execParameterRead_later r idx sub s (.refl s)
  | .parameterWrite r idx sub v => execParameterWrite_later r idx sub v s (.refl s)
  | .blockWriteSegment r idx sub off total data => execBlockWriteSegment_later r idx sub off total data s (.refl s)
  | .blockWriteTimeout sid => execBlockWriteTimeout_later sid s (.refl s)
  | .blockRead r idx sub off => execBlockRead_later r idx sub off s (.refl s)
  | .blockReadSnapshotExpiry sid => execBlockReadSnapshotExpiry_later sid s (.refl s)
  | .commit r payload => execCommit_later r payload s (.refl s)
  | .commitBoundary => execCommitBoundary_later s (.refl s)
  | .discardStaged r => execDiscardStaged_later r s (.refl s)
  | .configurationImage r v => execConfigurationImage_later r v s (.refl s)
  | .digestRecheck t found => execDigestRecheck_later t found s (.refl s)
  | .descriptionBlockRead r => execDescriptionBlockRead_later r s (.refl s)
  | .pagrimFrameDiscard net why => execPagrimFrameDiscard_later net why s (.refl s)
  | .hostHeartbeat sid payload t => execHostHeartbeat_later sid payload t s (.refl s)
  | .deviceHeartbeat net t => execDeviceHeartbeat_later net t s (.refl s)
  | .sessionTimeout sid => execSessionTimeout_later sid s (.refl s)
  | .hostLoss => execHostLoss_later s (.refl s)
  | .timeService r payload => execTimeService_later r payload s (.refl s)
  | .challengeRead r => execChallengeRead_later r s (.refl s)
  | .responseWrite r v => execResponseWrite_later r v s (.refl s)
  | .relock r => execRelock_later r s (.refl s)
  | .raisedLevelTimeout => execRaisedLevelTimeout_later s (.refl s)
  | .challengeLockoutEnd => execChallengeLockoutEnd_later s (.refl s)
  | .canBusOff c t => execCanBusOff_later c t s (.refl s)
  | .ethLinkUp t => execEthLinkUp_later t s (.refl s)
  | .arpRequest t senderIp senderMac targetIp => execArpRequest_later t senderIp senderMac targetIp s (.refl s)
  | .icmpEcho t srcIp dstIp data => execIcmpEcho_later t srcIp dstIp data s (.refl s)
  | .gptpMessage t m => execGptpMessage_later t m s (.refl s)
  | .wallSourceTimeout w => execWallSourceTimeout_later w s (.refl s)
  | .addressClaim t e => execAddressClaim_later t e s (.refl s)
  | .addressRetry t => execAddressRetry_later t s (.refl s)
  | .tcMessage t m => execTcMessage_later t m s (.refl s)
  | .tcDisconnect t => execTcDisconnect_later t s (.refl s)
  | .hitchPtoMessage t a data => execHitchPtoMessage_later t a data s (.refl s)
  | .recordIngest => execRecordIngest_later s (.refl s)
  | .heldRecordRelease src => execHeldRecordRelease_later src s (.refl s)
  | .limitedSecondEnd => execLimitedSecondEnd_later s (.refl s)
  | .lossRecord => execLossRecord_later s (.refl s)
  | .recordWrite => execRecordWrite_later s (.refl s)
  | .logRowFailure t row => execLogRowFailure_later t row s (.refl s)
  | .alarmWindowEnd code => execAlarmWindowEnd_later code s (.refl s)
  | .exportBlockRead r b => execExportBlockRead_later r b s (.refl s)
  | .clearLastWord r => execClearLastWord_later r s (.refl s)
  | .epochCopyWrite t => execEpochCopyWrite_later t s (.refl s)
  | .timeMark => execTimeMark_later s (.refl s)
  | .faultDetected t ext => execFaultDetected_later t ext s (.refl s)
  | .clearFaults r => execClearFaults_later r s (.refl s)
  | .coresStop t c => execCoresStop_later t c s (.refl s)
  | .coresReturn t => execCoresReturn_later t s (.refl s)
  | .coastWindowExpiry => execCoastWindowExpiry_later s (.refl s)
  | .cardingSlice t x => execCardingSlice_later t x s (.refl s)
  | .cardingRunAll r => execCardingRunAll_later r s (.refl s)
  | .cardingRunCore r => execCardingRunCore_later r s (.refl s)
  | .cardingRunRange r => execCardingRunRange_later r s (.refl s)
  | .cardingStop r => execCardingStop_later r s (.refl s)
  | .burnRepairs r => execBurnRepairs_later r s (.refl s)
  | .lifecycleCommand r v => execLifecycleCommand_later r v s (.refl s)
  | .protectedKeyWrite r v => execProtectedKeyWrite_later r v s (.refl s)
  | .imageOpen r engine len => execImageOpen_later r engine len s (.refl s)
  | .imageChunk r v => execImageChunk_later r v s (.refl s)
  | .imageVerify r engine => execImageVerify_later r engine s (.refl s)
  | .imageSwitch r engine => execImageSwitch_later r engine s (.refl s)
  | .imageSwitchBoundary dieReady => execImageSwitchBoundary_later dieReady s (.refl s)
  | .imageConfirm r => execImageConfirm_later r s (.refl s)
  | .imageAbandon r engine => execImageAbandon_later r engine s (.refl s)
  | .barePullInRetry n => execBarePullInRetry_later n s (.refl s)
  | .supplyHighClear t => execSupplyHighClear_later t s (.refl s)
  | .ethLinkDown t => execEthLinkDown_later t s (.refl s)
  | .arpCacheExpiry ip => execArpCacheExpiry_later ip s (.refl s)
  | .busOffRecovery c t => execBusOffRecovery_later c t s (.refl s)
  | .taskControllerStatus t m => execTaskControllerStatus_later t m s (.refl s)
  | .timeIntervalTrigger ddi t => execTimeIntervalTrigger_later ddi t s (.refl s)
  | .peerDelayRequest t => execPeerDelayRequest_later t s (.refl s)

/-- A step takes the front off the queue, and what it answers is later than the state with the queue's rest. -/
theorem step_later {s t : State} (h : step s = .next t) : Later { s with pending := s.pending.tail } t := by
  obtain hq | ⟨c, rest, hq⟩ : s.pending = [] ∨ ∃ c rest, s.pending = c :: rest := by
    cases s.pending <;> simp
  · rw [emptyQueueIdles s hq] at h
    cases h
    rw [hq, List.tail_nil, ← hq]
    exact .refl s
  · obtain ⟨u, hu, hl⟩ := exec_later c { s with pending := rest }
    have hs : step s = .next u := by simpa only [step, hq] using hu
    rw [hs] at h
    cases h
    rwa [hq]

/-- Settles O4: `Later` at the state that a step runs its command in, which differs from `s` in the queue alone. -/
theorem nothingIsUndone : Obligations.NothingIsUndone := by
  intro s t h
  obtain ⟨hit, hmem, hqueue, hroll, hkey, hlife, hlegal⟩ := step_later h
  exact ⟨hit, hmem, hroll, hkey, hlife, hlegal, hqueue⟩

end Sys2Proof.Machine

end

section

namespace Sys2Proof.Machine

/-! # Pulses per second, the TIME service, marks and silence (R37, R41, R42, R46, R49)

The commands of O43 other than EPOCH_COPY_WRITE do what its clauses say. -/

variable {ps : List Part}

/-! ### What a time from a source changes (R41, R42) -/

@[simp] theorem State.rateAgainst_mask (s : State) (x : IT) (w : Nat) (h : [.time] ⊆ ps) : (s.rateAgainst x w).mask ps = s.mask ps := by
  simp at h
  unfold State.rateAgainst
  (repeat' split) <;> simp [h]

@[simp] theorem State.wallStep_mask (s : State) (src : WallSource) (x : IT) (w : Nat) (h : [.time, .skein] ⊆ ps) :
    (s.wallStep src x w).mask ps = s.mask ps := by
  simp at h
  simp [State.wallStep, h]

@[simp] theorem State.timeFrom_mask (s : State) (src : WallSource) (x : IT) (w : Nat) (h : [.time, .skein] ⊆ ps) :
    (s.timeFrom src x w).mask ps = s.mask ps := by
  unfold State.timeFrom
  simp at h
  dsimp only
  (repeat' split) <;> simp [h]

@[simp] theorem State.markEdge_mask (s : State) (x : IT) (sec : Nat) (dated : Bool) (h : [.time, .skein] ⊆ ps) :
    (s.markEdge x sec dated).mask ps = s.mask ps := by
  unfold State.markEdge
  simp at h
  dsimp only
  split <;> simp [h]

/-- What the time base keeps of the PPS edges themselves: the last accepted one, whether there is one, the rejected ones. -/
def TimeBase.pps (t : TimeBase) : IT × Bool × Nat := (t.ppsLast, t.ppsSeen, t.ppsBad)

@[simp] theorem State.noteGoverning_pps (s : State) : s.noteGoverning.time.pps = s.time.pps := by
  unfold State.noteGoverning
  (repeat' split) <;> rfl

@[simp] theorem State.rateAgainst_pps (s : State) (x : IT) (w : Nat) : (s.rateAgainst x w).time.pps = s.time.pps := by
  unfold State.rateAgainst
  (repeat' split) <;> rfl

@[simp] theorem State.timeFrom_pps (s : State) (src : WallSource) (x : IT) (w : Nat) : (s.timeFrom src x w).time.pps = s.time.pps := by
  unfold State.timeFrom
  extract_lets s1 t s2 f diff same
  have h2 : s2.time.pps = s.time.pps := by
    rw [← s.noteGoverning_pps]
    cases src <;> rfl
  split
  · split
    · exact (State.rateAgainst_pps _ _ _).trans h2
    · exact (State.rateAgainst_pps _ _ _).trans h2
  · exact h2

@[simp] theorem State.markEdge_pps (s : State) (x : IT) (sec : Nat) (dated : Bool) : (s.markEdge x sec dated).time.pps = s.time.pps := by
  unfold State.markEdge
  dsimp only
  split
  · exact State.timeFrom_pps _ _ _ _
  · rfl

/-! ### PPS edges (R46) -/

/-- An edge that is not rejected is the last one accepted, whatever second it is paired with. -/
theorem State.ppsEdge_accepted (s : State) (x : IT) (hp : s.ppsPaired = true) (hs : s.time.ppsSeen = false) :
    (s.ppsEdge x).time.pps = (x, true, s.time.ppsBad) ∧ (s.ppsEdge x).mask [.it, .time, .skein] = s.mask [.it, .time, .skein] := by
  unfold State.ppsEdge
  extract_lets t recent near s1
  rw [if_neg (by simp [hp]), if_neg (by simp [recent, t, hs])]
  have h1 : s1.time.pps = (x, true, s.time.ppsBad) := rfl
  have hm : s1.mask [.it, .time, .skein] = s.mask [.it, .time, .skein] := by simp [s1]
  split
  · exact ⟨h1, (mask_set_time s1 _ (by simp)).trans hm⟩
  · split
    · exact ⟨h1, hm⟩
    · split
      · exact ⟨(State.markEdge_pps _ _ _ _).trans h1, (State.markEdge_mask _ _ _ _ (by simp)).trans hm⟩
      · exact ⟨h1, hm⟩

/-- The first PPS_EDGE of a boot is accepted. -/
theorem execPpsEdge_first (x : IT) (s : State) (ha : s.power.dev.awake = true) (hp : s.ppsPaired = true) (hs : s.time.ppsSeen = false) :
    ∃ t, exec (.ppsEdge x) s = .next t ∧ t.time.ppsLast = x ∧ t.time.ppsSeen = true ∧
      t.time.ppsBad = s.time.ppsBad ∧ Unchanged [.it, .time, .skein] s t := by
  obtain ⟨hpps, hm⟩ := State.ppsEdge_accepted (s.at x) x hp hs
  simp only [TimeBase.pps, Prod.mk.injEq, State.at_time] at hpps
  obtain ⟨hlast, hseen, hbad⟩ := hpps
  refine ⟨(s.at x).ppsEdge x, ?_, hlast, hseen, hbad, Unchanged.of_mask (hm.trans (by simp))⟩
  simp [exec, execPpsEdge, State.whenAwake, ha]

/-- An edge more than 200 µs from 1 s after the last one is not near it. -/
theorem not_ppsNear {l x : IT} (h : x + 200000 < l + 1000000000 ∨ l + 1000200000 < x) :
    (decide (l + 1000000000 ≤ x + 200000) && decide (x ≤ l + 1000000000 + 200000)) = false := by
  rw [← Bool.decide_and, decide_eq_false_iff_not]
  simp only [IT] at *
  omega

/-- A PPS_EDGE within 3 s of the last one, but more than 200 µs from 1 s after it, is counted and not accepted. -/
theorem execPpsEdge_rejected (x : IT) (s : State) (ha : s.power.dev.awake = true) (hp : s.ppsPaired = true) (hs : s.time.ppsSeen = true)
    (hr : x ≤ s.time.ppsLast + 3000000000) (hf : x + 200000 < s.time.ppsLast + 1000000000 ∨ s.time.ppsLast + 1000200000 < x) :
    ∃ t, exec (.ppsEdge x) s = .next t ∧ t.time = { s.time with ppsBad := sat32 (s.time.ppsBad + 1) } ∧ Unchanged [.it, .time] s t := by
  have he : (s.at x).ppsEdge x = { s.at x with time := { s.time with ppsBad := sat32 (s.time.ppsBad + 1) } } := by
    unfold State.ppsEdge
    rw [if_neg (by rw [show (s.at x).ppsPaired = true from hp]; decide)]
    refine if_pos ?_
    rw [Bool.and_eq_true, Bool.and_eq_true, Bool.not_eq_true']
    exact ⟨⟨hs, decide_eq_true hr⟩, not_ppsNear hf⟩
  refine ⟨(s.at x).ppsEdge x, by simp [exec, execPpsEdge, State.whenAwake, ha], by rw [he], ?_⟩
  rw [he]
  exact Unchanged.of_mask (by simp [State.mask])

/-! ### The TIME service (R49) -/

/-- A SET of a controlling session that no valid source stands above, to a wall time from 2024 on, steps wall time to it. -/
theorem State.timeServe_set (s : State) (rx : IT) (p : Bytes) (hp : natAt p 12 1 = 1) (hh : .host ∈ s.priorities)
    (hv : ∀ w ∈ s.priorities.takeWhile (fun w => w != .host), s.sourceValid w = false)
    (hw : (wallFloor : Int) ≤ (natAt p 0 8 : Int) + intAt p 8 4) :
    (s.timeServe true rx p).1 =
      ({ s with time := { s.time with hostOk := true } } : State).wallStep .host rx ((natAt p 0 8 : Int) + intAt p 8 4).toNat := by
  have ha : (s.priorities.takeWhile (fun w => w != .host)).any (fun w => s.sourceValid w) = false := by
    simpa only [List.any_eq_false, Bool.not_eq_true] using hv
  have hc : s.priorities.contains .host = true := List.contains_iff_mem.mpr hh
  unfold State.timeServe
  rw [if_neg (by simp [hp]), if_neg (by simp)]
  dsimp only
  rw [if_neg (by simp only [hc, ha]; decide), if_neg (by omega)]

@[simp] theorem State.served_mask (s : State) (r : Req) (h : [.it, .nets] ⊆ ps) : (s.served r).mask ps = s.mask ps := by
  simp at h
  obtain ⟨n, he, -⟩ := State.served_eq (s := s) (r := r)
  simp [he, State.mask, h]

@[simp] theorem State.remember_mask (s : State) (r : Req) (b : Bytes) (h : [.nets] ⊆ ps) : (s.remember r b).mask ps = s.mask ps := by
  simp at h
  simp [State.remember, h]

/-- TIME_SERVICE SET. -/
theorem execTimeService_set (r : Req) (x : Session) (p : Bytes) (s : State) (h : s.Serves r x) (hl : 1 ≤ x.level) (hlen : p.length = 16)
    (hp : natAt p 12 1 = 1) (hb : s.inBootRom = false) (hh : .host ∈ s.priorities)
    (hv : ∀ w ∈ s.priorities.takeWhile (fun w => w != .host), (s.served r).sourceValid w = false)
    (hw : (wallFloor : Int) ≤ (natAt p 0 8 : Int) + intAt p 8 4) :
    ∃ t, exec (.timeService r p) s = .next t ∧ t.time.hostOk = true ∧ t.time.wallSet = true ∧
      t.time.offset = (((natAt p 0 8 : Int) + intAt p 8 4).toNat : Int) - r.rx ∧ Unchanged [.it, .time, .nets, .skein] s t := by
  have hq : s.timeRequest r p = (s.served r).execute r x 9 0 0 (fun s x => s.timeServe (decide (1 ≤ x.level)) r.rx p) := by
    unfold State.timeRequest
    rw [if_neg (by simp [hlen, hb]), State.serve_new h]
  have hset := State.timeServe_set (s.served r) r.rx p hp hh hv hw
  refine ⟨_, congrArg Host.Outcome.next hq, ?_⟩
  unfold State.execute
  simp only [hl, decide_true]
  generalize (s.served r).timeServe true r.rx p = q at hset
  have ht : ((q.1.remember r q.2).answer r 9 0 0 q.2).time = q.1.time :=
    Unchanged.of_mask (ps := [.nets]) (by simp) .time (by simp)
  rw [ht, hset]
  refine ⟨rfl, rfl, rfl, Unchanged.of_mask ?_⟩
  rw [State.answer_mask _ _ _ _ _ _ (by simp), State.remember_mask _ _ _ (by simp), State.wallStep_mask _ _ _ _ (by simp),
    mask_set_time _ _ (by simp), State.served_mask _ _ (by simp)]

/-! ### Marks and silence (R37, R41) -/

/-- TIME_MARK writes its record at the multiple of 60 s that it marks. -/
theorem execTimeMark_awake (s : State) (ha : s.power.dev.awake = true) :
    ∃ t, exec .timeMark s = .next t ∧ t.it = max s.it s.markAt ∧ t.time = { s.time with mark := s.markAt } ∧
      t.skein.arriving = s.skein.arriving ++ [⟨0x0008, s.markAt, s.time.boot, 0, []⟩] ∧ Unchanged [.it, .time, .skein] s t := by
  refine ⟨({ s.at s.markAt with time := { s.time with mark := s.markAt } } : State).recordAt 0x0008 0 [] s.markAt, ?_, rfl, rfl, rfl,
    Unchanged.of_mask (by simp [State.mask, State.recordAt])⟩
  simp [exec, execTimeMark, State.whenAwake, ha]

/-- The choice of the governing source leaves what each source last delivered. -/
theorem State.noteGoverning_lastFrom (s : State) (w : WallSource) : s.noteGoverning.lastFrom w = s.lastFrom w := by
  unfold State.noteGoverning
  (repeat' split) <;> cases w <;> rfl

theorem State.noteGoverning_it (s : State) : s.noteGoverning.it = s.it :=
  Unchanged.of_mask (State.noteGoverning_mask (ps := [.time]) s (by simp)) .it (by simp)

/-- WALL_SOURCE_TIMEOUT drops its source, P 0x1101.09 after the last time it delivered. -/
theorem execWallSourceTimeout_silent (w : WallSource) (l : IT) (s : State) (ha : s.power.dev.awake = true) (hl : s.lastFrom w = some l) :
    ∃ t, exec (.wallSourceTimeout w) s = .next t ∧ t.lastFrom w = none ∧ t.it = max s.it (l + s.pN 0x1101 9 * 1000000) ∧
      Unchanged [.it, .time, .nets] s t := by
  refine ⟨_, by simp only [exec, execWallSourceTimeout, State.whenAwake, ha, if_true, hl]; rfl, ?_, ?_, Unchanged.of_mask ?_⟩
  · rw [State.noteGoverning_lastFrom]
    cases w <;> rfl
  · rw [State.noteGoverning_it]
    cases w <;> rfl
  · rw [State.noteGoverning_mask _ (by simp)]
    cases w <;> simp [State.mask]

end Sys2Proof.Machine

end

section

namespace Sys2Proof.Machine

/-! # The copies of the time epoch (R37, R508)

R37 has the two copies written in turn. R508 takes the turn away where the row of one of them is retired: the other copy
serves, whose turn it need not be. -/

/-- With Carding off the region of the copies, EPOCH_COPY_WRITE writes a copy at its instant (R37, R503). -/
theorem execEpochCopyWrite_free (x : IT) (s : State) (ha : s.power.dev.awake = true) (hc : s.sliceAt 0xFFC00000 0x100000 = false) :
    exec (.epochCopyWrite x) s = .next (s.at x).writeCopy := by
  simp [exec, execEpochCopyWrite, State.whenAwake, ha, hc]

/-- With both rows in use the copy whose turn it is takes the present time (R37). -/
theorem State.writeCopy_turn (s : State) (hA : s.rowRetired 0xFFC00000 = false) (hB : s.rowRetired 0xFFC40000 = false) :
    if s.time.nextB then s.writeCopy.time = { s.time with copyB := ⟨s.it, s.time.boot, true⟩, nextB := false }
    else s.writeCopy.time = { s.time with copyA := ⟨s.it, s.time.boot, true⟩, nextB := true } := by
  cases h : s.time.nextB <;> simp [State.writeCopy, hA, hB, h]

/-- What the third clause of O43 says holds of every state in which the rows of both copies are in use. -/
theorem execEpochCopyWrite_turn (x : IT) (s : State) (ha : s.power.dev.awake = true) (hc : s.sliceAt 0xFFC00000 0x100000 = false)
    (hA : s.rowRetired 0xFFC00000 = false) (hB : s.rowRetired 0xFFC40000 = false) :
    ∃ t, exec (.epochCopyWrite x) s = .next t ∧
      (if s.time.nextB then t.time = { s.time with copyB := ⟨max s.it x, s.time.boot, true⟩, nextB := false }
       else t.time = { s.time with copyA := ⟨max s.it x, s.time.boot, true⟩, nextB := true }) ∧ Unchanged [.it, .time] s t :=
  ⟨_, execEpochCopyWrite_free x s ha hc, (s.at x).writeCopy_turn hA hB, Unchanged.of_mask (by simp)⟩

/-- With the row of the second copy alone retired the second copy stays as it was, also where its turn has come (R508). -/
theorem State.writeCopy_copyB_retired (s : State) (hA : s.rowRetired 0xFFC00000 = false) (hB : s.rowRetired 0xFFC40000 = true) :
    s.writeCopy.time.copyB = s.time.copyB := by
  simp [State.writeCopy, hA, hB]

/-- The module in RUN after Carding has retired the row of the second copy, row 0xFE20 of M7 (R508). -/
def secondCopyLost : State := { State.reset with power := { State.reset.power with dev := .run } }.retireRow 7 0xFE20

/-- The second copy is lost there, and the next write is its turn. -/
theorem secondCopyLost_time : secondCopyLost.time.copyB.valid = false ∧ secondCopyLost.time.nextB = true := by decide +kernel

/-- EPOCH_COPY_WRITE there leaves the second copy without a valid time. -/
theorem execEpochCopyWrite_secondCopyLost {x : IT} {t : State} (h : exec (.epochCopyWrite x) secondCopyLost = .next t) :
    t.time.copyB.valid = false := by
  rw [execEpochCopyWrite_free x _ (by decide +kernel) (by decide +kernel)] at h
  cases h
  have hA : (secondCopyLost.at x).rowRetired 0xFFC00000 = false := show secondCopyLost.rowRetired _ = _ by decide +kernel
  have hB : (secondCopyLost.at x).rowRetired 0xFFC40000 = true := show secondCopyLost.rowRetired _ = _ by decide +kernel
  rw [State.writeCopy_copyB_retired _ hA hB]
  exact secondCopyLost_time.1

/-- Refutes O43: its clause on EPOCH_COPY_WRITE does not shut out a retired row. With the second copy's row retired and the second
copy's turn come, the first copy is written (R508), and the second holds no valid time. -/
theorem not_timeEvents : ¬ Obligations.TimeEvents := by
  rintro ⟨-, -, hcopy, -⟩
  obtain ⟨t, he, ht, -⟩ := hcopy 0 secondCopyLost (by decide +kernel) (by decide +kernel)
  have hv := execEpochCopyWrite_secondCopyLost he
  rw [if_pos secondCopyLost_time.2] at ht
  rw [ht] at hv
  cases hv

/-- Refutes O58 at the same state: its clause on EPOCH_COPY_WRITE asks for a valid copy with the present time where the turn is. -/
theorem not_completesInputs : ¬ Obligations.CompletesInputs := by
  rintro ⟨-, -, -, -, -, -, -, -, -, -, -, -, -, -, hcopy, -⟩
  obtain ⟨t, he, ht⟩ := hcopy 0 secondCopyLost (by decide +kernel) (by decide +kernel)
  have hv := execEpochCopyWrite_secondCopyLost he
  rw [if_pos secondCopyLost_time.2] at ht
  rw [ht] at hv
  cases hv

end Sys2Proof.Machine

end

section

namespace Sys2Proof.Machine

/-! # Pulse inputs: edges, index edges and silence (R59 to R66, R71) -/

/-! ### What the operations on a pulse input leave unchanged -/

section

variable {ps : List Part}

@[simp] theorem State.modPulse_mask (s : State) (i : Nat) (f : Pulse → Pulse) (h : [.motion] ⊆ ps) :
    (s.modPulse i f).mask ps = s.mask ps := by
  simp at h
  simp [State.modPulse, h]

@[simp] theorem State.lineGlitch_mask (s : State) (i : Nat) (l : Bool) (h : [.motion] ⊆ ps) :
    (s.lineGlitch i l).mask ps = s.mask ps := State.modPulse_mask _ _ _ h

@[simp] theorem State.lineEdge_mask (s : State) (i : Nat) (t : IT) (l : Bool) (h : [.motion] ⊆ ps) :
    (s.lineEdge i t l).mask ps = s.mask ps :=
  (State.modPulse_mask _ _ _ h).trans (State.modPulse_mask _ _ _ h)

@[simp] theorem State.indexSeen_mask (s : State) (l : Nat) (h : [.motion] ⊆ ps) : (s.indexSeen l).mask ps = s.mask ps := by
  simp at h
  unfold State.indexSeen
  dsimp only
  split <;> simp [h]

@[simp] theorem State.beltStep_mask (s : State) (i : Nat) (r : Bool) (h : [.rate] ⊆ ps) : (s.beltStep i r).mask ps = s.mask ps := by
  simp at h
  simp [State.beltStep, h]

@[simp] theorem State.doseMark_mask (s : State) (k : Nat) (t : IT) (h : [.rate, .skein] ⊆ ps) :
    (s.doseMark k t).mask ps = s.mask ps := by
  simp at h
  simp [State.doseMark, h]

@[simp] theorem State.compareCross_mask (s : State) (i : Nat) (r : Bool) (t : IT) (h : [.motion, .rate, .skein] ⊆ ps) :
    (s.compareCross i r t).mask ps = s.mask ps := by
  simp at h
  unfold State.compareCross
  split <;> simp [h]

@[simp] theorem State.countStep_mask (s : State) (i : Nat) (r : Bool) (t : IT) (h : [.motion, .rate, .skein] ⊆ ps) :
    (s.countStep i r t).mask ps = s.mask ps := by
  simp at h
  simp [State.countStep, h]

end

/-- A module that runs takes its events. -/
theorem State.whenAwake_awake {s : State} (h : s.power.dev.awake = true) (f : State → State) : s.whenAwake f = f s := if_pos h

/-! ### What each operation leaves of an input -/

/-- What a change of one input keeps of that input, it keeps of every input. -/
theorem State.modPulse_keeps {α : Type} (g : Pulse → α) (s : State) (i : Nat) (f : Pulse → Pulse) (q : Nat) (h : ∀ p, g (f p) = g p) :
    g ((s.modPulse i f).pulse q) = g (s.pulse q) := by
  by_cases hq : q = i
  · subst hq
    by_cases h8 : q < 8
    · rw [State.modPulse_pulse_same _ _ _ h8, h]
    · simp [State.pulse, vget, h8]
  · rw [State.modPulse_pulse_other _ _ _ _ hq]

/-- A passed edge of a line, before it is counted, changes the last edge, the level and OVER-RATE alone (R59, R60). -/
theorem State.lineEdge_keeps {α : Type} (g : Pulse → α) (hg : ∀ (p : Pulse) a l o, g { p with lastLine := a, level := l, overRate := o } = g p)
    (s : State) (i : Nat) (t : IT) (l : Bool) (q : Nat) : g ((s.lineEdge i t l).pulse q) = g (s.pulse q) :=
  Eq.trans (State.modPulse_keeps g _ _ _ _ (fun p => hg p p.lastLine p.level _))
    (State.modPulse_keeps g _ _ _ _ (fun p => hg p _ _ p.overRate))

@[simp] theorem State.lineEdge_count (s : State) (i : Nat) (t : IT) (l : Bool) (q : Nat) :
    ((s.lineEdge i t l).pulse q).count = (s.pulse q).count := s.lineEdge_keeps Pulse.count (fun _ _ _ _ => rfl) i t l q
@[simp] theorem State.lineEdge_glitches (s : State) (i : Nat) (t : IT) (l : Bool) (q : Nat) :
    ((s.lineEdge i t l).pulse q).glitches = (s.pulse q).glitches := s.lineEdge_keeps Pulse.glitches (fun _ _ _ _ => rfl) i t l q
@[simp] theorem State.lineEdge_illegal (s : State) (i : Nat) (t : IT) (l : Bool) (q : Nat) :
    ((s.lineEdge i t l).pulse q).illegal = (s.pulse q).illegal := s.lineEdge_keeps Pulse.illegal (fun _ _ _ _ => rfl) i t l q
@[simp] theorem State.lineEdge_uncert (s : State) (i : Nat) (t : IT) (l : Bool) (q : Nat) :
    ((s.lineEdge i t l).pulse q).uncert = (s.pulse q).uncert := s.lineEdge_keeps Pulse.uncert (fun _ _ _ _ => rfl) i t l q

theorem State.lineEdge_level_same (s : State) (i : Nat) (t : IT) (l : Bool) (hi : i < 8) :
    ((s.lineEdge i t l).pulse i).level = some l :=
  Eq.trans (State.modPulse_keeps Pulse.level _ _ _ _ (fun _ => rfl)) (congrArg Pulse.level (State.modPulse_pulse_same _ _ _ hi))

theorem State.lineEdge_level_other (s : State) (i : Nat) (t : IT) (l : Bool) (q : Nat) (hq : q ≠ i) :
    ((s.lineEdge i t l).pulse q).level = (s.pulse q).level :=
  Eq.trans (State.modPulse_keeps Pulse.level _ _ _ _ (fun _ => rfl)) (congrArg Pulse.level (State.modPulse_pulse_other _ _ _ _ hq))

theorem State.lineEdge_pulse_other (s : State) (i : Nat) (t : IT) (l : Bool) (q : Nat) (hq : q ≠ i) (hl : q ≠ s.leadOf i) :
    (s.lineEdge i t l).pulse q = s.pulse q :=
  (State.modPulse_pulse_other _ _ _ _ hl).trans (State.modPulse_pulse_other _ _ _ _ hq)

/-- An input but for what a crossing of its compare list changes (R70). -/
def Pulse.sansCross (p : Pulse) : Pulse := { p with crossed := 0, crossIt := 0, crossEnt := 0 }

theorem State.compareCross_sansCross (s : State) (i : Nat) (r : Bool) (t : IT) (q : Nat) :
    ((s.compareCross i r t).pulse q).sansCross = (s.pulse q).sansCross := by
  unfold State.compareCross
  split
  · rfl
  next k act _ =>
    extract_lets s1 s2
    have h1 : (s1.pulse q).sansCross = (s.pulse q).sansCross := State.modPulse_keeps Pulse.sansCross _ _ _ _ (fun _ => rfl)
    have h2 : s2.pulse q = s1.pulse q := by
      simp only [s2]
      split <;> rfl
    rw [← h1, ← h2]
    split <;> rfl

theorem State.compareCross_pulse_other (s : State) (i : Nat) (r : Bool) (t : IT) (q : Nat) (hq : q ≠ i) :
    (s.compareCross i r t).pulse q = s.pulse q := by
  unfold State.compareCross
  split
  · rfl
  next k act _ =>
    extract_lets s1 s2
    have h1 : s1.pulse q = s.pulse q := State.modPulse_pulse_other _ _ _ _ hq
    have h2 : s2.pulse q = s1.pulse q := by
      simp only [s2]
      split <;> rfl
    rw [← h1, ← h2]
    split <;> rfl

@[simp] theorem State.beltStep_pulse (s : State) (i : Nat) (r : Bool) (q : Nat) : (s.beltStep i r).pulse q = s.pulse q := by
  unfold State.beltStep
  split <;> rfl

@[simp] theorem State.beltStep_softLimits (s : State) (i : Nat) (r : Bool) (q : Nat) : (s.beltStep i r).softLimits q = s.softLimits q := by
  unfold State.beltStep
  split <;> rfl

/-- A counted edge moves the count of its input by one within the limits (R65) and is its last edge; the line and the uncertainty stay.
Where no limit holds the count, the compare list follows. -/
theorem State.countStep_cases (s : State) (i : Nat) (r : Bool) (t : IT) :
    ∃ f : Pulse → Pulse,
      (∀ p, (f p).last = t ∧ (f p).level = p.level ∧ (f p).glitches = p.glitches ∧ (f p).uncert = p.uncert ∧
        (f p).count = clampI (s.softLimits i).1 (s.softLimits i).2
          (if r then (s.pulse i).count - 1 else (s.pulse i).count + 1)) ∧
      (s.countStep i r t = (s.beltStep i r).modPulse i f ∨ s.countStep i r t = ((s.beltStep i r).modPulse i f).compareCross i r t) := by
  unfold State.countStep
  extract_lets s0 p want
  rw [show s0.softLimits i = s.softLimits i from State.beltStep_softLimits _ _ _ _,
    show want = (if r then (s.pulse i).count - 1 else (s.pulse i).count + 1) from
      congrArg (fun q : Pulse => if r then q.count - 1 else q.count + 1) (State.beltStep_pulse _ _ _ _)]
  refine ⟨_, fun p => ⟨?_, ?_, ?_, ?_, ?_⟩, (ite_eq_or_eq _ _ _)⟩
  all_goals rfl

/-- After a counted edge its input is as the edge leaves it, but for a crossing of its compare list. -/
theorem State.countStep_pulse_same (s : State) (i : Nat) (r : Bool) (t : IT) (hi : i < 8) :
    ((s.countStep i r t).pulse i).count = clampI (s.softLimits i).1 (s.softLimits i).2
        (if r then (s.pulse i).count - 1 else (s.pulse i).count + 1) ∧
      ((s.countStep i r t).pulse i).last = t ∧ ((s.countStep i r t).pulse i).level = (s.pulse i).level ∧
      ((s.countStep i r t).pulse i).glitches = (s.pulse i).glitches ∧
      ((s.countStep i r t).pulse i).uncert = (s.pulse i).uncert := by
  obtain ⟨f, hf, hs⟩ := s.countStep_cases i r t
  obtain ⟨hlast, hlevel, hglitch, huncert, hcount⟩ := hf (s.pulse i)
  have h1 : ((s.beltStep i r).modPulse i f).pulse i = f (s.pulse i) :=
    (State.modPulse_pulse_same _ _ _ hi).trans (congrArg f (State.beltStep_pulse _ _ _ _))
  have hc : ((s.countStep i r t).pulse i).sansCross = (f (s.pulse i)).sansCross := by
    rw [← h1]
    rcases hs with hs | hs <;> rw [hs]
    exact State.compareCross_sansCross _ _ _ _ _
  exact ⟨Eq.trans (congrArg Pulse.count hc :) hcount, Eq.trans (congrArg Pulse.last hc :) hlast,
    Eq.trans (congrArg Pulse.level hc :) hlevel, Eq.trans (congrArg Pulse.glitches hc :) hglitch,
    Eq.trans (congrArg Pulse.uncert hc :) huncert⟩

theorem State.countStep_pulse_other (s : State) (i : Nat) (r : Bool) (t : IT) (q : Nat) (hq : q ≠ i) :
    (s.countStep i r t).pulse q = s.pulse q := by
  obtain ⟨f, -, hs⟩ := s.countStep_cases i r t
  have h1 : ((s.beltStep i r).modPulse i f).pulse q = s.pulse q :=
    (State.modPulse_pulse_other _ _ _ _ hq).trans (State.beltStep_pulse _ _ _ _)
  rcases hs with hs | hs <;> rw [hs]
  · exact h1
  · exact (State.compareCross_pulse_other _ _ _ _ _ hq).trans h1

/-- The soft limits of an input that counts are its own (R65). -/
theorem State.softLimits_counting (s : State) (i : Nat) (h : s.pulseMode i ≠ 4) :
    s.softLimits i = (s.pI (0x2010 + i) 9, s.pI (0x2010 + i) 0xA) := if_neg h

theorem State.leadOf_self (s : State) (i : Nat) (h : s.pulseMode i ≠ 4) : s.leadOf i = i := if_neg h

theorem State.leadOf_le (s : State) (i : Nat) : s.leadOf i ≤ i := by
  unfold State.leadOf
  split <;> omega

/-- The lead of a QUADRATURE pair is the line itself or the line before it (R58). -/
theorem State.leadOf_quad (s : State) (i : Nat) (h : s.pulseMode (s.leadOf i) = 3) : s.leadOf i = i ∨ s.leadOf i + 1 = i := by
  unfold State.leadOf at *
  split at h
  next h4 =>
    rw [if_pos h4]
    cases i with
    | zero => rw [Nat.zero_sub] at h; omega
    | succ i => right; omega
  next h4 => exact .inl (if_neg h4)

/-! ### PULSE_EDGE (R59 to R63) -/

/-- A change that the line holds for the filter time passes. -/
theorem execPulseEdge_passed (i : Fin 8) (x : IT) (l b : Bool) (h : Nat) (s : State) (ha : s.power.dev.awake = true)
    (hl : (s.pulse i).level ≠ some l) (hf : s.filterTime i ≤ h) (hm : s.pulseMode i ≠ 5) :
    exec (.pulseEdge i x l b h) s = .next ((s.at (x + s.filterTime i)).passedEdge i x l b) := by
  show Host.Outcome.next (s.whenAwake _) = _
  rw [State.whenAwake_awake ha, if_neg (not_or.mpr ⟨hm, hl⟩), if_pos hf]

/-- A shorter one is a glitch. -/
theorem execPulseEdge_short (i : Fin 8) (x : IT) (l b : Bool) (h : Nat) (s : State) (ha : s.power.dev.awake = true)
    (hl : (s.pulse i).level ≠ some l) (hf : h < s.filterTime i) (hm : s.pulseMode i ≠ 5) :
    exec (.pulseEdge i x l b h) s = .next ((s.at (x + h)).lineGlitch i l) := by
  show Host.Outcome.next (s.whenAwake _) = _
  rw [State.whenAwake_awake ha, if_neg (not_or.mpr ⟨hm, hl⟩), if_neg (Nat.not_le.mpr hf)]

theorem execPulseEdge_glitch (i : Fin 8) (x : IT) (l b : Bool) (h : Nat) (s : State) (ha : s.power.dev.awake = true)
    (hl : (s.pulse i).level ≠ some l) (hf : h < s.filterTime i) (hm : s.pulseMode i ≠ 5) :
    ∃ t, exec (.pulseEdge i x l b h) s = .next t ∧
      t.pulse i = { s.pulse i with glitches := sat32 ((s.pulse i).glitches + 1), level := some (!l) } ∧
      (∀ k, k ≠ i.val → t.pulse k = s.pulse k) ∧ Unchanged [.it, .motion] s t :=
  ⟨_, execPulseEdge_short i x l b h s ha hl hf hm, State.modPulse_pulse_same _ _ _ i.isLt,
    fun _ hk => State.modPulse_pulse_other _ _ _ _ hk, Unchanged.of_mask (by simp)⟩

/-- A passed edge of a SPEED or FREQUENCY input that is of the counted kind is counted (R61). -/
theorem State.passedEdge_counted (s : State) (i : Nat) (t : IT) (l b : Bool) (hm : s.pulseMode i = 1 ∨ s.pulseMode i = 2)
    (he : s.pN (0x2010 + i) 2 = 2 ∨ s.pN (0x2010 + i) 2 = 0 ∧ l = true ∨ s.pN (0x2010 + i) 2 = 1 ∧ l = false) :
    s.passedEdge i t l b = (s.lineEdge i t l).countStep i (s.pulseMode i == 1 && s.sourceRev i) t := by
  have hlead : (s.lineEdge i t l).leadOf i = i := s.leadOf_self i (by omega)
  have hpm : (s.lineEdge i t l).pulseMode i = s.pulseMode i := rfl
  unfold State.passedEdge
  dsimp only
  rw [hlead, hpm]
  have he' : s.pN (0x2010 + i) 2 = 2 ∨ (s.pN (0x2010 + i) 2 = 0 ∧ l) ∨ (s.pN (0x2010 + i) 2 = 1 ∧ !l) := by simpa using he
  rcases hm with hm | hm <;> rw [hm] <;> exact if_pos he'

theorem execPulseEdge_counted (i : Fin 8) (x : IT) (l b : Bool) (h e : Nat) (s : State) (ha : s.power.dev.awake = true)
    (hl : (s.pulse i).level ≠ some l) (hf : s.filterTime i ≤ h) (hm : s.pulseMode i = 1 ∨ s.pulseMode i = 2)
    (he : e = s.pN (0x2010 + i.val) 2) (hc : e = 2 ∨ (e = 0 ∧ l = true) ∨ (e = 1 ∧ l = false)) :
    ∃ t, exec (.pulseEdge i x l b h) s = .next t ∧
      (t.pulse i).count = clampI (s.pI (0x2010 + i.val) 9) (s.pI (0x2010 + i.val) 0xA)
        (if s.pulseMode i = 1 ∧ s.sourceRev i = true then (s.pulse i).count - 1 else (s.pulse i).count + 1) ∧
      (t.pulse i).level = some l ∧ (t.pulse i).last = x ∧ (t.pulse i).glitches = (s.pulse i).glitches ∧
      t.it = max s.it (x + s.filterTime i) ∧
      (∀ k, k ≠ i.val → t.pulse k = s.pulse k) ∧ Unchanged [.it, .motion, .rate, .skein] s t := by
  subst he
  have hm4 : s.pulseMode i ≠ 4 := by omega
  let s1 := s.at (x + s.filterTime i)
  let s2 := s1.lineEdge i x l
  let r := s.pulseMode i == 1 && s.sourceRev i
  obtain ⟨hcount, hlast, hlevel, hglitch, -⟩ := s2.countStep_pulse_same i r x i.isLt
  rw [s2.softLimits_counting i hm4, s1.lineEdge_count] at hcount
  refine ⟨s2.countStep i r x, ?_, hcount.trans ?_, hlevel.trans (s1.lineEdge_level_same i x l i.isLt), hlast,
    hglitch.trans (s1.lineEdge_glitches i x l i), ?_, fun k hk => ?_, Unchanged.of_mask (by simp [s2, s1])⟩
  · rw [execPulseEdge_passed i x l b h s ha hl hf (by omega)]
    exact congrArg Host.Outcome.next (s1.passedEdge_counted i x l b hm hc)
  · simp only [r, Bool.and_eq_true, beq_iff_eq]
    rfl
  · exact Unchanged.of_mask (State.countStep_mask (ps := [.motion, .rate, .skein]) s2 i r x (by simp)) .it (by simp)
  · exact (s2.countStep_pulse_other i r x k hk).trans (s1.lineEdge_pulse_other i x l k hk (by rwa [s1.leadOf_self i hm4]))

/-- Two lines of a QUADRATURE pair that change in one sample are no edge: the illegal transition is counted and widens the uncertainty
(R63). -/
theorem State.passedEdge_both (s : State) (i : Nat) (t : IT) (l : Bool) (hi : i < 8) (hm : s.pulseMode (s.leadOf i) = 3) :
    ∃ u : State, s.passedEdge i t l true = u ∧ (u.pulse (s.leadOf i)).count = (s.pulse (s.leadOf i)).count ∧
      (u.pulse (s.leadOf i)).illegal = sat32 ((s.pulse (s.leadOf i)).illegal + 1) ∧
      (u.pulse (s.leadOf i)).uncert = sat32 ((s.pulse (s.leadOf i)).uncert + 2) ∧ u.mask [.it, .motion] = s.mask [.it, .motion] := by
  have hlead : (s.lineEdge i t l).leadOf i = s.leadOf i := rfl
  have hpm : (s.lineEdge i t l).pulseMode (s.leadOf i) = 3 := hm
  have hp : s.leadOf i < 8 := (s.leadOf_le i).trans_lt hi
  unfold State.passedEdge
  dsimp only
  rw [hlead, hpm]
  refine ⟨_, if_pos rfl, ?_, ?_, ?_, by simp⟩ <;> rw [State.modPulse_pulse_same _ _ _ hp] <;> simp

theorem execPulseEdge_both (i : Fin 8) (x : IT) (l : Bool) (h : Nat) (s : State) (ha : s.power.dev.awake = true)
    (hl : (s.pulse i).level ≠ some l) (hf : s.filterTime i ≤ h) (hm : s.pulseMode i ≠ 5) (hq : s.pulseMode (s.leadOf i) = 3) :
    ∃ t, exec (.pulseEdge i x l true h) s = .next t ∧ (t.pulse (s.leadOf i)).count = (s.pulse (s.leadOf i)).count ∧
      (t.pulse (s.leadOf i)).illegal = sat32 ((s.pulse (s.leadOf i)).illegal + 1) ∧
      (t.pulse (s.leadOf i)).uncert = sat32 ((s.pulse (s.leadOf i)).uncert + 2) ∧ Unchanged [.it, .motion] s t := by
  obtain ⟨u, hu, hcount, hillegal, huncert, hmask⟩ := (s.at (x + s.filterTime i)).passedEdge_both i x l i.isLt hq
  refine ⟨u, ?_, hcount, hillegal, huncert, Unchanged.of_mask (hmask.trans (State.at_mask s _ (by simp)))⟩
  rw [execPulseEdge_passed i x l true h s ha hl hf hm, hu]

/-- Whether the passed edge of line `i` to level `l` of the pair with lead `p` finds line A moving ahead of B (R62): A comes to differ
from B, or B comes to equal A. -/
def State.leadAhead (s : State) (p i : Nat) (l : Bool) : Bool :=
  if i = p then l != (s.pulse (p + 1)).level.getD false else (s.pulse p).level.getD false == l

/-- The polarity turns the direction about. -/
theorem not_ite_polarity (ahead : Bool) (n : Nat) : (!(if n = 1 then !ahead else ahead)) = (ahead == (n == 1)) := by
  by_cases h : n = 1
  · simp [h]
  · simp [h, beq_eq_false_iff_ne.mpr h]

/-- The count falls where it does not rise. -/
theorem ite_beq_eq_ite_not (ahead turned : Bool) (down up : Int) :
    (if ahead == turned then down else up) = if ahead = !turned then up else down := by
  cases ahead <;> cases turned <;> rfl

/-- An edge of one line of a QUADRATURE pair is counted by the levels and the polarity (R62). -/
theorem State.passedEdge_quad (s : State) (i : Nat) (t : IT) (l : Bool) (hi : i < 8) (hm : s.pulseMode (s.leadOf i) = 3) :
    s.passedEdge i t l false = (s.lineEdge i t l).countStep (s.leadOf i)
      (s.leadAhead (s.leadOf i) i l == (s.pN (0x2010 + s.leadOf i) 0xD == 1)) t := by
  have hlead : (s.lineEdge i t l).leadOf i = s.leadOf i := rfl
  have hpm : (s.lineEdge i t l).pulseMode (s.leadOf i) = 3 := hm
  have hpn : (s.lineEdge i t l).pN (0x2010 + s.leadOf i) 0xD = s.pN (0x2010 + s.leadOf i) 0xD := rfl
  unfold State.passedEdge
  dsimp only
  rw [hlead, hpm]
  refine (if_neg Bool.false_ne_true).trans ?_
  unfold State.quadEdge State.leadAhead
  dsimp only
  rw [hpn]
  have hself := s.lineEdge_level_same i t l hi
  rcases s.leadOf_quad i hm with h | h
  · rw [h, hself, s.lineEdge_level_other i t l (i + 1) (by omega)]
    simp [not_ite_polarity]
  · have hne : i ≠ s.leadOf i := by omega
    have hA := s.lineEdge_level_other i t l (s.leadOf i) hne.symm
    rw [h, hself, hA]
    simp [not_ite_polarity, hne]

theorem execPulseEdge_quad (i : Fin 8) (x : IT) (l : Bool) (h : Nat) (s : State) (ha : s.power.dev.awake = true)
    (hl : (s.pulse i).level ≠ some l) (hf : s.filterTime i ≤ h) (hm : s.pulseMode i ≠ 5) (hq : s.pulseMode (s.leadOf i) = 3) :
    ∃ t, exec (.pulseEdge i x l false h) s = .next t ∧
      (t.pulse (s.leadOf i)).count = clampI (s.pI (0x2010 + s.leadOf i) 9) (s.pI (0x2010 + s.leadOf i) 0xA)
        (if s.leadAhead (s.leadOf i) i l = !(s.pN (0x2010 + s.leadOf i) 0xD == 1)
          then (s.pulse (s.leadOf i)).count + 1 else (s.pulse (s.leadOf i)).count - 1) ∧
      (t.pulse (s.leadOf i)).uncert = (s.pulse (s.leadOf i)).uncert ∧ Unchanged [.it, .motion, .rate, .skein] s t := by
  have hp : s.leadOf i < 8 := (s.leadOf_le i).trans_lt i.isLt
  set p := s.leadOf i with hpdef
  let s1 := s.at (x + s.filterTime i)
  let s2 := s1.lineEdge i x l
  let falls := s.leadAhead p i l == (s.pN (0x2010 + p) 0xD == 1)
  obtain ⟨hcount, -, -, -, huncert⟩ := s2.countStep_pulse_same p falls x hp
  rw [s2.softLimits_counting p (by rw [show s2.pulseMode p = 3 from hq]; decide),
    s1.lineEdge_count] at hcount
  refine ⟨s2.countStep p falls x, ?_, hcount.trans (congrArg _ ?_), huncert.trans (s1.lineEdge_uncert i x l p),
    Unchanged.of_mask (by simp [s2, s1])⟩
  · rw [execPulseEdge_passed i x l false h s ha hl hf hm]
    exact congrArg Host.Outcome.next (s1.passedEdge_quad i x l i.isLt hq)
  · exact ite_beq_eq_ite_not _ _ _ _

/-! ### INDEX_EDGE (R59, R64, R71) -/

/-- An accepted index edge leaves the count, and every other input; with LOAD the count jumps at the next boundary. -/
theorem State.indexSeen_pulse_same (s : State) (l : Nat) (hl : l < 8) :
    (s.indexSeen l).pulse l = { s.pulse l with
      uncert := 0, idxSeen := true,
      jump := if s.pN (0x2010 + l) 0xB = 1 then some (s.pI (0x2010 + l) 0xC) else (s.pulse l).jump } := by
  unfold State.indexSeen
  extract_lets s1
  have h1 : s1.pulse l = _ := State.modPulse_pulse_same _ _ _ hl
  have hn : s1.pN (0x2010 + l) 0xB = s.pN (0x2010 + l) 0xB := rfl
  rw [hn]
  split
  · rw [State.modPulse_pulse_same _ _ _ hl, h1]
    rfl
  · exact h1

theorem State.indexSeen_pulse_other (s : State) (l q : Nat) (hq : q ≠ l) : (s.indexSeen l).pulse q = s.pulse q := by
  simp only [State.indexSeen]
  split <;> simp [hq]

/-- INDEX_EDGE is accepted where the filtered level is low, or was low for the filter time before, and the line holds high. -/
theorem execIndexEdge_accepted (p : Fin 2) (x : IndexIn) (s : State) (ha : s.power.dev.awake = true)
    (hi : s.pulseMode (4 + p.val) = 5) (hl : s.pulseMode (2 * p.val) = 3)
    (hlow : (s.pulse (4 + p.val)).level ≠ some true ∨ s.filterTime (4 + p.val) ≤ x.low) (hf : s.filterTime (4 + p.val) ≤ x.held) :
    ∃ t, exec (.indexEdge p x) s = .next t ∧ t.pulse (4 + p.val) = { s.pulse (4 + p.val) with level := some true } ∧
      (t.pulse (2 * p.val)).uncert = 0 ∧ (t.pulse (2 * p.val)).idxSeen = true ∧
      (t.pulse (2 * p.val)).count = (s.pulse (2 * p.val)).count ∧
      (s.pN (0x2010 + 2 * p.val) 0xB = 1 → (t.pulse (2 * p.val)).jump = some (s.pI (0x2010 + 2 * p.val) 0xC)) ∧
      (∀ k, k ≠ 2 * p.val → k ≠ 4 + p.val → t.pulse k = s.pulse k) ∧ Unchanged [.it, .motion] s t := by
  have hp := p.isLt
  let s1 := (s.at (x.at_ + s.filterTime (4 + p.val))).modPulse (4 + p.val) (fun y => { y with level := some true })
  have hother : ∀ k, k ≠ 4 + p.val → s1.pulse k = s.pulse k := fun k hk => State.modPulse_pulse_other _ _ _ _ hk
  have hlead := s1.indexSeen_pulse_same (2 * p.val) (by omega)
  rw [hother _ (by omega)] at hlead
  refine ⟨s1.indexSeen (2 * p.val), ?_, ?_, by rw [hlead], by rw [hlead], by rw [hlead], fun hload => ?_, fun k h1 h2 => ?_,
    Unchanged.of_mask (by simp [s1])⟩
  · show Host.Outcome.next (s.whenAwake _) = _
    rw [State.whenAwake_awake ha]
    dsimp only
    rw [if_neg (by simp [hi, hl]), if_neg (by rintro ⟨h1, h2⟩; exact hlow.elim (absurd h1) (Nat.not_le.mpr h2)), if_pos hf]
  · exact (s1.indexSeen_pulse_other _ _ (by omega)).trans (State.modPulse_pulse_same _ _ _ (by omega))
  · rw [hlead]
    exact if_pos hload
  · exact (s1.indexSeen_pulse_other _ _ h1).trans (hother k h2)

/-- The other rises are glitches: the filtered level stays the one it was. -/
theorem execIndexEdge_glitch (p : Fin 2) (x : IndexIn) (s : State) (ha : s.power.dev.awake = true)
    (hi : s.pulseMode (4 + p.val) = 5) (hl : s.pulseMode (2 * p.val) = 3)
    (hg : (s.pulse (4 + p.val)).level = some true ∧ x.low < s.filterTime (4 + p.val) ∨
      (s.pulse (4 + p.val)).level ≠ some true ∧ x.held < s.filterTime (4 + p.val)) :
    ∃ t, exec (.indexEdge p x) s = .next t ∧ (t.pulse (4 + p.val)).glitches = sat32 ((s.pulse (4 + p.val)).glitches + 1) ∧
      (t.pulse (4 + p.val)).level = some ((s.pulse (4 + p.val)).level == some true) ∧
      (∀ k, k ≠ 4 + p.val → t.pulse k = s.pulse k) ∧ Unchanged [.it, .motion] s t := by
  have he : ∃ y l, exec (.indexEdge p x) s = .next ((s.at y).lineGlitch (4 + p.val) l) ∧ (!l) = ((s.pulse (4 + p.val)).level == some true) := by
    have h0 : exec (.indexEdge p x) s = .next (s.whenAwake _) := rfl
    rw [State.whenAwake_awake ha] at h0
    dsimp only at h0
    rw [if_neg (by simp [hi, hl])] at h0
    rcases hg with hg | ⟨hlev, hheld⟩
    · rw [if_pos hg] at h0
      exact ⟨_, _, h0, by rw [hg.1]; rfl⟩
    · rw [if_neg (fun h => hlev h.1), if_neg (Nat.not_le.mpr hheld)] at h0
      exact ⟨_, _, h0, (beq_eq_false_iff_ne.mpr hlev).symm⟩
  obtain ⟨y, l, he, hlev⟩ := he
  have hs : ((s.at y).lineGlitch (4 + p.val) l).pulse (4 + p.val) = _ := State.modPulse_pulse_same _ _ _ (by omega)
  exact ⟨_, he, congrArg Pulse.glitches hs, (congrArg Pulse.level hs).trans (congrArg some hlev),
    fun k hk => State.modPulse_pulse_other _ _ _ _ hk, Unchanged.of_mask (by simp)⟩

/-! ### PULSE_STOP_TIMEOUT (R66) -/

/-- A running pulse input stops at its stop timeout. -/
theorem execPulseStopTimeout_pulse (i : Fin 8) (s : State) (ha : s.power.dev.awake = true) (hs : 1 < (s.pulse i).status) :
    ∃ t, exec (.pulseStopTimeout (.pulse i)) s = .next t ∧ t.pulse i = { s.pulse i with status := 1, edges := [] } ∧
      t.it = max s.it ((s.pulse i).last + s.pN (0x2010 + i.val) 7 * 1000000) ∧
      (∀ k, k ≠ i.val → t.pulse k = s.pulse k) ∧ Unchanged [.it, .motion] s t := by
  have he : exec (.pulseStopTimeout (.pulse i)) s = .next (s.whenAwake _) := rfl
  rw [State.whenAwake_awake ha] at he
  dsimp only at he
  rw [if_neg (Nat.not_le.mpr hs)] at he
  exact ⟨_, he, State.modPulse_pulse_same _ _ _ i.isLt, rfl, fun _ hk => State.modPulse_pulse_other _ _ _ _ hk, Unchanged.of_mask (by simp)⟩

/-- Settles O39: an edge by what passes the filter and how it counts, an index edge and a stop by their commands. -/
theorem pulseEdges : Obligations.PulseEdges := by
  refine ⟨execPulseEdge_counted, fun i x l b h s ha hl hf hm => execPulseEdge_glitch i x l b h s ha hl hf hm, ?_,
    execIndexEdge_accepted, execIndexEdge_glitch, execPulseStopTimeout_pulse⟩
  rintro i x l h _ s ha hl hf hm rfl hq
  exact ⟨execPulseEdge_both i x l h s ha hl hf hm hq, execPulseEdge_quad i x l h s ha hl hf hm hq⟩

end Sys2Proof.Machine

end

section

namespace Sys2Proof.Machine

/-! # Hall sets (R59, R66, R73, R74) and the inertial sensor's events (R87, R88) -/

@[simp] theorem State.modHall_mask {ps : List Part} (s : State) (h_ : Nat) (f : Hall → Hall) (h : [.motion] ⊆ ps) :
    (s.modHall h_ f).mask ps = s.mask ps := by
  simp at h
  simp [State.modHall, h]

theorem State.hall_of_motion {s t : State} (h : t.motion = s.motion) (k : Nat) : t.hall k = s.hall k := by
  simp [State.hall, h]

/-! ### What the filter passes (R59) -/

theorem ofNat_bits (b : BitVec 3) : BitVec.ofNat 3 (bits [b[0], b[1], b[2]]) = b := by
  revert b
  decide

/-- Where every line holds for the filter time, the new code passes. -/
theorem hallPassed_of_held (x : HallIn) (c : BitVec 3) (f : Nat) (h : ∀ k, k < 3 → f ≤ vget x.held k 0) :
    hallPassed x (some c) f = some x.code := by
  have h0 := h 0 (by decide)
  have h1 := h 1 (by decide)
  have h2 := h 2 (by decide)
  simp [hallPassed, List.range_succ, h0, h1, h2, ofNat_bits]

/-- Where none holds, the code that is held stands. -/
theorem hallPassed_of_not_held (x : HallIn) (c : BitVec 3) (f : Nat) (h : ∀ k, k < 3 → vget x.held k 0 < f) :
    hallPassed x (some c) f = some c := by
  have h0 := Nat.not_le.mpr (h 0 (by decide))
  have h1 := Nat.not_le.mpr (h 1 (by decide))
  have h2 := Nat.not_le.mpr (h 2 (by decide))
  simp [hallPassed, List.range_succ, h0, h1, h2, ofNat_bits]

/-! ### What a new code does to its set (R74) -/

theorem hallSector_le (c : BitVec 3) : hallSector c ≤ 6 := by
  revert c
  decide

/-- A set with a new code `c` after `o`, before its sector is judged: counted as illegal where two lines or more moved, as invalid where it
has no sector. -/
def Hall.counted (x : Hall) (o c : BitVec 3) : Hall :=
  { x with
    code := some c, badCode := hallSector c == 0,
    illegal := if 2 ≤ linesMoved o c then sat32 (x.illegal + 1) else x.illegal,
    invalid := if hallSector c = 0 then sat32 (x.invalid + 1) else x.invalid }

section

variable {x : Hall} {o : BitVec 3} (hx : x.code = some o) (t : IT) (c : BitVec 3) (acb : Bool)

include hx

/-- What a new code comes to: no edge, an edge in the forward sequence's direction or against it, or a sector taken without one. -/
theorem Hall.move_eq :
    x.move t c acb =
      if hallSector c = 0 then x.counted o c
      else if x.sector = 0 then { x.counted o c with sector := hallSector c }
      else if 2 ≤ linesMoved o c ∨ hallSector c = x.sector then x.counted o c
      else if hallSector c = x.sector % 6 + 1 then (x.counted o c).edge t acb (hallSector c)
      else if x.sector = hallSector c % 6 + 1 then (x.counted o c).edge t (!acb) (hallSector c)
      else { x.counted o c with sector := hallSector c } := by
  unfold Hall.move Hall.counted
  rw [hx]
  by_cases hs : hallSector c = 0
  · by_cases hj : 2 ≤ linesMoved o c <;> simp [hj, hs]
  · have hb : (hallSector c == 0) = false := beq_eq_false_iff_ne.mpr hs
    by_cases hj : 2 ≤ linesMoved o c <;> simp [hj, hs, hb]

/-- Whatever the move, its code is held and counted. -/
theorem Hall.move_counted :
    (x.move t c acb).code = some c ∧ (x.move t c acb).illegal = (x.counted o c).illegal ∧
      (x.move t c acb).invalid = (x.counted o c).invalid ∧ (x.move t c acb).badCode = (hallSector c == 0) := by
  rw [Hall.move_eq hx]
  (repeat' split) <;> exact ⟨rfl, rfl, rfl, rfl⟩

/-- An illegal move and an invalid code are no edges. -/
theorem Hall.move_no_edge (h : 2 ≤ linesMoved o c ∧ x.sector ≠ 0 ∨ hallSector c = 0) : x.move t c acb = x.counted o c := by
  rw [Hall.move_eq hx]
  by_cases hs : hallSector c = 0
  · rw [if_pos hs]
  · obtain ⟨hj, h0⟩ := h.resolve_right hs
    rw [if_neg hs, if_neg h0, if_pos (.inl hj)]

/-- A move to the sector after the one held is an edge in direction `acb`. -/
theorem Hall.move_up (hl : linesMoved o c = 1) (h0 : x.sector ≠ 0) (hs : hallSector c = x.sector % 6 + 1) :
    x.move t c acb = (x.counted o c).edge t acb (hallSector c) := by
  rw [Hall.move_eq hx, if_neg (by omega), if_neg h0, if_neg (by omega), if_pos hs]

/-- A move to the sector before it is an edge in the other direction. -/
theorem Hall.move_down (hl : linesMoved o c = 1) (hv : hallSector c ≠ 0) (hs : x.sector = hallSector c % 6 + 1) :
    x.move t c acb = (x.counted o c).edge t (!acb) (hallSector c) := by
  have hle := hallSector_le c
  rw [Hall.move_eq hx, if_neg hv, if_neg (by omega), if_neg (by omega), if_neg (by omega), if_pos hs]

end

/-! ### HALL_EDGE -/

/-- HALL_EDGE whose lines all hold a new code moves its set one filter time later; beside it the ports alone commutate. -/
theorem execHallEdge_moved (h : Fin 2) (x : IT) (q : HallIn) (o : BitVec 3) (s : State) (ha : s.power.dev.awake = true)
    (hen : s.pB (0x2040 + h.val) 1 = true) (hheld : ∀ k, k < 3 → s.pN (0x2040 + h.val) 4 ≤ vget q.held k 0)
    (ho : (s.hall h).code = some o) (hne : o ≠ q.code) :
    ∃ t, exec (.hallEdge h x q) s = .next t ∧
      Unchanged [.ports] ((s.at (x + s.pN (0x2040 + h.val) 4)).modHall h
        (fun y => y.move x q.code (s.pN (0x2040 + h.val) 2 == 1))) t := by
  have he : exec (.hallEdge h x q) s = .next (s.whenAwake _) := rfl
  rw [State.whenAwake_awake ha] at he
  dsimp only at he
  rw [ho, hallPassed_of_held q o _ hheld] at he
  dsimp only at he
  rw [if_neg (by simp [hen, hne])] at he
  exact ⟨_, he, Unchanged.of_mask (foldl_mask _ _ _ fun s g => by simp)⟩

/-- Settles O40: the set moved, by what a move counts and where it is an edge. -/
theorem hallMoves : Obligations.HallMoves := by
  rintro h x q o _ s ha hen hheld ho hne rfl
  obtain ⟨t, he, hu⟩ := execHallEdge_moved h x q o s ha hen hheld ho hne
  have hm : ∀ k, t.hall k = _ := State.hall_of_motion (hu .motion (by simp))
  have ht : t.hall h = (s.hall h).move x q.code (s.pN (0x2040 + h.val) 2 == 1) := (hm h).trans (State.modHall_hall_same _ _ _ h.isLt)
  obtain ⟨hcode, hillegal, hinvalid, hbad⟩ := Hall.move_counted ho x q.code (s.pN (0x2040 + h.val) 2 == 1)
  refine ⟨t, he, hu .it (by simp), ?_⟩
  rw [ht]
  refine ⟨hcode, hillegal, hinvalid, hbad, fun hno => ?_, fun hl h0 hs => ?_, fun hl _ hv hs => ?_,
    fun k hk => (hm k).trans (State.modHall_hall_other _ _ _ _ hk), ?_⟩
  · rw [Hall.move_no_edge ho _ _ _ hno]
    exact ⟨rfl, rfl, rfl, rfl, rfl⟩
  · rw [Hall.move_up ho _ _ _ hl h0 hs]
    refine ⟨rfl, ?_, rfl, rfl⟩
    by_cases hacb : s.pN (0x2040 + h.val) 2 = 1 <;> simp [Hall.edge, Hall.counted, hacb, Int.sub_eq_add_neg]
  · rw [Hall.move_down ho _ _ _ hl hv hs]
    refine ⟨rfl, ?_, rfl, rfl⟩
    by_cases hacb : s.pN (0x2040 + h.val) 2 = 1 <;> simp [Hall.edge, Hall.counted, hacb]
  · exact ((Unchanged.of_mask (ps := [.it, .motion]) (by simp)).mono (by simp)).trans (hu.mono (by simp))

/-- HALL_EDGE none of whose lines holds changes nothing. -/
theorem execHallEdge_not_held (h : Fin 2) (x : IT) (q : HallIn) (s : State) (ha : s.power.dev.awake = true)
    (hc : (s.hall h).code.isSome = true) (hheld : ∀ k, k < 3 → vget q.held k 0 < s.pN (0x2040 + h.val) 4) :
    exec (.hallEdge h x q) s = .next s := by
  obtain ⟨c, hc⟩ := Option.isSome_iff_exists.mp hc
  have he : exec (.hallEdge h x q) s = .next (s.whenAwake _) := rfl
  rw [State.whenAwake_awake ha] at he
  dsimp only at he
  rw [hc, hallPassed_of_not_held q c _ hheld] at he
  dsimp only at he
  rwa [if_pos (by simp)] at he

/-! ### PULSE_STOP_TIMEOUT of a Hall set (R66) -/

theorem execPulseStopTimeout_hall (h : Fin 2) (s : State) (ha : s.power.dev.awake = true) (hs : 1 < (s.hall h).status) :
    ∃ t, exec (.pulseStopTimeout (.hall h)) s = .next t ∧
      t.hall h = { s.hall h with
        status := 1, edges := [], slowAt := (if (s.hall h).status = 2 then (s.hall h).slowAt else t.it) } ∧
      t.it = max s.it ((s.hall h).last + s.pN (0x2040 + h.val) 5 * 1000000) ∧ Unchanged [.it, .motion] s t := by
  have he : exec (.pulseStopTimeout (.hall h)) s = .next (s.whenAwake _) := rfl
  rw [State.whenAwake_awake ha] at he
  dsimp only at he
  rw [if_neg (Nat.not_le.mpr hs)] at he
  exact ⟨_, he, State.modHall_hall_same _ _ _ h.isLt, rfl, Unchanged.of_mask (by simp)⟩

/-! ### Inertial events (R87, R88) -/

theorem execInertialSampleLate_awake (s : State) (ha : s.power.dev.awake = true) :
    ∃ t, exec .inertialSampleLate s = .next t ∧ t.motion.inert.soft = true ∧ t.motion.inert.fresh = false ∧
      t.motion.inert.faults = sat32 (s.motion.inert.faults + 1) ∧ t.it = max s.it (s.time.frame + 500000) ∧
      Unchanged [.it, .motion] s t :=
  ⟨_, congrArg Host.Outcome.next (State.whenAwake_awake ha _), rfl, rfl, rfl, rfl, Unchanged.of_mask (by simp)⟩

/-- STANDSTILL_BIAS takes the mean once standstill has held for P 0x2060.05. -/
theorem execStandstillBias_held (x t0 : IT) (s : State) (ha : s.power.dev.awake = true) (ht : s.motion.inert.still = some t0)
    (hn : s.motion.inert.n ≠ 0) (hx : t0 + s.pN 0x2060 5 * 1000000 ≤ x) :
    ∃ t, exec (.standstillBias x) s = .next t ∧ t.motion.inert.bias = s.motion.inert.mean ∧ t.motion.inert.status = 2 ∧
      t.motion.inert.estIt = some (max s.it x) ∧ t.motion.inert.estTemp = s.motion.inert.temp ∧ Unchanged [.it, .motion] s t := by
  have he : exec (.standstillBias x) s = .next (s.whenAwake _) := rfl
  rw [State.whenAwake_awake ha, ht] at he
  dsimp only at he
  rw [if_neg (not_or.mpr ⟨hn, Nat.not_lt.mpr hx⟩)] at he
  exact ⟨_, he, rfl, rfl, rfl, rfl, Unchanged.of_mask (by simp)⟩

/-- BIAS_STALE marks a valid bias P 0x2060.07 after the last standstill. -/
theorem execBiasStale_due (x : IT) (s : State) (ha : s.power.dev.awake = true) (ht : s.motion.inert.still = none)
    (hs : s.motion.inert.status = 2) (hx : s.motion.inert.stillAt + s.pN 0x2060 7 * 1000000000 ≤ x) :
    ∃ t, exec (.biasStale x) s = .next t ∧ t.motion.inert = { s.motion.inert with status := 3 } ∧ Unchanged [.it, .motion] s t := by
  have he : exec (.biasStale x) s = .next (s.whenAwake _) := rfl
  rw [State.whenAwake_awake ha] at he
  dsimp only at he
  rw [if_neg (by simpa [ht, hs] using hx)] at he
  exact ⟨_, he, rfl, Unchanged.of_mask (by simp)⟩

/-- Settles O41, each event by the theorem about its command. -/
theorem hallAndInertial : Obligations.HallAndInertial :=
  ⟨execHallEdge_not_held, execPulseStopTimeout_hall, execInertialSampleLate_awake, execStandstillBias_held, execBiasStale_due⟩

end Sys2Proof.Machine

end

section

namespace Sys2Proof.Machine

/-! # GNSS sentences and CAN-A messages (R78 to R80, R83) -/

section

variable {ps : List Part}

@[simp] theorem State.modUart_mask (s : State) (u : Nat) (f : Uart → Uart) (h : [.motion] ⊆ ps) : (s.modUart u f).mask ps = s.mask ps := by
  simp at h
  simp [State.modUart, h]

@[simp] theorem State.gather_mask (s : State) (m : Meas) (h : [.motion] ⊆ ps) : (s.gather m).mask ps = s.mask ps := by
  simp at h
  simp [State.gather, h]

@[simp] theorem State.n2kAccept_mask (s : State) (h : [.motion] ⊆ ps) : s.n2kAccept.mask ps = s.mask ps := by
  simp at h
  simp [State.n2kAccept, h]

end

/-! ### NMEA_SENTENCE (R78, R79) -/

section

variable (u : Fin 2) (x : IT) (b : Bytes) (s : State) (ha : s.power.dev.awake = true)

include ha

/-- A sentence that does not begin with $ or is too long counts as other. -/
theorem execNmeaSentence_other (hb : b.head? ≠ some 0x24 ∨ 82 < b.length) :
    ∃ t, exec (.nmeaSentence u x b) s = .next t ∧
      (t.uart u).other = sat32 ((s.uart u).other + 1) ∧ t.motion.gather = s.motion.gather ∧ Unchanged [.it, .motion] s t := by
  have he : exec (.nmeaSentence u x b) s = .next (s.whenAwake _) := rfl
  rw [State.whenAwake_awake ha] at he
  dsimp only at he
  rw [if_pos hb] at he
  exact ⟨_, he, congrArg Uart.other (State.modUart_uart_same _ _ _ u.isLt), rfl, Unchanged.of_mask (by simp)⟩

/-- One whose checksum fails counts as failing it. -/
theorem execNmeaSentence_checksum (h1 : b.head? = some 0x24) (h2 : b.length ≤ 82) (hc : checkedBody b = none) :
    ∃ t, exec (.nmeaSentence u x b) s = .next t ∧
      (t.uart u).csFail = sat32 ((s.uart u).csFail + 1) ∧ t.motion.gather = s.motion.gather ∧ Unchanged [.it, .motion] s t := by
  have he : exec (.nmeaSentence u x b) s = .next (s.whenAwake _) := rfl
  rw [State.whenAwake_awake ha] at he
  dsimp only at he
  rw [if_neg (by simp [h1, h2]), hc] at he
  exact ⟨_, he, congrArg Uart.csFail (State.modUart_uart_same _ _ _ u.isLt), rfl, Unchanged.of_mask (by simp)⟩

/-- An HDT that is enabled is accepted. -/
theorem execNmeaSentence_hdt (c : Bytes) (h1 : b.head? = some 0x24) (h2 : b.length ≤ 82) (hc : checkedBody b = some c)
    (hid : fieldOf (splitComma c) 0 = [0x48, 0x45, 0x48, 0x44, 0x54]) (hen : bit (s.pN (0x2050 + u.val) 3) 3 = true) :
    exec (.nmeaSentence u x b) s = .next
      (((s.at x).modUart u (fun y => { y with accepted := sat32 (y.accepted + 1) })).nmeaHdt u x (splitComma c)) := by
  have hkind : ∀ id : Bytes, id = [0x48, 0x45, 0x48, 0x44, 0x54] →
      (if id.length = 5 && (id.take 2).all isLetter then sentenceBit (id.drop 2) else none) = some 3 := by
    rintro _ rfl
    decide
  have he : exec (.nmeaSentence u x b) s = .next (s.whenAwake _) := rfl
  rw [State.whenAwake_awake ha] at he
  dsimp only at he
  rw [if_neg (by simp [h1, h2]), hc] at he
  dsimp only at he
  rw [hkind _ hid] at he
  dsimp only at he
  rwa [if_neg (by simp [hen])] at he

/-- Under a role with heading it gives a heading. -/
theorem execNmeaSentence_heading (c : Bytes) (a : Int) (h1 : b.head? = some 0x24) (h2 : b.length ≤ 82) (hc : checkedBody b = some c)
    (hid : fieldOf (splitComma c) 0 = [0x48, 0x45, 0x48, 0x44, 0x54]) (hen : bit (s.pN (0x2050 + u.val) 3) 3 = true)
    (hd : decimalOf (fieldOf (splitComma c) 1) 9 = some a) (hr : s.roleHas u 2 = true) :
    ∃ t, exec (.nmeaSentence u x b) s = .next t ∧ (t.uart u).accepted = sat32 ((s.uart u).accepted + 1) ∧
      t.motion.gather = s.motion.gather ++ [.heading u (s.validityUntimed u x) (degToBam a)] ∧ Unchanged [.it, .motion] s t := by
  let s1 := (s.at x).modUart u (fun y => { y with accepted := sat32 (y.accepted + 1) })
  have hu : s1.uart u = { s.uart u with accepted := sat32 ((s.uart u).accepted + 1) } := State.modUart_uart_same _ _ _ u.isLt
  have hv : s1.validityUntimed u x = s.validityUntimed u x := by
    unfold State.validityUntimed
    rw [hu]
    rfl
  have hg : s1.nmeaHdt u x (splitComma c) = s1.gather (.heading u (s.validityUntimed u x) (degToBam a)) := by
    unfold State.nmeaHdt
    rw [hd, hv]
    exact if_pos hr
  refine ⟨_, execNmeaSentence_hdt u x b s ha c h1 h2 hc hid hen, ?_⟩
  rw [show ((s.at x).modUart u _).nmeaHdt u x (splitComma c) = _ from hg]
  exact ⟨congrArg Uart.accepted hu, rfl, Unchanged.of_mask (by simp [s1])⟩

end

/-! ### CAN_A_MOTION_MESSAGE (R83) -/

/-- A heading message of an enabled source gives a heading, its latency taken off. -/
theorem execCanAMotionMessage_heading (x : IT) (src : Nat) (d : Bytes) (s : State) (ha : s.power.dev.awake = true)
    (hen : bit (s.pN 0x2058 1) 2 = true) (hsrc : s.pN 0x2058 2 = 255 ∨ s.pN 0x2058 2 = src) (href : natAt d 7 1 % 4 = 0)
    (hval : natAt d 1 2 ≤ 0xFFFC) :
    ∃ t, exec (.canAMotionMessage x 127250 src d) s = .next t ∧ t.motion.n2kOk = sat32 (s.motion.n2kOk + 1) ∧
      t.motion.gather = s.motion.gather ++ [.heading 2 (x - s.pN 0x2058 3) (radToAngle (natAt d 1 2))] ∧
      Unchanged [.it, .motion] s t := by
  have he : exec (.canAMotionMessage x 127250 src d) s = .next (s.whenAwake _) := rfl
  rw [State.whenAwake_awake ha] at he
  dsimp only at he
  rw [if_neg (by simp), if_neg (by simp), if_pos (by simpa [hen] using hsrc), if_neg (by simp [href]; omega)] at he
  exact ⟨_, he, rfl, rfl, Unchanged.of_mask (by simp)⟩

/-! ### The quality of a GGA (R80) -/

theorem ggaQuality_none (q : Int) (h : q ∉ [1, 2, 4, 5]) : ggaQuality q = 0 := by
  simp only [List.mem_cons, List.not_mem_nil, or_false, not_or] at h
  obtain ⟨h1, h2, h4, h5⟩ := h
  simp [ggaQuality, h1, h2, h4, h5]

/-- Settles O42: the sentences by how R78 judges them, the heading message, the qualities. -/
theorem motionMessages : Obligations.MotionMessages :=
  ⟨fun u x b s ha => ⟨execNmeaSentence_other u x b s ha, execNmeaSentence_checksum u x b s ha, execNmeaSentence_heading u x b s ha⟩,
   execCanAMotionMessage_heading, rfl, rfl, rfl, rfl, ggaQuality_none⟩

end Sys2Proof.Machine

end

section

namespace Sys2Proof.Machine

/-! # Writes with an effect of their own, and stored values (R63, R71, R100, R371 to R373, R447) -/

/-- Two states that differ in what a reply changes agree once the dictionary and the networks are forgotten. -/
theorem mask_set_dict_nets {ps : List Part} (s : State) (k : Dict) (n : Nets) (h : [.dict, .nets] ⊆ ps) :
    State.mask ps { s with dict := k, nets := n } = s.mask ps := by
  simp at h
  simp [State.mask, h]

/-! ### A command of a host (R371) -/

section

variable {s u : State} {r : Req} {x : Session} {i sub : Nat} {v : Bytes} {d : Desc}

/-- A write-only parameter that any session with control may write, and that acts at once (R371 to R373). -/
def isCommand (i sub : Nat) (d : Desc) : Prop :=
  indexInUse i = true ∧ sub ≠ 0 ∧ findDesc i sub = some d ∧ d.acc = 2 ∧ d.cls = 1 ∧ protectedParam i sub = false

/-- A command of a host that leaves time, the dictionary and the networks to its request: what it does, answered. -/
theorem State.hostWrite_effect {ps : List Part} (h : s.Takes r x) (hd : isCommand i sub d) (hval : valueFail d i sub v = none)
    (hlist : i < 0x2030 ∨ 0x2038 ≤ i) (hcoef : i < 0x3210 ∨ 0x3250 ≤ i) (himg : i ≠ 0x4402)
    (hcmd : (s.served r).writeCommand r.sid x.level i sub v = (u, 0)) (hu : u.mask ps = (s.served r).mask ps)
    (hps : .it ∉ ps ∧ .dict ∉ ps ∧ .nets ∉ ps) :
    ∃ k n, s.hostWrite r i sub v = { u with dict := k, nets := n } ∧ s.Accepted (s.hostWrite r i sub v) r ∧
      Unchanged (.it :: .dict :: .nets :: ps) s (s.hostWrite r i sub v) := by
  obtain ⟨huse, hsub, hdesc, hacc, hcls, hprot⟩ := hd
  obtain ⟨hit, hdict, hnets⟩ := hps
  have hk := Unchanged.of_mask hu
  have hy : u.session r.sid = some x := by
    rw [State.session, show u.nets = _ from hk .nets hnets]
    exact (State.served_session r.sid).trans h.known
  have hdu : u.dict = s.dict := hk .dict hdict
  obtain ⟨n, he, ha, -⟩ := State.hostWrite_accepted h huse hsub hdesc hacc hcls hprot hval hlist (hcoef.imp_right .inl) himg hcmd hy
    (hk .it hit) (by rw [hdu]) (by rw [hdu])
  refine ⟨_, n, he, ha, ?_⟩
  rw [he]
  have hr : Unchanged [.dict, .nets] u { u with dict := { u.dict with accepted := sat32 (u.dict.accepted + 1) }, nets := n } :=
    Unchanged.of_mask (mask_set_dict_nets u _ n (by simp))
  have hs : Unchanged [.it, .nets] s (s.served r) := Unchanged.of_mask (State.served_mask s r (by simp))
  exact ((hs.mono (by simp)).trans (hk.mono fun _ hp => by simp [hp])).trans (hr.mono (by simp))

/-! ### A stored value (R372, R373) -/

/-- What a write of a stored parameter that may change in every state passes. -/
theorem State.writeCheck_stored {lvl : Nat} (hstore : s.dict.storeBad = false) (hlvl : lvl ≠ 0) (hdev : s.power.dev ≠ .boot)
    (huse : indexInUse i = true) (hsub : sub ≠ 0) (hd : findDesc i sub = some d) (hacc : d.acc = 1) (hcls : d.cls ≠ 3)
    (hprot : protectedParam i sub = false) (hval : valueFail d i sub v = none) (hlist : i < 0x2030 ∨ 0x2038 ≤ i)
    (hcoef : i < 0x3210 ∨ 0x3250 ≤ i) (hfail : writeFail (s.proposed (pkey i sub) v) (pkey i sub) s.strict = 0) :
    s.writeCheck lvl i sub v = (0, 0) := by
  have hw : s.writesServed i sub = true := by simp [State.writesServed, hdev]
  have hl : s.listMisplaced i sub = false := by
    rcases hlist with h | h <;> simp [State.listMisplaced, Nat.not_le.mpr, Nat.not_lt.mpr, h]
  have hk : (decide (0x3210 ≤ i) && decide (i < 0x3250) && s.coefHeld) = false := by
    rcases hcoef with h | h <;> simp [Nat.not_le.mpr, Nat.not_lt.mpr, h]
  simp only [State.writeCheck, State.valueCheck, hstore, huse, hsub, hd, hlvl, hprot, hw, hval, hl, hk, hfail]
  simp [hacc, hcls]

/-- A stored value of a host that passes: stored, with the effect of its own, counted and answered. -/
theorem State.hostWrite_stored {y : Session} (h : s.Takes r x) (himg : i ≠ 0x4402) (hd : findDesc i sub = some d) (hacc : d.acc ≠ 2)
    (hraise : needsRaised i sub v s.card.life = false) (hcheck : (s.served r).writeCheck x.level i sub v = (0, 0))
    (hw : (((s.served r).beforeWrite i sub).storeValue d i sub v).writeEffect i sub ((s.served r).imageValue i sub) v = u)
    (hy : u.session r.sid = some y) (hit : u.it = max s.it r.rx) (haccd : u.dict.accepted = s.dict.accepted)
    (href : u.dict.refused = s.dict.refused) :
    ∃ n, s.hostWrite r i sub v = { u with dict := { u.dict with accepted := sat32 (u.dict.accepted + 1) }, nets := n } ∧
      s.Accepted (s.hostWrite r i sub v) r := by
  have hp : (s.served r).writeAny r.sid x.level i sub v = u.acceptWrite false (d.effective i (max s.it r.rx)) := by
    have hc : (s.served r).dict.commit.isSome = false := by simp [h.commit]
    simp only [State.writeAny, hc, State.performWrite, hcheck, hd, hw]
    simp [himg, hacc, hraise]
  obtain ⟨n, hn, -, -, -, -, -, -, -, hfound, -⟩ := State.remember_answer
    (u := (u.acceptWrite false (d.effective i (max s.it r.rx))).s) (r := r)
    (if decide (v.length ≤ maxPayload r.sid.net) then writeReply 0 (max s.it r.rx) (d.effective i (max s.it r.rx))
      else lastAck 0 v.length (max s.it r.rx))
    (if decide (v.length ≤ maxPayload r.sid.net) then 2 else 4) i sub hy
  have e : s.hostWrite r i sub v = { u with dict := { u.dict with accepted := sat32 (u.dict.accepted + 1) }, nets := n } := by
    unfold State.hostWrite
    rw [State.serve_new h.toServes]
    unfold State.execute
    simp only [hp, himg, if_false]
    exact hn
  refine ⟨n, e, ?_⟩
  rw [e]
  refine ⟨by simp [haccd], by simp [href], hit, _, _, hfound, rfl, rfl, rfl, ?_⟩
  dsimp only
  split <;> rfl

end

/-! ### The three commands (R63, R71, R447) -/

/-- The descriptor of P 0x202i.0B. -/
def uncertaintyDesc : Desc := ⟨0x2020, 8, 0x0B, 1, 1, false, 1, 2, 1, 0, 1, 1, 0x0, 1, 1, 0x0⟩

theorem isCommand_uncertainty (i : Fin 8) : isCommand (0x2020 + i.val) 0xB uncertaintyDesc := by
  revert i
  unfold isCommand
  decide +kernel

theorem valueFail_uncertainty (i : Fin 8) : valueFail uncertaintyDesc (0x2020 + i.val) 0xB [1] = none := by
  revert i
  decide +kernel

/-- The descriptor of P 0x202i.0C. -/
def setCountDesc : Desc := ⟨0x2020, 8, 0x0C, 6, 4, false, 1, 2, 1, 0, (-2147483648), 2147483647, 0x0, 1, 4, 0x0⟩

theorem isCommand_setCount (i : Fin 8) : isCommand (0x2020 + i.val) 0xC setCountDesc := by
  revert i
  unfold isCommand
  decide +kernel

/-- The descriptor of P 0x4003.02. -/
def clearLastWordDesc : Desc := ⟨0x4003, 1, 0x02, 1, 1, false, 1, 2, 1, 0, 1, 1, 0x0, 1, 1, 0x0⟩

theorem isCommand_clearLastWord : isCommand 0x4003 2 clearLastWordDesc := by
  unfold isCommand
  decide +kernel

theorem leNat_lt (v : Bytes) : leNat v < 256 ^ v.length := by
  induction v with
  | nil => simp [leNat]
  | cons b v ih =>
    have hb : b.toNat < 256 := b.isLt
    rw [leNat, List.length_cons, pow_succ]
    omega

/-- Four bytes read as an I32 are in its range. -/
theorem leInt_four (v : Bytes) (h : v.length = 4) : -2147483648 ≤ leInt v ∧ leInt v ≤ 2147483647 := by
  have hlt := leNat_lt v
  rw [h] at hlt
  norm_num at hlt
  unfold leInt sgn
  rw [h]
  norm_num
  split <;> omega

/-- Every I32 is a count that SET_COUNT takes. -/
theorem valueFail_setCount (i : Fin 8) (v : Bytes) (h : v.length = 4) : valueFail setCountDesc (0x2020 + i.val) 0xC v = none := by
  obtain ⟨hlo, hhi⟩ := leInt_four v h
  have hi := i.isLt
  have hc : scalarCode 6 (-2147483648) 2147483647 0 v = 0 := by
    show rangeCode _ _ (leInt v) = 0
    rw [rangeCode, if_neg (by omega), if_neg (by omega)]
  have h1 : ¬ 0x3100 ≤ 0x2020 + i.val := by omega
  simp [valueFail, setCountDesc, h, hc, h1]

theorem execResetUncertainty_accepted (r : Req) (x : Session) (i : Fin 8) (s : State) (h : s.Takes r x) :
    ∃ t, exec (.resetUncertainty r i) s = .next t ∧ t.pulse i = { s.pulse i with uncert := 0 } ∧
      (∀ k, k ≠ i.val → t.pulse k = s.pulse k) ∧ s.Accepted t r ∧ Unchanged [.it, .motion, .dict, .nets] s t := by
  have hi := i.isLt
  have hcmd : (s.served r).writeCommand r.sid x.level (0x2020 + i.val) 0xB [1] = ((s.served r).resetUncert i, 0) := by
    unfold State.writeCommand
    rw [if_neg (by omega), if_pos (by omega), if_pos rfl, Nat.add_sub_cancel_left]
  obtain ⟨k, n, he, ha, hu⟩ := State.hostWrite_effect (ps := [.motion]) h (isCommand_uncertainty i) (valueFail_uncertainty i)
    (.inl (by omega)) (.inl (by omega)) (by omega) hcmd (State.modPulse_mask _ _ _ (by simp)) (by simp)
  refine ⟨_, rfl, ?_, fun q hq => ?_, ha, hu.mono (by simp)⟩
  all_goals rw [he]
  · exact State.modPulse_pulse_same (s.served r) _ _ i.isLt
  · exact State.modPulse_pulse_other (s.served r) _ _ _ hq

theorem execSetCount_accepted (r : Req) (x : Session) (i : Fin 8) (v : Bytes) (s : State) (h : s.Takes r x) (hv : v.length = 4) :
    ∃ t, exec (.setCount r i v) s = .next t ∧ t.pulse i = { s.pulse i with jump := some (leInt v) } ∧
      (∀ k, k ≠ i.val → t.pulse k = s.pulse k) ∧ s.Accepted t r ∧ Unchanged [.it, .motion, .dict, .nets] s t := by
  have hi := i.isLt
  have hcmd : (s.served r).writeCommand r.sid x.level (0x2020 + i.val) 0xC v = ((s.served r).setCount i (leInt v), 0) := by
    unfold State.writeCommand
    rw [if_neg (by omega), if_pos (by omega), if_neg (by decide), Nat.add_sub_cancel_left]
  obtain ⟨k, n, he, ha, hu⟩ := State.hostWrite_effect (ps := [.motion]) h (isCommand_setCount i) (valueFail_setCount i v hv)
    (.inl (by omega)) (.inl (by omega)) (by omega) hcmd (State.modPulse_mask _ _ _ (by simp)) (by simp)
  refine ⟨_, rfl, ?_, fun q hq => ?_, ha, hu.mono (by simp)⟩
  all_goals rw [he]
  · exact State.modPulse_pulse_same (s.served r) _ _ i.isLt
  · exact State.modPulse_pulse_other (s.served r) _ _ _ hq

theorem execClearLastWord_accepted (r : Req) (x : Session) (s : State) (h : s.Takes r x) :
    ∃ t, exec (.clearLastWord r) s = .next t ∧ t.skein = { s.skein with lastWord := [] } ∧
      s.Accepted t r ∧ Unchanged [.it, .skein, .dict, .nets] s t := by
  have hcmd : (s.served r).writeCommand r.sid x.level 0x4003 2 [1] = ((s.served r).clearLastWord, 0) := rfl
  obtain ⟨k, n, he, ha, hu⟩ := State.hostWrite_effect (ps := [.skein]) h isCommand_clearLastWord (by decide +kernel)
    (.inr (by decide)) (.inr (by decide)) (by decide) hcmd (State.modSkein_mask _ _ (by simp)) (by simp)
  refine ⟨_, rfl, ?_, ha, hu.mono (by simp)⟩
  rw [he]
  rfl

/-! ### A fold (R100, R373) -/

/-- The descriptor of P 0x2110.03. -/
def foldDesc : Desc := ⟨0x2110, 1, 0x03, 10, 1, false, 1, 1, 2, 0, 0, 0, 0xFF, 1, 1, 0x0⟩

theorem findDesc_fold : findDesc 0x2110 3 = some foldDesc := by decide +kernel

/-- Every byte is a fold: its eight bits name the eight groups. -/
theorem valueFail_fold (v : Byte) : valueFail foldDesc 0x2110 3 [v] = none := by
  have hm : ∀ i < 8, bit 0xFF i = true := by decide
  have hc : scalarCode 10 0 0 0xFF [v] = 0 := by
    refine if_neg ?_
    simp only [List.any_eq_true, List.mem_range, not_exists, not_and]
    intro i hi
    simp [hm i hi]
  simp [valueFail, foldDesc, hc]

/-- The state in which a fold is stored, the one in use kept until the next boundary. -/
def State.foldStored (s : State) (v : Byte) : State :=
  s.modDict (fun k => { k with
    old := aput (pkey 0x2110 3) (s.dict.inUse 0x2110 3, nextBoundary s.it) k.old,
    store := aput (pkey 0x2110 3) [v] k.store })

theorem State.storeValue_fold (s : State) (v : Byte) :
    ((s.beforeWrite 0x2110 3).storeValue foldDesc 0x2110 3 [v]).writeEffect 0x2110 3 (s.imageValue 0x2110 3) [v] = s.foldStored v := by
  have hb : effectBoundary 0x2110 3 s.it = nextBoundary s.it := if_pos (by simp)
  have hs : (s.beforeWrite 0x2110 3).storeValue foldDesc 0x2110 3 [v] = s.foldStored v := by
    unfold State.foldStored
    rw [← hb]
    rfl
  rw [hs]
  rfl

theorem alookup_aput {α : Type} (k : Nat) (v : α) (l : List (Nat × α)) : alookup k (aput k v l) = some v := if_pos rfl

theorem execFoldStateWrite_accepted (r : Req) (x : Session) (v : Byte) (s : State) (h : s.Takes r x)
    (hf : writeFail (s.proposed (pkey 0x2110 3) [v]) (pkey 0x2110 3) s.strict = 0) :
    ∃ t, exec (.foldStateWrite r v) s = .next t ∧ alookup (pkey 0x2110 3) t.dict.store = some [v] ∧
      alookup (pkey 0x2110 3) t.dict.old = some (s.dict.inUse 0x2110 3, nextBoundary (max s.it r.rx)) ∧
      s.Accepted t r ∧ Unchanged [.it, .dict, .nets] s t := by
  have hcheck : (s.served r).writeCheck x.level 0x2110 3 [v] = (0, 0) :=
    State.writeCheck_stored h.store (Nat.one_le_iff_ne_zero.mp h.level) h.dev (by decide +kernel) (by decide) findDesc_fold rfl (by decide)
      (by decide +kernel) (valueFail_fold v) (.inr (by decide)) (.inl (by decide)) hf
  have hy : ((s.served r).foldStored v).session r.sid = some x := (State.served_session r.sid).trans h.known
  obtain ⟨n, he, ha⟩ := State.hostWrite_stored h (by decide) findDesc_fold (by decide) (by simp [needsRaised, protectedParam]) hcheck
    (State.storeValue_fold _ v) hy rfl rfl rfl
  refine ⟨_, rfl, ?_, ?_, ha, ?_⟩
  all_goals rw [he]
  · exact alookup_aput _ _ _
  · exact alookup_aput _ _ _
  · have hs : Unchanged [.it, .nets] s (s.served r) := Unchanged.of_mask (State.served_mask s r (by simp))
    exact (hs.mono (by simp)).trans (Unchanged.of_mask (mask_set_dict_nets (s.served r) _ n (by simp)))

/-- Settles O24, each write by the theorem about its command. -/
theorem smallWrites : Obligations.SmallWrites :=
  ⟨execResetUncertainty_accepted, execSetCount_accepted, execClearLastWord_accepted, execFoldStateWrite_accepted⟩

end Sys2Proof.Machine

end

section

namespace Sys2Proof.Machine

/-! # Bridges and ports: stalls, trips, retries and cleared latches (R314, R316) -/

/-- A port whose STALL stands does not drive. -/
theorem State.commutate_pt_stalled (s : State) (g : Nat) (hg : g < 2) (h : (s.pt g).stall = true) :
    ((s.commutate g).pt g).driving = false := by
  have hf : s.ptFree g = false := by simp [State.ptFree, h]
  unfold State.commutate
  rw [State.modPt_pt_same _ _ _ hg]
  simp [hf]

theorem State.commutate_stall (s : State) (g : Nat) (hg : g < 2) : ((s.commutate g).pt g).stall = (s.pt g).stall := by
  unfold State.commutate
  rw [State.modPt_pt_same _ _ _ hg]

theorem State.commutate_latch (s : State) (g : Nat) (hg : g < 2) :
    ((s.commutate g).pt g).latch = (s.pt g).latch ∧ ((s.commutate g).pt g).trips = (s.pt g).trips := by
  unfold State.commutate
  rw [State.modPt_pt_same _ _ _ hg]
  exact ⟨rfl, rfl⟩

/-- MOTOR_STALL that is due: the port stalls and its gates go off. -/
theorem execMotorStall_due (g : Fin 2) (x : IT) (s : State) (h : s.stallDue g x = true) :
    ∃ t, exec (.motorStall g x) s = .next t ∧ (t.pt g).stall = true ∧ (t.pt g).driving = false := by
  refine ⟨(((s.at x).modPt g (fun p => ({ p with stall := true }).count 2)).commutate g).record 0x9003 g [], ?_, ?_, ?_⟩
  · simp only [exec, execMotorStall, h, Bool.not_true, Bool.false_eq_true, if_false]
  all_goals rw [State.record_pt]
  · rw [State.commutate_stall _ _ g.isLt, State.modPt_pt_same _ _ _ g.isLt]
    rfl
  · refine State.commutate_pt_stalled _ _ g.isLt ?_
    rw [State.modPt_pt_same _ _ _ g.isLt]
    rfl

/-! ### Trips and retries (R316) -/

/-- A trip ends what a bridge drives and holds it off for its retry delay. -/
theorem State.bridgeTrip_br (s : State) (h : Nat) (t : IT) (hh : h < 4) :
    ((s.bridgeTrip h t).br h).tripTill = some (t + s.pN (0x3500 + h) 0x11 * 1000000) ∧ ((s.bridgeTrip h t).br h).drive = none := by
  unfold State.bridgeTrip
  extract_lets trips latch s1 s2
  have h2 : (s2.br h).tripTill = some (t + s.pN (0x3500 + h) 0x11 * 1000000) ∧ (s2.br h).drive = none := by
    have hd : s1.dict = s.dict := by simp only [s1]; split <;> rfl
    simp only [s2]
    rw [State.modBr_br_same _ _ _ hh, State.pN_of_dict hd]
    split <;> exact ⟨rfl, rfl⟩
  split
  · rw [State.report_br, State.record_br]
    exact h2
  · exact h2

/-- OUTPUT_TRIP of a bridge above 16 A. -/
theorem execOutputTrip_overCurrent (o : Fin 6) (ma : Nat) (x : IT) (s : State) (ha : s.power.dev.awake = true) (ho : o.val < 4)
    (hm : 16000 < ma) :
    ∃ t, exec (.outputTrip o (.overCurrent ma) x) s = .next t ∧
      (t.br o).tripTill = some (x + s.pN (0x3500 + o.val) 0x11 * 1000000) ∧ (t.br o).drive = none := by
  have ht : s.tripsOutput o (.overCurrent ma) = true := decide_eq_true ⟨ho, hm⟩
  refine ⟨(s.at x).bridgeTrip o x, ?_, (s.at x).bridgeTrip_br o x ho⟩
  simp only [exec, execOutputTrip, State.whenAwake, ha, ht, ho, if_true, Bool.not_true, Bool.false_eq_true, if_false]

theorem State.bridgeCmd_tripTill (s : State) (h : Nat) (u : F32) (hh : h < 4) :
    ((s.bridgeCmd h u).br h).tripTill = (s.br h).tripTill := by
  unfold State.bridgeCmd
  extract_lets cur u' neg turn free s1
  have h1 : (s1.br h).tripTill = (s.br h).tripTill := by
    simp only [s1]
    rw [State.modBr_br_same _ _ _ hh]
  split
  · exact h1
  · rw [State.passDuty_br]
    exact h1

theorem State.modBr_tripTill (s : State) (h : Nat) (f : Bridge → Bridge) (hh : h < 4) (hf : ∀ b, (f b).tripTill = b.tripTill) :
    ((s.modBr h f).br h).tripTill = (s.br h).tripTill := by
  rw [State.modBr_br_same _ _ _ hh, hf]

theorem State.valveStart_tripTill (s : State) (h : Nat) (opens : Bool) (pct : Nat) (hh : h < 4) :
    ((s.valveStart h opens pct).br h).tripTill = (s.br h).tripTill := by
  rw [State.valveStart_br_same _ _ _ _ hh]
  rfl

theorem State.valveClose_tripTill (s : State) (h : Nat) (hh : h < 4) : ((s.valveClose h).br h).tripTill = (s.br h).tripTill := by
  obtain ⟨c, hc⟩ := s.valveClose_br_same h hh
  rw [hc]
  rfl

theorem State.valveAsk_tripTill (s : State) (h : Nat) (first : IT) (hh : h < 4) :
    ((s.valveAsk h first).br h).tripTill = (s.br h).tripTill := by
  unfold State.valveAsk
  extract_lets ma
  have hq : (s.requestTorque h ma (secondBoundary (s.takesAt (1 + h)))).1.br h = s.br h :=
    State.br_of_bridges (Unchanged.of_mask (State.requestTorque_mask (ps := [.loads, .budget, .skein]) _ _ _ _ (by simp)) .bridges (by simp)) h
  generalize s.requestTorque h ma (secondBoundary (s.takesAt (1 + h))) = q at hq ⊢
  obtain ⟨u, v⟩ := q
  dsimp only at hq ⊢
  rw [← hq]
  have hs : ∀ (w : State) (a b : IT) (pct : Nat), (((w.valveStart h true pct).sprayStart (128 + h) a b).br h).tripTill = (w.br h).tripTill :=
    fun w a b pct => w.valveStart_tripTill h true pct hh
  have hr : ∀ f : Bridge → Bridge, (∀ b, (f b).tripTill = b.tripTill) → (((u.modBr h f).record 0x9002 h []).br h).tripTill = (u.br h).tripTill :=
    fun f hf => by rw [State.record_br, u.modBr_tripTill h f hh hf]
  cases v with
  | granted => exact hs _ _ _ _
  | limited p => exact hs _ _ _ _
  | deferred d =>
    dsimp only
    split
    · exact hr _ fun _ => rfl
    · exact u.modBr_tripTill h _ hh fun _ => rfl
  | shed => exact hr _ fun _ => rfl

/-- What a resumed bridge does is no new trip. -/
theorem State.bridgeResume_tripTill (s : State) (h : Nat) (hh : h < 4) : ((s.bridgeResume h).br h).tripTill = (s.br h).tripTill := by
  unfold State.bridgeResume
  split
  · rfl
  split
  · exact s.modBr_tripTill h _ hh fun _ => rfl
  split
  · rfl
  split
  · exact s.modBr_tripTill h _ hh fun _ => rfl
  split
  · exact s.bridgeCmd_tripTill h _ hh
  split
  · split
    · rfl
    · rw [State.passDuty_br]
  · exact (State.valveAsk_tripTill _ _ _ hh).trans (s.modBr_tripTill h _ hh fun _ => rfl)
  · exact s.valveStart_tripTill h _ _ hh
  · exact s.valveClose_tripTill h hh

/-- OUTPUT_RETRY_EXPIRY of a bridge. -/
theorem execOutputRetryExpiry_bridge (o : Fin 6) (x : IT) (s : State) (ho : o.val < 4) (ht : (s.br o).tripTill = some x) :
    ∃ t, exec (.outputRetryExpiry o) s = .next t ∧ (t.br o).tripTill = none ∧ t.it = max s.it x := by
  refine ⟨((s.at x).modBr o (fun b => { b with tripTill := none })).bridgeResume o, ?_, ?_, ?_⟩
  · simp only [exec, execOutputRetryExpiry, ho, ht, if_true]
  · rw [State.bridgeResume_tripTill _ _ ho, State.modBr_br_same _ _ _ ho]
  · exact Unchanged.of_mask (State.bridgeResume_mask (ps := [.dis, .spin, .bridges, .loads, .budget, .skein, .freeCtr]) _ _ (by simp))
      .it (by simp)

/-! ### Cleared latches (R316) -/

/-- The descriptor of P 0x3508+g.0E. -/
def portLatchDesc : Desc := ⟨0x3508, 2, 0x0E, 1, 1, false, 1, 2, 1, 0, 1, 1, 0x0, 1, 1, 0x0⟩

theorem isCommand_portLatch (o : Fin 6) (ho : 4 ≤ o.val) : isCommand (0x3504 + o.val) 0xE portLatchDesc := by
  revert o
  unfold isCommand
  decide +kernel

theorem valueFail_portLatch (o : Fin 6) : valueFail portLatchDesc (0x3504 + o.val) 0xE [1] = none := by
  revert o
  decide +kernel

/-- CLEAR_OUTPUT_LATCH of a port. -/
theorem execClearOutputLatch_port (r : Req) (x : Session) (o : Fin 6) (s : State) (h : s.Takes r x) (ho : 4 ≤ o.val) :
    ∃ t, exec (.clearOutputLatch r o) s = .next t ∧ (t.pt (o.val - 4)).latch = false ∧ (t.pt (o.val - 4)).trips = [] ∧ s.Accepted t r := by
  have hg : o.val - 4 < 2 := by omega
  have hcmd : (s.served r).writeCommand r.sid x.level (0x3504 + o.val) 0xE [1] = ((s.served r).clearOutput o, 0) := by
    unfold State.writeCommand
    repeat rw [if_neg (by omega)]
    rw [if_pos (by omega), Nat.add_sub_cancel_left]
  have hc : (s.served r).clearOutput o =
      ((s.served r).modPt (o.val - 4) (fun p => { p with latch := false, trips := [] })).commutate (o.val - 4) := if_neg (by omega)
  obtain ⟨k, n, he, ha, -⟩ := State.hostWrite_effect (ps := [.ports]) h (isCommand_portLatch o ho) (valueFail_portLatch o)
    (.inr (by omega)) (.inr (by omega)) (by omega) hcmd (by rw [hc]; simp) (by simp)
  obtain ⟨hl, ht⟩ := State.commutate_latch ((s.served r).modPt (o.val - 4) (fun p => { p with latch := false, trips := [] })) _ hg
  rw [State.modPt_pt_same _ _ _ hg] at hl ht
  refine ⟨_, congrArg Host.Outcome.next (if_neg (by omega)), ?_, ?_, ha⟩
  all_goals rw [he, hc]
  · exact hl
  · exact ht

end Sys2Proof.Machine

end

section

namespace Sys2Proof.Machine

/-! # Load switches (R324 to R331) -/

/-! ### What a switch is left with -/

theorem vmod_vmod {α : Type} {n : Nat} (v : Vector α n) (i : Nat) (f g : α → α) :
    vmod (vmod v i f) i g = vmod v i (fun x => g (f x)) := by
  unfold vmod
  split <;> simp

theorem State.modLd_modLd (s : State) (j : Nat) (f g : Load → Load) :
    (s.modLd j f).modLd j g = s.modLd j (fun l => g (f l)) := by
  simp only [State.modLd, vmod_vmod]

theorem State.ld_of_sw {s t : State} (h : t.loads.sw = s.loads.sw) (q : Nat) : t.ld q = s.ld q := by
  simp [State.ld, h]

theorem State.ld_of_loads {s t : State} (h : t.loads = s.loads) (q : Nat) : t.ld q = s.ld q :=
  State.ld_of_sw (congrArg Loads.sw h) q

theorem State.refill_sw (s : State) (t : IT) : (s.refill t).loads.sw = s.loads.sw := rfl

theorem State.spinsFollow_ld (s : State) (q : Nat) : s.spinsFollow.ld q = s.ld q :=
  State.ld_of_loads (Unchanged.of_mask (State.spinsFollow_mask (ps := [.spin]) s (by simp)) .loads (by simp)) q

theorem State.spinsFollow_it (s : State) : s.spinsFollow.it = s.it :=
  Unchanged.of_mask (State.spinsFollow_mask (ps := [.spin]) s (by simp)) .it (by simp)

theorem State.ldTry_it (s : State) (j : Nat) : (s.ldTry j).it = s.it :=
  Unchanged.of_mask (State.ldTry_mask (ps := [.loads, .budget, .skein]) s j (by simp)) .it (by simp)

/-! ### The gates of a switch-on: no trip ends at them (R324, R326) -/

theorem State.modLd_tripAt (s : State) (j q : Nat) (f : Load → Load) (hf : ∀ l, (f l).tripAt = l.tripAt := by exact fun _ => rfl) :
    ((s.modLd j f).ld q).tripAt = (s.ld q).tripAt := by
  by_cases hq : q = j
  · subst hq
    unfold State.modLd State.ld vmod
    split
    · next h => simp [vget, h, hf]
    · rfl
  · rw [State.modLd_ld_other _ _ _ _ hq]

theorem State.releaseClamp_tripAt (s : State) (j q : Nat) : ((s.releaseClamp j).ld q).tripAt = (s.ld q).tripAt := by
  unfold State.releaseClamp
  exact (State.modLd_tripAt _ _ _ _).trans (congrArg Load.tripAt (State.ld_of_sw (s.refill_sw s.it) q))

theorem State.shedLoad_tripAt (s : State) (j q : Nat) : ((s.shedLoad j).ld q).tripAt = (s.ld q).tripAt := by
  unfold State.shedLoad
  extract_lets ma s1 s2
  have h2 : (s2.ld q).tripAt = (s1.ld q).tripAt := State.modLd_tripAt _ _ _ _
  rw [State.record_ld, State.ld_of_sw (t := s2.addResv _) (s := s2) rfl, h2]
  exact s.releaseClamp_tripAt j q

theorem State.shedUntil_tripAt (s : State) (input ma : Nat) (l : List Nat) (q : Nat) :
    ((s.shedUntil input ma l).ld q).tripAt = (s.ld q).tripAt := by
  induction l generalizing s with
  | nil => rfl
  | cons j l ih =>
    unfold State.shedUntil
    split
    · rfl
    · exact (ih _).trans (s.shedLoad_tripAt j q)

theorem State.judge_tripAt (s : State) (a : Ask) (q : Nat) : ((s.judge a).1.ld q).tripAt = (s.ld q).tripAt := by
  have hd : s.dropResvs.ld q = s.ld q := State.ld_of_loads rfl q
  rw [← hd]
  unfold State.judge
  extract_lets u h order freed h2 soon back h4 first
  split
  · rfl
  split
  · rfl
  split
  · exact State.shedUntil_tripAt _ _ _ _ _
  (repeat' split) <;> rfl

theorem State.request_tripAt (s : State) (a : Ask) (till : IT) (pull : Bool) (q : Nat) :
    ((s.request a till pull).1.ld q).tripAt = (s.ld q).tripAt := by
  have hj := s.judge_tripAt a q
  unfold State.request
  generalize s.judge a = p at hj ⊢
  obtain ⟨u, v⟩ := p
  cases v <;> exact hj

theorem State.requestLoad_tripAt (s : State) (j q : Nat) : ((s.requestLoad j).1.ld q).tripAt = (s.ld q).tripAt :=
  s.request_tripAt _ _ _ q

/-- A reservation of `e` nJ taken from the reservoir for switch `j`. -/
def State.takeClamp (s : State) (j e : Nat) : State :=
  let s := s.modLd j (fun l => { l with locked := false, resv := e })
  { s with loads := { s.loads with avail := s.loads.avail - e } }

theorem State.takeClamp_tripAt (s : State) (j q e : Nat) : ((s.takeClamp j e).ld q).tripAt = (s.ld q).tripAt :=
  (congrArg Load.tripAt (State.ld_of_sw rfl q)).trans (s.modLd_tripAt j q (fun l => { l with locked := false, resv := e }))

theorem State.reserveClamp_tripAt (s : State) (j q : Nat) : ((s.reserveClamp j).1.ld q).tripAt = (s.ld q).tripAt := by
  have hu : (s.refill s.it).ld q = s.ld q := State.ld_of_sw (s.refill_sw s.it) q
  rw [← hu]
  unfold State.reserveClamp
  extract_lets u e new u1 l1 u2
  split
  · exact u.modLd_tripAt j q _
  split
  · exact u.modLd_tripAt j q (fun l => { l with locked := true })
  · exact u.takeClamp_tripAt j q e

theorem State.ldTry_tripAt (s : State) (j q : Nat) : ((s.ldTry j).ld q).tripAt = (s.ld q).tripAt := by
  unfold State.ldTry
  dsimp only
  have hc := s.reserveClamp_tripAt j q
  generalize s.reserveClamp j = c at hc ⊢
  obtain ⟨u, ok⟩ := c
  have hq := u.requestLoad_tripAt j q
  generalize u.requestLoad j = p at hq ⊢
  obtain ⟨w, v⟩ := p
  split
  · rfl
  dsimp only at hc hq ⊢
  split
  · exact hc
  · rw [← hc, ← hq]
    cases v <;> exact State.modLd_tripAt _ _ _ _

/-- Nothing keeps switch `j` from its gates: it is off and wanted on, without latch, trip, fault or thermal hold. -/
structure State.LdReady (s : State) (j : Nat) : Prop where
  off   : (s.ld j).on = false
  want  : s.ldWant j = true
  therm : (s.ld j).therm = false
  retry : (s.ld j).retryL = false
  fault : s.contained 0xE005 (7 + j) = false
  hold  : s.ldThermHold j = false
  trip  : (s.ld j).tripAt = none

/-- A switch that passes both gates goes on as a whole. -/
theorem State.ldTry_granted {s u v : State} {j : Nat} (h : s.LdReady j) (hc : s.reserveClamp j = (u, true))
    (hr : u.requestLoad j = (v, .granted)) :
    s.ldTry j = v.modLd j (fun l => { l with on := true, pct := 100, shed := false, waitTill := none, held := false, onSince := v.it }) := by
  simp [State.ldTry, h.off, h.want, h.therm, h.retry, h.fault, h.hold, h.trip, hc, hr]

/-- The gates do not move time. -/
theorem State.gates_it {s u v : State} {j : Nat} {ok : Bool} {a : Verdict} (hc : s.reserveClamp j = (u, ok))
    (hr : u.requestLoad j = (v, a)) : v.it = s.it := by
  have h1 : u.it = s.it := by
    have h := Unchanged.of_mask (State.reserveClamp_mask (ps := [.loads]) s j (by simp)) .it (by simp)
    rwa [hc] at h
  have h2 : v.it = u.it := by
    have h := Unchanged.of_mask (State.requestLoad_mask (ps := [.loads, .budget, .skein]) u j (by simp)) .it (by simp)
    rwa [hr] at h
  exact h2.trans h1

/-- What a switch stands at once both gates let it through. -/
theorem State.ldTry_on {s u v : State} {j : Nat} (hj : j < 16) (h : s.LdReady j) (hc : s.reserveClamp j = (u, true))
    (hr : u.requestLoad j = (v, .granted)) :
    ((s.ldTry j).spinsFollow.ld j).on = true ∧ ((s.ldTry j).spinsFollow.ld j).pct = 100 ∧
      ((s.ldTry j).spinsFollow.ld j).onSince = s.it := by
  rw [State.spinsFollow_ld, State.ldTry_granted h hc hr, State.modLd_ld_same _ _ _ hj, ← State.gates_it hc hr]
  exact ⟨rfl, rfl, rfl⟩

/-! ### Restarts (R326, R328) -/

/-- What governs a switch's temperature is its partner's junction beside the own one handed in. -/
theorem State.ldJunction_own (s : State) (t : IT) (j : Nat) (f : Load → Load) (q : Int) :
    ((s.at t).modLd j f).ldJunction j q = s.ldJunction j q := by
  unfold State.ldJunction
  rw [State.modLd_ld_other _ _ _ _ (Nat.succ_ne_self j)]
  rfl

/-- LOAD_RESTART where every condition of R328 holds. -/
theorem execLoadRestart_met (j : Fin 16) (x x0 : IT) (q : Int) (s : State) (ht : (s.ld j).tripAt = some x0)
    (hx : x0 + s.pN (0x3600 + j.val) 0xC * 1000000 ≤ x) (hn : (s.ld j).retries ≤ s.pN (0x3600 + j.val) 0xB)
    (hq : s.pN (0x3600 + j.val) 9 = 1 ∨ s.ldJunction j q < 1750 - 10 * s.pN (0x3600 + j.val) 0xA)
    (hth : (s.ld j).therm = false) (hre : (s.ld j).retryL = false) (hho : s.ldThermHold j = false) (hw : s.ldWant j = true)
    (hf : s.contained 0xE005 (7 + j.val) = false) (ho : (s.ld j).on = false) :
    ∃ t, exec (.loadRestart j x q) s = .next t ∧ (t.ld j).tripAt = none ∧ t.it = max s.it x ∧
      ∀ p u v, p = (s.at x).modLd j (fun l => { l with junction := q, tripAt := none }) → p.reserveClamp j = (u, true) →
        u.requestLoad j = (v, .granted) → (t.ld j).on = true ∧ (t.ld j).pct = 100 ∧ (t.ld j).onSince = max s.it x := by
  have hld : ((s.at x).modLd j (fun l => { l with junction := q, tripAt := none })).ld j =
      { s.ld j with junction := q, tripAt := none } := State.modLd_ld_same _ _ _ j.isLt
  have hready : ((s.at x).modLd j (fun l => { l with junction := q, tripAt := none })).LdReady j :=
    ⟨by rw [hld]; exact ho, hw, by rw [hld]; exact hth, by rw [hld]; exact hre, hf, hho, by rw [hld]⟩
  refine ⟨(((s.at x).modLd j (fun l => { l with junction := q, tripAt := none })).ldTry j).spinsFollow, ?_, ?_, ?_, ?_⟩
  · have hcool : (s.pN (0x3600 + j.val) 9 == 1 ||
        decide (s.ldJunction j q < 1750 - 10 * s.pN (0x3600 + j.val) 0xA)) = true := by
      simpa only [Bool.or_eq_true, beq_iff_eq, decide_eq_true_eq] using hq
    have hwant : ((s.at x).modLd j (fun l => { l with junction := q })).ldWant j = true := hw
    have hhold : ((s.at x).modLd j (fun l => { l with junction := q })).ldThermHold j = false := hho
    have hfault : ((s.at x).modLd j (fun l => { l with junction := q })).contained 0xE005 (7 + j.val) = false := hf
    simp only [exec, execLoadRestart, ht, State.ldJunction_own, State.modLd_pN, State.at_pN, hcool, hwant, hhold, hfault, hx, hn, hth, hre,
      decide_true, Bool.not_false, Bool.and_self, if_true, State.modLd_modLd]
  · rw [State.spinsFollow_ld, State.ldTry_tripAt, hld]
  · rw [State.spinsFollow_it, State.ldTry_it]
    rfl
  · rintro p u v rfl hc hr
    exact State.ldTry_on j.isLt hready hc hr

/-- LOAD_SHED_RETRY of a switch that nothing else keeps off. -/
theorem execLoadShedRetry_free (j : Fin 16) (x : IT) (s : State) (ht : (s.ld j).waitTill = some x) (hho : s.ldThermHold j = false)
    (hw : s.ldWant j = true) (hth : (s.ld j).therm = false) (hre : (s.ld j).retryL = false) (htr : (s.ld j).tripAt = none)
    (hf : s.contained 0xE005 (7 + j.val) = false) (ho : (s.ld j).on = false) :
    ∃ t, exec (.loadShedRetry j) s = .next t ∧ t.it = max s.it x ∧
      ∀ p u v, p = (s.at x).modLd j (fun l => { l with waitTill := none }) → p.reserveClamp j = (u, true) →
        u.requestLoad j = (v, .granted) → (t.ld j).on = true ∧ (t.ld j).pct = 100 ∧ (t.ld j).onSince = max s.it x := by
  have hld : ((s.at x).modLd j (fun l => { l with waitTill := none })).ld j = { s.ld j with waitTill := none } :=
    State.modLd_ld_same _ _ _ j.isLt
  have hready : ((s.at x).modLd j (fun l => { l with waitTill := none })).LdReady j :=
    ⟨by rw [hld]; exact ho, hw, by rw [hld]; exact hth, by rw [hld]; exact hre, hf, hho, by rw [hld]; exact htr⟩
  refine ⟨(((s.at x).modLd j (fun l => { l with waitTill := none })).ldTry j).spinsFollow, ?_, ?_, ?_⟩
  · simp only [exec, execLoadShedRetry, ht]
  · rw [State.spinsFollow_it, State.ldTry_it]
    rfl
  · rintro p u v rfl hc hr
    exact State.ldTry_on j.isLt hready hc hr

/-! ### Trips, counters and the open load (R327, R329, R330) -/

theorem State.recordIf_ld (s : State) (c : Bool) (code subj : Nat) (det : Bytes) (q : Nat) : (s.recordIf c code subj det).ld q = s.ld q := by
  unfold State.recordIf
  split <;> rfl

theorem State.loadOff_on (s : State) (j : Nat) (hj : j < 16) : ((s.loadOff j).ld j).on = false := by
  unfold State.loadOff
  rw [State.modLd_ld_same _ _ _ hj]

theorem State.clampMeasured_on (s : State) (j mj : Nat) (hj : j < 16) : ((s.clampMeasured j mj).ld j).on = (s.ld j).on := by
  unfold State.clampMeasured
  dsimp only
  split
  · rfl
  · rw [State.record_ld, State.modLd_ld_same _ _ _ hj]

/-- LOAD_TRIP that is met. -/
theorem execLoadTrip_met (j : Fin 16) (k : LoadTripKind) (x : IT) (mj : Nat) (s : State) (h : s.tripMet j k x = true) :
    ∃ t, exec (.loadTrip j k x mj) s = .next t ∧ (t.ld j).on = false ∧ (t.ld j).tripAt = some x := by
  have hx : exec (.loadTrip j k x mj) s = .next _ := congrArg Host.Outcome.next (if_neg (by simp [h]))
  refine ⟨_, hx, ?_⟩
  extract_lets s1 s2 r latchR latchT cause s3 s4 s5
  have h2 : (s2.ld j).on = false := (s1.clampMeasured_on j mj j.isLt).trans (State.loadOff_on _ j j.isLt)
  have h3 : (s3.ld j).on = (s2.ld j).on ∧ (s3.ld j).tripAt = some x := by
    simp only [s3, State.modLd_ld_same _ _ _ j.isLt]
    split <;> split <;> exact ⟨rfl, rfl⟩
  have h5 : s5.ld j = s3.ld j := (State.recordIf_ld _ _ _ _ _ _).trans (State.record_ld _ _ _ _ _)
  rw [h2, ← h5] at h3
  split
  · rw [State.report_ld]
    exact h3
  · exact h3

/-- LOAD_COUNTER_RESET of a switch that is on and not THERMAL-LATCHED. -/
theorem execLoadCounterReset_on (j : Fin 16) (s : State) (ho : (s.ld j).on = true) (ht : (s.ld j).therm = false) :
    ∃ t, exec (.loadCounterReset j) s = .next t ∧ (t.ld j).retries = 0 ∧
      t.it = max s.it ((s.ld j).onSince + s.pN (0x3600 + j.val) 0xD * 1000000) := by
  refine ⟨(s.at ((s.ld j).onSince + s.pN (0x3600 + j.val) 0xD * 1000000)).modLd j (fun l => { l with retries := 0 }), ?_, ?_, rfl⟩
  · simp only [exec, execLoadCounterReset, ho, ht, Bool.not_true, Bool.or_self, Bool.false_eq_true, if_false]
  · rw [State.modLd_ld_same _ _ _ j.isLt]

/-- OPEN_LOAD of a STATIC switch whose current has been low for 100 ms. -/
theorem execOpenLoad_low (j : Fin 16) (x a : IT) (s : State) (ho : (s.ld j).on = true) (hs : s.pN (0x3600 + j.val) 2 = 0)
    (hc : (s.ld j).current < s.pN (0x3600 + j.val) 0x12) (hl : (s.ld j).lowAt = some a) (hx : max (s.ld j).onSince a + 100000000 ≤ x) :
    ∃ t, exec (.openLoad j x) s = .next t ∧ (t.ld j).openLoad = true ∧ (t.ld j).on = true := by
  have hlow : s.lowSince j = some (max (s.ld j).onSince a) := by simp [State.lowSince, ho, hc, hl]
  refine ⟨(s.at x).modLd j (fun l => { l with openLoad := true }), ?_, ?_⟩
  · simp only [exec, execOpenLoad, hlow, hs, hx, and_self, if_true]
  · rw [State.modLd_ld_same _ _ _ j.isLt]
    exact ⟨rfl, ho⟩

/-! ### The commands of a host (R324, R329, R371, R373) -/

/-- The descriptor of P 0x3600+j.11. -/
def loadLatchDesc : Desc := ⟨0x3600, 16, 0x11, 10, 1, false, 1, 2, 1, 0, 0, 0, 0x3, 1, 1, 0x0⟩

theorem isCommand_loadLatch (j : Fin 16) : isCommand (0x3600 + j.val) 0x11 loadLatchDesc := by
  revert j
  unfold isCommand
  decide +kernel

/-- The two latches are the two bits that may be set. -/
theorem valueFail_loadLatch (j : Fin 16) (v : Byte) (hv : v.toNat < 4) : valueFail loadLatchDesc (0x3600 + j.val) 0x11 [v] = none := by
  have hc : scalarCode 10 0 0 0x3 [v] = 0 := by
    have h : v = 0 ∨ v = 1 ∨ v = 2 ∨ v = 3 := by bv_omega
    rcases h with rfl | rfl | rfl | rfl <;> decide
  simp [valueFail, loadLatchDesc, hc]

/-- CLEAR_LOAD_LATCHES. -/
theorem execClearLoadLatches_accepted (r : Req) (x : Session) (j : Fin 16) (v : Byte) (s : State) (h : s.Takes r x) (hv : v.toNat < 4) :
    ∃ t, exec (.clearLoadLatches r j v) s = .next t ∧ (t.ld j).therm = ((s.ld j).therm && !(bit v.toNat 0)) ∧
      (t.ld j).retryL = ((s.ld j).retryL && !(bit v.toNat 1)) ∧ s.Accepted t r := by
  have hj := j.isLt
  have hcmd : (s.served r).writeCommand r.sid x.level (0x3600 + j.val) 0x11 [v] = ((s.served r).clearLoad j v.toNat, 0) := by
    unfold State.writeCommand
    repeat rw [if_neg (by omega)]
    rw [if_pos (by omega), Nat.add_sub_cancel_left]
    rfl
  obtain ⟨k, n, he, ha, -⟩ := State.hostWrite_effect (ps := [.loads]) h (isCommand_loadLatch j) (valueFail_loadLatch j v hv)
    (.inr (by omega)) (.inr (by omega)) (by omega) hcmd (State.modLd_mask _ _ _ (by simp)) (by simp)
  have hl : (s.hostWrite r (0x3600 + j.val) 0x11 [v]).ld j = ((s.served r).clearLoad j v.toNat).ld j :=
    State.ld_of_loads (congrArg State.loads he) j
  refine ⟨_, rfl, ?_, ?_, ha⟩
  all_goals rw [hl, State.clearLoad, State.modLd_ld_same _ _ _ hj]
  all_goals rfl

/-- The descriptor of P 0x3600+j.10. -/
def loadCommandDesc : Desc := ⟨0x3600, 16, 0x10, 9, 1, false, 1, 1, 1, 0, 0, 0, 0x3, 1, 1, 0x0⟩

/-- A parameter that every session with control may write in every state. -/
theorem loadCommand_described (j : Fin 16) : indexInUse (0x3600 + j.val) = true ∧
    findDesc (0x3600 + j.val) 0x10 = some loadCommandDesc ∧ protectedParam (0x3600 + j.val) 0x10 = false := by
  revert j
  decide +kernel

theorem valueFail_loadCommand (j : Fin 16) (v : Byte) (hv : v.toNat < 2) : valueFail loadCommandDesc (0x3600 + j.val) 0x10 [v] = none := by
  have hc : scalarCode 9 0 0 0x3 [v] = 0 := by
    have h : v = 0 ∨ v = 1 := by bv_omega
    rcases h with rfl | rfl <;> decide
  simp [valueFail, loadCommandDesc, hc]

/-- The state in which the command of switch `j` is stored. -/
def State.loadStored (s : State) (j : Nat) (v : Byte) : State :=
  s.modDict (fun k => { k with store := aput (pkey (0x3600 + j) 0x10) [v] k.store })

/-- A stored command brings its switch to what is wanted of it, and the spinner with it (R326, R331). -/
theorem State.storeValue_loadCommand (s : State) (j : Fin 16) (was : Bytes) (v : Byte) :
    ((s.beforeWrite (0x3600 + j.val) 0x10).storeValue loadCommandDesc (0x3600 + j.val) 0x10 [v]).writeEffect (0x3600 + j.val) 0x10 was [v] =
      ((s.loadStored j v).ldFollow j).spinsFollow := by
  have hj := j.isLt
  have hb : s.beforeWrite (0x3600 + j.val) 0x10 = s := by
    simp only [State.beforeWrite, pkey]
    exact if_neg (by omega)
  have hs : s.storeValue loadCommandDesc (0x3600 + j.val) 0x10 [v] = s.loadStored j v := by
    have hf : faultResponseParam (0x3600 + j.val) 0x10 = false := by simp [faultResponseParam]
    simp [State.storeValue, loadCommandDesc, hf, State.loadStored]
  rw [hb, hs]
  simp only [State.writeEffect, pkey]
  repeat refine (if_neg (by omega)).trans ?_
  rw [if_pos (by omega), if_neg (by decide), Nat.add_sub_cancel_left]

/-- LOAD_SWITCH_COMMAND. -/
theorem execLoadSwitchCommand_accepted (r : Req) (x : Session) (j : Fin 16) (v : Byte) (s : State) (h : s.Takes r x) (hv : v.toNat < 2)
    (hf : writeFail (s.proposed (pkey (0x3600 + j.val) 0x10) [v]) (pkey (0x3600 + j.val) 0x10) s.strict = 0) :
    ∃ t, exec (.loadSwitchCommand r j v) s = .next t ∧ alookup (pkey (0x3600 + j.val) 0x10) t.dict.store = some [v] ∧ s.Accepted t r := by
  have hj := j.isLt
  obtain ⟨huse, hd, hprot⟩ := loadCommand_described j
  have hcheck : (s.served r).writeCheck x.level (0x3600 + j.val) 0x10 [v] = (0, 0) :=
    State.writeCheck_stored h.store (Nat.one_le_iff_ne_zero.mp h.level) h.dev huse (by decide) hd rfl (by decide)
      hprot (valueFail_loadCommand j v hv) (.inr (by omega)) (.inr (by omega)) hf
  have hu : Unchanged [.loads, .budget, .skein, .spin] ((s.served r).loadStored j v)
      ((((s.served r).loadStored j v).ldFollow j).spinsFollow) := Unchanged.of_mask (by simp)
  have hdict := hu .dict (by simp)
  have hnets := hu .nets (by simp)
  have hit := hu .it (by simp)
  simp only [Part.same] at hdict hnets hit
  have hy : ((((s.served r).loadStored j v).ldFollow j).spinsFollow).session r.sid = some x := by
    rw [State.session, hnets]
    exact (State.served_session r.sid).trans h.known
  have hraise : needsRaised (0x3600 + j.val) 0x10 [v] s.card.life = false := by
    have h1 : (0x3600 + j.val == 0x4310) = false := beq_eq_false_iff_ne.mpr (by omega)
    simp [needsRaised, hprot]
    omega
  obtain ⟨n, he, ha⟩ := State.hostWrite_stored h (by omega) hd (by decide) hraise hcheck
    ((s.served r).storeValue_loadCommand j _ v) hy hit (by rw [hdict]; rfl) (by rw [hdict]; rfl)
  refine ⟨_, rfl, ?_, ha⟩
  rw [he]
  dsimp only
  rw [hdict]
  exact alookup_aput _ _ _

end Sys2Proof.Machine

end

section

namespace Sys2Proof.Machine

/-! # The budget's overrun, supply faults, sensor supplies and the thermal timers (R339, R348, R358, R359) -/

/-- BUDGET_OVERRUN where the module is over the budget and class C2 not shed yet. -/
theorem execBudgetOverrun_over (x : IT) (s : State) (h : s.budget.overAt = some x) (hs : s.budget.shedC2 = false) :
    ∃ t, exec .budgetOverrun s = .next t ∧ t.budget.shedC2 = true ∧ t.it = max s.it (x + s.pN 0x1400 0xA * 1000000) := by
  refine ⟨_, by simp only [exec, execBudgetOverrun, h, hs, Bool.false_eq_true, if_false]; rfl, rfl, rfl⟩

theorem supplyCode_lt (y : SupplySubject) : supplyCode y < 4 := by cases y <;> decide

/-- SUPPLY_FAULT at a value that meets its threshold. -/
theorem execSupplyFault_met (y : SupplySubject) (c : SupplyCause) (v : Nat) (x : IT) (s : State) (ha : s.power.dev.awake = true)
    (hm : s.supplyMeets y c v = true) :
    ∃ t, exec (.supplyFault y c v x) s = .next t ∧ vget t.power.supplyLow (supplyCode y) false = true := by
  have hm' : (s.at x).supplyMeets y c v = true := hm
  refine ⟨_, by simp only [exec, execSupplyFault, State.whenAwake, ha, hm', if_true, Bool.not_true, Bool.false_eq_true, if_false]; rfl, ?_⟩
  rw [State.report_power, State.record_power]
  exact vget_vset_same _ _ _ _ (supplyCode_lt y)

/-- SENSOR_SUPPLY_OVERLOAD switches its supply off. -/
theorem execSensorSupplyOverload_awake (i : Fin 2) (x : IT) (s : State) (ha : s.power.dev.awake = true) :
    ∃ t, exec (.sensorSupplyOverload i x) s = .next t ∧ vget t.budget.svOff i none = some (max s.it x) := by
  refine ⟨_, by simp only [exec, execSensorSupplyOverload, State.whenAwake, ha, if_true]; rfl, ?_⟩
  rw [State.record_budget]
  exact vget_vset_same _ _ _ _ i.isLt

/-- SENSOR_SUPPLY_RETRY of a supply that is off. -/
theorem execSensorSupplyRetry_off (i : Fin 2) (x : IT) (s : State) (h : vget s.budget.svOff i none = some x) :
    ∃ t, exec (.sensorSupplyRetry i) s = .next t ∧ vget t.budget.svOff i none = none ∧ t.it = max s.it (x + 1000000000) := by
  refine ⟨_, by simp only [exec, execSensorSupplyRetry, h]; rfl, ?_, rfl⟩
  exact vget_vset_same _ _ _ _ i.isLt

/-- THROTTLE_HOLD_EXPIRY of a die whose hold runs. -/
theorem execThrottleHoldExpiry_held (d : Fin 6) (x : IT) (s : State) (h : vget s.therm.hold d none = some x) :
    ∃ t, exec (.throttleHoldExpiry d) s = .next t ∧ vget t.therm.hold d none = none ∧ t.it = max s.it x := by
  refine ⟨_, by simp only [exec, execThrottleHoldExpiry, h]; rfl, ?_, rfl⟩
  exact vget_vset_same _ _ _ _ d.isLt

/-! ### The sensors of a die in reset (R359) -/

theorem State.throttleHold_unavail (s : State) (d : Nat) : (s.throttleHold d).therm.unavail = s.therm.unavail := rfl

theorem State.resubstitute_unavail (s : State) (i : Nat) : (s.resubstitute i).therm.unavail = s.therm.unavail := by
  unfold State.resubstitute
  split
  · rfl
  next v hv =>
    extract_lets first s1 s2
    have h1 : s1.therm.unavail = s.therm.unavail := by
      simp only [s1, State.modTherm_therm]
      split <;> rfl
    have h2 : s2.therm = s1.therm := by
      simp only [s2, State.recordIf]
      split <;> rfl
    rw [← h1, ← h2]
    split <;> rfl

/-- What a failure leads to ends no die's 50 ms. -/
theorem State.noteFailure_unavail (s : State) (i cause : Nat) (hottest : Bool) :
    (s.noteFailure i cause hottest).therm.unavail = s.therm.unavail := by
  unfold State.noteFailure
  extract_lets d det masked s1 s2 s3
  have h3 : s3.therm.unavail = s.therm.unavail := by
    have h2 : s2.therm = s.therm := by
      simp only [s2]
      split <;> rfl
    exact (show s3.therm.unavail = s2.therm.unavail from rfl).trans (congrArg Thermal.unavail h2)
  rw [← h3]
  split
  · rfl
  · exact State.resubstitute_unavail _ _

theorem State.markFailed_unavail (s : State) (i cause : Nat) : (s.markFailed i cause).therm.unavail = s.therm.unavail := rfl

/-- A fold keeps what each of its steps keeps. -/
theorem foldl_keeps {α β : Type} (p : State → β) (g : State → α → State) (hg : ∀ s a, p (g s a) = p s) (l : List α) (s : State) :
    p (l.foldl g s) = p s := by
  induction l generalizing s with
  | nil => rfl
  | cons a l ih => exact (ih (g s a)).trans (hg s a)

/-- The sensors that fail electrically when the die of drive die `d` has been in reset for 50 ms. -/
def State.sensorsLost (s : State) (d : Nat) : State :=
  let lost := ([2 * d, 2 * d + 1].filter (fun i => !s.sensorFailed i)).map (fun i => (i, s.hottestOf i))
  lost.foldl (fun s p => s.noteFailure p.1 2 p.2) (lost.foldl (fun s p => s.markFailed p.1 2) s)

theorem State.sensorsLost_unavail (s : State) (d : Nat) : (s.sensorsLost d).therm.unavail = s.therm.unavail := by
  unfold State.sensorsLost
  rw [foldl_keeps (fun s => s.therm.unavail) _ fun s p => s.noteFailure_unavail _ _ _,
    foldl_keeps (fun s => s.therm.unavail) _ fun s p => s.markFailed_unavail _ _]

theorem State.sensorsLost_it (s : State) (d : Nat) : (s.sensorsLost d).it = s.it :=
  Unchanged.of_mask (ps := [.therm, .skein, .sup]) (by simp [State.sensorsLost]) .it (by simp)

/-- SENSOR_UNAVAILABLE_EXPIRY of a die in reset. -/
theorem execSensorUnavailableExpiry_reset (d : Fin 4) (x : IT) (s : State) (h : vget s.therm.unavail d none = some x) :
    ∃ t, exec (.sensorUnavailableExpiry d) s = .next t ∧ vget t.therm.unavail d none = none ∧ t.it = max s.it (x + 50000000) := by
  refine ⟨((s.at (x + 50000000)).modTherm (fun y => { y with unavail := vset y.unavail d none })).sensorsLost d, ?_, ?_, ?_⟩
  · simp only [exec, execSensorUnavailableExpiry, h]
    rfl
  · rw [State.sensorsLost_unavail]
    exact vget_vset_same _ _ _ _ d.isLt
  · rw [State.sensorsLost_it]
    rfl

end Sys2Proof.Machine

end

section

namespace Sys2Proof.Machine

/-! # Hank commands (R156, R158) -/

/-! ### A command record: its command byte, then its body -/

theorem natAt_cons (c : Byte) (b : Bytes) (o n : Nat) : natAt (c :: b) (o + 1) n = natAt b o n := rfl

theorem natAt_head (c : Byte) (b : Bytes) : natAt (c :: b) 0 1 = c.toNat := by
  simp [natAt, bytesAt, leNat]

/-- A command of another kind, a slot past the last or a reserved field is refused. -/
theorem State.hankJudge_slot {s : State} {b : Bytes} (h : s.hankJudge b = 0) : natAt b 1 1 < 16 := by
  by_contra hn
  have h7 : s.hankJudge b = 7 := if_pos (.inr (.inr (.inl (by omega))))
  rw [h] at h7
  cases h7

/-! ### What an accepted command does -/

@[simp] theorem State.hankAccept_mask {ps : List Part} (s : State) (b : Bytes) (h : [.dis] ⊆ ps) :
    (s.hankAccept b).mask ps = s.mask ps := by
  unfold State.hankAccept
  simp at h
  dsimp only
  (repeat' split) <;> simp [h]

/-- CREATE at a given origin takes effect at once. -/
theorem State.hankAccept_create (s : State) (b : Bytes) (hs : natAt b 0 1 < 16) (ho : natAt b 3 1 = 0) :
    ((s.hankAccept (1 :: b)).hank (natAt b 0 1)).state = 1 ∧ (s.hankAccept (1 :: b)).dis.result = 0 := by
  have he : s.hankAccept (1 :: b) = (s.hankCreate (natAt b 0 1) (1 :: b) ⟨intAt b 7 8, intAt b 15 8, intAt b 23 4⟩).modDis
      (fun d => { d with result := 0 }) := by
    have hc : natAt (1 :: b) 0 1 = 1 := natAt_head 1 b
    have hgiven : natAt (1 :: b) 4 1 ≠ 1 := by rw [natAt_cons, ho]; decide
    unfold State.hankAccept
    dsimp only
    rw [if_pos hc, if_neg hgiven]
    rfl
  rw [he]
  refine ⟨?_, rfl⟩
  exact congrArg Hank.state (State.modHank_hank_same s _ _ hs)

/-- DELETE takes effect at once. -/
theorem State.hankAccept_delete (s : State) (b : Bytes) (hs : natAt b 0 1 < 16) :
    ((s.hankAccept (4 :: b)).hank (natAt b 0 1)).state = 3 := by
  have he : s.hankAccept (4 :: b) = (s.modHank (natAt b 0 1) (fun h => { h with state := 3 })).modDis
      (fun d => { d with result := 0 }) := by
    unfold State.hankAccept
    dsimp only
    rw [natAt_head]
    rfl
  rw [he]
  exact congrArg Hank.state (State.modHank_hank_same s _ _ hs)

/-- OPEN and CLOSE wait for the next boundary. -/
theorem State.hankAccept_waits (s : State) (c : Byte) (b : Bytes) (hc : c = 2 ∨ c = 3) :
    (s.hankAccept (c :: b)).dis.wait = some ⟨c.toNat, natAt b 0 1, c :: b⟩ ∧ (s.hankAccept (c :: b)).dis.result = 1 := by
  unfold State.hankAccept
  dsimp only
  rw [natAt_head]
  rcases hc with rfl | rfl <;> exact ⟨rfl, rfl⟩

/-! ### The command of a host (R156, R371) -/

/-- The descriptor of P 0x2302.01. -/
def hankDesc : Desc := ⟨0x2302, 1, 0x01, 12, 64, false, 1, 2, 1, 0, 0, 0, 0x0, 0, 1, 0x0⟩

theorem isCommand_hank : isCommand 0x2302 1 hankDesc := by
  unfold isCommand
  decide +kernel

theorem valueFail_hank (v : Bytes) (h : v.length = 64) : valueFail hankDesc 0x2302 1 v = none := by
  simp [valueFail, hankDesc, h, layoutFail]

/-- A hank command of a host that its check accepts, while none waits and no Carding slice holds the header. -/
theorem State.hostWrite_hank {s : State} {r : Req} {x : Session} {c : Byte} {b : Bytes} (h : s.Takes r x) (hb : b.length = 63)
    (hr : s.dis.result ≠ 1) (hj : s.hankJudge (c :: b) = 0) (hs : s.sliceAt (headerAt (natAt b 0 1)) 4096 = false) :
    (s.hostWrite r 0x2302 1 (c :: b)).dis = ((s.served r).hankAccept (c :: b)).dis ∧
      s.Accepted (s.hostWrite r 0x2302 1 (c :: b)) r := by
  have hr' : ¬ (s.served r).dis.result = 1 := hr
  have hj' : (s.served r).hankJudge (c :: b) = 0 := hj
  have hs' : (s.served r).sliceAt (headerAt (natAt (c :: b) 1 1)) 4096 = false := hs
  have hcmd : (s.served r).writeCommand r.sid x.level 0x2302 1 (c :: b) = ((s.served r).hankAccept (c :: b), 0) := by
    have hw : (s.served r).writeCommand r.sid x.level 0x2302 1 (c :: b) = (s.served r).hankWrite (c :: b) := rfl
    simp [hw, State.hankWrite, State.hankCommand, hr', hj', hs']
  obtain ⟨k, n, he, ha, -⟩ := State.hostWrite_effect (ps := [.dis]) h isCommand_hank (valueFail_hank (c :: b) (by simp [hb]))
    (.inr (by decide)) (.inl (by decide)) (by decide) hcmd (State.hankAccept_mask _ _ (by simp)) (by simp)
  exact ⟨by rw [he], ha⟩

theorem State.hank_of_dis {s t : State} (h : t.dis = s.dis) (k : Nat) : t.hank k = s.hank k := by
  simp [State.hank, h]

/-- HANK_CREATE at a given origin. -/
theorem execHankCreate_accepted (r : Req) (x : Session) (b : Bytes) (s : State) (h : s.Takes r x) (hb : b.length = 63)
    (hr : s.dis.result ≠ 1) (hj : s.hankJudge (1 :: b) = 0) (ho : natAt b 3 1 = 0)
    (hs : s.sliceAt (headerAt (natAt b 0 1)) 4096 = false) :
    ∃ t, exec (.hankCreate r b) s = .next t ∧ (t.hank (natAt b 0 1)).state = 1 ∧ t.dis.result = 0 ∧ s.Accepted t r := by
  obtain ⟨hd, ha⟩ := State.hostWrite_hank h hb hr hj hs
  obtain ⟨hst, hres⟩ := (s.served r).hankAccept_create b (State.hankJudge_slot hj) ho
  exact ⟨_, rfl, by rw [State.hank_of_dis hd, hst], by rw [hd, hres], ha⟩

/-- HANK_OPEN. -/
theorem execHankOpen_accepted (r : Req) (x : Session) (b : Bytes) (s : State) (h : s.Takes r x) (hb : b.length = 63)
    (hr : s.dis.result ≠ 1) (hj : s.hankJudge (2 :: b) = 0) (hs : s.sliceAt (headerAt (natAt b 0 1)) 4096 = false) :
    ∃ t, exec (.hankOpen r b) s = .next t ∧ t.dis.wait = some ⟨2, natAt b 0 1, 2 :: b⟩ ∧ t.dis.result = 1 ∧ s.Accepted t r := by
  obtain ⟨hd, ha⟩ := State.hostWrite_hank h hb hr hj hs
  obtain ⟨hw, hres⟩ := (s.served r).hankAccept_waits 2 b (.inl rfl)
  exact ⟨_, rfl, by rw [hd, hw]; rfl, by rw [hd, hres], ha⟩

/-- HANK_CLOSE. -/
theorem execHankClose_accepted (r : Req) (x : Session) (b : Bytes) (s : State) (h : s.Takes r x) (hb : b.length = 63)
    (hr : s.dis.result ≠ 1) (hj : s.hankJudge (3 :: b) = 0) (hs : s.sliceAt (headerAt (natAt b 0 1)) 4096 = false) :
    ∃ t, exec (.hankClose r b) s = .next t ∧ t.dis.wait = some ⟨3, natAt b 0 1, 3 :: b⟩ ∧ t.dis.result = 1 ∧ s.Accepted t r := by
  obtain ⟨hd, ha⟩ := State.hostWrite_hank h hb hr hj hs
  obtain ⟨hw, hres⟩ := (s.served r).hankAccept_waits 3 b (.inr rfl)
  exact ⟨_, rfl, by rw [hd, hw]; rfl, by rw [hd, hres], ha⟩

/-- HANK_DELETE. -/
theorem execHankDelete_accepted (r : Req) (x : Session) (b : Bytes) (s : State) (h : s.Takes r x) (hb : b.length = 63)
    (hr : s.dis.result ≠ 1) (hj : s.hankJudge (4 :: b) = 0) (hs : s.sliceAt (headerAt (natAt b 0 1)) 4096 = false) :
    ∃ t, exec (.hankDelete r b) s = .next t ∧ (t.hank (natAt b 0 1)).state = 3 ∧ s.Accepted t r := by
  obtain ⟨hd, ha⟩ := State.hostWrite_hank h hb hr hj hs
  have hst := (s.served r).hankAccept_delete b (State.hankJudge_slot hj)
  exact ⟨_, rfl, by rw [State.hank_of_dis hd, hst], ha⟩

/-! ### The ends of a close sequence and of a delete (R156, R158) -/

/-- The pool's check keeps the slots, the tiles and the frames. -/
theorem State.poolCheck_dis (s : State) : s.poolCheck.dis = s.poolNote.dis := by
  unfold State.poolCheck State.recordIf
  split <;> rfl

theorem State.poolCheck_hank (s : State) (k : Nat) : s.poolCheck.hank k = s.hank k := by
  rw [State.hank_of_dis s.poolCheck_dis]
  rfl

/-- HANK_DELETE_DONE of a slot that is deleting. -/
theorem execHankDeleteDone_deleting (k : Fin 16) (x : IT) (s : State) (ha : s.power.dev.awake = true) (hst : (s.hank k).state = 3)
    (hs : s.sliceAt (headerAt k.val) 4096 = false) :
    ∃ t, exec (.hankDeleteDone k x) s = .next t ∧ t.hank k = Hank.reset ∧ t.it = max s.it x := by
  refine ⟨_, by simp only [exec, execHankDeleteDone, State.whenAwake, ha, if_true, hst, hs, ne_eq, not_true_eq_false, decide_false,
    Bool.or_self, Bool.false_eq_true, if_false]; rfl, ?_, ?_⟩
  · rw [State.poolCheck_hank]
    exact State.modHank_hank_same (s.at x) k (fun _ => Hank.reset) k.isLt
  · exact Unchanged.of_mask (State.poolCheck_mask (ps := [.dis, .skein]) _ (by simp)) .it (by simp)

/-- The close sequence of a hank and what it holds of the map. -/
theorem State.closeDone_dis (s : State) (c : CloseSeq) : (s.closeDone c).dis.close = none ∧ (s.closeDone c).dis.cache = [] := by
  unfold State.closeDone
  extract_lets k s1 s2 s3 s4 s5
  have h4 : s4.dis.close = none ∧ s4.dis.cache = [] := by
    simp only [s4]
    split <;> exact ⟨rfl, rfl⟩
  have h5 : s5.dis = s4.dis := by
    simp only [s5]
    split <;> rfl
  rw [← h5] at h4
  split
  · exact h4
  · exact h4

/-- CLOSE_SEQUENCE_DONE past the horizon, with no Carding slice in its way. -/
theorem execCloseSequenceDone_due (x : IT) (c : CloseSeq) (s : State) (h : s.dis.close = some c)
    (hg : s.power.geo = true → c.at_ < s.dis.horizon) (hh : s.closeHeld c.slot = false) :
    ∃ t, exec (.closeSequenceDone x) s = .next t ∧ t.dis.close = none ∧ t.dis.cache = [] ∧ t.it = max s.it (max x c.at_) := by
  obtain ⟨hclose, hcache⟩ := (s.at (max x c.at_)).closeDone_dis c
  refine ⟨(s.at (max x c.at_)).closeDone c, ?_, hclose, hcache, ?_⟩
  · have hd : (s.power.geo && decide (s.dis.horizon ≤ c.at_)) = false := by
      cases hgeo : s.power.geo with
      | false => rfl
      | true => simpa using hg hgeo
    simp only [exec, execCloseSequenceDone, h, hd, hh, Bool.or_self, Bool.false_eq_true, if_false]
  · exact Unchanged.of_mask (State.closeDone_mask (ps := [.power, .rov, .spd, .dis, .skein, .mram, .freeCtr]) _ _ (by simp)) .it (by simp)

end Sys2Proof.Machine

end

section

namespace Sys2Proof.Machine

/-! # Tiles: fills, write-backs and streams (R165, R167, R178, R180) -/

/-! ### Frames and tiles found by their key -/

theorem find?_map_of_keeps {α : Type} (p : α → Bool) (g : α → α) (hg : ∀ x, p (g x) = p x) (l : List α) :
    (l.map g).find? p = (l.find? p).map g := by
  rw [List.find?_map]
  congr 2
  funext x
  exact hg x

/-- What a descriptor is found by: its frame, its hank and its tile. -/
def Frame.key (f : Frame) : Nat × Nat × Int × Int := (f.frame, f.slot, f.col, f.row)

theorem Frame.key_eq {f g : Frame} (h : f.key = g.key) : f.frame = g.frame ∧ f.slot = g.slot ∧ f.col = g.col ∧ f.row = g.row := by
  simpa [Frame.key] using h

theorem State.frameOf_of_frames {s t : State} (h : t.dis.frames = s.dis.frames) (k : Nat) (c r : Int) : t.frameOf k c r = s.frameOf k c r := by
  simp [State.frameOf, h]

/-- A descriptor that changes elsewhere is found as before. -/
theorem State.modFrame_frameOf (s : State) (n : Nat) (f : Frame → Frame) (hf : ∀ x, (f x).key = x.key) (k : Nat) (c r : Int) :
    (s.modFrame n f).frameOf k c r = (s.frameOf k c r).map (fun x => if x.frame = n then f x else x) := by
  refine find?_map_of_keeps _ _ (fun x => ?_) _
  split
  · obtain ⟨-, hs, hc, hr⟩ := Frame.key_eq (hf x)
    rw [hs, hc, hr]
  · rfl

theorem State.cached_of_cache {s t : State} (h : t.dis.cache = s.dis.cache) (c r : Int) : t.cached c r = s.cached c r := by
  simp [State.cached, h]

theorem State.cached_key {s : State} {c r : Int} {w : CTile} (h : s.cached c r = some w) : w.col = c ∧ w.row = r := by
  have hp := List.find?_some h
  simpa using hp

/-- A tile that changes but for its key is found as changed. -/
theorem State.modTile_cached (s : State) (c r : Int) (f : CTile → CTile) (hf : ∀ x, (f x).col = x.col ∧ (f x).row = x.row) :
    (s.modTile c r f).cached c r = (s.cached c r).map f := by
  have hm : (s.modTile c r f).cached c r = (s.cached c r).map (fun x => if x.col = c ∧ x.row = r then f x else x) := by
    refine find?_map_of_keeps _ _ (fun x => ?_) _
    split
    · rw [(hf x).1, (hf x).2]
    · rfl
  rw [hm]
  cases h : s.cached c r with
  | none => rfl
  | some w => simp [State.cached_key h]

theorem State.poolCheck_frameOf (s : State) (k : Nat) (c r : Int) : s.poolCheck.frameOf k c r = s.frameOf k c r :=
  State.frameOf_of_frames (s := s) (by rw [s.poolCheck_dis]; rfl) k c r

theorem State.poolCheck_cached (s : State) (c r : Int) : s.poolCheck.cached c r = s.cached c r :=
  State.cached_of_cache (s := s) (by rw [s.poolCheck_dis]; rfl) c r

theorem State.poolCheck_mram (s : State) : s.poolCheck.mram = s.mram := by
  unfold State.poolCheck State.recordIf
  split <;> rfl

/-! ### A tile stored (R164, R165) -/

/-- Bytes that were written read back. -/
theorem Memory.readBlock_write (m : List Host.Cell) (a : Nat) (bs : Bytes) :
    Memory.readBlock (Memory.write m a bs) a bs.length = bs := by
  unfold Memory.readBlock
  refine List.ext_getElem (by simp) fun i h _ => ?_
  have hi : i < bs.length := by simpa using h
  rw [List.getElem_map, List.getElem_range, Memory.read_filter _ fun _ => by simp [hi], Memory.read_write_same m a bs i hi]

/-- A tile that has a frame keeps it. -/
theorem State.storeTile_kept {s : State} {k : Nat} {c r : Int} {x : Frame} (h : s.frameOf k c r = some x) (cells : Bytes)
    (f : Frame → Frame) (hf : ∀ y, (f y).key = y.key) :
    (s.storeTile k c r cells f).frameOf k c r = some { f x with crc := crc32 cells } ∧
      (s.storeTile k c r cells f).mram = Memory.write s.mram (x.frame * 4096) cells := by
  have he : s.storeTile k c r cells f = ({ s with mram := Memory.write s.mram (x.frame * 4096) cells }).modFrame x.frame
      (fun y => { f y with crc := crc32 cells }) := by
    simp only [State.storeTile, h]
  rw [he, State.modFrame_frameOf _ _ (fun y => { f y with crc := crc32 cells }) hf]
  refine ⟨?_, rfl⟩
  have h' : State.frameOf { s with mram := Memory.write s.mram (x.frame * 4096) cells } k c r = some x := h
  rw [h']
  exact congrArg some (if_pos rfl)

/-- A tile without a frame takes one. -/
theorem State.storeTile_taken {s : State} {k : Nat} {c r : Int} (h : s.frameOf k c r = none) (cells : Bytes)
    (f : Frame → Frame) (hf : ∀ y, (f y).key = y.key) :
    ∃ y, (s.storeTile k c r cells f).frameOf k c r = some y ∧ y.frame = s.pickFrame ∧ y.crc = crc32 cells ∧
      (s.storeTile k c r cells f).mram = Memory.write s.mram (s.pickFrame * 4096) cells := by
  let x : Frame := { frame := s.pickFrame, slot := k, col := c, row := r, damaged := false, streamed := false, marked := false,
                     unobs := 0, crc := 0, since := 0 }
  obtain ⟨hfr, hs, hc, hr⟩ := Frame.key_eq (hf x)
  refine ⟨{ f x with crc := crc32 cells }, ?_, hfr, rfl, ?_⟩
  · simp only [State.storeTile, h]
    refine List.find?_cons_of_pos ?_
    simp [x, hs, hc, hr]
  · simp only [State.storeTile, h]
    rfl

/-- A tile stored has a frame with its CRC-32 and its cells. -/
theorem State.storeTile_frameOf (s : State) (k : Nat) (c r : Int) (cells : Bytes) (f : Frame → Frame) (hf : ∀ y, (f y).key = y.key) :
    ∃ y, (s.storeTile k c r cells f).frameOf k c r = some y ∧ y.crc = crc32 cells ∧
      Memory.readBlock (s.storeTile k c r cells f).mram (y.frame * 4096) cells.length = cells := by
  cases h : s.frameOf k c r with
  | some x =>
    obtain ⟨hy, hm⟩ := State.storeTile_kept h cells f hf
    obtain ⟨hfr, -⟩ := Frame.key_eq (hf x)
    refine ⟨_, hy, rfl, ?_⟩
    rw [hm]
    dsimp only
    rw [hfr]
    exact Memory.readBlock_write _ _ _
  | none =>
    obtain ⟨y, hy, hfr, hcrc, hm⟩ := State.storeTile_taken h cells f hf
    refine ⟨y, hy, hcrc, ?_⟩
    rw [hm, hfr]
    exact Memory.readBlock_write _ _ _

theorem State.storeTile_cache (s : State) (k : Nat) (c r : Int) (cells : Bytes) (f : Frame → Frame) :
    (s.storeTile k c r cells f).dis.cache = s.dis.cache := by
  unfold State.storeTile
  split <;> rfl

/-! ### Write-back (R165, R180) -/

/-- A dirty tile written back. -/
theorem State.writeBack_dirty (s : State) (k : Nat) (w : CTile) (d : IT) (hd : w.dirty = some d) (hn : w.noAlloc = false)
    (hw : s.cached w.col w.row = some w) :
    ∃ f, (s.writeBack k w).frameOf k w.col w.row = some f ∧ f.crc = crc32 w.cells ∧
      (s.writeBack k w).cached w.col w.row = some { w with dirty := none, noAlloc := false, unobs := 0 } ∧
      Memory.readBlock (s.writeBack k w).mram (f.frame * 4096) w.cells.length = w.cells := by
  unfold State.writeBack
  rw [if_neg (by simp [hn]), if_neg (by simp [hd])]
  extract_lets s1 s2
  obtain ⟨y, hy, hcrc, hm⟩ := s.storeTile_frameOf k w.col w.row w.cells
    (fun f => { f with marked := f.marked || w.marked, streamed := f.streamed || w.streamed, unobs := sat16 (f.unobs + w.unobs) })
    (fun _ => rfl)
  have h1 : s1.cached w.col w.row = some w := (State.cached_of_cache (State.storeTile_cache _ _ _ _ _ _) _ _).trans hw
  refine ⟨y, ?_, hcrc, ?_, ?_⟩
  · rw [State.poolCheck_frameOf]
    exact hy
  · rw [State.poolCheck_cached]
    refine (State.modTile_cached s1 w.col w.row (fun x => { x with dirty := none, noAlloc := false, unobs := 0 }) fun _ => ⟨rfl, rfl⟩).trans ?_
    rw [h1]
    rfl
  · rw [State.poolCheck_mram]
    exact hm

/-- TILE_WRITE_BACK of a tile unchanged for P 0x2300.02, with no fill queued and no Carding slice in its way. -/
theorem execTileWriteBack_due (c r : Int) (x d : IT) (k : Nat) (w : CTile) (s : State) (hk : s.heldHank = some k)
    (hw : s.cached c r = some w) (hd : w.dirty = some d) (hn : w.noAlloc = false) (hq : s.dis.fills = [])
    (hx : w.changed + s.pN 0x2300 2 * 1000000 ≤ x) (hl : s.lapHeld = false) (hb : s.backHeld k c r = false) :
    ∃ t f, exec (.tileWriteBack c r x) s = .next t ∧ t.frameOf k c r = some f ∧ f.crc = crc32 w.cells ∧
      (t.cached c r).map (fun y => (y.dirty, y.cells)) = some (none, w.cells) ∧
      Memory.readBlock t.mram (f.frame * 4096) w.cells.length = w.cells := by
  obtain ⟨rfl, rfl⟩ := State.cached_key hw
  obtain ⟨f, hf, hcrc, hc, hm⟩ := ((s.at x).modDis (fun d => { d with backs := d.backs + 1 })).writeBack_dirty k w d hd hn hw
  refine ⟨((s.at x).modDis (fun d => { d with backs := d.backs + 1 })).writeBack k w, f, ?_, hf, hcrc, by rw [hc]; rfl, hm⟩
  have hdue : s.backDue w x = true := by simp [State.backDue, hd, hx]
  simp only [exec, execTileWriteBack, hk, hw, hdue, hb, hl, hq, List.isEmpty_nil, Bool.not_true, Bool.or_self, Bool.false_and,
    Bool.false_eq_true, if_false]

/-! ### Fills (R178, R180) -/

/-- Room is made by giving up tiles alone. -/
theorem State.makeRoom_cache {s u : State} {mm : Nat} (h : s.makeRoom mm = some u) : ∃ l, u = s.modDis (fun d => { d with cache := l }) := by
  unfold State.makeRoom at h
  split at h
  · cases h
    exact ⟨s.dis.cache, rfl⟩
  · dsimp only at h
    split at h
    · cases h
    · cases h
      exact ⟨_, rfl⟩

theorem State.tileBad_dis (s : State) (f : Frame) : (s.tileBad f).dis.fills = s.dis.fills ∧ (s.tileBad f).dis.cache = s.dis.cache := ⟨rfl, rfl⟩

/-- A tile found damaged has its descriptor marked. -/
theorem State.tileBad_frameOf {s : State} {k : Nat} {c r : Int} {f : Frame} (h : s.frameOf k c r = some f) :
    (s.tileBad f).frameOf k c r = some { f with damaged := true, since := 0 } := by
  have hm := s.modFrame_frameOf f.frame (fun x => { x with damaged := true, since := 0 }) (fun _ => rfl) k c r
  rw [h] at hm
  refine (State.frameOf_of_frames (s := s.modFrame f.frame (fun x => { x with damaged := true, since := 0 })) rfl k c r).trans (hm.trans ?_)
  exact congrArg some (if_pos rfl)

/-- A tile that is put in the cache stands there with its stored cells, and no longer waits for its fill. -/
theorem State.putTile_cached (s : State) (k : Nat) (c r : Int) (n : Nat) (ok : Bool) :
    (c, r) ∉ (s.putTile k c r n ok).dis.fills ∧ ((s.putTile k c r n ok).cached c r).map (·.cells) = some (s.storedCells k c r) := by
  unfold State.putTile
  extract_lets cells tile s1
  have h1 : (c, r) ∉ s1.dis.fills ∧ (s1.cached c r).map (·.cells) = some cells := by
    refine ⟨by simp [s1], ?_⟩
    have hc : s1.cached c r = some tile := List.find?_cons_of_pos (by simp [tile])
    rw [hc]
    rfl
  split
  · exact h1
  · split
    · exact h1
    · exact h1

/-- A stored copy that fails its CRC-32 is damaged (R178). -/
theorem State.putTile_damaged {s : State} {k : Nat} {c r : Int} {f : Frame} (h : s.frameOf k c r = some f) (n : Nat) :
    (s.putTile k c r n false).frameOf k c r = some { f with damaged := true, since := 0 } := by
  unfold State.putTile
  extract_lets cells tile s1
  have h1 : s1.frameOf k c r = some f := h
  rw [h1]
  exact State.tileBad_frameOf h1

/-- TILE_FILL_DONE of a queued fill for which there is room. -/
theorem execTileFillDone_queued (c r : Int) (x : IT) (n k : Nat) (ok : Bool) (s u : State) (hk : s.heldHank = some k)
    (hq : (c, r) ∈ s.dis.fills) (hg : s.power.geo = true) (hl : s.lapHeld = false) (hu : (s.at x).makeRoom (s.hank k).mm = some u) :
    ∃ t, exec (.tileFillDone c r x n ok) s = .next t ∧ (c, r) ∉ t.dis.fills ∧
      (t.cached c r).map (·.cells) = some (s.storedCells k c r) ∧
      (∀ f, s.frameOf k c r = some f → ok = false → t.frameOf k c r = some { f with damaged := true, since := 0 }) := by
  obtain ⟨l, hl'⟩ := State.makeRoom_cache hu
  obtain ⟨hf, hc⟩ := u.putTile_cached k c r n ok
  have hcells : u.storedCells k c r = s.storedCells k c r := by rw [hl']; rfl
  rw [hcells] at hc
  refine ⟨u.putTile k c r n ok, ?_, hf, hc, fun f hfr hok => ?_⟩
  · have hq' : s.dis.fills.contains (c, r) = true := by simpa using hq
    have hk' : (s.at x).heldHank = some k := hk
    simp only [exec, execTileFillDone, State.fillDone, State.at_dis, State.at_power, State.at_hank, hk', hq', hg, hl, hu, Bool.not_true,
      Bool.or_self, Bool.false_eq_true, if_false]
  · subst hok
    have hfu : u.frameOf k c r = some f := by
      rw [hl']
      exact hfr
    exact State.putTile_damaged hfu n

/-! ### Streamed layers (R167, R168) -/

@[simp] theorem State.applyRecord_mask {ps : List Part} (s : State) (l : LayerRec) (h : [.dis, .skein, .mram, .freeCtr] ⊆ ps) :
    (s.applyRecord l).mask ps = s.mask ps := by
  simp at h
  unfold State.applyRecord State.layerNoted
  dsimp only
  split
  · simp [h]
  · simp [h]

/-- What a stream block shows of itself, in P 0x2310.02 and P 0x2310.03. -/
def State.streamShown (s : State) : Nat × Nat := (s.dis.applied, s.dis.reject)

theorem State.poolCheck_streamShown (s : State) : s.poolCheck.streamShown = s.streamShown := by
  rw [State.streamShown, s.poolCheck_dis]
  rfl

theorem State.storeTile_streamShown (s : State) (k : Nat) (c r : Int) (cells : Bytes) (f : Frame → Frame) :
    (s.storeTile k c r cells f).streamShown = s.streamShown := by
  unfold State.storeTile
  split <;> rfl

/-- A record applied counts for nothing by itself. -/
theorem State.applyRecord_streamShown (s : State) (l : LayerRec) : (s.applyRecord l).streamShown = s.streamShown := by
  unfold State.applyRecord
  dsimp only
  split
  · rfl
  · unfold State.layerToPool
    dsimp only
    split
    · rfl
    · rw [State.poolCheck_streamShown, State.storeTile_streamShown]
      rfl

/-- The record at the front of a stream block. -/
def recordOf (v : Bytes) : LayerRec :=
  { slot := natAt v 0 1, layer := natAt v 1 1, op := natAt v 2 1, fill := natAt v 3 1, col := intAt v 4 2, row := intAt v 6 2,
    payload := (v.drop 16).take (natAt v 12 2) }

/-- A stream block of one record that no cause rejects applies it. -/
theorem State.tileStream_one {s : State} {v : Bytes} (hv : v.length = 16 + natAt v 12 2) (hc : s.streamCause v = 0) :
    s.tileStream v = ((s.modDis (fun d => { d with applied := 0, reject := 0 })).applyRecord (recordOf v)).modDis
      (fun d => { d with applied := d.applied + 1 }) := by
  have hne : v.isEmpty = false := by
    cases v with
    | nil =>
      rw [List.length_nil] at hv
      omega
    | cons => rfl
  have hc' : (s.modDis (fun d => { d with applied := 0, reject := 0 })).streamCause v = 0 := hc
  have hdone : ∀ n (t : State), State.streamRecords n [] t = t := fun n t => by cases n <;> rfl
  have hrest : v.drop (16 + natAt v 12 2) = [] := List.drop_eq_nil_of_le (Nat.le_of_eq hv)
  have hlong : ¬ v.length < 16 := by omega
  have hwhole : ¬ v.length < 16 + natAt v 12 2 := by omega
  simp only [State.tileStream, State.streamRecords, hne, hc', hrest, hdone, hlong, hwhole, Bool.false_eq_true, if_false, if_true, recordOf]

/-- No Carding slice is in the way of a stream block of one record whose frame and header are free. -/
theorem State.streamHeld_one {s : State} {v : Bytes} (hv : v.length = 16 + natAt v 12 2)
    (hs : s.sliceAt (headerAt (natAt v 0 1)) 4096 = false) (hb : s.backHeld (natAt v 0 1) (intAt v 4 2) (intAt v 6 2) = false) (n : Nat) :
    s.streamHeld (n + 1) v = false := by
  have hrest : v.drop (16 + natAt v 12 2) = [] := List.drop_eq_nil_of_le (Nat.le_of_eq hv)
  have hdone : s.streamHeld n [] = false := by cases n <;> rfl
  simp [State.streamHeld, hs, hb, hrest, hdone]

/-- The descriptor of P 0x2310.01. -/
def streamDesc : Desc := ⟨0x2310, 1, 0x01, 12, 65536, true, 1, 2, 1, 0, 0, 0, 0x0, 0, 1, 0x0⟩

theorem isCommand_stream : isCommand 0x2310 1 streamDesc := by
  unfold isCommand
  decide +kernel

theorem valueFail_stream (v : Bytes) (h : v.length ≤ 65536) : valueFail streamDesc 0x2310 1 v = none := by
  simp [valueFail, streamDesc, h, Nat.mod_one, leastLength, layoutFail]

/-- TILE_STREAM of one record that no cause rejects, with its frame and its header free. -/
theorem execTileStream_one (r : Req) (x : Session) (v : Bytes) (s : State) (h : s.Takes r x) (hv : v.length = 16 + natAt v 12 2)
    (hlen : v.length ≤ 65536) (hc : s.streamCause v = 0) (hm : s.mramHeld = false)
    (hs : s.sliceAt (headerAt (natAt v 0 1)) 4096 = false) (hb : s.backHeld (natAt v 0 1) (intAt v 4 2) (intAt v 6 2) = false) :
    ∃ t, exec (.tileStream r v) s = .next t ∧ t.dis.applied = 1 ∧ t.dis.reject = 0 ∧ s.Accepted t r := by
  have hc' : (s.served r).streamCause v = 0 := hc
  have hm' : (s.served r).mramHeld = false := hm
  have hheld : (s.served r).streamHeld (v.length / 16 + 1) v = false := State.streamHeld_one (s := s.served r) hv hs hb _
  have hone := State.tileStream_one hv hc'
  have hcmd : (s.served r).writeCommand r.sid x.level 0x2310 1 v = ((s.served r).tileStream v, 0) := by
    have hw : (s.served r).writeCommand r.sid x.level 0x2310 1 v = (s.served r).tileWrite v := rfl
    simp [hw, State.tileWrite, hm', hheld]
  have hmask : ((s.served r).tileStream v).mask [.dis, .skein, .mram, .freeCtr] = (s.served r).mask [.dis, .skein, .mram, .freeCtr] := by
    simp [hone]
  obtain ⟨k, n, he, ha, -⟩ := State.hostWrite_effect (ps := [.dis, .skein, .mram, .freeCtr]) h isCommand_stream
    (valueFail_stream v hlen) (.inr (by decide)) (.inl (by decide)) (by decide) hcmd hmask (by simp)
  have hshown : ((s.served r).tileStream v).streamShown = (1, 0) := by
    obtain ⟨hap, hrej⟩ := Prod.mk.inj (State.applyRecord_streamShown ((s.served r).modDis (fun d => { d with applied := 0, reject := 0 }))
      (recordOf v))
    rw [hone]
    exact Prod.ext (congrArg (· + 1) hap) hrej
  obtain ⟨hap, hrej⟩ := Prod.mk.inj hshown
  refine ⟨_, rfl, ?_, ?_, ha⟩
  · rw [he]
    exact hap
  · rw [he]
    exact hrej

end Sys2Proof.Machine

end

section

namespace Sys2Proof.Machine

/-! # The commands of outputs, supplies, hanks and tiles complete (R100, R150, R156, R158, R167, R178, R180, R309, R314, R316, R328, R348) -/

/-- Settles O57: the drives, folds and external sections whose effects are stated in full elsewhere, and the rest by the lemma of each
command. -/
theorem completesOutputs : Obligations.CompletesOutputs := by
  refine ⟨fun h e es s he hf ho => ?_, fun h x o t0 p s hd ht hm => ?_, fun h o t0 p s hd => ?_, fun h first x s u ha hr => ?_,
    execMotorStall_due, fun o ma x s => execOutputTrip_overCurrent o ma x s, execOutputRetryExpiry_bridge, execClearOutputLatch_port,
    execLoadSwitchCommand_accepted, execLoadTrip_met, execLoadRestart_met, execLoadCounterReset_on, execLoadShedRetry_free,
    execClearLoadLatches_accepted, execOpenLoad_low, execBudgetOverrun_over, execSupplyFault_met, execSensorSupplyOverload_awake,
    execSensorSupplyRetry_off, execThrottleHoldExpiry_held, execSensorUnavailableExpiry_reset, fun r x v s h hf => ?_,
    fun y l s hr he hl => ?_, execHankCreate_accepted, execHankOpen_accepted, execHankClose_accepted, execHankDelete_accepted,
    execCloseSequenceDone_due, execHankDeleteDone_deleting, execTileStream_one, execTileFillDone_queued,
    fun c r x d k w s hk hw hd hn hq hx hl hb _ => execTileWriteBack_due c r x d k w s hk hw hd hn hq hx hl hb⟩
  · obtain ⟨t, hn, -, hdrive, hvalve, hedges, -⟩ := execValveDriveStart_closes h e es s he hf ho
    exact ⟨t, hn, hvalve, hedges, by rw [hdrive]; rfl⟩
  · obtain ⟨t, hn, hdrive, -, hvalve, -⟩ := execEndOfTravel_stalled h x o t0 p s hd ht hm
    exact ⟨t, hn, hdrive, hvalve⟩
  · obtain ⟨t, hn, -, hdrive, htime, hvalve, -⟩ := execTravelTimeout_driven h o t0 p s hd
    exact ⟨t, hn, hdrive, htime, hvalve⟩
  · obtain ⟨t, hn, hvalve, -, hasked, hdrive, -⟩ := execValveDriveRetry_opens h first x s u ha hr
    exact ⟨t, hn, hvalve, hasked, by rw [hdrive]; rfl⟩
  · obtain ⟨t, hn, hstore, -, hacc, -⟩ := execFoldStateWrite_accepted r x v s h hf
    exact ⟨t, hn, hstore, hacc⟩
  · obtain ⟨t, hn, hit, hdue, -⟩ := execExternalTimeout_due y l s hr he hl
    exact ⟨t, hn, hit, fun o ho hd => by rw [hdue o ho hd]⟩

end Sys2Proof.Machine

end

section

namespace Sys2Proof.Machine

/-! # Block reads that move a cursor (R181, R395, R408, R446) -/

section

variable {s u : State} {r : Req} {x : Session} {i sub lvl room st : Nat} {v : Bytes}

/-- A read of a started parameter takes its value and then moves what the read moves. -/
theorem State.takeValue_read (hk : pkey i sub ≠ pkey 0x1201 1) (hb : s.inBootRom = false)
    (hm : s.mramHeld = false ∨ mramRead i sub = false) (hr : s.readParam lvl i sub = .inr (0, v)) (hl : v.length ≤ room) :
    s.takeValue lvl i sub room = (s.readAfter i sub v, .inr (0, v)) := by
  have hbefore : s.readBefore i sub = s := if_neg hk
  have hheld : ¬ (s.mramHeld = true ∧ mramRead i sub = true) := by
    rcases hm with h | h <;> simp [h]
  unfold State.takeValue
  simp only [hk, hb, hheld, hbefore, hr, Nat.not_lt.mpr hl, false_and, Bool.false_eq_true, if_false]
  rfl

/-- A BLOCK-READ from offset 0 keeps the value it takes as the session's snapshot (R408). -/
theorem State.blockRead_taken (h : s.Serves r x) (ht : (s.servedBlock r).takeValue x.level i sub 65536 = (u, .inr (st, v)))
    (hn : u.nets = (s.servedBlock r).nets) :
    ∃ n, s.blockRead r i sub 0 = { u with nets := n } ∧
      ((s.blockRead r i sub 0).session r.sid).bind (·.bs) = some ⟨i, sub, st, v, u.it⟩ := by
  have hx : (s.served r).session r.sid = some x := (State.served_session r.sid).trans h.known
  have hfree : u.session r.sid = some { x with bs := none } := by
    rw [State.session, hn]
    exact State.find_mod (fun x => { x with bs := none }) (fun _ => rfl) hx
  have hkept := State.find_mod (fun x => { x with bs := some ⟨i, sub, st, v, u.it⟩ }) (fun _ => rfl) hfree
  obtain ⟨n, he, -, -, -, -, -, -, -, hfound, -⟩ := State.remember_answer
    (u := u.modSession r.sid (fun x => { x with bs := some ⟨i, sub, st, v, u.it⟩ })) (r := r)
    ((⟨i, sub, st, v, u.it⟩ : BlockSnap).segment r.sid.net 0) 3 i sub hkept
  have e : s.blockRead r i sub 0 = { u with nets := n } := by
    unfold State.blockRead
    rw [State.serve_new h]
    unfold State.execute
    have ht' : ((s.served r).modSession r.sid (fun x => { x with bs := none })).takeValue x.level i sub 65536 = (u, .inr (st, v)) := ht
    simp only [ht', if_true]
    exact he
  refine ⟨n, e, ?_⟩
  rw [e, State.session, hfound]
  rfl

/-- What a BLOCK-READ from offset 0 leaves where its value has been taken: what the read moves, and the snapshot. -/
theorem State.blockRead_read {ps : List Part} (h : s.Serves r x) (hk : pkey i sub ≠ pkey 0x1201 1) (hb : s.inBootRom = false)
    (hm : s.mramHeld = false ∨ mramRead i sub = false) (hr : (s.servedBlock r).readParam x.level i sub = .inr (0, v))
    (hl : v.length ≤ 65536) (hu : ((s.servedBlock r).readAfter i sub v).mask ps = (s.servedBlock r).mask ps)
    (hps : .it ∉ ps ∧ .nets ∉ ps) :
    ∃ n, s.blockRead r i sub 0 = { (s.servedBlock r).readAfter i sub v with nets := n } ∧
      ((s.blockRead r i sub 0).session r.sid).bind (·.bs) = some ⟨i, sub, 0, v, max s.it r.rx⟩ ∧
      Unchanged (.it :: .nets :: ps) s (s.blockRead r i sub 0) := by
  obtain ⟨hpit, hpnets⟩ := hps
  have hkeep := Unchanged.of_mask hu
  have hit : ((s.servedBlock r).readAfter i sub v).it = max s.it r.rx := hkeep .it hpit
  obtain ⟨n, he, hbs⟩ := State.blockRead_taken h (State.takeValue_read (s := s.servedBlock r) hk hb hm hr hl) (hkeep .nets hpnets)
  rw [hit] at hbs
  refine ⟨n, he, hbs, ?_⟩
  have hserved : (s.servedBlock r).mask [.it, .nets] = s.mask [.it, .nets] := by simp [State.servedBlock]
  rw [he]
  exact (((Unchanged.of_mask hserved).mono (by simp)).trans (hkeep.mono fun _ hp => by simp [hp])).trans
    (Unchanged.of_mask (mask_set_nets _ n (by simp)))

end

@[simp] theorem State.modDict_mask {ps : List Part} (s : State) (f : Dict → Dict) (h : [.dict] ⊆ ps) :
    (s.modDict f).mask ps = s.mask ps := by
  simp at h
  simp [State.modDict, State.mask, h]

/-- DESCRIPTION_BLOCK_READ moves past the entries of its block. -/
theorem execDescriptionBlockRead_read (r : Req) (x : Session) (v : Bytes) (s : State) (h : s.Serves r x) (hl : v.length ≤ 65536)
    (hb : s.inBootRom = false) (hr : (s.servedBlock r).readParam x.level 0x4403 2 = .inr (0, v)) :
    ∃ t, exec (.descriptionBlockRead r) s = .next t ∧ t.dict = { s.dict with descCur := s.dict.descCur + v.length / 40 } ∧
      (t.session r.sid).bind (·.bs) = some ⟨0x4403, 2, 0, v, max s.it r.rx⟩ ∧ Unchanged [.it, .dict, .nets] s t := by
  have ha : (s.servedBlock r).readAfter 0x4403 2 v = (s.servedBlock r).modDict (fun d => { d with descCur := d.descCur + v.length / 40 }) := rfl
  obtain ⟨n, he, hbs, hu⟩ := State.blockRead_read (ps := [.dict]) h (by decide) hb (.inr (by decide)) hr hl (by simp [ha]) (by simp)
  refine ⟨_, rfl, ?_, hbs, hu.mono (by simp)⟩
  rw [he, ha]
  rfl

/-- TILE_EXPORT_READ moves past the last tile of its block. -/
theorem execTileExportRead_read (r : Req) (x : Session) (v : Bytes) (f : Frame) (s : State) (h : s.Serves r x) (hl : v.length ≤ 65536)
    (hm : s.mramHeld = false) (hb : s.inBootRom = false) (hr : (s.servedBlock r).readParam x.level 0x2312 3 = .inr (0, v))
    (hf : s.exportFrames.getLast? = some f) :
    ∃ t, exec (.tileExportRead r) s = .next t ∧ t.dis = { s.dis with cursor := min poolFrames (f.frame + 1) } ∧
      (t.session r.sid).bind (·.bs) = some ⟨0x2312, 3, 0, v, max s.it r.rx⟩ ∧ Unchanged [.it, .dis, .nets] s t := by
  have hf' : (s.servedBlock r).exportFrames.getLast? = some f := hf
  have ha : (s.servedBlock r).readAfter 0x2312 3 v =
      (s.servedBlock r).modDis (fun d => { d with cursor := min poolFrames (f.frame + 1) }) := by
    have hadvance : (s.servedBlock r).readAfter 0x2312 3 v = (s.servedBlock r).exportAdvance := rfl
    rw [hadvance, State.exportAdvance, hf']
  obtain ⟨n, he, hbs, hu⟩ := State.blockRead_read (ps := [.dis]) h (by decide) hb (.inl hm) hr hl (by simp [ha]) (by simp)
  refine ⟨_, rfl, ?_, hbs, hu.mono (by simp)⟩
  rw [he, ha]
  rfl

/-- The records examined by an export are those of the log: they do not depend on the time or on the networks. -/
theorem State.exportGo_set_it_nets (s : State) (it : IT) (n : Nets) (c fuel q room : Nat) (acc : List (Nat × Bytes)) :
    State.exportGo { s with it := it, nets := n } c fuel q room acc = s.exportGo c fuel q room acc := by
  induction fuel generalizing q room acc with
  | zero => rfl
  | succ fuel ih =>
    have hrec : State.logRecord { s with it := it, nets := n } q = s.logRecord q := rfl
    simp only [State.exportGo, ih, hrec]

theorem State.servedBlock_exportRead (s : State) (r : Req) (c : Nat) : (s.servedBlock r).exportRead c = s.exportRead c := by
  have hs : s.servedBlock r = { s with it := max s.it r.rx, nets := (s.servedBlock r).nets } := rfl
  rw [hs]
  unfold State.exportRead
  simp only [State.exportGo_set_it_nets]
  rfl

/-- An export read has moved one of Skein's two cursors to `c`, with `n` more records found damaged (R446). -/
def State.cursorMoved (s : State) (b : Bool) (c n : Nat) : State :=
  ((s.skeinCount 5 n).modSkein (fun k => if b then { k with cursorB := c } else { k with cursorA := c })).draw

theorem State.readAfter_export (s : State) (b : Bool) (v : Bytes) :
    s.readAfter 0x4002 (if b then 4 else 3) v =
      s.cursorMoved b (s.exportRead (if b then s.skein.cursorB else s.skein.cursorA)).2 (State.exportDamaged v) := by
  cases b <;> rfl

/-- Raising one of Skein's counters changes its counters alone. -/
theorem State.skeinCount_counters (s : State) (i k : Nat) : ∃ n, s.skeinCount i k = s.modSkein (fun d => { d with counters := n }) :=
  ⟨_, rfl⟩

theorem State.cursorMoved_skein (s : State) (b : Bool) (c n : Nat) :
    (s.cursorMoved b c n).skein.cursorA = (if b then s.skein.cursorA else c) ∧
    (s.cursorMoved b c n).skein.cursorB = (if b then c else s.skein.cursorB) ∧
    (s.cursorMoved b c n).skein.queue = s.skein.queue ∧ (s.cursorMoved b c n).skein.arriving = s.skein.arriving := by
  obtain ⟨k, hk⟩ := s.skeinCount_counters 5 n
  rw [State.cursorMoved, hk]
  cases b <;> exact ⟨rfl, rfl, rfl, rfl⟩

/-- EXPORT_BLOCK_READ moves the cursor of its block past the records examined. -/
theorem execExportBlockRead_read (r : Req) (x : Session) (b : Bool) (v : Bytes) (s : State) (h : s.Serves r x) (hl : v.length ≤ 65536)
    (hm : s.mramHeld = false) (hb : s.inBootRom = false)
    (hr : (s.servedBlock r).readParam x.level 0x4002 (if b then 4 else 3) = .inr (0, v)) :
    ∃ t, exec (.exportBlockRead r b) s = .next t ∧
      t.skein.cursorA = (if b then s.skein.cursorA else (s.exportRead s.skein.cursorA).2) ∧
      t.skein.cursorB = (if b then (s.exportRead s.skein.cursorB).2 else s.skein.cursorB) ∧
      t.skein.queue = s.skein.queue ∧ t.skein.arriving = s.skein.arriving ∧
      (t.session r.sid).bind (·.bs) = some ⟨0x4002, if b then 4 else 3, 0, v, max s.it r.rx⟩ ∧
      Unchanged [.it, .skein, .nets, .freeCtr] s t := by
  have hkey : pkey 0x4002 (if b then 4 else 3) ≠ pkey 0x1201 1 := by cases b <;> decide
  have hskein : (s.servedBlock r).skein = s.skein := rfl
  have ha := (s.servedBlock r).readAfter_export b v
  rw [hskein, s.servedBlock_exportRead r] at ha
  obtain ⟨n, he, hbs, hu⟩ := State.blockRead_read (ps := [.skein, .freeCtr]) h hkey hb (.inl hm) hr hl
    (by simp [ha, State.cursorMoved]) (by simp)
  obtain ⟨hA, hB, hqueue, harriving⟩ := (s.servedBlock r).cursorMoved_skein b
    (s.exportRead (if b then s.skein.cursorB else s.skein.cursorA)).2 (State.exportDamaged v)
  rw [← ha, hskein] at hA hB hqueue harriving
  refine ⟨_, rfl, ?_, ?_, by rw [he, hqueue], by rw [he, harriving], hbs, hu.mono (by simp)⟩
  · rw [he, hA]
    cases b <;> simp
  · rw [he, hB]
    cases b <;> simp

/-- Settles O29, each read by the theorem about its command. -/
theorem cursorReads : Obligations.CursorReads :=
  ⟨execDescriptionBlockRead_read, execTileExportRead_read, execExportBlockRead_read⟩

end Sys2Proof.Machine

end

section

namespace Sys2Proof.Machine

/-! # The hank engine (R156, R158, R164 to R166, R178 to R180) -/

/-! ### The end of a delete and of a close sequence (R156, R158) -/

theorem execHankDeleteDone_next (k : Fin 16) (x : IT) (s : State) (ha : s.power.dev.awake = true) (hst : (s.hank k).state = 3)
    (hs : s.sliceAt (headerAt k.val) 4096 = false) :
    exec (.hankDeleteDone k x) s = .next (((s.at x).modHank k (fun _ => Hank.reset)).modDis
      (fun d => { d with frames := d.frames.filter (fun f => f.slot != k.val) })).poolCheck := by
  simp only [exec, execHankDeleteDone, State.whenAwake, ha, hst, hs, ne_eq, not_true_eq_false, decide_false, Bool.or_self,
    Bool.false_eq_true, if_true, if_false]

/-- HANK_DELETE_DONE empties its slot, frees its frames and touches no other slot. -/
theorem execHankDeleteDone_frees (k : Fin 16) (x : IT) (s : State) (ha : s.power.dev.awake = true) (hst : (s.hank k).state = 3)
    (hs : s.sliceAt (headerAt k.val) 4096 = false) :
    ∃ t, exec (.hankDeleteDone k x) s = .next t ∧ t.hank k = Hank.reset ∧
      t.dis.frames = s.dis.frames.filter (fun f => f.slot != k.val) ∧ (∀ j, j ≠ k.val → t.hank j = s.hank j) ∧
      Unchanged [.it, .dis, .skein] s t := by
  refine ⟨_, execHankDeleteDone_next k x s ha hst hs, ?_, ?_, fun j hj => ?_, Unchanged.of_mask (by simp)⟩
  · rw [State.poolCheck_hank]
    exact State.modHank_hank_same (s.at x) k (fun _ => Hank.reset) k.isLt
  · rw [State.poolCheck_dis]
    rfl
  · rw [State.poolCheck_hank]
    exact State.modHank_hank_other (s.at x) k (fun _ => Hank.reset) j hj

theorem State.closeDone_acc (s : State) (c : CloseSeq) : (s.closeDone c).dis.acc = [] := by
  unfold State.closeDone
  extract_lets k s1 s2 s3 s4 s5
  have h4 : s4.dis.acc = [] := by
    simp only [s4]
    split <;> rfl
  have h5 : s5.dis = s4.dis := by
    simp only [s5]
    split <;> rfl
  rw [← h5] at h4
  split
  · exact h4
  · exact h4

/-- The close of a hank that does not stay open ends with its slot shut and the command done. -/
theorem State.closeDone_shut (s : State) {c : CloseSeq} (hk : c.keep = false) :
    ∃ u : State, s.closeDone c = (u.hankShut c.slot).modDis (fun d => { d with result := 0 }) := by
  unfold State.closeDone
  extract_lets k s1 s2 s3 s4 s5
  exact ⟨s5, if_neg (by simp [hk])⟩

theorem execCloseSequenceDone_next (x : IT) (c : CloseSeq) (s : State) (h : s.dis.close = some c)
    (hg : s.power.geo = true → c.at_ < s.dis.horizon) (hh : s.closeHeld c.slot = false) :
    exec (.closeSequenceDone x) s = .next ((s.at (max x c.at_)).closeDone c) := by
  have hd : (s.power.geo && decide (s.dis.horizon ≤ c.at_)) = false := by
    cases hgeo : s.power.geo with
    | false => rfl
    | true => simpa using hg hgeo
  simp only [exec, execCloseSequenceDone, h, hd, hh, Bool.or_self, Bool.false_eq_true, if_false]

/-- CLOSE_SEQUENCE_DONE empties the lap cache and the accumulator, and closes the hank unless it stays open. -/
theorem execCloseSequenceDone_closes (x : IT) (c : CloseSeq) (s : State) (h : s.dis.close = some c)
    (hg : s.power.geo = true → c.at_ < s.dis.horizon) (hc : c.slot < 16) (hh : s.closeHeld c.slot = false) :
    ∃ t, exec (.closeSequenceDone x) s = .next t ∧ t.dis.close = none ∧ t.dis.cache = [] ∧ t.dis.acc = [] ∧
      (c.keep = false → (t.hank c.slot).state = 1 ∧ t.dis.result = 0) ∧ t.it = max s.it (max x c.at_) ∧
      Unchanged [.it, .power, .rov, .spd, .dis, .skein, .mram, .freeCtr] s t := by
  obtain ⟨hclose, hcache⟩ := (s.at (max x c.at_)).closeDone_dis c
  have hmask := State.closeDone_mask (ps := [.power, .rov, .spd, .dis, .skein, .mram, .freeCtr]) (s.at (max x c.at_)) c (by simp)
  refine ⟨_, execCloseSequenceDone_next x c s h hg hh, hclose, hcache, State.closeDone_acc _ c, fun hk => ?_,
    Unchanged.of_mask hmask .it (by simp), Unchanged.of_mask (by simp)⟩
  obtain ⟨u, hu⟩ := (s.at (max x c.at_)).closeDone_shut hk
  rw [hu]
  exact ⟨congrArg Hank.state (State.modHank_hank_same u c.slot _ hc), rfl⟩

/-! ### Fills (R178) -/

theorem State.heldHank_lt {s : State} {k : Nat} (h : s.heldHank = some k) : k < 16 := by
  unfold State.heldHank at h
  split at h
  · cases h
  · exact List.mem_range.mp (List.mem_of_find?_eq_some h)

theorem State.frameOf_key {s : State} {k : Nat} {c r : Int} {f : Frame} (h : s.frameOf k c r = some f) :
    f.slot = k ∧ f.col = c ∧ f.row = r := by
  have hp := List.find?_some h
  simpa [and_assoc] using hp

/-- A tile entered in the cache with its stored cells, its fill out of the queue. -/
def State.entered (s : State) (k : Nat) (c r : Int) (n : Nat) : State :=
  s.modDis (fun d => { d with
    cache := { col := c, row := r, cells := s.storedCells k c r, dirty := none, changed := 0, used := s.dis.tick,
               noAlloc := false, marked := false, streamed := false, unobs := 0 } :: d.cache,
    fills := d.fills.filter (fun f => f != (c, r)), bitErrs := sat32 (d.bitErrs + n) })

theorem State.entered_cached (s : State) (k : Nat) (c r : Int) (n : Nat) :
    ((s.entered k c r n).cached c r).map (fun y => (y.cells, y.dirty, y.noAlloc)) = some (s.storedCells k c r, none, false) := by
  unfold State.cached State.entered
  rw [State.modDis_dis, List.find?_cons_of_pos (by simp)]
  rfl

/-- A tile that was never stored, or whose cells stand against its descriptor, is entered and no more. -/
theorem State.putTile_intact {s : State} {k : Nat} {c r : Int} {ok : Bool} (n : Nat)
    (h : ∀ f, s.frameOf k c r = some f → (ok && crc32 (s.storedCells k c r) == f.crc) = true) :
    s.putTile k c r n ok = s.entered k c r n := by
  unfold State.putTile
  extract_lets cells tile s1
  have h1 : s1.frameOf k c r = s.frameOf k c r := rfl
  rw [h1]
  cases hf : s.frameOf k c r with
  | none => rfl
  | some f => exact if_pos (h f hf)

/-- A tile whose cells fail against its descriptor is entered and found damaged. -/
theorem State.putTile_failed {s : State} {k : Nat} {c r : Int} {ok : Bool} {f : Frame} (n : Nat) (hf : s.frameOf k c r = some f)
    (h : (ok && crc32 (s.storedCells k c r) == f.crc) = false) : s.putTile k c r n ok = (s.entered k c r n).tileBad f := by
  unfold State.putTile
  extract_lets cells tile s1
  have h1 : s1.frameOf k c r = some f := hf
  rw [h1]
  exact if_neg (by simp [cells, h])

/-- A damaged tile in the cache reads as 0x04 in every cell (R178). -/
theorem State.cellAt_damaged {s : State} {k : Nat} {c r : Int} {f : Frame} {w : CTile} (hw : s.cached c r = some w)
    (hn : w.noAlloc = false) (hf : s.frameOf k c r = some f) (hd : f.damaged = true) {y z : Int} (hy : y / 64 = c) (hz : z / 64 = r) :
    s.cellAt k y z = some 0x04 := by
  subst hy hz
  have hdam : s.tileDamaged k (y / 64) (z / 64) = true := by
    simp only [State.tileDamaged, hf, hd]
  simp only [State.cellAt, hw, hn, hdam, Bool.false_eq_true, if_true, if_false]

/-- What is counted and recorded of a tile found damaged. -/
theorem State.tileBad_counts (s : State) {k : Nat} {c r : Int} {f : Frame} (hk : k < 16) (hf : s.frameOf k c r = some f) :
    ((s.tileBad f).hank k).damaged = sat32 ((s.hank k).damaged + 1) ∧ (s.tileBad f).dis.found = sat32 (s.dis.found + 1) ∧
      (s.tileBad f).skein.arriving = s.skein.arriving ++ [⟨0x4007, s.it, s.time.boot, k, leI 2 c ++ leI 2 r⟩] := by
  obtain ⟨rfl, rfl, rfl⟩ := State.frameOf_key hf
  refine ⟨?_, rfl, rfl⟩
  exact congrArg Hank.damaged (State.modHank_hank_same
    (s.modFrame f.frame (fun x => { x with damaged := true, since := 0 })) f.slot (fun h => { h with damaged := sat32 (h.damaged + 1) }) hk)

/-- Damaged or not, a tile stands in the cache with its stored cells, clean. -/
theorem State.putTile_entered (s : State) (k : Nat) (c r : Int) (n : Nat) (ok : Bool) :
    ((s.putTile k c r n ok).cached c r).map (fun y => (y.cells, y.dirty, y.noAlloc)) = some (s.storedCells k c r, none, false) := by
  have he := s.entered_cached k c r n
  by_cases h : ∀ f, s.frameOf k c r = some f → (ok && crc32 (s.storedCells k c r) == f.crc) = true
  · rw [State.putTile_intact n h]
    exact he
  · push Not at h
    obtain ⟨f, hf, hbad⟩ := h
    rw [State.putTile_failed n hf (by simpa using hbad)]
    exact he

/-- A fill of a damaged tile marks its descriptor; from then on every cell of the tile reads as 0x04. -/
theorem State.putTile_damages {s : State} {k : Nat} {c r : Int} {ok : Bool} {f : Frame} (n : Nat) (hk : k < 16)
    (hf : s.frameOf k c r = some f) (h : ok = false ∨ crc32 (s.storedCells k c r) ≠ f.crc) :
    (s.putTile k c r n ok).frameOf k c r = some { f with damaged := true, since := 0 } ∧
      (∀ y z : Int, y / 64 = c → z / 64 = r → (s.putTile k c r n ok).cellAt k y z = some 0x04) ∧
      ((s.putTile k c r n ok).hank k).damaged = sat32 ((s.hank k).damaged + 1) ∧
      (s.putTile k c r n ok).dis.found = sat32 (s.dis.found + 1) ∧
      (s.putTile k c r n ok).skein.arriving = s.skein.arriving ++ [⟨0x4007, s.it, s.time.boot, k, leI 2 c ++ leI 2 r⟩] := by
  have hbad : (ok && crc32 (s.storedCells k c r) == f.crc) = false := by
    rcases h with rfl | h
    · rfl
    · simp [h]
  have hput := State.putTile_failed n hf hbad
  have hfe : (s.entered k c r n).frameOf k c r = some f := hf
  have hmarked : (s.putTile k c r n ok).frameOf k c r = some { f with damaged := true, since := 0 } := by
    rw [hput]
    exact State.tileBad_frameOf hfe
  obtain ⟨w, hw, hwn⟩ := Option.map_eq_some_iff.mp (s.putTile_entered k c r n ok)
  obtain ⟨-, -, hnoAlloc⟩ : w.cells = s.storedCells k c r ∧ w.dirty = none ∧ w.noAlloc = false := by simpa using hwn
  obtain ⟨hdam, hfound, harr⟩ := (s.entered k c r n).tileBad_counts hk hfe
  rw [← hput] at hdam hfound harr
  exact ⟨hmarked, fun y z hy hz => State.cellAt_damaged hw hnoAlloc hmarked rfl hy hz, hdam, hfound, harr⟩

theorem execTileFillDone_next (c r : Int) (x : IT) (n k : Nat) (ok : Bool) (s u : State) (hk : s.heldHank = some k)
    (hq : (c, r) ∈ s.dis.fills) (hg : s.power.geo = true) (hl : s.lapHeld = false) (hu : (s.at x).makeRoom (s.hank k).mm = some u) :
    exec (.tileFillDone c r x n ok) s = .next (u.putTile k c r n ok) := by
  have hq' : s.dis.fills.contains (c, r) = true := by simpa using hq
  have hk' : (s.at x).heldHank = some k := hk
  simp only [exec, execTileFillDone, State.fillDone, State.at_dis, State.at_power, State.at_hank, hk', hq', hg, hl, hu, Bool.not_true,
    Bool.or_self, Bool.false_eq_true, if_false]

/-- TILE_FILL_DONE enters a tile that stands, and a damaged one with its descriptor marked, counted and recorded. -/
theorem execTileFillDone_fills (c r : Int) (x : IT) (n k : Nat) (ok : Bool) (s u : State) (hk : s.heldHank = some k)
    (hq : (c, r) ∈ s.dis.fills) (hg : s.power.geo = true) (hl : s.lapHeld = false) (hu : (s.at x).makeRoom (s.hank k).mm = some u) :
    ∃ t, exec (.tileFillDone c r x n ok) s = .next t ∧ (c, r) ∉ t.dis.fills ∧ t.it = max s.it x ∧
      (t.cached c r).map (fun y => (y.cells, y.dirty, y.noAlloc)) = some (s.storedCells k c r, none, false) ∧
      (s.frameOf k c r = none → t.dis.frames = s.dis.frames ∧ t.skein = s.skein) ∧
      (∀ f, s.frameOf k c r = some f →
        (ok = true → crc32 (s.storedCells k c r) = f.crc → t.dis.frames = s.dis.frames ∧ t.skein = s.skein) ∧
        (ok = false ∨ crc32 (s.storedCells k c r) ≠ f.crc →
          t.frameOf k c r = some { f with damaged := true, since := 0 } ∧
          (∀ y z : Int, y / 64 = c → z / 64 = r → t.cellAt k y z = some 0x04) ∧
          (t.hank k).damaged = sat32 ((s.hank k).damaged + 1) ∧ t.dis.found = sat32 (s.dis.found + 1) ∧
          t.skein.arriving = s.skein.arriving ++ [⟨0x4007, max s.it x, s.time.boot, k, leI 2 c ++ leI 2 r⟩])) ∧
      Unchanged [.it, .dis, .skein] s t := by
  have hmask : (u.putTile k c r n ok).mask [.it, .dis, .skein] = s.mask [.it, .dis, .skein] := by
    rw [State.putTile_mask _ _ _ _ _ _ (by simp), State.makeRoom_mask _ _ _ (by simp) hu, State.at_mask _ _ (by simp)]
  have hit : (u.putTile k c r n ok).it = u.it := Unchanged.of_mask (State.putTile_mask (ps := [.dis, .skein]) _ _ _ _ _ _ (by simp)) .it (by simp)
  have hnext := execTileFillDone_next c r x n k ok s u hk hq hg hl hu
  obtain ⟨hfills, -⟩ := u.putTile_cached k c r n ok
  have hentered := u.putTile_entered k c r n ok
  obtain ⟨hframe, hcells, hframes, hskein, hhank, hfound, huit, hboot⟩ : u.frameOf k c r = s.frameOf k c r ∧
      u.storedCells k c r = s.storedCells k c r ∧ u.dis.frames = s.dis.frames ∧ u.skein = s.skein ∧ u.hank k = s.hank k ∧
      u.dis.found = s.dis.found ∧ u.it = max s.it x ∧ u.time = s.time := by
    obtain ⟨l, rfl⟩ := State.makeRoom_cache hu
    exact ⟨rfl, rfl, rfl, rfl, rfl, rfl, rfl, rfl⟩
  rw [hcells] at hentered
  refine ⟨_, hnext, hfills, hit.trans huit, hentered, fun hnone => ?_, fun f hf => ⟨fun hok hcrc => ?_, fun hbad => ?_⟩,
    Unchanged.of_mask hmask⟩
  · rw [State.putTile_intact n fun f hf => nomatch (hframe.trans hnone).symm.trans hf]
    exact ⟨hframes, hskein⟩
  · rw [State.putTile_intact n fun g hg => ?_]
    · exact ⟨hframes, hskein⟩
    · cases (hframe.trans hf).symm.trans hg
      simp [hok, hcells, hcrc]
  · rw [← hcells] at hbad
    have hdamages := State.putTile_damages n (State.heldHank_lt hk) (hframe.trans hf) hbad
    rwa [hhank, hfound, hskein, huit, hboot] at hdamages

/-! ### Write-backs (R164 to R166, R179, R180) -/

/-- What a write-back adds to the descriptor of its tile. -/
def CTile.noted (w : CTile) (f : Frame) : Frame :=
  { f with marked := f.marked || w.marked, streamed := f.streamed || w.streamed, unobs := sat16 (f.unobs + w.unobs) }

/-- The descriptor of the frame that a tile takes, before anything is noted in it. -/
def State.newFrame (s : State) (k : Nat) (c r : Int) : Frame :=
  { frame := s.pickFrame, slot := k, col := c, row := r, damaged := false, streamed := false, marked := false, unobs := 0, crc := 0,
    since := 0 }

/-- The descriptor that a tile has or takes. -/
def State.frameFor (s : State) (k : Nat) (c r : Int) : Frame := (s.frameOf k c r).getD (s.newFrame k c r)

/-- A tile stored stands in the frame that it has or takes, with what is noted of it and its CRC-32; its cells alone are written. -/
theorem State.storeTile_spec (s : State) (k : Nat) (c r : Int) (cells : Bytes) (f : Frame → Frame) (hf : ∀ y, (f y).key = y.key) :
    (s.storeTile k c r cells f).frameOf k c r = some { f (s.frameFor k c r) with crc := crc32 cells } ∧
      (s.storeTile k c r cells f).mram = Memory.write s.mram ((s.frameFor k c r).frame * 4096) cells := by
  unfold State.frameFor
  cases h : s.frameOf k c r with
  | some x => exact State.storeTile_kept h cells f hf
  | none =>
    obtain ⟨-, hs, hc, hr⟩ : _ ∧ (f (s.newFrame k c r)).slot = k ∧ (f (s.newFrame k c r)).col = c ∧ (f (s.newFrame k c r)).row = r :=
      Frame.key_eq (hf (s.newFrame k c r))
    have he : s.storeTile k c r cells f = ({ s.draw with mram := Memory.write s.mram (s.pickFrame * 4096) cells } : State).modDis
        (fun d => { d with frames := { f (s.newFrame k c r) with crc := crc32 cells } :: d.frames }) := by
      simp only [State.storeTile, h]
      rfl
    rw [he]
    refine ⟨List.find?_cons_of_pos ?_, rfl⟩
    simp [hs, hc, hr]

/-- A dirty tile that has a frame or finds one free is stored, and stays in the cache, clean. -/
theorem State.writeBack_stored {s : State} {k : Nat} {w : CTile} {d : IT} (hd : w.dirty = some d)
    (hn : w.noAlloc = true → 0 < s.freeTiles) (hw : s.cached w.col w.row = some w) :
    (s.writeBack k w).cached w.col w.row = some { w with dirty := none, noAlloc := false, unobs := 0 } ∧
      (s.writeBack k w).frameOf k w.col w.row = some { w.noted (s.frameFor k w.col w.row) with crc := crc32 w.cells } ∧
      (s.writeBack k w).mram = Memory.write s.mram ((s.frameFor k w.col w.row).frame * 4096) w.cells := by
  have hfree : ¬ (w.noAlloc && s.freeTiles == 0) = true := by
    intro h
    obtain ⟨hno, hzero⟩ := Bool.and_eq_true_iff.mp h
    have hpos := hn hno
    have hz : s.freeTiles = 0 := by simpa using hzero
    omega
  obtain ⟨hf, hm⟩ := s.storeTile_spec k w.col w.row w.cells w.noted fun _ => rfl
  unfold State.writeBack
  rw [if_neg hfree, if_neg (by simp [hd])]
  extract_lets s1 s2
  have h1 : s1.cached w.col w.row = some w := (State.cached_of_cache (State.storeTile_cache _ _ _ _ _ _) _ _).trans hw
  refine ⟨?_, ?_, ?_⟩
  · rw [State.poolCheck_cached]
    refine (State.modTile_cached s1 w.col w.row (fun x => { x with dirty := none, noAlloc := false, unobs := 0 }) fun _ => ⟨rfl, rfl⟩).trans ?_
    rw [h1]
    rfl
  · rw [State.poolCheck_frameOf]
    exact hf
  · rw [State.poolCheck_mram]
    exact hm

/-- A clean tile that could not be allocated is allocated again where a frame is free (R166). -/
theorem State.writeBack_clean {s : State} {k : Nat} {w : CTile} (hd : w.dirty = none) (hn : 0 < s.freeTiles)
    (hw : s.cached w.col w.row = some w) :
    (s.writeBack k w).cached w.col w.row = some { w with noAlloc := false } ∧ (s.writeBack k w).dis.frames = s.dis.frames ∧
      (s.writeBack k w).mask [.dis] = s.mask [.dis] := by
  have hfree : ¬ (w.noAlloc && s.freeTiles == 0) = true := by simp [Nat.pos_iff_ne_zero.mp hn]
  unfold State.writeBack
  rw [if_neg hfree, if_pos (by simp [hd])]
  refine ⟨?_, rfl, by simp⟩
  refine (State.modTile_cached s w.col w.row (fun x => { x with noAlloc := false }) fun _ => ⟨rfl, rfl⟩).trans ?_
  rw [hw]
  rfl

/-- The state in which a write-back at `x` runs, counted in its frame (R179). -/
def State.backAt (s : State) (x : IT) : State := (s.at x).modDis (fun d => { d with backs := d.backs + 1 })

theorem execTileWriteBack_next {c r : Int} {x : IT} {k : Nat} {w : CTile} {s : State} (hk : s.heldHank = some k)
    (hw : s.cached c r = some w) (hdue : s.backDue w x = true) (hq : s.dis.fills = [] ∨ s.dis.backs < 15) (hl : s.lapHeld = false)
    (hb : s.backHeld k c r = false) : exec (.tileWriteBack c r x) s = .next ((s.backAt x).writeBack k w) := by
  have hroom : (!s.dis.fills.isEmpty && decide (15 ≤ s.dis.backs)) = false := by
    rcases hq with h | h
    · simp [h]
    · simp [Nat.not_le.mpr h]
  simp only [exec, execTileWriteBack, hk, hw, hdue, hb, hl, hroom, Bool.not_true, Bool.or_self, Bool.false_eq_true, if_false]
  rfl

/-- TILE_WRITE_BACK of a dirty tile that is due writes its cells to its frame, or to one that it takes, and to no other byte. -/
theorem execTileWriteBack_stored (c r : Int) (x d : IT) (k : Nat) (w : CTile) (s : State) (hk : s.heldHank = some k)
    (hw : s.cached c r = some w) (hd : w.dirty = some d) (hq : s.dis.fills = [] ∨ s.dis.backs < 15) (hl : s.lapHeld = false)
    (hb : s.backHeld k c r = false) (hdue : w.noAlloc = true ∧ 0 < s.freeTiles ∨
      w.noAlloc = false ∧ (w.changed + s.pN 0x2300 2 * 1000000 ≤ x ∨ d + s.pN 0x2300 3 * 1000000 ≤ x)) :
    ∃ t g, exec (.tileWriteBack c r x) s = .next t ∧
      t.cached c r = some { w with dirty := none, noAlloc := false, unobs := 0 } ∧
      (∀ f, s.frameOf k c r = some f → g = f.frame ∧ t.frameOf k c r = some { f with
        crc := crc32 w.cells, marked := f.marked || w.marked, streamed := f.streamed || w.streamed, unobs := sat16 (f.unobs + w.unobs) }) ∧
      (s.frameOf k c r = none → g = s.pickFrame ∧
        t.frameOf k c r = some ⟨g, k, c, r, false, w.streamed, w.marked, sat16 w.unobs, crc32 w.cells, 0⟩) ∧
      (Memory.wf s.mram → Memory.readBlock t.mram (g * 4096) w.cells.length = w.cells) ∧
      (∀ a, (a < g * 4096 ∨ g * 4096 + w.cells.length ≤ a) → Memory.read t.mram a = Memory.read s.mram a) ∧
      Unchanged [.it, .dis, .skein, .mram, .freeCtr] s t := by
  obtain ⟨rfl, rfl⟩ := State.cached_key hw
  have hback : s.backDue w x = true := by
    rcases hdue with ⟨hn, -⟩ | ⟨-, hx⟩
    · simp [State.backDue, hn]
    · simp [State.backDue, hd, hx]
  have hfree : w.noAlloc = true → 0 < (s.backAt x).freeTiles := by
    rcases hdue with ⟨-, hfree⟩ | ⟨hn, -⟩
    · exact fun _ => hfree
    · simp [hn]
  have hfor : (s.backAt x).frameFor k w.col w.row = s.frameFor k w.col w.row := rfl
  obtain ⟨hcached, hframe, hmram⟩ := State.writeBack_stored (s := s.backAt x) (k := k) hd hfree hw
  rw [hfor] at hframe hmram
  refine ⟨_, (s.frameFor k w.col w.row).frame, execTileWriteBack_next hk hw hback hq hl hb, hcached, fun f hf => ?_, fun hf => ?_,
    fun _ => ?_, fun a ha => ?_, Unchanged.of_mask (by simp [State.backAt])⟩
  · have hhas : s.frameFor k w.col w.row = f := by rw [State.frameFor, hf]; rfl
    rw [hhas] at hframe ⊢
    exact ⟨rfl, hframe⟩
  · have htakes : s.frameFor k w.col w.row = s.newFrame k w.col w.row := by rw [State.frameFor, hf]; rfl
    rw [htakes] at hframe ⊢
    refine ⟨rfl, hframe.trans ?_⟩
    simp [CTile.noted, State.newFrame]
  · rw [hmram]
    exact Memory.readBlock_write _ _ _
  · rw [hmram]
    exact Memory.read_write_other _ _ _ a ha

/-- TILE_WRITE_BACK of a clean tile without a frame allocates it again where a frame is free. -/
theorem execTileWriteBack_allocates (c r : Int) (x : IT) (k : Nat) (w : CTile) (s : State) (hk : s.heldHank = some k)
    (hw : s.cached c r = some w) (hn : w.noAlloc = true) (hd : w.dirty = none) (hfree : 0 < s.freeTiles)
    (hq : s.dis.fills = [] ∨ s.dis.backs < 15) (hl : s.lapHeld = false) (hb : s.backHeld k c r = false) :
    ∃ t, exec (.tileWriteBack c r x) s = .next t ∧ t.cached c r = some { w with noAlloc := false } ∧
      t.dis.frames = s.dis.frames ∧ Unchanged [.it, .dis] s t := by
  obtain ⟨rfl, rfl⟩ := State.cached_key hw
  have hback : s.backDue w x = true := by simp [State.backDue, hn]
  obtain ⟨hcached, hframes, hmask⟩ := State.writeBack_clean (s := s.backAt x) (k := k) hd hfree hw
  have hat : Unchanged [.it, .dis] s (s.backAt x) := Unchanged.of_mask (by simp [State.backAt])
  exact ⟨_, execTileWriteBack_next hk hw hback hq hl hb, hcached, hframes, hat.trans ((Unchanged.of_mask hmask).mono (by simp))⟩

/-- Settles O27, each event by the theorem about its command. -/
theorem hankEngine : Obligations.HankEngine :=
  ⟨execHankDeleteDone_frees, execCloseSequenceDone_closes, execTileFillDone_fills, execTileWriteBack_stored, execTileWriteBack_allocates⟩

end Sys2Proof.Machine

end

section

namespace Sys2Proof.Machine

/-! # Hank commands, in full (R156, R158) -/

/-! ### What an accepted hank command changes (R156) -/

/-- CREATE at a given origin writes the header at once. -/
theorem State.hankAccept_given (s : State) (b : Bytes) (ho : natAt b 3 1 = 0) :
    s.hankAccept (1 :: b) = (s.hankCreate (natAt b 0 1) (1 :: b) ⟨intAt b 7 8, intAt b 15 8, intAt b 23 4⟩).modDis
      (fun d => { d with result := 0 }) := by
  have hgiven : natAt (1 :: b) 4 1 ≠ 1 := by
    rw [natAt_cons, ho]
    decide
  have hcmd : natAt (1 :: b) 0 1 = 1 := natAt_head 1 b
  unfold State.hankAccept
  dsimp only
  rw [if_pos hcmd, if_neg hgiven]
  rfl

/-- The header that CREATE writes. -/
theorem State.hankCreate_fields (s : State) {k : Nat} (b : Bytes) (o : Origin) (hk : k < 16) :
    ((s.hankCreate k b o).hank k).state = 1 ∧ ((s.hankCreate k b o).hank k).cell = natAt b 2 1 ∧
      ((s.hankCreate k b o).hank k).job = natAt b 28 4 ∧ ((s.hankCreate k b o).hank k).name = bytesAt b 32 32 ∧
      ((s.hankCreate k b o).hank k).created = (s.time.boot, s.it) := by
  unfold State.hankCreate
  rw [State.modHank_hank_same _ _ _ hk]
  exact ⟨rfl, rfl, rfl, rfl, rfl⟩

/-- The command record `b` of command `c` waits for the next boundary. -/
def State.hankWaits (s : State) (c : Byte) (b : Bytes) : State :=
  s.modDis (fun d => { d with result := 1, wait := some ⟨c.toNat, natAt b 0 1, c :: b⟩ })

/-- CREATE at the current position waits for the next boundary. -/
theorem State.hankAccept_current (s : State) (b : Bytes) (ho : natAt b 3 1 = 1) : s.hankAccept (1 :: b) = s.hankWaits 1 b := by
  have hcurrent : natAt (1 :: b) 4 1 = 1 := (natAt_cons 1 b 3 1).trans ho
  have hcmd : natAt (1 :: b) 0 1 = 1 := natAt_head 1 b
  unfold State.hankAccept
  dsimp only
  rw [if_pos hcmd, if_pos hcurrent, natAt_head]
  rfl

/-- CREATE writes no other header. -/
theorem State.hankAccept_create_other (s : State) (b : Bytes) {k : Nat} (hk : k ≠ natAt b 0 1) :
    (s.hankAccept (1 :: b)).hank k = s.hank k := by
  have hcmd : natAt (1 :: b) 0 1 = 1 := natAt_head 1 b
  unfold State.hankAccept
  dsimp only
  rw [if_pos hcmd]
  split
  · rfl
  · exact State.modHank_hank_other s (natAt b 0 1) _ k hk

/-- OPEN and CLOSE wait for it too. -/
theorem State.hankAccept_boundary (s : State) (c : Byte) (b : Bytes) (hc : c = 2 ∨ c = 3) : s.hankAccept (c :: b) = s.hankWaits c b := by
  unfold State.hankAccept
  dsimp only
  rw [natAt_head]
  rcases hc with rfl | rfl <;> rfl

/-- DELETE marks its slot as deleting at once. -/
theorem State.hankAccept_deleting (s : State) (b : Bytes) :
    s.hankAccept (4 :: b) = (s.modHank (natAt b 0 1) (fun h => { h with state := 3 })).modDis (fun d => { d with result := 0 }) := by
  unfold State.hankAccept
  dsimp only
  rw [natAt_head]
  rfl

/-- An accepted hank command of a host changes Distaff alone, with its answer. -/
theorem State.hostWrite_hankAccept {s : State} {r : Req} {x : Session} {c : Byte} {b : Bytes} (h : s.Takes r x) (hb : b.length = 63)
    (hr : s.dis.result ≠ 1) (hj : s.hankJudge (c :: b) = 0) (hs : s.sliceAt (headerAt (natAt b 0 1)) 4096 = false) :
    (s.hostWrite r 0x2302 1 (c :: b)).dis = ((s.served r).hankAccept (c :: b)).dis ∧ s.Accepted (s.hostWrite r 0x2302 1 (c :: b)) r ∧
      Unchanged [.it, .dis, .dict, .nets] s (s.hostWrite r 0x2302 1 (c :: b)) := by
  have hr' : ¬ (s.served r).dis.result = 1 := hr
  have hj' : (s.served r).hankJudge (c :: b) = 0 := hj
  have hs' : (s.served r).sliceAt (headerAt (natAt (c :: b) 1 1)) 4096 = false := hs
  have hcmd : (s.served r).writeCommand r.sid x.level 0x2302 1 (c :: b) = ((s.served r).hankAccept (c :: b), 0) := by
    have hw : (s.served r).writeCommand r.sid x.level 0x2302 1 (c :: b) = (s.served r).hankWrite (c :: b) := rfl
    simp [hw, State.hankWrite, State.hankCommand, hr', hj', hs']
  obtain ⟨k, n, he, ha, hu⟩ := State.hostWrite_effect (ps := [.dis]) h isCommand_hank (valueFail_hank (c :: b) (by simp [hb]))
    (.inr (by decide)) (.inl (by decide)) (by decide) hcmd (State.hankAccept_mask _ _ (by simp)) (by simp)
  exact ⟨by rw [he], ha, hu.mono (by simp)⟩

/-- HANK_CREATE. -/
theorem execHankCreate_creates (r : Req) (x : Session) (b : Bytes) (s : State) (h : s.Takes r x) (hb : b.length = 63)
    (hr : s.dis.result ≠ 1) (hj : s.hankJudge (1 :: b) = 0) (hs : s.sliceAt (headerAt (natAt b 0 1)) 4096 = false) :
    ∃ t, exec (.hankCreate r b) s = .next t ∧
      (natAt b 3 1 = 0 → t.dis.result = 0 ∧ (t.hank (natAt b 0 1)).state = 1 ∧ (t.hank (natAt b 0 1)).cell = natAt b 1 1 ∧
        (t.hank (natAt b 0 1)).job = natAt b 27 4 ∧ (t.hank (natAt b 0 1)).name = bytesAt b 31 32 ∧
        (t.hank (natAt b 0 1)).created = (s.time.boot, max s.it r.rx)) ∧
      (natAt b 3 1 = 1 → t.dis = { s.dis with result := 1, wait := some ⟨1, natAt b 0 1, 1 :: b⟩ }) ∧
      (∀ k, k ≠ natAt b 0 1 → t.hank k = s.hank k) ∧ s.Accepted t r ∧ Unchanged [.it, .dis, .dict, .nets] s t := by
  obtain ⟨hd, ha, hu⟩ := State.hostWrite_hankAccept h hb hr hj hs
  have hslot : natAt b 0 1 < 16 := State.hankJudge_slot hj
  refine ⟨_, rfl, fun ho => ?_, fun ho => ?_, fun k hk => ?_, ha, hu⟩
  · rw [State.hankAccept_given _ _ ho] at hd
    rw [hd, State.hank_of_dis hd]
    exact ⟨rfl, State.hankCreate_fields (s.served r) (1 :: b) _ (State.hankJudge_slot hj)⟩
  · rw [hd, State.hankAccept_current _ _ ho]
    rfl
  · rw [State.hank_of_dis hd]
    exact State.hankAccept_create_other (s.served r) b hk

/-- A hank command that waits leaves its record with Distaff, and no more. -/
theorem State.hostWrite_hankWaits {s : State} {r : Req} {x : Session} {c : Byte} {b : Bytes} (h : s.Takes r x) (hb : b.length = 63)
    (hr : s.dis.result ≠ 1) (hj : s.hankJudge (c :: b) = 0) (hs : s.sliceAt (headerAt (natAt b 0 1)) 4096 = false) (hc : c = 2 ∨ c = 3) :
    (s.hostWrite r 0x2302 1 (c :: b)).dis = { s.dis with result := 1, wait := some ⟨c.toNat, natAt b 0 1, c :: b⟩ } ∧
      s.Accepted (s.hostWrite r 0x2302 1 (c :: b)) r ∧ Unchanged [.it, .dis, .dict, .nets] s (s.hostWrite r 0x2302 1 (c :: b)) := by
  obtain ⟨hd, ha, hu⟩ := State.hostWrite_hankAccept h hb hr hj hs
  refine ⟨?_, ha, hu⟩
  rw [hd, State.hankAccept_boundary _ c b hc]
  rfl

/-- HANK_DELETE. -/
theorem execHankDelete_deletes (r : Req) (x : Session) (b : Bytes) (s : State) (h : s.Takes r x) (hb : b.length = 63)
    (hr : s.dis.result ≠ 1) (hj : s.hankJudge (4 :: b) = 0) (hs : s.sliceAt (headerAt (natAt b 0 1)) 4096 = false) :
    ∃ t, exec (.hankDelete r b) s = .next t ∧
      t.dis.result = 0 ∧ t.hank (natAt b 0 1) = { s.hank (natAt b 0 1) with state := 3 } ∧
      (∀ k, k ≠ natAt b 0 1 → t.hank k = s.hank k) ∧ s.Accepted t r ∧ Unchanged [.it, .dis, .dict, .nets] s t := by
  obtain ⟨hd, ha, hu⟩ := State.hostWrite_hankAccept h hb hr hj hs
  rw [State.hankAccept_deleting] at hd
  refine ⟨_, rfl, by rw [hd]; rfl, ?_, fun k hk => ?_, ha, hu⟩
  · rw [State.hank_of_dis hd]
    exact State.modHank_hank_same (s.served r) _ _ (State.hankJudge_slot hj)
  · rw [State.hank_of_dis hd]
    exact State.modHank_hank_other (s.served r) _ _ _ hk

/-- HANK_OPEN and HANK_CLOSE wait for the next boundary, HANK_DELETE takes effect at once. -/
theorem execHankCommands_accepted (r : Req) (x : Session) (b : Bytes) (s : State) (h : s.Takes r x) (hb : b.length = 63)
    (hr : s.dis.result ≠ 1) (hs : s.sliceAt (headerAt (natAt b 0 1)) 4096 = false) :
    (s.hankJudge (2 :: b) = 0 → ∃ t, exec (.hankOpen r b) s = .next t ∧
      t.dis = { s.dis with result := 1, wait := some ⟨2, natAt b 0 1, 2 :: b⟩ } ∧ s.Accepted t r ∧
      Unchanged [.it, .dis, .dict, .nets] s t) ∧
    (s.hankJudge (3 :: b) = 0 → ∃ t, exec (.hankClose r b) s = .next t ∧
      t.dis = { s.dis with result := 1, wait := some ⟨3, natAt b 0 1, 3 :: b⟩ } ∧ s.Accepted t r ∧
      Unchanged [.it, .dis, .dict, .nets] s t) ∧
    (s.hankJudge (4 :: b) = 0 → ∃ t, exec (.hankDelete r b) s = .next t ∧
      t.dis.result = 0 ∧ t.hank (natAt b 0 1) = { s.hank (natAt b 0 1) with state := 3 } ∧
      (∀ k, k ≠ natAt b 0 1 → t.hank k = s.hank k) ∧ s.Accepted t r ∧ Unchanged [.it, .dis, .dict, .nets] s t) :=
  ⟨fun hj => ⟨_, rfl, State.hostWrite_hankWaits h hb hr hj hs (.inl rfl)⟩,
    fun hj => ⟨_, rfl, State.hostWrite_hankWaits h hb hr hj hs (.inr rfl)⟩,
    fun hj => execHankDelete_deletes r x b s h hb hr hj hs⟩

end Sys2Proof.Machine

end

section

namespace Sys2Proof.Machine

/-! # A tile stream of one record, in full (R157, R160, R167, R168) -/

/-! ### A record noted in its header (R157, R160) -/

theorem State.layerNoted_hank (s : State) (k layer q : Nat) :
    ((s.layerNoted k layer).hank q).state = (s.hank q).state ∧ ((s.layerNoted k layer).hank q).bg = (s.hank q).bg := by
  unfold State.layerNoted
  by_cases hq : q = k
  · subst hq
    by_cases h16 : q < 16
    · rw [State.modHank_hank_same _ _ _ h16]
      exact ⟨rfl, rfl⟩
    · simp [State.hank, State.modHank, vmod, h16]
  · rw [State.modHank_hank_other _ _ _ _ hq]
    exact ⟨rfl, rfl⟩

theorem State.layerNoted_openHank (s : State) (k layer : Nat) : (s.layerNoted k layer).openHank = s.openHank := by
  have hstate : ∀ q, ((s.layerNoted k layer).hank q).state = (s.hank q).state := fun q => (s.layerNoted_hank k layer q).1
  unfold State.openHank
  congr 1
  funext q
  exact congrArg (· == 2) (hstate q)

theorem State.layerNoted_storedCells (s : State) (k layer q : Nat) (c r : Int) :
    (s.layerNoted k layer).storedCells q c r = s.storedCells q c r := by
  have hframe : (s.layerNoted k layer).frameOf q c r = s.frameOf q c r := rfl
  have hbg : (s.layerNoted k layer).background q = s.background q := congrArg _ (s.layerNoted_hank k layer q).2
  unfold State.storedCells
  rw [hframe, hbg]
  rfl

/-- Whether a record waits for the boundary: its tile is resident, or an earlier record for it waits (R168). -/
def State.recordWaits (s : State) (l : LayerRec) : Prop :=
  (s.openHank = some l.slot ∧ (s.cached l.col l.row).isSome = true) ∨ s.dis.layers.any (·.isFor l.slot l.col l.row) = true

theorem State.applyRecord_waits {s : State} {l : LayerRec} (h : s.recordWaits l) :
    s.applyRecord l = (s.layerNoted l.slot l.layer).modDis (fun d => { d with layers := d.layers ++ [l] }) := by
  have h' : (s.layerNoted l.slot l.layer).recordWaits l := by
    unfold State.recordWaits
    rw [State.layerNoted_openHank]
    exact h
  exact if_pos h'

theorem State.applyRecord_stored {s : State} {l : LayerRec} (h : ¬ s.recordWaits l) :
    s.applyRecord l = (s.layerNoted l.slot l.layer).layerToPool l := by
  have h' : ¬ (s.layerNoted l.slot l.layer).recordWaits l := by
    unfold State.recordWaits
    rw [State.layerNoted_openHank]
    exact h
  exact if_neg h'

/-! ### A record applied to the stored tile (R167, R168) -/

theorem State.storedCells_length (s : State) (k : Nat) (c r : Int) : (s.storedCells k c r).length = 4096 := by
  unfold State.storedCells
  split
  · rw [State.poolCells, Memory.readBlock, List.length_map, List.length_range]
  · rw [State.background, List.length_replicate]

theorem layerCells_length (layer op fill : Nat) (payload cells : Bytes) : (layerCells layer op fill payload cells).length = cells.length := by
  simp [layerCells]

/-- Every cell takes its operation of R167. -/
theorem layerCells_getD (layer op fill : Nat) (payload cells : Bytes) {i : Nat} (h : i < cells.length) :
    (layerCells layer op fill payload cells).getD i 0 = layerCell layer op fill payload i (cells.getD i 0) := by
  simp [layerCells, h]

theorem Frame.received_key (f : Frame) (layer op : Nat) : (f.received layer op).key = f.key := by
  unfold Frame.received
  dsimp only
  split
  · rfl
  · split <;> split <;> rfl

theorem State.storeTile_dis (s : State) (k : Nat) (c r : Int) (cells : Bytes) (f : Frame → Frame) :
    ∃ l, (s.storeTile k c r cells f).dis = { s.dis with frames := l } := by
  unfold State.storeTile
  split <;> exact ⟨_, rfl⟩

/-- A record applied to the pool changes the frames alone of what Distaff holds, and notes which side of the reserve they leave. -/
theorem State.layerToPool_dis (s : State) (l : LayerRec) : ∃ fs p, (s.layerToPool l).dis = { s.dis with frames := fs, poolLow := p } := by
  unfold State.layerToPool
  dsimp only
  split
  · exact ⟨s.dis.frames, s.dis.poolLow, rfl⟩
  · obtain ⟨fs, hfs⟩ := s.storeTile_dis l.slot l.col l.row
      (layerCells l.layer l.op l.fill l.payload (s.storedCells l.slot l.col l.row)) (fun f => { f.received l.layer l.op with streamed := true })
    rw [State.poolCheck_dis]
    exact ⟨fs, _, by rw [State.poolNote, State.modDis_dis, hfs]⟩

/-- The stored tile after a record holds its cells with the record's operation, and no byte outside its frame changes. -/
theorem State.layerToPool_stored (s : State) (l : LayerRec) :
    (s.layerToPool l).storedCells l.slot l.col l.row =
        layerCells l.layer l.op l.fill l.payload (s.storedCells l.slot l.col l.row) ∧
      ∀ a, (∀ f, (s.layerToPool l).frameOf l.slot l.col l.row = some f → a < f.frame * 4096 ∨ f.frame * 4096 + 4096 ≤ a) →
        Memory.read (s.layerToPool l).mram a = Memory.read s.mram a := by
  have hlen : (layerCells l.layer l.op l.fill l.payload (s.storedCells l.slot l.col l.row)).length = 4096 :=
    (layerCells_length ..).trans (s.storedCells_length ..)
  unfold State.layerToPool
  extract_lets base cells
  split
  next h => exact ⟨h.1.symm, fun _ _ => rfl⟩
  next =>
    have hkey : ∀ y : Frame, ({ y.received l.layer l.op with streamed := true } : Frame).key = y.key := fun y => y.received_key _ _
    obtain ⟨hframe, hmram⟩ := s.storeTile_spec l.slot l.col l.row cells _ hkey
    obtain ⟨hfr, -⟩ := Frame.key_eq (hkey (s.frameFor l.slot l.col l.row))
    have hread := Memory.readBlock_write s.mram ((s.frameFor l.slot l.col l.row).frame * 4096) cells
    rw [hlen] at hread
    refine ⟨?_, fun a ha => ?_⟩
    · rw [State.storedCells, State.poolCheck_frameOf, hframe]
      dsimp only
      rw [State.poolCells, State.poolCheck_mram, hmram]
      exact (congrArg (fun n => Memory.readBlock _ (n * 4096) 4096) hfr).trans hread
    · rw [State.poolCheck_mram, hmram]
      have hout := ha _ ((State.poolCheck_frameOf _ _ _ _).trans hframe)
      dsimp only at hout
      rw [hfr] at hout
      exact Memory.read_write_other _ _ _ _ (by rwa [hlen])

/-! ### TILE_STREAM of one record (R167) -/

/-- A record that fills its block is its header and what follows it. -/
theorem recordOf_whole {v : Bytes} (hv : v.length = 16 + natAt v 12 2) :
    recordOf v = ⟨natAt v 0 1, natAt v 1 1, natAt v 2 1, natAt v 3 1, intAt v 4 2, intAt v 6 2, v.drop 16⟩ := by
  have hpay : (v.drop 16).take (natAt v 12 2) = v.drop 16 := List.take_of_length_le (by rw [List.length_drop]; omega)
  rw [recordOf, hpay]

/-- The state in which the records of a block begin to be counted. -/
def State.streamBegun (s : State) : State := s.modDis (fun d => { d with applied := 0, reject := 0 })

/-- An accepted record changes of Distaff the headers, the records kept and the frames alone. -/
theorem State.applyRecord_dis (s : State) (l : LayerRec) :
    ∃ hs ls fs p, (s.applyRecord l).dis = { s.dis with hanks := hs, layers := ls, frames := fs, poolLow := p } := by
  by_cases h : s.recordWaits l
  · rw [State.applyRecord_waits h]
    exact ⟨_, _, s.dis.frames, s.dis.poolLow, rfl⟩
  · rw [State.applyRecord_stored h]
    obtain ⟨fs, p, hp⟩ := (s.layerNoted l.slot l.layer).layerToPool_dis l
    rw [hp]
    exact ⟨_, s.dis.layers, fs, p, rfl⟩

section

variable {s : State} {v : Bytes} (hv : v.length = 16 + natAt v 12 2) (hc : s.streamCause v = 0)

include hv hc

theorem State.tileStream_accepted :
    s.tileStream v = (s.streamBegun.applyRecord (recordOf v)).modDis (fun d => { d with applied := d.applied + 1 }) :=
  State.tileStream_one hv hc

/-- An accepted record counts as applied and leaves the lap cache as it is. -/
theorem State.tileStream_counts : (s.tileStream v).dis.applied = 1 ∧ (s.tileStream v).dis.reject = 0 ∧
    (s.tileStream v).dis.cache = s.dis.cache ∧ (s.tileStream v).dis.fills = s.dis.fills := by
  obtain ⟨hs, ls, fs, p, hp⟩ := s.streamBegun.applyRecord_dis (recordOf v)
  rw [State.tileStream_accepted hv hc, State.modDis_dis, hp]
  exact ⟨rfl, rfl, rfl, rfl⟩

/-- An accepted record for a resident tile is kept whole for the boundary (R168). -/
theorem State.tileStream_waits (hw : s.recordWaits (recordOf v)) : (s.tileStream v).dis.layers = s.dis.layers ++ [recordOf v] ∧
    (s.tileStream v).dis.frames = s.dis.frames ∧ (s.tileStream v).mram = s.mram := by
  have hw' : s.streamBegun.recordWaits (recordOf v) := hw
  rw [State.tileStream_accepted hv hc, State.applyRecord_waits hw']
  exact ⟨rfl, rfl, rfl⟩

/-- An accepted record for another tile is applied to its stored cells, in its frame (R168). -/
theorem State.tileStream_stored (hw : ¬ s.recordWaits (recordOf v)) : (s.tileStream v).dis.layers = s.dis.layers ∧
    (s.tileStream v).storedCells (recordOf v).slot (recordOf v).col (recordOf v).row =
      layerCells (recordOf v).layer (recordOf v).op (recordOf v).fill (recordOf v).payload
        (s.storedCells (recordOf v).slot (recordOf v).col (recordOf v).row) ∧
    ∀ a, (∀ f, (s.tileStream v).frameOf (recordOf v).slot (recordOf v).col (recordOf v).row = some f →
        a < f.frame * 4096 ∨ f.frame * 4096 + 4096 ≤ a) → Memory.read (s.tileStream v).mram a = Memory.read s.mram a := by
  have hw' : ¬ s.streamBegun.recordWaits (recordOf v) := hw
  rw [State.tileStream_accepted hv hc, State.applyRecord_stored hw']
  generalize recordOf v = l
  obtain ⟨hstored, hmem⟩ := (s.streamBegun.layerNoted l.slot l.layer).layerToPool_stored l
  obtain ⟨fs, p, hp⟩ := (s.streamBegun.layerNoted l.slot l.layer).layerToPool_dis l
  rw [State.layerNoted_storedCells] at hstored
  exact ⟨by rw [State.modDis_dis, hp]; rfl, hstored, hmem⟩

theorem State.tileStream_mask {ps : List Part} (h : [.dis, .skein, .mram, .freeCtr] ⊆ ps) : (s.tileStream v).mask ps = s.mask ps := by
  simp at h
  simp [State.tileStream_one hv hc, h]

end

/-- A stream block of one record that a cause rejects applies nothing and notes the cause. -/
theorem State.tileStream_rejected {s : State} {v : Bytes} (hv : v.length = 16 + natAt v 12 2) (hc : s.streamCause v ≠ 0) :
    s.tileStream v = s.modDis (fun d => { d with applied := 0, reject := s.streamCause v }) := by
  have hne : v.isEmpty = false := by
    rw [List.isEmpty_eq_false_iff_exists_mem]
    exact List.exists_mem_of_length_pos (by omega)
  have hc' : (s.modDis (fun d => { d with applied := 0, reject := 0 })).streamCause v = s.streamCause v := rfl
  have hrest : v.drop (16 + natAt v 12 2) = [] := List.drop_eq_nil_of_le (Nat.le_of_eq hv)
  have hdone : ∀ n (t : State), State.streamRecords n [] t = t := fun n t => by cases n <;> rfl
  have hlong : ¬ v.length < 16 := by omega
  have hwhole : ¬ v.length < 16 + natAt v 12 2 := by omega
  simp only [State.tileStream, State.streamRecords, hne, hc', hc, hrest, hdone, hlong, hwhole, Bool.false_eq_true, if_false]
  rfl

/-- A stream block of one record that the module takes: what it does to the state, answered. -/
theorem State.hostWrite_stream {s : State} {r : Req} {x : Session} {v : Bytes} {ps : List Part} (h : s.Takes r x)
    (hv : v.length = 16 + natAt v 12 2) (hlen : v.length ≤ 65536) (hm : s.mramHeld = false)
    (hs : s.sliceAt (headerAt (natAt v 0 1)) 4096 = false) (hb : s.backHeld (natAt v 0 1) (intAt v 4 2) (intAt v 6 2) = false)
    (hmask : ((s.served r).tileStream v).mask ps = (s.served r).mask ps) (hps : .it ∉ ps ∧ .dict ∉ ps ∧ .nets ∉ ps) :
    ∃ k n, s.hostWrite r 0x2310 1 v = { (s.served r).tileStream v with dict := k, nets := n } ∧
      s.Accepted (s.hostWrite r 0x2310 1 v) r ∧ Unchanged (.it :: .dict :: .nets :: ps) s (s.hostWrite r 0x2310 1 v) := by
  have hm' : (s.served r).mramHeld = false := hm
  have hheld : (s.served r).streamHeld (v.length / 16 + 1) v = false := State.streamHeld_one (s := s.served r) hv hs hb _
  have hcmd : (s.served r).writeCommand r.sid x.level 0x2310 1 v = ((s.served r).tileStream v, 0) := by
    have hw : (s.served r).writeCommand r.sid x.level 0x2310 1 v = (s.served r).tileWrite v := rfl
    simp [hw, State.tileWrite, hm', hheld]
  exact State.hostWrite_effect h isCommand_stream (valueFail_stream v hlen) (.inr (by decide)) (.inl (by decide)) (by decide) hcmd hmask hps

/-- TILE_STREAM of one record: an accepted one waits whole for the boundary or is applied to the stored tile, a rejected one changes
nothing but its report. -/
theorem execTileStream_record (r : Req) (x : Session) (v : Bytes) (s : State) (h : s.Takes r x) (hv : v.length = 16 + natAt v 12 2)
    (hlen : v.length ≤ 65536) (hm : s.mramHeld = false) (hs : s.sliceAt (headerAt (natAt v 0 1)) 4096 = false)
    (hb : s.backHeld (natAt v 0 1) (intAt v 4 2) (intAt v 6 2) = false) :
    ∃ t, exec (.tileStream r v) s = .next t ∧
      (s.streamCause v = 0 → t.dis.applied = 1 ∧ t.dis.reject = 0 ∧ t.dis.cache = s.dis.cache ∧ t.dis.fills = s.dis.fills ∧
        ((s.openHank = some (natAt v 0 1) ∧ (s.cached (intAt v 4 2) (intAt v 6 2)).isSome = true) ∨
            s.dis.layers.any (·.isFor (natAt v 0 1) (intAt v 4 2) (intAt v 6 2)) = true →
          t.dis.layers = s.dis.layers ++
            [⟨natAt v 0 1, natAt v 1 1, natAt v 2 1, natAt v 3 1, intAt v 4 2, intAt v 6 2, v.drop 16⟩] ∧
          t.dis.frames = s.dis.frames ∧ ∀ a, Memory.read t.mram a = Memory.read s.mram a) ∧
        (¬ (s.openHank = some (natAt v 0 1) ∧ (s.cached (intAt v 4 2) (intAt v 6 2)).isSome = true) →
            s.dis.layers.any (·.isFor (natAt v 0 1) (intAt v 4 2) (intAt v 6 2)) = false →
          t.dis.layers = s.dis.layers ∧
          (Memory.wf s.mram → ∀ i, i < 4096 → (t.storedCells (natAt v 0 1) (intAt v 4 2) (intAt v 6 2)).getD i 0 =
            layerCell (natAt v 1 1) (natAt v 2 1) (natAt v 3 1) (v.drop 16) i
              ((s.storedCells (natAt v 0 1) (intAt v 4 2) (intAt v 6 2)).getD i 0)) ∧
          ∀ a, (∀ f, t.frameOf (natAt v 0 1) (intAt v 4 2) (intAt v 6 2) = some f → a < f.frame * 4096 ∨ f.frame * 4096 + 4096 ≤ a) →
            Memory.read t.mram a = Memory.read s.mram a)) ∧
      (s.streamCause v ≠ 0 → t.dis = { s.dis with applied := 0, reject := s.streamCause v } ∧
        Unchanged [.it, .dis, .dict, .nets] s t) ∧
      s.Accepted t r ∧ Unchanged [.it, .dis, .skein, .mram, .freeCtr, .dict, .nets] s t := by
  have hrec := recordOf_whole hv
  by_cases hc : s.streamCause v = 0
  · have hc' : (s.served r).streamCause v = 0 := hc
    have hmask := State.tileStream_mask hv hc' (ps := [.dis, .skein, .mram, .freeCtr]) (by simp)
    obtain ⟨k, n, he, ha, hu⟩ := State.hostWrite_stream h hv hlen hm hs hb hmask (by simp)
    refine ⟨_, rfl, fun _ => ?_, fun hn => absurd hc hn, ha, hu.mono (by simp)⟩
    obtain ⟨happlied, hreject, hcache, hfills⟩ := State.tileStream_counts hv hc'
    rw [he]
    refine ⟨happlied, hreject, hcache, hfills, fun hw => ?_, fun hnotResident hnoneKept => ?_⟩
    · have hw' : (s.served r).recordWaits (recordOf v) := hw
      obtain ⟨hlayers, hframes, hmram⟩ := State.tileStream_waits hv hc' hw'
      rw [hrec] at hlayers
      exact ⟨hlayers, hframes, fun a => congrArg (fun m => Memory.read m a) hmram⟩
    · have hw' : ¬ (s.served r).recordWaits (recordOf v) := by
        rintro (hw | hw)
        · exact hnotResident hw
        · exact absurd (hnoneKept.symm.trans hw) (by decide)
      obtain ⟨hlayers, hstored, hmem⟩ := State.tileStream_stored hv hc' hw'
      rw [hrec] at hstored hmem
      refine ⟨hlayers, fun _ i hi => ?_, hmem⟩
      refine (congrArg (fun cs => List.getD cs i 0) hstored).trans ?_
      exact layerCells_getD _ _ _ _ _ (by rw [State.storedCells_length]; exact hi)
  · have hc' : (s.served r).streamCause v ≠ 0 := hc
    have hrejected := State.tileStream_rejected hv hc'
    obtain ⟨k, n, he, ha, hu⟩ := State.hostWrite_stream (ps := [.dis]) h hv hlen hm hs hb (by simp [hrejected]) (by simp)
    refine ⟨_, rfl, fun h0 => absurd h0 hc, fun _ => ⟨?_, hu.mono (by simp)⟩, ha, hu.mono (by simp)⟩
    rw [he, hrejected]
    rfl

/-- Settles O26, each command by the theorem about it. -/
theorem hankAndTileCommands : Obligations.HankAndTileCommands :=
  ⟨execHankCreate_creates, execHankCommands_accepted, execTileStream_record⟩

end Sys2Proof.Machine

end

section

namespace Sys2Proof.Machine

/-! # Nozzle banks: what their shared operations do to a channel and to a bank (R212, R216, R227) -/

/-! ### Channels, banks and dies by the part they stand in -/

theorem State.ch_of_chan {s t : State} (h : t.chan = s.chan) (n : Nat) : t.ch n = s.ch n := by
  simp [State.ch, h]

theorem State.bank_of_banks {s t : State} (h : t.banks = s.banks) (b : Nat) : t.bank b = s.bank b := by
  simp [State.bank, h]

theorem State.die_of_dies {s t : State} (h : t.dies = s.dies) (d : Nat) : t.die d = s.die d := by
  simp [State.die, h]

/-- The channels of bank `b` are those whose eighth it is (R210). -/
theorem mem_bankChannels {b n : Nat} : n ∈ bankChannels b ↔ n / 8 = b := by
  simp only [bankChannels, List.mem_map, List.mem_range]
  constructor
  · rintro ⟨i, hi, rfl⟩
    omega
  · exact fun h => ⟨n % 8, by omega, by omega⟩

theorem mem_dieChannels {d n : Nat} : n ∈ dieChannels d ↔ n / 32 = d := by
  simp only [dieChannels, List.mem_map, List.mem_range]
  constructor
  · rintro ⟨i, hi, rfl⟩
    omega
  · exact fun h => ⟨n % 32, by omega, by omega⟩

/-- A change of a channel that leaves `g` of it as it was leaves `g` of every channel. -/
theorem State.modCh_keeps {α : Type} (g : Channel → α) (s : State) (n : Nat) (f : Channel → Channel) (m : Nat)
    (hf : ∀ c, g (f c) = g c) : g ((s.modCh n f).ch m) = g (s.ch m) := by
  by_cases hm : m = n
  · subst hm
    by_cases hn : m < 128
    · rw [State.modCh_ch_same _ _ _ hn, hf]
    · simp [State.modCh, State.ch, vmod, hn]
  · rw [State.modCh_ch_other _ _ _ _ hm]

theorem State.modBank_keeps {α : Type} (g : Bank → α) (s : State) (b : Nat) (f : Bank → Bank) (k : Nat)
    (hf : ∀ x, g (f x) = g x) : g ((s.modBank b f).bank k) = g (s.bank k) := by
  by_cases hk : k = b
  · subst hk
    by_cases hb : k < 16
    · rw [State.modBank_bank_same _ _ _ hb, hf]
    · simp [State.modBank, State.bank, vmod, hb]
  · rw [State.modBank_bank_other _ _ _ _ hk]

/-! ### A channel that is not driven -/

/-- Channel `n` neither pulls in nor holds. -/
def State.undriven (s : State) (n : Nat) : Prop := (s.ch n).state ≠ 1 ∧ (s.ch n).state ≠ 2

theorem State.undriven_of_ch {s t : State} {n : Nat} (h : t.ch n = s.ch n) : t.undriven n ↔ s.undriven n := by
  simp [State.undriven, h]

/-- A fold keeps what each of its steps keeps, by the members it runs over. -/
theorem foldl_keeps_of_mem {α β : Type} (p : State → β) (g : State → α → State) (l : List α) (hg : ∀ a ∈ l, ∀ s, p (g s a) = p s)
    (s : State) : p (l.foldl g s) = p s := by
  induction l generalizing s with
  | nil => rfl
  | cons a l ih => exact (ih (fun b hb => hg b (by simp [hb])) _).trans (hg a (by simp) s)

/-- Where each step of a fold leaves its own channel not driven and the others as they were, every channel of the list ends not
driven. -/
theorem foldl_undriven (g : State → Nat → State) (hself : ∀ s n, n < 128 → (g s n).undriven n)
    (hother : ∀ s n m, m ≠ n → (g s n).ch m = s.ch m) (l : List Nat) (hl : ∀ n ∈ l, n < 128) (s : State) :
    ∀ n ∈ l, (l.foldl g s).undriven n := by
  have hf : ∀ m (u : State), (m ∈ l ∨ u.undriven m) → (l.foldl g u).undriven m := by
    intro m
    induction l with
    | nil => exact fun u h => h.resolve_left (by simp)
    | cons a l ih =>
      intro u h
      refine ih (fun n hn => hl n (by simp [hn])) _ ?_
      by_cases hm : m = a
      · rw [hm]
        exact .inr (hself u a (hl a (by simp)))
      · refine h.imp (fun h => (List.mem_cons.mp h).resolve_left hm) fun h => ?_
        exact (State.undriven_of_ch (hother u a m hm)).mpr h
  exact fun n hn => hf n s (.inl hn)

/-- Where each step of a fold does `F` to its own channel alone, every channel of the list has had `F` done to it once. -/
theorem foldl_ch_each (g : State → Nat → State) (F : Channel → Channel) (hself : ∀ s n, n < 128 → (g s n).ch n = F (s.ch n))
    (hother : ∀ s n m, m ≠ n → (g s n).ch m = s.ch m) (l : List Nat) (hl : ∀ n ∈ l, n < 128) (hd : l.Nodup) (s : State) :
    ∀ n ∈ l, (l.foldl g s).ch n = F (s.ch n) := by
  induction l generalizing s with
  | nil => simp
  | cons a l ih =>
    rw [List.nodup_cons] at hd
    intro n hn
    rw [List.foldl_cons]
    by_cases h : n = a
    · subst h
      rw [foldl_keeps_of_mem (fun s => s.ch n) g l (fun b hb s => hother s b n fun e => hd.1 (e ▸ hb))]
      exact hself s n (hl n (by simp))
    · rw [ih (fun b hb => hl b (by simp [hb])) hd.2 _ n ((List.mem_cons.mp hn).resolve_left h), hother s a n h]

/-! ### The common (R212) -/

/-- The common that bank `b` is set to (R212): open where it may not be driven, BOOST for a pull-in, SUPPLY while a channel is on. -/
def State.commonWanted (s : State) (b : Nat) : Nat :=
  if s.bankOut b then 0
  else if s.bankBoost b && (bankChannels b).any (fun n => (s.ch n).state == 1) then 2
  else if (bankChannels b).any (fun n => (s.ch n).state != 0) then 1
  else 0

theorem State.setCommon_bank_same (s : State) (b : Nat) (hb : b < 16) :
    (s.setCommon b).bank b =
      if (s.die (b / 4)).state = 2 then s.bank b else { s.bank b with common := s.commonWanted b } := by
  unfold State.setCommon
  split
  · rfl
  · exact State.modBank_bank_same _ _ _ hb

/-- Setting the common moves nothing else of a bank. -/
theorem State.setCommon_bank_keeps {α : Type} (g : Bank → α) (hg : ∀ x c, g { x with common := c } = g x) (s : State) (b k : Nat) :
    g ((s.setCommon b).bank k) = g (s.bank k) := by
  unfold State.setCommon
  split
  · rfl
  · exact State.modBank_keeps g _ _ _ _ fun x => hg x _

/-- With its die running, a bank that may not be driven stands open. -/
theorem State.setCommon_out (s : State) (b : Nat) (hb : b < 16) (hd : (s.die (b / 4)).state ≠ 2) (ho : s.bankOut b = true) :
    ((s.setCommon b).bank b).common = 0 := by
  simp [State.setCommon_bank_same _ _ hb, hd, State.commonWanted, ho]

/-- Whether a bank is out of service hangs on its own marks and on its fault. -/
theorem State.bankOut_congr {s t : State} {b : Nat} (hb : (t.bank b).blocked = (s.bank b).blocked)
    (hs : t.contained 0xE004 b = s.contained 0xE004 b) : t.bankOut b = s.bankOut b := by
  simp [State.bankOut, hb, hs]

/-- What a report carries depends on the device state and the dictionary alone (R455). -/
theorem State.faultNow_congr {s t : State} (hp : t.power = s.power) (hd : t.dict = s.dict) (code subj : Nat) (det : Bytes) (y : IT) :
    t.faultNow code subj det y = s.faultNow code subj det y := by
  simp only [State.faultNow, State.faultResponse, hp, State.pN_of_dict hd]

/-! ### A window lost (R171) -/

@[simp] theorem State.loseWindow_it (s : State) (n : Nat) (cl : Closing) (t : IT) : (s.loseWindow n cl t).it = s.it := by
  unfold State.loseWindow
  split <;> rfl

@[simp] theorem State.loseWindow_bank (s : State) (n : Nat) (cl : Closing) (t : IT) (b : Nat) :
    (s.loseWindow n cl t).bank b = s.bank b := by
  unfold State.loseWindow
  split <;> rfl

@[simp] theorem State.loseWindow_die (s : State) (n : Nat) (cl : Closing) (t : IT) (d : Nat) :
    (s.loseWindow n cl t).die d = s.die d := by
  unfold State.loseWindow
  split <;> rfl

theorem State.loseWindow_ch_other (s : State) (n : Nat) (cl : Closing) (t : IT) (m : Nat) (h : m ≠ n) :
    (s.loseWindow n cl t).ch m = s.ch m := by
  unfold State.loseWindow
  split
  · rfl
  · exact State.modCh_ch_other _ _ _ _ h

/-- A window lost moves nothing of its channel but the closings. -/
theorem State.loseWindow_ch_keeps {α : Type} (g : Channel → α) (hg : ∀ c l, g { c with closings := l } = g c) (s : State) (n : Nat)
    (cl : Closing) (t : IT) (m : Nat) : g ((s.loseWindow n cl t).ch m) = g (s.ch m) := by
  unfold State.loseWindow
  split
  · rfl
  · exact State.modCh_keeps g _ _ _ _ fun c => hg c _

/-- Windows lost one after the other move nothing of a channel but its closings. -/
theorem State.loseWindows_ch_keeps {α : Type} (g : Channel → α) (hg : ∀ c l, g { c with closings := l } = g c) (s : State) (n : Nat)
    (t : IT) (l : List Closing) (m : Nat) : g ((l.foldl (fun s x => s.loseWindow n x t) s).ch m) = g (s.ch m) :=
  foldl_keeps (fun s => g (s.ch m)) _ (fun s x => s.loseWindow_ch_keeps g hg n x t m) l s

theorem State.loseWindows_bank (s : State) (n : Nat) (t : IT) (l : List Closing) (b : Nat) :
    (l.foldl (fun s x => s.loseWindow n x t) s).bank b = s.bank b :=
  foldl_keeps (fun s => s.bank b) _ (fun s x => s.loseWindow_bank n x t b) l s

theorem State.loseWindows_ch_other (s : State) (n : Nat) (t : IT) (l : List Closing) (m : Nat) (h : m ≠ n) :
    (l.foldl (fun s x => s.loseWindow n x t) s).ch m = s.ch m :=
  foldl_keeps (fun s => s.ch m) _ (fun s x => s.loseWindow_ch_other n x t m h) l s

/-! ### A channel closed (R216) -/

/-- A closing leaves its channel not driven. -/
theorem State.closeWith_undriven (s : State) (n : Nat) (t : IT) (how : CloseBy) (c : Nat) (boost : Bool) (hn : n < 128) :
    (s.closeWith n t how c boost).undriven n := by
  by_cases hs : (s.ch n).state = 1 ∨ (s.ch n).state = 2
  · obtain ⟨-, -, -, -, -, hst, -, -⟩ := s.closeWith_ch_same n t how c boost hn hs
    simp [State.undriven, hst]
  · rw [not_or] at hs
    have he : s.closeWith n t how c boost = s.at t := if_pos (by simp [hs])
    rw [he]
    exact hs

/-- What a closing does not touch of a channel. -/
theorem State.closeWith_ch_keeps {α : Type} (g : Channel → α)
    (hg : ∀ (c : Channel) st cls la lc oc dc k, g { c with
      state := st, closings := cls, lastClamp := la, lastCmd := lc, ocCount := oc, dieClosed := dc, counters := k } = g c)
    (s : State) (n : Nat) (t : IT) (how : CloseBy) (c : Nat) (boost : Bool) (m : Nat) :
    g ((s.closeWith n t how c boost).ch m) = g (s.ch m) := by
  unfold State.closeWith
  extract_lets s0 x b clamp opens early w cl s1 s2 s3
  split
  · rfl
  · have h1 : s1.ch m = s.ch m := by
      simp only [s1]
      (repeat' split) <;> rfl
    have h3 : s3.ch m = s2.ch m := by
      simp only [s3]
      split <;> rfl
    rw [State.setCommon_ch, State.endReserve_ch, h3, ← h1]
    refine State.modCh_keeps g _ _ _ _ fun y => ?_
    (repeat' split) <;> exact hg y _ _ _ _ _ _ _

/-- A closing moves nothing of a bank but its common and its counts. -/
theorem State.closeWith_bank_keeps {α : Type} (g : Bank → α) (hg : ∀ x c k, g { x with common := c, counters := k } = g x)
    (s : State) (n : Nat) (t : IT) (how : CloseBy) (c : Nat) (boost : Bool) (b : Nat) :
    g ((s.closeWith n t how c boost).bank b) = g (s.bank b) := by
  unfold State.closeWith
  extract_lets s0 x b' clamp opens early w cl s1 s2 s3
  split
  · rfl
  · rw [State.setCommon_bank_keeps g (fun x c => hg x c x.counters), State.endReserve_bank]
    have h2 : s2.bank b = s.bank b := by
      simp only [s2, State.modCh_bank, s1]
      (repeat' split) <;> rfl
    simp only [s3]
    split
    · exact (State.modBank_keeps g _ _ _ _ fun x => hg x x.common _).trans (congrArg g h2)
    · rw [h2]

end Sys2Proof.Machine

end

section

namespace Sys2Proof.Machine

/-! # Nozzles: a due opening edge (R211 to R214, R223, R224) -/

/-- The state in which channel `n` has taken edge `e` off its list, at the edge's time. -/
def State.openTaken (s : State) (n : Nat) (e : DieEdge) : State :=
  (s.at e.it).modCh n (fun c => { c with edges := c.edges.erase e })

theorem State.openTaken_ch_same (s : State) (n : Nat) (e : DieEdge) (hn : n < 128) :
    (s.openTaken n e).ch n = { s.ch n with edges := (s.ch n).edges.erase e } := State.modCh_ch_same _ _ _ hn

theorem State.openTaken_ch_other (s : State) (n : Nat) (e : DieEdge) (m : Nat) (hm : m ≠ n) : (s.openTaken n e).ch m = s.ch m :=
  State.modCh_ch_other _ _ _ _ hm

@[simp] theorem State.openTaken_mask {ps : List Part} (s : State) (n : Nat) (e : DieEdge) (h : [.it, .chan] ⊆ ps) :
    (s.openTaken n e).mask ps = s.mask ps := by
  simp at h
  simp [State.openTaken, h]

/-- Whether a pull-in is refused does not hang on the edge that asks for it. -/
theorem State.openTaken_pullRefused (s : State) (n : Nat) (e : DieEdge) (p : Nat) (hn : n < 128) :
    (s.openTaken n e).pullRefused n p = s.pullRefused n p := by
  unfold State.pullRefused
  rw [State.openTaken_ch_same _ _ _ hn]
  rfl

theorem execPullInStart_due (n : Fin 128) (rv sv : Nat) (e : DieEdge) (s : State) (he : (s.ch n).nextOpen = some e) :
    exec (.pullInStart n rv sv) s = .next (s.pullIn n e rv sv) := by
  simp only [exec, execPullInStart, he]

/-- An edge on a channel that pulls in, holds or is not enabled is taken, and nothing else happens. -/
theorem State.pullIn_void (s : State) (n : Nat) (e : DieEdge) (rv sv : Nat) (hn : n < 128)
    (h : (s.ch n).state = 1 ∨ (s.ch n).state = 2 ∨ s.chEnabled n = false) : s.pullIn n e rv sv = s.openTaken n e := by
  have hch := s.openTaken_ch_same n e hn
  have hen : (s.openTaken n e).chEnabled n = s.chEnabled n := rfl
  refine if_pos ?_
  show ((((s.openTaken n e).ch n).state == 1 || ((s.openTaken n e).ch n).state == 2 || !(s.openTaken n e).chEnabled n) = true)
  rw [hch, hen]
  simpa [or_assoc] using h

/-- A pull-in that is refused is counted NOT-OPENED. -/
theorem State.pullIn_refused (s : State) (n : Nat) (e : DieEdge) (rv sv : Nat) (hn : n < 128) (h1 : (s.ch n).state ≠ 1)
    (h2 : (s.ch n).state ≠ 2) (hen : s.chEnabled n = true) (hr : s.pullRefused n e.pct = true) :
    s.pullIn n e rv sv = (s.openTaken n e).modCh n (·.count 1) := by
  have hch := s.openTaken_ch_same n e hn
  have hen' : (s.openTaken n e).chEnabled n = true := hen
  refine (if_neg ?_).trans (if_pos ?_)
  · show ¬((((s.openTaken n e).ch n).state == 1 || ((s.openTaken n e).ch n).state == 2 || !(s.openTaken n e).chEnabled n) = true)
    rw [hch, hen']
    simp [h1, h2]
  · exact (s.openTaken_pullRefused n e _ hn).trans hr

/-- A pull-in that is not refused finds its die running and its bank in service. -/
theorem State.pullRefused_false {s : State} {n p : Nat} (h : s.pullRefused n p = false) :
    (s.die (n / 32)).state ≠ 2 ∧ s.bankOut (n / 8) = false := by
  simp only [State.pullRefused, Bool.or_eq_false_iff] at h
  obtain ⟨⟨⟨-, hb⟩, hd⟩, -⟩ := h
  exact ⟨by simpa using hd, hb⟩

/-- The common that a bank with source BOOST takes for a pull-in. -/
theorem State.setCommon_boost (s : State) (b n : Nat) (hb : b < 16) (hd : (s.die (b / 4)).state ≠ 2) (ho : s.bankOut b = false)
    (hs : s.bankBoost b = true) (hn : n ∈ bankChannels b) (hp : (s.ch n).state = 1) : ((s.setCommon b).bank b).common = 2 := by
  have ha : (bankChannels b).any (fun n => (s.ch n).state == 1) = true := List.any_eq_true.mpr ⟨n, hn, by simp [hp]⟩
  simp [State.setCommon_bank_same _ _ hb, hd, State.commonWanted, ho, hs, ha]

/-- The state in which pull-in `p` of channel `n` has begun, the windows of the closings `l` lost, and the common not yet set. -/
def State.pullBegun (s : State) (n : Nat) (p : PullIn) (l : List Closing) : State :=
  let s := (l.foldl (fun s x => s.loseWindow n x p.start) s).modCh n (fun c => ({ c with
    state := 1, pull := p, closings := c.closings.filter (·.window), peakShort := false }).count 0)
  s.modBank (n / 8) (fun k => { k.count 0 with limit := s.pN (0x3080 + n / 8) 2 })

@[simp] theorem State.pullBegun_mask {ps : List Part} (s : State) (n : Nat) (p : PullIn) (l : List Closing)
    (h : [.chan, .banks, .dis] ⊆ ps) : (s.pullBegun n p l).mask ps = s.mask ps := by
  simp at h
  simp [State.pullBegun, h]

@[simp] theorem State.pullBegun_it (s : State) (n : Nat) (p : PullIn) (l : List Closing) : (s.pullBegun n p l).it = s.it :=
  foldl_keeps (·.it) _ (fun s x => s.loseWindow_it n x _) l s

@[simp] theorem State.pullBegun_die (s : State) (n : Nat) (p : PullIn) (l : List Closing) (d : Nat) :
    (s.pullBegun n p l).die d = s.die d :=
  foldl_keeps (fun s => s.die d) _ (fun s x => s.loseWindow_die n x _ d) l s

/-- The channel of a pull-in that begins: in PULL-IN, with its edges as they were, and the pull-in counted. -/
theorem State.pullBegun_ch_same (s : State) (n : Nat) (p : PullIn) (l : List Closing) (hn : n < 128) :
    ((s.pullBegun n p l).ch n).state = 1 ∧ ((s.pullBegun n p l).ch n).pull = p ∧
      ((s.pullBegun n p l).ch n).edges = (s.ch n).edges ∧
      vget ((s.pullBegun n p l).ch n).counters 0 0 = sat32 (vget (s.ch n).counters 0 0 + 1) := by
  unfold State.pullBegun
  extract_lets s1
  have h1 : s1.ch n = Channel.count { (l.foldl (fun s x => s.loseWindow n x p.start) s).ch n with
      state := 1, pull := p, peakShort := false,
      closings := ((l.foldl (fun s x => s.loseWindow n x p.start) s).ch n).closings.filter (·.window) } 0 := State.modCh_ch_same _ _ _ hn
  rw [State.modBank_ch, h1, ← State.loseWindows_ch_keeps (·.edges) (fun _ _ => rfl) s n p.start l n,
    ← State.loseWindows_ch_keeps (·.counters) (fun _ _ => rfl) s n p.start l n]
  exact ⟨rfl, rfl, rfl, vget_vmod_same _ _ _ _ (by decide)⟩

theorem State.pullBegun_ch_other (s : State) (n : Nat) (p : PullIn) (l : List Closing) (m : Nat) (hm : m ≠ n) :
    (s.pullBegun n p l).ch m = s.ch m :=
  (State.modCh_ch_other _ _ _ _ hm).trans (State.loseWindows_ch_other _ _ _ _ _ hm)

theorem State.pullBegun_bank_other (s : State) (n : Nat) (p : PullIn) (l : List Closing) (b : Nat) (hb : b ≠ n / 8) :
    (s.pullBegun n p l).bank b = s.bank b :=
  (State.modBank_bank_other _ _ _ _ hb).trans (State.loseWindows_bank _ _ _ _ _)

/-- A pull-in that begins blocks no bank, and frees none. -/
theorem State.pullBegun_blocked (s : State) (n : Nat) (p : PullIn) (l : List Closing) (b : Nat) :
    ((s.pullBegun n p l).bank b).blocked = (s.bank b).blocked := by
  unfold State.pullBegun
  extract_lets s1
  rw [State.modBank_keeps Bank.blocked s1 _ _ b ?_, State.modCh_bank, State.loseWindows_bank]
  exact fun _ => rfl

theorem State.pullBegun_bankOut (s : State) (n : Nat) (p : PullIn) (l : List Closing) (b : Nat) :
    (s.pullBegun n p l).bankOut b = s.bankOut b := by
  have h : (s.pullBegun n p l).sup = s.sup := (Unchanged.of_mask (by simp) : Unchanged [.chan, .banks, .dis] s _) .sup (by simp)
  exact State.bankOut_congr (s.pullBegun_blocked n p l b) (by simp only [State.contained, State.faultActive, h])

theorem State.pullBegun_bankBoost (s : State) (n : Nat) (p : PullIn) (l : List Closing) (b : Nat) :
    (s.pullBegun n p l).bankBoost b = s.bankBoost b := by
  have h : (s.pullBegun n p l).dict = s.dict := (Unchanged.of_mask (by simp) : Unchanged [.chan, .banks, .dis] s _) .dict (by simp)
  simp only [State.bankBoost, State.pN_of_dict h]

/-- A pull-in that is not refused begins at its edge's time, with the granted share of the peak (R214, R223). -/
theorem State.pullIn_begins (s : State) (n : Nat) (e : DieEdge) (rv sv : Nat) (hn : n < 128) (h1 : (s.ch n).state ≠ 1)
    (h2 : (s.ch n).state ≠ 2) (hen : s.chEnabled n = true) (hr : s.pullRefused n e.pct = false) :
    ∃ p l, p.start = e.it ∧ p.ipk = s.pN (0x3000 + n) 4 * e.pct / 100 ∧
      s.pullIn n e rv sv = ((s.openTaken n e).pullBegun n p l).setCommon (n / 8) := by
  have hch := s.openTaken_ch_same n e hn
  have hen' : (s.openTaken n e).chEnabled n = true := hen
  unfold State.pullIn
  extract_lets s1 c b d mv ends p s2 s3
  have hc : c = { s.ch n with edges := (s.ch n).edges.erase e } := hch
  have hs1 : s1.chEnabled n = true := hen
  have hr1 : s1.pullRefused n e.pct = false := (s.openTaken_pullRefused n e _ hn).trans hr
  rw [if_neg (by rw [hc, hs1]; simp [h1, h2]), if_neg (by rw [hr1]; simp)]
  exact ⟨p, _, rfl, rfl, rfl⟩

theorem execPullInStart_begins (n : Fin 128) (rv sv : Nat) (e : DieEdge) (s : State) (he : (s.ch n).nextOpen = some e)
    (h1 : (s.ch n).state ≠ 1) (h2 : (s.ch n).state ≠ 2) (hen : s.chEnabled n = true) (hr : s.pullRefused n e.pct = false) :
    ∃ t, exec (.pullInStart n rv sv) s = .next t ∧
      (t.ch n).state = 1 ∧ (t.ch n).pull.start = e.it ∧ (t.ch n).pull.ipk = s.pN (0x3000 + n.val) 4 * e.pct / 100 ∧
      (t.ch n).edges = (s.ch n).edges.erase e ∧ t.it = max s.it e.it ∧
      vget (t.ch n).counters 0 0 = sat32 (vget (s.ch n).counters 0 0 + 1) ∧
      (s.bankBoost (n.val / 8) = true → (t.bank (n.val / 8)).common = 2) ∧
      (∀ m, m ≠ n.val → t.ch m = s.ch m) ∧ (∀ b, b ≠ n.val / 8 → t.bank b = s.bank b) ∧
      Unchanged [.it, .chan, .banks, .dis] s t := by
  have hn := n.isLt
  obtain ⟨p, l, hstart, hipk, ht⟩ := s.pullIn_begins n e rv sv hn h1 h2 hen hr
  obtain ⟨hd, ho⟩ := State.pullRefused_false hr
  obtain ⟨hst, hp, hed, hct⟩ := (s.openTaken n e).pullBegun_ch_same n p l hn
  have hch := s.openTaken_ch_same n e hn
  refine ⟨_, (execPullInStart_due n rv sv e s he).trans (by rw [ht]), ?_, ?_, ?_, ?_, ?_, ?_, fun hs => ?_, fun m hm => ?_,
    fun k hk => ?_, Unchanged.of_mask (by simp)⟩
  · rw [State.setCommon_ch, hst]
  · rw [State.setCommon_ch, hp, hstart]
  · rw [State.setCommon_ch, hp, hipk]
  · rw [State.setCommon_ch, hed, hch]
  · rw [State.setCommon_it, State.pullBegun_it]
    rfl
  · rw [State.setCommon_ch, hct, hch]
  · refine State.setCommon_boost _ _ n (by omega) ?_ ?_ ?_ (mem_bankChannels.mpr rfl) hst
    · rw [State.pullBegun_die, show n.val / 8 / 4 = n.val / 32 by omega]
      exact hd
    · rw [State.pullBegun_bankOut]
      exact ho
    · rw [State.pullBegun_bankBoost]
      exact hs
  · rw [State.setCommon_ch, State.pullBegun_ch_other _ _ _ _ _ hm, State.openTaken_ch_other _ _ _ _ hm]
  · rw [State.setCommon_bank_other _ _ _ hk, State.pullBegun_bank_other _ _ _ _ _ hk]
    rfl

theorem execPullInStart_refused (n : Fin 128) (rv sv : Nat) (e : DieEdge) (s : State) (he : (s.ch n).nextOpen = some e)
    (h1 : (s.ch n).state ≠ 1) (h2 : (s.ch n).state ≠ 2) (hen : s.chEnabled n = true) (hr : s.pullRefused n e.pct = true) :
    ∃ t, exec (.pullInStart n rv sv) s = .next t ∧
      (t.ch n).state = (s.ch n).state ∧ (t.ch n).edges = (s.ch n).edges.erase e ∧
      vget (t.ch n).counters 1 0 = sat32 (vget (s.ch n).counters 1 0 + 1) ∧
      (∀ m, m ≠ n.val → t.ch m = s.ch m) ∧ Unchanged [.it, .chan] s t := by
  have hc : ((s.openTaken n e).modCh n (·.count 1)).ch n = Channel.count { s.ch n with edges := (s.ch n).edges.erase e } 1 := by
    rw [State.modCh_ch_same _ _ _ n.isLt, State.openTaken_ch_same _ _ _ n.isLt]
  refine ⟨_, (execPullInStart_due n rv sv e s he).trans (by rw [s.pullIn_refused n e rv sv n.isLt h1 h2 hen hr]), ?_⟩
  refine ⟨by rw [hc]; rfl, by rw [hc]; rfl, ?_, fun m hm => ?_, Unchanged.of_mask (by simp)⟩
  · rw [hc]
    exact vget_vmod_same _ _ _ _ (by decide)
  · rw [State.modCh_ch_other _ _ _ _ hm, State.openTaken_ch_other _ _ _ _ hm]

theorem execPullInStart_void (n : Fin 128) (rv sv : Nat) (e : DieEdge) (s : State) (he : (s.ch n).nextOpen = some e)
    (h : (s.ch n).state = 1 ∨ (s.ch n).state = 2 ∨ s.chEnabled n = false) :
    ∃ t, exec (.pullInStart n rv sv) s = .next t ∧ t.it = max s.it e.it ∧
      t.ch n = { s.ch n with edges := (s.ch n).edges.erase e } ∧
      (∀ m, m ≠ n.val → t.ch m = s.ch m) ∧ Unchanged [.it, .chan] s t :=
  ⟨s.openTaken n e, (execPullInStart_due n rv sv e s he).trans (by rw [s.pullIn_void n e rv sv n.isLt h]), rfl,
    State.openTaken_ch_same _ _ _ n.isLt, fun _ hm => State.openTaken_ch_other _ _ _ _ hm, Unchanged.of_mask (by simp)⟩

/-- Settles O7: an edge that begins a pull-in, one that is refused, one that is void. -/
theorem pullInEdges : Obligations.PullInEdges :=
  ⟨execPullInStart_begins, execPullInStart_refused, execPullInStart_void⟩

end Sys2Proof.Machine

end

section

namespace Sys2Proof.Machine

/-! # Nozzles: the peak and the end of a pull-in window (R214, R221) -/

/-- PEAK_REACHED on a pull-in that has not reached its peak. -/
theorem execPeakReached_first (n : Fin 128) (at_ : IT) (s : State) (h1 : (s.ch n).state = 1) (hr : (s.ch n).pull.reach = none) :
    ∃ t, exec (.peakReached n at_) s = .next t ∧
      (t.ch n).pull.reach = some at_ ∧ (t.ch n).pull.opened = some (at_ + s.travel n (s.ch n).pull.ipk) ∧
      (t.ch n).state = 1 ∧
      (vget t.dis.sprays n []).getLast?.map (fun y => (y.pull, y.start, y.cmd)) =
        some ((s.ch n).pull.start, at_ + s.travel n (s.ch n).pull.ipk + s.onOffset n, none) ∧
      (∀ m, m ≠ n.val → t.ch m = s.ch m) ∧ Unchanged [.it, .chan, .dis] s t := by
  have hn := n.isLt
  show ∃ t, execPeakReached n at_ s = .next t ∧ _
  unfold execPeakReached
  extract_lets c s1 reach o g s2
  rw [if_neg (by simp [c, h1, hr])]
  have h2 : s2.ch n = { c with g := g, pull := { c.pull with reach := some at_, opened := some o } } := State.modCh_ch_same _ _ _ hn
  refine ⟨_, rfl, ?_, ?_, ?_, ?_, fun m hm => ?_, Unchanged.of_mask (by simp [s2, s1])⟩
  · rw [State.sprayStart_ch, h2]
  · rw [State.sprayStart_ch, h2]
    rfl
  · rw [State.sprayStart_ch, h2]
    exact h1
  · rw [State.sprayStart, State.modSpray, vget_vmod_same _ _ _ _ (by omega), List.getLast?_concat]
    rfl
  · rw [State.sprayStart_ch]
    exact State.modCh_ch_other _ _ _ _ hm

/-- PULL_IN_WINDOW_END on a channel that pulls in. -/
theorem execPullInWindowEnd_pulling (n : Fin 128) (endMa : Nat) (s : State) (h1 : (s.ch n).state = 1) :
    ∃ t, exec (.pullInWindowEnd n endMa) s = .next t ∧
      (t.ch n).state = 2 ∧ t.it = max s.it (s.ch n).pull.ends ∧
      ((t.ch n).peakShort = true ↔ (s.ch n).peakShort = true ∨ (s.ch n).pull.reach = none) ∧
      ((s.ch n).pull.reach = none → 0 < endMa → (t.ch n).pull.opened = some ((s.ch n).pull.ends + s.travel n endMa)) ∧
      (∀ m, m ≠ n.val → t.ch m = s.ch m) ∧ Unchanged [.it, .chan, .banks, .dis, .budget, .freeCtr] s t := by
  have hn := n.isLt
  show ∃ t, execPullInWindowEnd n endMa s = .next t ∧ _
  unfold execPullInWindowEnd
  extract_lets c s1 o s2 s3 s4
  rw [if_neg (by simp [c, h1])]
  cases hr : c.pull.reach with
  | some x =>
    have h4 : s4 = s1.modCh n (fun c => { c with state := 2 }) := by simp only [s4, hr]
    rw [h4]
    have hc : (s1.modCh n (fun c => { c with state := 2 })).ch n = { s.ch n with state := 2 } := State.modCh_ch_same _ _ _ hn
    refine ⟨_, rfl, ?_, ?_, ?_, fun h => by simp at h, fun m hm => ?_, Unchanged.of_mask (by simp [s1])⟩
    · rw [State.setCommon_ch, hc]
    · rw [State.setCommon_it]
      rfl
    · rw [State.setCommon_ch, hc]
      simp
    · rw [State.setCommon_ch]
      exact State.modCh_ch_other _ _ _ _ hm
  | none =>
    have h4 : s4 = s3.sprayStart n c.pull.start (o + s3.onOffset n) := by simp only [s4, hr]
    rw [h4]
    have hr' : (s.ch n).pull.reach = none := hr
    have h2 : s2.ch n = s.ch n ∧ s2.it = max s.it (s.ch n).pull.ends := by
      simp only [s2]
      split <;> exact ⟨rfl, rfl⟩
    have h3 : s3.ch n = Channel.count { s.ch n with
        state := 2, peakShort := true, pull := { (s.ch n).pull with opened := some o } } 8 := by
      rw [← h2.1]
      exact State.modCh_ch_same _ _ _ hn
    refine ⟨_, rfl, ?_, ?_, ?_, fun _ hm => ?_, fun m hm => ?_, Unchanged.of_mask (by simp [s3, s2, s1])⟩
    · rw [State.setCommon_ch, State.sprayStart_ch, h3]
      rfl
    · rw [State.setCommon_it]
      exact h2.2
    · rw [State.setCommon_ch, State.sprayStart_ch, h3]
      simp [hr', Channel.count]
    · rw [State.setCommon_ch, State.sprayStart_ch, h3]
      have ho : o = (s.ch n).pull.ends + s.travel n endMa := by
        simp only [o]
        rw [if_neg (by omega)]
        rfl
      rw [← ho]
      rfl
    · rw [State.setCommon_ch, State.sprayStart_ch]
      refine (State.modCh_ch_other _ _ _ _ hm).trans ?_
      simp only [s2]
      split <;> rfl

/-- Settles O8: the peak, and the end of the window. -/
theorem pullInWindow : Obligations.PullInWindow :=
  ⟨execPeakReached_first, execPullInWindowEnd_pulling⟩

end Sys2Proof.Machine

end

section

namespace Sys2Proof.Machine

/-! # Nozzles: kink windows (R227, R228, R231) -/

@[simp] theorem State.modClosing_mask {ps : List Part} (s : State) (n : Nat) (cmd : IT) (f : Closing → Closing) (h : [.chan] ⊆ ps) :
    (s.modClosing n cmd f).mask ps = s.mask ps := by
  simp at h
  simp [State.modClosing, h]

theorem State.modClosing_ch_same (s : State) (n : Nat) (cmd : IT) (f : Closing → Closing) (hn : n < 128) :
    (s.modClosing n cmd f).ch n = { s.ch n with closings := (s.ch n).closings.map (fun x => if x.cmd = cmd then f x else x) } :=
  State.modCh_ch_same _ _ _ hn

theorem State.modClosing_ch_other (s : State) (n : Nat) (cmd : IT) (f : Closing → Closing) (m : Nat) (hm : m ≠ n) :
    (s.modClosing n cmd f).ch m = s.ch m := State.modCh_ch_other _ _ _ _ hm

/-- A closing without its window and its converter. -/
def Closing.shut (x : Closing) : Closing := { x with window := false, convOn := false }

/-- A window lost leaves its closing shut; other channels, and other parts of the channel, stay. -/
theorem State.loseWindow_ch_same (s : State) (n : Nat) (cl : Closing) (t : IT) (hn : n < 128) (hw : cl.window = true)
    (hk : cl.kink = none) : (s.loseWindow n cl t).ch n =
      { s.ch n with closings := (s.ch n).closings.map (fun x => if x.cmd = cl.cmd then x.shut else x) } := by
  unfold State.loseWindow
  rw [if_neg (by simp [hw, hk])]
  exact State.modCh_ch_same _ _ _ hn

/-- KINK_WINDOW_OPEN where no window of the die opens before it. -/
theorem execKinkWindowOpen_first (n : Fin 128) (cl : Closing) (s : State) (hf : (s.ch n).closings.find? (·.waits) = some cl)
    (hk : cl.kink = none) (hd : s.windowsDue (n.val / 32) cl.opensAt n = [(n.val, cl)]) :
    ∃ t, exec (.kinkWindowOpen n) s = .next t ∧ t.it = max s.it cl.opensAt ∧
      (s.convUsed (n.val / 32) cl.opensAt < 4 → (t.ch n).lastUnobs = false ∧
        (t.ch n).closings = (s.ch n).closings.map (fun y => if y.cmd = cl.cmd then { y with convOn := true } else y)) ∧
      (4 ≤ s.convUsed (n.val / 32) cl.opensAt → (t.ch n).lastUnobs = true ∧
        (t.ch n).closings = (s.ch n).closings.map (fun y =>
          if y.cmd = cl.cmd then { y with window := false, convOn := false } else y)) ∧
      (∀ m, m ≠ n.val → t.ch m = s.ch m) ∧ (∀ d, d ≠ n.val / 32 → t.die d = s.die d) ∧
      Unchanged [.it, .chan, .dies, .dis] s t := by
  have hn := n.isLt
  have hw : cl.window = true := by
    have h : cl.waits = true := List.find?_some hf
    simp only [Closing.waits, Bool.and_eq_true] at h
    obtain ⟨⟨hw, -⟩, -⟩ := h
    exact hw
  refine ⟨s.openWindow n cl, ?_, ?_⟩
  · simp only [exec, execKinkWindowOpen, hf, hd]
    rfl
  unfold State.openWindow
  extract_lets d s1 free want s2
  have hch : ∀ m, s2.ch m = s.ch m := fun _ => rfl
  by_cases hu : s.convUsed (n.val / 32) cl.opensAt < 4
  · have hfree : free = true := decide_eq_true hu
    rw [if_pos hfree]
    refine ⟨rfl, fun _ => ?_, fun h => absurd hu (Nat.not_lt.mpr h), fun m hm => ?_, fun k hk => ?_,
      Unchanged.of_mask (by simp [s2, s1])⟩
    · rw [State.modCh_ch_same _ _ _ hn, State.modClosing_ch_same _ _ _ _ hn]
      exact ⟨rfl, rfl⟩
    · rw [State.modCh_ch_other _ _ _ _ hm, State.modClosing_ch_other _ _ _ _ _ hm, hch]
    · exact State.modDie_die_other _ _ _ _ hk
  · have hfree : ¬ free = true := fun h => hu (of_decide_eq_true h)
    rw [if_neg hfree]
    refine ⟨?_, fun h => absurd h hu, fun _ => ?_, fun m hm => ?_, fun k hk => ?_, Unchanged.of_mask (by simp [s2, s1])⟩
    · exact State.loseWindow_it _ _ _ _
    · rw [State.modCh_ch_same _ _ _ hn, State.loseWindow_ch_same _ _ _ _ hn hw hk]
      exact ⟨rfl, rfl⟩
    · rw [State.modCh_ch_other _ _ _ _ hm, State.loseWindow_ch_other _ _ _ _ _ hm, hch]
    · exact (State.loseWindow_die _ _ _ _ _).trans (State.modDie_die_other _ _ _ _ hk)

/-- An interval whose closing command was `c` has an end once that end is observed. -/
theorem State.sprayEnd_stops (s : State) (o : Nat) (c t since : IT) (unobs : Bool) (ho : o < 132) :
    ∀ y ∈ vget (s.sprayEnd o c t since unobs).dis.sprays o [], y.cmd = some c → y.stop.isSome = true := by
  intro y hy hc
  rw [State.sprayEnd, State.modSpray, vget_vmod_same _ _ _ _ ho] at hy
  obtain ⟨x, -, rfl⟩ := List.mem_map.mp hy
  by_cases h : x.cmd = some c ∧ x.stop = none
  · rw [if_pos h]
    rfl
  · rw [if_neg h] at hc ⊢
    exact Option.isSome_iff_ne_none.mpr fun hs => h ⟨hc, hs⟩

/-- KINK_FOUND with a kink in the samples. -/
theorem execKinkFound_kink (n : Fin 128) (l : List Int) (cl : Closing) (i : Nat) (s : State)
    (hf : (s.ch n).closings.find? (fun y => y.convOn && y.kink.isNone) = some cl)
    (hi : kinkIndex (s.pN (0x3000 + n.val) 0xB) l 0 = some i) :
    ∃ t, exec (.kinkFound n l) s = .next t ∧
      (t.ch n).closings = (s.ch n).closings.map (fun y =>
        if y.cmd = cl.cmd then { y with kink := some (cl.opensAt + 10000 * i) } else y) ∧
      (t.ch n).misses = 0 ∧ (t.ch n).kinkMiss = false ∧ (t.ch n).lastKink = cl.opensAt + 10000 * i ∧
      (∀ y ∈ vget t.dis.sprays n [], y.cmd = some cl.cmd → y.stop.isSome = true) ∧
      (∀ m, m ≠ n.val → t.ch m = s.ch m) ∧ Unchanged [.it, .chan, .dis] s t := by
  have hn := n.isLt
  refine ⟨_, by simp only [exec, execKinkFound, hf, hi]; rfl, ?_⟩
  have hc : ∀ (u : State) o c t since b m, (u.sprayEnd o c t since b).ch m = u.ch m := fun _ _ _ _ _ _ _ => rfl
  rw [hc, State.modCh_ch_same _ _ _ hn, State.modClosing_ch_same _ _ _ _ hn]
  refine ⟨rfl, rfl, rfl, rfl, State.sprayEnd_stops _ _ _ _ _ _ (by omega), fun m hm => ?_, Unchanged.of_mask (by simp)⟩
  rw [hc, State.modCh_ch_other _ _ _ _ hm, State.modClosing_ch_other _ _ _ _ _ hm]
  rfl

/-- Shutting a closing twice is shutting it once. -/
theorem map_shut_map_shut (l : List Closing) (c : IT) :
    (l.map (fun x => if x.cmd = c then x.shut else x)).map (fun x => if x.cmd = c then x.shut else x) =
      l.map (fun x => if x.cmd = c then x.shut else x) := by
  rw [List.map_map]
  refine List.map_congr_left fun x _ => ?_
  by_cases h : x.cmd = c <;> simp [h, Closing.shut]

/-- KINK_WINDOW_CLOSE of a window that found no kink. -/
theorem execKinkWindowClose_missed (n : Fin 128) (cl : Closing) (s : State) (hf : (s.ch n).closings.find? (·.window) = some cl)
    (hk : cl.kink = none) :
    ∃ t, exec (.kinkWindowClose n) s = .next t ∧
      (t.ch n).closings = ((s.ch n).closings.map (fun y => if y.cmd = cl.cmd then { y with window := false, convOn := false } else y)).filter
        (fun y => y.cmd != cl.cmd || y.decayed.isNone) ∧ (t.ch n).misses = (s.ch n).misses + 1 ∧
      t.sup.reported = s.sup.reported ++ (if 2 ≤ (s.ch n).misses then [s.faultNow 0xE007 n [] (max s.it cl.endsAt)] else []) ∧
      (∀ m, m ≠ n.val → t.ch m = s.ch m) ∧ Unchanged [.it, .chan, .dis, .sup] s t := by
  have hn := n.isLt
  have hw : cl.window = true := List.find?_some hf
  show ∃ t, execKinkWindowClose n s = .next t ∧ _
  unfold execKinkWindowClose
  rw [hf]
  dsimp -zeta only
  extract_lets s1 found s2 m s3 s4
  rw [if_neg (by simp [found, hk])]
  have h2 : s2.ch n = { s.ch n with closings := (s.ch n).closings.map (fun x => if x.cmd = cl.cmd then x.shut else x) } :=
    State.loseWindow_ch_same s1 n cl _ hn hw hk
  have hm : m = (s.ch n).misses + 1 := by
    simp only [m, h2]
  have h4 : (s4.ch n).closings = ((s.ch n).closings.map (fun x => if x.cmd = cl.cmd then x.shut else x)).filter
      (fun y => y.cmd != cl.cmd || y.decayed.isNone) ∧ (s4.ch n).misses = m := by
    simp only [s4, s3, State.modCh_ch_same _ _ _ hn, State.modClosing_ch_same _ _ _ _ hn, h2]
    refine ⟨?_, rfl⟩
    exact congrArg (List.filter _) (map_shut_map_shut _ _)
  have hu : Unchanged [.chan, .dis] s1 s4 := Unchanged.of_mask (by simp [s4, s3, s2])
  have hit : s4.it = max s.it cl.endsAt := hu .it (by simp)
  have hfault : s4.faultNow 0xE007 n [] s4.it = s.faultNow 0xE007 n [] (max s.it cl.endsAt) := by
    rw [hit]
    exact State.faultNow_congr (hu .power (by simp)) (hu .dict (by simp)) _ _ _ _
  have ho : ∀ q, q ≠ n.val → s4.ch q = s.ch q := fun q hq => by
    simp only [s4, s3, s2, State.modCh_ch_other _ _ _ _ hq, State.modClosing_ch_other _ _ _ _ _ hq, State.loseWindow_ch_other _ _ _ _ _ hq]
    rfl
  have hs1 : Unchanged [.it] s s1 := Unchanged.of_mask (by simp [s1])
  have h14 : Unchanged [.it, .chan, .dis, .sup] s s4 := (hs1.mono (by simp)).trans (hu.mono (by simp))
  have hrep : s4.sup.reported = s.sup.reported := congrArg Super.reported (hu .sup (by simp))
  by_cases h : 2 ≤ (s.ch n).misses
  · rw [if_pos (by omega), if_pos h]
    refine ⟨_, rfl, h4.1, h4.2.trans hm, ?_, ho, h14.trans (Unchanged.of_mask (by simp))⟩
    rw [← hfault, ← hrep]
    rfl
  · rw [if_neg (by omega), if_neg h]
    exact ⟨_, rfl, h4.1, h4.2.trans hm, by rw [hrep, List.append_nil], ho, h14⟩

/-- Settles O10: a window that opens, a kink that is found, a window that closes without one. -/
theorem kinkWindow : Obligations.KinkWindow :=
  ⟨execKinkWindowOpen_first, execKinkFound_kink, execKinkWindowClose_missed⟩

end Sys2Proof.Machine

end

section

namespace Sys2Proof.Machine

/-! # Nozzles and banks: trips and stuck outputs (R234 to R237) -/

/-! ### A channel (R234, R236) -/

@[simp] theorem State.report_sup_reported (s : State) (code subj : Nat) (det : Bytes) :
    (s.report code subj det).sup.reported = s.sup.reported ++ [s.faultNow code subj det s.it] := rfl

@[simp] theorem State.record_arriving (s : State) (code subj : Nat) (det : Bytes) :
    (s.record code subj det).skein.arriving = s.skein.arriving ++ [⟨code, s.it, s.time.boot, subj, det⟩] := rfl

/-- CHANNEL_OVER_CURRENT above the threshold, later than the first microsecond from a switch-on. -/
theorem execChannelOverCurrent_above (n : Fin 128) (x : TripIn) (s : State) (hs : (s.ch n).state = 1 ∨ (s.ch n).state = 2)
    (hm : s.ocThreshold n < x.ma) (ht : max (s.ch n).pull.start x.onAt + 1000 ≤ x.at_) :
    ∃ t, exec (.channelOverCurrent n x) s = .next t ∧
      (t.ch n).state = 3 ∧ (t.ch n).ocCount = (s.ch n).ocCount + 1 ∧
      ((t.ch n).ocLatch = true ↔ (s.ch n).ocLatch = true ∨ s.pN (0x3000 + n.val) 0xC < (s.ch n).ocCount + 1) ∧
      (s.pN (0x3000 + n.val) 0xC < (s.ch n).ocCount + 1 →
        t.sup.reported = s.sup.reported ++ [s.faultNow 0xE003 n [] (max s.it x.at_)] ∧
        t.skein.arriving = s.skein.arriving ++ [⟨0x6003, max s.it x.at_, s.time.boot, n, []⟩]) ∧
      (∀ m, m ≠ n.val → t.ch m = s.ch m) ∧ Unchanged [.it, .chan, .banks, .dis, .budget, .skein, .sup] s t := by
  have hn := n.isLt
  show ∃ t, execChannelOverCurrent n x s = .next t ∧ _
  unfold execChannelOverCurrent
  extract_lets c s1 k latch s2
  rw [if_neg (by
    have hm' := Nat.not_le.mpr hm
    have ht' := Nat.not_lt.mpr ht
    rcases hs with h | h <;> simp [c, h, hm', ht'])]
  obtain ⟨-, -, -, -, -, hst, -, -⟩ := s.closeWith_ch_same n x.at_ .overCurrent (s.closingDelay n) (s.boostAt n x.at_) hn hs
  have hlatch : (s1.ch n).ocLatch = (s.ch n).ocLatch := s.closeWith_ch_keeps (·.ocLatch) (fun _ _ _ _ _ _ _ _ => rfl) _ _ _ _ _ _
  have hother : ∀ m, m ≠ n.val → s2.ch m = s.ch m := fun m hm =>
    (State.modCh_ch_other _ _ _ _ hm).trans (State.closeWith_ch_other _ _ _ _ _ _ _ hm)
  have hu : Unchanged [.it, .chan, .banks, .dis, .budget] s s2 := Unchanged.of_mask (by simp [s2, s1])
  have hdict : s1.dict = s.dict := hu .dict (by simp)
  have hl : latch = decide (s.pN (0x3000 + n.val) 0xC < (s.ch n).ocCount + 1) := by
    simp only [latch, k, c, State.pN_of_dict hdict]
  have hit : s2.it = max s.it x.at_ := s.closeWith_it n x.at_ .overCurrent _ _
  have h2 : (s2.ch n).state = 3 ∧ (s2.ch n).ocCount = (s.ch n).ocCount + 1 ∧
      ((s2.ch n).ocLatch = true ↔ (s.ch n).ocLatch = true ∨ s.pN (0x3000 + n.val) 0xC < (s.ch n).ocCount + 1) := by
    simp only [s2, State.modCh_ch_same _ _ _ hn]
    refine ⟨hst, rfl, ?_⟩
    simp [Channel.count, hlatch, hl]
  obtain ⟨hstate, hcount, hoc⟩ := h2
  by_cases h : s.pN (0x3000 + n.val) 0xC < (s.ch n).ocCount + 1
  · rw [if_pos (by rw [hl]; exact decide_eq_true h)]
    refine ⟨_, rfl, hstate, hcount, hoc, fun _ => ⟨?_, ?_⟩, hother, (hu.mono (by simp)).trans (Unchanged.of_mask (by simp))⟩
    · have hf : (s2.record 0x6003 n []).faultNow 0xE003 n [] (max s.it x.at_) = s.faultNow 0xE003 n [] (max s.it x.at_) :=
        State.faultNow_congr (hu .power (by simp)) (hu .dict (by simp)) _ _ _ _
      rw [State.report_sup_reported, State.record_sup, State.record_it, hit, show s2.sup = s.sup from hu .sup (by simp), hf]
    · rw [State.report_skein, State.record_arriving, hit, show s2.skein = s.skein from hu .skein (by simp),
        show s2.time = s.time from hu .time (by simp)]
  · rw [if_neg (by rw [hl]; simpa using h)]
    exact ⟨_, rfl, hstate, hcount, hoc, fun q => absurd q h, hother, hu.mono (by simp)⟩

/-- CHANNEL_STUCK_ON of a channel that is not driven again. -/
theorem execChannelStuckOn_undriven (n : Fin 128) (c : IT) (s : State) (hc : (s.ch n).lastCmd = some c) (h1 : (s.ch n).state ≠ 1)
    (h2 : (s.ch n).state ≠ 2) :
    ∃ t, exec (.channelStuckOn n) s = .next t ∧ t.it = max s.it (c + 1000000) ∧
      (t.ch n).stuck = true ∧ (t.bank (n.val / 8)).stuck = true ∧
      ((s.die (n.val / 8 / 4)).state ≠ 2 → (t.bank (n.val / 8)).common = 0) ∧
      t.sup.reported = s.sup.reported ++ [s.faultNow 0xE006 n [] (max s.it (c + 1000000))] ∧
      (∀ m, m ≠ n.val → t.ch m = s.ch m) ∧ (∀ b, b ≠ n.val / 8 → t.bank b = s.bank b) ∧
      Unchanged [.it, .chan, .banks, .sup] s t := by
  have hn := n.isLt
  have hb : n.val / 8 < 16 := by omega
  show ∃ t, execChannelStuckOn n s = .next t ∧ _
  unfold execChannelStuckOn
  rw [hc]
  dsimp -zeta only
  extract_lets b s1 s2 s3
  rw [if_neg (by simp [h1, h2])]
  let u := s2.modBank b (fun x => ({ x with stuck := true } : Bank).count 3)
  have hstuck : (u.bank b).stuck = true := congrArg Bank.stuck (State.modBank_bank_same s2 b _ hb)
  have hu : Unchanged [.it, .chan, .banks] s s3 := Unchanged.of_mask (by simp [s3, s2, s1])
  have hit : s3.it = max s.it (c + 1000000) := State.setCommon_it _ _
  refine ⟨_, rfl, hit, ?_, ?_, fun hd => ?_, ?_, fun m hm => ?_, fun k hk => ?_, (hu.mono (by simp)).trans (Unchanged.of_mask (by simp))⟩
  · rw [State.report_ch, State.setCommon_ch, State.modBank_ch, State.modCh_ch_same _ _ _ hn]
  · exact (State.setCommon_bank_keeps (·.stuck) (fun _ _ => rfl) u b b).trans hstuck
  · exact State.setCommon_out u b hb hd (by simp [State.bankOut, Bank.blocked, hstuck])
  · rw [State.report_sup_reported, hit, show s3.sup = s.sup from hu .sup (by simp),
      State.faultNow_congr (hu .power (by simp)) (hu .dict (by simp))]
  · rw [State.report_ch, State.setCommon_ch, State.modBank_ch, State.modCh_ch_other _ _ _ _ hm]
    rfl
  · rw [State.report_bank, State.setCommon_bank_other _ _ _ hk, State.modBank_bank_other _ _ _ _ hk]
    rfl

/-- Settles O11: a channel that trips, and one that is stuck on. -/
theorem channelTrips : Obligations.ChannelTrips :=
  ⟨execChannelOverCurrent_above, execChannelStuckOn_undriven⟩

/-! ### Several channels closed at one instant (R235, R241) -/

/-- Every channel closed together is not driven afterwards. -/
theorem State.closeTogether_undriven (s : State) (l : List Nat) (t : IT) (how : CloseBy) (hl : ∀ n ∈ l, n < 128) :
    ∀ n ∈ l, (s.closeTogether l t how).undriven n :=
  foldl_undriven _ (fun _ _ hn => State.closeWith_undriven _ _ _ _ _ _ hn) (fun _ _ _ hm => State.closeWith_ch_other _ _ _ _ _ _ _ hm)
    l hl s

theorem State.closeTogether_bank_keeps {α : Type} (g : Bank → α) (hg : ∀ x c k, g { x with common := c, counters := k } = g x)
    (s : State) (l : List Nat) (t : IT) (how : CloseBy) (b : Nat) : g ((s.closeTogether l t how).bank b) = g (s.bank b) :=
  foldl_keeps (fun u => g (u.bank b)) _ (fun u n => u.closeWith_bank_keeps g hg n t how _ _ b) l s

/-- The channels of one bank closed together leave the other banks as they were. -/
theorem State.closeTogether_bank_other (s : State) (b k : Nat) (t : IT) (how : CloseBy) (hk : k ≠ b) :
    (s.closeTogether (bankChannels b) t how).bank k = s.bank k := by
  refine foldl_keeps_of_mem (fun u => u.bank k) _ _ (fun n hn u => State.closeWith_bank_other _ _ _ _ _ _ _ ?_) s
  rw [mem_bankChannels.mp hn]
  exact hk

/-! ### A bank (R235, R237) -/

/-- The state in which a trip of bank `b` is noted: the trips that count, whether the bank latches, and until when it stays TRIPPED. -/
def State.tripNoted (s : State) (b : Nat) (trips : List IT) (latch : Bool) (till : IT) : State :=
  s.modBank b (fun x => ({ x with trips := trips, ocLatch := x.ocLatch || latch, tripTill := some till }).count 2)

@[simp] theorem State.tripNoted_mask {ps : List Part} (s : State) (b : Nat) (trips : List IT) (latch : Bool) (till : IT)
    (h : [.banks] ⊆ ps) : (s.tripNoted b trips latch till).mask ps = s.mask ps := State.modBank_mask _ _ _ h

theorem State.tripNoted_bank_other (s : State) (b : Nat) (trips : List IT) (latch : Bool) (till : IT) (k : Nat) (hk : k ≠ b) :
    (s.tripNoted b trips latch till).bank k = s.bank k := State.modBank_bank_other _ _ _ _ hk

/-- A bank whose trip is noted, its common then set: it holds what was noted, and stands open where its die runs. -/
theorem State.setCommon_tripNoted (s v : State) (b : Nat) (trips : List IT) (latch : Bool) (till : IT) (hb : b < 16)
    (hv : v.banks = (s.tripNoted b trips latch till).banks) :
    ((v.setCommon b).bank b).tripTill = some till ∧ ((v.setCommon b).bank b).trips = trips ∧
      ((v.setCommon b).bank b).ocLatch = ((s.bank b).ocLatch || latch) ∧
      ((v.die (b / 4)).state ≠ 2 → ((v.setCommon b).bank b).common = 0) := by
  have h : v.bank b = Bank.count { s.bank b with trips := trips, ocLatch := (s.bank b).ocLatch || latch, tripTill := some till } 2 :=
    (State.bank_of_banks hv b).trans (State.modBank_bank_same _ _ _ hb)
  refine ⟨?_, ?_, ?_, fun hd => State.setCommon_out _ _ hb hd (by simp [State.bankOut, h, Bank.blocked, Bank.count])⟩
  · exact (State.setCommon_bank_keeps (·.tripTill) (fun _ _ => rfl) v b b).trans (congrArg Bank.tripTill h)
  · exact (State.setCommon_bank_keeps (·.trips) (fun _ _ => rfl) v b b).trans (congrArg Bank.trips h)
  · exact (State.setCommon_bank_keeps (·.ocLatch) (fun _ _ => rfl) v b b).trans (congrArg Bank.ocLatch h)

/-- BANK_OVER_CURRENT above the limit of a bank in service. -/
theorem execBankOverCurrent_above (b : Fin 16) (x : TripIn) (s : State) (ho : s.bankOut b = false) (hm : (s.bank b).limit < x.ma) :
    ∃ t, exec (.bankOverCurrent b x) s = .next t ∧
      (t.bank b).tripTill = some (x.at_ + s.pN (0x3080 + b.val) 4 * 1000000) ∧
      ((s.die (b.val / 4)).state ≠ 2 → (t.bank b).common = 0) ∧
      (t.bank b).trips = ((s.bank b).trips ++ [x.at_]).filter (fun y => decide (x.at_ ≤ y + 10000000000)) ∧
      (t.bank b).ocLatch = decide (s.pN (0x3080 + b.val) 3 < (t.bank b).trips.length) ∧
      t.sup.reported = s.sup.reported ++
        (if s.pN (0x3080 + b.val) 3 < (t.bank b).trips.length then [s.faultNow 0xE004 b [] (max s.it x.at_)] else []) ∧
      (∀ n ∈ bankChannels b, (t.ch n).state ≠ 1 ∧ (t.ch n).state ≠ 2) ∧
      (∀ k, k ≠ b.val → t.bank k = s.bank k) ∧ Unchanged [.it, .chan, .banks, .dis, .budget, .sup] s t := by
  have hb := b.isLt
  show ∃ t, execBankOverCurrent b x s = .next t ∧ _
  unfold execBankOverCurrent
  extract_lets at_ s1 trips latch till s2
  rw [if_neg (by simp [ho, hm])]
  have hu1 : Unchanged [.it, .chan, .banks, .dis, .budget] s s1 := Unchanged.of_mask (by simp [s1])
  have hu2 : Unchanged [.it, .chan, .banks, .dis, .budget] s s2 := hu1.trans (Unchanged.of_mask (State.tripNoted_mask _ _ _ _ _ (by simp)))
  have hit : s2.it = max s.it x.at_ := State.closeTogether_it (s.at x.at_) _ _ _ (Nat.le_max_right _ _)
  have htrips : trips = ((s.bank b).trips ++ [x.at_]).filter (fun y => decide (x.at_ ≤ y + 10000000000)) :=
    congrArg (fun l => (l ++ [x.at_]).filter (fun y => decide (x.at_ ≤ y + 10000000000)))
      (State.closeTogether_bank_keeps (·.trips) (fun _ _ _ => rfl) (s.at x.at_) _ _ _ _)
  have hpN : s1.pN (0x3080 + b.val) = s.pN (0x3080 + b.val) := funext fun _ => State.pN_of_dict (hu1 .dict (by simp)) _ _
  have hoc : (s1.bank b).ocLatch = false := by
    refine (State.closeTogether_bank_keeps (·.ocLatch) (fun _ _ _ => rfl) (s.at x.at_) _ _ _ _).trans ?_
    simp only [State.bankOut, Bank.blocked, Bool.or_eq_false_iff] at ho
    obtain ⟨⟨⟨-, hlatch⟩, -⟩, -⟩ := ho
    exact hlatch
  have hlatch : latch = true ↔ s.pN (0x3080 + b.val) 3 < trips.length := by rw [← hpN]; exact decide_eq_true_iff
  have hfault : s2.faultNow 0xE004 b [] s2.it = s.faultNow 0xE004 b [] (max s.it x.at_) := by
    rw [hit]
    exact State.faultNow_congr (hu2 .power (by simp)) (hu2 .dict (by simp)) _ _ _ _
  let v : State := { s2 with sup := { s2.sup with
    reported := s2.sup.reported ++ if s.pN (0x3080 + b.val) 3 < trips.length then [s.faultNow 0xE004 b [] (max s.it x.at_)] else [] } }
  have hv : (if latch then s2.report 0xE004 b [] else s2) = v := State.ite_report hlatch s2 _ _ _ _ hfault
  obtain ⟨htill, htr, hoc', hcommon⟩ := s1.setCommon_tripNoted v b trips latch till hb rfl
  rw [hv]
  refine ⟨_, rfl, ?_, fun hd => hcommon ?_, htr.trans htrips, ?_, ?_, fun n hn => ?_, fun k hk => ?_,
    (hu2.mono (by simp)).trans (Unchanged.of_mask ((State.setCommon_mask _ _ (by simp)).trans (mask_set_sup _ _ (by simp))))⟩
  · rw [htill, ← hpN]
  · rw [State.die_of_dies (t := v) (s := s) (hu2 .dies (by simp))]
    exact hd
  · rw [htr, hoc', hoc, Bool.false_or, ← hpN]
  · rw [htr, State.setCommon_sup, ← show s2.sup = s.sup from hu2 .sup (by simp)]
  · have hch : v.ch n = s1.ch n := State.ch_of_chan rfl n
    have hund : s1.undriven n :=
      State.closeTogether_undriven (s.at x.at_) _ _ _ (fun m hm => by have := mem_bankChannels.mp hm; omega) n hn
    rw [State.setCommon_ch, hch]
    exact hund
  · have hbank : v.bank k = s1.bank k :=
      (State.bank_of_banks (t := v) (s := s2) rfl k).trans (s1.tripNoted_bank_other b trips latch till k hk)
    rw [State.setCommon_bank_other _ _ _ hk, hbank]
    exact State.closeTogether_bank_other (s.at x.at_) _ _ _ _ hk

/-- BANK_RETRY_EXPIRY of a TRIPPED bank. -/
theorem execBankRetryExpiry_tripped (b : Fin 16) (x : IT) (s : State) (ht : (s.bank b).tripTill = some x) :
    ∃ t, exec (.bankRetryExpiry b) s = .next t ∧ t.it = max s.it x ∧
      (t.bank b).tripTill = none ∧ (t.bankOut b = ((s.bank b).ocLatch || (s.bank b).stuck || s.contained 0xE004 b)) ∧
      (∀ k, k ≠ b.val → t.bank k = s.bank k) ∧ Unchanged [.it, .banks] s t := by
  have hb := b.isLt
  refine ⟨_, by simp only [exec, execBankRetryExpiry, ht]; rfl, ?_⟩
  have hf : ∀ {α : Type} (g : Bank → α), (∀ x c, g { x with common := c } = g x) → ∀ u : State,
      g (((u.modBank b (fun y => { y with tripTill := none, freeAt := x })).setCommon b).bank b) =
        g { u.bank b with tripTill := none, freeAt := x } := fun g hg u =>
    (State.setCommon_bank_keeps g hg _ _ _).trans (congrArg g (State.modBank_bank_same _ _ _ hb))
  refine ⟨State.setCommon_it _ _, hf (·.tripTill) (fun _ _ => rfl) _, ?_, fun k hk => ?_, Unchanged.of_mask (by simp)⟩
  · rw [State.bankOut, hf Bank.blocked (fun _ _ => rfl)]
    simp only [State.contained, State.faultActive, State.setCommon_sup, State.modBank_sup]
    simp [Bank.blocked]
  · rw [State.setCommon_bank_other _ _ _ hk, State.modBank_bank_other _ _ _ _ hk]
    rfl

/-- Settles O12: a bank that trips, and its retry. -/
theorem bankTrips : Obligations.BankTrips :=
  ⟨execBankOverCurrent_above, execBankRetryExpiry_tripped⟩

/-- Settles O13: the fault is marked and reported, and nothing else of the bank moves. -/
theorem switchFault : Obligations.SwitchFault := by
  intro b at_ s ha hc
  refine ⟨((s.at at_).modBank b (fun x => { x with swFault := true })).report 0xE006 (128 + b.val) [], ?_, ?_, rfl, rfl, fun k hk => ?_,
    Unchanged.of_mask (by simp)⟩
  · simp [exec, execBankSwitchFault, State.whenAwake, ha, hc]
  · rw [State.report_bank, State.modBank_bank_same _ _ _ b.isLt]
  · exact State.modBank_bank_other _ _ _ _ hk

end Sys2Proof.Machine

end

section

namespace Sys2Proof.Machine

/-! # Drive dies: a reset and the restart after it (R232, R239, R240) -/

/-- What the reset of its die does not touch of a channel. -/
theorem State.resetChannel_ch_keeps {α : Type} (g : Channel → α)
    (hg : ∀ (c : Channel) st cls la lc dc k, g { c with
      state := st, closings := cls, lastClamp := la, lastCmd := lc, dieClosed := dc, counters := k } = g c)
    (s : State) (t : IT) (n m : Nat) : g ((s.resetChannel t n).ch m) = g (s.ch m) := by
  unfold State.resetChannel
  extract_lets c driven early clamp delay s1 s2 s3 s4 s5
  have h1 : g (s1.ch m) = g (s.ch m) :=
    State.loseWindows_ch_keeps g (fun c l => hg c c.state l c.lastClamp c.lastCmd c.dieClosed c.counters) s n t _ m
  have h3 : s3.ch m = s1.ch m := by
    simp only [s3, s2]
    (repeat' split) <;> rfl
  have h4 : g (s4.ch m) = g (s3.ch m) := by
    refine State.modCh_keeps g _ _ _ _ fun y => ?_
    (repeat' split) <;> exact hg y _ _ _ _ _ _
  have h5 : s5.ch m = s4.ch m := by
    simp only [s5]
    split <;> rfl
  have h6 : g (s5.ch m) = g (s.ch m) := by rw [h5, h4, h3, h1]
  split <;> exact h6

theorem State.resetChannel_ch_other (s : State) (t : IT) (n m : Nat) (hm : m ≠ n) : (s.resetChannel t n).ch m = s.ch m := by
  unfold State.resetChannel
  extract_lets c driven early clamp delay s1 s2 s3 s4 s5
  have h1 : s1.ch m = s.ch m := State.loseWindows_ch_other _ _ _ _ _ hm
  have h3 : s3.ch m = s1.ch m := by
    simp only [s3, s2]
    (repeat' split) <;> rfl
  have h4 : s4.ch m = s3.ch m := State.modCh_ch_other _ _ _ _ hm
  have h5 : s5.ch m = s4.ch m := by
    simp only [s5]
    split <;> rfl
  have h6 : s5.ch m = s.ch m := by rw [h5, h4, h3, h1]
  split <;> exact h6

/-- The reset of its die leaves a channel not driven. -/
theorem State.resetChannel_undriven (s : State) (t : IT) (n : Nat) (hn : n < 128) : (s.resetChannel t n).undriven n := by
  unfold State.resetChannel
  extract_lets c driven early clamp delay s1 s2 s3 s4 s5
  have h1 : (s1.ch n).state = c.state := State.loseWindows_ch_keeps (·.state) (fun _ _ => rfl) s n t _ n
  have h3 : s3.ch n = s1.ch n := by
    simp only [s3, s2]
    (repeat' split) <;> rfl
  have h4 : (s4.ch n).state = if driven then 3 else c.state := by
    simp only [s4, State.modCh_ch_same _ _ _ hn, h3]
    rw [← h1]
    (repeat' split) <;> simp_all [Channel.count]
  have h5 : s5.ch n = s4.ch n := by
    simp only [s5]
    split <;> rfl
  have h6 : s5.undriven n := by
    unfold State.undriven
    rw [h5, h4]
    by_cases hd : driven = true
    · simp [hd]
    · rw [if_neg hd]
      simpa [driven] using hd
  split <;> exact h6

/-- The state in which every channel of die `d` has met the die's reset at `t`. -/
def State.channelsReset (s : State) (d : Nat) (t : IT) : State := (dieChannels d).foldl (fun s n => s.resetChannel t n) (s.at t)

@[simp] theorem State.channelsReset_mask {ps : List Part} (s : State) (d : Nat) (t : IT)
    (h : [.it, .dis, .chan, .banks, .budget] ⊆ ps) : (s.channelsReset d t).mask ps = s.mask ps := by
  simp at h
  simp [State.channelsReset, h]

theorem State.channelsReset_ch_own (s : State) (d : Nat) (t : IT) (hd : d < 4) : ∀ n ∈ dieChannels d,
    ((s.channelsReset d t).ch n).edges = (s.ch n).edges ∧ ((s.channelsReset d t).ch n).state ≠ 1 ∧
      ((s.channelsReset d t).ch n).state ≠ 2 := fun n hn => by
  have hl : ∀ n ∈ dieChannels d, n < 128 := fun n hn => by
    have := mem_dieChannels.mp hn
    omega
  exact ⟨foldl_keeps (fun s => (s.ch n).edges) _ (fun s m => s.resetChannel_ch_keeps (·.edges) (fun _ _ _ _ _ _ _ => rfl) t m n) _ _,
    foldl_undriven _ (fun _ _ h => State.resetChannel_undriven _ _ _ h) (fun _ _ _ h => State.resetChannel_ch_other _ _ _ _ h) _ hl
      (s.at t) n hn⟩

theorem State.channelsReset_ch_other (s : State) (d : Nat) (t : IT) (n : Nat) (hn : n / 32 ≠ d) :
    (s.channelsReset d t).ch n = s.ch n :=
  foldl_keeps_of_mem (fun s => s.ch n) _ _ (fun _ hm _ => State.resetChannel_ch_other _ _ _ _ fun e => hn (e ▸ mem_dieChannels.mp hm))
    (s.at t)

/-- The state in which die `d` is noted as reset at `t`, its sensors UNAVAILABLE and its record written. -/
def State.dieDown (s : State) (d cause : Nat) (t : IT) (recent : List IT) : State :=
  let s := s.modDie d (fun x => { x with state := 2, resets := sat32 (x.resets + 1), last := t, cause := cause, recent := recent })
  let s := { s with therm := { s.therm with unavail := vset s.therm.unavail d (some t) } }
  s.recordAt 0x6005 d (le 1 cause) t

@[simp] theorem State.dieDown_mask {ps : List Part} (s : State) (d cause : Nat) (t : IT) (recent : List IT)
    (h : [.dies, .therm, .skein] ⊆ ps) : (s.dieDown d cause t recent).mask ps = s.mask ps := by
  simp at h
  obtain ⟨hd, ht, hs⟩ := h
  refine (State.recordAt_mask _ _ _ _ _ (by simp [hs])).trans ((mask_set_therm _ _ ht).trans ?_)
  exact State.modDie_mask _ _ _ (by simp [hd])

theorem State.dieDown_die (s : State) (d cause : Nat) (t : IT) (recent : List IT) (hd : d < 4) :
    (s.dieDown d cause t recent).die d =
      { s.die d with state := 2, resets := sat32 ((s.die d).resets + 1), last := t, cause := cause, recent := recent } :=
  State.modDie_die_same _ _ _ hd

@[simp] theorem State.dieDown_ch (s : State) (d cause : Nat) (t : IT) (recent : List IT) (n : Nat) :
    (s.dieDown d cause t recent).ch n = s.ch n := rfl

theorem State.dieDown_arriving (s : State) (d cause : Nat) (t : IT) (recent : List IT) :
    (s.dieDown d cause t recent).skein.arriving = s.skein.arriving ++ [⟨0x6005, t, s.time.boot, d, le 1 cause⟩] := rfl

theorem State.dieReset_running (s : State) (d cause : Nat) (t : IT) (hd : (s.die d).state ≠ 2) :
    ∃ recent, s.dieReset d cause t = if recent.length > 2 then ((s.channelsReset d t).dieDown d cause t recent).report 0xE013 d []
      else (s.channelsReset d t).dieDown d cause t recent :=
  ⟨_, if_neg (by simp [hd])⟩

/-- A die that is not in reset, reset: what it and its channels are left in (R239). -/
theorem State.dieReset_effect (s : State) (d cause : Nat) (t : IT) (hd4 : d < 4) (hd : (s.die d).state ≠ 2) :
    ∃ u, s.dieReset d cause t = u ∧
      (u.die d).state = 2 ∧ (u.die d).last = t ∧ (u.die d).resets = sat32 ((s.die d).resets + 1) ∧ (u.die d).cause = cause ∧
      u.skein.arriving = s.skein.arriving ++ [⟨0x6005, t, s.time.boot, d, le 1 (u.die d).cause⟩] ∧
      (∀ n ∈ dieChannels d, (u.ch n).edges = (s.ch n).edges ∧ (u.ch n).state ≠ 1 ∧ (u.ch n).state ≠ 2) ∧
      (∀ n, n / 32 ≠ d → u.ch n = s.ch n) ∧
      Unchanged [.it, .chan, .banks, .dies, .dis, .budget, .therm, .skein, .sup] s u := by
  obtain ⟨recent, hr⟩ := s.dieReset_running d cause t hd
  have hu1 : Unchanged [.it, .dis, .chan, .banks, .budget] s (s.channelsReset d t) := Unchanged.of_mask (by simp)
  have hdie := (s.channelsReset d t).dieDown_die d cause t recent hd4
  rw [State.die_of_dies (s := s) (hu1 .dies (by simp))] at hdie
  have hskein := (s.channelsReset d t).dieDown_arriving d cause t recent
  rw [show (s.channelsReset d t).skein = s.skein from hu1 .skein (by simp),
    show (s.channelsReset d t).time = s.time from hu1 .time (by simp)] at hskein
  rw [hr]
  refine ⟨_, rfl, ?_⟩
  split
  · simp only [State.report_die, State.report_skein, State.report_ch, State.dieDown_ch, hdie, hskein]
    exact ⟨trivial, trivial, trivial, trivial, trivial, s.channelsReset_ch_own d t hd4, s.channelsReset_ch_other d t,
      Unchanged.of_mask (by simp)⟩
  · simp only [State.dieDown_ch, hdie, hskein]
    exact ⟨trivial, trivial, trivial, trivial, trivial, s.channelsReset_ch_own d t hd4, s.channelsReset_ch_other d t,
      Unchanged.of_mask (by simp)⟩

/-- EDGE_WORD_ERROR on a running die resets it. -/
theorem execEdgeWordError_running (d : Fin 4) (c : EdgeCause) (at_ : IT) (s : State) (hd : (s.die d).state = 1) :
    ∃ t, exec (.edgeWordError d c at_) s = .next t ∧
      (t.die d).state = 2 ∧ (t.die d).last = at_ ∧ (t.die d).resets = sat32 ((s.die d).resets + 1) ∧
      (t.die d).cause = (match c with | .parity => 1 | .sequence => 2 | .watchdog => 3) ∧
      t.skein.arriving = s.skein.arriving ++ [⟨0x6005, at_, s.time.boot, d, le 1 (t.die d).cause⟩] ∧
      (∀ n ∈ dieChannels d, (t.ch n).edges = (s.ch n).edges ∧ (t.ch n).state ≠ 1 ∧ (t.ch n).state ≠ 2) ∧
      (∀ n, n / 32 ≠ d.val → t.ch n = s.ch n) ∧
      Unchanged [.it, .chan, .banks, .dies, .dis, .budget, .therm, .skein, .sup] s t := by
  have hex : ∀ code t, s.dieReset d code at_ = t → (Host.Outcome.next (if (s.die d).state == 1 then s.dieReset d code at_ else s) :
      Host.Outcome State Fault Refusal) = .next t := fun code t ht => by rw [if_pos (by simp [hd]), ht]
  have heff := fun code => s.dieReset_effect d code at_ d.isLt (by omega)
  cases c with
  | parity => exact (heff 1).imp fun t h => ⟨hex 1 t h.1, h.2⟩
  | sequence => exact (heff 2).imp fun t h => ⟨hex 2 t h.1, h.2⟩
  | watchdog => exact (heff 3).imp fun t h => ⟨hex 3 t h.1, h.2⟩

/-- A channel of a die that restarts at `t`: off, the edges that fell due gone and its openings among them counted. -/
def Channel.restarted (c : Channel) (t : IT) : Channel :=
  { c with
    edges := c.edges.filter (fun e => decide (t < e.it)),
    counters := vmod c.counters 1 (fun k => sat32 (k + (c.edges.filter (fun e => e.opens && !decide (t < e.it))).length)),
    state := 0, closings := [], dieClosed := some t, tw := c.twCopy, tb := c.tbCopy }

theorem nodup_dieChannels (d : Nat) : (dieChannels d).Nodup := by
  unfold dieChannels
  exact List.nodup_range.map fun a b h => by omega

@[simp] theorem State.missDue_mask {ps : List Part} (s : State) (t : IT) (n : Nat) (h : [.chan, .undo] ⊆ ps) :
    (s.missDue t n).mask ps = s.mask ps := by
  simp at h
  obtain ⟨hc, hu⟩ := h
  exact (mask_set_undo _ _ hu).trans (State.modCh_mask _ _ _ (by simp [hc]))

/-- The restart of one channel of a die. -/
def State.chRestart (s : State) (t : IT) (n : Nat) : State :=
  (s.missDue t n).modCh n (fun c => { c with state := 0, closings := [], dieClosed := some t, tw := c.twCopy, tb := c.tbCopy })

theorem State.chRestart_ch_same (s : State) (t : IT) (n : Nat) (hn : n < 128) : (s.chRestart t n).ch n = (s.ch n).restarted t := by
  have h : (s.missDue t n).ch n = _ := State.modCh_ch_same s n _ hn
  rw [State.chRestart, State.modCh_ch_same _ _ _ hn, h]
  rfl

theorem State.chRestart_ch_other (s : State) (t : IT) (n m : Nat) (hm : m ≠ n) : (s.chRestart t n).ch m = s.ch m :=
  (State.modCh_ch_other _ _ _ _ hm).trans (State.modCh_ch_other _ _ _ _ hm)

@[simp] theorem State.chRestart_mask {ps : List Part} (s : State) (t : IT) (n : Nat) (h : [.chan, .undo] ⊆ ps) :
    (s.chRestart t n).mask ps = s.mask ps := by
  simp at h
  simp [State.chRestart, h]

/-- The state in which every channel of die `d` has restarted at `t`. -/
def State.chansRestarted (s : State) (d : Nat) (t : IT) : State := (dieChannels d).foldl (fun s n => s.chRestart t n) s

@[simp] theorem State.chansRestarted_mask {ps : List Part} (s : State) (d : Nat) (t : IT) (h : [.chan, .undo] ⊆ ps) :
    (s.chansRestarted d t).mask ps = s.mask ps := by
  simp at h
  simp [State.chansRestarted, h]

theorem State.chansRestarted_ch_own (s : State) (d : Nat) (t : IT) (hd : d < 4) :
    ∀ n ∈ dieChannels d, (s.chansRestarted d t).ch n = (s.ch n).restarted t :=
  foldl_ch_each _ (Channel.restarted · t) (fun u n hn => u.chRestart_ch_same t n hn) (fun u n m hm => u.chRestart_ch_other t n m hm) _
    (fun n hn => by have := mem_dieChannels.mp hn; omega) (nodup_dieChannels d) s

theorem State.chansRestarted_ch_other (s : State) (d : Nat) (t : IT) (n : Nat) (hn : n / 32 ≠ d) :
    (s.chansRestarted d t).ch n = s.ch n :=
  foldl_keeps_of_mem (fun s => s.ch n) _ _ (fun m hm u => u.chRestart_ch_other t m n fun e => hn (e ▸ mem_dieChannels.mp hm)) s

/-- The commons of die `d` set anew, their banks free from `t`. -/
def State.commonsFreed (s : State) (d : Nat) (t : IT) : State :=
  (List.range 4).foldl (fun s i => (s.modBank (4 * d + i) (fun x => { x with freeAt := t })).setCommon (4 * d + i)) s

@[simp] theorem State.commonsFreed_mask {ps : List Part} (s : State) (d : Nat) (t : IT) (h : [.banks] ⊆ ps) :
    (s.commonsFreed d t).mask ps = s.mask ps := by
  simp at h
  simp [State.commonsFreed, h]

/-- DIE_RESTART_DONE of a die in reset. -/
theorem execDieRestartDone_resetting (d : Fin 4) (at_ : IT) (s : State) (hd : (s.die d).state = 2) :
    ∃ t, exec (.dieRestartDone d at_) s = .next t ∧
      (t.die d).state = 1 ∧ vget t.therm.unavail d none = none ∧
      (∀ n ∈ dieChannels d, (t.ch n).state = 0 ∧ (t.ch n).closings = [] ∧ (t.ch n).tw = (s.ch n).twCopy ∧
        (t.ch n).tb = (s.ch n).tbCopy ∧ (t.ch n).edges = (s.ch n).edges.filter (fun e => decide (at_ < e.it)) ∧
        vget (t.ch n).counters 1 0 =
          sat32 (vget (s.ch n).counters 1 0 + ((s.ch n).edges.filter (fun e => e.opens && !decide (at_ < e.it))).length)) ∧
      (∀ n, n / 32 ≠ d.val → t.ch n = s.ch n) ∧ Unchanged [.it, .chan, .banks, .dies, .therm, .undo] s t := by
  have hd4 := d.isLt
  let s1 := (s.at at_).modDie d (fun x => { x with state := 1 })
  let s2 := (s1.chansRestarted d at_).commonsFreed d at_
  have hs1 : Unchanged [.it, .dies] s s1 := Unchanged.of_mask (by simp [s1])
  have hs2 : Unchanged [.chan, .banks, .undo] s1 s2 := Unchanged.of_mask (by simp [s2])
  have hban : Unchanged [.banks] (s1.chansRestarted d at_) s2 := Unchanged.of_mask (by simp [s2])
  have hch : ∀ n, s2.ch n = (s1.chansRestarted d at_).ch n := State.ch_of_chan (hban .chan (by simp))
  have hdie : s2.die d = { s.die d with state := 1 } :=
    (State.die_of_dies (hs2 .dies (by simp)) d.val).trans (State.modDie_die_same _ _ _ hd4)
  let t : State := { s2 with therm := { s2.therm with unavail := vset s2.therm.unavail d none } }
  refine ⟨t, congrArg Host.Outcome.next (if_neg (by simp [hd])), congrArg Die.state hdie, vget_vset_same _ _ _ _ (by omega), fun n hn => ?_,
    fun n hn => (hch n).trans (s1.chansRestarted_ch_other d at_ n hn),
    ((hs1.mono (by simp)).trans (hs2.mono (by simp))).trans (Unchanged.of_mask (mask_set_therm _ _ (by simp)))⟩
  have h : t.ch n = (s.ch n).restarted at_ := (hch n).trans (s1.chansRestarted_ch_own d at_ hd4 n hn)
  rw [h]
  exact ⟨rfl, rfl, rfl, rfl, rfl, vget_vmod_same _ _ _ _ (by decide)⟩

/-- Settles O14: a die that resets, and one that restarts. -/
theorem dieResets : Obligations.DieResets :=
  ⟨execEdgeWordError_running, execDieRestartDone_resetting⟩

end Sys2Proof.Machine

end

section

namespace Sys2Proof.Machine

/-! # Latches of channels and banks are cleared (R234, R235, R371) -/

/-- The descriptor of P 0x3000+n.0E. -/
def channelLatchDesc : Desc := ⟨0x3000, 128, 0x0E, 1, 1, false, 1, 2, 1, 0, 1, 1, 0, 1, 1, 0⟩

theorem isCommand_channelLatch (n : Fin 128) : isCommand (0x3000 + n.val) 0xE channelLatchDesc := by
  revert n
  unfold isCommand
  decide +kernel

theorem valueFail_channelLatch (n : Fin 128) : valueFail channelLatchDesc (0x3000 + n.val) 0xE [1] = none := by
  revert n
  decide +kernel

theorem execClearChannelLatch_accepted (r : Req) (x : Session) (n : Fin 128) (s : State) (h : s.Takes r x) :
    ∃ t, exec (.clearChannelLatch r n) s = .next t ∧ t.ch n = { s.ch n with ocLatch := false, ocCount := 0 } ∧
      (∀ m, m ≠ n.val → t.ch m = s.ch m) ∧ s.Accepted t r ∧ Unchanged [.it, .chan, .dict, .nets] s t := by
  have hn := n.isLt
  have hcmd : (s.served r).writeCommand r.sid x.level (0x3000 + n.val) 0xE [1] = ((s.served r).clearChannel n, 0) := by
    unfold State.writeCommand
    rw [if_neg (by omega), if_neg (by omega), if_neg (by omega), if_neg (by omega), if_pos (by omega), Nat.add_sub_cancel_left]
  obtain ⟨k, l, he, ha, hu⟩ := State.hostWrite_effect (ps := [.chan]) h (isCommand_channelLatch n) (valueFail_channelLatch n)
    (.inr (by omega)) (.inl (by omega)) (by omega) hcmd (State.modCh_mask _ _ _ (by simp)) (by simp)
  refine ⟨_, rfl, ?_, fun m hm => ?_, ha, hu.mono (by simp)⟩
  all_goals rw [he]
  · exact State.modCh_ch_same (s.served r) _ _ hn
  · exact State.modCh_ch_other (s.served r) _ _ _ hm

/-- The descriptor of P 0x3080+b.05. -/
def bankLatchDesc : Desc := ⟨0x3080, 16, 0x05, 1, 1, false, 1, 2, 1, 0, 1, 1, 0, 1, 1, 0⟩

theorem isCommand_bankLatch (b : Fin 16) : isCommand (0x3080 + b.val) 5 bankLatchDesc := by
  revert b
  unfold isCommand
  decide +kernel

theorem valueFail_bankLatch (b : Fin 16) : valueFail bankLatchDesc (0x3080 + b.val) 5 [1] = none := by
  revert b
  decide +kernel

@[simp] theorem State.clearBank_mask {ps : List Part} (s : State) (b : Nat) (h : [.banks] ⊆ ps) :
    (s.clearBank b).mask ps = s.mask ps := by
  simp at h
  simp [State.clearBank, h]

theorem State.clearBank_bank_other (s : State) (b k : Nat) (hk : k ≠ b) : (s.clearBank b).bank k = s.bank k :=
  (State.setCommon_bank_other _ _ _ hk).trans (State.modBank_bank_other _ _ _ _ hk)

/-- A latch cleared: the bank's trips go with it, and STUCK-OPEN and a trip's end stay. -/
theorem State.clearBank_bank_same (s : State) (b : Nat) (hb : b < 16) :
    ((s.clearBank b).bank b).ocLatch = false ∧ ((s.clearBank b).bank b).trips = [] ∧
      ((s.clearBank b).bank b).stuck = (s.bank b).stuck ∧ ((s.clearBank b).bank b).tripTill = (s.bank b).tripTill := by
  have hkeep : ∀ {α : Type} (g : Bank → α), (∀ x c, g { x with common := c } = g x) → g ((s.clearBank b).bank b) =
      g { s.bank b with ocLatch := false, trips := [], freeAt := if (s.bank b).ocLatch then s.it else (s.bank b).freeAt } :=
    fun g hg => (State.setCommon_bank_keeps g hg _ b b).trans (congrArg g (State.modBank_bank_same s b _ hb))
  exact ⟨hkeep (·.ocLatch) fun _ _ => rfl, hkeep (·.trips) fun _ _ => rfl, hkeep (·.stuck) fun _ _ => rfl,
    hkeep (·.tripTill) fun _ _ => rfl⟩

theorem execClearBankLatch_accepted (r : Req) (x : Session) (b : Fin 16) (s : State) (h : s.Takes r x) :
    ∃ t, exec (.clearBankLatch r b) s = .next t ∧ (t.bank b).ocLatch = false ∧ (t.bank b).trips = [] ∧
      (t.bank b).stuck = (s.bank b).stuck ∧ (t.bank b).tripTill = (s.bank b).tripTill ∧
      (∀ k, k ≠ b.val → t.bank k = s.bank k) ∧ s.Accepted t r ∧ Unchanged [.it, .banks, .dict, .nets] s t := by
  have hb := b.isLt
  have hcmd : (s.served r).writeCommand r.sid x.level (0x3080 + b.val) 5 [1] = ((s.served r).clearBank b, 0) := by
    unfold State.writeCommand
    rw [if_neg (by omega), if_neg (by omega), if_neg (by omega), if_neg (by omega), if_neg (by omega), if_pos (by omega),
      Nat.add_sub_cancel_left]
  obtain ⟨k, l, he, ha, hu⟩ := State.hostWrite_effect (ps := [.banks]) h (isCommand_bankLatch b) (valueFail_bankLatch b)
    (.inr (by omega)) (.inl (by omega)) (by omega) hcmd (State.clearBank_mask _ _ (by simp)) (by simp)
  obtain ⟨hlatch, htrips, hstuck, htill⟩ := (s.served r).clearBank_bank_same b hb
  refine ⟨_, rfl, ?_, ?_, ?_, ?_, fun k hk => ?_, ha, hu.mono (by simp)⟩
  all_goals rw [he]
  · exact hlatch
  · exact htrips
  · exact hstuck
  · exact htill
  · exact (s.served r).clearBank_bank_other b k hk

/-- Settles O22: a channel's latch and a bank's. -/
theorem nozzleLatchClears : Obligations.NozzleLatchClears :=
  ⟨execClearChannelLatch_accepted, execClearBankLatch_accepted⟩

end Sys2Proof.Machine

end

section

namespace Sys2Proof.Machine

/-! # State commands: at their receipt and at their boundary (R459, R474 to R476) -/

/-! ### A command that waits, and one that is refused (R475) -/

theorem isCommand_stateCommand : isCommand 0x4400 2 stateCommandDesc := by
  unfold isCommand
  decide +kernel

theorem State.writeCommand_state (s : State) (who : SessionId) (lvl : Nat) (b : Byte) :
    s.writeCommand who lvl 0x4400 2 [b] = s.stateCommand lvl b.toNat := by
  simp [State.writeCommand, leNat]

/-- A state command that is accepted waits for the first boundary 100 µs later, and moves nothing else. -/
theorem State.hostWrite_waits {s : State} {r : Req} {x : Session} (h : s.Takes r x) (b : Byte) (n : Nat)
    (hb : valueFail stateCommandDesc 0x4400 2 [b] = none)
    (hc : (s.served r).stateCommand x.level b.toNat = (s.served r).acceptState n) :
    (s.hostWrite r 0x4400 2 [b]).power = { s.power with cmdResult := 0, cmd := some ⟨n, boundaryAtOrAfter (max s.it r.rx + 100000)⟩ } ∧
      s.Accepted (s.hostWrite r 0x4400 2 [b]) r ∧ Unchanged [.it, .power, .dict, .nets] s (s.hostWrite r 0x4400 2 [b]) := by
  obtain ⟨k, l, he, ha, hu⟩ := State.hostWrite_effect (ps := [.power]) h isCommand_stateCommand hb (.inr (by decide)) (.inr (by decide))
    (by decide) ((State.writeCommand_state _ _ _ _).trans hc) (State.modPower_mask _ _ (by simp)) (by simp)
  refine ⟨?_, ha, hu.mono (by simp)⟩
  rw [he]
  rfl

/-- CMD_RUN, BARE, READY and SERVICE under their conditions. -/
theorem execStateCommand_waits (r : Req) (x : Session) (c : Instr) (n : Nat) (s : State) (h : s.Takes r x)
    (hc : c = .cmdRun r ∧ n = 1 ∧ (s.served r).runRefusal = 0 ∨
     c = .cmdBare r ∧ n = 2 ∧ s.power.dev = .run ∧ s.sup.thermal = false ∨
     c = .cmdReady r ∧ n = 4 ∧ s.power.dev = .safe ∧ s.sup.thermal = false ∧ s.safeFault = false ∨
     c = .cmdService r ∧ n = 5 ∧ 3 ≤ x.level ∧ (s.power.dev = .ready ∨ s.power.dev = .safe) ∧ (s.card.life = 2 ∨ s.card.life = 3) ∧
       (s.power.dev = .safe → s.safeFault = false)) :
    ∃ t, exec c s = .next t ∧
      t.power = { s.power with cmdResult := 0, cmd := some ⟨n, boundaryAtOrAfter (max s.it r.rx + 100000)⟩ } ∧
      s.Accepted t r ∧ Unchanged [.it, .power, .dict, .nets] s t := by
  have hth : (s.served r).sup.thermal = s.sup.thermal := rfl
  have hsf : (s.served r).safeFault = s.safeFault := rfl
  rcases hc with ⟨rfl, rfl, hr⟩ | ⟨rfl, rfl, hd, ht⟩ | ⟨rfl, rfl, hd, ht, hf⟩ | ⟨rfl, rfl, hl, hd, hlife, hf⟩
  · exact ⟨_, rfl, State.hostWrite_waits h 1 1 (by decide +kernel) (if_pos hr)⟩
  · exact ⟨_, rfl, State.hostWrite_waits h 2 2 (by decide +kernel) (by simp [State.stateCommand, hd, hth, ht])⟩
  · exact ⟨_, rfl, State.hostWrite_waits h 4 4 (by decide +kernel) (by simp [State.stateCommand, hd, hth, ht, hsf, hf])⟩
  · refine ⟨_, rfl, State.hostWrite_waits h 5 5 (by decide +kernel) ?_⟩
    show (if x.level < 3 then _ else if _ then _ else if _ then _ else _) = _
    rw [if_neg (Nat.not_lt.mpr hl), if_neg ?_, if_neg ?_]
    · simp only [State.served_power, hsf]
      exact fun h => by simp [hf h.1] at h
    · rcases hd with hd | hd <;> rcases hlife with hlife | hlife <;> simp [hd, hlife]

/-- CMD_RUN with a reason against it: the reason stands in P 0x4400.03, and nothing moves. -/
theorem execCmdRun_refused (r : Req) (x : Session) (s : State) (h : s.Takes r x) (hr : (s.served r).runRefusal ≠ 0) :
    ∃ t, exec (.cmdRun r) s = .next t ∧ t.power = { s.power with cmdResult := (s.served r).runRefusal } ∧
      t.dict.refused = sat32 (s.dict.refused + 1) ∧ Unchanged [.it, .power, .dict, .nets] s t := by
  obtain ⟨huse, hsub, hdesc, hacc, hcls, hprot⟩ := isCommand_stateCommand
  have hcmd : (s.served r).writeCommand r.sid x.level 0x4400 2 [1] = (s.served r).refuseState (s.served r).runRefusal 0xA :=
    (State.writeCommand_state _ _ _ _).trans (if_neg hr)
  have hw := State.hostWrite_command h huse hsub hdesc hacc hcls hprot (by decide +kernel) (.inr (by decide)) (.inr (.inl (by decide)))
    (by decide) hcmd
  let u := ((s.served r).refuseState (s.served r).runRefusal 0xA).1.refuseWrite 0x4400 2 0xA 0
  have hy : u.s.session r.sid = some x := (State.served_session r.sid).trans h.known
  obtain ⟨n, hn, -⟩ := State.remember_answer (u := u.s) (r := r)
    (if decide (1 ≤ maxPayload r.sid.net) then writeReply u.code (max s.it r.rx) u.eff else lastAck u.code 1 (max s.it r.rx))
    (if decide (1 ≤ maxPayload r.sid.net) then 2 else 4) 0x4400 2 hy
  have he : s.hostWrite r 0x4400 2 [1] = { u.s with nets := n } := hw.trans hn
  have hs : Unchanged [.it, .nets] s (s.served r) := Unchanged.of_mask (State.served_mask s r (by simp))
  refine ⟨_, rfl, ?_⟩
  rw [he]
  refine ⟨rfl, rfl, (hs.mono (by simp)).trans (Unchanged.of_mask ?_)⟩
  exact (mask_set_dict_nets ((s.served r).refuseState (s.served r).runRefusal 0xA).1 _ n (by simp)).trans
    (State.modPower_mask _ _ (by simp))

/-! ### SAFE at its receipt (R459) -/

/-- The edges discarded: no channel has one left, and each is in the state it was in. -/
theorem State.discardEdges_ch (s : State) (n : Nat) (hn : n < 128) :
    s.discardEdges.ch n = { s.ch n with edges := [], retryAt := none, dieClosed := none } := by
  simp [State.discardEdges, State.dropEdges, State.ch, vget, hn]

/-- The channels closed on the supervisor's order: none pulls in or holds, and their edges stay as they were. -/
theorem State.closeChannels_ch (s : State) (n : Nat) (hn : n < 128) :
    (s.closeChannels.ch n).edges = (s.ch n).edges ∧ s.closeChannels.undriven n :=
  ⟨foldl_keeps (fun u => (u.ch n).edges) _ (fun u m => u.closeWith_ch_keeps (·.edges) (fun _ _ _ _ _ _ _ _ => rfl) m s.it .ordered _ _ n)
      _ s,
    s.closeTogether_undriven _ _ _ (fun _ h => List.mem_range.mp h) n (List.mem_range.mpr hn)⟩

/-- Entry to SAFE: its time is noted, and no channel is driven or has an edge left. -/
theorem State.enterSafe_outputs (s : State) (cause : Nat) (hd : s.power.dev = .ready ∨ s.power.dev = .run ∨ s.power.dev = .bare) :
    (s.enterSafe cause).sup.lastSafe = s.it ∧
      ∀ n, n < 128 → ((s.enterSafe cause).ch n).edges = [] ∧ (s.enterSafe cause).undriven n := by
  unfold State.enterSafe
  rw [if_neg (by rcases hd with hd | hd | hd <;> simp [hd])]
  extract_lets s1 s2 s3 s4 s5 s6
  have h2 : Unchanged [.power, .dis, .spin, .skein, .card, .freeCtr, .rate] s.discardEdges s2 := Unchanged.of_mask (by simp [s2, s1])
  have h5 : Unchanged [.power, .rov, .spd, .dis, .bob, .whorl, .spin, .bridges, .ports, .loads, .budget, .skein, .freeCtr] s3 s5 :=
    Unchanged.of_mask (by simp [s5, s4])
  have h7 : Unchanged [.spin, .loads, .budget, .skein] s6 s6.loadsFollow.spinsFollow := Unchanged.of_mask (by simp)
  have hsup : s6.loadsFollow.spinsFollow.sup = s6.sup := h7 .sup (by simp)
  have hchan : s6.loadsFollow.spinsFollow.chan = s3.chan :=
    (h7 .chan (by simp)).trans ((State.modSup_chan s5 _).trans (h5 .chan (by simp)))
  have hit : s5.it = s.it := (h5 .it (by simp)).trans ((State.closeChannels_it s2).trans (h2 .it (by simp)))
  have hlast : s6.sup.lastSafe = s5.it := by simp only [s6, State.modSup_sup]
  refine ⟨by rw [hsup, hlast, hit], fun n hn => ?_⟩
  obtain ⟨hedges, hund⟩ := s2.closeChannels_ch n hn
  have hch : s6.loadsFollow.spinsFollow.ch n = s3.ch n := State.ch_of_chan hchan n
  refine ⟨?_, (State.undriven_of_ch hch).mpr hund⟩
  rw [hch]
  refine hedges.trans ?_
  rw [State.ch_of_chan (h2 .chan (by simp)), s.discardEdges_ch n hn]

/-- CMD_SAFE. -/
theorem execCmdSafe_enters (r : Req) (x : Session) (s : State) (h : s.Takes r x)
    (hd : s.power.dev = .ready ∨ s.power.dev = .run ∨ s.power.dev = .bare) :
    ∃ t, exec (.cmdSafe r) s = .next t ∧ t.power.dev = .safe ∧ t.power.cmd = none ∧ t.sup.lastSafe = max s.it r.rx ∧
      (∀ n, n < 128 → (t.ch n).edges = [] ∧ (t.ch n).state ≠ 1 ∧ (t.ch n).state ≠ 2) ∧ s.Accepted t r := by
  obtain ⟨huse, hsub, hdesc, hacc, hcls, hprot⟩ := isCommand_stateCommand
  let p := (s.served r).modPower (fun p => { p with cmdResult := 0, cmd := none })
  have hm : Unchanged [.it, .power, .rov, .spd, .dis, .rate, .chan, .banks, .bob, .whorl, .spin, .bridges, .ports, .loads, .budget,
      .skein, .sup, .card, .undo, .freeCtr] (s.served r) (p.enterSafe 0) := Unchanged.of_mask (by simp [p])
  have hcmd : (s.served r).writeCommand r.sid x.level 0x4400 2 [3] = (p.enterSafe 0, 0) :=
    (State.writeCommand_state _ _ _ _).trans (if_neg (by rcases hd with hd | hd | hd <;> simp [hd]))
  have hy : (p.enterSafe 0).session r.sid = some x := by
    rw [State.session, show (p.enterSafe 0).nets = _ from hm .nets (by simp)]
    exact (State.served_session r.sid).trans h.known
  have hdict : (p.enterSafe 0).dict = s.dict := hm .dict (by simp)
  obtain ⟨n, he, ha, -⟩ := State.hostWrite_accepted h huse hsub hdesc hacc hcls hprot (by decide +kernel) (.inr (by decide))
    (.inr (.inl (by decide))) (by decide) hcmd hy (State.enterSafe_it p 0) (by rw [hdict]) (by rw [hdict])
  have hs := p.enterSafe_sans 0 hd
  obtain ⟨hlast, hch⟩ := p.enterSafe_outputs 0 hd
  refine ⟨_, rfl, ?_, ?_, ?_, ?_, ha⟩
  all_goals rw [he]
  · exact Power.dev_of_sans hs
  · exact Power.cmd_of_sans hs
  · exact hlast
  · exact hch

/-! ### A command at its boundary (R474, R475) -/

theorem State.setLife_life (s : State) (l : Nat) : (s.setLife l).card.life = l := by
  unfold State.setLife
  extract_lets old
  split
  next h => exact h
  next => simp only [State.record_card, State.modCard_card]

/-- A move to SERVICE aborts no run of Carding. -/
theorem State.setDev_service_card (s : State) (cause : Nat) : (s.setDev .service cause).card = s.card := by
  unfold State.setDev
  extract_lets old s1 s2 s3
  have h2 : s2 = (s1.modPower (fun p => { p with dev := .service, entered := s1.it })).spinsFollow := rfl
  have hcard : s2.card = s.card := by
    rw [h2]
    exact Unchanged.of_mask (ps := [.skein, .power, .spin, .dis]) (s := s) (by simp [s1]) .card (by simp)
  rw [if_neg (by decide)]
  simp only [s3]
  split
  · rw [State.modDis_card, hcard]
  · exact hcard

/-- SERVICE entered from the life-cycle state PRODUCTION or SERVICE: the life-cycle state is SERVICE. -/
theorem State.enterService_life (s : State) (h : s.card.life = 2 ∨ s.card.life = 3) : s.enterService.card.life = 3 := by
  unfold State.enterService
  extract_lets s1 s2 s3
  have h3 : Unchanged [.power, .rov, .spd, .dis, .bob, .whorl, .spin, .bridges, .ports, .loads, .budget, .skein, .freeCtr]
      (s.setDev .service 0) s3 := Unchanged.of_mask (by simp [s3, s2, s1])
  have hlife : s3.card.life = s.card.life := congrArg Carding.life ((h3 .card (by simp)).trans (s.setDev_service_card 0))
  split
  next => exact State.setLife_life s3 3
  next hn => exact hlife.trans (h.resolve_left (hlife ▸ hn))

/-- The state in which a command that has waited is no longer pending, at its boundary. -/
def State.atEffect (s : State) (c : StateCmd) : State := (s.at c.boundary).modPower (fun p => { p with cmd := none })

/-- A state that differs from the one at a command's boundary in parts without the time stands at that boundary. -/
theorem State.atEffect_le {ps : List Part} {s u : State} {c : StateCmd} (h : Unchanged ps (s.atEffect c) u) (hi : .it ∉ ps) :
    max s.it c.boundary ≤ u.it := le_of_eq (h .it hi).symm

/-- STATE_COMMAND_EFFECT of a command that R474 still lists. -/
theorem execStateCommandEffect_moves (c : StateCmd) (d : DevState) (s : State) (hc : s.power.cmd = some c)
    (ht : s.sup.thermal = true → c.target = 5)
    (h : c.target = 1 ∧ (s.power.dev = .ready ∨ s.power.dev = .bare) ∧ d = .run ∨ c.target = 2 ∧ s.power.dev = .run ∧ d = .bare ∨
     c.target = 4 ∧ s.power.dev = .safe ∧ d = .ready ∨
     c.target = 5 ∧ (s.power.dev = .ready ∨ s.power.dev = .safe) ∧ (s.card.life = 2 ∨ s.card.life = 3) ∧ d = .service) :
    ∃ t, exec .stateCommandEffect s = .next t ∧ t.power.dev = d ∧ t.power.cmd = none ∧ max s.it c.boundary ≤ t.it ∧
      (d = .service → t.card.life = 3) ∧
      Unchanged [.it, .power, .rov, .spd, .dis, .rate, .chan, .banks, .bob, .whorl, .spin, .bridges, .ports, .loads, .budget,
        .skein, .sup, .card, .undo, .freeCtr] s t := by
  have hu : Unchanged [.it, .power, .rov, .spd, .dis, .rate, .chan, .banks, .bob, .whorl, .spin, .bridges, .ports, .loads, .budget,
    .skein, .sup, .card, .undo, .freeCtr] s s.commandEffect := Unchanged.of_mask (State.commandEffect_mask s (by simp))
  have hth : c.target ≠ 5 → s.sup.thermal = false := fun q => Bool.eq_false_iff.mpr fun h => q (ht h)
  suffices hs : s.commandEffect.power.dev = d ∧ max s.it c.boundary ≤ s.commandEffect.it ∧ (d = .service → s.commandEffect.card.life = 3) by
    obtain ⟨hdev, hbound, hlife⟩ := hs
    exact ⟨_, rfl, hdev, s.commandEffect_cmd, hbound, hlife, hu⟩
  rcases h with ⟨htg, hd, rfl⟩ | ⟨htg, hd, rfl⟩ | ⟨htg, hd, rfl⟩ | ⟨htg, hd, hlife, rfl⟩
  · have hrun : s.commandEffect = (s.atEffect c).enterRun := by
      rcases hd with hd | hd <;> simp [State.commandEffect, State.atEffect, hc, htg, hd, hth]
    rw [hrun]
    exact ⟨by rw [State.enterRun_power],
      State.atEffect_le (Unchanged.of_mask (State.enterRun_mask _ (List.Subset.refl _))) (by simp), nofun⟩
  · have hbare : s.commandEffect = (s.atEffect c).enterBare 0 := by
      simp [State.commandEffect, State.atEffect, hc, htg, hd, hth]
    rw [hbare]
    exact ⟨congrArg Power.dev (State.enterBare_power (s.atEffect c) 0 hd),
      State.atEffect_le (Unchanged.of_mask (State.enterBare_mask _ 0 (List.Subset.refl _))) (by simp), nofun⟩
  · have hready : s.commandEffect = (s.atEffect c).enterReady 0 := by
      simp [State.commandEffect, State.atEffect, hc, htg, hd, hth]
    rw [hready]
    exact ⟨Power.dev_of_sans (State.enterReady_sans _ 0),
      State.atEffect_le (Unchanged.of_mask (State.enterReady_mask _ 0 (List.Subset.refl _))) (by simp), nofun⟩
  · have hservice : s.commandEffect = (s.atEffect c).enterService := by
      rcases hd with hd | hd <;> simp [State.commandEffect, State.atEffect, hc, htg, hd, hlife]
    rw [hservice]
    exact ⟨Power.dev_of_sans (State.enterService_sans _),
      State.atEffect_le (Unchanged.of_mask (State.enterService_mask _ (List.Subset.refl _))) (by simp),
      fun _ => (s.atEffect c).enterService_life hlife⟩

/-- A command that asks for READY, RUN or BARE under the thermal latch is dropped. -/
theorem execStateCommandEffect_latched (c : StateCmd) (s : State) (hc : s.power.cmd = some c) (ht : s.sup.thermal = true)
    (h5 : c.target ≠ 5) :
    ∃ t, exec .stateCommandEffect s = .next t ∧ t.power = { s.power with cmd := none, cmdResult := 4 } ∧ Unchanged [.it, .power] s t := by
  have he : s.commandEffect = (s.atEffect c).modPower (fun p => { p with cmdResult := 4 }) := by
    simp only [State.commandEffect, hc]
    exact if_pos ⟨ht, h5⟩
  exact ⟨_, congrArg Host.Outcome.next he, rfl, Unchanged.of_mask (by simp [State.atEffect])⟩

/-! ### A pull-in tried again in BARE (R241) -/

/-- BARE_PULL_IN_RETRY of a channel that is not wanted on, or not idle: only its wait ends. -/
theorem execBarePullInRetry_idle (n : Fin 128) (x : IT) (s u : State) (hd : s.power.dev = .bare) (hr : (s.ch n).retryAt = some x)
    (hu : u = (s.at x).modCh n (fun c => { c with retryAt := none })) (hw : (u.bareWants n && u.bareIdle n) = false) :
    ∃ t, exec (.barePullInRetry n) s = .next t ∧ t = u := by
  subst hu
  refine ⟨_, ?_, rfl⟩
  simp only [exec, execBarePullInRetry, hr, hd, ne_eq, not_true_eq_false, if_false, hw, Bool.false_eq_true]

/-- BARE_PULL_IN_RETRY moves the time, and what a pull-in submitted moves. -/
theorem execBarePullInRetry_unchanged (n : Fin 128) (s : State) :
    ∃ t, exec (.barePullInRetry n) s = .next t ∧ Unchanged [.it, .chan, .banks, .loads, .budget, .skein] s t := by
  refine ⟨_, rfl, Unchanged.of_mask ?_⟩
  split
  · rfl
  · split
    · rfl
    · simp only [ite_mask]
      simp

/-- Settles O51: the commands that wait, RUN refused, SAFE at its receipt, the boundary's moves, the latch, and a pull-in tried again. -/
theorem stateCommands : Obligations.StateCommands := by
  refine ⟨execStateCommand_waits, execCmdRun_refused, execCmdSafe_enters, execStateCommandEffect_moves, execStateCommandEffect_latched,
    fun n x s u hd hr hu => ⟨execBarePullInRetry_idle n x s u hd hr hu, fun hw hi v hv => ?_⟩⟩
  obtain ⟨t, ht, hretry, hedges⟩ := execBarePullInRetry_granted n x s u hd hr hu hw hi v hv
  obtain ⟨t', ht', hkeep⟩ := execBarePullInRetry_unchanged n s
  cases ht.symm.trans ht'
  exact ⟨t, ht, hretry, hedges, hkeep⟩

end Sys2Proof.Machine

end

section

namespace Sys2Proof.Machine

/-! # A loop's step: what it leaves of the time, of its instant and of the other loops (R259, R260) -/

/-! ### What the operations on a loop do not touch -/

@[simp] theorem Loop.count_last (l : Loop) (i : Nat) : (l.count i).last = l.last := rfl

@[simp] theorem Loop.liveFlush_last (l : Loop) : l.liveFlush.last = l.last := rfl

@[simp] theorem Loop.applyStaged_last (l : Loop) (j : Nat) : (l.applyStaged j).last = l.last := by
  unfold Loop.applyStaged
  dsimp only
  split <;> rfl

@[simp] theorem Loop.delivered_last (l : Loop) : l.delivered.last = l.last := by
  unfold Loop.delivered
  dsimp only
  split <;> rfl

/-- The time, the instant of loop `w`'s last step, the count of late steps and the loops but `w`: what the operations of a step of
loop `w` leave as it was. -/
def State.besides (s : State) (w : Nat) : IT × IT × Nat × Vector Loop 8 :=
  (s.it, (s.lp w).last, s.whorl.late, vset s.whorl.loops w Loop.reset)

/-- What an operation keeps that touches neither the time nor the loops. -/
theorem State.besides_of_mask {s t : State} {w : Nat}
    (h : t.mask [.spin, .bridges, .ports, .loads, .budget, .skein, .sup, .freeCtr] =
      s.mask [.spin, .bridges, .ports, .loads, .budget, .skein, .sup, .freeCtr]) : t.besides w = s.besides w := by
  have hu := Unchanged.of_mask h
  simp only [State.besides, State.lp, show t.it = s.it from hu .it (by simp), show t.whorl = s.whorl from hu .whorl (by simp)]

theorem vset_vmod_same {α : Type} {n : Nat} (v : Vector α n) (i : Nat) (f : α → α) (x : α) : vset (vmod v i f) i x = vset v i x := by
  by_cases h : i < n <;> simp [vset, vmod, h]

/-- A change of loop `w` that keeps the instant of its last step. -/
@[simp] theorem State.modLp_besides (s : State) (w : Nat) (f : Loop → Loop) (hf : ∀ l, (f l).last = l.last) :
    (s.modLp w f).besides w = s.besides w := by
  have hl : ((s.modLp w f).lp w).last = (s.lp w).last := by
    by_cases hw : w < 8 <;> simp [State.modLp, State.lp, vmod, vget, hw, hf]
  simp only [State.besides, hl]
  simp only [State.modLp, vset_vmod_same]

@[simp] theorem State.record_besides (s : State) (code subj : Nat) (det : Bytes) (w : Nat) :
    (s.record code subj det).besides w = s.besides w := rfl

@[simp] theorem State.report_besides (s : State) (code subj : Nat) (det : Bytes) (w : Nat) :
    (s.report code subj det).besides w = s.besides w := rfl

@[simp] theorem State.bridgeCmd_besides (s : State) (k : Nat) (u : F32) (w : Nat) : (s.bridgeCmd k u).besides w = s.besides w :=
  State.besides_of_mask (by simp)

@[simp] theorem State.portCmd_besides (s : State) (k : Nat) (u : F32) (w : Nat) : (s.portCmd k u).besides w = s.besides w :=
  State.besides_of_mask (by simp)

@[simp] theorem State.requestTorque_besides (s : State) (o ma : Nat) (till : IT) (w : Nat) :
    (s.requestTorque o ma till).1.besides w = s.besides w := State.besides_of_mask (by simp)

/-! ### Measurements and references (R264 to R268) -/

@[simp] theorem State.shunts_besides (s : State) (w : Nat) (x : LoopIn) : (s.shunts w x).besides w = s.besides w := by
  refine foldl_keeps (State.besides · w) _ (fun s i => ?_) _ s
  dsimp only
  split <;> rfl

@[simp] theorem State.latch_besides (s : State) (w : Nat) (x : LoopIn) : (s.latch w x).besides w = s.besides w := by
  unfold State.latch
  extract_lets p s1 got
  rw [State.modLp_besides _ _ _ fun l => ?_, State.shunts_besides]
  refine List.foldlRecOn (motive := fun k : Loop => k.last = l.last) _ _ rfl fun k hk i _ => ?_
  split <;> exact hk

@[simp] theorem State.noticeRef_besides (s : State) (w : Nat) (g : F32) (o : Option F32) : (s.noticeRef w g o).besides w = s.besides w := by
  refine State.modLp_besides _ _ _ fun l => ?_
  cases o with
  | some v => rfl
  | none => dsimp only; split <;> rfl

@[simp] theorem State.references_besides (s : State) (w : Nat) (start idle : Bool) : (s.references w start idle).besides w = s.besides w := by
  simp [State.references]

/-! ### Regions and the control law (R261, R270 to R272) -/

@[simp] theorem State.limitNotice_besides (s : State) (w : Nat) : (s.limitNotice w).besides w = s.besides w := by
  refine State.modLp_besides _ _ _ fun l => ?_
  dsimp only
  split <;> rfl

@[simp] theorem State.reinit_besides (s : State) (w j : Nat) (u : Vector F32 4) : (s.reinit w j u).besides w = s.besides w :=
  State.modLp_besides _ _ _ fun _ => rfl

@[simp] theorem State.regionChange_besides (s : State) (w j : Nat) : (s.regionChange w j).besides w = s.besides w := by
  rw [State.regionChange, State.limitNotice_besides, State.reinit_besides, State.modLp_besides _ _ _ fun l => ?_]
  exact (Loop.applyStaged_last _ _).trans (Loop.liveFlush_last l)

@[simp] theorem State.takeCommit_besides (s : State) (w : Nat) : (s.takeCommit w).besides w = s.besides w := by
  unfold State.takeCommit
  split <;> simp

@[simp] theorem State.stepRegion_besides (s : State) (w : Nat) : (s.stepRegion w).besides w = s.besides w := by
  unfold State.stepRegion
  extract_lets j
  rw [State.takeCommit_besides]
  split
  · rfl
  · exact s.regionChange_besides w j

@[simp] theorem State.correct_besides (s : State) (w j : Nat) : (s.correct w j).besides w = s.besides w :=
  State.modLp_besides _ _ _ fun _ => rfl

@[simp] theorem State.filter_besides (s : State) (w j : Nat) : (s.filter w j).besides w = s.besides w :=
  State.modLp_besides _ _ _ fun _ => rfl

@[simp] theorem State.integrate_besides (s : State) (w j : Nat) : (s.integrate w j).besides w = s.besides w :=
  State.modLp_besides _ _ _ fun _ => rfl

@[simp] theorem State.predictLp_besides (s : State) (w j : Nat) : (s.predictLp w j).besides w = s.besides w :=
  State.modLp_besides _ _ _ fun _ => rfl

@[simp] theorem State.blendOut_besides (s : State) (w : Nat) (u : Vector F32 4) : (s.blendOut w u).1.besides w = s.besides w := by
  unfold State.blendOut
  split
  · rfl
  · extract_lets t d k
    split
    · exact State.modLp_besides _ _ _ fun _ => rfl
    · rfl

/-! ### The budget and the destinations (R280, R281) -/

@[simp] theorem State.grantOut_besides (s : State) (w i : Nat) (u : F32) : (s.grantOut w i u).1.besides w = s.besides w := by
  unfold State.grantOut
  dsimp only
  (repeat' split) <;> simp

@[simp] theorem State.deliver_besides (s : State) (w i : Nat) (u : F32) : (s.deliver w i u).besides w = s.besides w := by
  unfold State.deliver
  dsimp only
  split <;> simp

@[simp] theorem State.applyOut_besides (s : State) (w : Nat) (u : Vector F32 4) : (s.applyOut w u).besides w = s.besides w := by
  unfold State.applyOut
  extract_lets s1 order
  rw [State.modLp_besides _ _ _ Loop.delivered_last]
  exact (foldl_keeps (State.besides · w) _ (fun s i => s.deliver_besides w i _) _ s1).trans (by simp [s1])

/-! ### The step (R260, R264, R276 to R278) -/

@[simp] theorem State.startBlend_besides (s : State) (w : Nat) (a b : Vector F32 4) : (s.startBlend w a b).besides w = s.besides w := by
  unfold State.startBlend
  split <;> exact State.modLp_besides _ _ _ fun _ => rfl

@[simp] theorem State.finishAuto_besides (s : State) (w j : Nat) (u : Vector F32 4) : (s.finishAuto w j u).besides w = s.besides w := by
  unfold State.finishAuto
  extract_lets lim s1
  have h1 : s1.besides w = s.besides w := State.modLp_besides _ _ _ fun _ => rfl
  dsimp only
  rw [State.predictLp_besides, State.modLp_besides _ _ _ ?_, State.applyOut_besides, State.blendOut_besides, h1]
  exact fun _ => rfl

@[simp] theorem State.finishManual_besides (s : State) (w j : Nat) : (s.finishManual w j).besides w = s.besides w := by
  unfold State.finishManual
  extract_lets u lim s1
  have h1 : s1.besides w = s.besides w := State.modLp_besides _ _ _ fun _ => rfl
  dsimp only
  rw [State.predictLp_besides, State.reinit_besides, State.applyOut_besides, State.blendOut_besides, h1]

@[simp] theorem State.enterRegion_besides (s : State) (w j : Nat) (idle : Bool) : (s.enterRegion w j idle).besides w = s.besides w := by
  refine State.modLp_besides _ _ _ fun l => ?_
  dsimp only
  (repeat' split) <;> simp

@[simp] theorem State.handOverStep_besides (s : State) (w m : Nat) (idle : Bool) : (s.handOverStep w m idle).besides w = s.besides w := by
  unfold State.handOverStep
  extract_lets l0 uOut same s1 s2 s3 j s4 s5 k s6 keep s7 s8 u
  have h1 : s1.besides w = s.besides w := State.modLp_besides _ _ _ fun _ => rfl
  have h3 : s3.besides w = s.besides w := by
    rw [← h1, ← s1.references_besides w false idle]
    simp only [s3]
    split
    · exact s2.enterRegion_besides w _ true
    · exact s2.stepRegion_besides w
  have h7 : s7.besides w = s.besides w := by
    rw [← h1, ← s1.references_besides w true idle, ← s5.enterRegion_besides w k idle]
    simp only [s7]
    split
    · exact s6.correct_besides w k
    · exact State.modLp_besides _ _ _ fun _ => rfl
  split
  · rw [State.finishManual_besides, State.startBlend_besides, State.filter_besides, State.correct_besides, h3]
  · rw [State.finishAuto_besides, State.startBlend_besides, State.reinit_besides, State.filter_besides, h7]

@[simp] theorem State.plainStep_besides (s : State) (w : Nat) : (s.plainStep w).besides w = s.besides w := by
  unfold State.plainStep
  extract_lets m s1 j s2 s3
  have h2 : s2.besides w = s.besides w := by
    simp only [s2, s1, State.filter_besides, State.correct_besides, State.stepRegion_besides, State.references_besides]
  split
  · rw [State.finishManual_besides, h2]
  · rw [State.finishAuto_besides, State.integrate_besides, h2]

@[simp] theorem State.faultStep_besides (s : State) (w : Nat) : (s.faultStep w).besides w = s.besides w := by
  unfold State.faultStep
  extract_lets s1 s2 u lim
  have h2 : s2.besides w = s.besides w := by
    simp only [s2, s1, State.filter_besides, State.stepRegion_besides, State.references_besides]
  rw [State.applyOut_besides, State.modLp_besides _ _ _ ?_, h2]
  exact fun _ => rfl

@[simp] theorem State.inputFault_besides (s : State) (w : Nat) : (s.inputFault w).besides w = s.besides w := by
  rw [State.inputFault, State.report_besides, State.faultStep_besides, State.modLp_besides _ _ _ ?_]
  exact fun _ => rfl

/-- The state in which a step of loop `w` at `t` has taken what is due, and its lateness is counted. -/
def State.stepTaken (s : State) (w : Nat) (t : IT) (late : Bool) : State :=
  ((s.at t).modLp w (fun l => ({ (l.liveStep.takePosts t).takeLimits t with last := t }).count 0)).lateStep w late

/-- From the taking of what is due on, a step touches neither its time nor its instant, and no other loop. -/
theorem State.loopStep_besides (s : State) (w : Nat) (x : LoopIn) :
    (s.loopStep w x).besides w = (s.stepTaken w (s.stepIt w) x.late).besides w := by
  unfold State.loopStep
  extract_lets t s1 idle s2 s3 s4 l bad
  have h4 : s4.besides w = (s.stepTaken w t x.late).besides w := by
    refine Eq.trans (State.modLp_besides s3 w _ ?_) (State.latch_besides _ w x)
    exact fun _ => rfl
  rw [← h4]
  split
  · split
    · exact s4.handOverStep_besides w _ false
    · exact s4.faultStep_besides w
  · split
    · exact s4.inputFault_besides w
    · split
      · exact s4.handOverStep_besides w _ idle
      · exact s4.plainStep_besides w

/-- A step of a loop in use, in RUN: its instant, the count of late steps, and no other loop. -/
theorem execLoopStep_inUse (w : Fin 8) (x : LoopIn) (s : State) (hd : s.power.dev = .run) (hon : s.lpOn w = true) :
    ∃ t, exec (.loopStep w x) s = .next t ∧ t.it = max s.it (s.stepIt w) ∧ (t.lp w).last = s.stepIt w ∧
      t.whorl.late = (if x.late then sat32 (s.whorl.late + 1) else s.whorl.late) ∧ (∀ v, v ≠ w.val → t.lp v = s.lp v) := by
  refine ⟨s.loopStep w x, congrArg Host.Outcome.next (if_pos ⟨hd, hon⟩), ?_⟩
  have h := s.loopStep_besides w x
  simp only [State.besides, Prod.mk.injEq] at h
  obtain ⟨hit, hlast, hlate, hloops⟩ := h
  have hl : ∀ b, (((s.at (s.stepIt w)).modLp w (fun l =>
      ({ (l.liveStep.takePosts (s.stepIt w)).takeLimits (s.stepIt w) with last := s.stepIt w }).count 0)).lateStep w b).whorl.loops =
      vmod s.whorl.loops w (fun l => ({ (l.liveStep.takePosts (s.stepIt w)).takeLimits (s.stepIt w) with last := s.stepIt w }).count 0) := by
    intro b
    cases b <;> rfl
  refine ⟨hit.trans ?_, hlast.trans ?_, hlate.trans ?_, fun v hv => ?_⟩
  · cases x.late <;> rfl
  · simp only [State.stepTaken, State.lp, hl, vget_vmod_same _ _ _ _ w.isLt]
    rfl
  · cases x.late <;> rfl
  · have hv' := congrArg (fun a => vget a v Loop.reset) hloops
    simp only [State.stepTaken, hl, vset_vmod_same, vget_vset_other _ _ _ _ _ hv.symm] at hv'
    exact hv'

end Sys2Proof.Machine

end

section

namespace Sys2Proof.Machine

/-! # The rail, and a spinner's transfer (R250, R251, R255, R299) -/

/-! ### The rail (R250, R251, R255) -/

/-- A closing that decays as the rail rises is clamped; Bobbin's own state stays. -/
theorem State.railHighCh_bob (s : State) (n : Nat) : (s.railHighCh n).bob = s.bob := by
  unfold State.railHighCh
  split
  · rfl
  · extract_lets s1
    split <;> rfl

theorem execRailHigh_rises (x : IT) (s : State) (ha : s.power.dev.awake = true) (hr : s.bob.railHigh = false) :
    ∃ t, exec (.railHigh x) s = .next t ∧ t.bob = { s.bob with railHigh := true } := by
  refine ⟨(List.range 128).foldl (fun s n => s.railHighCh n) ((s.at x).modBob (fun b => { b with railHigh := true })), ?_, ?_⟩
  · simp [exec, execRailHigh, State.whenAwake, ha, hr]
  · exact foldl_keeps (·.bob) _ (fun s n => s.railHighCh_bob n) _ _

theorem execRailHighClear_awake (x : IT) (s : State) (ha : s.power.dev.awake = true) :
    ∃ t, exec (.railHighClear x) s = .next t ∧ t.bob = { s.bob with railHigh := false } :=
  ⟨_, congrArg Host.Outcome.next (State.whenAwake_awake ha _), rfl⟩

theorem execSupplyHigh_awake (x : IT) (s : State) (ha : s.power.dev.awake = true) :
    ∃ t, exec (.supplyHigh x) s = .next t ∧ t.bob = { s.bob with supHigh := true, ret := false } :=
  ⟨_, congrArg Host.Outcome.next (State.whenAwake_awake ha _), rfl⟩

theorem execSupplyHighClear_awake (x : IT) (s : State) (ha : s.power.dev.awake = true) :
    ∃ t, exec (.supplyHighClear x) s = .next t ∧ t.bob = { s.bob with supHigh := false } :=
  ⟨_, congrArg Host.Outcome.next (State.whenAwake_awake ha _), rfl⟩

/-- RAIL_FAULT of a cause that is watched in every state. -/
theorem execRailFault_watched (c : RailCause) (x : IT) (s : State) (ha : s.power.dev.awake = true) (hc : c ≠ .underVoltage) :
    ∃ t, exec (.railFault c x) s = .next t ∧ t.bob.state = (if s.bobbinEnabled then 5 else s.bob.state) ∧ t.bob.cause = railCauseCode c := by
  refine ⟨((s.at x).modBob (fun b => { b with
    state := if s.bobbinEnabled then 5 else b.state, ret := false, limited := false, cause := railCauseCode c })).report 0xE009
      (railCauseCode c) [], ?_, rfl, rfl⟩
  simp only [exec, execRailFault, State.whenAwake, ha, if_true]
  rw [if_neg fun h => hc h.1]

/-- PRECHARGE_COMPLETE of a rail that precharges: the rail stands at its set point. -/
theorem execPrechargeComplete_precharging (x : IT) (q mv : Nat) (s : State) (hp : s.bob.state = 1) :
    ∃ t, exec (.prechargeComplete x q mv) s = .next t ∧ t.bob.state = 2 ∧ t.bob.target = s.pN 0x3090 2 := by
  show ∃ t, execPrechargeComplete x q mv s = .next t ∧ _
  unfold execPrechargeComplete
  extract_lets s1 c decl bad s2
  rw [if_neg (by simp [hp])]
  refine ⟨_, rfl, ?_⟩
  split
  · exact ⟨rfl, rfl⟩
  · have h : (s2.recordIf bad 0x7001 0 []).bob = s2.bob := by
      unfold State.recordIf
      split <;> rfl
    rw [h]
    exact ⟨rfl, rfl⟩

/-- RAIL_DISCHARGED of a Bobbin that is not FAULT, outside SHUTDOWN. -/
theorem execRailDischarged_off (x : IT) (s : State) (ha : s.power.dev.awake = true) (hd : s.bob.discharging = true)
    (h5 : s.bob.state ≠ 5) (hs : s.power.dev ≠ .shutdown) :
    ∃ t, exec (.railDischarged x) s = .next t ∧ t.bob.discharging = false ∧ t.bob.state = 0 ∧ t.bob.rail < 5000 := by
  refine ⟨(s.at x).modBob (fun b => { b with
    discharging := b.state == 5, rail := min b.rail 4999,
    state := if b.state = 5 ∨ s.power.dev = .shutdown then b.state else 0 }), ?_, by simp [h5], if_neg (by simp [h5, hs]), ?_⟩
  · simp [exec, execRailDischarged, State.whenAwake, ha, hd, hs]
  · exact Nat.lt_succ_of_le (Nat.min_le_right _ _)

/-! ### A spinner's transfer (R299) -/

/-- The start of a spinner's period and its number. -/
def Spinner.ticked (x : Spinner) : Nat × Nat := (x.start, x.m)

@[simp] theorem Spinner.layOut_ticked (x : Spinner) (compl : Bool) : (x.layOut compl).ticked = x.ticked := by
  unfold Spinner.layOut
  extract_lets at0 dt lowOff highOff lowStays highOn idle p y z
  have hy : y.ticked = x.ticked := by
    simp only [y]
    split <;> rfl
  have hz : z.ticked = x.ticked := by
    rw [← hy]
    simp only [z]
    split <;> rfl
  split
  · rfl
  · split
    · rfl
    · split
      · exact hz
      · exact hz

/-- A change of any spinner that keeps the starts and the numbers of periods. -/
theorem State.modSp_ticked (s : State) (j k : Nat) (f : Spinner → Spinner) (hf : ∀ x, (f x).ticked = x.ticked) :
    ((s.modSp j f).sp k).ticked = (s.sp k).ticked := by
  by_cases hj : k = j
  · subst hj
    by_cases hk : k < 16
    · simp [State.modSp, State.sp, vget_vmod_same _ _ _ _ hk, hf]
    · simp [State.modSp, State.sp, vmod, hk]
  · simp [State.modSp, State.sp, vget_vmod_other _ _ _ _ _ (Ne.symm hj)]

theorem State.spinWrite_ticked (s : State) (j k : Nat) (f : SpinSet → SpinSet) :
    ((s.spinWrite j f).sp k).ticked = (s.sp k).ticked := by
  refine State.modSp_ticked _ _ _ _ fun x => ?_
  split <;> rfl

theorem State.writeDuty_ticked (s : State) (d w k : Nat) : ((s.writeDuty d w).sp k).ticked = (s.sp k).ticked := by
  unfold State.writeDuty
  split
  · rfl
  · exact State.spinWrite_ticked _ _ _ _

theorem State.passDuty_ticked (s : State) (h w k : Nat) : ((s.passDuty h w).sp k).ticked = (s.sp k).ticked := by
  unfold State.passDuty
  split
  · exact s.draw.writeDuty_ticked _ _ k
  · exact s.writeDuty_ticked _ _ k

theorem State.bridgeTurn_ticked (s : State) (h j k : Nat) : ((s.bridgeTurn h j).sp k).ticked = (s.sp k).ticked := by
  unfold State.bridgeTurn
  extract_lets b free s1
  split
  · rfl
  · split
    · exact s1.passDuty_ticked _ _ k
    · rfl

theorem State.currentLoop_ticked (s : State) (h j : Nat) (ma : Int) (k : Nat) : ((s.currentLoop h j ma).sp k).ticked = (s.sp k).ticked := by
  unfold State.currentLoop
  extract_lets s1 p aim w w' s2
  exact s1.draw.passDuty_ticked h w' k

/-- What the stage of a bridge does at a transfer moves no spinner's period. -/
theorem State.bridgeTransfer_ticked (s : State) (h j : Nat) (x : StageIn) (k : Nat) :
    ((s.bridgeTransfer h j x).sp k).ticked = (s.sp k).ticked := by
  unfold State.bridgeTransfer
  extract_lets ma s1 lim hot was s2 s3 s4
  have h3 : (s3.sp k).ticked = (s.sp k).ticked := s2.bridgeTurn_ticked h j k
  have h4 : (s4.sp k).ticked = (s.sp k).ticked := by
    rw [← h3]
    simp only [s4]
    (repeat' split) <;> rfl
  rw [← h4]
  split
  · rfl
  · split
    · exact s4.currentLoop_ticked h j ma k
    · split
      · exact s4.passDuty_ticked h _ k
      · rfl

theorem State.spinPeriod_ticked (s : State) (j k : Nat) : ((s.spinPeriod j).sp k).ticked = (s.sp k).ticked := by
  unfold State.spinPeriod
  split
  · exact State.modSp_ticked _ _ _ _ fun x => Spinner.layOut_ticked _ _
  · exact State.modSp_ticked _ _ _ _ fun _ => rfl

/-- The transfer begins the next period where the last one ended. -/
theorem State.spinTransfer_ticked (s : State) (k : Nat) (hk : k < 16) :
    ((s.spinTransfer k).sp k).ticked = ((s.sp k).ends, (s.sp k).m + 1) := by
  unfold State.spinTransfer
  extract_lets b s1 p s2
  refine Eq.trans (State.modSp_ticked s2 k k _ ?_) ?_
  · exact fun _ => rfl
  simp only [s2, State.modSp, State.sp, vget_vmod_same _ _ _ _ hk]
  rfl

/-- SPINNER_TRANSFER of a spinner that runs. -/
theorem execSpinnerTransfer_live (k : Fin 16) (x : StageIn) (s : State) (hl : (s.sp k).live = true) :
    ∃ t, exec (.spinnerTransfer k x) s = .next t ∧ (t.sp k).start = (s.sp k).ends ∧ (t.sp k).m = (s.sp k).m + 1 := by
  show ∃ t, execSpinnerTransfer k x s = .next t ∧ _
  unfold execSpinnerTransfer
  extract_lets s1 dst s2
  rw [if_neg (by simp [hl])]
  have h2 : (s2.sp k).ticked = (s1.sp k).ticked := by
    simp only [s2]
    split
    · exact s1.bridgeTransfer_ticked _ k x k
    · split <;> rfl
  have h : ((s2.spinPeriod k).sp k).ticked = ((s.sp k).ends, (s.sp k).m + 1) :=
    (s2.spinPeriod_ticked k k).trans (h2.trans (s.spinTransfer_ticked k k.isLt))
  exact ⟨_, rfl, congrArg Prod.fst h, congrArg Prod.snd h⟩

end Sys2Proof.Machine

end

section

namespace Sys2Proof.Machine

/-! # Host writes of a loop: its mode, its coefficients and COMMIT-LOOP (R273 to R276) -/

/-! ### COMMIT-LOOP (R274) -/

/-- The descriptor of P 0x3100+w.1D. -/
def commitLoopDesc : Desc := ⟨0x3100, 8, 0x1D, 1, 1, false, 1, 2, 1, 0, 1, 1, 0, 1, 1, 0⟩

theorem isCommand_commitLoop (w : Fin 8) : isCommand (0x3100 + w.val) 0x1D commitLoopDesc := by
  revert w
  unfold isCommand
  decide +kernel

theorem valueFail_commitLoop (w : Fin 8) : valueFail commitLoopDesc (0x3100 + w.val) 0x1D [1] = none := by
  revert w
  decide +kernel

theorem execCommitLoop_accepted (r : Req) (x : Session) (w : Fin 8) (s : State) (h : s.Takes r x) :
    ∃ t, exec (.commitLoop r w) s = .next t ∧ (t.lp w).commit = true ∧ s.Accepted t r := by
  have hw := w.isLt
  have hcmd : (s.served r).writeCommand r.sid x.level (0x3100 + w.val) 0x1D [1] = ((s.served r).commitLoop w, 0) := by
    unfold State.writeCommand
    rw [if_neg (by omega), if_neg (by omega), if_neg (by omega), if_neg (by omega), if_neg (by omega), if_neg (by omega),
      if_pos (by omega), Nat.add_sub_cancel_left]
  obtain ⟨k, n, he, ha, -⟩ := State.hostWrite_effect (ps := [.whorl]) h (isCommand_commitLoop w) (valueFail_commitLoop w)
    (.inr (by omega)) (.inl (by omega)) (by omega) hcmd (State.modLp_mask _ _ _ (by simp)) (by simp)
  refine ⟨_, rfl, ?_, ha⟩
  rw [he]
  exact congrArg Loop.commit (State.modLp_lp_same (s.served r) w _ hw)

/-! ### A mode command (R276) -/

/-- The descriptor of P 0x3100+w.0F. -/
def loopModeDesc : Desc := ⟨0x3100, 8, 0x0F, 9, 1, false, 1, 1, 1, 0, 0, 0, 0x7, 1, 1, 0⟩

theorem loopMode_described (w : Fin 8) : indexInUse (0x3100 + w.val) = true ∧
    findDesc (0x3100 + w.val) 0xF = some loopModeDesc ∧ protectedParam (0x3100 + w.val) 0xF = false := by
  revert w
  decide +kernel

theorem valueFail_loopMode (w : Fin 8) (m : Byte) (hm : m.toNat < 3) : valueFail loopModeDesc (0x3100 + w.val) 0xF [m] = none := by
  have hc : scalarCode 9 0 0 0x7 [m] = 0 := by
    have h : m = 0 ∨ m = 1 ∨ m = 2 := by bv_omega
    rcases h with rfl | rfl | rfl <;> decide
  simp [valueFail, loopModeDesc, hc]

/-- The state in which `v` is stored as the value of P `i`.`sub`. -/
def State.valueStored (s : State) (i sub : Nat) (v : Bytes) : State :=
  s.modDict (fun k => { k with store := aput (pkey i sub) v k.store })

/-- A mode command is stored, and asks its loop for a hand-over (R276). -/
theorem State.storeValue_loopMode (s : State) (w : Fin 8) (was : Bytes) (m : Byte) :
    ((s.beforeWrite (0x3100 + w.val) 0xF).storeValue loopModeDesc (0x3100 + w.val) 0xF [m]).writeEffect (0x3100 + w.val) 0xF was [m] =
      (s.valueStored (0x3100 + w.val) 0xF [m]).modeWritten w ([m] != was) := by
  have hw := w.isLt
  have hb : s.beforeWrite (0x3100 + w.val) 0xF = s := by
    simp only [State.beforeWrite, pkey]
    exact if_neg (by omega)
  have hs : s.storeValue loopModeDesc (0x3100 + w.val) 0xF [m] = s.valueStored (0x3100 + w.val) 0xF [m] := by
    have hf : faultResponseParam (0x3100 + w.val) 0xF = false := by simp [faultResponseParam]
    simp [State.storeValue, loopModeDesc, hf, State.valueStored]
  rw [hb, hs]
  simp only [State.writeEffect, pkey]
  repeat refine (if_neg (by omega)).trans ?_
  rw [if_pos ⟨by omega, by omega, trivial⟩, Nat.add_sub_cancel_left]

theorem execLoopModeCommand_accepted (r : Req) (x : Session) (w : Fin 8) (m : Byte) (s : State) (h : s.Takes r x) (hm : m.toNat < 3)
    (hf : writeFail (s.proposed (pkey (0x3100 + w.val) 0xF) [m]) (pkey (0x3100 + w.val) 0xF) s.strict = 0) :
    ∃ t, exec (.loopModeCommand r w m) s = .next t ∧ alookup (pkey (0x3100 + w.val) 0xF) t.dict.store = some [m] ∧ s.Accepted t r := by
  have hw := w.isLt
  obtain ⟨huse, hd, hprot⟩ := loopMode_described w
  have hcheck : (s.served r).writeCheck x.level (0x3100 + w.val) 0xF [m] = (0, 0) :=
    State.writeCheck_stored h.store (Nat.one_le_iff_ne_zero.mp h.level) h.dev huse (by decide) hd rfl (by decide)
      hprot (valueFail_loopMode w m hm) (.inr (by omega)) (.inl (by omega)) hf
  have hraise : needsRaised (0x3100 + w.val) 0xF [m] s.card.life = false := by
    have h1 : (0x3100 + w.val == 0x4310) = false := beq_eq_false_iff_ne.mpr (by omega)
    simp [needsRaised, hprot]
    omega
  have hy : (((s.served r).valueStored (0x3100 + w.val) 0xF [m]).modeWritten w
      ([m] != (s.served r).imageValue (0x3100 + w.val) 0xF)).session r.sid = some x := (State.served_session r.sid).trans h.known
  obtain ⟨n, he, ha⟩ := State.hostWrite_stored h (by omega) hd (by decide) hraise hcheck
    ((s.served r).storeValue_loopMode w _ m) hy rfl rfl rfl
  refine ⟨_, rfl, ?_, ha⟩
  rw [he]
  exact alookup_aput _ _ _

/-! ### Coefficients (R273 to R275) -/

/-- A region of a loop that does not step takes coefficients at once (R273). -/
theorem State.coefWrite_idle (s : State) (w j : Nat) (cs : List (Nat × F32)) (hw : w < 8) (hs : s.stepping w = false) :
    ((s.coefWrite w j cs).lp w).table = putAll (cs.map (fun p => (j * 200 + p.1, p.2))) (s.lp w).table := by
  unfold State.coefWrite
  extract_lets ks active unstaged
  rw [if_pos (by simp [active, hs]), State.modLp_lp_same _ _ _ hw]

@[simp] theorem State.coefWrite_mask {ps : List Part} (s : State) (w j : Nat) (cs : List (Nat × F32)) (h : [.whorl] ⊆ ps) :
    (s.coefWrite w j cs).mask ps = s.mask ps := by
  unfold State.coefWrite
  extract_lets ks active unstaged
  (repeat' split) <;> simp [h]

/-- The descriptor of a region's table, P 0x3210+8w+j.01. -/
def regionTableDesc : Desc := ⟨0x3210, 64, 0x01, 12, 800, false, 1, 1, 1, 7, (-2139095039), 2139095039, 0, 800, 1, 0⟩

/-- The descriptor of a patch of a region, P 0x3210+8w+j.02. -/
def coefPatchDesc : Desc := ⟨0x3210, 64, 0x02, 12, 804, true, 4, 2, 1, 0, 0, 0, 0, 0, 1, 0⟩

theorem region_described (w j : Fin 8) : indexInUse (0x3210 + 8 * w.val + j.val) = true ∧
    findDesc (0x3210 + 8 * w.val + j.val) 1 = some regionTableDesc ∧ protectedParam (0x3210 + 8 * w.val + j.val) 1 = false ∧
    findDesc (0x3210 + 8 * w.val + j.val) 2 = some coefPatchDesc ∧ protectedParam (0x3210 + 8 * w.val + j.val) 2 = false := by
  revert w j
  decide +kernel

/-- The loop and the region that an index names. -/
theorem region_index (w j : Fin 8) :
    (0x3210 + 8 * w.val + j.val - 0x3210) / 8 = w.val ∧ (0x3210 + 8 * w.val + j.val - 0x3210) % 8 = j.val := by
  have hj := j.isLt
  omega

/-- What a write of a region's table passes, with Carding away from the coefficients. -/
theorem State.writeCheck_regionTable {s : State} {lvl : Nat} {w j : Fin 8} {v : Bytes} (hstore : s.dict.storeBad = false) (hlvl : lvl ≠ 0)
    (hdev : s.power.dev ≠ .boot) (hheld : s.coefHeld = false) (hval : valueFail regionTableDesc (0x3210 + 8 * w.val + j.val) 1 v = none)
    (hfail : writeFail (s.proposed (pkey (0x3210 + 8 * w.val + j.val) 1) v) (pkey (0x3210 + 8 * w.val + j.val) 1) s.strict = 0) :
    s.writeCheck lvl (0x3210 + 8 * w.val + j.val) 1 v = (0, 0) := by
  obtain ⟨huse, hd, hprot, -, -⟩ := region_described w j
  have hw : s.writesServed (0x3210 + 8 * w.val + j.val) 1 = true := by simp [State.writesServed, hdev]
  have hl : s.listMisplaced (0x3210 + 8 * w.val + j.val) 1 = false := by
    have h : ¬ 0x3210 + 8 * w.val + j.val < 0x2038 := by omega
    simp [State.listMisplaced, h]
  simp only [State.writeCheck, State.valueCheck, hstore, huse, hd, hlvl, hprot, hw, hval, hl, hheld, hfail]
  simp [regionTableDesc]

/-- A region's table is stored, and its coefficients written (R273). -/
theorem State.storeValue_regionTable (s : State) (w j : Fin 8) (was v : Bytes) :
    ((s.beforeWrite (0x3210 + 8 * w.val + j.val) 1).storeValue regionTableDesc (0x3210 + 8 * w.val + j.val) 1 v).writeEffect
        (0x3210 + 8 * w.val + j.val) 1 was v =
      (s.valueStored (0x3210 + 8 * w.val + j.val) 1 v).coefWrite w j (tableCoefs v) := by
  have hw := w.isLt
  have hj := j.isLt
  obtain ⟨hdiv, hmod⟩ := region_index w j
  have hb : s.beforeWrite (0x3210 + 8 * w.val + j.val) 1 = s := by
    simp only [State.beforeWrite, pkey]
    exact if_neg (by omega)
  have hs : s.storeValue regionTableDesc (0x3210 + 8 * w.val + j.val) 1 v = s.valueStored (0x3210 + 8 * w.val + j.val) 1 v := by
    have hf : faultResponseParam (0x3210 + 8 * w.val + j.val) 1 = false := by simp [faultResponseParam]
    simp [State.storeValue, regionTableDesc, hf, State.valueStored]
  rw [hb, hs]
  simp only [State.writeEffect, pkey]
  repeat refine (if_neg (by omega)).trans ?_
  rw [if_pos ⟨by omega, by omega⟩, hdiv, hmod]

theorem execRegionTableWrite_idle (r : Req) (x : Session) (w j : Fin 8) (v : Bytes) (s : State) (h : s.Takes r x)
    (hheld : s.coefHeld = false)
    (hval : (findDesc (0x3210 + 8 * w.val + j.val) 1).bind (fun d => valueFail d (0x3210 + 8 * w.val + j.val) 1 v) = none)
    (hf : writeFail (s.proposed (pkey (0x3210 + 8 * w.val + j.val) 1) v) (pkey (0x3210 + 8 * w.val + j.val) 1) s.strict = 0)
    (hs : s.stepping w = false) :
    ∃ t, exec (.regionTableWrite r w j v) s = .next t ∧
      (t.lp w).table = putAll ((tableCoefs v).map (fun p => (j.val * 200 + p.1, p.2))) (s.lp w).table ∧ s.Accepted t r := by
  have hw := w.isLt
  obtain ⟨-, hd, hprot, -, -⟩ := region_described w j
  rw [hd, Option.bind_some] at hval
  have hcheck := State.writeCheck_regionTable (s := s.served r) (lvl := x.level) h.store (Nat.one_le_iff_ne_zero.mp h.level) h.dev hheld hval hf
  have hraise : needsRaised (0x3210 + 8 * w.val + j.val) 1 v s.card.life = false := by
    have h1 : (0x3210 + 8 * w.val + j.val == 0x4310) = false := beq_eq_false_iff_ne.mpr (by omega)
    have h2 : (0x3210 + 8 * w.val + j.val == 0x4200) = false := beq_eq_false_iff_ne.mpr (by omega)
    simp only [needsRaised, hprot, h1, h2]
    simp
  let u := ((s.served r).valueStored (0x3210 + 8 * w.val + j.val) 1 v).coefWrite w j (tableCoefs v)
  have hu : Unchanged [.whorl] ((s.served r).valueStored (0x3210 + 8 * w.val + j.val) 1 v) u := Unchanged.of_mask (by simp [u])
  have hdict : u.dict = ((s.served r).valueStored (0x3210 + 8 * w.val + j.val) 1 v).dict := hu .dict (by simp)
  have hy : u.session r.sid = some x := by
    rw [State.session, show u.nets = _ from hu .nets (by simp)]
    exact (State.served_session r.sid).trans h.known
  obtain ⟨n, he, ha⟩ := State.hostWrite_stored h (by omega) hd (by decide) hraise hcheck
    ((s.served r).storeValue_regionTable w j _ v) hy (hu .it (by simp)) (by rw [hdict]; rfl) (by rw [hdict]; rfl)
  refine ⟨_, rfl, ?_, ha⟩
  rw [he]
  exact State.coefWrite_idle ((s.served r).valueStored _ 1 v) w j (tableCoefs v) hw hs

theorem execCoefficientPatch_idle (r : Req) (x : Session) (w j : Fin 8) (v : Bytes) (s : State) (h : s.Takes r x)
    (hheld : s.coefHeld = false)
    (hval : (findDesc (0x3210 + 8 * w.val + j.val) 2).bind (fun d => valueFail d (0x3210 + 8 * w.val + j.val) 2 v) = none)
    (hs : s.stepping w = false) :
    ∃ t, exec (.coefficientPatch r w j v) s = .next t ∧
      (t.lp w).table = putAll ((patchCoefs v).map (fun p => (j.val * 200 + p.1, p.2))) (s.lp w).table ∧ s.Accepted t r := by
  have hw := w.isLt
  have hj := j.isLt
  obtain ⟨huse, -, -, hd, hprot⟩ := region_described w j
  obtain ⟨hdiv, hmod⟩ := region_index w j
  rw [hd, Option.bind_some] at hval
  let p := (s.served r).coefWrite w j (patchCoefs v)
  let u := p.valueStored (0x3210 + 8 * w.val + j.val) 1 (patchInto (p.dict.inUse (0x3210 + 8 * w.val + j.val) 1) v)
  have hcmd : (s.served r).writeCommand r.sid x.level (0x3210 + 8 * w.val + j.val) 2 v = (u, 0) := by
    unfold State.writeCommand
    repeat refine (if_neg (by omega)).trans ?_
    rw [if_pos (by omega), hdiv, hmod]
    rfl
  have hp : Unchanged [.whorl] (s.served r) p := Unchanged.of_mask (by simp [p])
  have hdict : p.dict = (s.served r).dict := hp .dict (by simp)
  have hacc : p.dict.accepted = s.dict.accepted := by rw [hdict]; rfl
  have href : p.dict.refused = s.dict.refused := by rw [hdict]; rfl
  have hy : u.session r.sid = some x := by
    rw [State.session, show u.nets = (s.served r).nets from hp .nets (by simp)]
    exact (State.served_session r.sid).trans h.known
  obtain ⟨n, he, ha, -⟩ := State.hostWrite_accepted h huse (by decide) hd rfl rfl hprot hval (.inr (by omega)) (.inr (.inr hheld)) (by omega)
    hcmd hy (hp .it (by simp)) hacc href
  refine ⟨_, rfl, ?_, ha⟩
  rw [he]
  exact State.coefWrite_idle (s.served r) w j (patchCoefs v) hw hs

end Sys2Proof.Machine

end

section

namespace Sys2Proof.Machine

/-! # The commands of channels, banks, dies, Bobbin, loops and spinners complete -/

/-- The end of a decay is noted at its time. -/
theorem execDecayEnd_it (n : Fin 128) (x : IT) (cl : Closing) (s : State) (hd : (s.ch n).decaying = some cl) :
    ∃ t, exec (.decayEnd n x) s = .next t ∧ t.it = max s.it x :=
  ⟨_, by simp only [exec, execDecayEnd, hd]; rfl, State.setCommon_it _ _⟩

/-- The end of a decay leaves its channel off, at its time. -/
theorem execDecayEnd_off (n : Fin 128) (x : IT) (cl : Closing) (s : State) (hd : (s.ch n).decaying = some cl) :
    ∃ t, exec (.decayEnd n x) s = .next t ∧ (t.ch n).state = 0 ∧ t.it = max s.it x := by
  obtain ⟨t, he, hst, -⟩ := execDecayEnd_decaying n x cl s hd
  obtain ⟨u, hu, hit⟩ := execDecayEnd_it n x cl s hd
  cases he.symm.trans hu
  exact ⟨t, he, hst, hit⟩

/-- A closing edge closes its channel, with its own command. -/
theorem execClosingCommand_closes (n : Fin 128) (e : DieEdge) (s : State) (he : (s.ch n).nextClose = some e)
    (hs : (s.ch n).state = 1 ∨ (s.ch n).state = 2) :
    ∃ t, exec (.closingCommand n) s = .next t ∧ (t.ch n).state = 3 ∧ (t.ch n).closings.getLast?.map (·.cmd) = some e.it := by
  obtain ⟨t, ht, hst, -, -, hcl, -⟩ := execClosingCommand_driven n e s he hs
  have h := congrArg (Option.map Prod.fst) hcl
  rw [Option.map_map] at h
  exact ⟨t, ht, hst, h⟩

/-- KINK_WINDOW_OPEN leaves its closing observed where a converter is free. -/
theorem execKinkWindowOpen_observed (n : Fin 128) (cl : Closing) (s : State) (hf : (s.ch n).closings.find? (·.waits) = some cl)
    (hk : cl.kink = none) (hd : s.windowsDue (n.val / 32) cl.opensAt n = [(n.val, cl)]) :
    ∃ t, exec (.kinkWindowOpen n) s = .next t ∧ t.it = max s.it cl.opensAt ∧
      (t.ch n).lastUnobs = decide (4 ≤ s.convUsed (n.val / 32) cl.opensAt) := by
  obtain ⟨t, ht, hit, hfree, hfull, -⟩ := execKinkWindowOpen_first n cl s hf hk hd
  refine ⟨t, ht, hit, ?_⟩
  by_cases hu : s.convUsed (n.val / 32) cl.opensAt < 4
  · rw [(hfree hu).1, decide_eq_false (Nat.not_le.mpr hu)]
  · rw [(hfull (Nat.not_lt.mp hu)).1, decide_eq_true (Nat.not_lt.mp hu)]

/-- Settles O56: each command by the theorem about it, from which the state it leaves is read off. -/
theorem completesBanks : Obligations.CompletesBanks := by
  refine ⟨fun n rv sv e s he h1 h2 hen hr => ?_, fun n x s h1 hr => ?_, fun n ma s h1 => ?_, execClosingCommand_closes,
    execDecayEnd_off, execKinkWindowOpen_observed, fun n l cl i s hf hi => ?_, fun n cl s hf hk => ?_, fun n x s hs hm ht => ?_,
    fun b x s ho hm => ?_, fun b x s ht => ?_, fun n c s hc h1 h2 => ?_, fun b x s ha hc => ?_, fun d c x s hd => ?_,
    fun d x s hd => ?_, fun r x n s h => ?_, fun r x b s h => ?_, fun x s ha hr => ?_, execRailHighClear_awake, execRailFault_watched,
    execSupplyHigh_awake, execSupplyHighClear_awake, execPrechargeComplete_precharging, execRailDischarged_off,
    fun w x s hd hon => ?_, execLoopModeCommand_accepted, execRegionTableWrite_idle, execCoefficientPatch_idle,
    execCommitLoop_accepted, execSpinnerTransfer_live⟩
  · obtain ⟨t, ht, hst, hstart, -⟩ := execPullInStart_begins n rv sv e s he h1 h2 hen hr
    exact ⟨t, ht, hst, hstart⟩
  · obtain ⟨t, ht, hreach, -⟩ := execPeakReached_first n x s h1 hr
    exact ⟨t, ht, hreach⟩
  · obtain ⟨t, ht, hst, hit, -⟩ := execPullInWindowEnd_pulling n ma s h1
    exact ⟨t, ht, hst, hit⟩
  · obtain ⟨t, ht, -, hmiss, -, hkink, -⟩ := execKinkFound_kink n l cl i s hf hi
    exact ⟨t, ht, hkink, hmiss⟩
  · obtain ⟨t, ht, hcl, hmiss, -⟩ := execKinkWindowClose_missed n cl s hf hk
    exact ⟨t, ht, hmiss, hcl⟩
  · obtain ⟨t, he, hst, hcount, -⟩ := execChannelOverCurrent_above n x s hs hm ht
    exact ⟨t, he, hst, hcount⟩
  · obtain ⟨t, he, htill, -, -, -, -, hch, -⟩ := execBankOverCurrent_above b x s ho hm
    exact ⟨t, he, htill, hch⟩
  · obtain ⟨t, he, hit, htill, -⟩ := execBankRetryExpiry_tripped b x s ht
    exact ⟨t, he, htill, hit⟩
  · obtain ⟨t, he, -, hch, hbank, -⟩ := execChannelStuckOn_undriven n c s hc h1 h2
    exact ⟨t, he, hch, hbank⟩
  · obtain ⟨t, he, hf, -⟩ := switchFault b x s ha hc
    exact ⟨t, he, hf⟩
  · obtain ⟨t, he, hst, hlast, hres, -⟩ := execEdgeWordError_running d c x s hd
    exact ⟨t, he, hst, hlast, hres⟩
  · obtain ⟨t, he, hst, -, hch, -⟩ := execDieRestartDone_resetting d x s hd
    exact ⟨t, he, hst, fun n hn => (hch n hn).1⟩
  · obtain ⟨t, he, hch, -, ha, -⟩ := execClearChannelLatch_accepted r x n s h
    exact ⟨t, he, by rw [hch], by rw [hch], ha⟩
  · obtain ⟨t, he, hlatch, htrips, -, -, -, ha, -⟩ := execClearBankLatch_accepted r x b s h
    exact ⟨t, he, hlatch, htrips, ha⟩
  · obtain ⟨t, he, hb⟩ := execRailHigh_rises x s ha hr
    exact ⟨t, he, by rw [hb]⟩
  · obtain ⟨t, he, hit, hlast, -⟩ := execLoopStep_inUse w x s hd hon
    exact ⟨t, he, hit, hlast⟩

end Sys2Proof.Machine

end

section

namespace Sys2Proof.Machine

/-! # The rail, in full: its thresholds, its faults, its precharge and its discharge (R250, R251, R255) -/

/-- A command answers with one state, which has all that is known of it. -/
theorem next_and {o : Host.Outcome State Fault Refusal} {p q : State → Prop} (hp : ∃ t, o = .next t ∧ p t) (hq : ∃ t, o = .next t ∧ q t) :
    ∃ t, o = .next t ∧ p t ∧ q t := by
  obtain ⟨t, ht, hpt⟩ := hp
  obtain ⟨u, hu, hqu⟩ := hq
  cases ht.symm.trans hu
  exact ⟨t, ht, hpt, hqu⟩

/-- An event of an awake module moves what its effect moves. -/
theorem State.whenAwake_mask {ps : List Part} (s : State) (f : State → State) (hf : (f s).mask ps = s.mask ps) :
    (s.whenAwake f).mask ps = s.mask ps := by
  unfold State.whenAwake
  split
  · exact hf
  · rfl

/-! ### RAIL-HIGH and SUPPLY-HIGH (R251) -/

/-- A closing that decays as the rail rises moves its channel and the counters of its bank. -/
@[simp] theorem State.railHighCh_mask {ps : List Part} (s : State) (n : Nat) (h : [.chan, .banks] ⊆ ps) :
    (s.railHighCh n).mask ps = s.mask ps := by
  simp at h
  unfold State.railHighCh
  split
  · rfl
  · extract_lets s1
    have h1 : s1.mask ps = s.mask ps := by simp [s1, h]
    split <;> simp [h1, h]

theorem execRailHigh_unchanged (x : IT) (s : State) :
    ∃ t, exec (.railHigh x) s = .next t ∧ Unchanged [.it, .chan, .banks, .bob] s t := by
  refine ⟨_, rfl, Unchanged.of_mask (State.whenAwake_mask _ _ ?_)⟩
  split
  · rfl
  · simp

/-- An event that moves Bobbin alone, where the module is awake. -/
theorem State.whenAwake_modBob_unchanged (s : State) (x : IT) (f : Bobbin → Bobbin) :
    Unchanged [.it, .bob] s (s.whenAwake fun s => (s.at x).modBob f) :=
  Unchanged.of_mask (State.whenAwake_mask _ _ (by simp))

/-! ### A rail fault (R251, R255) -/

/-- What a rail fault reports depends on no part that it moves. -/
theorem State.faultNow_rail {s t : State} (h : t.power.dev = s.power.dev) (subj : Nat) (y : IT) :
    t.faultNow 0xE009 subj [] y = s.faultNow 0xE009 subj [] y := by
  simp [State.faultNow, State.faultResponse, h]

/-- RAIL_FAULT of a cause that is watched in the state that holds: under-voltage in RUN and BARE alone. -/
theorem execRailFault_reports (c : RailCause) (x : IT) (s : State) (ha : s.power.dev.awake = true)
    (hc : c = .underVoltage → s.power.dev = .run ∨ s.power.dev = .bare) :
    ∃ t, exec (.railFault c x) s = .next t ∧ t.bob.state = (if s.bobbinEnabled then 5 else s.bob.state) ∧ t.bob.cause = railCauseCode c ∧
      t.bob.ret = false ∧ t.sup.reported = s.sup.reported ++ [s.faultNow 0xE009 (railCauseCode c) [] (max s.it x)] ∧
      Unchanged [.it, .bob, .sup] s t := by
  refine ⟨((s.at x).modBob (fun b => { b with
    state := if s.bobbinEnabled then 5 else b.state, ret := false, limited := false, cause := railCauseCode c })).report 0xE009
      (railCauseCode c) [], ?_, rfl, rfl, rfl, ?_, Unchanged.of_mask (by simp)⟩
  · have hw : ¬ (c = .underVoltage ∧ s.power.dev ≠ .run ∧ s.power.dev ≠ .bare) := fun ⟨hu, hr, hb⟩ => (hc hu).elim hr hb
    exact congrArg Host.Outcome.next ((State.whenAwake_awake ha _).trans (if_neg hw))
  · exact congrArg (fun r => s.sup.reported ++ [r]) (State.faultNow_rail rfl _ _)

/-! ### The precharge (R250, R255) -/

/-- The state in which the rail stands at its set point. -/
def State.precharged (s : State) (x : IT) : State := (s.at x).modBob (fun b => { b with state := 2, target := s.pN 0x3090 2 })

/-- Whether a measured capacitance of `c` µF lies more than 30 % from the declared one. -/
def State.capDiffers (s : State) (c : Nat) : Bool :=
  decide (10 * (470 + s.pN 0x3090 3) * 3 < 100 * ((c : Int) - (470 + s.pN 0x3090 3 : Nat)).natAbs)

theorem State.capDiffers_iff (s : State) (c : Nat) :
    s.capDiffers c = true ↔ 3 * (10 * (470 + s.pN 0x3090 3)) < 100 * ((c : Int) - ((470 + s.pN 0x3090 3 : Nat) : Int)).natAbs := by
  rw [State.capDiffers, decide_eq_true_iff, Nat.mul_comm 3]

/-- PRECHARGE_COMPLETE after less than 10 V measures nothing. -/
theorem execPrechargeComplete_short (x : IT) (q mv : Nat) (s : State) (hp : s.bob.state = 1) (hm : mv < 10000) :
    exec (.prechargeComplete x q mv) s = .next (s.precharged x) :=
  congrArg Host.Outcome.next ((if_neg (not_not.mpr hp)).trans (if_pos hm))

/-- PRECHARGE_COMPLETE after 10 V or more measures the capacitance, and records where it differs. -/
theorem execPrechargeComplete_measures (x : IT) (q mv : Nat) (s : State) (hp : s.bob.state = 1) (hm : 10000 ≤ mv) :
    exec (.prechargeComplete x q mv) s = .next (((s.precharged x).modBob (fun b =>
      { b with capUf := some (q * 1000 / mv), mismatch := s.capDiffers (q * 1000 / mv) })).recordIf
        (s.capDiffers (q * 1000 / mv)) 0x7001 0 []) :=
  congrArg Host.Outcome.next ((if_neg (not_not.mpr hp)).trans (if_neg (Nat.not_lt.mpr hm)))

@[simp] theorem State.recordIf_bob (s : State) (c : Bool) (code subj : Nat) (det : Bytes) : (s.recordIf c code subj det).bob = s.bob := by
  cases c <;> rfl

theorem State.recordIf_arriving (s : State) (c : Bool) (code subj : Nat) (det : Bytes) :
    (s.recordIf c code subj det).skein.arriving =
      s.skein.arriving ++ (if c then [⟨code, s.it, s.time.boot, subj, det⟩] else []) := by
  cases c
  · exact (List.append_nil _).symm
  · rfl

/-- PRECHARGE_COMPLETE of a rail that precharges, with or without a measurement. -/
theorem execPrechargeComplete_regulates (x : IT) (q mv : Nat) (s : State) (hp : s.bob.state = 1) :
    ∃ t, exec (.prechargeComplete x q mv) s = .next t ∧ t.bob.state = 2 ∧ t.bob.target = s.pN 0x3090 2 ∧
      (mv < 10000 → t.bob.capUf = s.bob.capUf ∧ t.skein = s.skein) ∧
      (10000 ≤ mv → t.bob.capUf = some (q * 1000 / mv) ∧
        (t.bob.mismatch = true ↔ 3 * (10 * (470 + s.pN 0x3090 3)) <
          100 * (((q * 1000 / mv : Nat) : Int) - ((470 + s.pN 0x3090 3 : Nat) : Int)).natAbs) ∧
        t.skein.arriving = s.skein.arriving ++
          (if t.bob.mismatch then [⟨0x7001, max s.it x, s.time.boot, 0, []⟩] else [])) ∧
      Unchanged [.it, .bob, .skein] s t := by
  rcases Nat.lt_or_ge mv 10000 with hm | hm
  · exact ⟨_, execPrechargeComplete_short x q mv s hp hm, rfl, rfl, fun _ => ⟨rfl, rfl⟩, fun h => absurd h (Nat.not_le.mpr hm),
      Unchanged.of_mask (by simp [State.precharged])⟩
  · refine ⟨_, execPrechargeComplete_measures x q mv s hp hm, ?_⟩
    rw [State.recordIf_bob, State.recordIf_arriving]
    exact ⟨rfl, rfl, fun h => absurd h (Nat.not_lt.mpr hm), fun _ => ⟨rfl, s.capDiffers_iff _, rfl⟩,
      Unchanged.of_mask (by simp [State.precharged])⟩

/-! ### The discharge (R255) -/

/-- RAIL_DISCHARGED ends a discharge of a Bobbin that is not FAULT, where SHUTDOWN does not end with it. -/
theorem execRailDischarged_ends (x : IT) (s : State) (ha : s.power.dev.awake = true) (hd : s.bob.discharging = true)
    (h5 : s.bob.state ≠ 5) (hs : ¬ (s.power.dev = .shutdown ∧ 5 ≤ s.power.stage)) :
    ∃ t, exec (.railDischarged x) s = .next t ∧
      t.bob = { s.bob with discharging := false, rail := min s.bob.rail 4999,
                           state := if s.power.dev = .shutdown then s.bob.state else 0 } ∧ Unchanged [.it, .bob] s t := by
  refine ⟨(s.at x).modBob (fun b => { b with
    discharging := b.state == 5, rail := min b.rail 4999,
    state := if b.state = 5 ∨ s.power.dev = .shutdown then b.state else 0 }), ?_, ?_, Unchanged.of_mask (by simp)⟩
  · have hd' : ¬ (!s.bob.discharging) = true := by simp [hd]
    exact congrArg Host.Outcome.next ((State.whenAwake_awake ha _).trans ((if_neg hd').trans (if_neg hs)))
  · simp [State.modBob, h5]

/-- Settles O15: RAIL-HIGH, SUPPLY-HIGH, a rail fault, the precharge, and the end of a discharge outside SHUTDOWN and in it. -/
theorem railState : Obligations.RailState := by
  refine ⟨fun x s ha hr => next_and (execRailHigh_rises x s ha hr) (execRailHigh_unchanged x s), fun x s ha => ⟨?_, ?_, ?_⟩,
    execRailFault_reports, execPrechargeComplete_regulates, fun x s ha hd h5 => ⟨fun hs => ?_, fun hs h => ?_⟩⟩
  · exact next_and (execRailHighClear_awake x s ha) ⟨_, rfl, s.whenAwake_modBob_unchanged x _⟩
  · exact next_and (execSupplyHigh_awake x s ha) ⟨_, rfl, s.whenAwake_modBob_unchanged x _⟩
  · exact next_and (execSupplyHighClear_awake x s ha) ⟨_, rfl, s.whenAwake_modBob_unchanged x _⟩
  · obtain ⟨t, ht, hb, hk⟩ := execRailDischarged_ends x s ha hd h5 fun h => hs h.1
    exact ⟨t, ht, by rw [hb, if_neg hs], hk⟩
  · obtain ⟨t, ht, hb, hk⟩ := execRailDischarged_ends x s ha hd h5 fun h5' => Nat.not_le.mpr h h5'.2
    exact ⟨t, ht, by rw [hb, if_pos hs], hk⟩

end Sys2Proof.Machine

end

section

namespace Sys2Proof.Machine

/-! # A loop's step, in full (R259, R260, R282, R283) -/

variable {ps : List Part}

/-! ### Measurements and references (R264 to R268) -/

@[simp] theorem State.shunts_mask (s : State) (w : Nat) (x : LoopIn) (h : [.whorl] ⊆ ps) : (s.shunts w x).mask ps = s.mask ps := by
  simp at h
  simp [State.shunts, h]

@[simp] theorem State.latch_mask (s : State) (w : Nat) (x : LoopIn) (h : [.whorl] ⊆ ps) : (s.latch w x).mask ps = s.mask ps := by
  simp at h
  simp [State.latch, h]

@[simp] theorem State.noticeRef_mask (s : State) (w : Nat) (g : F32) (o : Option F32) (h : [.whorl] ⊆ ps) :
    (s.noticeRef w g o).mask ps = s.mask ps := State.modLp_mask _ _ _ h

@[simp] theorem State.references_mask (s : State) (w : Nat) (start idle : Bool) (h : [.whorl] ⊆ ps) :
    (s.references w start idle).mask ps = s.mask ps := by
  simp at h
  simp [State.references, h]

/-! ### Regions and the control law (R261, R270 to R272) -/

@[simp] theorem State.limitNotice_mask (s : State) (w : Nat) (h : [.whorl] ⊆ ps) : (s.limitNotice w).mask ps = s.mask ps :=
  State.modLp_mask _ _ _ h

@[simp] theorem State.reinit_mask (s : State) (w j : Nat) (u : Vector F32 4) (h : [.whorl] ⊆ ps) :
    (s.reinit w j u).mask ps = s.mask ps := State.modLp_mask _ _ _ h

@[simp] theorem State.regionChange_mask (s : State) (w j : Nat) (h : [.whorl] ⊆ ps) : (s.regionChange w j).mask ps = s.mask ps := by
  simp at h
  simp [State.regionChange, h]

@[simp] theorem State.takeCommit_mask (s : State) (w : Nat) (h : [.whorl] ⊆ ps) : (s.takeCommit w).mask ps = s.mask ps := by
  simp at h
  simp [State.takeCommit, h]

@[simp] theorem State.stepRegion_mask (s : State) (w : Nat) (h : [.whorl] ⊆ ps) : (s.stepRegion w).mask ps = s.mask ps := by
  simp at h
  simp [State.stepRegion, h]

@[simp] theorem State.correct_mask (s : State) (w j : Nat) (h : [.whorl] ⊆ ps) : (s.correct w j).mask ps = s.mask ps :=
  State.modLp_mask _ _ _ h

@[simp] theorem State.filter_mask (s : State) (w j : Nat) (h : [.whorl] ⊆ ps) : (s.filter w j).mask ps = s.mask ps :=
  State.modLp_mask _ _ _ h

@[simp] theorem State.integrate_mask (s : State) (w j : Nat) (h : [.whorl] ⊆ ps) : (s.integrate w j).mask ps = s.mask ps :=
  State.modLp_mask _ _ _ h

@[simp] theorem State.predictLp_mask (s : State) (w j : Nat) (h : [.whorl] ⊆ ps) : (s.predictLp w j).mask ps = s.mask ps :=
  State.modLp_mask _ _ _ h

@[simp] theorem State.blendOut_mask (s : State) (w : Nat) (u : Vector F32 4) (h : [.whorl] ⊆ ps) :
    (s.blendOut w u).1.mask ps = s.mask ps := by
  unfold State.blendOut
  split
  · rfl
  · extract_lets t d k
    split
    · exact State.modLp_mask _ _ _ h
    · rfl

@[simp] theorem State.startBlend_mask (s : State) (w : Nat) (a b : Vector F32 4) (h : [.whorl] ⊆ ps) :
    (s.startBlend w a b).mask ps = s.mask ps := by
  simp at h
  simp [State.startBlend, h]

@[simp] theorem State.enterRegion_mask (s : State) (w j : Nat) (idle : Bool) (h : [.whorl] ⊆ ps) :
    (s.enterRegion w j idle).mask ps = s.mask ps := State.modLp_mask _ _ _ h

/-! ### The destinations and the step (R260, R264, R276 to R283) -/

@[simp] theorem State.applyOut_mask (s : State) (w : Nat) (u : Vector F32 4)
    (h : [.whorl, .spin, .bridges, .ports, .loads, .budget, .skein, .freeCtr] ⊆ ps) : (s.applyOut w u).mask ps = s.mask ps := by
  simp at h
  simp [State.applyOut, h]

@[simp] theorem State.finishAuto_mask (s : State) (w j : Nat) (u : Vector F32 4)
    (h : [.whorl, .spin, .bridges, .ports, .loads, .budget, .skein, .freeCtr] ⊆ ps) : (s.finishAuto w j u).mask ps = s.mask ps := by
  simp at h
  simp [State.finishAuto, h]

@[simp] theorem State.finishManual_mask (s : State) (w j : Nat)
    (h : [.whorl, .spin, .bridges, .ports, .loads, .budget, .skein, .freeCtr] ⊆ ps) : (s.finishManual w j).mask ps = s.mask ps := by
  simp at h
  simp [State.finishManual, h]

@[simp] theorem State.handOverStep_mask (s : State) (w m : Nat) (idle : Bool)
    (h : [.whorl, .spin, .bridges, .ports, .loads, .budget, .skein, .freeCtr] ⊆ ps) : (s.handOverStep w m idle).mask ps = s.mask ps := by
  simp at h
  simp [State.handOverStep, h]

@[simp] theorem State.plainStep_mask (s : State) (w : Nat)
    (h : [.whorl, .spin, .bridges, .ports, .loads, .budget, .skein, .freeCtr] ⊆ ps) : (s.plainStep w).mask ps = s.mask ps := by
  simp at h
  simp [State.plainStep, h]

@[simp] theorem State.faultStep_mask (s : State) (w : Nat)
    (h : [.whorl, .spin, .bridges, .ports, .loads, .budget, .skein, .freeCtr] ⊆ ps) : (s.faultStep w).mask ps = s.mask ps := by
  simp at h
  simp [State.faultStep, h]

@[simp] theorem State.inputFault_mask (s : State) (w : Nat)
    (h : [.whorl, .spin, .bridges, .ports, .loads, .budget, .skein, .sup, .freeCtr] ⊆ ps) : (s.inputFault w).mask ps = s.mask ps := by
  simp at h
  simp [State.inputFault, h]

@[simp] theorem State.lateStep_mask (s : State) (w : Nat) (late : Bool) (h : [.whorl, .skein] ⊆ ps) :
    (s.lateStep w late).mask ps = s.mask ps := by
  simp at h
  simp [State.lateStep, h]

@[simp] theorem State.loopStep_mask (s : State) (w : Nat) (x : LoopIn)
    (h : [.it, .whorl, .spin, .bridges, .ports, .loads, .budget, .skein, .sup, .freeCtr] ⊆ ps) :
    (s.loopStep w x).mask ps = s.mask ps := by
  simp at h
  simp [State.loopStep, h]

/-- Settles O16: the instant, the late count and the other loops, and what the steps of a loop move. -/
theorem loopSteps : Obligations.LoopSteps := by
  intro w x s hd hon
  obtain ⟨t, ht, hit, hlast, hlate, hother⟩ := execLoopStep_inUse w x s hd hon
  refine ⟨t, ht, hit, hlast, hlate, hother, ?_⟩
  have hstep : exec (.loopStep w x) s = .next (s.loopStep w x) := congrArg Host.Outcome.next (if_pos ⟨hd, hon⟩)
  cases hstep.symm.trans ht
  exact Unchanged.of_mask (State.loopStep_mask s w x (List.Subset.refl _))

end Sys2Proof.Machine

end

section

namespace Sys2Proof.Machine

/-! # Host writes of a loop, in full: its mode, its coefficients in use or not, COMMIT-LOOP (R273 to R276) -/

theorem alookup_aput_other {α : Type} {j k : Nat} (h : j ≠ k) (v : α) (l : List (Nat × α)) :
    alookup j (aput k v l) = alookup j l := by
  refine (if_neg h.symm).trans ?_
  induction l with
  | nil => rfl
  | cons p l ih =>
    by_cases hp : p.1 = k
    · rw [List.filter_cons_of_neg (by simp [hp]), ih]
      exact (if_neg (hp ▸ h.symm)).symm
    · rw [List.filter_cons_of_pos (by simpa using hp)]
      simp only [alookup, ih]

/-- A stored value is not seen in another parameter, where it is not the system voltage, which some defaults follow. -/
theorem State.valueStored_pN (s : State) {i sub j k : Nat} (v : Bytes) (h : pkey j k ≠ pkey i sub) (hsys : pkey 0x1402 1 ≠ pkey i sub) :
    (s.valueStored i sub v).pN j k = s.pN j k := by
  simp [State.valueStored, State.modDict, State.pN, Dict.inUse, alookup_aput_other h, alookup_aput_other hsys]

theorem State.lp_of_whorl {s t : State} (h : t.whorl = s.whorl) (w : Nat) : t.lp w = s.lp w := by
  rw [State.lp, State.lp, h]

/-! ### What a host's write leaves alone -/

section

variable {s u : State} {r : Req} {x : Session}

/-- A write whose effect stays in Whorl and the dictionary, with its answer. -/
theorem State.answered_unchanged (hu : Unchanged [.whorl, .dict] (s.served r) u) (k : Dict) (n : Nets) :
    Unchanged [.it, .whorl, .dict, .nets] s { u with dict := k, nets := n } := by
  have hs : Unchanged [.it, .nets] s (s.served r) := Unchanged.of_mask (State.served_mask s r (by simp))
  have hr : Unchanged [.dict, .nets] u { u with dict := k, nets := n } := Unchanged.of_mask (mask_set_dict_nets u k n (by simp))
  exact ((hs.mono (by simp)).trans (hu.mono (by simp))).trans (hr.mono (by simp))

/-- A stored parameter of a loop that passes the checks: its value is stored, and `u` says what becomes of the loops. -/
theorem State.hostWrite_loopValue {i sub : Nat} {v : Bytes} {d : Desc} (h : s.Takes r x) (hi : 0x3100 ≤ i ∧ i < 0x3250)
    (hd : findDesc i sub = some d) (hacc : d.acc ≠ 2) (hprot : protectedParam i sub = false)
    (hcheck : (s.served r).writeCheck x.level i sub v = (0, 0))
    (heff : (((s.served r).beforeWrite i sub).storeValue d i sub v).writeEffect i sub ((s.served r).imageValue i sub) v = u)
    (hu : Unchanged [.whorl] ((s.served r).valueStored i sub v) u) :
    (s.hostWrite r i sub v).whorl = u.whorl ∧ alookup (pkey i sub) (s.hostWrite r i sub v).dict.store = some v ∧
      s.Accepted (s.hostWrite r i sub v) r ∧ Unchanged [.it, .whorl, .dict, .nets] s (s.hostWrite r i sub v) := by
  have hraise : needsRaised i sub v s.card.life = false := by
    have h1 : (i == 0x4310) = false := beq_eq_false_iff_ne.mpr (by omega)
    simp [needsRaised, hprot, h1]
    omega
  have hdict : u.dict = ((s.served r).valueStored i sub v).dict := hu .dict (by simp)
  have hy : u.session r.sid = some x := by
    rw [State.session, show u.nets = _ from hu .nets (by simp)]
    exact (State.served_session r.sid).trans h.known
  have hstored : Unchanged [.dict] (s.served r) ((s.served r).valueStored i sub v) :=
    Unchanged.of_mask (State.modDict_mask _ _ (by simp))
  obtain ⟨n, he, ha⟩ := State.hostWrite_stored h (by omega) hd hacc hraise hcheck heff hy (hu .it (by simp))
    (by rw [hdict]; rfl) (by rw [hdict]; rfl)
  refine ⟨by rw [he], ?_, ha, ?_⟩
  all_goals rw [he]
  · exact (congrArg (fun k => alookup (pkey i sub) k.store) hdict).trans (alookup_aput _ _ _)
  · exact State.answered_unchanged ((hstored.mono (by simp)).trans (hu.mono (by simp))) _ _

end

/-! ### The mode command (R276) -/

theorem execLoopModeCommand_writes (r : Req) (x : Session) (w : Fin 8) (m : Byte) (s : State) (h : s.Takes r x) (hm : m.toNat < 3)
    (hf : writeFail (s.proposed (pkey (0x3100 + w.val) 0xF) [m]) (pkey (0x3100 + w.val) 0xF) s.strict = 0) :
    ∃ t, exec (.loopModeCommand r w m) s = .next t ∧ alookup (pkey (0x3100 + w.val) 0xF) t.dict.store = some [m] ∧
      t.lp w = { s.lp w with
        handOver := (s.lp w).handOver || ([m] != s.imageValue (0x3100 + w.val) 0xF),
        leaving := (s.lp w).leaving || (s.lp w).state == 7 } ∧
      (∀ v, v ≠ w.val → t.lp v = s.lp v) ∧ s.Accepted t r ∧ Unchanged [.it, .whorl, .dict, .nets] s t := by
  have hw := w.isLt
  obtain ⟨huse, hd, hprot⟩ := loopMode_described w
  have hcheck : (s.served r).writeCheck x.level (0x3100 + w.val) 0xF [m] = (0, 0) :=
    State.writeCheck_stored h.store (Nat.one_le_iff_ne_zero.mp h.level) h.dev huse (by decide) hd rfl (by decide)
      hprot (valueFail_loopMode w m hm) (.inr (by omega)) (.inl (by omega)) hf
  obtain ⟨hwhorl, hstore, ha, hu⟩ := State.hostWrite_loopValue h (by omega) hd (by decide) hprot hcheck
    ((s.served r).storeValue_loopMode w _ m) (Unchanged.of_mask (State.modLp_mask _ _ _ (by simp)))
  exact ⟨_, rfl, hstore, (State.lp_of_whorl hwhorl w).trans (State.modLp_lp_same (s.served r) w _ hw),
    fun v hv => (State.lp_of_whorl hwhorl v).trans (State.modLp_lp_other (s.served r) w _ v hv), ha, hu⟩

/-! ### Coefficients (R273 to R275) -/

/-- Coefficients written see of the state the loops, its device state and whether the loop takes live coefficients. -/
theorem State.coefWrite_whorl (s t : State) (w : Nat) (hwhorl : t.whorl = s.whorl) (hpower : t.power = s.power)
    (hlive : t.pN (0x3100 + w) 0x18 = s.pN (0x3100 + w) 0x18) (j : Nat) (cs : List (Nat × F32)) :
    (t.coefWrite w j cs).whorl = (s.coefWrite w j cs).whorl := by
  have hlp : t.lp w = s.lp w := State.lp_of_whorl hwhorl w
  have hs : t.stepping w = s.stepping w := by simp only [State.stepping, hlp, hpower]
  unfold State.coefWrite
  simp only [hlp, hs, hlive]
  split_ifs <;> simp only [State.modLp, hwhorl]

section

variable (s : State) {w : Nat} (j : Nat) (cs : List (Nat × F32))

/-- A region that is not in use, or a loop that does not step, takes coefficients at once (R273). -/
theorem State.coefWrite_unused (hw : w < 8) (h : ¬ (s.stepping w = true ∧ (s.lp w).region = j)) :
    ((s.coefWrite w j cs).lp w).table = putAll (cs.map (fun p => (j * 200 + p.1, p.2))) (s.lp w).table := by
  unfold State.coefWrite
  extract_lets ks active unstaged
  have ha : (!active) = true := by simpa [active, or_iff_not_imp_left] using h
  rw [if_pos ha, State.modLp_lp_same _ _ _ hw]

/-- The region in use stages them where the loop takes none live (R274). -/
theorem State.coefWrite_staged (hw : w < 8) (hs : s.stepping w = true) (hj : (s.lp w).region = j) (hl : s.pN (0x3100 + w) 0x18 = 0) :
    (s.coefWrite w j cs).lp w =
      { s.lp w with staged := putAll (cs.map (fun p => (j * 200 + p.1, p.2))) (s.lp w).staged } := by
  unfold State.coefWrite
  extract_lets ks active unstaged
  rw [if_neg (by simp [active, hs, hj]), if_pos hl, State.modLp_lp_same _ _ _ hw]

/-- The region in use queues them where the loop takes them live (R275). -/
theorem State.coefWrite_live (hw : w < 8) (hs : s.stepping w = true) (hj : (s.lp w).region = j) (hl : s.pN (0x3100 + w) 0x18 ≠ 0)
    (hcs : cs.map (fun p => (j * 200 + p.1, p.2)) ≠ []) :
    ((s.coefWrite w j cs).lp w).live = (s.lp w).live ++ [cs.map (fun p => (j * 200 + p.1, p.2))] ∧
      ((s.coefWrite w j cs).lp w).table = (s.lp w).table := by
  unfold State.coefWrite
  extract_lets ks active unstaged
  rw [if_neg (by simp [active, hs, hj]), if_neg hl, if_neg (by simpa [ks] using hcs), State.modLp_lp_same _ _ _ hw]
  exact ⟨rfl, rfl⟩

theorem State.coefWrite_lp_other (v : Nat) (hv : v ≠ w) : (s.coefWrite w j cs).lp v = s.lp v := by
  unfold State.coefWrite
  extract_lets ks active unstaged
  split_ifs
  · exact State.modLp_lp_other _ _ _ _ hv
  · exact State.modLp_lp_other _ _ _ _ hv
  · rfl
  · exact State.modLp_lp_other _ _ _ _ hv

end

theorem execRegionTableWrite_writes (r : Req) (x : Session) (w j : Fin 8) (v : Bytes) (s : State) (h : s.Takes r x)
    (hheld : s.coefHeld = false)
    (hval : (findDesc (0x3210 + 8 * w.val + j.val) 1).bind (fun d => valueFail d (0x3210 + 8 * w.val + j.val) 1 v) = none)
    (hf : writeFail (s.proposed (pkey (0x3210 + 8 * w.val + j.val) 1) v) (pkey (0x3210 + 8 * w.val + j.val) 1) s.strict = 0) :
    ∃ t, exec (.regionTableWrite r w j v) s = .next t ∧ t.whorl = (s.coefWrite w j (tableCoefs v)).whorl ∧
      s.Accepted t r ∧ Unchanged [.it, .whorl, .dict, .nets] s t := by
  have hw := w.isLt
  have hj := j.isLt
  obtain ⟨-, hd, hprot, -, -⟩ := region_described w j
  rw [hd, Option.bind_some] at hval
  have hcheck := State.writeCheck_regionTable (s := s.served r) (lvl := x.level) h.store (Nat.one_le_iff_ne_zero.mp h.level) h.dev hheld hval hf
  obtain ⟨hwhorl, -, ha, hu⟩ := State.hostWrite_loopValue h (by omega) hd (by decide) hprot hcheck
    ((s.served r).storeValue_regionTable w j _ v) (Unchanged.of_mask (State.coefWrite_mask _ _ _ _ (by simp)))
  refine ⟨_, rfl, hwhorl.trans (s.coefWrite_whorl ((s.served r).valueStored _ 1 v) w rfl rfl ?_ j _), ha, hu⟩
  exact (s.served r).valueStored_pN v (by simp only [pkey]; omega) (by simp only [pkey]; omega)

/-- The command of P 0x3210+8w+j.02: a region's coefficients written, and kept in the bytes of its table (R287). -/
theorem State.writeCommand_patch (s : State) (who : SessionId) (lvl : Nat) (w j : Fin 8) (v : Bytes) :
    s.writeCommand who lvl (0x3210 + 8 * w.val + j.val) 2 v = ((s.coefWrite w j (patchCoefs v)).valueStored (0x3210 + 8 * w.val + j.val) 1
      (patchInto ((s.coefWrite w j (patchCoefs v)).dict.inUse (0x3210 + 8 * w.val + j.val) 1) v), 0) := by
  have hw := w.isLt
  have hj := j.isLt
  obtain ⟨hdiv, hmod⟩ := region_index w j
  unfold State.writeCommand
  repeat refine (if_neg (by omega)).trans ?_
  rw [if_pos (by omega), hdiv, hmod]
  rfl

theorem execCoefficientPatch_writes (r : Req) (x : Session) (w j : Fin 8) (v : Bytes) (s : State) (h : s.Takes r x)
    (hheld : s.coefHeld = false)
    (hval : (findDesc (0x3210 + 8 * w.val + j.val) 2).bind (fun d => valueFail d (0x3210 + 8 * w.val + j.val) 2 v) = none) :
    ∃ t, exec (.coefficientPatch r w j v) s = .next t ∧ t.whorl = (s.coefWrite w j (patchCoefs v)).whorl ∧
      s.Accepted t r ∧ Unchanged [.it, .whorl, .dict, .nets] s t := by
  obtain ⟨huse, -, -, hd, hprot⟩ := region_described w j
  rw [hd, Option.bind_some] at hval
  have hp : Unchanged [.whorl] (s.served r) ((s.served r).coefWrite w j (patchCoefs v)) := Unchanged.of_mask (by simp)
  have hdict : ((s.served r).coefWrite w j (patchCoefs v)).dict = s.dict := hp .dict (by simp)
  have hy : ((s.served r).coefWrite w j (patchCoefs v)).session r.sid = some x := by
    rw [State.session, show State.nets _ = (s.served r).nets from hp .nets (by simp)]
    exact (State.served_session r.sid).trans h.known
  obtain ⟨n, he, ha, -⟩ := State.hostWrite_accepted h huse (by decide) hd rfl rfl hprot hval (.inr (by omega)) (.inr (.inr hheld))
    (by omega) ((s.served r).writeCommand_patch r.sid x.level w j v) hy (hp .it (by simp))
    (by rw [← hdict]; rfl) (by rw [← hdict]; rfl)
  refine ⟨_, rfl, ?_, ha, ?_⟩
  all_goals rw [he]
  · exact s.coefWrite_whorl (s.served r) w rfl rfl rfl j _
  · exact State.answered_unchanged ((hp.mono (by simp)).trans (Unchanged.of_mask (State.modDict_mask _ _ (by simp)))) _ _

/-! ### COMMIT-LOOP (R274) -/

theorem execCommitLoop_commits (r : Req) (x : Session) (w : Fin 8) (s : State) (h : s.Takes r x) :
    ∃ t, exec (.commitLoop r w) s = .next t ∧ t.lp w = { s.lp w with commit := true } ∧
      (∀ v, v ≠ w.val → t.lp v = s.lp v) ∧ s.Accepted t r ∧ Unchanged [.it, .whorl, .dict, .nets] s t := by
  have hw := w.isLt
  have hcmd : (s.served r).writeCommand r.sid x.level (0x3100 + w.val) 0x1D [1] = ((s.served r).commitLoop w, 0) := by
    unfold State.writeCommand
    repeat refine (if_neg (by omega)).trans ?_
    rw [if_pos (by omega), Nat.add_sub_cancel_left]
  obtain ⟨k, n, he, ha, hu⟩ := State.hostWrite_effect (ps := [.whorl]) h (isCommand_commitLoop w) (valueFail_commitLoop w)
    (.inr (by omega)) (.inl (by omega)) (by omega) hcmd (State.modLp_mask _ _ _ (by simp)) (by simp)
  refine ⟨_, rfl, ?_, fun v hv => ?_, ha, hu.mono (by simp)⟩
  all_goals rw [he]
  · exact State.modLp_lp_same (s.served r) w _ hw
  · exact State.modLp_lp_other (s.served r) w _ v hv

/-- Settles O25: the mode, the coefficients by what `coefWrite` does with them, COMMIT-LOOP. -/
theorem loopWrites : Obligations.LoopWrites := by
  refine ⟨execLoopModeCommand_writes, fun r x w j v ks c sub s h hc hheld hval => ?_, execCommitLoop_commits⟩
  obtain ⟨cs, rfl, t, ht, hwhorl, ha, hu⟩ : ∃ cs : List (Nat × F32), ks = cs.map (fun p => (j.val * 200 + p.1, p.2)) ∧
      ∃ t, exec c s = .next t ∧ t.whorl = (s.coefWrite w j cs).whorl ∧ s.Accepted t r ∧
        Unchanged [.it, .whorl, .dict, .nets] s t := by
    rcases hc with ⟨rfl, rfl, rfl, hf⟩ | ⟨rfl, rfl, rfl⟩
    · exact ⟨tableCoefs v, rfl, execRegionTableWrite_writes r x w j v s h hheld hval hf⟩
    · exact ⟨patchCoefs v, rfl, execCoefficientPatch_writes r x w j v s h hheld hval⟩
  have hlp : ∀ k, t.lp k = (s.coefWrite w j cs).lp k := State.lp_of_whorl hwhorl
  refine ⟨t, ht, ?_, ?_, ?_, ?_, ha, hu⟩
  all_goals simp only [hlp]
  · exact s.coefWrite_unused j cs w.isLt
  · exact s.coefWrite_staged j cs w.isLt
  · exact s.coefWrite_live j cs w.isLt
  · exact s.coefWrite_lp_other j cs

end Sys2Proof.Machine

end

section

namespace Sys2Proof.Machine

/-! # A spinner's transfer and the spinners beside it (R24, R289, R292, R299) -/

/-! ### What the operations of a transfer leave unchanged -/

section

variable {ps : List Part}

@[simp] theorem State.spinPeriod_mask (s : State) (k : Nat) (h : [.spin] ⊆ ps) :
    (s.spinPeriod k).mask ps = s.mask ps := by
  simp at h
  simp [State.spinPeriod, h]

@[simp] theorem State.spinTransfer_mask (s : State) (k : Nat) (h : [.it, .spin] ⊆ ps) :
    (s.spinTransfer k).mask ps = s.mask ps := by
  simp at h
  simp [State.spinTransfer, h]

@[simp] theorem State.bridgeTurn_mask (s : State) (h_ k : Nat) (h : [.spin, .bridges, .freeCtr] ⊆ ps) :
    (s.bridgeTurn h_ k).mask ps = s.mask ps := by
  simp at h
  simp [State.bridgeTurn, h]

@[simp] theorem State.rippleStep_mask (s : State) (h_ k : Nat) (h : [.bridges] ⊆ ps) :
    (s.rippleStep h_ k).mask ps = s.mask ps := by
  simp at h
  simp [State.rippleStep, h]

@[simp] theorem State.currentLoop_mask (s : State) (h_ k : Nat) (ma : Int) (h : [.spin, .bridges, .freeCtr] ⊆ ps) :
    (s.currentLoop h_ k ma).mask ps = s.mask ps := by
  simp at h
  simp [State.currentLoop, h]

@[simp] theorem State.bridgeTransfer_mask (s : State) (h_ k : Nat) (x : StageIn) (h : [.spin, .bridges, .freeCtr] ⊆ ps) :
    (s.bridgeTransfer h_ k x).mask ps = s.mask ps := by
  unfold State.bridgeTransfer
  simp at h
  dsimp only
  (repeat' split) <;> simp [h]

end

theorem State.spinnerOf_of_dict {s t : State} (h : t.dict = s.dict) (d : Nat) : t.spinnerOf d = s.spinnerOf d := by
  simp only [State.spinnerOf, State.pN_of_dict h]

theorem State.bridgeTurn_dict (s : State) (h k : Nat) : (s.bridgeTurn h k).dict = s.dict :=
  Unchanged.of_mask (State.bridgeTurn_mask (ps := [.spin, .bridges, .freeCtr]) s h k (by simp)) .dict (by simp)

/-! ### The set in use of a spinner, and the other spinners -/

/-- The set in use of spinner `k` and every other spinner: what a duty word for `k` leaves as it was. -/
def State.spunOn (s : State) (k : Nat) : SpinSet × Vector Spinner 16 := ((s.sp k).cur, vset s.spin k Spinner.reset)

theorem State.spunOn_other {s t : State} {k j : Nat} (h : t.spunOn k = s.spunOn k) (hj : j ≠ k) : t.sp j = s.sp j := by
  have hv := congrArg (fun p => vget p.2 j Spinner.reset) h
  simp only [State.spunOn, vget_vset_other _ _ _ _ _ hj.symm] at hv
  exact hv

/-- A change of spinner `k` that keeps its set in use. -/
theorem State.modSp_spunOn (s : State) (k : Nat) (f : Spinner → Spinner) (hf : ∀ y, (f y).cur = y.cur) :
    (s.modSp k f).spunOn k = s.spunOn k := by
  have hc : ((s.modSp k f).sp k).cur = (s.sp k).cur := by
    by_cases hk : k < 16
    · rw [State.modSp_sp_same _ _ _ hk, hf]
    · simp [State.modSp, State.sp, vmod, hk]
  exact Prod.ext hc (vset_vmod_same _ _ _ _)

/-- A duty word for a destination whose spinner is `k` (R24). -/
theorem State.writeDuty_spunOn (s : State) (d w k : Nat) (hs : s.spinnerOf d = some k) :
    (s.writeDuty d w).spunOn k = s.spunOn k := by
  simp only [State.writeDuty, hs]
  refine State.modSp_spunOn _ _ _ fun y => ?_
  split <;> rfl

theorem State.passDuty_spunOn (s : State) (h w k : Nat) (hs : s.spinnerOf (1 + h) = some k) :
    (s.passDuty h w).spunOn k = s.spunOn k := by
  unfold State.passDuty
  split
  · exact s.draw.writeDuty_spunOn _ _ k hs
  · exact s.writeDuty_spunOn _ _ k hs

theorem State.bridgeTurn_spunOn (s : State) (h k : Nat) (hs : s.spinnerOf (1 + h) = some k) :
    (s.bridgeTurn h k).spunOn k = s.spunOn k := by
  unfold State.bridgeTurn
  extract_lets b free s1
  split
  · rfl
  · split
    · exact s1.passDuty_spunOn h _ k hs
    · rfl

theorem State.currentLoop_spunOn (s : State) (h k : Nat) (ma : Int) (hs : s.spinnerOf (1 + h) = some k) :
    (s.currentLoop h k ma).spunOn k = s.spunOn k := by
  unfold State.currentLoop
  extract_lets s1 p aim w w' s2
  exact s1.draw.passDuty_spunOn h w' k hs

/-- What the stage of a bridge does at a transfer of its own spinner `k` stays with the shadow set of `k` (R289, R299). -/
theorem State.bridgeTransfer_spunOn (s : State) (h k : Nat) (x : StageIn) (hs : s.spinnerOf (1 + h) = some k) :
    (s.bridgeTransfer h k x).spunOn k = s.spunOn k := by
  unfold State.bridgeTransfer
  extract_lets ma s1 lim hot was s2 s3 s4
  have hd : s4.dict = s.dict := by
    refine Eq.trans ?_ (s2.bridgeTurn_dict h k)
    simp only [s4]
    (repeat' split) <;> rfl
  have h4 : s4.spunOn k = s.spunOn k := by
    refine Eq.trans ?_ (s2.bridgeTurn_spunOn h k hs)
    simp only [s4]
    (repeat' split) <;> rfl
  have hs4 : s4.spinnerOf (1 + h) = some k := (State.spinnerOf_of_dict hd _).trans hs
  rw [← h4]
  split
  · rfl
  · split
    · exact s4.currentLoop_spunOn h k ma hs4
    · split
      · exact s4.passDuty_spunOn h _ k hs4
      · rfl

@[simp] theorem Spinner.layOut_cur (x : Spinner) (compl : Bool) : (x.layOut compl).cur = x.cur := by
  unfold Spinner.layOut
  extract_lets at0 dt lowOff highOff lowStays highOn idle p y z
  have hz : z.cur = x.cur := by
    simp only [z, y]
    (repeat' split) <;> rfl
  split
  · rfl
  · split
    · rfl
    · split <;> exact hz

theorem State.spinPeriod_spunOn (s : State) (k : Nat) : (s.spinPeriod k).spunOn k = s.spunOn k := by
  unfold State.spinPeriod
  split
  · exact State.modSp_spunOn _ _ _ fun y => Spinner.layOut_cur _ _
  · exact State.modSp_spunOn _ _ _ fun _ => rfl

/-- The duty word that a transfer brings into use is the shadow set's (R299). -/
theorem State.spinTransfer_duty (s : State) (k : Nat) (hk : k < 16) :
    ((s.spinTransfer k).sp k).cur.duty = (s.sp k).shadow.duty := by
  simp [State.spinTransfer, hk]

theorem State.spinTransfer_sp_other (s : State) (k j : Nat) (hj : j ≠ k) : (s.spinTransfer k).sp j = s.sp j := by
  simp [State.spinTransfer, hj]

/-! ### The mean current of a bridge (R316) -/

/-- A change of any bridge that keeps its mean current. -/
theorem State.modBr_current (s : State) (h g : Nat) (f : Bridge → Bridge) (hf : ∀ b, (f b).current = b.current) :
    ((s.modBr h f).br g).current = (s.br g).current := by
  by_cases hg : g = h
  · subst hg
    by_cases h4 : g < 4
    · rw [State.modBr_br_same _ _ _ h4, hf]
    · simp [State.modBr, State.br, vmod, h4]
  · rw [State.modBr_br_other _ _ _ _ hg]

theorem State.passDuty_current (s : State) (h w g : Nat) : ((s.passDuty h w).br g).current = (s.br g).current :=
  congrArg Bridge.current (s.passDuty_br h w g)

theorem State.bridgeTurn_current (s : State) (h k g : Nat) : ((s.bridgeTurn h k).br g).current = (s.br g).current := by
  unfold State.bridgeTurn
  extract_lets b free s1
  split
  · exact State.modBr_current _ _ _ _ fun _ => rfl
  · split
    · exact (s1.passDuty_current h _ g).trans (State.modBr_current _ _ _ _ fun _ => rfl)
    · rfl

theorem State.currentLoop_current (s : State) (h k : Nat) (ma : Int) (g : Nat) :
    ((s.currentLoop h k ma).br g).current = (s.br g).current := by
  unfold State.currentLoop
  extract_lets s1 p aim w w' s2
  have h1 : (s1.br g).current = (s.br g).current := State.modBr_current _ _ _ _ fun b => by dsimp only; split <;> rfl
  refine (State.modBr_current s2 h g _ ?_).trans (Eq.trans ?_ h1)
  · exact fun _ => rfl
  · exact s1.draw.passDuty_current h w' g

/-- The bridge takes the mean current of the period that ended, as the inner loop held it. -/
theorem State.bridgeTransfer_current (s : State) (h k : Nat) (x : StageIn) (hh : h < 4) :
    ((s.bridgeTransfer h k x).br h).current = s.heldMa h x.meanMa := by
  unfold State.bridgeTransfer
  extract_lets ma s1 lim hot was s2 s3 s4
  have h2 : (s2.br h).current = ma := by
    simp only [s2, s1, State.modBr_br_same _ _ _ hh]
  have h4 : (s4.br h).current = ma := by
    rw [← h2, ← s2.bridgeTurn_current h k h]
    simp only [s4]
    split
    · split
      · exact State.modBr_current _ _ _ _ fun _ => rfl
      · rfl
    · rfl
  refine Eq.trans ?_ h4
  split
  · rfl
  · split
    · exact s4.currentLoop_current h k ma h
    · split
      · exact s4.passDuty_current h _ h
      · rfl

/-- The inner loop holds a current in CURRENT mode alone (R307). -/
theorem State.heldMa_mode (s : State) (h : Nat) (ma : Int) (hm : s.brMode h ≠ 1) : s.heldMa h ma = ma :=
  if_neg fun hc => hm hc.1

/-! ### SPINNER_TRANSFER (R24, R289, R299) -/

/-- What the stage of destination code `d` does at the transfer of its spinner `k` (R306 to R308, R316). -/
def State.stageTransfer (s : State) (d k : Nat) (x : StageIn) : State :=
  if 1 ≤ d ∧ d ≤ 4 then s.bridgeTransfer (d - 1) k x
  else if d = 5 ∨ d = 6 then s.modPt (d - 5) (fun p => { p with link := x.linkMa })
  else s

/-- A spinner that runs makes its transfer, its stage follows, and the next period begins. -/
theorem exec_spinnerTransfer (k : Fin 16) (x : StageIn) (s : State) (hl : (s.sp k).live = true) :
    exec (.spinnerTransfer k x) s =
      .next (((s.spinTransfer k).stageTransfer (s.pN (0x3400 + k.val) 1) k x).spinPeriod k) :=
  congrArg Host.Outcome.next (if_neg (by simp [hl]))

theorem State.stageTransfer_unchanged (s : State) (d k : Nat) (x : StageIn) :
    Unchanged [.spin, .bridges, .ports, .freeCtr] s (s.stageTransfer d k x) := by
  refine Unchanged.of_mask ?_
  unfold State.stageTransfer
  (repeat' split) <;> simp

/-- With R24 kept the stage of spinner `k` stays with the shadow set of `k`. -/
theorem State.stageTransfer_spunOn (s : State) (d k : Nat) (x : StageIn) (h24 : 1 ≤ d → d ≤ 4 → s.spinnerOf d = some k) :
    (s.stageTransfer d k x).spunOn k = s.spunOn k := by
  unfold State.stageTransfer
  split
  next hd =>
    refine s.bridgeTransfer_spunOn (d - 1) k x ?_
    rw [Nat.add_sub_cancel' hd.1]
    exact h24 hd.1 hd.2
  next => split <;> rfl

theorem State.stageTransfer_current (s : State) (d k : Nat) (x : StageIn) (h1 : 1 ≤ d) (h4 : d ≤ 4) :
    ((s.stageTransfer d k x).br (d - 1)).current = s.heldMa (d - 1) x.meanMa := by
  rw [State.stageTransfer, if_pos ⟨h1, h4⟩]
  exact s.bridgeTransfer_current _ _ _ (by omega)

theorem State.stageTransfer_link (s : State) (d k : Nat) (x : StageIn) (hd : d = 5 ∨ d = 6) :
    ((s.stageTransfer d k x).pt (d - 5)).link = x.linkMa := by
  rw [State.stageTransfer, if_neg (by omega), if_pos hd, State.modPt_pt_same _ _ _ (by omega)]

theorem State.spinPeriod_unchanged (s : State) (k : Nat) : Unchanged [.spin] s (s.spinPeriod k) :=
  Unchanged.of_mask (by simp)

theorem State.br_of_unchanged {s t : State} (h : Unchanged [.spin] s t) (g : Nat) : t.br g = s.br g :=
  State.br_of_bridges (h .bridges (by simp)) g

/-- What O17 says holds of every spinner that is the spinner of its bridge, as R24 has every COMMIT ask. -/
theorem execSpinnerTransfer_ownStage (k : Fin 16) (x : StageIn) (d : Nat) (s : State) (hl : (s.sp k).live = true)
    (hd : d = s.pN (0x3400 + k.val) 1) (h24 : 1 ≤ d → d ≤ 4 → s.spinnerOf d = some k.val) :
    ∃ t, exec (.spinnerTransfer k x) s = .next t ∧ t.it = max s.it (tickNs (s.sp k).ends) ∧
      (t.sp k).start = (s.sp k).ends ∧ (t.sp k).m = (s.sp k).m + 1 ∧ (t.sp k).cur.duty = (s.sp k).shadow.duty ∧
      (1 ≤ d → d ≤ 4 → (t.br (d - 1)).current =
        (if s.brMode (d - 1) = 1 then (s.spinTransfer k).heldMa (d - 1) x.meanMa else x.meanMa)) ∧
      (d = 5 ∨ d = 6 → (t.pt (d - 5)).link = x.linkMa) ∧
      (∀ j, j ≠ k.val → t.sp j = s.sp j) ∧ Unchanged [.it, .spin, .bridges, .ports, .freeCtr] s t := by
  obtain ⟨t, ht, hstart, hm⟩ := execSpinnerTransfer_live k x s hl
  have he := exec_spinnerTransfer k x s hl
  rw [← hd, ht, Host.Outcome.next.injEq] at he
  have hstage := (s.spinTransfer k).stageTransfer_unchanged d k x
  have hperiod := ((s.spinTransfer k).stageTransfer d k x).spinPeriod_unchanged k
  have hspun : t.spunOn k = (s.spinTransfer k).spunOn k := by
    rw [he, State.spinPeriod_spunOn]
    exact State.stageTransfer_spunOn _ _ _ _ h24
  refine ⟨t, ht, ?_, hstart, hm, ?_, fun h1 h4 => ?_, fun h => ?_, fun j hj => ?_, ?_⟩
  · rw [he]
    exact (hperiod .it (by simp)).trans (hstage .it (by simp))
  · rw [← s.spinTransfer_duty k k.isLt]
    exact congrArg (fun p => p.1.duty) hspun
  · rw [he, State.br_of_unchanged hperiod, State.stageTransfer_current _ _ _ _ h1 h4]
    split
    next => rfl
    next hmode => exact State.heldMa_mode _ _ _ hmode
  · rw [he, ← State.stageTransfer_link (s.spinTransfer k) d k x h]
    exact congrArg (fun v => (vget v (d - 5) Port.reset).link) (hperiod .ports (by simp))
  · exact (State.spunOn_other hspun hj).trans (s.spinTransfer_sp_other k j hj)
  · rw [he]
    exact ((Unchanged.of_mask (State.spinTransfer_mask s k (by simp))).trans (hstage.mono (by simp))).trans (hperiod.mono (by simp))

/-! ### Two spinners of one bridge -/

/-- The module in RUN with spinners 0 and 1 both assigned to H0, where R24 asks for one; spinner 1 runs, and a command of 0.5 for H0
waits for its full-off period (R306). -/
def sharedBridge : State :=
  { ((State.reset.modSp 1 fun x => { x with live := true }).modBr 0 fun b => { b with cmd := 0x3F000000, turning := 1 }) with
    power := { State.reset.power with dev := .run }
    dict := { State.reset.dict with
      ever := true, store := aput (pkey 0x3400 1) [1] (aput (pkey 0x3401 1) [1] State.reset.dict.store) } }

/-- At the transfer of spinner 1 the stage of H0 writes the duty word of half a period to spinner 0, the first of the two. -/
theorem execSpinnerTransfer_sharedBridge {t : State} (h : exec (.spinnerTransfer 1 ⟨0, false, 0⟩) sharedBridge = .next t) :
    (t.sp 0).shadow.duty = 512000 := by
  rw [exec_spinnerTransfer _ _ _ rfl, Host.Outcome.next.injEq] at h
  rw [← h]
  rfl

/-- Refutes O17: its clause on the other spinners does not shut out a second spinner of the same destination, which R24 refuses at
COMMIT. The transfer of the second one then writes the shadow set of the first. -/
theorem not_spinnerTransfers : ¬ Obligations.SpinnerTransfers := by
  intro h
  obtain ⟨t, he, -, -, -, -, -, -, hother, -⟩ := h 1 ⟨0, false, 0⟩ 1 sharedBridge rfl rfl
  have hfree : (sharedBridge.sp 0).shadow.duty = 0 := rfl
  have hw := execSpinnerTransfer_sharedBridge he
  rw [hother 0 (by decide), hfree] at hw
  cases hw

end Sys2Proof.Machine

end

section

namespace Sys2Proof.Machine

/-! # Bridges and ports, in full: trips, retries, stalls and cleared latches (R314, R316, R454, R455) -/

/-! ### The latch of an output (R316, R455) -/

/-- The trips of an output that count once it trips at `t`: those of the last 10 s. -/
def tripsCounted (l : List IT) (t : IT) : List IT := (l ++ [t]).filter (fun y => decide (t ≤ y + 10000000000))

/-- The record and the report of output `o` (1 to 4 for H0 to H3, 5 and 6 for G0 and G1), made where it latches. -/
def State.latchNoted (s : State) (latch : Bool) (o : Nat) : State :=
  if latch then (s.record 0x9004 o []).report 0xE005 o [] else s

theorem State.latchNoted_br (s : State) (latch : Bool) (o h : Nat) : (s.latchNoted latch o).br h = s.br h := by
  unfold State.latchNoted
  split <;> rfl

theorem State.latchNoted_pt (s : State) (latch : Bool) (o g : Nat) : (s.latchNoted latch o).pt g = s.pt g := by
  unfold State.latchNoted
  split <;> rfl

@[simp] theorem State.latchNoted_mask {ps : List Part} (s : State) (latch : Bool) (o : Nat) (h : [.skein, .sup] ⊆ ps) :
    (s.latchNoted latch o).mask ps = s.mask ps := by
  simp at h
  simp [State.latchNoted, h]

/-- What is reported of a trip: the latch, and nothing less (R454). -/
theorem State.latchNoted_reported {s u : State} {ps : List Part} (hu : Unchanged ps s u)
    (hps : .it ∉ ps ∧ .power ∉ ps ∧ .dict ∉ ps ∧ .sup ∉ ps) {latch : Bool} {c : Prop} [Decidable c] (hc : latch = true ↔ c) (o : Nat) :
    (u.latchNoted latch o).sup.reported = s.sup.reported ++ (if c then [s.faultNow 0xE005 o [] s.it] else []) := by
  obtain ⟨hit, hpower, hdict, hsup⟩ := hps
  have hr : u.sup = s.sup := hu .sup hsup
  unfold State.latchNoted
  by_cases h : c
  · rw [if_pos (hc.mpr h), if_pos h, State.report_sup_reported, State.record_sup, hr, State.record_it, show u.it = s.it from hu .it hit]
    exact congrArg (fun f => s.sup.reported ++ [f])
      (State.faultNow_congr (t := u.record 0x9004 o []) (hu .power hpower) (hu .dict hdict) _ _ _ _)
  · rw [if_neg (fun q => h (hc.mp q)), if_neg h, hr, List.append_nil]

/-! ### Trips (R316) -/

/-- What a trip leaves of its bridge, beside what `State.bridgeTrip_br` says: the trips that count, and the latch beyond the limit of
them. -/
theorem State.bridgeTrip_effect (s : State) (h : Nat) (t : IT) (hh : h < 4) :
    ∃ u, s.bridgeTrip h t = u.latchNoted (decide (s.pN (0x3500 + h) 0x10 < (tripsCounted (s.br h).trips t).length)) (1 + h) ∧
      (u.br h).state = 0 ∧ (u.br h).trips = tripsCounted (s.br h).trips t ∧
      (u.br h).latch = ((s.br h).latch || decide (s.pN (0x3500 + h) 0x10 < (tripsCounted (s.br h).trips t).length)) ∧
      (∀ g, g ≠ h → u.br g = s.br g) ∧ Unchanged [.dis, .bridges] s u := by
  unfold State.bridgeTrip
  extract_lets trips latch s1 s2
  have hu1 : Unchanged [.dis] s s1 := Unchanged.of_mask (by simp only [s1]; split <;> simp)
  have hbr : ∀ g, s1.br g = s.br g := State.br_of_bridges (hu1 .bridges (by simp))
  have hb : s2.br h = _ := State.modBr_br_same _ _ _ hh
  rw [hbr] at hb
  extract_lets y z at hb
  have hy : y.latch = (s.br h).latch := by
    simp only [y]
    split
    · rfl
    · split <;> rfl
  have h2 : (s2.br h).state = 0 ∧ (s2.br h).trips = trips ∧ (s2.br h).latch = ((s.br h).latch || latch) := by
    rw [hb]
    split <;> exact ⟨rfl, rfl, congrArg (· || latch) hy⟩
  obtain ⟨hstate, htrips, hlatch⟩ := h2
  exact ⟨s2, rfl, hstate, htrips, hlatch, fun g hg => (State.modBr_br_other _ _ _ _ hg).trans (hbr g),
    (hu1.mono (by simp)).trans (Unchanged.of_mask (by simp [s2]))⟩

/-- OUTPUT_TRIP of a bridge above 16 A, in full. -/
theorem execOutputTrip_bridge (o : Fin 6) (ma : Nat) (x : IT) (s : State) (ha : s.power.dev.awake = true) (ho : o.val < 4)
    (hm : 16000 < ma) :
    ∃ t, exec (.outputTrip o (.overCurrent ma) x) s = .next t ∧
      (t.br o).tripTill = some (x + s.pN (0x3500 + o.val) 0x11 * 1000000) ∧ (t.br o).state = 0 ∧ (t.br o).drive = none ∧
      ((t.br o).latch = true ↔ (s.br o).latch = true ∨
        s.pN (0x3500 + o.val) 0x10 < (((s.br o).trips ++ [x]).filter (fun y => decide (x ≤ y + 10000000000))).length) ∧
      t.sup.reported = s.sup.reported ++
        (if s.pN (0x3500 + o.val) 0x10 < (t.br o).trips.length then [s.faultNow 0xE005 (1 + o.val) [] (max s.it x)] else []) ∧
      (∀ g, g ≠ o.val → t.br g = s.br g) ∧ Unchanged [.it, .dis, .bridges, .skein, .sup] s t := by
  have ht : s.tripsOutput o (.overCurrent ma) = true := decide_eq_true ⟨ho, hm⟩
  have hexec : exec (.outputTrip o (.overCurrent ma) x) s = .next ((s.at x).bridgeTrip o x) := by
    simp only [exec, execOutputTrip, State.whenAwake, ha, ht, ho, if_true, Bool.not_true, Bool.false_eq_true, if_false]
  obtain ⟨htill, hdrive⟩ := (s.at x).bridgeTrip_br o x ho
  obtain ⟨u, he, hstate, htrips, hlatch, hother, hu⟩ := (s.at x).bridgeTrip_effect o x ho
  have hs : Unchanged [.it] s (s.at x) := Unchanged.of_mask (by simp)
  have hbr : ∀ g, ((s.at x).bridgeTrip o x).br g = u.br g := fun g => by rw [he, State.latchNoted_br]
  refine ⟨_, hexec, htill, ?_, hdrive, ?_, ?_, fun g hg => (hbr g).trans (hother g hg), ?_⟩
  · rw [hbr, hstate]
  · rw [hbr, hlatch, Bool.or_eq_true, decide_eq_true_iff]
    rfl
  · rw [hbr, htrips, he]
    exact State.latchNoted_reported hu (by simp) decide_eq_true_iff _
  · rw [he]
    exact ((hs.mono (by simp)).trans (hu.mono (by simp))).trans (Unchanged.of_mask (by simp))

/-! ### Ports (R314, R316) -/

theorem State.commutate_pt_other (s : State) (g k : Nat) (hk : k ≠ g) : (s.commutate g).pt k = s.pt k :=
  State.modPt_pt_other _ _ _ _ hk

/-- Commutation sets the phases of its port, HALL-INVALID and whether it drives, and nothing else of it. -/
theorem State.commutate_pt_keeps {α : Type} (f : Port → α)
    (hf : ∀ x bad ph d, f { x with hallBad := bad, phases := ph, driving := d } = f x) (s : State) (g : Nat) (hg : g < 2) :
    f ((s.commutate g).pt g) = f (s.pt g) :=
  (congrArg f (State.modPt_pt_same _ _ _ hg)).trans (hf _ _ _ _)

/-- A port that may not drive has its gates off. -/
theorem State.commutate_pt_off (s : State) (g : Nat) (hg : g < 2) (h : s.ptFree g = false) :
    ((s.commutate g).pt g).driving = false ∧ ((s.commutate g).pt g).phases = none := by
  unfold State.commutate
  rw [State.modPt_pt_same _ _ _ hg]
  simp [h]

/-- What a trip leaves of its port: the retry's time, the trips that count, and the latch beyond the limit of them. -/
theorem State.portTrip_effect (s : State) (g : Nat) (k : TripKind) (t : IT) (hg : g < 2) :
    ∃ u, s.portTrip g k t =
        (u.latchNoted (decide (s.pN (0x3508 + g) 0xC < (tripsCounted (s.pt g).trips t).length)) (5 + g)).commutate g ∧
      (u.pt g).tripTill = some (t + s.pN (0x3508 + g) 0xD * 1000000) ∧ (u.pt g).trips = tripsCounted (s.pt g).trips t ∧
      (u.pt g).latch = ((s.pt g).latch || decide (s.pN (0x3508 + g) 0xC < (tripsCounted (s.pt g).trips t).length)) ∧
      (∀ i, i ≠ g → u.pt i = s.pt i) ∧ Unchanged [.ports] s u := by
  unfold State.portTrip
  extract_lets trips latch s1 s2
  have hp : s1.pt g = _ := State.modPt_pt_same _ _ _ hg
  have h1 : (s1.pt g).tripTill = some (t + s.pN (0x3508 + g) 0xD * 1000000) ∧ (s1.pt g).trips = trips ∧
      (s1.pt g).latch = ((s.pt g).latch || latch) := by
    rw [hp]
    cases k <;> dsimp only <;> split <;> exact ⟨rfl, rfl, rfl⟩
  obtain ⟨htill, htrips, hlatch⟩ := h1
  exact ⟨s1, rfl, htill, htrips, hlatch, fun i hi => State.modPt_pt_other _ _ _ _ hi, Unchanged.of_mask (by simp [s1])⟩

/-- What trips a port. -/
theorem State.tripsOutput_port {s : State} {o : Nat} {k : TripKind} (ho : 4 ≤ o)
    (h : (∃ mv ns, k = .desaturation mv ns ∧ s.pN (0x3504 + o) 5 < mv ∧ s.pN (0x3504 + o) 6 ≤ ns) ∨
      (∃ ma, k = .linkCurrent ma ∧ s.pN (0x3504 + o) 8 < ma) ∨ (∃ mv, k = .gateSupply mv ∧ mv < 9000)) :
    s.tripsOutput o k = true := by
  rcases h with ⟨mv, ns, rfl, hmv, hns⟩ | ⟨ma, rfl, hma⟩ | ⟨mv, rfl, hmv⟩
  · exact decide_eq_true ⟨ho, hmv, hns⟩
  · exact decide_eq_true ⟨ho, hma⟩
  · exact decide_eq_true ⟨ho, hmv⟩

/-- OUTPUT_TRIP of a port. -/
theorem execOutputTrip_port (o : Fin 6) (k : TripKind) (x : IT) (s : State) (ha : s.power.dev.awake = true) (ho : 4 ≤ o.val)
    (hk : (∃ mv ns, k = .desaturation mv ns ∧ s.pN (0x3504 + o.val) 5 < mv ∧ s.pN (0x3504 + o.val) 6 ≤ ns) ∨
      (∃ ma, k = .linkCurrent ma ∧ s.pN (0x3504 + o.val) 8 < ma) ∨ (∃ mv, k = .gateSupply mv ∧ mv < 9000)) :
    ∃ t, exec (.outputTrip o k x) s = .next t ∧
      (t.pt (o.val - 4)).tripTill = some (x + s.pN (0x3508 + (o.val - 4)) 0xD * 1000000) ∧ (t.pt (o.val - 4)).driving = false ∧
      ((t.pt (o.val - 4)).latch = true ↔ (s.pt (o.val - 4)).latch = true ∨
        s.pN (0x3508 + (o.val - 4)) 0xC < (t.pt (o.val - 4)).trips.length) ∧
      t.sup.reported = s.sup.reported ++ (if s.pN (0x3508 + (o.val - 4)) 0xC < (t.pt (o.val - 4)).trips.length
        then [s.faultNow 0xE005 (5 + (o.val - 4)) [] (max s.it x)] else []) ∧
      (∀ g, g ≠ o.val - 4 → t.pt g = s.pt g) ∧ Unchanged [.it, .ports, .skein, .sup] s t := by
  have hg : o.val - 4 < 2 := by omega
  have hexec : exec (.outputTrip o k x) s = .next ((s.at x).portTrip (o.val - 4) k x) := by
    simp only [exec, execOutputTrip, State.whenAwake, ha, State.tripsOutput_port ho hk, Nat.not_lt.mpr ho, if_true, Bool.not_true,
      Bool.false_eq_true, if_false]
  obtain ⟨u, he, htill, htrips, hlatch, hother, hu⟩ := (s.at x).portTrip_effect (o.val - 4) k x hg
  rw [he] at hexec
  generalize hl : u.latchNoted _ _ = v at hexec
  have hv : ∀ g, v.pt g = u.pt g := fun g => by rw [← hl, State.latchNoted_pt]
  have hs : Unchanged [.it] s (s.at x) := Unchanged.of_mask (by simp)
  have hfree : v.ptFree (o.val - 4) = false := by simp [State.ptFree, hv, htill]
  have hcount : ((v.commutate (o.val - 4)).pt (o.val - 4)).trips = tripsCounted (s.pt (o.val - 4)).trips x :=
    (State.commutate_pt_keeps (·.trips) (fun _ _ _ _ => rfl) v _ hg).trans ((congrArg Port.trips (hv _)).trans htrips)
  obtain ⟨hoff, -⟩ := v.commutate_pt_off _ hg hfree
  refine ⟨_, hexec, ?_, hoff, ?_, ?_, fun g hne => ?_, ?_⟩
  · rw [State.commutate_pt_keeps (·.tripTill) (fun _ _ _ _ => rfl) v _ hg, hv, htill]
    rfl
  · rw [State.commutate_pt_keeps (·.latch) (fun _ _ _ _ => rfl) v _ hg, hcount, hv, hlatch, Bool.or_eq_true, decide_eq_true_iff]
    rfl
  · rw [hcount, ← hl]
    exact State.latchNoted_reported hu (by simp) decide_eq_true_iff _
  · exact (State.commutate_pt_other _ _ _ hne).trans ((hv g).trans (hother g hne))
  · rw [← hl]
    exact ((hs.mono (by simp)).trans (hu.mono (by simp))).trans (Unchanged.of_mask (by simp))

/-- A measurement within its threshold. -/
theorem execOutputTrip_within (o : Fin 6) (k : TripKind) (x : IT) (s : State) (h : s.tripsOutput o k = false) :
    exec (.outputTrip o k x) s = .next s := by
  simp only [exec, execOutputTrip, State.whenAwake, h, Bool.not_false, if_true, ite_self]

/-- OUTPUT_RETRY_EXPIRY of a port. -/
theorem execOutputRetryExpiry_port (o : Fin 6) (x : IT) (s : State) (ho : 4 ≤ o.val) (ht : (s.pt (o.val - 4)).tripTill = some x) :
    ∃ t, exec (.outputRetryExpiry o) s = .next t ∧ (t.pt (o.val - 4)).tripTill = none ∧ t.it = max s.it x ∧
      (∀ g, g ≠ o.val - 4 → t.pt g = s.pt g) ∧ Unchanged [.it, .ports] s t := by
  have hg : o.val - 4 < 2 := by omega
  refine ⟨((s.at x).modPt (o.val - 4) (fun p => { p with tripTill := none, gateLow := false })).commutate (o.val - 4), ?_, ?_, rfl,
    fun g hne => ?_, Unchanged.of_mask (by simp)⟩
  · simp only [exec, execOutputRetryExpiry, Nat.not_lt.mpr ho, ht, if_false]
  · rw [State.commutate_pt_keeps (·.tripTill) (fun _ _ _ _ => rfl) _ _ hg, State.modPt_pt_same _ _ _ hg]
  · exact (State.commutate_pt_other _ _ _ hne).trans (State.modPt_pt_other _ _ _ _ hne)

/-- MOTOR_STALL that is due, in full. -/
theorem execMotorStall_stalls (g : Fin 2) (x : IT) (s : State) (h : s.stallDue g x = true) :
    ∃ t, exec (.motorStall g x) s = .next t ∧ (t.pt g).stall = true ∧ (t.pt g).driving = false ∧ (t.pt g).phases = none ∧
      t.skein.arriving = s.skein.arriving ++ [⟨0x9003, max s.it x, s.time.boot, g, []⟩] ∧
      (∀ h, h ≠ g.val → t.pt h = s.pt h) ∧ Unchanged [.it, .ports, .skein] s t := by
  let u := (s.at x).modPt g (fun p => ({ p with stall := true } : Port).count 2)
  have hstall : (u.pt g).stall = true := congrArg Port.stall (State.modPt_pt_same _ _ _ g.isLt)
  obtain ⟨hdriving, hphases⟩ := u.commutate_pt_off g g.isLt (by simp [State.ptFree, hstall])
  refine ⟨(u.commutate g).record 0x9003 g [], ?_, ?_, hdriving, hphases, rfl, fun i hi => ?_, Unchanged.of_mask (by simp [u])⟩
  · simp only [exec, execMotorStall, h, Bool.not_true, Bool.false_eq_true, if_false]
    rfl
  · exact (u.commutate_stall g g.isLt).trans hstall
  · exact (u.commutate_pt_other g i hi).trans (State.modPt_pt_other _ _ _ _ hi)

/-! ### A bridge that resumes (R316) -/

/-- From `s` to `t` bridge `h` may have changed, but not its latch nor its trips, and no other bridge has. -/
structure State.KeepsTrips (s t : State) (h : Nat) : Prop where
  latch : (t.br h).latch = (s.br h).latch
  trips : (t.br h).trips = (s.br h).trips
  other : ∀ g, g ≠ h → t.br g = s.br g

theorem State.KeepsTrips.trans {s t u : State} {h : Nat} (a : s.KeepsTrips t h) (b : t.KeepsTrips u h) : s.KeepsTrips u h :=
  ⟨b.latch.trans a.latch, b.trips.trans a.trips, fun g hg => (b.other g hg).trans (a.other g hg)⟩

theorem State.keepsTrips_of_br {s t : State} (h : Nat) (hb : ∀ g, t.br g = s.br g) : s.KeepsTrips t h :=
  ⟨congrArg Bridge.latch (hb h), congrArg Bridge.trips (hb h), fun g _ => hb g⟩

theorem State.modBr_keepsTrips (s : State) (h : Nat) (f : Bridge → Bridge) (hh : h < 4)
    (hf : ∀ b, (f b).latch = b.latch ∧ (f b).trips = b.trips) : s.KeepsTrips (s.modBr h f) h := by
  obtain ⟨hlatch, htrips⟩ := hf (s.br h)
  rw [← State.modBr_br_same s h f hh] at hlatch htrips
  exact ⟨hlatch, htrips, fun g hg => State.modBr_br_other _ _ _ _ hg⟩

theorem State.passDuty_keepsTrips (s : State) (h w : Nat) : s.KeepsTrips (s.passDuty h w) h :=
  State.keepsTrips_of_br h (State.passDuty_br s h w)

theorem State.bridgeCmd_keepsTrips (s : State) (h : Nat) (u : F32) (hh : h < 4) : s.KeepsTrips (s.bridgeCmd h u) h := by
  unfold State.bridgeCmd
  extract_lets cur u' neg turn free s1
  have h1 : s.KeepsTrips s1 h := s.modBr_keepsTrips h _ hh fun _ => ⟨rfl, rfl⟩
  split
  · exact h1
  · exact h1.trans (s1.passDuty_keepsTrips h _)

theorem State.valveStart_keepsTrips (s : State) (h : Nat) (opens : Bool) (pct : Nat) (hh : h < 4) :
    s.KeepsTrips (s.valveStart h opens pct) h := by
  have hb := s.valveStart_br_same h opens pct hh
  exact ⟨by rw [hb]; rfl, by rw [hb]; rfl, fun g hg => s.valveStart_br_other h opens pct g hg⟩

theorem State.valveClose_keepsTrips (s : State) (h : Nat) (hh : h < 4) : s.KeepsTrips (s.valveClose h) h := by
  obtain ⟨c, hc⟩ := s.valveClose_br_same h hh
  exact ⟨by rw [hc]; rfl, by rw [hc]; rfl, fun g hg => s.valveClose_br_other h g hg⟩

/-- Whatever the budget's verdict on an opening, the trips stay. -/
theorem State.valveAsk_keepsTrips (s : State) (h : Nat) (first : IT) (hh : h < 4) : s.KeepsTrips (s.valveAsk h first) h := by
  unfold State.valveAsk
  extract_lets ma
  have hq : s.KeepsTrips (s.requestTorque h ma (secondBoundary (s.takesAt (1 + h)))).1 h :=
    State.keepsTrips_of_br h (State.br_of_bridges
      (Unchanged.of_mask (State.requestTorque_mask (ps := [.loads, .budget, .skein]) _ _ _ _ (by simp)) .bridges (by simp)))
  generalize s.requestTorque h ma (secondBoundary (s.takesAt (1 + h))) = q at hq ⊢
  obtain ⟨u, v⟩ := q
  dsimp only at hq ⊢
  refine hq.trans ?_
  have hopened : ∀ (a b : IT) (pct : Nat), u.KeepsTrips ((u.valveStart h true pct).sprayStart (128 + h) a b) h :=
    fun _ _ pct => (u.valveStart_keepsTrips h true pct hh).trans (State.keepsTrips_of_br h fun _ => rfl)
  have hrefused : u.KeepsTrips ((u.modBr h (fun x => ({ x with asked := none, shedNote := some u.it }).count 3)).record 0x9002 h []) h := by
    refine (u.modBr_keepsTrips h _ hh ?_).trans (State.keepsTrips_of_br h (State.record_br _ _ _ _))
    exact fun _ => ⟨rfl, rfl⟩
  cases v with
  | granted => exact hopened _ _ _
  | limited p => exact hopened _ _ _
  | deferred d =>
    dsimp only
    split
    · exact hrefused
    · exact u.modBr_keepsTrips h _ hh fun _ => ⟨rfl, rfl⟩
  | shed => exact hrefused

/-- A bridge that resumes keeps its latch and its trips, and touches no other bridge. -/
theorem State.bridgeResume_keepsTrips (s : State) (h : Nat) (hh : h < 4) : s.KeepsTrips (s.bridgeResume h) h := by
  have hsame : s.KeepsTrips s h := State.keepsTrips_of_br h fun _ => rfl
  have hmod : ∀ f : Bridge → Bridge, (∀ b, (f b).latch = b.latch ∧ (f b).trips = b.trips) → s.KeepsTrips (s.modBr h f) h :=
    fun f hf => s.modBr_keepsTrips h f hh hf
  unfold State.bridgeResume
  split
  · exact hsame
  split
  · exact hmod _ fun _ => ⟨rfl, rfl⟩
  split
  · exact hsame
  split
  · exact hmod _ fun _ => ⟨rfl, rfl⟩
  split
  · exact s.bridgeCmd_keepsTrips h _ hh
  split
  · split
    · exact hsame
    · exact s.passDuty_keepsTrips h 0
  · refine State.KeepsTrips.trans ?_ (State.valveAsk_keepsTrips _ h _ hh)
    exact hmod _ fun _ => ⟨rfl, rfl⟩
  · exact s.valveStart_keepsTrips h _ _ hh
  · exact s.valveClose_keepsTrips h hh

/-- OUTPUT_RETRY_EXPIRY of a bridge, in full. -/
theorem execOutputRetryExpiry_resumes (o : Fin 6) (x : IT) (s : State) (ho : o.val < 4) (ht : (s.br o).tripTill = some x) :
    ∃ t, exec (.outputRetryExpiry o) s = .next t ∧ (t.br o).tripTill = none ∧ t.it = max s.it x ∧
      (∀ g, g ≠ o.val → t.br g = s.br g) ∧ Unchanged [.it, .dis, .spin, .bridges, .loads, .budget, .skein, .freeCtr] s t := by
  have hexec : exec (.outputRetryExpiry o) s =
      .next (((s.at x).modBr o (fun b => { b with tripTill := none })).bridgeResume o) := by
    simp only [exec, execOutputRetryExpiry, ho, ht, if_true]
  obtain ⟨t, hn, htill, hit⟩ := execOutputRetryExpiry_bridge o x s ho ht
  rw [hexec, Host.Outcome.next.injEq] at hn
  subst hn
  refine ⟨_, hexec, htill, hit, fun g hg => ?_, Unchanged.of_mask (by simp)⟩
  exact ((State.bridgeResume_keepsTrips _ o ho).other g hg).trans (State.modBr_br_other _ _ _ _ hg)

/-- Settles O19: trips of a bridge and of a port, a measurement within its threshold, the ends of their retries, and a stall. -/
theorem outputTrips : Obligations.OutputTrips :=
  ⟨execOutputTrip_bridge, execOutputTrip_port, execOutputTrip_within, execOutputRetryExpiry_resumes, execOutputRetryExpiry_port,
    execMotorStall_stalls⟩

end Sys2Proof.Machine

end

section

namespace Sys2Proof.Machine

/-! # Latches of outputs are cleared, load switches are commanded (R316, R324, R329, R371) -/

/-! ### Outputs (R316) -/

/-- The descriptor of P 0x3500+h.12. -/
def bridgeLatchDesc : Desc := ⟨0x3500, 4, 0x12, 1, 1, false, 1, 2, 1, 0, 1, 1, 0x0, 1, 1, 0x0⟩

theorem isCommand_bridgeLatch (o : Fin 6) (ho : o.val < 4) : isCommand (0x3500 + o.val) 0x12 bridgeLatchDesc := by
  revert o
  unfold isCommand
  decide +kernel

theorem valueFail_bridgeLatch (o : Fin 6) : valueFail bridgeLatchDesc (0x3500 + o.val) 0x12 [1] = none := by
  revert o
  decide +kernel

/-- CLEAR_OUTPUT_LATCH is answered, and does to the module what clearing its output does. -/
theorem execClearOutputLatch_clears {ps : List Part} (r : Req) (x : Session) (o : Fin 6) (s : State) (h : s.Takes r x)
    (hps : .it ∉ ps ∧ .dict ∉ ps ∧ .nets ∉ ps) (hu : ((s.served r).clearOutput o).mask ps = (s.served r).mask ps) :
    ∃ t k n, exec (.clearOutputLatch r o) s = .next t ∧ t = { (s.served r).clearOutput o with dict := k, nets := n } ∧
      s.Accepted t r ∧ Unchanged (.it :: .dict :: .nets :: ps) s t := by
  by_cases ho : o.val < 4
  · have hcmd : (s.served r).writeCommand r.sid x.level (0x3500 + o.val) 0x12 [1] = ((s.served r).clearOutput o, 0) := by
      unfold State.writeCommand
      repeat rw [if_neg (by omega)]
      rw [if_pos (by omega), Nat.add_sub_cancel_left]
    obtain ⟨k, n, he, ha, hun⟩ := State.hostWrite_effect h (isCommand_bridgeLatch o ho) (valueFail_bridgeLatch o)
      (.inr (by omega)) (.inr (by omega)) (by omega) hcmd hu hps
    exact ⟨_, k, n, congrArg Host.Outcome.next (if_pos ho), he, ha, hun⟩
  · have hcmd : (s.served r).writeCommand r.sid x.level (0x3504 + o.val) 0xE [1] = ((s.served r).clearOutput o, 0) := by
      unfold State.writeCommand
      repeat rw [if_neg (by omega)]
      rw [if_pos (by omega), Nat.add_sub_cancel_left]
    obtain ⟨k, n, he, ha, hun⟩ := State.hostWrite_effect h (isCommand_portLatch o (by omega)) (valueFail_portLatch o)
      (.inr (by omega)) (.inr (by omega)) (by omega) hcmd hu hps
    exact ⟨_, k, n, congrArg Host.Outcome.next (if_neg ho), he, ha, hun⟩

/-- CLEAR_OUTPUT_LATCH of a bridge. -/
theorem execClearOutputLatch_bridge (r : Req) (x : Session) (o : Fin 6) (s : State) (h : s.Takes r x) (ho : o.val < 4) :
    ∃ t, exec (.clearOutputLatch r o) s = .next t ∧ (t.br o).latch = false ∧ (t.br o).trips = [] ∧
      (∀ g, g ≠ o.val → t.br g = s.br g) ∧ s.Accepted t r ∧
      Unchanged [.it, .dis, .spin, .bridges, .loads, .budget, .skein, .dict, .nets, .freeCtr] s t := by
  let u := (s.served r).modBr o (fun b => { b with latch := false, trips := [] })
  have hc : (s.served r).clearOutput o = u.bridgeResume o := if_pos ho
  obtain ⟨t, k, n, hn, rfl, ha, hun⟩ := execClearOutputLatch_clears (ps := [.dis, .spin, .bridges, .loads, .budget, .skein, .freeCtr])
    r x o s h (by simp) (by simp [hc, u])
  have hcleared : u.br o = { s.br o with latch := false, trips := [] } := State.modBr_br_same _ _ _ ho
  obtain ⟨hlatch, htrips, hother⟩ := u.bridgeResume_keepsTrips o ho
  rw [hcleared] at hlatch htrips
  rw [hc] at hn ha hun
  exact ⟨_, hn, hlatch, htrips, fun g hg => (hother g hg).trans (State.modBr_br_other _ _ _ _ hg), ha, hun.mono (by simp)⟩

/-- CLEAR_OUTPUT_LATCH of a port, in full. -/
theorem execClearOutputLatch_portOnly (r : Req) (x : Session) (o : Fin 6) (s : State) (h : s.Takes r x) (ho : 4 ≤ o.val) :
    ∃ t, exec (.clearOutputLatch r o) s = .next t ∧ (t.pt (o.val - 4)).latch = false ∧ (t.pt (o.val - 4)).trips = [] ∧
      (∀ g, g ≠ o.val - 4 → t.pt g = s.pt g) ∧ s.Accepted t r ∧ Unchanged [.it, .ports, .dict, .nets] s t := by
  let u := (s.served r).modPt (o.val - 4) (fun p => { p with latch := false, trips := [] })
  have hc : (s.served r).clearOutput o = u.commutate (o.val - 4) := if_neg (by omega)
  obtain ⟨t, hn, hlatch, htrips, ha⟩ := execClearOutputLatch_port r x o s h ho
  obtain ⟨t', k, n, hn', ht', -, hun⟩ := execClearOutputLatch_clears (ps := [.ports]) r x o s h (by simp) (by simp [hc, u])
  obtain rfl : t = t' := Host.Outcome.next.inj (hn.symm.trans hn')
  refine ⟨t, hn, hlatch, htrips, fun g hg => ?_, ha, hun.mono (by simp)⟩
  rw [ht', hc]
  exact (u.commutate_pt_other _ _ hg).trans (State.modPt_pt_other _ _ _ _ hg)

/-! ### Load switches (R324, R329) -/

/-- CLEAR_LOAD_LATCHES, in full. -/
theorem execClearLoadLatches_clears (r : Req) (x : Session) (j : Fin 16) (v : Byte) (s : State) (h : s.Takes r x) (hv : v.toNat < 4) :
    ∃ t, exec (.clearLoadLatches r j v) s = .next t ∧
      t.ld j = { s.ld j with
        therm := (s.ld j).therm && !(bit v.toNat 0), retryL := (s.ld j).retryL && !(bit v.toNat 1),
        retries := if bit v.toNat 1 then 0 else (s.ld j).retries } ∧
      (∀ i, i ≠ j.val → t.ld i = s.ld i) ∧ s.Accepted t r ∧ Unchanged [.it, .loads, .dict, .nets] s t := by
  have hj := j.isLt
  have hcmd : (s.served r).writeCommand r.sid x.level (0x3600 + j.val) 0x11 [v] = ((s.served r).clearLoad j v.toNat, 0) := by
    unfold State.writeCommand
    repeat rw [if_neg (by omega)]
    rw [if_pos (by omega), Nat.add_sub_cancel_left]
    rfl
  obtain ⟨k, n, he, ha, hu⟩ := State.hostWrite_effect (ps := [.loads]) h (isCommand_loadLatch j) (valueFail_loadLatch j v hv)
    (.inr (by omega)) (.inr (by omega)) (by omega) hcmd (State.modLd_mask _ _ _ (by simp)) (by simp)
  have hl : ∀ i, (s.hostWrite r (0x3600 + j.val) 0x11 [v]).ld i = ((s.served r).clearLoad j v.toNat).ld i :=
    fun i => State.ld_of_loads (congrArg State.loads he) i
  refine ⟨_, rfl, (hl j).trans (State.modLd_ld_same _ _ _ hj), fun i hi => (hl i).trans (State.modLd_ld_other _ _ _ _ hi), ha,
    hu.mono (by simp)⟩

theorem State.releaseClamp_ld_other (s : State) (j i : Nat) (hi : i ≠ j) : (s.releaseClamp j).ld i = s.ld i :=
  (State.modLd_ld_other _ _ _ _ hi).trans (State.ld_of_sw (s.refill_sw s.it) i)

theorem State.loadOff_ld_other (s : State) (j i : Nat) (hi : i ≠ j) : (s.loadOff j).ld i = s.ld i :=
  (State.modLd_ld_other _ _ _ _ hi).trans (s.releaseClamp_ld_other j i hi)

/-- A switch that is not wanted on is off, waits for nothing, and takes no other switch with it (R331). -/
theorem State.ldFollow_unwanted (s : State) (j : Nat) (hj : j < 16) (hw : s.ldWant j = false) :
    ((s.ldFollow j).ld j).on = false ∧ ((s.ldFollow j).ld j).waitTill = none ∧ ∀ i, i ≠ j → (s.ldFollow j).ld i = s.ld i := by
  unfold State.ldFollow
  extract_lets l
  rw [if_pos (by rw [hw]; rfl)]
  split
  case isTrue =>
    refine ⟨s.loadOff_on j hj, ?_, s.loadOff_ld_other j⟩
    exact congrArg Load.waitTill (State.modLd_ld_same _ _ _ hj)
  case isFalse hoff =>
    simp only [Bool.or_eq_true, not_or, Bool.not_eq_true, Option.isSome_eq_false_iff, Option.isNone_iff_eq_none] at hoff
    obtain ⟨⟨⟨⟨hon, hwait⟩, -⟩, -⟩, -⟩ := hoff
    exact ⟨hon, hwait, fun _ _ => rfl⟩

/-- Without its command a switch is not wanted on, but for class 1 in BARE, which follows its own input (R331). -/
theorem State.ldWant_uncommanded (s : State) (j : Nat) (hc : s.pN (0x3600 + j) 0x10 ≠ 1)
    (hb : s.power.dev = .bare → s.pN (0x3600 + j) 8 ≠ 1) : s.ldWant j = false := by
  have hcmd : (s.pN (0x3600 + j) 0x10 == 1) = false := beq_eq_false_iff_ne.mpr hc
  cases hd : s.power.dev
  case run => simp [State.ldWant, hd, hcmd]
  case bare => simp [State.ldWant, hd, hcmd, hb hd]
  case safe => simp [State.ldWant, hd, hcmd]
  all_goals simp [State.ldWant, hd]

/-- A command is in use as soon as it is stored, where none before it waits for its boundary. -/
theorem State.loadStored_command (s : State) (j : Fin 16) (v : Byte) (h : alookup (pkey (0x3600 + j.val) 0x10) s.dict.old = none) :
    (s.loadStored j v).pN (0x3600 + j.val) 0x10 = v.toNat := by
  have hu : untilCommit (0x3600 + j.val) = false := by
    clear h
    revert j
    decide +kernel
  simp [State.loadStored, State.modDict, State.pN, Dict.inUse, hu, h, alookup_aput, leNat]

/-- The state that a LOAD_SWITCH_COMMAND of a host leaves, but for the dictionary and the networks. -/
theorem State.hostWrite_loadCommand {r : Req} {x : Session} {j : Fin 16} {v : Byte} {s : State} (h : s.Takes r x) (hv : v.toNat < 2)
    (hf : writeFail (s.proposed (pkey (0x3600 + j.val) 0x10) [v]) (pkey (0x3600 + j.val) 0x10) s.strict = 0) :
    ∃ k n, s.hostWrite r (0x3600 + j.val) 0x10 [v] =
      { (((s.served r).loadStored j v).ldFollow j).spinsFollow with dict := k, nets := n } := by
  have hj := j.isLt
  obtain ⟨huse, hd, hprot⟩ := loadCommand_described j
  have hcheck : (s.served r).writeCheck x.level (0x3600 + j.val) 0x10 [v] = (0, 0) :=
    State.writeCheck_stored h.store (Nat.one_le_iff_ne_zero.mp h.level) h.dev huse (by decide) hd rfl (by decide)
      hprot (valueFail_loadCommand j v hv) (.inr (by omega)) (.inr (by omega)) hf
  have hraise : needsRaised (0x3600 + j.val) 0x10 [v] s.card.life = false := by
    simp [needsRaised, hprot]
    omega
  have hu : Unchanged [.loads, .budget, .skein, .spin] ((s.served r).loadStored j v)
      (((s.served r).loadStored j v).ldFollow j).spinsFollow := Unchanged.of_mask (by simp)
  have hdict : (((s.served r).loadStored j v).ldFollow j).spinsFollow.dict = ((s.served r).loadStored j v).dict := hu .dict (by simp)
  have hnets : (((s.served r).loadStored j v).ldFollow j).spinsFollow.nets = ((s.served r).loadStored j v).nets := hu .nets (by simp)
  have hy : ((((s.served r).loadStored j v).ldFollow j).spinsFollow).session r.sid = some x := by
    rw [State.session, hnets]
    exact (State.served_session r.sid).trans h.known
  obtain ⟨n, he, -⟩ := State.hostWrite_stored h (by omega) hd (by decide) hraise hcheck ((s.served r).storeValue_loadCommand j _ v) hy
    (hu .it (by simp)) (by rw [hdict]; rfl) (by rw [hdict]; rfl)
  exact ⟨_, n, he⟩

/-- LOAD_SWITCH_COMMAND, in full. -/
theorem execLoadSwitchCommand_follows (r : Req) (x : Session) (j : Fin 16) (v : Byte) (s : State) (h : s.Takes r x) (hv : v.toNat < 2)
    (hf : writeFail (s.proposed (pkey (0x3600 + j.val) 0x10) [v]) (pkey (0x3600 + j.val) 0x10) s.strict = 0) :
    ∃ t, exec (.loadSwitchCommand r j v) s = .next t ∧ alookup (pkey (0x3600 + j.val) 0x10) t.dict.store = some [v] ∧
      (v = 0 → alookup (pkey (0x3600 + j.val) 0x10) s.dict.old = none → (s.power.dev = .bare → s.pN (0x3600 + j.val) 8 ≠ 1) →
        (t.ld j).on = false ∧ (t.ld j).waitTill = none ∧ ∀ i, i ≠ j.val → t.ld i = s.ld i) ∧
      s.Accepted t r ∧ Unchanged [.it, .spin, .loads, .budget, .skein, .dict, .nets] s t := by
  let u := (s.served r).loadStored j v
  obtain ⟨t, hn, hstore, ha⟩ := execLoadSwitchCommand_accepted r x j v s h hv hf
  obtain ⟨k, n, he⟩ := State.hostWrite_loadCommand h hv hf
  obtain rfl : s.hostWrite r (0x3600 + j.val) 0x10 [v] = t := Host.Outcome.next.inj hn
  have hloads : (s.hostWrite r (0x3600 + j.val) 0x10 [v]).loads = (u.ldFollow j).spinsFollow.loads := by rw [he]
  have hld : ∀ i, (s.hostWrite r (0x3600 + j.val) 0x10 [v]).ld i = (u.ldFollow j).ld i := fun i =>
    (State.ld_of_loads hloads i).trans (State.spinsFollow_ld _ i)
  refine ⟨_, hn, hstore, fun hv0 hold hbare => ?_, ha, ?_⟩
  · have hcmd : u.pN (0x3600 + j.val) 0x10 ≠ 1 := by
      rw [(s.served r).loadStored_command j v hold, hv0]
      decide
    have hclass : u.pN (0x3600 + j.val) 8 = s.pN (0x3600 + j.val) 8 :=
      State.valueStored_pN (s.served r) [v] (by simp [pkey]) (by simp only [pkey]; omega)
    obtain ⟨hon, hwait, hother⟩ := u.ldFollow_unwanted j j.isLt (u.ldWant_uncommanded j hcmd fun hd => by
      rw [hclass]
      exact hbare hd)
    rw [hld]
    exact ⟨hon, hwait, fun i hi => (hld i).trans (hother i hi)⟩
  · rw [he]
    have hs : Unchanged [.it, .nets] s (s.served r) := Unchanged.of_mask (State.served_mask s r (by simp))
    have hu : Unchanged [.dict, .spin, .loads, .budget, .skein] (s.served r) (u.ldFollow j).spinsFollow :=
      Unchanged.of_mask (by simp [u, State.loadStored])
    exact ((hs.mono (by simp)).trans (hu.mono (by simp))).trans (Unchanged.of_mask (mask_set_dict_nets _ k n (by simp)))

/-- Settles O23: the latches of a bridge, of a port and of a load switch, and the command of a load switch. -/
theorem outputCommands : Obligations.OutputCommands :=
  ⟨execClearOutputLatch_bridge, execClearOutputLatch_portOnly, execClearLoadLatches_clears, execLoadSwitchCommand_follows⟩

end Sys2Proof.Machine

end
